-- ==== Sys2Proof/Word.lean ====
section
/-!
DEFINITION. The word types of the ZG4800 manual: bytes, stamps and motes.
-/

namespace Sys2Proof

/-- One byte. -/
abbrev Byte := BitVec 8

/-- A run of bytes, byte 0 first (little-endian fields by R14). -/
abbrev Bytes := List Byte

/-- A 64-bit stamp: seconds in [63:32], motes in [31:0] (R18). -/
abbrev Stamp := BitVec 64

/-- A count of motes, 2^-32 s each (R16). -/
abbrev Motes := Nat

end Sys2Proof
end

