-- ==== Sys2Proof/Machine/Tab.lean ====
section
/-!
DEFINITION. A table: plain data indexed by a number, held as a list of (index, value) with rising indexes.  An
index the list does not hold reads as the default the reader names.
-/

namespace Sys2Proof.Machine

/-- Sparse data by index: indexes strictly rising. -/
abbrev Tab (α : Type) := List (Nat × α)

/-- The value at `k`, if the table lists one. -/
def Tab.find {α : Type} : Tab α → Nat → Option α
  | [], _ => none
  | (j, v) :: t, k => if j = k then some v else Tab.find t k

/-- The value at `k`, `d` where the table lists none. -/
def Tab.look {α : Type} (t : Tab α) (d : α) (k : Nat) : α := (Tab.find t k).getD d

/-- The table with `v` at `k`. -/
def Tab.put {α : Type} : Tab α → Nat → α → Tab α
  | [], k, v => [(k, v)]
  | (j, u) :: t, k, v =>
    if k < j then (k, v) :: (j, u) :: t
    else if k = j then (k, v) :: t
    else (j, u) :: Tab.put t k v

/-- The table without an entry at `k`. -/
def Tab.drop {α : Type} : Tab α → Nat → Tab α
  | [], _ => []
  | (j, u) :: t, k => if j = k then Tab.drop t k else (j, u) :: Tab.drop t k

/-- Whether `k` is listed. -/
def Tab.has {α : Type} (t : Tab α) (k : Nat) : Bool := (Tab.find t k).isSome

/-- Every entry changed by `f`, indexes kept. -/
def Tab.over {α : Type} (f : Nat → α → α) (t : Tab α) : Tab α := t.map fun p => (p.1, f p.1 p.2)

/-- The values listed. -/
def Tab.vals {α : Type} (t : Tab α) : List α := t.map Prod.snd

/-- The lowest index at or above `from0`, below `from0 + fuel`, that the table does not list. -/
def Tab.fresh {α : Type} (t : Tab α) : Nat → Nat → Nat
  | from0, 0 => from0
  | from0, fuel + 1 => if t.has from0 then t.fresh (from0 + 1) fuel else from0

/-- Indexes strictly rising. -/
def Tab.ok {α : Type} : Tab α → Bool
  | [] => true
  | [_] => true
  | (i, _) :: (j, v) :: t => decide (i < j) && Tab.ok ((j, v) :: t)

end Sys2Proof.Machine
end

