-- ==== Sys2Proof/Machine/Regs.lean ====
section
/-!
DEFINITION. The register file of chapter 21: one structure per register that has several fields, one
structure per block window.  Each field keeps the name, width and reset value of its register table; the
rule after each name is the one whose table defines it.  A field the spec computes from other state
(`Machine/Derived.lean`) has no storage here.  Reserved fields read 0 and have no storage.
-/

namespace Sys2Proof.Machine

/-- MGMT_MODE_STATUS, offset 0x0010 of window 0x00, 32 bits (R57). -/
structure MgmtModeStatusReg where
  /-- [23:16] RO -/
  start_fail : BitVec 8 := 0
  /-- [13:12] RO -/
  ro_cause : BitVec 2 := 0
  /-- [11] RO -/
  unanchored : Bool := false
  deriving DecidableEq, Repr

/-- CAMP_CTRL, offset 0x0000 of window 0x01, 32 bits (R98). -/
structure CampCtrlReg where
  /-- [1:0] RWM -/
  anchor_port : BitVec 2 := 2
  deriving DecidableEq, Repr

/-- CAMP_STATUS, offset 0x0004 of window 0x01, 32 bits (R98). -/
structure CampStatusReg where
  /-- [15] RW1C -/
  offset_rejected : Bool := false
  /-- [14] RO -/
  issue_unanch : Bool := false
  /-- [13] RW1C -/
  preseed_overflow : Bool := false
  /-- [12:10] RO -/
  floor_src : BitVec 3 := 0
  /-- [9:8] RO -/
  source : BitVec 2 := 0
  /-- [6] RO -/
  clamped : Bool := false
  /-- [5] RO -/
  holdover : Bool := false
  /-- [4] RO -/
  anchored : Bool := false
  /-- [0] RO -/
  floor_seeded : Bool := false
  deriving DecidableEq, Repr

/-- CAMP_STEP_LOG, offset 0x0028 of window 0x01, 32 bits (R98). -/
structure CampStepLogReg where
  /-- [31:16] RO -/
  step_count : BitVec 16 := 0
  /-- [7:4] RO -/
  cause : BitVec 4 := 0
  /-- [0] RO -/
  backward : Bool := false
  deriving DecidableEq, Repr

/-- CAMP_SYNC_STATS, offset 0x002C of window 0x01, 32 bits (R98). -/
structure CampSyncStatsReg where
  /-- [31:16] RO -/
  fail_count : BitVec 16 := 0
  /-- [15:0] RO -/
  good_count : BitVec 16 := 0
  deriving DecidableEq, Repr

/-- PAD_STRAP_STATUS, offset 0x0000 of window 0x02, 32 bits (R140). -/
structure PadStrapStatusReg where
  /-- [14] RO -/
  pwrdis_live : Bool := false
  /-- [13] RW1C -/
  strap_changed : Bool := false
  /-- [12:8] RO -/
  live : BitVec 5 := 0
  /-- [4] RO -/
  dualport : Bool := false
  /-- [3] RO -/
  test_en : Bool := false
  /-- [2:1] RO -/
  casc_pos : BitVec 2 := 0
  /-- [0] RO -/
  mast : Bool := true
  deriving DecidableEq, Repr

/-- PAD_RESET_MAP, offset 0x0004 of window 0x02, 32 bits (R140). -/
structure PadResetMapReg where
  /-- [15:14] RO -/
  tdo : BitVec 2 := 0
  /-- [13:12] RO -/
  kl_rst : BitVec 2 := 1
  /-- [11:10] RO -/
  led_fault : BitVec 2 := 0
  /-- [9:8] RO -/
  clkreq : BitVec 2 := 0
  /-- [7:6] RO -/
  nven : BitVec 2 := 1
  /-- [5:4] RO -/
  ch_other : BitVec 2 := 0
  /-- [3:2] RO -/
  ch_wp : BitVec 2 := 1
  /-- [1:0] RO -/
  ch_ce : BitVec 2 := 2
  deriving DecidableEq, Repr

/-- PAD_IDCODE, offset 0x0008 of window 0x02, 32 bits (R140). -/
structure PadIdcodeReg where
  /-- [31:28] RO -/
  version : BitVec 4 := 0
  /-- [27:12] RO -/
  part : BitVec 16 := 18432
  /-- [11:1] RO -/
  manufacturer : BitVec 11 := 0
  /-- [0] RO -/
  one : Bool := true
  deriving DecidableEq, Repr

/-- PWR_STATUS, offset 0x0000 of window 0x03, 32 bits (R175). -/
structure PwrStatusReg where
  /-- [23:20] RO -/
  rail_fault : BitVec 4 := 0
  /-- [19:18] RO -/
  last_flush : BitVec 2 := 0
  /-- [17] RW1C -/
  shroud_lost : Bool := false
  /-- [16] RW1C -/
  vin_ov : Bool := false
  /-- [8] RO -/
  below_floor : Bool := false
  /-- [7] RO -/
  bank_test : Bool := false
  /-- [6] RO -/
  bank_fault : Bool := false
  /-- [5] RO -/
  charging : Bool := false
  /-- [4] RO -/
  holdup_active : Bool := false
  /-- [3] RO -/
  loss_detected : Bool := false
  /-- [2] RO -/
  vin_good : Bool := false
  deriving DecidableEq, Repr

/-- PWR_MEASURE, offset 0x0004 of window 0x03, 32 bits (R175). -/
structure PwrMeasureReg where
  /-- [31:16] RO -/
  bank_mv : BitVec 16 := 0
  /-- [15:0] RO -/
  vin_mv : BitVec 16 := 0
  deriving DecidableEq, Repr

/-- PWR_BANK_CAP, offset 0x0008 of window 0x03, 32 bits (R175). -/
structure PwrBankCapReg where
  /-- [31:16] RO -/
  test_count : BitVec 16 := 0
  /-- [15:0] RO -/
  cap_uf : BitVec 16 := 0
  deriving DecidableEq, Repr

/-- PWR_PAIR_STATUS, offset 0x0010 of window 0x03, 32 bits (R175). -/
structure PwrPairStatusReg where
  /-- [23:16] RO -/
  failed : BitVec 8 := 0
  /-- [15:8] RO -/
  npg : BitVec 8 := 0
  /-- [7:0] RO -/
  nven : BitVec 8 := 0
  deriving DecidableEq, Repr

/-- PWR_LEDGER, offset 0x0014 of window 0x03, 32 bits (R175). -/
structure PwrLedgerReg where
  /-- [31] RW1C -/
  floor_admit : Bool := false
  deriving DecidableEq, Repr

/-- PWR_FLUSH_LAST, offset 0x0020 of window 0x03, 64 bits (R175). -/
structure PwrFlushLastReg where
  /-- [63:32] RO -/
  duration : BitVec 32 := 0
  /-- [10:0] RO -/
  mib : BitVec 11 := 0
  deriving DecidableEq, Repr

/-- PWR_OP_CHARGE_A, offset 0x0068 of window 0x03, 32 bits (R175). -/
structure PwrOpChargeAReg where
  /-- [31:16] RWM -/
  program_mw : BitVec 16 := 130
  /-- [15:0] RWM -/
  read_mw : BitVec 16 := 150
  deriving DecidableEq, Repr

/-- PWR_OP_CHARGE_B, offset 0x006C of window 0x03, 32 bits (R175). -/
structure PwrOpChargeBReg where
  /-- [31:16] RWM -/
  erase_mw : BitVec 16 := 120
  /-- [15:0] RWM -/
  transfer_mw : BitVec 16 := 280
  deriving DecidableEq, Repr

/-- RST_LAST, offset 0x0004 of window 0x04, 32 bits (R223). -/
structure RstLastReg where
  /-- [12] RO -/
  stamp_unanch : Bool := false
  /-- [11:8] RO -/
  mode_at : BitVec 4 := 0
  /-- [7] RO -/
  deferred : Bool := false
  /-- [6:4] RO -/
  level : BitVec 3 := 5
  /-- [3:0] RO -/
  source : BitVec 4 := 0
  deriving DecidableEq, Repr

/-- RST_CLK_STATUS, offset 0x0018 of window 0x04, 32 bits (R223). -/
structure RstClkStatusReg where
  /-- [23:16] RO -/
  not_ready_count : BitVec 8 := 0
  deriving DecidableEq, Repr

/-- RST_WDT_STATUS, offset 0x0028 of window 0x04, 32 bits (R223). -/
structure RstWdtStatusReg where
  /-- [15:8] RO -/
  stage1_count : BitVec 8 := 0
  /-- [7] RW1C -/
  stage1 : Bool := false
  /-- [5:0] RO -/
  core : BitVec 6 := 0
  deriving DecidableEq, Repr

/-- BA_STATUS, offset 0x0000 of window 0x05, 32 bits (R223). -/
structure BaStatusReg where
  /-- [21:16] RO -/
  nonce_epoch : BitVec 6 := 0
  /-- [15:8] RO -/
  journal_good : BitVec 8 := 0
  /-- [7] RW1C -/
  epoch_advanced : Bool := false
  /-- [6] RO -/
  ba_worn : Bool := false
  /-- [5] RW1C -/
  ba_fail : Bool := false
  /-- [4] RO -/
  fallback : Bool := false
  /-- [3] RO -/
  slot_b_valid : Bool := false
  /-- [2] RO -/
  slot_a_valid : Bool := false
  /-- [0] RO -/
  active_slot : Bool := false
  deriving DecidableEq, Repr

/-- BA_SLOT_INFO_A, offset 0x0008 of window 0x05, 64 bits (R223). -/
structure BaSlotInfoAReg where
  /-- [63:32] RO -/
  generation : BitVec 32 := 0
  /-- [31:0] RO -/
  sec_version : BitVec 32 := 0
  deriving DecidableEq, Repr

/-- MAN_STATUS, offset 0x0000 of window 0x06, 32 bits (R256). -/
structure ManStatusReg where
  /-- [23:16] RO -/
  reject_reason : BitVec 8 := 0
  /-- [13] RO -/
  reject_copy : Bool := false
  /-- [12] RO -/
  floor_pending : Bool := false
  /-- [10] RW1C -/
  mirror_fail : Bool := false
  /-- [9] RO -/
  copy_b_valid : Bool := false
  /-- [8] RO -/
  copy_a_valid : Bool := false
  /-- [3] RO -/
  defaults_only : Bool := false
  /-- [2] RO -/
  fallback : Bool := false
  /-- [0] RO -/
  applied_copy : Bool := false
  deriving DecidableEq, Repr

/-- MAN_INSTALL_STATUS, offset 0x002C of window 0x06, 32 bits (R256). -/
structure ManInstallStatusReg where
  /-- [23:16] RO -/
  result : BitVec 8 := 0
  /-- [12] RO -/
  target : Bool := false
  /-- [7:4] RO -/
  step : BitVec 4 := 0
  deriving DecidableEq, Repr

/-- PCIE_PORT_STATUS0, offset 0x0000 of window 0x07, 32 bits (R301). -/
structure PciePortStatus0Reg where
  /-- [17:16] RO -/
  tag_mode : BitVec 2 := 0
  /-- [15:12] RO -/
  rate : BitVec 4 := 0
  /-- [11:6] RO -/
  width : BitVec 6 := 0
  /-- [5] RO -/
  flit : Bool := false
  /-- [4] RO -/
  d3hot : Bool := false
  /-- [3] RO -/
  mse : Bool := false
  /-- [2] RO -/
  bme : Bool := false
  /-- [1] RO -/
  ptm_enabled : Bool := false
  /-- [0] RO -/
  link_up : Bool := false
  deriving DecidableEq, Repr

/-- PCIE_CFG, offset 0x0008 of window 0x07, 32 bits (R301). -/
structure PcieCfgReg where
  /-- [3] RWM -/
  cmb_enable : Bool := true
  /-- [2] RWM -/
  dual_permit : Bool := false
  deriving DecidableEq, Repr

/-- PCIE_ERR_COUNT, offset 0x0018 of window 0x07, 32 bits (R301). -/
structure PcieErrCountReg where
  /-- [31:16] RO -/
  uncorrectable : BitVec 16 := 0
  /-- [15:0] RO -/
  correctable : BitVec 16 := 0
  deriving DecidableEq, Repr

/-- PCIE_CMB_FENCE, offset 0x0028 of window 0x07, 32 bits (R301). -/
structure PcieCmbFenceReg where
  /-- [31] RW1C -/
  win_err : Bool := false
  deriving DecidableEq, Repr

/-- PCIE_CMB_WIN, offset 0x0100 of window 0x07, 64 bits (R301). -/
structure PcieCmbWinReg where
  /-- [63] RW -/
  enable : Bool := true
  /-- [62] RW -/
  port : Bool := false
  /-- [61] RW -/
  host_read : Bool := true
  /-- [60] RW -/
  host_write : Bool := true
  /-- [37:32] RW -/
  len : BitVec 6 := 32
  /-- [24:16] RW -/
  base : BitVec 9 := 0
  deriving DecidableEq, Repr

/-- CMD_HALT_STATUS, offset 0x0008 of window 0x08, 32 bits (R358). -/
structure CmdHaltStatusReg where
  /-- [27:16] RO -/
  last_sqid : BitVec 12 := 0
  deriving DecidableEq, Repr

/-- CMD_CFG, offset 0x0020 of window 0x08, 32 bits (R358). -/
structure CmdCfgReg where
  /-- [15] RWM -/
  ext_enable : Bool := true
  /-- [10:0] RWM -/
  ns_limit : BitVec 11 := 1024
  deriving DecidableEq, Repr

/-- MAP_STATUS, offset 0x0000 of window 0x09, 32 bits (R405). -/
structure MapStatusReg where
  /-- [9:8] RO -/
  last_end : BitVec 2 := 0
  /-- [7] RO -/
  scan_mismatch : Bool := false
  /-- [6] RO -/
  ckpt_fallback : Bool := false
  /-- [4] RO -/
  fine_low : Bool := false
  /-- [3] RO -/
  ckpt_busy : Bool := false
  /-- [2] RO -/
  horizon_unanch : Bool := false
  /-- [1] RO -/
  ckpt_unanch : Bool := false
  deriving DecidableEq, Repr

/-- MAP_SCAN_CHANGES, offset 0x0040 of window 0x09, 64 bits (R405). -/
structure MapScanChangesReg where
  /-- [63:32] RO -/
  stripes : BitVec 32 := 0
  /-- [31:0] RO -/
  applied : BitVec 32 := 0
  deriving DecidableEq, Repr

/-- MAP_CFG, offset 0x0080 of window 0x09, 32 bits (R405). -/
structure MapCfgReg where
  /-- [4] RWM -/
  fold_enable : Bool := true
  /-- [3] RWM -/
  stream_enable : Bool := true
  /-- [2] RWM -/
  hint_enable : Bool := true
  /-- [1] RWM -/
  spec_enable : Bool := true
  /-- [0] RWM -/
  paged : Bool := false
  deriving DecidableEq, Repr

/-- MAP_SPEC_CFG, offset 0x0084 of window 0x09, 32 bits (R405). -/
structure MapSpecCfgReg where
  /-- [31:23] RWM -/
  streams : BitVec 9 := 256
  /-- [22:16] RWM -/
  spec_chan : BitVec 7 := 64
  /-- [11:0] RWM -/
  spec_total : BitVec 12 := 3072
  deriving DecidableEq, Repr

/-- STR_STATUS, offset 0x0000 of window 0x0A, 32 bits (R451). -/
structure StrStatusReg where
  /-- [5:4] RO -/
  replay_src : BitVec 2 := 0
  /-- [3] RW1C -/
  stays_lost : Bool := false
  /-- [2] RO -/
  stay_repair : Bool := false
  /-- [1:0] RO -/
  shape : BitVec 2 := 0
  deriving DecidableEq, Repr

/-- STR_FAIL_COUNT, offset 0x0010 of window 0x0A, 32 bits (R451). -/
structure StrFailCountReg where
  /-- [31:16] RO -/
  closed : BitVec 16 := 0
  /-- [15:0] RO -/
  abandoned : BitVec 16 := 0
  deriving DecidableEq, Repr

/-- STAY_STATUS, offset 0x0014 of window 0x0A, 32 bits (R451). -/
structure StayStatusReg where
  /-- [26:16] RO -/
  die1 : BitVec 11 := 0
  /-- [10:0] RO -/
  die0 : BitVec 11 := 0
  deriving DecidableEq, Repr

/-- STR_CFG, offset 0x0080 of window 0x0A, 32 bits (R451). -/
structure StrCfgReg where
  /-- [26:16] RWM -/
  shroud_mib : BitVec 11 := 1024
  /-- [7:0] RWM -/
  inflight_max : BitVec 8 := 128
  deriving DecidableEq, Repr

/-- RCL_STATUS, offset 0x0000 of window 0x0B, 32 bits (R488). -/
structure RclStatusReg where
  /-- [23:20] RO -/
  last_class : BitVec 4 := 0
  /-- [9] RO -/
  counts_ready : Bool := false
  /-- [8] RO -/
  ro_spares : Bool := false
  /-- [7] RO -/
  spare_warn : Bool := false
  /-- [5] RO -/
  idle : Bool := false
  /-- [4] RO -/
  dtwin : Bool := false
  /-- [3] RO -/
  plm_enabled : Bool := false
  /-- [1:0] RO -/
  level : BitVec 2 := 0
  deriving DecidableEq, Repr

/-- RCL_SPARES, offset 0x0008 of window 0x0B, 64 bits (R488). -/
structure RclSparesReg where
  /-- [63:32] RO -/
  initial : BitVec 32 := 0
  /-- [31:0] RO -/
  spares : BitVec 32 := 0
  deriving DecidableEq, Repr

/-- RCL_NEEDS, offset 0x0010 of window 0x0B, 64 bits (R488). -/
structure RclNeedsReg where
  /-- [63:32] RO -/
  n_user : BitVec 32 := 0
  /-- [31:16] RO -/
  n_meta : BitVec 16 := 0
  /-- [15:0] RO -/
  n_spill : BitVec 16 := 0
  deriving DecidableEq, Repr

/-- RCL_PE_STATS, offset 0x0020 of window 0x0B, 64 bits (R488). -/
structure RclPeStatsReg where
  /-- [63:48] RO -/
  pe_max : BitVec 16 := 0
  /-- [47:32] RO -/
  pe_min : BitVec 16 := 0
  /-- [31:16] RO -/
  pe_mean : BitVec 16 := 0
  /-- [7:0] RO -/
  pct_used : BitVec 8 := 0
  deriving DecidableEq, Repr

/-- RCL_RETIRED, offset 0x0028 of window 0x0B, 32 bits (R488). -/
structure RclRetiredReg where
  /-- [31:16] RO -/
  erase_fail : BitVec 16 := 0
  /-- [15:0] RO -/
  program_fail : BitVec 16 := 0
  deriving DecidableEq, Repr

/-- RCL_THROTTLE, offset 0x0038 of window 0x0B, 32 bits (R488). -/
structure RclThrottleReg where
  /-- [15:0] RO -/
  stalls : BitVec 16 := 0
  deriving DecidableEq, Repr

/-- RCL_CFG, offset 0x0080 of window 0x0B, 32 bits (R488). -/
structure RclCfgReg where
  /-- [27:16] RWM -/
  w_wear : BitVec 12 := 1024
  /-- [15:4] RWM -/
  w_age : BitVec 12 := 2048
  /-- [2] RWM -/
  plm_permit : Bool := true
  /-- [1] RWM -/
  wl_enable : Bool := true
  deriving DecidableEq, Repr

/-- CH_SUSPENDS, offset 0x0030 of window 0x0C, 64 bits (R528). -/
structure ChSuspendsReg where
  /-- [63:32] RO -/
  erase : BitVec 32 := 0
  /-- [31:0] RO -/
  program : BitVec 32 := 0
  deriving DecidableEq, Repr

/-- CH_CFG, offset 0x0080 of window 0x0C, 32 bits (R528). -/
structure ChCfgReg where
  /-- [19:16] RWM -/
  target_rate : BitVec 4 := 7
  /-- [11:10] RWM -/
  drive : BitVec 2 := 1
  /-- [9:8] RWM -/
  odt : BitVec 2 := 2
  /-- [0] RWM -/
  nv_ddr3_fallback : Bool := true
  deriving DecidableEq, Repr

/-- CH_SUSP_CFG, offset 0x0084 of window 0x0C, 32 bits (R528). -/
structure ChSuspCfgReg where
  /-- [31:24] RWM -/
  susp_reads_max : BitVec 8 := 8
  /-- [23:16] RWM -/
  erase_susp_max : BitVec 8 := 12
  /-- [15:8] RWM -/
  prog_susp_max : BitVec 8 := 2
  deriving DecidableEq, Repr

/-- LDPC_CFG, offset 0x0088 of window 0x0C, 32 bits (R528). -/
structure LdpcCfgReg where
  /-- [28:26] RWM -/
  code : BitVec 3 := 2
  /-- [23:18] RWM -/
  iter_max : BitVec 6 := 20
  /-- [15:8] RWM -/
  soft_delta : BitVec 8 := 12
  /-- [6:1] RWM -/
  retry_max : BitVec 6 := 16
  /-- [0] RWM -/
  soft_enable : Bool := true
  deriving DecidableEq, Repr

/-- CH_REFRESH_CFG, offset 0x008C of window 0x0C, 32 bits (R528). -/
structure ChRefreshCfgReg where
  /-- [31:16] RWM -/
  refresh_bits : BitVec 16 := 180
  /-- [12:8] RWM -/
  refresh_level : BitVec 5 := 4
  /-- [7:0] RWM -/
  erased_zeros : BitVec 8 := 64
  deriving DecidableEq, Repr

/-- CHn_STATUS, offset 0x1000 of window 0x0C, 32 bits (R528). -/
structure ChnStatusReg where
  /-- [23:16] RO -/
  found : BitVec 8 := 0
  /-- [12] RO -/
  failed : Bool := false
  /-- [11] RO -/
  training : Bool := false
  /-- [10] RO -/
  degraded : Bool := false
  /-- [7:4] RO -/
  rate : BitVec 4 := 0
  /-- [3:0] RO -/
  mode : BitVec 4 := 0
  deriving DecidableEq, Repr

/-- CHn_ERR, offset 0x1004 of window 0x0C, 32 bits (R528). -/
structure ChnErrReg where
  /-- [31:16] RO -/
  train_fail : BitVec 16 := 0
  /-- [15:0] RO -/
  timeouts : BitVec 16 := 0
  deriving DecidableEq, Repr

/-- RED_STATUS, offset 0x0000 of window 0x0D, 32 bits (R564). -/
structure RedStatusReg where
  /-- [11] RW1C -/
  no_page : Bool := false
  /-- [10] RW1C -/
  target_refused : Bool := false
  /-- [9] RO -/
  fatal_shape : Bool := false
  /-- [8] RO -/
  fallback_shape : Bool := false
  /-- [7:6] RO -/
  from_shape : BitVec 2 := 0
  /-- [5:4] RO -/
  reshape : BitVec 2 := 0
  deriving DecidableEq, Repr

/-- RED_REBUILD_PROGRESS, offset 0x0018 of window 0x0D, 64 bits (R564). -/
structure RedRebuildProgressReg where
  /-- [63:32] RO -/
  total : BitVec 32 := 0
  /-- [31:0] RO -/
  walked : BitVec 32 := 0
  deriving DecidableEq, Repr

/-- RED_LOST, offset 0x0020 of window 0x0D, 64 bits (R564). -/
structure RedLostReg where
  /-- [63:32] RO -/
  stripes : BitVec 32 := 0
  /-- [31:0] RO -/
  units : BitVec 32 := 0
  deriving DecidableEq, Repr

/-- RED_BECALM_EVENTS, offset 0x0030 of window 0x0D, 32 bits (R564). -/
structure RedBecalmEventsReg where
  /-- [31:16] RO -/
  timeouts : BitVec 16 := 0
  /-- [15:0] RO -/
  entries : BitVec 16 := 0
  deriving DecidableEq, Repr

/-- RED_CFG, offset 0x0080 of window 0x0D, 32 bits (R564). -/
structure RedCfgReg where
  /-- [25:24] RWM -/
  target_shape : BitVec 2 := 0
  /-- [22] RWM -/
  return_enable : Bool := false
  /-- [15:12] RWM -/
  rebuild_share : BitVec 4 := 4
  /-- [11:8] RWM -/
  calm_reads : BitVec 4 := 4
  /-- [7:0] RWM -/
  fail_count : BitVec 8 := 8
  deriving DecidableEq, Repr

/-- RED_CFG2, offset 0x0084 of window 0x0D, 32 bits (R564). -/
structure RedCfg2Reg where
  /-- [27:16] RWM -/
  die_retire_max : BitVec 12 := 512
  /-- [6:0] RWM -/
  rebuild_depth : BitVec 7 := 16
  deriving DecidableEq, Repr

/-- THM_STATUS, offset 0x0000 of window 0x0E, 32 bits (R599). -/
structure ThmStatusReg where
  /-- [20] RO -/
  tt_over : Bool := false
  /-- [19:16] RO -/
  hottest : BitVec 4 := 0
  /-- [13:8] RO -/
  diode_valid : BitVec 6 := 0
  /-- [7] RO -/
  ext_valid : Bool := false
  /-- [6] RO -/
  model_degraded : Bool := false
  /-- [5] RO -/
  running : Bool := false
  /-- [4] RO -/
  throttling : Bool := false
  /-- [3:2] RO -/
  clock_level : BitVec 2 := 0
  /-- [1:0] RO -/
  level : BitVec 2 := 0
  deriving DecidableEq, Repr

/-- THM_COMPOSITE, offset 0x0004 of window 0x0E, 32 bits (R599). -/
structure ThmCompositeReg where
  /-- [31:16] RO -/
  max : BitVec 16 := 32768
  /-- [15:0] RO -/
  composite : BitVec 16 := 32768
  deriving DecidableEq, Repr

/-- THM_OSC_COMP, offset 0x0018 of window 0x0E, 64 bits (R599). -/
structure ThmOscCompReg where
  /-- [63:48] RO -/
  t0 : BitVec 16 := 0
  /-- [47:32] RO -/
  a2 : BitVec 16 := 0
  /-- [31:16] RO -/
  a1 : BitVec 16 := 0
  /-- [15:0] RO -/
  comp : BitVec 16 := 0
  deriving DecidableEq, Repr

/-- THM_THRESH, offset 0x0080 of window 0x0E, 32 bits (R599). -/
structure ThmThreshReg where
  /-- [31:24] RWM -/
  halt : BitVec 8 := 90
  /-- [23:16] RWM -/
  throttle : BitVec 8 := 80
  /-- [15:8] RWM -/
  warn : BitVec 8 := 75
  /-- [3:0] RWM -/
  hyst : BitVec 4 := 3
  deriving DecidableEq, Repr

/-- THM_CFG, offset 0x0084 of window 0x0E, 32 bits (R599). -/
structure ThmCfgReg where
  /-- [31:24] RWM -/
  k_x : BitVec 8 := 16
  /-- [23:16] RWM -/
  k_c : BitVec 8 := 16
  /-- [15:8] RWM -/
  k_b : BitVec 8 := 32
  /-- [6:4] RWM -/
  ext_pair : BitVec 3 := 0
  /-- [1] RWM -/
  method_b : Bool := true
  /-- [0] RWM -/
  method_a : Bool := true
  deriving DecidableEq, Repr

/-- THM_CFG3, offset 0x008C of window 0x0E, 32 bits (R599). -/
structure ThmCfg3Reg where
  /-- [15:8] RWM -/
  c_max : BitVec 8 := 10
  /-- [7:0] RWM -/
  diode_limit : BitVec 8 := 20
  deriving DecidableEq, Repr

/-- PSM_STATUS, offset 0x0000 of window 0x0F, 32 bits (R627). -/
structure PsmStatusReg where
  /-- [14:13] RO -/
  patrol_phase : BitVec 2 := 0
  /-- [12] RO -/
  refusal_unanch : Bool := false
  /-- [11:9] RO -/
  req1 : BitVec 3 := 0
  /-- [8:6] RO -/
  req0 : BitVec 3 := 0
  /-- [5:3] RO -/
  last_op : BitVec 3 := 0
  /-- [2:0] RO -/
  in_force : BitVec 3 := 0
  deriving DecidableEq, Repr

/-- PSM_LAST_REFUSAL, offset 0x0004 of window 0x0F, 32 bits (R627). -/
structure PsmLastRefusalReg where
  /-- [31:16] RO -/
  refusers : BitVec 16 := 0
  /-- [15:12] RO -/
  target : BitVec 4 := 0
  /-- [11:8] RO -/
  reason : BitVec 4 := 0
  /-- [7:0] RO -/
  block : BitVec 8 := 0
  deriving DecidableEq, Repr

/-- PSM_PATROL_STATS, offset 0x0010 of window 0x0F, 64 bits (R627). -/
structure PsmPatrolStatsReg where
  /-- [63:32] RO -/
  samples : BitVec 32 := 0
  /-- [31:16] RO -/
  reports : BitVec 16 := 0
  /-- [15:0] RO -/
  uncorr : BitVec 16 := 0
  deriving DecidableEq, Repr

/-- PSM_PATROL_CURSOR, offset 0x0018 of window 0x0F, 32 bits (R627). -/
structure PsmPatrolCursorReg where
  /-- [22:12] RO -/
  die : BitVec 11 := 0
  /-- [11:0] RO -/
  block : BitVec 12 := 0
  deriving DecidableEq, Repr

/-- PSM_TRANSITIONS, offset 0x001C of window 0x0F, 32 bits (R627). -/
structure PsmTransitionsReg where
  /-- [31:16] RO -/
  entries : BitVec 16 := 0
  /-- [15:0] RO -/
  io_returns : BitVec 16 := 0
  deriving DecidableEq, Repr

/-- PSM_REFUSALS, offset 0x0040 of window 0x0F, 32 bits (R627). -/
structure PsmRefusalsReg where
  /-- [31:16] RO -/
  expired : BitVec 16 := 0
  /-- [15:0] RO -/
  refused : BitVec 16 := 0
  deriving DecidableEq, Repr

/-- PSM_PATROL_CFG, offset 0x0090 of window 0x0F, 32 bits (R627). -/
structure PsmPatrolCfgReg where
  /-- [24] RWM -/
  patrol_enable : Bool := true
  /-- [23:16] RWM -/
  patrol_delta : BitVec 8 := 32
  /-- [11:0] RWM -/
  patrol_reads : BitVec 12 := 256
  deriving DecidableEq, Repr

/-- SEC_STATUS, offset 0x0000 of window 0x10, 32 bits (R661). -/
structure SecStatusReg where
  /-- [4] RO -/
  nonce_prefetch : Bool := false
  /-- [3] RO -/
  sec_store_lost : Bool := false
  deriving DecidableEq, Repr

/-- SEC_GCM_COUNTS, offset 0x0018 of window 0x10, 64 bits (R661). -/
structure SecGcmCountsReg where
  /-- [63:32] RO -/
  sealed : BitVec 32 := 0
  /-- [31:0] RO -/
  opened : BitVec 32 := 0
  deriving DecidableEq, Repr

/-- SEC_FLAG_FAULTS, offset 0x0034 of window 0x10, 32 bits (R661). -/
structure SecFlagFaultsReg where
  /-- [29:20] RO -/
  sig : BitVec 10 := 0
  /-- [19:10] RO -/
  gcm : BitVec 10 := 0
  /-- [9:0] RO -/
  digest : BitVec 10 := 0
  deriving DecidableEq, Repr

/-- SIG_COUNT, offset 0x0038 of window 0x10, 32 bits (R661). -/
structure SigCountReg where
  /-- [31:16] RO -/
  rejected : BitVec 16 := 0
  /-- [15:0] RO -/
  verified : BitVec 16 := 0
  deriving DecidableEq, Repr

/-- SEC_CFG, offset 0x0080 of window 0x10, 32 bits (R661). -/
structure SecCfgReg where
  /-- [23:16] RWM -/
  pin_try_limit : BitVec 8 := 10
  /-- [14:8] RWM -/
  range_max : BitVec 7 := 64
  /-- [0] RWM -/
  opal_enable : Bool := true
  deriving DecidableEq, Repr

/-- MEM_ECC_COUNT, offset 0x0000 of window 0x11, 64 bits (R682). -/
structure MemEccCountReg where
  /-- [63:48] RO -/
  dram_ue : BitVec 16 := 0
  /-- [47:32] RO -/
  dram_ce : BitVec 16 := 0
  /-- [31:24] RO -/
  sram_ue : BitVec 8 := 0
  /-- [23:8] RO -/
  sram_ce : BitVec 16 := 0
  deriving DecidableEq, Repr

/-- MEM_LAST_UE, offset 0x0008 of window 0x11, 64 bits (R682). -/
structure MemLastUeReg where
  /-- [63:60] RO -/
  memory : BitVec 4 := 0
  /-- [59:56] RO -/
  requester : BitVec 4 := 0
  /-- [55] RO -/
  stamp_unanch : Bool := false
  /-- [39:0] RO -/
  address : BitVec 40 := 0
  deriving DecidableEq, Repr

/-- MEM_NARROW, offset 0x0018 of window 0x11, 32 bits (R682). -/
structure MemNarrowReg where
  /-- [31:16] RO -/
  narrow : BitVec 16 := 0
  /-- [15:0] RO -/
  cmb_partial : BitVec 16 := 0
  deriving DecidableEq, Repr

/-- SCR_STATUS, offset 0x0020 of window 0x11, 32 bits (R682). -/
structure ScrStatusReg where
  /-- [11:8] RO -/
  pass_unanch : BitVec 4 := 0
  /-- [7:4] RW1C -/
  overrun : BitVec 4 := 0
  deriving DecidableEq, Repr

/-- SCR_SUMMARY, offset 0x0040 of window 0x11, 64 bits (R682). -/
structure ScrSummaryReg where
  /-- [63:56] RO -/
  uncorrectable : BitVec 8 := 0
  /-- [55:40] RO -/
  corrected : BitVec 16 := 0
  /-- [39:0] RO -/
  read : BitVec 40 := 0
  deriving DecidableEq, Repr

/-- SCR_CFG, offset 0x0080 of window 0x11, 32 bits (R682). -/
structure ScrCfgReg where
  /-- [31:16] RWM -/
  ce_warn : BitVec 16 := 64
  deriving DecidableEq, Repr

/-- TSL_STATUS, offset 0x0000 of window 0x12, 32 bits (R702). -/
structure TslStatusReg where
  /-- [15:0] RO -/
  rebuild : BitVec 16 := 0
  deriving DecidableEq, Repr

/-- TSL_SHIFTS, offset 0x0020 of window 0x12, 32 bits (R702). -/
structure TslShiftsReg where
  /-- [31:16] RO -/
  max_moves : BitVec 16 := 0
  /-- [15:0] RO -/
  count : BitVec 16 := 0
  deriving DecidableEq, Repr

/-- TSL_ERR, offset 0x0024 of window 0x12, 32 bits (R702). -/
structure TslErrReg where
  /-- [31:16] RO -/
  rebuilds : BitVec 16 := 0
  /-- [15:0] RO -/
  refused : BitVec 16 := 0
  deriving DecidableEq, Repr

/-- KK_STATUS, offset 0x0000 of window 0x13, 32 bits (R740). -/
structure KkStatusReg where
  /-- [19:16] RO -/
  lost : BitVec 4 := 0
  /-- [15:12] RO -/
  joined : BitVec 4 := 0
  /-- [6] RW1C -/
  ident_mismatch : Bool := false
  deriving DecidableEq, Repr

/-- KK_LINK_STATUS0, offset 0x0004 of window 0x13, 32 bits (R740). -/
structure KkLinkStatus0Reg where
  /-- [15:12] RO -/
  width : BitVec 4 := 0
  /-- [11:8] RO -/
  state : BitVec 4 := 0
  /-- [7:6] RO -/
  peer : BitVec 2 := 0
  /-- [5] RO -/
  present : Bool := false
  /-- [4] RO -/
  degraded : Bool := false
  deriving DecidableEq, Repr

/-- KK_RETRY0, offset 0x0010 of window 0x13, 32 bits (R740). -/
structure KkRetry0Reg where
  /-- [31:16] RO -/
  retrains : BitVec 16 := 0
  /-- [15:0] RO -/
  replays : BitVec 16 := 0
  deriving DecidableEq, Repr

/-- KK_FRAME_ERR, offset 0x0018 of window 0x13, 32 bits (R740). -/
structure KkFrameErrReg where
  /-- [31:16] RO -/
  length : BitVec 16 := 0
  /-- [15:0] RO -/
  crc : BitVec 16 := 0
  deriving DecidableEq, Repr

/-- KK_TIME, offset 0x0020 of window 0x13, 32 bits (R740). -/
structure KkTimeReg where
  /-- [31:16] RO -/
  delay : BitVec 16 := 0
  /-- [15:0] RO -/
  offset : BitVec 16 := 0
  deriving DecidableEq, Repr

/-- KK_CFG, offset 0x0080 of window 0x13, 32 bits (R740). -/
structure KkCfgReg where
  /-- [11:10] RWM -/
  layout : BitVec 2 := 0
  /-- [9:8] RWM -/
  count : BitVec 2 := 0
  deriving DecidableEq, Repr

/-- KK_TOPO, offset 0x0084 of window 0x13, 32 bits (R740). -/
structure KkTopoReg where
  /-- [19:16] RWM -/
  pos3 : BitVec 4 := 0
  /-- [11:8] RWM -/
  pos2 : BitVec 4 := 0
  /-- [3:0] RWM -/
  pos1 : BitVec 4 := 0
  deriving DecidableEq, Repr

/-- EVT_STATUS, offset 0x0000 of window 0x14, 32 bits (R762). -/
structure EvtStatusReg where
  /-- [7] RO -/
  fatal : Bool := false
  deriving DecidableEq, Repr

/-- EVT_IRQ, offset 0x0010 of window 0x14, 32 bits (R762). -/
structure EvtIrqReg where
  /-- [31] RW -/
  armed : Bool := false
  /-- [30] RW -/
  port : Bool := false
  /-- [11:0] RW -/
  vector : BitVec 12 := 0
  deriving DecidableEq, Repr

/-- ERR_COUNTS, offset 0x0028 of window 0x14, 32 bits (R762). -/
structure ErrCountsReg where
  /-- [31:16] RO -/
  nested : BitVec 16 := 0
  /-- [15:8] RO -/
  escalated : BitVec 8 := 0
  /-- [7:0] RO -/
  fatal : BitVec 8 := 0
  deriving DecidableEq, Repr

/-- MGMT_DEVICE_ID, offset 0x0000 of window 0x00, 32 bits (R767). -/
structure MgmtDeviceIdReg where
  /-- [31:16] RO -/
  part : BitVec 16 := 18432
  /-- [15:12] RO -/
  version : BitVec 4 := 0
  /-- [3:0] RO -/
  variant : BitVec 4 := 0
  deriving DecidableEq, Repr

/-- Block window 0x00 (prefix MGMT_), registers with storage of their own. -/
structure MgmtRegs where
  /-- MGMT_MODE_STATUS (R57). -/
  modeStatus : MgmtModeStatusReg := {}
  /-- MGMT_MODE_STAMP (R57). -/
  modeStamp : BitVec 64 := 0
  /-- MGMT_DEVICE_ID (R767). -/
  deviceId : MgmtDeviceIdReg := {}
  deriving DecidableEq, Repr

/-- Block window 0x01 (prefix CAMP_), registers with storage of their own. -/
structure CampRegs where
  /-- CAMP_CTRL (R98). -/
  ctrl : CampCtrlReg := {}
  /-- CAMP_STATUS (R98). -/
  status : CampStatusReg := {}
  /-- CAMP_EPOCH_OFFSET (R98). -/
  epochOffset : BitVec 64 := 0
  /-- CAMP_FLOOR (R98). -/
  floor : BitVec 64 := 0
  /-- CAMP_RESERVE (R98). -/
  reserve : BitVec 64 := 0
  /-- CAMP_STEP_LOG (R98). -/
  stepLog : CampStepLogReg := {}
  /-- CAMP_SYNC_STATS (R98). -/
  syncStats : CampSyncStatsReg := {}
  /-- CAMP_STEP_FROM (R98). -/
  stepFrom : BitVec 64 := 0
  /-- CAMP_STEP_TO (R98). -/
  stepTo : BitVec 64 := 0
  /-- CAMP_PTM_INTERVAL (R98). -/
  ptmInterval : BitVec 64 := 33554432
  /-- CAMP_HOLDOVER (R98). -/
  holdover : BitVec 64 := 68719476736
  /-- CAMP_STEP_THRESH (R98). -/
  stepThresh : BitVec 64 := 4194304
  /-- CAMP_RESERVE_SPAN (R98). -/
  reserveSpan : BitVec 64 := 67108864
  /-- CAMP_RATE_ADJ (R98). -/
  rateAdj : BitVec 32 := 0
  /-- CAMP_LAST_OFFSET (R98). -/
  lastOffset : BitVec 32 := 0
  deriving DecidableEq, Repr

/-- Block window 0x02 (prefix PAD_), registers with storage of their own. -/
structure PadRegs where
  /-- PAD_STRAP_STATUS (R140). -/
  strapStatus : PadStrapStatusReg := {}
  /-- PAD_RESET_MAP (R140). -/
  resetMap : PadResetMapReg := {}
  /-- PAD_IDCODE (R140). -/
  idcode : PadIdcodeReg := {}
  deriving DecidableEq, Repr

/-- Block window 0x03 (prefix PWR_), registers with storage of their own. -/
structure PwrRegs where
  /-- PWR_STATUS (R175). -/
  status : PwrStatusReg := {}
  /-- PWR_MEASURE (R175). -/
  measure : PwrMeasureReg := {}
  /-- PWR_BANK_CAP (R175). -/
  bankCap : PwrBankCapReg := {}
  /-- PWR_SHROUD_ALLOW (R175). -/
  shroudAllow : BitVec 11 := 0
  /-- PWR_PAIR_STATUS (R175). -/
  pairStatus : PwrPairStatusReg := {}
  /-- PWR_LEDGER (R175). -/
  ledger : PwrLedgerReg := {}
  /-- PWR_FLUSH_LAST (R175). -/
  flushLast : PwrFlushLastReg := {}
  /-- PWR_VIN_LOSS_MV (R175). -/
  vinLossMv : BitVec 32 := 10200
  /-- PWR_VIN_HOLD_MV (R175). -/
  vinHoldMv : BitVec 32 := 9600
  /-- PWR_BANK_TARGET_MV (R175). -/
  bankTargetMv : BitVec 32 := 35000
  /-- PWR_BANK_CHARGE_MA (R175). -/
  bankChargeMa : BitVec 32 := 500
  /-- PWR_BANK_UF (R175). -/
  bankUf : BitVec 32 := 6800
  /-- PWR_FLUSH_LOAD_MW (R175). -/
  flushLoadMw : BitVec 32 := 90000
  /-- PWR_FLUSH_RATE (R175). -/
  flushRate : BitVec 32 := 56
  /-- PWR_HOLD_MARGIN (R175). -/
  holdMargin : BitVec 32 := 20
  /-- PWR_DRIVE_CAP_MW (R175). -/
  driveCapMw : BitVec 32 := 40000
  /-- PWR_PAIR_MAP (R175). -/
  pairMap : BitVec 8 := 255
  /-- PWR_OP_CHARGE_A (R175). -/
  opChargeA : PwrOpChargeAReg := {}
  /-- PWR_OP_CHARGE_B (R175). -/
  opChargeB : PwrOpChargeBReg := {}
  /-- PWR_OP_CHARGE_C (R175). -/
  opChargeC : BitVec 16 := 20
  /-- PWR_FLUSH_FIXED (R175). -/
  flushFixed : BitVec 64 := 27917287
  /-- PWR_NVEN_STAGGER (R175). -/
  nvenStagger : BitVec 64 := 4194304
  /-- PWR_NPG_TIMEOUT (R175). -/
  npgTimeout : BitVec 64 := 67108864
  /-- PWR_CHARGE_TIMEOUT (R175). -/
  chargeTimeout : BitVec 64 := 8589934592
  /-- PWR_BANK_TEST_INTERVAL (R175). -/
  bankTestInterval : BitVec 64 := 4398046511104
  deriving DecidableEq, Repr

/-- Block window 0x04 (prefix RST_), registers with storage of their own. -/
structure RstRegs where
  /-- RST_CAUSE (R223). -/
  cause : BitVec 16 := 1
  /-- RST_LAST (R223). -/
  last : RstLastReg := {}
  /-- RST_LAST_STAMP (R223). -/
  lastStamp : BitVec 64 := 0
  /-- RST_CLK_STATUS (R223). -/
  clkStatus : RstClkStatusReg := {}
  /-- RST_WDT_TIMEOUT (R223). -/
  wdtTimeout : BitVec 64 := 268435456
  /-- RST_WDT_STATUS (R223). -/
  wdtStatus : RstWdtStatusReg := {}
  deriving DecidableEq, Repr

/-- Block window 0x05 (prefix BA_), registers with storage of their own. -/
structure BaRegs where
  /-- BA_STATUS (R223). -/
  status : BaStatusReg := {}
  /-- BA_SLOT_INFO_A (R223). -/
  slotInfoA : BaSlotInfoAReg := {}
  /-- BA_SLOT_INFO_B (R223). -/
  slotInfoB : BaSlotInfoAReg := {}
  deriving DecidableEq, Repr

/-- Block window 0x06 (prefix MAN_), registers with storage of their own. -/
structure ManRegs where
  /-- MAN_STATUS (R256). -/
  status : ManStatusReg := {}
  /-- MAN_APPLIED_GEN (R256). -/
  appliedGen : BitVec 64 := 0
  /-- MAN_COPY_GEN_A (R256). -/
  copyGenA : BitVec 64 := 0
  /-- MAN_COPY_GEN_B (R256). -/
  copyGenB : BitVec 64 := 0
  /-- MAN_FLOOR (R256). -/
  floor : BitVec 64 := 0
  /-- MAN_REJECT_KEY (R256). -/
  rejectKey : BitVec 32 := 4294967295
  /-- MAN_INSTALL_STATUS (R256). -/
  installStatus : ManInstallStatusReg := {}
  deriving DecidableEq, Repr

/-- Block window 0x07 (prefix PCIE_), registers with storage of their own. -/
structure PcieRegs where
  /-- PCIE_PORT_STATUS0 (R301). -/
  portStatus0 : PciePortStatus0Reg := {}
  /-- PCIE_PORT_STATUS1 (R301). -/
  portStatus1 : PciePortStatus0Reg := {}
  /-- PCIE_CFG (R301). -/
  cfg : PcieCfgReg := {}
  /-- PCIE_ERR_COUNT (R301). -/
  errCount : PcieErrCountReg := {}
  /-- PCIE_LATE_CPL (R301). -/
  lateCpl : BitVec 32 := 0
  /-- PCIE_MSIX_EXT (R301). -/
  msixExt : Bool := false
  /-- PCIE_CMB_FENCE (R301). -/
  cmbFence : PcieCmbFenceReg := {}
  /-- PCIE_CMB_WIN (R301). -/
  cmbWin : Tab (PcieCmbWinReg) := []
  deriving DecidableEq, Repr

/-- Block window 0x08 (prefix CMD_), registers with storage of their own. -/
structure CmdRegs where
  /-- CMD_HALT_STATUS (R358). -/
  haltStatus : CmdHaltStatusReg := {}
  /-- CMD_CEIL_GRANTS (R358). -/
  ceilGrants : BitVec 32 := 0
  /-- CMD_WBUF_CFG (R358). -/
  wbufCfg : BitVec 11 := 256
  /-- CMD_STARVE_CEIL (R358). -/
  starveCeil : BitVec 64 := 4294967296
  /-- CMD_CFG (R358). -/
  cfg : CmdCfgReg := {}
  deriving DecidableEq, Repr

/-- Block window 0x09 (prefix MAP_), registers with storage of their own. -/
structure MapRegs where
  /-- MAP_STATUS (R405). -/
  status : MapStatusReg := {}
  /-- MAP_STALE_COUNT (R405). -/
  staleCount : BitVec 32 := 0
  /-- MAP_CACHE_MISS (R405). -/
  cacheMiss : BitVec 64 := 0
  /-- MAP_SPEC_LAUNCHED (R405). -/
  specLaunched : BitVec 64 := 0
  /-- MAP_SPEC_CONFIRMED (R405). -/
  specConfirmed : BitVec 64 := 0
  /-- MAP_SPEC_DISCARDED (R405). -/
  specDiscarded : BitVec 64 := 0
  /-- MAP_CKPT_STAMP (R405). -/
  ckptStamp : BitVec 64 := 0
  /-- MAP_CKPT_HORIZON (R405). -/
  ckptHorizon : BitVec 64 := 0
  /-- MAP_SCAN_CHANGES (R405). -/
  scanChanges : MapScanChangesReg := {}
  /-- MAP_CFG (R405). -/
  cfg : MapCfgReg := {}
  /-- MAP_SPEC_CFG (R405). -/
  specCfg : MapSpecCfgReg := {}
  /-- MAP_CAPACITY_GB (R405). -/
  capacityGb : BitVec 32 := 192000
  /-- MAP_FINE_MAX (R405). -/
  fineMax : BitVec 32 := 67108864
  /-- MAP_CKPT_STRIPES (R405). -/
  ckptStripes : BitVec 32 := 16384
  /-- MAP_SCAN_SAMPLES (R405). -/
  scanSamples : BitVec 32 := 4096
  /-- MAP_CKPT_INTERVAL (R405). -/
  ckptInterval : BitVec 64 := 274877906944
  /-- MAP_WB_AGE (R405). -/
  wbAge : BitVec 64 := 17179869184
  /-- MAP_FOLD_AGE (R405). -/
  foldAge : BitVec 64 := 1099511627776
  /-- MAP_HINT_AGE (R405). -/
  hintAge : BitVec 64 := 4294967296
  deriving DecidableEq, Repr

/-- Block window 0x0A (prefix STR_), registers with storage of their own. -/
structure StrRegs where
  /-- STR_STATUS (R451). -/
  status : StrStatusReg := {}
  /-- STR_SERIAL (R451). -/
  serial : BitVec 64 := 0
  /-- STR_FAIL_COUNT (R451). -/
  failCount : StrFailCountReg := {}
  /-- STAY_STATUS (R451). -/
  stayStatus : StayStatusReg := {}
  /-- STAY_GEN (R451). -/
  stayGen : BitVec 32 := 0
  /-- STR_CFG (R451). -/
  cfg : StrCfgReg := {}
  /-- STR_PAD_AGE (R451). -/
  padAge : BitVec 64 := 4294967296
  /-- STAY_FLUSH_AGE (R451). -/
  stayFlushAge : BitVec 64 := 1048576
  deriving DecidableEq, Repr

/-- Block window 0x0B (prefix RCL_), registers with storage of their own. -/
structure RclRegs where
  /-- RCL_STATUS (R488). -/
  status : RclStatusReg := {}
  /-- RCL_SPARES (R488). -/
  spares : RclSparesReg := {}
  /-- RCL_NEEDS (R488). -/
  needs : RclNeedsReg := {}
  /-- RCL_RESERVE (R488). -/
  reserve : BitVec 32 := 0
  /-- RCL_PE_STATS (R488). -/
  peStats : RclPeStatsReg := {}
  /-- RCL_RETIRED (R488). -/
  retired : RclRetiredReg := {}
  /-- RCL_COPIED (R488). -/
  copied : BitVec 64 := 0
  /-- RCL_THROTTLE (R488). -/
  throttle : RclThrottleReg := {}
  /-- RCL_CFG (R488). -/
  cfg : RclCfgReg := {}
  /-- RCL_BG_START (R488). -/
  bgStart : BitVec 32 := 12288
  /-- RCL_FG_START (R488). -/
  fgStart : BitVec 32 := 3072
  /-- RCL_FG_FLOOR (R488). -/
  fgFloor : BitVec 32 := 768
  /-- RCL_PE_RATED (R488). -/
  peRated : BitVec 32 := 3000
  /-- RCL_WL_SPREAD (R488). -/
  wlSpread : BitVec 32 := 200
  /-- RCL_LS_MARGIN (R488). -/
  lsMargin : BitVec 32 := 256
  /-- RCL_SPARE_WARN (R488). -/
  spareWarn : BitVec 32 := 10
  /-- RCL_RD_LIMIT (R488). -/
  rdLimit : BitVec 32 := 200000
  /-- RCL_IDLE_DELAY (R488). -/
  idleDelay : BitVec 64 := 1073741824
  /-- RCL_AGE_CAP (R488). -/
  ageCap : BitVec 64 := 281474976710656
  /-- RCL_RETAIN_AGE (R488). -/
  retainAge : BitVec 64 := 18014398509481984
  /-- RCL_DTWIN_TMAX (R488). -/
  dtwinTmax : BitVec 64 := 34359738368
  /-- RCL_NDWIN_TMIN (R488). -/
  ndwinTmin : BitVec 64 := 2147483648
  deriving DecidableEq, Repr

/-- Block window 0x0C (prefix CH_), registers with storage of their own. -/
structure ChRegs where
  /-- CH_FAILED (R528). -/
  failed : BitVec 48 := 0
  /-- CH_DEGRADED (R528). -/
  degraded : BitVec 48 := 0
  /-- LDPC_DECODED (R528). -/
  ldpcDecoded : BitVec 64 := 0
  /-- LDPC_RETRIED (R528). -/
  ldpcRetried : BitVec 64 := 0
  /-- LDPC_SOFT (R528). -/
  ldpcSoft : BitVec 64 := 0
  /-- LDPC_UNCORR (R528). -/
  ldpcUncorr : BitVec 64 := 0
  /-- CH_SUSPENDS (R528). -/
  suspends : ChSuspendsReg := {}
  /-- CH_CFG (R528). -/
  cfg : ChCfgReg := {}
  /-- CH_SUSP_CFG (R528). -/
  suspCfg : ChSuspCfgReg := {}
  /-- LDPC_CFG (R528). -/
  ldpcCfg : LdpcCfgReg := {}
  /-- CH_REFRESH_CFG (R528). -/
  refreshCfg : ChRefreshCfgReg := {}
  /-- CH_RETRAIN (R528). -/
  retrain : BitVec 8 := 10
  /-- CH_RETRAIN_INTERVAL (R528). -/
  retrainInterval : BitVec 64 := 274877906944
  /-- CH_ERASE_MIN_RUN (R528). -/
  eraseMinRun : BitVec 64 := 524288
  /-- CH_PROG_MIN_RUN (R528). -/
  progMinRun : BitVec 64 := 262144
  /-- CH_SUSP_HOLD_MAX (R528). -/
  suspHoldMax : BitVec 64 := 4194304
  /-- CHn_STATUS (R528). -/
  chnStatus : Tab (ChnStatusReg) := []
  /-- CHn_ERR (R528). -/
  chnErr : Tab (ChnErrReg) := []
  /-- CHn_CE_FOUND (R528). -/
  chnCeFound : Tab (BitVec 32) := []
  deriving DecidableEq, Repr

/-- Block window 0x0D (prefix RED_), registers with storage of their own. -/
structure RedRegs where
  /-- RED_STATUS (R564). -/
  status : RedStatusReg := {}
  /-- RED_DIE_SELECT (R564). -/
  dieSelect : BitVec 11 := 0
  /-- RED_REBUILD_DIE (R564). -/
  rebuildDie : BitVec 11 := 0
  /-- RED_REBUILD_PROGRESS (R564). -/
  rebuildProgress : RedRebuildProgressReg := {}
  /-- RED_LOST (R564). -/
  lost : RedLostReg := {}
  /-- RED_RECON (R564). -/
  recon : BitVec 64 := 0
  /-- RED_BECALM_EVENTS (R564). -/
  becalmEvents : RedBecalmEventsReg := {}
  /-- RED_CFG (R564). -/
  cfg : RedCfgReg := {}
  /-- RED_CFG2 (R564). -/
  cfg2 : RedCfg2Reg := {}
  /-- RED_READ_TIMEOUT (R564). -/
  readTimeout : BitVec 64 := 51539608
  /-- RED_WINDOW (R564). -/
  window : BitVec 64 := 42949672960
  /-- RED_PROBE_INTERVAL (R564). -/
  probeInterval : BitVec 64 := 1073741824
  deriving DecidableEq, Repr

/-- Block window 0x0E (prefix THM_), registers with storage of their own. -/
structure ThmRegs where
  /-- THM_STATUS (R599). -/
  status : ThmStatusReg := {}
  /-- THM_COMPOSITE (R599). -/
  composite : ThmCompositeReg := {}
  /-- THM_NODE_SELECT (R599). -/
  nodeSelect : BitVec 4 := 0
  /-- THM_OSC_COMP (R599). -/
  oscComp : ThmOscCompReg := {}
  /-- THM_THRESH (R599). -/
  thresh : ThmThreshReg := {}
  /-- THM_CFG (R599). -/
  cfg : ThmCfgReg := {}
  /-- THM_CFG2 (R599). -/
  cfg2 : BitVec 20 := 8000
  /-- THM_CFG3 (R599). -/
  cfg3 : ThmCfg3Reg := {}
  /-- THM_STEP (R599). -/
  step : BitVec 64 := 4194304
  /-- THM_CAL_INTERVAL (R599). -/
  calInterval : BitVec 64 := 1073741824
  /-- THM_THROTTLE_PERIOD (R599). -/
  throttlePeriod : BitVec 64 := 268435456
  deriving DecidableEq, Repr

/-- Block window 0x0F (prefix PSM_), registers with storage of their own. -/
structure PsmRegs where
  /-- PSM_STATUS (R627). -/
  status : PsmStatusReg := {}
  /-- PSM_LAST_REFUSAL (R627). -/
  lastRefusal : PsmLastRefusalReg := {}
  /-- PSM_LAST_REFUSAL_STAMP (R627). -/
  lastRefusalStamp : BitVec 64 := 0
  /-- PSM_PATROL_STATS (R627). -/
  patrolStats : PsmPatrolStatsReg := {}
  /-- PSM_PATROL_CURSOR (R627). -/
  patrolCursor : PsmPatrolCursorReg := {}
  /-- PSM_TRANSITIONS (R627). -/
  transitions : PsmTransitionsReg := {}
  /-- PSM_REFUSALS (R627). -/
  refusals : Tab (PsmRefusalsReg) := []
  /-- PSM_CAP_PS1 (R627). -/
  capPs1 : BitVec 32 := 24000
  /-- PSM_CAP_PS2 (R627). -/
  capPs2 : BitVec 32 := 12000
  /-- PSM_CAP_PS3 (R627). -/
  capPs3 : BitVec 32 := 6000
  /-- PSM_CAP_PS4 (R627). -/
  capPs4 : BitVec 32 := 2000
  /-- PSM_PATROL_CFG (R627). -/
  patrolCfg : PsmPatrolCfgReg := {}
  /-- PSM_HANDSHAKE_TIMEOUT (R627). -/
  handshakeTimeout : BitVec 64 := 8589934592
  /-- PSM_PATROL_PERIOD (R627). -/
  patrolPeriod : BitVec 64 := 17179869184
  deriving DecidableEq, Repr

/-- Block window 0x10 (prefix SEC_), registers with storage of their own. -/
structure SecRegs where
  /-- SEC_STATUS (R661). -/
  status : SecStatusReg := {}
  /-- SEC_NONCE_NEXT (R661). -/
  nonceNext : BitVec 64 := 0
  /-- SEC_NONCE_LIMIT (R661). -/
  nonceLimit : BitVec 64 := 0
  /-- SEC_GCM_COUNTS (R661). -/
  gcmCounts : SecGcmCountsReg := {}
  /-- SEC_GCM_FAIL (R661). -/
  gcmFail : BitVec 32 := 0
  /-- SEC_XTS_UNITS (R661). -/
  xtsUnits : BitVec 64 := 0
  /-- SEC_FLAG_FAULTS (R661). -/
  flagFaults : SecFlagFaultsReg := {}
  /-- SIG_COUNT (R661). -/
  sigCount : SigCountReg := {}
  /-- SEC_CFG (R661). -/
  cfg : SecCfgReg := {}
  deriving DecidableEq, Repr

/-- Block window 0x11 (prefix MEM_), registers with storage of their own. -/
structure MemRegs where
  /-- MEM_ECC_COUNT (R682). -/
  eccCount : MemEccCountReg := {}
  /-- MEM_LAST_UE (R682). -/
  lastUe : MemLastUeReg := {}
  /-- MEM_LAST_UE_STAMP (R682). -/
  lastUeStamp : BitVec 64 := 0
  /-- MEM_NARROW (R682). -/
  narrow : MemNarrowReg := {}
  /-- SCR_STATUS (R682). -/
  scrStatus : ScrStatusReg := {}
  /-- SCR_SUMMARY (R682). -/
  scrSummary : Tab (ScrSummaryReg) := []
  /-- SCR_PASS_STAMP (R682). -/
  scrPassStamp : Tab (BitVec 64) := []
  /-- SCR_CFG (R682). -/
  scrCfg : ScrCfgReg := {}
  /-- SCR_PERIOD_DRAM (R682). -/
  scrPeriodDram : BitVec 64 := 274877906944
  /-- SCR_PERIOD_SRAM (R682). -/
  scrPeriodSram : BitVec 64 := 17179869184
  deriving DecidableEq, Repr

/-- Block window 0x12 (prefix TSL_), registers with storage of their own. -/
structure TslRegs where
  /-- TSL_STATUS (R702). -/
  status : TslStatusReg := {}
  /-- TSL_SEARCHES (R702). -/
  searches : BitVec 64 := 0
  /-- TSL_HITS (R702). -/
  hits : BitVec 64 := 0
  /-- TSL_SHIFTS (R702). -/
  shifts : TslShiftsReg := {}
  /-- TSL_ERR (R702). -/
  err : TslErrReg := {}
  /-- TSL_PROBE_ADDR (R702). -/
  probeAddr : BitVec 16 := 0
  /-- TSL_PROBE_HI (R702). -/
  probeHi : BitVec 64 := 0
  /-- TSL_PROBE_LO (R702). -/
  probeLo : BitVec 64 := 0
  /-- TSL_CFG (R702). -/
  cfg : BitVec 4 := 8
  deriving DecidableEq, Repr

/-- Block window 0x13 (prefix KK_), registers with storage of their own. -/
structure KkRegs where
  /-- KK_STATUS (R740). -/
  status : KkStatusReg := {}
  /-- KK_LINK_STATUS0 (R740). -/
  linkStatus0 : KkLinkStatus0Reg := {}
  /-- KK_LINK_STATUS1 (R740). -/
  linkStatus1 : KkLinkStatus0Reg := {}
  /-- KK_RETRY0 (R740). -/
  retry0 : KkRetry0Reg := {}
  /-- KK_RETRY1 (R740). -/
  retry1 : KkRetry0Reg := {}
  /-- KK_FRAME_ERR (R740). -/
  frameErr : KkFrameErrReg := {}
  /-- KK_TIME (R740). -/
  time : KkTimeReg := {}
  /-- KK_CFG (R740). -/
  cfg : KkCfgReg := {}
  /-- KK_TOPO (R740). -/
  topo : KkTopoReg := {}
  /-- KK_JOIN_TIMEOUT (R740). -/
  joinTimeout : BitVec 64 := 17179869184
  /-- KK_LINK_TIMEOUT (R740). -/
  linkTimeout : BitVec 64 := 16777216
  deriving DecidableEq, Repr

/-- Block window 0x14 (prefix EVT_), registers with storage of their own. -/
structure EvtRegs where
  /-- EVT_STATUS (R762). -/
  status : EvtStatusReg := {}
  /-- EVT_RING_SEQ (R762). -/
  ringSeq : BitVec 32 := 0
  /-- EVT_HOST_SEQ (R762). -/
  hostSeq : BitVec 32 := 0
  /-- EVT_OVERFLOW (R762). -/
  overflow : BitVec 32 := 0
  /-- EVT_IRQ (R762). -/
  irq : EvtIrqReg := {}
  /-- ERR_COUNTS (R762). -/
  errCounts : ErrCountsReg := {}
  /-- EVT_ENABLE (R762). -/
  enable : Tab (BitVec 32) := []
  /-- EVT_ROUTE (R762). -/
  route : Tab (BitVec 32) := []
  deriving DecidableEq, Repr

end Sys2Proof.Machine
end

