-- ==== Sys2Proof/Machine/Types.lean ====
section
/-!
DEFINITION. The kinds of thing the device holds besides its registers: modes, domains, timers, stamp requests,
events, errors, boot-array records, host queues and commands.  One comment per type names the rules it follows.
-/

namespace Sys2Proof.Machine

/-- The eight modes (R42). -/
inductive Mode where
  | hold | start | run | reduced | patrol | flush | readOnly | thermalHalt
  deriving DecidableEq, Repr

/-- The encoding of a mode (table "Modes of the ZG4800"). -/
def Mode.code : Mode → Nat
  | .hold => 0 | .start => 1 | .run => 2 | .reduced => 3 | .patrol => 4 | .flush => 5 | .readOnly => 6
  | .thermalHalt => 7

/-- Reset domains (R177). -/
inductive Domain where
  | ret | ao | mgmt | dram | media | cmd | port0 | port1 | ctrl0 | ctrl1 | keaka
  deriving DecidableEq, Repr

/-- The number of a domain, its place in a bitmap of domains. -/
def Domain.num : Domain → Nat
  | .ret => 0 | .ao => 1 | .mgmt => 2 | .dram => 3 | .media => 4 | .cmd => 5 | .port0 => 6 | .port1 => 7
  | .ctrl0 => 8 | .ctrl1 => 9 | .keaka => 10

/-- Place of a domain in the clk_good bits of RST_CLK_STATUS, by which an event names it (R191); the controllers follow. -/
def Domain.clock : Domain → Nat
  | .mgmt => 0 | .dram => 1 | .media => 2 | .cmd => 3 | .port0 => 4 | .port1 => 5 | .keaka => 6 | .ctrl0 => 8
  | .ctrl1 => 9 | .ret => 10 | .ao => 11

/-- The schedules held against H (R16, R41, R90). The index of a timer is beside its kind. -/
inductive TimerKind where
  | ptmInterval | ptmResponse | holdover
  | pairStagger | npgSettle | npgTimeout | pairRetry
  | bankTest | bankMeasure | allowance | charge | pllRetry | pllLimit | l4Bound
  | coalesce | actLed | tagTimeout | quarantine
  | stripePad | stayFlush | checkpoint | mapWriteback | fold | stream | idle | dtwin | ndwin
  | retrain | dieLimit | dieReset | suspHold | becalmed | probe
  | thermalStep | thermalCal | throttle | patrolPeriod | patrolQuarter | handshake
  | scrubDram | scrubSram | kkHeartbeat | kkAck | kkLink | kkJoin | yardDialog | starvation
  deriving DecidableEq, Repr

/-- One pending timer: its deadline is a value of H in motes. -/
structure Timer where
  kind : TimerKind
  idx : Nat
  deadline : Motes
  deriving DecidableEq, Repr

/-- A stamp with its anchor flag (R20). -/
structure Stamped where
  stamp : Stamp := 0
  unanch : Bool := false
  deriving DecidableEq, Repr

/-- What a source reports, before its stamp (R743). -/
structure EventDraft where
  source : Nat
  detail : Nat := 0
  payload : Bytes := []
  pay_unanch : Nat := 0
  forwarded : Bool := false
  position : Nat := 0
  deriving DecidableEq, Repr

/-- An entry of the event ring (table "Event entry"). -/
structure EventEntry where
  stamp : Stamped
  draft : EventDraft
  seq : Nat
  deriving DecidableEq, Repr

/-- What an Error Information entry and its detail partner hold besides the stamp (R754, R755). -/
structure ErrorDraft where
  source : Nat := 0
  kind : Nat := 0
  serial : Nat := 0
  sqid : Nat := 0xFFFF
  cid : Nat := 0xFFFF
  status : Nat := 0
  slba : Nat := 0
  nsid : Nat := 0
  /-- Controllers the entry is written to: 0, 1, or 2 for every enabled controller. -/
  target : Nat := 2
  first : Stamped := {}
  nested : Bool := false
  escalated : Bool := false
  fatal : Bool := false
  forwarded : Bool := false
  position : Nat := 0
  /-- Detail and payload of the ring entry raised with it (R775). -/
  detail : Nat := 0
  payload : Bytes := []
  /-- No ring entry is raised with it. -/
  silent : Bool := false
  deriving DecidableEq, Repr

/-- An Error Information entry with its error detail partner (R753 to R755). -/
structure ErrorEntry where
  error_count : Nat
  stamp : Stamped
  draft : ErrorDraft
  event_seq : Nat
  deriving DecidableEq, Repr

/-- An error in a slot of the handler, or held behind slot 1 (R757 to R759). -/
structure HandlerError where
  /-- Number that ties the slot to its Error Information entry while its stamp is held. -/
  id : Nat
  kind : Nat
  source : Nat
  serials : List Nat
  stamp : Stamped
  escalated : Bool := false
  /-- Error Count of its Error Information entry. -/
  error_count : Nat := 0
  deriving DecidableEq, Repr

/-- A journal record of the boot array (table "Journal record"); the payload in clear. -/
structure JournalRecord where
  type : Nat
  carried : Bool := false
  seq : Nat := 0
  stamp : Stamped := {}
  nonce : Nat := 0
  payload : Bytes := []
  deriving DecidableEq, Repr

/-- A consumer of a stamp that can wait for it (R64, R83). -/
inductive StampUse where
  /-- An event entry (R743). -/
  | event (e : EventDraft)
  /-- MGMT_MODE_STAMP and the event of a mode transition (R58). -/
  | mode (new prev : Nat)
  /-- An Error Information entry and, for an error of the handler, the number of its slot entry (R87). -/
  | error (e : ErrorDraft) (handled : Option Nat)
  /-- MEM_LAST_UE_STAMP (R675). -/
  | memoryUe
  /-- PSM_LAST_REFUSAL_STAMP (R612). -/
  | refusal
  /-- The first training of the host links, whose port-configuration event carries this stamp (R122). -/
  | firstTraining
  /-- The redundancy page that is held (R545). -/
  | redPage
  /-- The lowest (`false`) or highest composite temperature, where it is still this value (R593). -/
  | extreme (high : Bool) (value : Int)
  /-- The start stamp of a scrub pass of a range (R679). -/
  | scrubStart (range : Nat)
  /-- SCR_PASS_STAMPn (R681). -/
  | scrubPass (n : Nat)
  /-- A boot-array record, built when its stamp arrives (R87). -/
  | record (type : Nat) (payload : Bytes)
  deriving DecidableEq, Repr

/-! ### Time -/

/-- Campion beyond its registers (chapter 2). -/
structure Campion where
  /-- H in units of 2^-32 motes (R60). -/
  hq : Nat := 0
  /-- L, the last stamp issued (R62). -/
  last : Nat := 0
  /-- freq_est, parts per billion with 32 fractional bits (R71). -/
  freq_est : Int := 0
  /-- Value of H at the last good dialog since the floor was seeded, moved with every step (R771). -/
  last_good : Option Int := none
  /-- The epoch offset applied at the last good dialog (R73). -/
  offset_applied : Nat := 0
  /-- A write of the epoch offset that the next good dialog will apply (R72). -/
  offset_written : Bool := false
  /-- Source code of the last good dialog, as in CAMP_STATUS (R68). -/
  anchor_last : Option Nat := none
  /-- A PTM dialog is open: its port (R69). -/
  dialog : Option Nat := none
  /-- H at the PTM Request of that dialog (R70). -/
  dialog_sent : Motes := 0
  /-- Sum of the amounts by which steps and the seeding of the floor have moved H (R90, R91, R769). -/
  moved : Int := 0
  /-- A good dialog has occurred since the last reset that reached MGMT (R77). -/
  ever_good : Bool := false
  /-- Requests made before the floor is seeded (R64), oldest first. -/
  preseed : List StampUse := []
  /-- The run is released with no stamp (R65). -/
  no_floor : Bool := false
  /-- Stamps assigned to pre-seed requests, not yet handed out (R64). -/
  handout : List (Nat × StampUse) := []
  /-- Requests waiting for a reservation write (R83). -/
  waiting : List StampUse := []
  /-- The reservation value being written (R83). -/
  reserving : Option Nat := none
  /-- Upper words latched by reads of lower words (R28): offset in BAR0, value. -/
  latched : Tab Nat := []
  /-- Lower words written and not yet paired (R27). -/
  half_written : Tab Nat := []
  deriving DecidableEq, Repr

/-! ### Resets, retention and Start -/

/-- The retention register (R83, R148, R205, R220), in the RET domain. -/
structure Retention where
  reservation : Nat := 0
  rail_fault : Nat := 0
  start_failure : Option (Nat × Nat) := none
  /-- th_clear with the composite temperature (1/256 °C) and the arrival stamp of the reset (R585). -/
  th_clear : Option (Int × Stamped) := none
  /-- Payloads of uncleared Thermal Halt records held here only (R205, R587). -/
  th_held : List Bytes := []
  deriving DecidableEq, Repr

/-- A reset source as it arrived: its stamp, the mode it met, and whether its handling was deferred (R183, R185). -/
structure Arrival where
  code : Nat
  stamp : Stamped := {}
  mode_at : Mode := .hold
  deferred : Bool := false
  deriving DecidableEq, Repr

/-- The reset controller beyond its registers (chapter 5). -/
structure ResetCtl where
  retention : Retention := {}
  /-- Sources asserted, by code. -/
  asserted : BitVec 16 := 0
  /-- Sources asserted since the previous reset-cause record (R183). -/
  since_record : BitVec 16 := 1
  /-- Domains held in reset, by `Domain.num`. -/
  held : BitVec 11 := 0x7FF
  /-- Domains whose clock-good is high (R190). -/
  clock_good : BitVec 11 := 0
  core_loops : Bool := false
  /-- Governing source of the L4 whose assertion steps run (R186). -/
  sequence : Option Arrival := none
  /-- First reset deferred (R185). -/
  deferred : Option Arrival := none
  /-- Causes deferred into a Flush, carried by the end marker (R447). -/
  deferred_causes : BitVec 16 := 0
  /-- DRAM kept in self-refresh (R48). -/
  dram_kept : Bool := false
  /-- A Shroud kept in DRAM was lost when the bank ran out in Hold: the next Start sets shroud_lost (R170). -/
  shroud_gone : Bool := false
  /-- Step of Start in progress, 1 to 17 (R218); 0 outside Start. -/
  start_step : Nat := 0
  /-- What that step asks of the boot array has been asked (steps 4, 5 and 12). -/
  step_begun : Bool := false
  /-- Value of H at Start time 0. -/
  start_time : Motes := 0
  /-- Motes counted when clock-good of a held domain last dropped in its release window (R191). -/
  not_ready : Tab Nat := []
  /-- Oscillator cycles counted since the last reset of MGMT (R194). -/
  cycles : Nat := 0
  /-- Oscillator cycles at which the watchdogs started (R218 step 6). -/
  wdt_start : Nat := 0
  /-- Oscillator cycles at which a core's watchdog last entered stage 1 (R195). -/
  wdt_stage1 : Tab Nat := []
  /-- Waiting for an L4 or L5 after a recovery image (R217). -/
  recovered : Bool := false
  deriving DecidableEq, Repr

/-! ### Power -/

/-- How far a NAND power pair has come through the pair enable steps (R152). -/
inductive PairPhase where
  | off | enabled | good | settled | discovered | lost
  deriving DecidableEq, Repr

/-- A NAND power pair (R151 to R156). -/
structure Pair where
  phase : PairPhase := .off
  /-- Its discovery has completed since it was first enabled (R154). -/
  found : Bool := false
  /-- Motes counted at the last loss of NPG (R155). -/
  last_loss : Option Motes := none
  /-- The enable steps are being run once more after a loss (R154). -/
  retry : Bool := false
  deriving DecidableEq, Repr

/-- The converter, rails, bank and pairs beyond the registers (chapter 4). -/
structure Power where
  /-- VIN lies above the power-on threshold. -/
  vin : Bool := true
  /-- The device is dark. -/
  dark : Bool := false
  /-- Rail power-up step reached, 0 to 7 (R147). -/
  rail_step : Nat := 1
  rail_failures : Nat := 0
  /-- Waiting 100 ms to try the rails again (R148). -/
  rail_wait : Bool := false
  vaux : Bool := true
  /-- Power-on reset is asserted (R139). -/
  por : Bool := true
  /-- The converter holds the DRAM rails in Hold (R170). -/
  dram_rails : Bool := false
  /-- A VIN return seen in Flush (R170). -/
  vin_returned : Bool := false
  /-- The bank has been measured since power-on (R160). -/
  measured : Bool := false
  fault_over : Bool := false
  fault_measure : Bool := false
  /-- The charge timeout of Start has passed (R164). -/
  charge_expired : Bool := false
  pairs : Tab Pair := []
  /-- Next pair to enable in Start (R152). -/
  next_pair : Option Nat := none
  deriving DecidableEq, Repr

/-- Kinds of NAND operation for the ledger (R171). -/
inductive LedgerKind where
  | read | program | erase
  deriving DecidableEq, Repr

/-! ### Boot array -/

/-- A firmware slot: its header fields and its image (R210). -/
structure FwSlot where
  header : Bytes := []
  image : List (Nat × Byte) := []
  deriving DecidableEq, Repr

/-- A journal sector that is not erased (R202). -/
structure JournalSector where
  sequence : Nat
  /-- The sector header as it reads: empty until its program unit has verified. -/
  header : Bytes := []
  /-- Program units used from its start, the header's among them: each record begins at a unit. -/
  used : Nat := 1
  records : List JournalRecord := []
  deriving DecidableEq, Repr

/-- A nonce-reservation record as it reads back: N and its complement (R207). -/
structure NonceRecord where
  n : BitVec 64
  check : BitVec 64
  deriving DecidableEq, Repr

/-- A copy of the nonce reservation: its records by place, 4,096 to a sector, and the next place (R207, R208). -/
structure NonceCopy where
  records : Tab NonceRecord := []
  next : Nat := 0
  deriving DecidableEq, Repr

/-- One elementary boot-array operation. -/
inductive BaOp where
  /-- Program one 256-byte program unit at a byte address (R198). -/
  | program (addr : Nat)
  /-- Program the header of a journal sector (R202). -/
  | journalHeader (sector : Nat)
  /-- Program a nonce-reservation record at a place of copy A (`false`) or B (R207). -/
  | nonceProgram (b : Bool) (place n : Nat)
  | erase (sector : Nat)
  | flagProgram (sector : Nat)
  | flagErase (sector : Nat)
  /-- The slot flag cell of slot A (`false`) or B (`true`). -/
  | slotFlagProgram (b : Bool)
  | slotFlagErase (b : Bool)
  deriving DecidableEq, Repr

/-- What a request to the Array Service Routine is for (R197). -/
inductive BaPurpose where
  | record (r : JournalRecord)
  /-- Reserve counters below `n` (R208). -/
  | nonceBlock (n : Nat)
  /-- Complete an unfinished erase of the journal or nonce region at Start (R201). -/
  | sectorErase (sector : Nat)
  /-- Install step 4, 5, 6 or 8 (R250). -/
  | install (step : Nat)
  /-- Firmware update step 1, 2, 3, 4 or 6 (R214). -/
  | update (step : Nat)
  | journalErase (sector : Nat)
  /-- An install that Thermal Halt entry ended: only its pulse in progress ends (R255). -/
  | abandoned
  deriving DecidableEq, Repr

/-- A request to the Array Service Routine. -/
structure BaRequest where
  purpose : BaPurpose
  ops : List BaOp
  admitted : Nat
  /-- A failed program has been retried at the next free location (R199). -/
  retried : Bool := false
  deriving DecidableEq, Repr

/-- Who asked for an admin operation: a tracker entry, a sideband port, a Keaka frame by its tag, or the device itself
(the mirror of R245, a recovery image). -/
inductive AdminPath where
  | host (entry : Nat) | sideband (port : Nat) | cascade (tag : Nat) | own
  deriving DecidableEq, Repr

/-- A firmware update in progress (R214): the step of R214, 0 while its started record is written. -/
structure FwUpdate where
  slotB : Bool
  step : Nat
  activate : Bool
  path : AdminPath
  header : Bytes := []
  image : List (Nat × Byte) := []
  deriving DecidableEq, Repr

/-- The boot array and the Array Service Routine (R196 to R217). -/
structure BootArray where
  /-- Flag cells by sector: false where the cell does not read firmly 1 (R200). -/
  flags : Tab Bool := []
  slot_flag_a : Bool := true
  slot_flag_b : Bool := true
  retired : List Nat := []
  journal : Tab JournalSector := []
  /-- Sequence number of the newest record (table "Journal record"). -/
  record_seq : Nat := 0
  nonce_a : NonceCopy := {}
  nonce_b : NonceCopy := {}
  /-- Steps by which the fused nonce epoch has been advanced (R209). -/
  epoch_steps : Nat := 0
  slot_a : FwSlot := {}
  slot_b : FwSlot := {}
  /-- The image of a slot has reached Run (R216). -/
  ran_a : Bool := false
  ran_b : Bool := false
  /-- The copy of a slot in instruction memory failed twice in this Start (R213). -/
  load_failed_a : Bool := false
  load_failed_b : Bool := false
  /-- Image in the instruction memory of the cores, execute-only (R213). -/
  running : List (Nat × Byte) := []
  /-- Image that last became active, to tell a firmware activation (R598). -/
  last_image : List (Nat × Byte) := []
  /-- Raises of the fused minimum security version (R216). -/
  min_version : Option Nat := none
  manifest_a : Bytes := []
  manifest_b : Bytes := []
  queue : List BaRequest := []
  current : Option BaRequest := none
  /-- A pulse is in progress, and pulses given to the present operation (R198). -/
  pulsing : Bool := false
  pulses : Nat := 0
  /-- Operations of the present request that have verified. -/
  done : Nat := 0
  update : Option FwUpdate := none
  /-- Firmware staging buffer of 16 MiB (R349) and its length. -/
  fw_staging : List (Nat × Byte) := []
  fw_length : Nat := 0
  deriving DecidableEq, Repr

/-! ### Manifest -/

/-- An install or mirror in progress (R250). -/
structure Install where
  path : AdminPath
  step : Nat
  targetB : Bool
  image : Bytes
  deriving DecidableEq, Repr

/-- The manifest loader beyond its registers (chapter 6). -/
structure ManifestState where
  staging : List (Nat × Byte) := []
  /-- Bytes the staging buffer has received, the end of the furthest transfer. -/
  staged : Nat := 0
  install : Option Install := none
  /-- The image in force; empty while none is. -/
  in_force : Bytes := []
  /-- A manifest is applied in this run (R143). -/
  applied : Bool := false
  deriving DecidableEq, Repr

/-! ### Endpoint -/

/-- How a received completion ends (table "Outcomes of device read requests"). -/
inductive CplOutcome where
  | success | unsupported | abort | poisoned | inconsistent
  deriving DecidableEq, Repr

/-- What a device read request fetches. -/
inductive ReadUse where
  /-- Data of a command: tracker entry and offset of the data in its transfer. -/
  | data (entry : Nat) (offset : Nat)
  /-- The command has ended; the data is dropped. -/
  | dropped
  deriving DecidableEq, Repr

/-- An outstanding read request (R277, R278). -/
structure ReadRequest where
  purpose : ReadUse
  address : Nat
  remaining : Nat
  /-- Admission stamp of its command, by which it waits (R277). -/
  stamp : Nat := 0
  position : Nat := 0
  deriving DecidableEq, Repr

/-- An MSI-X table entry (R294). -/
structure MsixEntry where
  address : BitVec 64 := 0
  data : BitVec 32 := 0
  masked : Bool := true
  deriving DecidableEq, Repr

/-- A PCIe port and its function (chapter 7); its status bits are in PCIE_PORT_STATUSn. -/
structure Port where
  mps : Nat := 128
  mrrs : Nat := 512
  tag_ext : Bool := false
  tag10 : Bool := false
  tag14 : Bool := false
  cto_value : Nat := 0
  cto_disable : Bool := false
  ltr_enable : Bool := false
  msix_enable : Bool := false
  msix_masked : Bool := false
  msix_table : Tab MsixEntry := []
  pba : List Nat := []
  aer_correctable : Nat := 0
  aer_uncorrectable : List String := []
  /-- Base addresses of BAR0, BAR2 and BAR4 (R266). -/
  bar0 : BitVec 64 := 0
  bar2 : BitVec 64 := 0
  bar4 : BitVec 64 := 0
  /-- Step of the Function Level Reset in progress, 0 when none (R285). -/
  flr : Nat := 0
  tags : Tab ReadRequest := []
  /-- Quarantined tags, each with the bytes its request has still to receive (R281). -/
  quarantined : Tab Nat := []
  /-- Reads waiting for a tag or for buffer space, oldest first (R277). -/
  reads_waiting : List ReadRequest := []
  deriving DecidableEq, Repr

/-- A request to BAR2 waiting behind a fence (R289). -/
inductive CmbRequest where
  | read (port : Nat) (offset len : Nat)
  | write (port : Nat) (offset : Nat) (data : Bytes) (enables : List Bool)
  /-- A register write that came during the fence: its mapping opens the next fence (R290). -/
  | remap (w : PcieCmbWinReg)
  deriving DecidableEq, Repr

/-- The endpoint shared by both ports (chapter 7). -/
structure Endpoint where
  port0 : Port := {}
  port1 : Port := {}
  /-- x8+x8 operation as trained (R257, R258). -/
  dual : Bool := false
  /-- Mapping that each open fence will make current (R289). -/
  fences : Tab PcieCmbWinReg := []
  /-- What waits behind an open fence, in order of receipt (R274, R289, R290). -/
  cmb_waiting : Tab (List CmbRequest) := []
  /-- CMB SRAM, 32 MiB; bytes not listed read 0. -/
  cmb : List (Nat × Byte) := []
  /-- Step 8 found two ports strapped where the manifest permits one (R258). -/
  dropped_dual : Bool := false
  /-- Bytes of the completion buffer reserved, of 16 MiB (R277). -/
  reserved : Nat := 0
  deriving DecidableEq, Repr

/-! ### What the device sends -/

/-- A message to a host port, sideband port or Keaka link, in the order sent. -/
inductive HostMsg where
  /-- A posted write of a command's data to host memory: controller, queue, command identifier, address (R273 step 1,
  R275). -/
  | data (ctrl sqid cid address : Nat) (bytes : Bytes)
  /-- A completion stamp entry (table "Completion stamp entry"). -/
  | stampEntry (ctrl cqid slot : Nat) (cstamp latency : Nat) (c_unanch a_unanch stepped : Bool)
  /-- A completion queue entry. -/
  | completion (ctrl cqid slot sqid sqhd cid status dw0 : Nat) (phase : Bool)
  | msix (port vector : Nat)
  /-- Completion of a host read of a BAR: status 0 success, 1 Unsupported Request, 2 Completer Abort,
  3 success with EP set on the completions that hold an uncorrectable word. -/
  | readData (port status : Nat) (bytes : Bytes)
  | configRetry (port : Nat)
  /-- A read request (R275): port, tag, address, length. -/
  | readRequest (port tag address len : Nat)
  | ptmRequest (port : Nat)
  /-- A Latency Tolerance Reporting message (R604): port, microseconds. -/
  | ltr (port us : Nat)
  | miResponse (port status : Nat) (bytes : Bytes)
  | scanOut (value : Nat)
  /-- A Keaka frame on a link. -/
  | frame (link type dst seq tag : Nat) (body : List Nat)
  deriving DecidableEq, Repr

/-! ### NVMe front end -/

/-- A submission queue entry as the host writes it (NVM Express Base Specification 2.0). -/
structure Sqe where
  opcode : BitVec 8 := 0
  cid : BitVec 16 := 0
  nsid : BitVec 32 := 0
  psdt : BitVec 2 := 0
  fuse : BitVec 2 := 0
  prp1 : BitVec 64 := 0
  prp2 : BitVec 64 := 0
  mptr : BitVec 64 := 0
  cdw10 : BitVec 32 := 0
  cdw11 : BitVec 32 := 0
  cdw12 : BitVec 32 := 0
  cdw13 : BitVec 32 := 0
  cdw14 : BitVec 32 := 0
  cdw15 : BitVec 32 := 0
  deriving DecidableEq, Repr

/-- An SGL descriptor: its type code and length (R323). -/
structure SglDesc where
  type : Nat
  length : Nat
  address : Nat := 0
  deriving DecidableEq, Repr

/-- The data pointer of a command as fetched: PRP entries after the first, an SGL, or a failed fetch (R322 to R324). -/
inductive DataPtr where
  | prp (later : List Nat)
  | sgl (descs : List SglDesc)
  | failed
  deriving DecidableEq, Repr

/-- A submission queue (R313, R317, R336 to R341). -/
structure SubQueue where
  size : Nat
  cqid : Nat
  prio : Nat := 0
  halt_attr : Bool := false
  head : Nat := 0
  tail : Nat := 0
  /-- Doorbell stamps (R317), oldest first: tail written and stamp, for writes that made entries visible not yet fetched. -/
  doorbells : List (Nat × Stamped) := []
  /-- A delete waits for the last completion of the queue (R314). -/
  closing : Bool := false
  halted : Bool := false
  /-- Error Count of the halt's Error Information entry (R340). -/
  halt_entry : Option Nat := none
  halt_read : Bool := false
  deriving DecidableEq, Repr

/-- A completion queue (R312, R342). -/
structure CplQueue where
  size : Nat
  ien : Bool := false
  vector : Nat := 0
  stamped : Bool := false
  ring : Nat := 0
  head : Nat := 0
  tail : Nat := 0
  phase : Bool := true
  /-- Completions since the last interrupt, for coalescing (R354). -/
  uncoalesced : Nat := 0
  deriving DecidableEq, Repr

/-- An asynchronous event: type, information, log (table "Asynchronous event mapping"). -/
structure AsyncEvent where
  type : Nat
  info : Nat
  log : Nat
  deriving DecidableEq, Repr

/-- An NVMe controller (chapter 8). -/
structure Controller where
  en : Bool := false
  rdy : Bool := false
  cfs : Bool := false
  shst : Nat := 0
  /-- CC as last written. -/
  cc : Nat := 0
  nssro : Bool := false
  iosqes : Nat := 0
  iocqes : Nat := 0
  ams : Nat := 0
  aqa : Nat := 0
  asq : Nat := 0
  acq : Nat := 0
  cmbmsc : Nat := 0
  /-- Fetching stopped (R53, R284, R308). -/
  fetch_stopped : Bool := false
  /-- Queues granted: submission and completion (R311). -/
  granted : Option (Nat × Nat) := none
  sqs : Tab SubQueue := []
  cqs : Tab CplQueue := []
  arb_burst : Nat := 0
  weights : Nat := 0
  /-- Fetch arbitration (R316): the queue whose turn it is with the entries it has given, the queues that have had a turn in
  the present round, and the entries each class has given in the present round of weights. -/
  turn : Option (Nat × Nat) := none
  served : List Nat := []
  class_given : Tab Nat := []
  temp_over : Tab Int := []
  temp_under : Tab Int := []
  coalesce_thr : Nat := 0
  coalesce_time : Nat := 0
  vector_cd : List Nat := []
  atomicity : Nat := 0
  async_config : Nat := 0
  host_id : Option Nat := none
  resv_mask : Tab Nat := []
  /-- Outstanding Asynchronous Event Requests: tracker entries, oldest first (R752). -/
  aer_requests : List Nat := []
  aer_pending : List AsyncEvent := []
  /-- Event types masked until their log is read (R752). -/
  aer_masked : List Nat := []
  error_log : List ErrorEntry := []
  /-- Namespace attribute changes not yet read. -/
  ns_changed : List Nat := []
  /-- Controller Health Status Changed flags, by NVMe-MI path: sideband ports 0 and 1, and 2 in band (R598). -/
  mi_changed : Tab Nat := []
  deriving DecidableEq, Repr

/-- A registrant of a namespace's reservation (R304). -/
structure Registrant where
  host_id : Nat
  key : Nat
  ctrl : Nat
  deriving DecidableEq, Repr

/-- Reservation state of a namespace (R304). -/
structure Reservation where
  generation : Nat := 0
  type : Nat := 0
  holder : Option Nat := none
  registrants : List Registrant := []
  deriving DecidableEq, Repr

/-- A namespace (R345 to R347). -/
structure Namespace where
  nsze : Nat
  lbaf : Nat := 0
  extended : Bool := false
  attached0 : Bool := false
  attached1 : Bool := false
  /-- Home device under Multiply, and the device of each chunk ordinal under Deepen (R708). -/
  home : Nat := 0
  placed : List Nat := []
  /-- A delete or format waits for admitted commands (R346). -/
  closing : Option Nat := none
  reservation : Reservation := {}
  deriving DecidableEq, Repr

/-- States of a tracker entry (table "Tracker entry"). -/
inductive TrackState where
  | fetched | admitting | transferring | overlap | haltOrder | done
  deriving DecidableEq, Repr

/-- The code of a tracker state. -/
def TrackState.code : TrackState → Nat
  | .fetched => 1 | .admitting => 2 | .transferring => 3 | .overlap => 4 | .haltOrder => 5 | .done => 6

/-- An atomic piece of a write (R325, R328): first unit, units, and whether it is held. -/
structure Piece where
  unit : Nat
  units : Nat
  held : Bool := false
  deriving DecidableEq, Repr

/-- A slice of a write (R325): its pieces. -/
structure Slice where
  pieces : List Piece
  admitted : Bool := false
  /-- Its slice descriptor, once admitted (for a slice of a yard, none is used here). -/
  desc : Nat := 0
  /-- Cascade position that holds it (R707). -/
  position : Nat := 0
  deriving DecidableEq, Repr

/-- A tracker entry (R319, R320), with the parts of the command the command cores keep. -/
structure Entry where
  ctrl : Nat
  sqid : Nat
  sqe : Sqe
  admitted : Stamped
  sq_pos : Nat := 0
  state : TrackState := .fetched
  slices : List Slice := []
  /-- Host data received for the command, by offset in its transfer. -/
  buffer : List (Nat × Byte) := []
  status : Nat := 0
  dw0 : Nat := 0
  /-- Step count of CAMP_STEP_LOG at admission (table "Completion stamp entry"). -/
  steps : Nat := 0
  /-- Stamp at which its error was detected (R87). -/
  error_stamp : Option Stamped := none
  /-- The error handler has written its Error Information entry (R754). -/
  logged : Bool := false
  /-- It waits for a GenKey and gives way at dispatch (R318, R657). -/
  parked : Bool := false
  /-- Units a read still waits for (R332). -/
  reads_left : List Nat := []
  /-- Frames read for the command, by global unit index (R332). -/
  got : Tab Bytes := []
  /-- Data has been written to the host, or a mapping update applied (R352). -/
  effect : Bool := false
  /-- Addresses of its Teasel entries in banks 8 to 11, the first being overlap_tag (R693). -/
  overlap : List Nat := []
  /-- Unit ranges of its namespace that the command covers: first unit and count. -/
  ranges : List (Nat × Nat) := []
  /-- Units, by offset in the namespace, that a read has not resolved yet (R331, R332). -/
  unread : List Nat := []
  /-- Units, by offset in the namespace, that yards have still to return (R725). -/
  remote_left : List Nat := []
  /-- The least unit of a write that could not be merged (R334). -/
  broken : Option Nat := none
  /-- Units, by offset in the namespace, sent to yards in write data frames (R722). -/
  sent : List Nat := []
  /-- Its data pointer, as copied at admission (desc_addr). -/
  ptr : DataPtr := .prp []
  /-- The entry was sent on the cascade: yard positions still to answer. -/
  yards_wait : List Nat := []
  deriving DecidableEq, Repr

/-- The NVMe front end shared by both controllers. -/
structure Nvme where
  ctrl0 : Controller := {}
  ctrl1 : Controller := {}
  /-- In-flight tracker, 262,144 entries (R319). -/
  tracker : Tab Entry := []
  namespaces : Tab Namespace := []
  /-- A normal shutdown has completed and no write was accepted after it (R308). -/
  clean : Bool := false
  /-- A normal shutdown is draining the Shroud, for this controller (R308). -/
  shutting : Option Nat := none
  /-- The checkpoint of that shutdown has been asked for. -/
  shut_checkpoint : Bool := false
  /-- Lifetime Error Count (R753). -/
  error_count : Nat := 0
  /-- ACT_LED# is driven low (R127). -/
  act_led : Bool := false
  /-- The oldest waiting slice has passed the starvation ceiling (R327), by tracker entry. -/
  ceiling : Option Nat := none
  deriving DecidableEq, Repr

/-! ### Events -/

/-- The event fabric and the error handler beyond their registers (chapter 20). -/
structure Events where
  /-- Ring slots by seq mod 4,096 (R745). -/
  ring : Tab EventEntry := []
  slot0 : Option HandlerError := none
  slot1 : Option HandlerError := none
  held : List HandlerError := []
  next_id : Nat := 0
  /-- Serials of stripes to be escalated (R758). -/
  escalations : List Nat := []
  deriving DecidableEq, Repr

end Sys2Proof.Machine
end

