-- ==== Sys2Proof/Machine/TypesMedia.lean ====
section
/-!
DEFINITION. What the translation tier holds: the mapping table, the Shroud, stripes, stays, spill images, blocks
and reclaim (chapters 9 to 11).
-/

namespace Sys2Proof.Machine

/-! ### Mapping (chapter 9) -/

/-- Where a unit lies (table "Mapping entry"): kind and value of an entry that is no fine pointer. -/
inductive Loc where
  | unmapped
  /-- A physical unit address (table "Physical unit address"). -/
  | flash (pua : Nat)
  /-- Unreadable, with its cause. -/
  | unreadable (cause : Nat)
  deriving DecidableEq, Repr

/-- A reef entry (R368): coarse, or a pointer to a fine table with its 16 entries. -/
inductive Reef where
  | coarse (e : Loc)
  | fine (index : Nat) (entries : List Loc)
  deriving DecidableEq, Repr

/-- A mapping update record (table "Mapping update record"). -/
structure MapRecord where
  kind : Nat
  stamp : Stamped
  ns_index : Nat := 0
  ordinal : Nat := 0
  first : Nat
  count : Nat
  /-- Serial of the stripe whose summary carries it. -/
  serial : Option Nat := none
  /-- Its change has been made to the table (R378). -/
  applied : Bool := false
  /-- Its index in the record area. -/
  slot : Nat := 0
  /-- Offset of its first unit in the namespace, as its write-buffer entry keys it (R687). -/
  ns_unit : Option Nat := none
  deriving DecidableEq, Repr

/-- A cached map page in paged mode (R374 to R377). -/
structure CachedPage where
  dirty : Bool := false
  /-- Age for the least recently used order. -/
  used : Nat := 0
  /-- The page read has not arrived. -/
  waiting : Bool := false
  deriving DecidableEq, Repr

/-- A speculative read (R386 to R393): the reef, the slot base predicted, and its progress. -/
structure SpecRead where
  entry : Nat
  unit : Nat
  base : Nat
  fromHint : Bool
  /-- Namespace index of its stream. -/
  ns : Nat := 0
  /-- A unit of the same read has been confirmed. -/
  sure : Bool := false
  deriving DecidableEq, Repr

/-- A sequential stream (R388). -/
structure Stream where
  ns : Nat
  next : Nat
  hits : Nat := 1
  lastBase : Option Nat := none
  deriving DecidableEq, Repr

/-- A table checkpoint (R394 to R397). -/
structure Checkpoint where
  begin_stamp : Stamped
  horizon : Nat
  horizon_unanch : Bool := false
  scan_from : Nat
  table : Tab Reef := []
  chunks : Tab (Nat × Nat) := []
  /-- Map units in it, headers included, and how many are still to be built. -/
  units : Nat := 0
  units_left : Nat := 0
  /-- Taken when the last unit was built. -/
  complete_stamp : Stamped := {}
  deriving DecidableEq, Repr

/-- The map engine beyond its registers. -/
structure MapEngine where
  table : Tab Reef := []
  /-- Chunk directory: chunk to namespace index and ordinal (R361). -/
  chunks : Tab (Nat × Nat) := []
  /-- Greatest key of the host units and records applied (R395). -/
  horizon : Stamped := {}
  cache : Tab CachedPage := []
  directory : Tab Nat := []
  /-- Map pages captured for write-back and not yet applied, by the stamp of their map unit (R377). -/
  captured : Tab Bytes := []
  clock : Nat := 0
  specs : List SpecRead := []
  streams : Tab Stream := []
  current : Option Checkpoint := none
  /-- A trigger came during a checkpoint (R394). -/
  queued : Bool := false
  complete : List Checkpoint := []
  /-- Stripes opened since the last checkpoint began (R394). -/
  stripes_since : Nat := 0
  /-- Reefs with fold copies open (R370). -/
  folding : List Nat := []
  /-- The table has been formatted once (R448). -/
  formatted : Bool := false
  /-- Start ran the stamp scan, so a checkpoint begins at the first entry to Run (R394). -/
  scanned : Bool := false
  /-- Both stays were lost, so the next unclean scan covers every stripe (R435). -/
  full_scan : Bool := false
  /-- H at which each reef was last resolved for a host read (R387). -/
  resolved : Tab Motes := []
  /-- Reads found stale once, by tracker entry and unit (R385). -/
  stale_once : List (Nat × Nat) := []
  deriving DecidableEq, Repr

/-! ### The Shroud, stripes and stays (chapter 10) -/

/-- A frame: data and host metadata of a unit, as the XTS lanes made them (R416, R635). -/
structure Frame where
  data : Bytes := []
  metadata : Bytes := []
  deriving DecidableEq, Repr

/-- A unit held in the Shroud, with its index entry (R428). -/
structure HeldUnit where
  /-- Global unit index (R362). -/
  unit : Nat
  ns_index : Nat
  ns_unit : Nat
  stamp : Stamped
  frame : Frame
  /-- Stripe to which it has been assigned; none where the index names none. -/
  serial : Option Nat := none
  /-- Applied to the table (R380). -/
  applied : Bool := false
  /-- Slice descriptor it belongs to. -/
  slice : Nat := 0
  /-- Admission stamp of the command that wrote it (R414). -/
  cmd : Nat := 0
  deriving DecidableEq, Repr

/-- A slice descriptor: what a slice entry of Teasel banks 0 to 7 stands for, until every unit of it is released. -/
structure SliceDesc where
  ns_index : Nat
  /-- First unit, within the namespace. -/
  first : Nat
  units : Nat
  /-- Admission stamp. -/
  stamp : Nat
  /-- Units released by R424 or lost by R676, by offset in the slice. -/
  released : List Nat := []
  deriving DecidableEq, Repr

/-- A record of the stripe journal (table "Stay record head"). -/
structure StayRecord where
  type : Nat
  carried : Bool := false
  aux : Nat := 0
  serial : Nat := 0
  stamp : Stamped
  seq : Nat
  /-- For types 0x01 and 0x02: member die, block, base page and failed flag. -/
  members : List (Nat × Nat × Nat × Bool) := []
  /-- Durable in stay 0 and stay 1 (R432). -/
  durable0 : Bool := false
  durable1 : Bool := false
  deriving DecidableEq, Repr

/-- What a data unit of a stripe is (field kind of the table "Unit entry"). -/
inductive UnitSource where
  | empty
  | host (unit : Nat) (stamp : Stamped)
  /-- A copy of global unit `unit` from physical unit address `src`. -/
  | copy (unit : Nat) (stamp : Stamped) (src : Nat)
  | mapPage (page : Nat) (stamp : Stamped)
  /-- A unit of the checkpoint with this begin stamp. -/
  | checkpoint (id ordinal : Nat)
  deriving DecidableEq, Repr

/-- Progress of a member program. -/
inductive MemberState where
  | filling | issued | ok | failed
  deriving DecidableEq, Repr

/-- One die's share of a stripe (R409, R411). -/
structure Member where
  die : Nat
  block : Nat
  page : Nat
  state : MemberState := .filling
  deriving DecidableEq, Repr

/-- States of a stripe (table "Stripe states"). -/
inductive StripeState where
  | filling | programming | committed | closed | abandoned | lost
  deriving DecidableEq, Repr

/-- A stripe (R407 to R423). -/
structure Stripe where
  shape : Nat
  copyStream : Bool
  open_stamp : Stamped
  members : List Member
  units : List UnitSource := []
  /-- The mapping update records in its summary (R419). -/
  records : List MapRecord := []
  state : StripeState := .filling
  applied : Bool := false
  deriving DecidableEq, Repr

/-- A stripe-shape entry (R407). -/
structure Shape where
  channels : Nat
  data : Nat
  parity : Nat
  slots : Nat
  deriving DecidableEq, Repr

/-- One of the two stays (R430). -/
structure Stay where
  die : Nat
  block : Nat := 0
  page : Nat := 0
  good : Bool := true
  /-- Anchor blocks of the die whose program failed. -/
  bad : List Nat := []
  deriving DecidableEq, Repr

/-- A stay page being programmed: the record sequence numbers in it, and which copies have succeeded (R432). -/
structure StayPage where
  seqs : List Nat
  /-- Page sequence (R430). -/
  number : Nat := 0
  /-- The page is being programmed into the stays. -/
  issued : Bool := false
  done0 : Bool := false
  done1 : Bool := false
  deriving DecidableEq, Repr

/-- A SHA-256 in progress: the hash value of the blocks so far, the bytes beyond them, and the length of all. -/
structure RunningDigest where
  hash : List Nat := []
  tail : Bytes := []
  length : Nat := 0
  deriving DecidableEq, Repr

/-- End marker of a spill image (R445, R447). -/
structure EndMarker where
  stamp : Stamped
  count : Nat
  /-- SHA-256 over every record before it, each second copy left out. -/
  digest : Bytes := []
  start_spill : Bool
  def_causes : Nat
  def_stamp : Stamped
  deriving DecidableEq, Repr

/-- A spill image (R167, R445 to R447). -/
structure SpillImage where
  set : Nat
  /-- Its reservation record verifies (R446, R448). -/
  valid : Bool := false
  image_stamp : Stamped
  reserve : Nat
  th_payload : Option Bytes := none
  index : List HeldUnit := []
  records : List MapRecord := []
  journal : List StayRecord := []
  units : List HeldUnit := []
  marker : Option EndMarker := none
  /-- Every unit of it has been applied and released (R443). -/
  released : Bool := false
  deriving DecidableEq, Repr

/-- Which records of a spill image remain to be written (R167). -/
inductive SpillStage where
  | reservation | index | journal | units | marker | done
  deriving DecidableEq, Repr

/-- Why a spill image is being written. -/
inductive SpillCause where
  | flush | startSpill | thermalHalt
  deriving DecidableEq, Repr

/-- A spill in progress (R166, R170, R49). -/
structure Spill where
  cause : SpillCause
  stage : SpillStage := .reservation
  image : SpillImage
  left : List HeldUnit
  /-- Records written, and how many of the type in progress; those of this type that did not verify (R445, R446). -/
  seq : Nat := 0
  piece : Nat := 0
  bad : List Nat := []
  /-- Over the records written so far (R445). -/
  sum : RunningDigest := {}
  /-- Pairs dropped from the spill layout (R170). -/
  dropped : Nat := 0
  deriving DecidableEq, Repr

/-- What a programmed unit holds on flash, with its spare metadata (R416, R417). -/
structure FlashUnit where
  frame : Frame := {}
  kind : Nat := 0
  stamp : Stamped := {}
  target : Nat := 0
  ns_index : Nat := 0
  ns_unit : Nat := 0
  src : Nat := 0
  serial : Nat := 0
  /-- Bytes of a parity frame, which has no metadata of its own (R415). -/
  parity : Bytes := []
  deriving DecidableEq, Repr

/-- The stripe builder, the Shroud and the stays beyond their registers. -/
structure StripeBuilder where
  /-- Stripe-shape structure (R407). -/
  shapes : List Shape := [{ channels := 0xFFFFFFFFFFFF, data := 46, parity := 2, slots := 3 }]
  stripes : Tab Stripe := []
  /-- Stripe being filled by the host stream and by the copy stream. -/
  filling_host : Option Nat := none
  filling_copy : Option Nat := none
  /-- Per channel, the die offset the cursor of each stream gives next (R412). -/
  cursor_host : Tab Nat := []
  cursor_copy : Tab Nat := []
  /-- Dies that were skipped and keep their turn, by stream (R412). -/
  skipped_host : List Nat := []
  skipped_copy : List Nat := []
  /-- Slice descriptors. -/
  slices : Tab SliceDesc := []
  /-- Host units held, in stamp order. -/
  held : List HeldUnit := []
  /-- Mapping update records held. -/
  records : List MapRecord := []
  journal : List StayRecord := []
  journal_seq : Nat := 0
  start_gen : Nat := 0
  /-- Serial of the newest stripe ever opened (R420), and the pair generation of the stays (R430). -/
  serial : Nat := 0
  pair_gen : Nat := 0
  /-- Sequence of the newest stay page issued (R430). -/
  page_seq : Nat := 0
  /-- Reservation in the Shroud header (R83). -/
  header_reserve : Nat := 0
  /-- clean_sr of the Shroud header (R427). -/
  clean_sr : Bool := false
  stay0 : Option Stay := none
  stay1 : Option Stay := none
  pages : List StayPage := []
  /-- Die of a re-pair in progress (R434). -/
  repairing : Option Nat := none
  images : List SpillImage := []
  /-- Blocks of each spill set (R443). -/
  sets : Tab (List Nat) := []
  spill : Option Spill := none
  /-- Map and checkpoint units waiting for the host stream. -/
  replace : List UnitSource := []
  /-- Copies waiting for the copy stream. -/
  copies : List UnitSource := []
  /-- Frames read for copies, by source address, until their stripe is applied (R416, R466). -/
  copied : Tab FlashUnit := []
  deriving DecidableEq, Repr

/-! ### Flash contents and blocks (chapters 10 and 11) -/

/-- Block states (table "Block states"). -/
inductive BlockState where
  | erased | opened | closed | victim | released | erasing | spill | retired
  deriving DecidableEq, Repr

/-- A block (R453, R455). -/
structure Block where
  state : BlockState := .erased
  pe : Nat := 0
  valid : Nat := 0
  reads : Nat := 0
  /-- Reads in flight (R383). -/
  inflight : Nat := 0
  close_stamp : Nat := 0
  release_stamp : Nat := 0
  next_page : Nat := 0
  copyStream : Bool := false
  /-- The erased check of R463 has passed since the last erase. -/
  checked : Bool := false
  /-- Class under which the block is queued for reclaim (R464). -/
  queued : Option Nat := none
  queue_order : Nat := 0
  deriving DecidableEq, Repr

/-- A group being copied (R464, R466, R467). -/
structure Victim where
  blocks : List Nat
  cls : Nat
  chosen : Stamped
  deriving DecidableEq, Repr

/-- The media cores' reclaim state beyond its registers. -/
structure Reclaim where
  /-- Blocks by die × 4,096 + block. -/
  blocks : Tab Block := []
  flash : Tab FlashUnit := []
  victims : List Victim := []
  credit : Nat := 0
  queue_next : Nat := 0
  /-- S_0 has been fixed at the first format, and its value (R482). -/
  formatted : Bool := false
  initial : Nat := 0
  /-- Window: H at its entry, and DTWIN Writes Typical as taken then (R477). -/
  window_entry : Motes := 0
  dtwin_writes : Nat := 0
  /-- Event types of the Predictable Latency log not yet read (R475). -/
  plm_events : Nat := 0
  /-- Event enables of the Predictable Latency Mode Config data (R474). -/
  plm_enable : Nat := 0
  /-- Erases of each die since its last wear snapshot, and snapshots written (R458). -/
  wear_erases : Tab Nat := []
  wear_snaps : Tab Nat := []
  /-- The newest snapshot of each die: its stamp, and the pe of each block (R457, R458). -/
  wear_stamp : Tab Stamped := []
  wear_pe : Tab Nat := []
  /-- A host stripe is waiting for credit (R469). -/
  stalled : Bool := false
  deriving DecidableEq, Repr

end Sys2Proof.Machine
end

