-- ==== Sys2Proof/Machine/TypesFlash.lean ====
section
/-!
DEFINITION. What the media tier holds: the declared geometry, channels, operations at the ledger and at the dies,
the LDPC read sequence, and die-level redundancy (chapters 12 and 13).
-/

namespace Sys2Proof.Machine

/-- A geometry entry (table "Geometry entry"). -/
structure Geometry where
  id : Nat := 0
  planes : Nat := 4
  bits : Nat := 3
  prog_pages : Nat := 3
  blocks : Nat := 2048
  pages : Nat := 1536
  page_bytes : Nat := 18432
  iface : Nat := 7
  max_rate : Nat := 7
  slc_prefix : Nat := 0
  offset_feature : Nat := 0
  susp_opcode : Nat := 0
  resume_opcode : Nat := 0
  t_read_max : Nat := 4096
  t_prog_max : Nat := 4096
  t_erase_max : Nat := 4096
  t_susp_max : Nat := 4096
  t_slc_prog_max : Nat := 4096
  deriving DecidableEq, Repr

/-- Who wants an operation at a die. -/
inductive OpOwner where
  /-- A host read: tracker entry, and the units wanted, by position in the page. -/
  | host (entry : Nat) (units : List (Nat × Nat))
  /-- A speculative read (R386): the units not yet confirmed, and those that are (R391); it becomes a host read of these
  once every unit of the page is confirmed or discarded. -/
  | speculative (entry : Nat) (units confirmed : List (Nat × Nat))
  | mapPage (page : Nat)
  /-- A member of a stripe (R409): serial and member position. -/
  | member (serial position : Nat)
  /-- The read of a copy's source (R466): global unit index and source address. -/
  | copy (unit src : Nat)
  /-- A frame read for a reconstruction (R533): its number and the member position. -/
  | reconstruct (id position : Nat)
  /-- The same for a rebuild walk (R549, R550). -/
  | rebuild (id position : Nat)
  | probe
  | patrol
  /-- The erased check of a block (R463). -/
  | check
  | erase
  /-- A stay page (R432): stay 0 or 1. -/
  | stay (second : Bool)
  deriving DecidableEq, Repr

/-- What a reconstruction serves (R534). -/
inductive ReconUse where
  | host (entry unit : Nat)
  /-- A reclaim or rescue copy. -/
  | copy (unit src : Nat)
  | mapPage (page : Nat)
  /-- A copy, or a map page to be dirtied, of a rebuild walk. -/
  | rebuildCopy (unit src : Nat)
  | rebuildMap (page : Nat)
  deriving DecidableEq, Repr

/-- A reconstruction in progress (R530 to R533): stripe, unit index, members asked, read and lost. -/
structure Recon where
  serial : Nat
  index : Nat
  use : ReconUse
  stamp : Nat
  asked : List Nat := []
  got : List Nat := []
  lost : List Nat := []
  deriving DecidableEq, Repr

/-- Where an operation stands between the ledger and the die (R171, R508). -/
inductive OpState where
  | waiting | admitted | running | suspended | resuming | decoding | suspending
  deriving DecidableEq, Repr

/-- An operation on a die (R501 to R518). -/
structure NandOp where
  kind : LedgerKind
  owner : OpOwner
  die : Nat
  block : Nat
  page : Nat := 0
  plane : Nat := 0
  state : OpState := .waiting
  /-- Admission stamp, or release or issue stamp of background work (table "Arbiter levels"). -/
  stamp : Nat
  slc : Bool := false
  cached : Bool := false
  suspends : Nat := 0
  /-- H at the last begin or resume (R510, R511). -/
  run_from : Motes := 0
  /-- Time run so far, suspended time excluded (R507). -/
  ran : Motes := 0
  /-- Levels sensed so far, in the order of R518. -/
  senses : Nat := 0
  /-- Level of the present sense. -/
  level : Nat := 0
  /-- Wanted codewords still pending: unit positions in the page. -/
  pending : List Nat := []
  /-- Level whose hard decode left the fewest unsatisfied checks, and that count (R518). -/
  best : Option (Nat × Nat) := none
  soft : Bool := false
  /-- It holds a hard decoder of its channel, or one of the shared soft decoders (R516). -/
  decoder : Bool := false
  /-- Codewords decoded by a speculative read, held apart: position, bits, level index (R392). -/
  results : List (Nat × Nat × Nat) := []
  /-- Senses still to make of a soft read (R518). -/
  soft_left : Nat := 0
  /-- Wanted codewords reported erased or uncorrectable. -/
  lost : List Nat := []
  /-- H at the grant of its first sense, later by the time it has waited for further grants (R537). -/
  first : Option Motes := none
  /-- H from which it waits for its next sense at the ledger and in the channel queue (R537). -/
  wait_from : Option Motes := none
  /-- The read is carried by the multi-plane read of this operation (R503). -/
  merged : Option Nat := none
  /-- The read was sensed once again by the die timeouts (R507). -/
  resensed : Bool := false
  /-- The data is dropped when it arrives. -/
  dropped : Bool := false
  /-- The read has counted its timeout (R537). -/
  timed : Bool := false
  /-- The limit of the table "Die timeouts" has passed once. -/
  overdue : Bool := false
  deriving DecidableEq, Repr

/-- What the codec has recorded of a die (R520): bits corrected, and codewords decoded at the first sense, at a retry level and
by soft decode. -/
structure DieStats where
  bits : Nat := 0
  first : Nat := 0
  retried : Nat := 0
  soft : Nat := 0
  deriving DecidableEq, Repr

/-- A LUN (R508, R512). -/
structure Lun where
  running : Option Nat := none
  suspended : Option Nat := none
  susp_reads : Nat := 0
  /-- Read-level offsets last written (R522). -/
  offsets : List Int := []
  /-- A LUN reset has been sent (R507). -/
  reset : Bool := false
  deriving DecidableEq, Repr

/-- A channel sequencer beyond its registers. -/
structure ChannelState where
  /-- First rate tried (R491). -/
  first_rate : Nat := 0
  /-- Training or retraining in progress, and whether it is a retraining. -/
  training : Option Bool := none
  /-- Pair temperature when it last trained (R500). -/
  trained_temp : Int := 0
  deriving DecidableEq, Repr

/-- Channels, ledger and LDPC beyond their registers (chapters 4 and 12). -/
structure Media where
  geometry : List Geometry := []
  /-- CE map, byte 8c + k (R496). -/
  ce_map : List Nat := []
  offset_tables : List Bytes := []
  retry_tables : List Bytes := []
  channels : Tab ChannelState := []
  luns : Tab Lun := []
  ops : Tab NandOp := []
  op_next : Nat := 0
  /-- Start levels by die × 8 + age bin (R525). -/
  start_levels : Tab Nat := []
  /-- Statistics of each die (R520). -/
  die_stats : Tab DieStats := []
  /-- Blocks reported for refresh since their last erase (R521). -/
  reported : List Nat := []
  /-- The oldest waiting operation has passed the starvation ceiling (R174). -/
  ceiling : Option Nat := none
  /-- Dies found at discovery. -/
  found : List Nat := []
  deriving DecidableEq, Repr

/-- A die as redundancy control sees it (R537 to R543). -/
structure Die where
  state : Nat := 0
  cause : Nat := 0
  becalmed : Bool := false
  /-- H at each timeout within RED_WINDOW (R541). -/
  timeouts : List Motes := []
  calm : Nat := 0
  retired : Nat := 0
  deriving DecidableEq, Repr

/-- The newest redundancy page (table "Redundancy page"), beyond the die states. -/
structure RedPage where
  seq : Nat := 0
  stamp : Stamped := {}
  in_force : Nat := 0
  /-- Source shape of the reshape in progress, and the reshape state. -/
  source : Nat := 0
  reshape : Nat := 0
  pending : Option Nat := none
  cut : Stamped := {}
  in_force_entry : Option Shape := none
  from_entry : Option Shape := none
  deriving DecidableEq, Repr

/-- A lost stripe under rescue (R553): the stamp at which it was escalated, and the units marked unreadable. -/
structure Rescue where
  serial : Nat
  stamp : Stamped
  marked : Nat := 0
  deriving DecidableEq, Repr

/-- Redundancy control beyond its registers (chapter 13). -/
structure Redundancy where
  dies : Tab Die := []
  page : Option RedPage := none
  /-- A page asked for before the floor is seeded, written when its stamp arrives (R64). -/
  page_held : Option RedPage := none
  /-- The page holding the target of a reshape is being made durable (R559). -/
  cutover : Option Nat := none
  /-- Serial the rebuild walk visits next (R549). -/
  walk : Option (Nat × Nat) := none
  /-- Reconstructions in progress, and the number the next takes. -/
  recons : Tab Recon := []
  recon_next : Nat := 0
  /-- Lost stripes whose rescue is not complete (R553). -/
  rescuing : List Rescue := []
  deriving DecidableEq, Repr

end Sys2Proof.Machine
end

