-- ==== Sys2Proof/Machine/TypesMgmt.lean ====
section
/-!
DEFINITION. What management holds beyond its registers: the thermal model and health counts, power states and
Patrol, the security engines and Opal, memory integrity, Teasel and the Keaka link (chapters 14 to 19).
-/

namespace Sys2Proof.Machine

/-! ### Thermal model and health (chapter 14) -/

/-- A node parameter entry (table "Node parameter entry"): theta and adj in 1/256, tau in units of 2^16 motes. -/
structure NodeParam where
  theta : Nat
  adj : Int
  tau : Nat
  deriving DecidableEq, Repr

/-- A Thermal Halt record (table "Thermal Halt record payload"). -/
structure HaltRecord where
  th_stamp : Stamped := {}
  composite : Int
  node : Nat
  mode : Nat
  power_state : Nat
  deferred : Bool := false
  halt : Nat
  deriving DecidableEq, Repr

/-- Progress of Thermal Halt entry (R49): the Shroud persists (step 4), or the record and what follows it are due. -/
inductive HaltEntry where
  | persisting | record
  deriving DecidableEq, Repr

/-- The thermal model and the throttle loop beyond their registers. -/
structure Thermal where
  params : List NodeParam := []
  /-- t[0] to t[13], units of 2^-32 °C; empty while the model does not run. -/
  temps : List Int := []
  board : Int := 0
  /-- Admitted charge of each pair summed over the cycles of this step, and those cycles (R566). -/
  pair_sum : List Nat := []
  pair_cycles : Nat := 0
  corr : List Int := []
  /-- Excluded readings (0 to 5 a die diode, 6 the external sensor) and their consecutive valid readings (R571). -/
  excluded : Tab Nat := []
  /-- Last valid reading of each source, 1/256 °C. -/
  readings : Tab Int := []
  /-- The Warning level has been entered and not left (R578). -/
  warned : Bool := false
  /-- The loop's cap (R580). -/
  cap : Nat := 0
  /-- The loop's clock level, and the level that is in effect (R579). -/
  loop_level : Nat := 0
  level_effective : Nat := 0
  /-- Threshold crossing not yet recorded (R52, R583). -/
  halt : Option HaltRecord := none
  entry : Option HaltEntry := none
  /-- `State.run` at the start of that entry: a reset of the same mote goes before the threshold (R54). -/
  entry_at : Motes := 0
  /-- comp(t) at the last calibration and at the last good dialog, parts per billion × 2^32 (R576). -/
  comp_now : Int := 0
  comp_good : Int := 0
  deriving DecidableEq, Repr

/-- Lifetime values of the SMART log and of the Waidar health log (R589, R593). -/
structure HealthCounts where
  program_retired : Nat := 0
  erase_retired : Nat := 0
  becalm_entries : Nat := 0
  stripes_lost : Nat := 0
  units_unreadable : Nat := 0
  cw_retried : Nat := 0
  cw_soft : Nat := 0
  cw_uncorr : Nat := 0
  stale_reads : Nat := 0
  flush_complete : Nat := 0
  flush_incomplete : Nat := 0
  shroud_lost_count : Nat := 0
  throttle_entries : Nat := 0
  halt_entries : Nat := 0
  sensor_faults : Nat := 0
  throttle_motes : Nat := 0
  slowed_motes : Nat := 0
  max_composite : Option (Int × Stamped) := none
  min_composite : Option (Int × Stamped) := none
  /-- Motes spent in each histogram bin (R593, R594). -/
  histogram : Tab Nat := []
  pair_max : Tab Int := []
  data_units_read : Nat := 0
  data_units_written : Nat := 0
  host_reads : Nat := 0
  host_writes : Nat := 0
  busy_motes : Nat := 0
  power_cycles : Nat := 0
  /-- Oscillator cycles outside Hold (R589). -/
  power_on_cycles : Nat := 0
  unsafe_shutdowns : Nat := 0
  media_errors : Nat := 0
  warn_motes : Nat := 0
  critical_motes : Nat := 0
  /-- Percentage Used values already reported (R596). -/
  used_reported : List Nat := []
  rel_latched : Bool := false
  deriving DecidableEq, Repr

/-- Health reporting: the live values and the newest health page (R595). -/
structure Health where
  counts : HealthCounts := {}
  page : Option HealthCounts := none
  page_seq : Nat := 0
  page_stamp : Stamped := {}
  /-- Critical Warning at its last evaluation (R590). -/
  critical : Nat := 0
  /-- CSTS.RDY has been 1 since the last Start (R597). -/
  ready_seen : Bool := false
  /-- H when an I/O command became outstanding with no other (Controller Busy Time of R589). -/
  busy_from : Option Motes := none
  deriving DecidableEq, Repr

/-! ### Power states and Patrol (chapter 15) -/

/-- A handshake in progress (R608): who asked, and the participants that have not accepted. -/
structure Handshake where
  target : Nat
  ctrl : Nat
  /-- Tracker entry of the Set Features; none for a parent's request frame. -/
  entry : Option Nat
  waiting : List Nat
  deriving DecidableEq, Repr

/-- A return from Patrol in progress (R617). -/
structure PatrolReturn where
  step : Nat
  target : Nat
  entry : Option Nat
  deriving DecidableEq, Repr

/-- A patrol read of the present cycle and its result: greatest corrected count, and uncorrectable (R623, R624). -/
structure PatrolSample where
  block : Nat
  page : Nat
  corrected : Nat := 0
  /-- R521 holds for it. -/
  refresh : Bool := false
  uncorrectable : Bool := false
  done : Bool := false
  deriving DecidableEq, Repr

/-- The power-state controller beyond its registers. -/
structure PowerStates where
  handshake : Option Handshake := none
  returning : Option PatrolReturn := none
  /-- An I/O doorbell came during a PS4 handshake (R626): its controller. -/
  held_doorbell : Option Nat := none
  /-- Issue stamp of the Patrol cycle in progress. -/
  cycle : Option Nat := none
  samples : List PatrolSample := []
  /-- Last operational state in force for each controller (R47, R615). -/
  last0 : Nat := 0
  last1 : Nat := 0
  /-- Greatest corrected count and visit count of each block, by die × 4,096 + block (R624). -/
  counts : Tab (Nat × Nat) := []
  /-- Blocks reported, acted on at the return (R624). -/
  reports : List Nat := []
  deriving DecidableEq, Repr

/-! ### Security (chapter 16) -/

/-- Users of the engines: what a message, a digest or a signature is for. -/
inductive EngineUse where
  | spillRecord | journalRecord | securityStore | manifestSeal | manifestDigest | firmwareDigest | endMarker
  | checkpointDigest | shroudDigest | pinCheck | firmwareSlot | manifestSignature | recoveryImage | other
  deriving DecidableEq, Repr

/-- A GCM message in a lane (R637). -/
structure GcmMessage where
  purpose : EngineUse
  sealing : Bool
  text : Bytes := []
  /-- The journal record being sealed, or the spill set whose record is opened. -/
  record : Option JournalRecord := none
  subject : Nat := 0
  deriving DecidableEq, Repr

/-- A locking range (R653). -/
structure LockRange where
  ns : Nat := 1
  start : Nat := 0
  length : Nat := 0
  read_enabled : Bool := false
  write_enabled : Bool := false
  read_locked : Bool := false
  write_locked : Bool := false
  lock_on_reset : Bool := true
  deriving DecidableEq, Repr

/-- A C_PIN row (R650, R659). -/
structure Pin where
  salt : Bytes := []
  verifier : Bytes := []
  tries : Nat := 0
  try_limit : Nat := 10
  deriving DecidableEq, Repr

/-- The session (R652). -/
structure Session where
  ctrl : Nat
  /-- The SP it is open to: 0 Admin, 1 Locking. -/
  sp : Nat
  authorities : List Nat := []
  deriving DecidableEq, Repr

/-- Persistent state of Opal, the content of the security store (R650). -/
structure OpalStore where
  /-- Media key in each slot: the ordinal of the key generated (R629, R630). -/
  keys : Tab Nat := []
  pins : Tab Pin := []
  ranges : Tab LockRange := []
  manufactured : Bool := false
  deriving DecidableEq, Repr

/-- Progress of a GenKey (R657). -/
structure GenKey where
  slots : List Nat
  step : Nat
  entry : Nat
  /-- The table defaults are restored after it (Revert). -/
  revert : Bool := false
  deriving DecidableEq, Repr

/-- A digest key slot (R647): the hash states after one block of the key with ipad and with opad, for the two hashes that
use slots 0 and 1. The key itself is held nowhere. -/
structure KeySlot where
  inner384 : List Nat := []
  outer384 : List Nat := []
  inner256 : List Nat := []
  outer256 : List Nat := []
  deriving DecidableEq, Repr

/-- The security engines and Opal beyond their registers. -/
structure Security where
  /-- Digest key slots that are loaded (R629, R647). -/
  key_slots : Tab KeySlot := []
  store : OpalStore := {}
  /-- Newest store durable in both stays, with its sequence number. -/
  durable : Option OpalStore := none
  store_seq : Nat := 0
  store_stamp : Stamped := {}
  keys_drawn : Nat := 0
  session : Option Session := none
  genkey : Option GenKey := none
  lanes : Tab GcmMessage := []
  /-- Messages waiting for a lane, oldest first (R637). -/
  gcm_waiting : List GcmMessage := []
  contexts : Tab EngineUse := []
  /-- Users that wait for a digest context, by admission stamp (R646). -/
  digest_waiting : List (Nat × EngineUse) := []
  /-- Requests of the signature checker: the one it serves, then those that wait, by admission stamp (R649). -/
  checker : List (Nat × EngineUse) := []
  /-- Content of the DataStore table in clear; bytes not listed read 0 (R658). -/
  datastore : List (Nat × Byte) := []
  /-- Response of the last method, for Security Receive. -/
  response : Bytes := []
  deriving DecidableEq, Repr

/-! ### Memory integrity (chapter 17) -/

/-- A scrub pass in progress (R678 to R681). -/
structure ScrubPass where
  start : Stamped := {}
  position : Nat := 0
  words : Nat := 0
  corrected : Nat := 0
  uncorrectable : Nat := 0
  deriving DecidableEq, Repr

/-- Memory integrity beyond its registers. -/
structure MemoryIntegrity where
  passes : Tab ScrubPass := []
  /-- Ranges whose next pass has fallen due while one continues (R679). -/
  due : List Nat := []
  /-- Addresses corrected in the present pass: memory and address (R674). -/
  corrected_in_pass : List (Nat × Nat) := []
  /-- Words of CMB SRAM that stay uncorrectable until written whole: memory code 3 and byte address (R675). In the other
  memories the owner's action replaces the word at once. -/
  bad_words : List (Nat × Nat) := []
  /-- Code words of CMB SRAM whose valid bit is 1, by number (R667, R668). -/
  cmb_valid : List Nat := []
  deriving DecidableEq, Repr

/-! ### Teasel (chapter 18) -/

/-- A Teasel entry (table "Teasel entry"). -/
structure TslEntry where
  valid : Bool := false
  prio : BitVec 4 := 0
  len : BitVec 12 := 0
  key : BitVec 47 := 0
  payload : BitVec 64 := 0
  deriving DecidableEq, Repr

/-- A shift (R696 to R698): source of the next move, the address being cleared for the new entry, and moves made. -/
structure TslShift where
  source : Nat
  target : Nat
  moves : Nat := 0
  entry : TslEntry
  deriving DecidableEq, Repr

/-- The four results of a search (R689). -/
structure TslResult where
  hit : Bool := false
  first : TslEntry := {}
  address : Nat := 0
  count : Nat := 0
  deriving DecidableEq, Repr

/-- Teasel beyond its registers. -/
structure Teasel where
  /-- Entries by address; an address not listed holds all zeros. -/
  entries : Tab TslEntry := []
  ring : Nat := 0
  shift : Option TslShift := none
  /-- Ordered inserts that arrived during a shift (R698). -/
  inserts : List TslEntry := []
  /-- Result of the last search or search-insert. -/
  result : TslResult := {}
  deriving DecidableEq, Repr

/-! ### Keaka (chapter 19) -/

/-- A frame as sent (R713): type, source, destination, sequence number, tag, body. -/
structure KkFrame where
  type : Nat
  src : Nat
  dst : Nat
  seq : Nat := 0
  tag : Nat := 0
  body : List Nat := []
  deriving DecidableEq, Repr

/-- One end of a link (R711 to R717); state and width are in KK_LINK_STATUSn. -/
structure KkLink where
  /-- Training step reached, 0 to 6 (R712). -/
  step : Nat := 0
  tx_seq : Nat := 0
  rx_seq : Nat := 0
  /-- Frames sent and not covered by an ack, oldest first (R715). -/
  replay : List KkFrame := []
  resends : Nat := 0
  /-- Lanes it trained to, which single-lane operation in Patrol leaves and comes back to (R736). -/
  trained : Nat := 0
  /-- The parent drives KLn_RST# low (R181, R732). -/
  rst_low : Bool := true
  deriving DecidableEq, Repr

/-- A yard as the masthead sees it. -/
structure Yard where
  ident_ok : Bool := false
  floor : Option Nat := none
  /-- It has reported its own step 17 (R733). -/
  started : Bool := false
  ro_cause : Nat := 0
  /-- Critical Warning, spare, percentage and composite of the last log received (R738). -/
  log : Bytes := []
  deriving DecidableEq, Repr

/-- A slice that a yard serves for the masthead (R722, R726). -/
structure YardSlice where
  tag : Nat
  ns_index : Nat
  first : Nat
  units : Nat
  stamp : Stamped
  halt : Bool
  admitted : Bool := false
  /-- Units received, by namespace unit offset. -/
  received : Tab Frame := []
  held : List Nat := []
  released : Bool := false
  /-- Pieces that release frames named. -/
  permitted : List Nat := []
  /-- Its slice descriptor, once admitted. -/
  desc : Nat := 0
  deriving DecidableEq, Repr

/-- An admin operation in progress across the cascade (R728). -/
structure CascadeAdmin where
  entry : Nat
  /-- Positions still to be asked, in position order, and the one that has been asked. -/
  waiting : List Nat
  asked : Option Nat := none
  status : Nat := 0
  /-- What the admin forward frame carries. -/
  body : List Nat := []
  deriving DecidableEq, Repr

/-- The Keaka controllers beyond their registers. -/
structure Keaka where
  link0 : KkLink := {}
  link1 : KkLink := {}
  yards : Tab Yard := []
  /-- H at transmission of the open time request (R718). -/
  request : Option Motes := none
  /-- Masthead step count last received (R719). -/
  step_count : Option Nat := none
  /-- Steps the masthead has taken (R719). -/
  steps : Nat := 0
  floor_set : Option Nat := none
  slices : List YardSlice := []
  admin : List CascadeAdmin := []
  /-- Frames of type 0x38 waiting for the masthead (R737). -/
  forwards : List KkFrame := []
  /-- A request frame of the parent is being served (R735): its tag. -/
  parent_request : Option Nat := none
  /-- Participant 0x0B has forwarded a request to these positions. -/
  power_waiting : List Nat := []
  deriving DecidableEq, Repr

end Sys2Proof.Machine
end

