-- ==== Sys2Proof/Machine/OperandTypes.lean ====
section
/-!
DEFINITION. Operands of commands: what the outside presents with a command beyond numbers and bytes.
-/

namespace Sys2Proof.Machine

/-- Levels of the straps, the presence balls and DUALPORT_EN# (R115), as the fields of PAD_STRAP_STATUS. -/
structure Balls where
  mast : Bool
  casc_pos : BitVec 2
  test_en : Bool
  /-- DUALPORT_EN# is low. -/
  dualport : Bool
  /-- KL0_PRES# and KL1_PRES# are low (R115, R119). -/
  present : BitVec 2
  deriving DecidableEq, Repr

/-- An arbiter (R38). -/
inductive Arbiter where
  | ledger | writeBuffer | sequencer (channel : Nat)
  deriving DecidableEq, Repr

/-- A firmware image as the recovery path presents it (R217). -/
structure FwImage where
  header : Bytes
  image : Bytes
  /-- The digest and the signature of the image verify (R211). -/
  authentic : Bool
  deriving DecidableEq, Repr


/-- Who writes a register: a host port, or a management core. -/
inductive WriteAgent where
  | host (port : Nat) | core (n : Nat)
  deriving DecidableEq, Repr

/-- What a configuration write changes (R271, R276). -/
inductive ConfigField where
  | mps (bytes : Nat) | mrrs (bytes : Nat) | extTag (on : Bool) | tag10 (on : Bool) | tag14 (on : Bool)
  | ptmEnable (on : Bool) | ctoValue (code : Nat) | ctoDisable (on : Bool)
  | msixEnable (on : Bool) | msixMask (on : Bool) | ltrEnable (on : Bool) | memSpace (on : Bool)
  /-- A DWORD of a base address register: 0, 2 or 4, its upper half or its lower (R266). -/
  | bar (n : Nat) (high : Bool) (value : Nat)
  /-- The power state field is written with D0. -/
  | d0
  | other
  deriving DecidableEq, Repr

/-- A correctable error of a port (table of R298). -/
inductive LinkError where
  | receiver | badTlp | badDllp | replayRollover | replayTimeout
  /-- An internal error that the endpoint corrects. -/
  | internal
  deriving DecidableEq, Repr

/-- Values a Set of a locking range gives (R653). -/
structure RangeSet where
  ns : Option Nat := none
  start : Option Nat := none
  length : Option Nat := none
  deriving DecidableEq, Repr

/-- A die found at discovery that passed its steps (R497), and its Read ID bytes. -/
structure DiscoveredDie where
  die : Nat
  id : Nat
  deriving DecidableEq, Repr

/-- What one wanted codeword of a sensed page gives: the unit position and its decode (R518). -/
structure Decoded where
  position : Nat
  /-- The codeword decoded. -/
  ok : Bool
  /-- Bits corrected, or unsatisfied checks where it did not decode. -/
  bits : Nat := 0
  deriving DecidableEq, Repr

/-- A codeword transferred from a page: unit position and zero bits, for the erased check (R463). -/
structure Sensed where
  position : Nat
  zeros : Nat := 0
  deriving DecidableEq, Repr

/-- A diode or external reading (R571): its value in 1/256 °C, or open or shorted. -/
inductive DiodeReading where
  | value (t : Int) | fault
  deriving DecidableEq, Repr

/-- What the operation of a Start step finds beyond what the device holds (R218). -/
structure StartReport where
  /-- DRAM is usable (step 7). -/
  ok : Bool := true
  /-- The first and the second copy of slot A, and of slot B, verify in instruction memory (step 6, R213). -/
  loadA : Bool × Bool := (true, true)
  loadB : Bool × Bool := (true, true)
  /-- Core domains whose loop is not locked (step 6, R193). -/
  unlocked : List Domain := []
  /-- Readings of the die diodes and of the external sensor (step 6, R573). -/
  diodes : List DiodeReading := []
  ext : DiodeReading := .fault
  /-- The Shroud header kept in DRAM verifies (step 7, R427). -/
  header : Bool := true
  /-- Units of the Shroud kept in DRAM, or of the image, that do not verify (step 13, R169). -/
  badUnits : List Nat := []
  /-- Blocks found to hold a stripe that a power loss cut (step 13, R442). -/
  badBlocks : List Nat := []
  /-- The scan finds a difference between the table and the stripes it read (step 14, R398). -/
  mismatch : Bool := false
  /-- Checkpoints that do not verify, by begin stamp, and stripes whose summaries are lost (step 14, R398). -/
  badCheckpoints : List Nat := []
  lostSummaries : List Nat := []
  /-- A copy of the security store verifies (step 11, R650). -/
  storeOk : Bool := true
  deriving DecidableEq, Repr

/-- What the code check of a word gives (R663): clean, corrected, or uncorrectable with the use whose outcome follows. -/
inductive EccOutcome where
  | clean | corrected | uncorrectable (requester : Nat) (subject : Nat)
  deriving DecidableEq, Repr

/-- A search (R688). -/
structure TslSearch where
  banks : BitVec 16
  key : BitVec 47
  /-- Keys searched, 1 to 4,096. -/
  n : Nat := 1
  value : BitVec 64 := 0
  mask : BitVec 64 := 0
  deriving DecidableEq, Repr

/-- Bank groups (table "Bank assignment"). -/
inductive TslGroup where
  | writeBuffer | overlap | stripes | hints
  deriving DecidableEq, Repr

/-- Why a frame was dropped (R715). -/
inductive FrameError where
  | crc | length | sequence
  deriving DecidableEq, Repr

/-- Header of a frame received in order and good (table "Keaka frame header"). -/
structure KkHeader where
  src : Nat
  dst : Nat
  seq : Nat
  ack : Nat
  tag : Nat := 0
  deriving DecidableEq, Repr

/-- An Ident frame (table "Keaka frame types"). -/
structure KkIdent where
  masthead : Bool
  position : Nat
  cascade_id : Nat
  count : Nat
  layout : Nat
  topo : Nat
  version : Nat
  start_fail : Nat
  floor : Nat
  deriving DecidableEq, Repr

/-- A time response (R718); t4 is the yard's H at its receipt. -/
structure KkTime where
  t1 : Nat
  t2 : Nat
  t3 : Nat
  anchored : Bool
  steps : Nat
  deriving DecidableEq, Repr

/-- A slice open or read request frame. -/
structure KkSlice where
  ns_index : Nat
  first : Nat
  units : Nat
  stamp : Stamped
  halt : Bool := false
  deriving DecidableEq, Repr

/-- A slice status frame: a piece held, or a refusal with its status. -/
inductive KkStatus where
  | held (piece : Nat) | refused (status : Nat)
  deriving DecidableEq, Repr

/-- An admin operation forwarded to a yard (R728, R729). -/
inductive KkAdmin where
  /-- The device's chunks of the namespace, by their ordinals. -/
  | namespaceCreate (nsid : Nat) (lbaf : Nat) (ordinals : List Nat)
  | namespaceDelete (nsid : Nat)
  | format (nsid : Nat) (lbaf : Nat) (ses : Nat)
  /-- Commit action, firmware slot field, and the image staged on the masthead. -/
  | firmwareCommit (action fs : Nat) (image : Bytes)
  | manifestInstall (image : Bytes)
  deriving DecidableEq, Repr

/-- What an event forward frame carries (R737). -/
inductive KkReport where
  | event (stamp : Stamped) (e : EventDraft)
  | error (stamp : Stamped) (e : ErrorDraft)
  | readOnly (cause : Nat)
  | started
  | log (bytes : Bytes)
  | stopped
  deriving DecidableEq, Repr

/-- A method or ComID operation carried by Security Send (R651). -/
inductive OpalMethod where
  | startSession (sp : Nat) (authority : Option Nat) (pin : Bytes)
  | endSession
  | setPin (authority : Nat) (salt pin : Bytes)
  | setTryLimit (authority limit : Nat)
  | setLockEnabled (range : Nat) (read write : Bool)
  | setLockOnReset (range : Nat) (powerCycle : Bool)
  | activate
  | datastore (offset : Nat) (bytes : Bytes)
  /-- Get of bytes of the DataStore table (R658). -/
  | readDatastore (offset count : Nat)
  | stackReset
  /-- Any other protocol or ComID (R651). -/
  | other
  deriving DecidableEq, Repr

/-- The two PTM master times of a response: when the request was received (t2) and when the response was sent (t3), in
nanoseconds (R70). -/
structure PtmTimes where
  t2 : Nat
  t3 : Nat
  deriving DecidableEq, Repr

/-- A boundary scan: the levels at the balls that the cells capture, and the level and the drive enable shifted into each cell
(R133). -/
structure ScanShift where
  levels : Nat
  level : Nat
  drive : Nat
  deriving DecidableEq, Repr

/-- An NVMe-MI data structure: its type, and the port or first controller it is read for (R598). -/
structure MiSelector where
  type : Nat
  id : Nat
  deriving DecidableEq, Repr

end Sys2Proof.Machine
end

