-- ==== Sys2Proof/Syntax.lean ====
section
/-!
DEFINITION. The commands of the block: one constructor per row of the opcode table, in the table's order, with
the operands the outside gives it (an address, a value, a measurement, the result of an operation).
-/

namespace Sys2Proof

open Sys2Proof.Machine

/-- The commands (spec/opcode_table.json). -/
inductive Instr where
  /-- COLD_POWER_ON (R46). VIN rises above the power-on threshold, power-on reset asserts and the device enters Hold. -/
  | coldPowerOn
  /-- RAIL_POWER_UP_STEP (R147). The power-good signals of one rail step arrive and the next rail step starts. -/
  | railPowerUpStep
  /-- RAIL_POWER_GOOD_TIMEOUT (R148). A rail is not good within its bound, so every rail except VAO and VAUX turns off and power-on reset stays asserted. -/
  | railPowerGoodTimeout (rail : Nat)
  /-- RAIL_RETRY_TIMER (R148). 100 ms after a failed rail power-up the device tries again, or stays in Hold after three failures. -/
  | railRetryTimer
  /-- POWER_ON_RESET_RELEASE (R139). Power-on reset is released at least 2 ms after VAO and VAUX are good. -/
  | powerOnResetRelease (balls : Balls)
  /-- STRAP_CHANGE_DETECTED (R116). A strap or presence ball differs from its sampled value for 2^16 motes and strap_changed sets. -/
  | strapChangeDetected (levels : Nat)
  /-- VIN_FALL_DARK (R141). VIN stays below 3.5 V for 2^14 motes and the device goes dark. -/
  | vinFallDark
  /-- VIN_OVERVOLTAGE (R144). VIN above 20.5 V for 2^14 motes logs an over-voltage event and sets vin_ov. -/
  | vinOvervoltage
  /-- POWER_LOSS_DETECTED (R142). VIN stays below the loss threshold in force for 2^14 motes and power loss is detected. -/
  | powerLossDetected
  /-- PWRDIS_ASSERT (R124). PWRDIS held high for 2^17 motes counts as power loss detected. -/
  | pwrdisAssert
  /-- PWRDIS_DEASSERT (R125). PWRDIS goes low with VIN present and power-on reset is applied again, as at the first application of VIN. -/
  | pwrdisDeassert
  /-- SPILL_RECORD_WRITTEN (R167). A spill record program completes and the next record of the spill image in R167 order is written. -/
  | spillRecordWritten (ok : Bool)
  /-- FLUSH_END (R166). The end marker is written, NVEN is driven low, the mode becomes Hold and the rails go down. -/
  | flushEnd
  /-- BANK_BELOW_VMIN (R170). The bank falls below v_min in Flush or in Hold, so the converter stops and the device goes dark. -/
  | bankBelowVmin
  /-- VIN_RETURN_IN_FLUSH (R170). VIN returns above the loss threshold plus 300 mV for 2^20 motes in Flush; this is recorded and power-on reset follows the Flush. -/
  | vinReturnInFlush
  /-- VIN_RETURN_IN_HOLD (R170). VIN returns while the converter holds the DRAM rails, so the other rails power up again under source 0x2. -/
  | vinReturnInHold
  /-- RAIL_FAULT (R149). A rail loses power-good: VSER takes the links down, and any other rail asserts power-on reset. -/
  | railFault (rail : Nat)
  /-- PAIR_ENABLE_STAGGER (R152). The stagger for the next populated NAND pair expires and its NVEN is driven high. -/
  | pairEnableStagger
  /-- NPG_SETTLED (R111). The NPG of a pair has been high for 2^20 motes, so its channel outputs leave high-impedance and discovery begins. -/
  | npgSettled (pair : Nat)
  /-- NPG_TIMEOUT (R153). A pair misses step 3 by its bound, so its NVEN goes low and the pair is failed as a fatal media condition. -/
  | npgTimeout (pair : Nat)
  /-- NPG_LOSS (R154). The NPG of an enabled pair goes low, so NVEN drops, open stripes on the pair are abandoned and reads are held. -/
  | npgLoss (pair : Nat)
  /-- PAIR_RETRY_TIMER (R154). 2^24 motes after an NPG loss the pair enable steps are run once more. -/
  | pairRetryTimer (pair : Nat)
  /-- BANK_TARGET_REACHED (R158). The charger brings the bank to its target and stops. -/
  | bankTargetReached
  /-- BANK_CHARGE_RESTART (R158). The bank falls 500 mV below its target and the charger restarts. -/
  | bankChargeRestart
  /-- BANK_OVERVOLTAGE (R159). The bank goes above 38.5 V, so the charger turns off and bank_fault sets. -/
  | bankOvervoltage
  /-- BANK_TEST_INTERVAL (R160). The bank test interval expires, or the target is first reached, and a capacitance measurement starts. -/
  | bankTestInterval
  /-- BANK_MEASURE_DONE (R160). The 2^26-mote measurement draw ends, c_meas is computed and the charger restarts. -/
  | bankMeasureDone (v1 : Nat) (v2 : Nat)
  /-- ALLOWANCE_UPDATE (R161). Every 2^20 motes the Shroud allowance allow_mib is recomputed. -/
  | allowanceUpdate (bank_mv : Nat) (vin_mv : Nat)
  /-- CHARGE_TIMEOUT (R164). PWR_CHARGE_TIMEOUT passes before the allowance reaches the floor, so Start ends its allowance wait. -/
  | chargeTimeout
  /-- LEDGER_ADMIT (R173). The power ledger admits each waiting NAND operation that fits within the cap in force, oldest first. -/
  | ledgerAdmit
  /-- STARVATION_CEILING_REACHED (R38). The oldest eligible request of an arbiter passes the starvation ceiling and is granted ahead of all others. -/
  | starvationCeilingReached (arbiter : Arbiter)
  /-- HOLD_RESET_RELEASE (R46). Every reset that reaches the management domain is released with its clocks good, and Start begins. -/
  | holdResetRelease
  /-- DOMAIN_RELEASE (R190). A domain's sources are released and its clock-good has been high for 2^10 motes, so the domain leaves reset. -/
  | domainRelease (d : Domain)
  /-- CLOCK_NOT_READY (R191). Clock-good drops during the release window, so the domain's reset is asserted again and an event is logged. -/
  | clockNotReady (d : Domain)
  /-- CLOCK_LOSS (R192). Clock-good is lost in a released domain, which is reset source 0x9. -/
  | clockLoss (d : Domain)
  /-- PLL_LOCK_RETRY (R193). Every 2^20 motes the switch of a core domain to its locked loop is retried, and after 2^26 motes source 0x9 is raised. -/
  | pllLockRetry (d : Domain) (locked : Bool)
  /-- START_STEP_COMPLETE (R218). The operation of a Start step completes and Start advances to its next step. -/
  | startStepComplete (report : StartReport)
  /-- PERST0_ASSERT (R179). PERST0# goes low: reset source 0x3 at L4, or at L3 on port 0 in x8+x8 operation. -/
  | perst0Assert
  /-- PERST1_ASSERT (R179). PERST1# goes low: reset source 0x4 at L3 on port 1 in x8+x8 operation, and only recorded otherwise. -/
  | perst1Assert
  /-- NVM_SUBSYSTEM_RESET (R179). The host writes NSSR and reset source 0x5 asserts at L4. -/
  | nvmSubsystemReset (ctrl : Nat) (value : BitVec 32)
  /-- KL0_RST_ASSERT (R181). On a yard, KL0_RST# goes low and reset source 0x7 asserts at L4. -/
  | kl0RstAssert
  /-- L4_REACH_ASSERTED (R186). Once the L4 safe point is met, or 2^23 motes pass, the reach of the L4 asserts and the mode becomes Hold. -/
  | l4ReachAsserted
  /-- WATCHDOG_STAGE1 (R195). A core watchdog reaches its timeout, so a watchdog event and an error-log entry are made. -/
  | watchdogStage1 (core : Nat)
  /-- WATCHDOG_STAGE2 (R195). A second timeout passes without restart and reset source 0x8 asserts. -/
  | watchdogStage2 (core : Nat)
  /-- BOOT_ARRAY_REQUEST (R197). The Array Service Routine takes the next boot-array request in admission-stamp order. -/
  | bootArrayRequest
  /-- BOOT_ARRAY_PULSE_DONE (R198). A program or erase pulse ends and is verified; the routine issues the next pulse or returns success or fail. -/
  | bootArrayPulseDone (verified : Bool)
  /-- RECOVERY_IMAGE (R217). While start_fail is 0x01, ROM takes a Waidar recovery image over MCTP and writes it to slot A. -/
  | recoveryImage (image : FwImage)
  /-- PTM_DIALOG_INTERVAL (R69). CAMP_PTM_INTERVAL expires and a PTM dialog is attempted on the anchor port if it is eligible. -/
  | ptmDialogInterval
  /-- PTM_RESPONSE (R71). A good PTM response gives the target T, and H is slewed or stepped. -/
  | ptmResponse (times : PtmTimes)
  /-- PTM_RESPONSE_TIMEOUT (R69). No PTM response arrives within 2^22 motes, so the dialog is counted as failed. -/
  | ptmResponseTimeout
  /-- HOLDOVER_EXPIRY (R75). CAMP_HOLDOVER passes since the last good dialog, so Campion becomes unanchored and logs an event. -/
  | holdoverExpiry
  /-- CLAMP_END (R81). H exceeds L after a backward step and clamped clears. -/
  | clampEnd
  /-- RESERVATION_WRITE_DONE (R83). The reservation write to the retention register and Shroud header completes, and the waiting stamp issue proceeds. -/
  | reservationWriteDone
  /-- CAMP_ISSUE_READ (R98). A read of the lower word of CAMP_ISSUE issues a stamp and latches its upper word. -/
  | campIssueRead (port : Nat)
  /-- CAMP_REDIALOG (R98). Writing 1 to redialog starts a PTM dialog at once and restarts the interval. -/
  | campRedialog
  /-- CAMP_EPOCH_OFFSET_WRITE (R73). A write to CAMP_EPOCH_OFFSET is tested and either accepted for the next good dialog or ignored with offset_rejected set. -/
  | campEpochOffsetWrite (value : BitVec 64)
  /-- WIDE_REGISTER_LOWER_READ (R28). A read of the lower word of a 64-bit counter or stamp register latches its upper word. -/
  | wideRegisterLowerRead (port : Nat) (offset : Nat)
  /-- REGISTER_WRITE (R22). A host or core write to a register without a row of its own is applied by field type, including RW1C clears and 64-bit two-word writes. -/
  | registerWrite (agent : WriteAgent) (offset : Nat) (bytes : Nat) (value : Nat)
  /-- ACT_LED_TIMEOUT (R127). 2^25 motes pass after the last completed I/O command and ACT_LED# goes high-impedance. -/
  | actLedTimeout
  /-- TAP_RESET (R134). TRST# low, or five TCK cycles with TMS high, resets the TAP and selects IDCODE. -/
  | tapReset
  /-- EXTEST (R134). The boundary-scan EXTEST instruction is loaded when test mode permits it. -/
  | extest
  /-- IDCODE (R134). The IDCODE instruction selects the PAD_IDCODE value for shifting out. -/
  | idcode
  /-- SAMPLE_PRELOAD (R135). SAMPLE/PRELOAD captures ball levels without disturbing operation. -/
  | samplePreload (scan : ScanShift)
  /-- CLAMP (R134). The CLAMP instruction is loaded when test mode permits it. -/
  | clampTap
  /-- HIGHZ (R134). The HIGHZ instruction is loaded when test mode permits it. -/
  | highz
  /-- BYPASS (R134). BYPASS, or any undefined or unoffered opcode, selects the bypass register. -/
  | bypass
  /-- BASIC_MANAGEMENT_READ (R597). The NVMe-MI Basic Management Command returns the drive status values on a sideband port. -/
  | basicManagementRead (port : Nat)
  /-- READ_NVME_MI_DATA_STRUCTURE (R598). The NVMe-MI command returns a data structure over MCTP in every mode except Hold. -/
  | readNvmeMiDataStructure (port : Nat) (kind : MiSelector)
  /-- CONFIGURATION_GET (R598). The NVMe-MI Configuration Get command is served on a sideband port. -/
  | configurationGet (port : Nat) (id : Nat)
  /-- CONFIGURATION_SET (R598). The NVMe-MI Configuration Set command is served on a sideband port. -/
  | configurationSet (port : Nat) (id : Nat) (value : Nat)
  /-- SUBSYSTEM_HEALTH_STATUS_POLL (R598). The NVMe-MI Subsystem Health Status Poll is answered. -/
  | subsystemHealthStatusPoll (port : Nat) (clear : Bool)
  /-- CONTROLLER_HEALTH_STATUS_POLL (R598). The NVMe-MI Controller Health Status Poll is answered. -/
  | controllerHealthStatusPoll (port : Nat) (ctrl : Nat) (clear : Bool)
  /-- TUNNELLED_ADMIN_COMMAND (R598). A tunnelled Identify, Get Log Page, Get Features or manifest operation acts on controller 0 where the mode permits it. -/
  | tunnelledAdminCommand (port : Nat) (sqe : Sqe) (data : Bytes)
  /-- NVME_MI_SUBSYSTEM_RESET (R179). An NVMe-MI subsystem reset on a sideband port asserts reset source 0x6 at L4. -/
  | nvmeMiSubsystemReset (port : Nat)
  /-- NVME_MI_INVALID_OPCODE (R598). Any other NVMe-MI opcode completes with Invalid Command Opcode. -/
  | nvmeMiInvalidOpcode (port : Nat) (opcode : Nat)
  /-- MANIFEST_TRANSFER (R355). Manifest Transfer copies host data into the manifest staging buffer. -/
  | manifestTransfer (entry : Nat) (data : Bytes)
  /-- MANIFEST_INSTALL (R356). Manifest Install runs the install steps on the staged image, checking it and writing the target copy. -/
  | manifestInstall (entry : Nat)
  /-- HOT_RESET_OR_LINK_DOWN (R299). A hot reset or link down on port n is L3 on that port: its tags are freed and its commands end with no completion. -/
  | hotResetOrLinkDown (port : Nat) (down : Bool)
  /-- BUS_MASTER_ENABLE_CLEAR (R283). Bus Master Enable goes from 1 to 0: DMA stops, tags are quarantined, and CSTS.CFS sets if CC.EN is 1. -/
  | busMasterEnableClear (port : Nat)
  /-- BUS_MASTER_ENABLE_SET (R283). Bus Master Enable is set again and pending unmasked MSI-X messages are sent. -/
  | busMasterEnableSet (port : Nat)
  /-- INITIATE_FLR (R285). Initiate Function Level Reset is written and source 0xC or 0xD starts the FLR steps. -/
  | initiateFlr (port : Nat)
  /-- FLR_COMPLETE (R285). The FLR steps finish and configuration requests are completed normally again. -/
  | flrComplete (port : Nat)
  /-- D3HOT_ENTRY (R299). The function enters D3hot with commands outstanding, which acts as Bus Master Enable cleared with CC.EN 1. -/
  | d3hotEntry (port : Nat)
  /-- CONFIG_WRITE (R276). Other configuration writes, such as MPS, MRRS, tag enables and PTM Enable, take effect for later requests. -/
  | configWrite (port : Nat) (field : ConfigField)
  /-- BAR0_ACCESS (R268). A BAR0 request to a reserved range or an unlisted window or offset, or to a window held in reset, is answered as its rules give. -/
  | bar0Access (port : Nat) (offset : Nat) (bytes : Nat) (data : Option Nat)
  /-- CMB_READ (R287). A BAR2 read resolves through its slot window and is served or rejected. -/
  | cmbRead (port : Nat) (offset : Nat) (len : Nat)
  /-- CMB_WRITE (R672). A BAR2 write resolves through its window and is applied per code word, or discarded when its byte enables are partial. -/
  | cmbWrite (port : Nat) (offset : Nat) (data : Bytes) (enables : List Bool)
  /-- MSIX_TABLE_ACCESS (R294). A BAR4 access reads or writes the MSI-X table or PBA. -/
  | msixTableAccess (port : Nat) (offset : Nat) (bytes : Nat) (data : Option Nat)
  /-- CMB_WINDOW_WRITE (R289). A write to PCIE_CMB_WINk is checked and opens a fence for the new mapping. -/
  | cmbWindowWrite (slot : Nat) (value : BitVec 64)
  /-- CMB_FENCE_END (R289). Every earlier request for the slot retires, so the new window mapping becomes current. -/
  | cmbFenceEnd (slot : Nat)
  /-- READ_COMPLETION_RECEIVED (R282). A completion for a device read request arrives and is placed, or ends the request by its outcome. -/
  | readCompletionReceived (port : Nat) (tag : Nat) (outcome : CplOutcome) (data : Bytes)
  /-- COMPLETION_TIMEOUT (R280). A read request has no completion within its timeout, so it ends, its tag is quarantined and its command aborts. -/
  | completionTimeout (port : Nat) (tag : Nat)
  /-- TAG_QUARANTINE_EXPIRY (R281). The timeout in force has passed since a tag was quarantined, and the tag may be reused. -/
  | tagQuarantineExpiry (port : Nat) (tag : Nat)
  /-- POISONED_WRITE_RECEIVED (R298). A poisoned write to BAR0 or BAR2 is discarded and Poisoned TLP Received is reported. -/
  | poisonedWriteReceived (port : Nat) (bar : Nat) (bytes : Bytes)
  /-- MALFORMED_TLP_RECEIVED (R298). A malformed request is discarded and reported as a fatal error. -/
  | malformedTlpReceived (port : Nat)
  /-- LINK_CORRECTABLE_ERROR (R298). A receiver, Bad TLP, Bad DLLP or replay error triggers a link-layer retry and is counted. -/
  | linkCorrectableError (port : Nat) (kind : LinkError)
  /-- ENDPOINT_INTERNAL_ERROR (R298). An uncorrectable error in the endpoint's own data path sets CSTS.CFS on the port's controller. -/
  | endpointInternalError (port : Nat)
  /-- SQ_TAIL_DOORBELL (R317). A submission queue tail doorbell is written; the doorbell stamp is taken, and in Patrol a return begins. -/
  | sqTailDoorbell (ctrl : Nat) (sqid : Nat) (tail : Nat)
  /-- CQ_HEAD_DOORBELL (R315). A completion queue head doorbell is written, or discarded and reported when invalid. -/
  | cqHeadDoorbell (ctrl : Nat) (cqid : Nat) (head : Nat)
  /-- CONTROLLER_ENABLE (R221). The host sets CC.EN to 1, and CSTS.RDY follows after step 17. -/
  | controllerEnable (ctrl : Nat) (cc : BitVec 32)
  /-- CONTROLLER_RESET (R309). CC.EN goes from 1 to 0, an L1 that ends the controller's commands and deletes its I/O queues. -/
  | controllerReset (ctrl : Nat)
  /-- SHUTDOWN_NORMAL (R308). CC.SHN 0b01 drains the Shroud into stripes, writes a checkpoint and sets SHST to 0b10. -/
  | shutdownNormal (ctrl : Nat)
  /-- SHUTDOWN_ABRUPT (R308). CC.SHN 0b10 ends commands with no completion and keeps the Shroud as at an L4. -/
  | shutdownAbrupt (ctrl : Nat)
  /-- SQ_ENTRY_FETCH (R319). Fetch arbitration fetches a submission entry, allocates a tracker entry and takes the admission stamp. -/
  | sqEntryFetch (ctrl : Nat) (sqid : Nat) (fetched : Option Sqe)
  /-- SLICE_ADMIT (R326). A waiting write slice meets its admission conditions and is admitted to the write buffer. -/
  | sliceAdmit (entry : Nat)
  /-- PIECE_HELD (R328). Every unit of an atomic piece is in the write buffer, so the piece becomes held and its units take their stamps. -/
  | pieceHeld (entry : Nat) (slice : Nat) (piece : Nat)
  /-- COMMAND_COMPLETE (R273). A command's data, stamp entry, completion entry and MSI-X message are issued in order, and its tracker entry is freed. -/
  | commandComplete (entry : Nat)
  /-- CREATE_IO_COMPLETION_QUEUE (R312). Create I/O Completion Queue is checked in order and creates the queue, with its stamp ring if requested. -/
  | createIoCompletionQueue (entry : Nat)
  /-- CREATE_IO_SUBMISSION_QUEUE (R313). Create I/O Submission Queue creates the queue, with the halt-on-error attribute if requested. -/
  | createIoSubmissionQueue (entry : Nat)
  /-- DELETE_IO_SUBMISSION_QUEUE (R314). Delete I/O Submission Queue ends the queue's commands with Command Aborted due to SQ Deletion. -/
  | deleteIoSubmissionQueue (entry : Nat)
  /-- DELETE_IO_COMPLETION_QUEUE (R314). Delete I/O Completion Queue deletes the queue, or fails while a submission queue is still attached. -/
  | deleteIoCompletionQueue (entry : Nat)
  /-- GET_LOG_PAGE (R348). Get Log Page returns the named log, such as the error, SMART, health, event ring or error detail log. -/
  | getLogPage (entry : Nat)
  /-- IDENTIFY (R348). Identify returns the controller or namespace data structures. -/
  | identify (entry : Nat)
  /-- ABORT (R352). Abort ends the named command if it has taken no effect yet, and otherwise reports that it continues. -/
  | abortCommand (entry : Nat)
  /-- GET_FEATURES (R354). Get Features returns the current or default value of a supported feature. -/
  | getFeatures (entry : Nat)
  /-- SET_FEATURES_ARBITRATION (R316). Set Features Arbitration sets the burst and the priority weights. -/
  | setFeaturesArbitration (entry : Nat)
  /-- SET_FEATURES_POWER_MANAGEMENT (R605). Set Features Power Management requests a power state and starts a handshake or a return. -/
  | setFeaturesPowerManagement (entry : Nat)
  /-- SET_FEATURES_TEMPERATURE_THRESHOLD (R591). Set Features Temperature Threshold sets an over or under threshold for a sensor. -/
  | setFeaturesTemperatureThreshold (entry : Nat)
  /-- SET_FEATURES_NUMBER_OF_QUEUES (R311). The first Set Features Number of Queues after a reset fixes the queue allocation. -/
  | setFeaturesNumberOfQueues (entry : Nat)
  /-- SET_FEATURES_INTERRUPT_COALESCING (R354). Set Features Interrupt Coalescing sets coalescing, with its time counted in H. -/
  | setFeaturesInterruptCoalescing (entry : Nat)
  /-- SET_FEATURES_INTERRUPT_VECTOR_CONFIG (R354). Set Features Interrupt Vector Configuration sets per-vector coalescing. -/
  | setFeaturesInterruptVectorConfig (entry : Nat)
  /-- SET_FEATURES_WRITE_ATOMICITY (R354). Set Features Write Atomicity Normal is accepted, and DN has no effect. -/
  | setFeaturesWriteAtomicity (entry : Nat)
  /-- SET_FEATURES_ASYNC_EVENT_CONFIG (R751). Set Features Asynchronous Event Configuration enables the supported event bits. -/
  | setFeaturesAsyncEventConfig (entry : Nat)
  /-- SET_FEATURES_PLM_CONFIG (R474). Set Features 0x13 enables or disables Predictable Latency Mode for NVM Set 1. -/
  | setFeaturesPlmConfig (entry : Nat) (data : Bytes)
  /-- SET_FEATURES_PLM_WINDOW (R476). Set Features 0x14 requests the deterministic or the non-deterministic window. -/
  | setFeaturesPlmWindow (entry : Nat)
  /-- SET_FEATURES_HOST_IDENTIFIER (R304). Set Features Host Identifier accepts only a 128-bit identifier. -/
  | setFeaturesHostIdentifier (entry : Nat) (data : Bytes)
  /-- SET_FEATURES_RESERVATION_NOTIF_MASK (R354). Set Features Reservation Notification Mask sets the mask. -/
  | setFeaturesReservationNotifMask (entry : Nat)
  /-- SET_FEATURES_RESERVATION_PERSISTENCE (R304). Set Features Reservation Persistence with PTPL 1 completes with Feature Not Changeable. -/
  | setFeaturesReservationPersistence (entry : Nat)
  /-- SET_FEATURES_UNSUPPORTED (R354). Set Features of an unsupported or unchangeable feature, such as Timestamp or Volatile Write Cache, completes with an error. -/
  | setFeaturesUnsupported (entry : Nat)
  /-- ASYNCHRONOUS_EVENT_REQUEST (R752). An Asynchronous Event Request is held until an event is posted against it. -/
  | asynchronousEventRequest (entry : Nat)
  /-- NAMESPACE_CREATE (R345). Namespace Management create assigns chunks and an NSID, or fails by its checks. -/
  | namespaceCreate (entry : Nat) (data : Bytes)
  /-- NAMESPACE_DELETE (R346). Namespace Management delete waits for admitted commands and deallocates every LBA of the namespace. -/
  | namespaceDelete (entry : Nat)
  /-- NAMESPACE_ATTACHMENT (R346). Namespace Attachment attaches or detaches a namespace to the controllers. -/
  | namespaceAttachment (entry : Nat) (data : Bytes)
  /-- FIRMWARE_IMAGE_DOWNLOAD (R349). Firmware Image Download writes a piece into the 16 MiB staging buffer. -/
  | firmwareImageDownload (entry : Nat) (data : Bytes)
  /-- FIRMWARE_COMMIT_WRITE (R350). Firmware Commit CA 0b000 writes the staged image to the slot not booted. -/
  | firmwareCommitWrite (entry : Nat)
  /-- FIRMWARE_COMMIT_WRITE_ACTIVATE (R350). Firmware Commit CA 0b001 writes the slot and then a next-boot record for it. -/
  | firmwareCommitWriteActivate (entry : Nat)
  /-- FIRMWARE_COMMIT_ACTIVATE (R350). Firmware Commit CA 0b010 writes a next-boot record for a valid slot. -/
  | firmwareCommitActivate (entry : Nat)
  /-- NVME_MI_SEND (R348). NVMe-MI Send carries an NVMe-MI operation in-band. -/
  | nvmeMiSend (entry : Nat) (data : Bytes)
  /-- NVME_MI_RECEIVE (R348). NVMe-MI Receive returns an NVMe-MI response in-band. -/
  | nvmeMiReceive (entry : Nat)
  /-- FORMAT_NVM (R347). Format NVM changes the LBA format, or with SES erases every namespace. -/
  | formatNvm (entry : Nat)
  /-- SECURITY_RECEIVE (R651). Security Receive returns Level 0 Discovery or TCG method responses. -/
  | securityReceive (entry : Nat)
  /-- OPAL_SET_LOCK (R655). A Set of ReadLocked or WriteLocked takes effect for commands admitted afterward. -/
  | opalSetLock (entry : Nat) (range : Nat) (readLock : Option Bool) (writeLock : Option Bool)
  /-- OPAL_SET_RANGE (R653). A Set of a locking range's NamespaceID, RangeStart or RangeLength is checked and applied. -/
  | opalSetRange (entry : Nat) (range : Nat) (change : RangeSet)
  /-- OPAL_GENKEY (R657). GenKey replaces a range's media key and deallocates the range. -/
  | opalGenkey (entry : Nat) (range : Nat)
  /-- OPAL_REVERT (R657). Revert or RevertSP on the Locking SP performs GenKey on every range and restores the table defaults. -/
  | opalRevert (entry : Nat)
  /-- OPAL_AUTHENTICATE (R659). An authentication is checked against the PIN verifier, and blocked once TryLimit is reached. -/
  | opalAuthenticate (entry : Nat) (authority : Nat) (pin : Bytes)
  /-- TPER_RESET (R656). A TPer Reset closes the session without changing any lock. -/
  | tperReset (entry : Nat)
  /-- RESUME_QUEUE (R341). Resume Queue clears the halt of a queue whose error entry has been read. -/
  | resumeQueue (entry : Nat)
  /-- INVALID_COMMAND_OPCODE (R348). An unsupported opcode completes with Invalid Command Opcode. -/
  | invalidCommandOpcode (entry : Nat)
  /-- IO_FLUSH (R353). Flush completes successfully, because earlier completed writes are already held. -/
  | ioFlush (entry : Nat)
  /-- IO_WRITE (R325). Write is cut into slices and atomic pieces and is admitted to the write buffer. -/
  | ioWrite (entry : Nat) (ptr : DataPtr)
  /-- IO_READ (R332). Read resolves each LBA from the write buffer or through the map engine after its overlap waits. -/
  | ioRead (entry : Nat) (ptr : DataPtr)
  /-- IO_COMPARE (R348). Compare reads like a read and compares the data. -/
  | ioCompare (entry : Nat) (ptr : DataPtr)
  /-- IO_WRITE_ZEROES (R381). Write Zeroes holds a mapping update record of kind 0x02 in the Shroud. -/
  | ioWriteZeroes (entry : Nat)
  /-- DATASET_MANAGEMENT (R381). Dataset Management deallocate holds one kind 0x01 record per range. -/
  | datasetManagement (entry : Nat) (data : Bytes)
  /-- IO_VERIFY (R348). Verify reads like a read and transfers no data. -/
  | ioVerify (entry : Nat)
  /-- RESERVATION_REGISTER (R304). Reservation Register registers a key, and rejects CPTPL 0b10. -/
  | reservationRegister (entry : Nat) (data : Bytes)
  /-- RESERVATION_REPORT (R304). Reservation Report returns the reservation status. -/
  | reservationReport (entry : Nat)
  /-- RESERVATION_ACQUIRE (R304). Reservation Acquire takes a reservation of one of the six types. -/
  | reservationAcquire (entry : Nat) (data : Bytes)
  /-- RESERVATION_RELEASE (R304). Reservation Release releases or clears a reservation. -/
  | reservationRelease (entry : Nat) (data : Bytes)
  /-- STRIPE_PAD_AGE (R425). The first host unit of a filling stripe has been held for STR_PAD_AGE, so the stripe is padded and closed. -/
  | stripePadAge
  /-- PROGRAM_COMPLETE (R501). A die reports a member or spill program complete, with success or failure. -/
  | programComplete (op : Nat) (ok : Bool)
  /-- STRIPE_APPLY (R378). Once every lower key is applied, a committed stripe's host units, records and copies are applied to the table. -/
  | stripeApply (serial : Nat)
  /-- STAY_PAGE_FLUSH_AGE (R432). STAY_FLUSH_AGE passes since the first record of a stay page and the page is programmed into both stays. -/
  | stayPageFlushAge
  /-- STAY_PAGE_DURABLE (R432). Both stays report program success of a stay page, and waiting Shroud releases proceed. -/
  | stayPageDurable
  /-- STAY_REPAIR_DONE (R434). The re-pair writes complete and stay_repair clears. -/
  | stayRepairDone
  /-- MAP_PAGE_ARRIVAL (R391). A map page read arrives, and waiting resolutions proceed while speculated units are confirmed or discarded. -/
  | mapPageArrival (page : Nat)
  /-- MAP_PAGE_WRITEBACK_AGE (R377). A dirty map page has been dirty for MAP_WB_AGE and is written back. -/
  | mapPageWritebackAge (page : Nat)
  /-- CHECKPOINT_INTERVAL (R394). MAP_CKPT_INTERVAL passes since the last checkpoint began and a checkpoint begins. -/
  | checkpointInterval
  /-- CHECKPOINT_COMPLETE (R397). The last unit of a checkpoint commits, the checkpoint is complete and a queued checkpoint may start. -/
  | checkpointComplete
  /-- FOLD_AGE (R370). A fine reef unchanged for MAP_FOLD_AGE is folded into one reef slot. -/
  | foldAge (reef : Nat)
  /-- STREAM_END (R388). A sequential read stream ends after MAP_HINT_AGE without a read. -/
  | streamEnd (stream : Nat)
  /-- COUNTS_READY (R456). The walk that rebuilds valid counts after Start ends and counts_ready sets. -/
  | countsReady
  /-- RECLAIM_VICTIM_SELECT (R464). Reclaim chooses the next victim group by class and score when fewer than two are victims. -/
  | reclaimVictimSelect
  /-- ERASE_ISSUE (R460). A released block with no reads in flight and no references has its erase issued at the ledger. -/
  | eraseIssue (block : Nat)
  /-- ERASE_COMPLETE (R460). A die reports an erase complete; the block becomes erased, or is retired on failure. -/
  | eraseComplete (op : Nat) (ok : Bool)
  /-- IDLE_DETECT (R468). No command is outstanding or fetched for RCL_IDLE_DELAY and the device becomes idle. -/
  | idleDetect
  /-- DTWIN_TIMEOUT (R475). RCL_DTWIN_TMAX passes in the deterministic window and the set moves to the non-deterministic window. -/
  | dtwinTimeout
  /-- CHANNEL_RETRAIN (R500). CH_RETRAIN_INTERVAL passes, or the pair temperature moves by retrain_delta, and the channel retrains. -/
  | channelRetrain (channel : Nat)
  /-- CHANNEL_TRAINING_DONE (R492). A training sequence ends; on failure the rate steps down. -/
  | channelTrainingDone (channel : Nat) (ok : Bool)
  /-- DISCOVERY_COMPLETE (R497). Discovery of a pair's channels ends and its outcomes are recorded. -/
  | discoveryComplete (pair : Nat) (found : List DiscoveredDie)
  /-- SEQUENCER_GRANT (R508). The sequencer grants the oldest eligible admitted operation to its LUN or the bus. -/
  | sequencerGrant (channel : Nat)
  /-- READ_SENSE_COMPLETE (R501). A die reports an array read ready and its codewords are transferred and decoded. -/
  | readSenseComplete (op : Nat) (frames : List Sensed)
  /-- HARD_DECODE_COMPLETE (R518). A hard decode ends, and the read stops or senses the next retry level. -/
  | hardDecodeComplete (op : Nat) (results : List Decoded)
  /-- SOFT_DECODE_COMPLETE (R518). A soft decode ends and the codeword is decoded or uncorrectable. -/
  | softDecodeComplete (op : Nat) (results : List Decoded)
  /-- SUSPEND_COMPLETE (R512). A suspended program or erase reaches ready and reads are issued to its LUN. -/
  | suspendComplete (die : Nat)
  /-- SUSPEND_RESUME (R512). After susp_reads_max reads, CH_SUSP_HOLD_MAX or no eligible read, the LUN resumes its operation. -/
  | suspendResume (die : Nat)
  /-- DIE_OP_TIMEOUT (R507). An operation stays busy past its limit and takes the outcome of the die timeouts table. -/
  | dieOpTimeout (op : Nat)
  /-- LUN_RESET_READY (R776). A LUN reset by the timeout rule becomes ready, and its wanted codewords pass to redundancy control. -/
  | lunResetReady (die : Nat)
  /-- LUN_RESET_TIMEOUT (R507). A reset LUN is not ready within 2^23 motes and the die is failed. -/
  | lunResetTimeout (die : Nat)
  /-- BECALMED_READ_TIMEOUT (R537). A die read reaches RED_READ_TIMEOUT, so the die becomes becalmed and reconstruction starts. -/
  | becalmedReadTimeout (op : Nat)
  /-- PROBE_INTERVAL (R539). RED_PROBE_INTERVAL passes and a probe read is sent to a becalmed die. -/
  | probeInterval (die : Nat)
  /-- REBUILD_STRIPE_VISIT (R549). The rebuild walk visits the next stripe with a member on a failed die once depth allows. -/
  | rebuildStripeVisit
  /-- RESHAPE_CUTOVER (R559). The reshape redundancy page is durable and the cut-over stamp is issued. -/
  | reshapeCutover
  /-- THERMAL_MODEL_STEP (R568). Every THM_STEP the node temperatures update and the warning and halt tests run. -/
  | thermalModelStep (power : List Nat)
  /-- THERMAL_CALIBRATION (R571). Every THM_CAL_INTERVAL the diodes are read, the model is corrected and compensation is recomputed. -/
  | thermalCalibration (diodes : List DiodeReading) (ext : DiodeReading)
  /-- THROTTLE_TEST (R580). Every THM_THROTTLE_PERIOD the throttle loop adjusts the thermal cap or the clock level. -/
  | throttleTest
  /-- CLOCK_LEVEL_EFFECTIVE (R579). A new clock level takes effect. -/
  | clockLevelEffective
  /-- THERMAL_HALT_ENTRY_COMPLETE (R49). The record is written, NVEN drops, the link is held in Detect and the mode becomes Thermal Halt. -/
  | thermalHaltEntryComplete
  /-- HANDSHAKE_REPLY (R608). A handshake participant accepts or refuses a power-state target. -/
  | handshakeReply (code : Nat) (refuse : Bool)
  /-- HANDSHAKE_TIMEOUT (R609). A participant still delays after PSM_HANDSHAKE_TIMEOUT and counts as refusing. -/
  | handshakeTimeout
  /-- PATROL_RETURN_STEP (R617). A step of the return from Patrol finishes and the next begins. -/
  | patrolReturnStep
  /-- PATROL_WAKE (R622). PSM_PATROL_PERIOD expires and a Patrol cycle wakes and begins sampling. -/
  | patrolWake
  /-- PATROL_SAMPLE_END (R623). The patrol reads finish, or a quarter of the period passes, and results are compared before sleep. -/
  | patrolSampleEnd
  /-- GCM_MESSAGE_DONE (R638). A GCM lane finishes sealing or opening a message. -/
  | gcmMessageDone (lane : Nat) (auth : Bool) (auth_n : Bool)
  /-- DIGEST_DONE (R645). The digest engine finishes a hash or HMAC. -/
  | digestDone (context : Nat) (same : Bool) (same_n : Bool)
  /-- SIGNATURE_VERIFY_DONE (R649). The signature checker returns valid or invalid. -/
  | signatureVerifyDone (valid : Bool) (valid_n : Bool)
  /-- SCRUB_PASS_START (R679). A scrub pass of a range begins every period. -/
  | scrubPassStart (range : Nat)
  /-- SCRUB_WORD_READ (R678). A paced scrub read corrects or reports one word. -/
  | scrubWordRead (range : Nat) (address : Nat) (valid : Bool) (outcome : EccOutcome)
  /-- TEASEL_SEARCH (R688). A Teasel search returns hit, first match, address and count. -/
  | teaselSearch (search : TslSearch) (error : Option Nat)
  /-- TEASEL_SEARCH_INSERT (R693). An atomic search-insert into banks 8 to 11 inserts on a miss. -/
  | teaselSearchInsert (entry : TslEntry)
  /-- TEASEL_ORDERED_INSERT (R696). An ordered insert into banks 0 to 7 places the entry below older overlaps, starting a shift if needed. -/
  | teaselOrderedInsert (entry : TslEntry)
  /-- TEASEL_FREE_SLOT_INSERT (R694). A free-slot insert takes the lowest free address. -/
  | teaselFreeSlotInsert (group : TslGroup) (entry : TslEntry)
  /-- TEASEL_RING_INSERT (R694). A ring insert puts a hint at the ring pointer. -/
  | teaselRingInsert (entry : TslEntry)
  /-- TEASEL_REMOVE_BY_ADDRESS (R692). An entry is invalidated by address. -/
  | teaselRemoveByAddress (address : Nat)
  /-- TEASEL_REMOVE_BY_MATCH (R692). Every matching entry is invalidated. -/
  | teaselRemoveByMatch (search : TslSearch)
  /-- TEASEL_SHIFT_MOVE (R697). One move of a shift copies an entry up by one address. -/
  | teaselShiftMove
  /-- TEASEL_PROBE (R702). A write to TSL_PROBE_ADDR snapshots an entry into the probe registers. -/
  | teaselProbe (address : BitVec 16)
  /-- KEAKA_LINK_TRAINING_STEP (R712). A Keaka link training step completes and the next begins. -/
  | keakaLinkTrainingStep (link : Nat) (width : Nat)
  /-- FRAME_RECEIVE_ERROR (R715). A bad frame is dropped and a NAK is sent. -/
  | frameReceiveError (link : Nat) (kind : FrameError)
  /-- IDENT (R714). An Ident frame is checked against the cascade identity. -/
  | identFrame (link : Nat) (frame : KkHeader) (ident : KkIdent)
  /-- LINK_CONTROL (R715). A NAK resends frames, or a credit update frees credits. -/
  | linkControl (link : Nat) (frame : KkHeader) (nak : Option Nat)
  /-- TIME_REQUEST (R718). A parent answers a time request with a time response. -/
  | timeRequest (link : Nat) (frame : KkHeader) (t1 : Nat)
  /-- TIME_RESPONSE (R718). A yard computes its target from a time response and slews or steps H. -/
  | timeResponse (link : Nat) (frame : KkHeader) (response : KkTime)
  /-- YARD_TIME_DIALOG_INTERVAL (R93). The yard's dialog interval expires and it sends a time request. -/
  | yardTimeDialogInterval
  /-- FLOOR_REPORT (R721). The masthead collects a yard's floor report. -/
  | floorReport (link : Nat) (frame : KkHeader) (stamp : Nat)
  /-- FLOOR_SET (R721). A yard takes the cascade floor as its F. -/
  | floorSet (link : Nat) (frame : KkHeader) (stamp : Nat)
  /-- SLICE_OPEN (R722). A yard admits a slice sent by the masthead. -/
  | sliceOpen (link : Nat) (frame : KkHeader) (slice : KkSlice)
  /-- WRITE_DATA (R722). A yard places one data unit of a slice. -/
  | writeData (link : Nat) (frame : KkHeader) (ns_unit : Nat) (data : Frame)
  /-- SLICE_STATUS (R722). The masthead records pieces held on a yard, or its refusal. -/
  | sliceStatus (link : Nat) (frame : KkHeader) (status : KkStatus)
  /-- RELEASE (R726). A yard makes halt-order pieces held. -/
  | releaseFrame (link : Nat) (frame : KkHeader) (pieces : List Nat)
  /-- ABORT_FRAME (R714). A yard ends a slice or read and discards pieces not held. -/
  | abortFrame (link : Nat) (frame : KkHeader)
  /-- READ_REQUEST (R725). A yard resolves and reads the requested units. -/
  | readRequest (link : Nat) (frame : KkHeader) (slice : KkSlice)
  /-- READ_DATA (R725). The masthead receives ciphertext units from a yard. -/
  | readData (link : Nat) (frame : KkHeader) (ns_unit : Nat) (data : Frame)
  /-- READ_STATUS (R725). A status from a yard completes the read. -/
  | readStatus (link : Nat) (frame : KkHeader) (status : Nat)
  /-- RECORD (R728). A yard holds a mapping update record sent in a frame. -/
  | recordFrame (link : Nat) (frame : KkHeader) (record : MapRecord)
  /-- ADMIN_FORWARD (R728). A yard runs a forwarded admin operation. -/
  | adminForward (link : Nat) (frame : KkHeader) (op : KkAdmin)
  /-- ADMIN_RESULT (R728). The masthead gathers a yard's admin result. -/
  | adminResult (link : Nat) (frame : KkHeader) (status : Nat) (dw0 : Nat)
  /-- POWER_STATE_REQUEST (R735). A yard runs a handshake for its parent's power-state request. -/
  | powerStateRequest (link : Nat) (frame : KkHeader) (target : Nat) (back : Bool)
  /-- POWER_STATE_REPLY (R735). A parent takes a child's accept or refusal. -/
  | powerStateReply (link : Nat) (frame : KkHeader) (refusal : Option (Nat × Nat))
  /-- EVENT_FORWARD (R747). The masthead enters a forwarded event or error entry. -/
  | eventForward (link : Nat) (frame : KkHeader) (report : KkReport)
  /-- HEARTBEAT (R717). A heartbeat keeps the link alive. -/
  | heartbeat (link : Nat) (frame : KkHeader)
  /-- KEAKA_HEARTBEAT_SEND (R717). After 2^20 motes with no frame sent, a heartbeat is sent. -/
  | keakaHeartbeatSend (link : Nat)
  /-- KEAKA_ACK_TIMEOUT (R716). No ack arrives for 2^22 motes, or resends reach 8, and the link retrains. -/
  | keakaAckTimeout (link : Nat)
  /-- KEAKA_LANE_LOCK_LOSS (R716). A lane loses lock and the link retrains. -/
  | keakaLaneLockLoss (link : Nat)
  /-- KEAKA_LINK_TIMEOUT (R717). No frame arrives for KK_LINK_TIMEOUT and the link is down. -/
  | keakaLinkTimeout (link : Nat)
  /-- KEAKA_JOIN_TIMEOUT (R731). A yard is not joined within KK_JOIN_TIMEOUT and is lost. -/
  | keakaJoinTimeout
  /-- ERROR_HANDLING_END (R757). The owner's first action is recorded, slot 0 frees and slot 1 moves up. -/
  | errorHandlingEnd
  /-- COALESCING_TIMER (R354). The interrupt coalescing time expires and the interrupt is sent. -/
  | coalescingTimer (ctrl : Nat) (cqid : Nat)
  /-- PCIE_LINK_UP (R259). A PCIe port finishes link training and its data link becomes active, so link_up sets and PTM dialogs on it become possible. -/
  | pcieLinkUp (port : Nat) (width : Nat) (speed : Nat) (flit : Bool)
  /-- SECURITY_SEND (R651). Security Send carries protocol 0x01 methods such as StartSession, EndSession, C_PIN and DataStore Set, or protocol 0x02 ComID management, and may make a new security store durable. -/
  | securitySend (entry : Nat) (call : OpalMethod)
  deriving DecidableEq, Repr

end Sys2Proof
end

