-- ==== Sys2Proof/Decode.lean ====
section
/-!
DEFINITION. Commands of this block are no words: no row of the opcode table gives bits, so no word spells one.
-/

namespace Sys2Proof

/-- The command a word spells by the bits of the opcode table: none, for every row's bits are empty. -/
def decodeTableWord (_nbits _w : Nat) : Option Instr := none

end Sys2Proof
end

