-- ==== Sys2Proof/Config.lean ====
section
/-!
DEFINITION. What an implementation fixes and the spec leaves open: free values, none with a body, so that no proof can
see what they are.
-/

namespace Sys2Proof.Config

/-- Blocks of one spill set for a Shroud of so many MiB on blocks of so many units (R443): the spec gives no number for
its reserved width. -/
opaque spillSetBlocks : Nat → Nat → Nat

/-- The GCM keys that step 2 of Start derives from fused secrets: 0 the storage key, 1 the journal key (R629). -/
opaque gcmKey : Nat → List Byte

/-- Address in the device's DRAM of the copied descriptors of a tracker entry, 8 bytes (R320). -/
opaque descriptorAddress : Nat → List Byte

/-- 512 bits of the noise source: media key ordinal, attempt, half (R630). -/
opaque noise : Nat → Nat → Nat → List Byte

/-- Keys derived in hardware from fused secrets: digest key slot 0, the device manifest key, and 1, the PIN key (R629). -/
opaque digestKey : Nat → List Byte

/-- PIN of an authority whose C_PIN has never been set. -/
opaque firstPin : List Byte


/-- Entry of a PRP list at an address of host memory, for an admin command of more than two pages: list and place. -/
opaque prpListEntry : Nat → Nat → Nat

/-! What fuses hold. -/

/-- Vendor ID, Subsystem Vendor ID and Subsystem ID of the function (R263), and the Device Serial Number (R264). -/
opaque vendorId : BitVec 16
opaque subsystemVendorId : BitVec 16
opaque subsystemId : BitVec 16
opaque serialNumber : BitVec 64

/-- Model number, and the subsystem's NQN, formed from fused values (R302). -/
opaque modelNumber : List Byte
opaque subsystemNqn : List Byte

/-- Firmware revision that an image reports. -/
opaque firmwareRevision : List (Nat × Byte) → List Byte

/-- MCTP endpoint address of a sideband port that a manifest image gives; none where it gives none (R129). -/
opaque manifestMctp : List Byte → Nat → Option Nat

/-- Owner key hash by index, and whether it is revoked in fuses (R230, R234). -/
opaque ownerKeyHash : Nat → List Byte
opaque ownerKeyRevoked : Nat → Bool

/-- Drive serial number, as target_serial holds it (R226). -/
opaque deviceSerial : List Byte

/-- The firmware public keys of the service region, x then y as the manifest's owner key holds them, the fused hash of the
key of an index, and whether that key is revoked in fuses (R196, R211). No command writes the region. -/
opaque serviceKeys : List (List Byte)
opaque firmwareKeyHash : Nat → List Byte
opaque firmwareKeyRevoked : Nat → Bool

/-- MAP_CAPACITY_GB of the yard at a position: the spec names no frame that carries it. -/
opaque yardCapacityGb : Nat → Nat

/-- Serial number of the yard at a position, which R729 compares with target_serial. -/
opaque yardSerial : Nat → List Byte

/-- A byte of a structure that a standard defines and the spec gives no value for: structure (an Identify CNS from
0x100, a log identifier, an NVMe-MI data structure from 0x200) and offset. -/
opaque unstatedByte : Nat → Nat → Byte

/-- Fused minimum security version as shipped, and the shipped nonce epoch (R209, R211). -/
opaque fusedMinVersion : Nat

/-- Bytes of general SRAM, which the spec does not state (R678). -/
opaque generalSramBytes : Nat

end Sys2Proof.Config
end

