-- ==== Sys2Proof/Machine/Crypto.lean ====
section
/-!
DEFINITION. The digests, HMAC and signature check that the engines compute (R29, R645, R647, R649): SHA-256, SHA-384 and
SHA-512 of FIPS 180-4, HMAC of FIPS 198-1 over a key slot's two hash states, ECDSA P-384 verification of FIPS 186-5; and the ciphers of the lanes
(R632, R636): AES-256 of FIPS 197, XTS of IEEE 1619 and GCM of NIST SP 800-38D.
-/

namespace Sys2Proof.Machine

/-! ### SHA-2 (FIPS 180-4) -/

/-- Round constants of SHA-512; the 64 of SHA-256 are the upper halves of the first 64. -/
def shaK : List Nat :=
  [0x428a2f98d728ae22, 0x7137449123ef65cd, 0xb5c0fbcfec4d3b2f, 0xe9b5dba58189dbbc, 0x3956c25bf348b538,
    0x59f111f1b605d019, 0x923f82a4af194f9b, 0xab1c5ed5da6d8118] ++
  [0xd807aa98a3030242, 0x12835b0145706fbe, 0x243185be4ee4b28c, 0x550c7dc3d5ffb4e2, 0x72be5d74f27b896f,
    0x80deb1fe3b1696b1, 0x9bdc06a725c71235, 0xc19bf174cf692694] ++
  [0xe49b69c19ef14ad2, 0xefbe4786384f25e3, 0xfc19dc68b8cd5b5, 0x240ca1cc77ac9c65, 0x2de92c6f592b0275,
    0x4a7484aa6ea6e483, 0x5cb0a9dcbd41fbd4, 0x76f988da831153b5] ++
  [0x983e5152ee66dfab, 0xa831c66d2db43210, 0xb00327c898fb213f, 0xbf597fc7beef0ee4, 0xc6e00bf33da88fc2,
    0xd5a79147930aa725, 0x6ca6351e003826f, 0x142929670a0e6e70] ++
  [0x27b70a8546d22ffc, 0x2e1b21385c26c926, 0x4d2c6dfc5ac42aed, 0x53380d139d95b3df, 0x650a73548baf63de,
    0x766a0abb3c77b2a8, 0x81c2c92e47edaee6, 0x92722c851482353b] ++
  [0xa2bfe8a14cf10364, 0xa81a664bbc423001, 0xc24b8b70d0f89791, 0xc76c51a30654be30, 0xd192e819d6ef5218,
    0xd69906245565a910, 0xf40e35855771202a, 0x106aa07032bbd1b8] ++
  [0x19a4c116b8d2d0c8, 0x1e376c085141ab53, 0x2748774cdf8eeb99, 0x34b0bcb5e19b48a8, 0x391c0cb3c5c95a63,
    0x4ed8aa4ae3418acb, 0x5b9cca4f7763e373, 0x682e6ff3d6b2b8a3] ++
  [0x748f82ee5defb2fc, 0x78a5636f43172f60, 0x84c87814a1f0ab72, 0x8cc702081a6439ec, 0x90befffa23631e28,
    0xa4506cebde82bde9, 0xbef9a3f7b2c67915, 0xc67178f2e372532b] ++
  [0xca273eceea26619c, 0xd186b8c721c0c207, 0xeada7dd6cde0eb1e, 0xf57d4f7fee6ed178, 0x6f067aa72176fba,
    0xa637dc5a2c898a6, 0x113f9804bef90dae, 0x1b710b35131c471b] ++
  [0x28db77f523047d84, 0x32caab7b40c72493, 0x3c9ebe0a15c9bebc, 0x431d67c49c100d4c, 0x4cc5d4becb3e42b6,
    0x597f299cfc657e2a, 0x5fcb6fab3ad6faec, 0x6c44198c4a475817]

/-- Initial hash value of SHA-512. -/
def shaInit512 : List Nat :=
  [0x6a09e667f3bcc908, 0xbb67ae8584caa73b, 0x3c6ef372fe94f82b, 0xa54ff53a5f1d36f1, 0x510e527fade682d1,
    0x9b05688c2b3e6c1f, 0x1f83d9abfb41bd6b, 0x5be0cd19137e2179]

/-- Initial hash value of SHA-384. -/
def shaInit384 : List Nat :=
  [0xcbbb9d5dc1059ed8, 0x629a292a367cd507, 0x9159015a3070dd17, 0x152fecd8f70e5939, 0x67332667ffc00b31,
    0x8eb44a8768581511, 0xdb0c2e0d64f98fa7, 0x47b5481dbefa4fa4]

/-- Initial hash value of SHA-256. -/
def shaInit256 : List Nat :=
  [0x6a09e667, 0xbb67ae85, 0x3c6ef372, 0xa54ff53a, 0x510e527f, 0x9b05688c, 0x1f83d9ab, 0x5be0cd19]

/-- One of the hash functions: word bits, constants, the rotations of its four sigma functions (the last of the small ones
a shift), initial value, and words of the result. -/
structure ShaKind where
  bits : Nat
  ks : List Nat
  sum0 : Nat × Nat × Nat
  sum1 : Nat × Nat × Nat
  sig0 : Nat × Nat × Nat
  sig1 : Nat × Nat × Nat
  init : List Nat
  words : Nat

/-- SHA-256. -/
def sha256Kind : ShaKind :=
  { bits := 32, ks := (shaK.take 64).map fun k => k / 2 ^ 32, sum0 := (2, 13, 22), sum1 := (6, 11, 25)
    sig0 := (7, 18, 3), sig1 := (17, 19, 10), init := shaInit256, words := 8 }

/-- SHA-512. -/
def sha512Kind : ShaKind :=
  { bits := 64, ks := shaK, sum0 := (28, 34, 39), sum1 := (14, 18, 41), sig0 := (1, 8, 7), sig1 := (19, 61, 6)
    init := shaInit512, words := 8 }

/-- SHA-384: SHA-512 with its own initial value, cut to six words. -/
def sha384Kind : ShaKind := { sha512Kind with init := shaInit384, words := 6 }

/-- Bytes of a block. -/
def ShaKind.block (k : ShaKind) : Nat := 2 * k.bits

/-- The exclusive or of three rotations, the third a plain shift where `shift` says so. -/
def ShaKind.mix (k : ShaKind) (shift : Bool) (r : Nat × Nat × Nat) (x : Nat) : Nat :=
  let w := BitVec.ofNat k.bits x
  let last := if shift then w >>> r.2.2 else w.rotateRight r.2.2
  (w.rotateRight r.1 ^^^ w.rotateRight r.2.1 ^^^ last).toNat

/-- One round on the working variables with schedule word `w` and constant `c`. -/
def ShaKind.round (k : ShaKind) (v : List Nat) (w c : Nat) : List Nat :=
  match v with
  | [a, b, d, e, f, g, h, i] =>
    let m := 2 ^ k.bits
    let ch := (f &&& g) ^^^ ((m - 1 - f) &&& h)
    let maj := (a &&& b) ^^^ (a &&& d) ^^^ (b &&& d)
    let t1 := i + k.mix false k.sum1 f + ch + c + w
    let t2 := k.mix false k.sum0 a + maj
    [(t1 + t2) % m, a, b, d, (e + t1) % m, f, g, h]
  | _ => v

/-- The next word of the message schedule from the last sixteen. -/
def ShaKind.nextWord (k : ShaKind) (w : List Nat) : Nat :=
  (k.mix true k.sig1 (w.getD 14 0) + w.getD 9 0 + k.mix true k.sig0 (w.getD 1 0) + w.getD 0 0) % 2 ^ k.bits

/-- The rounds over a list of constants. -/
def ShaKind.rounds (k : ShaKind) : List Nat → List Nat → List Nat → List Nat
  | [], _, v => v
  | c :: cs, w, v => k.rounds cs (w.drop 1 ++ [k.nextWord w]) (k.round v (w.getD 0 0) c)

/-- The number that bytes hold, most significant first. -/
def bigNat (b : List Byte) : Nat := b.foldl (fun n x => 256 * n + x.toNat) 0

/-- `n` bytes of a number, most significant first. -/
def bigBytes (n v : Nat) : List Byte := (List.range n).map fun i => BitVec.ofNat 8 (v / 256 ^ (n - 1 - i))

/-- Pieces of `n` bytes, as many as `m`. -/
def cutBytes (n : Nat) : Nat → List Byte → List (List Byte)
  | 0, _ => []
  | m + 1, b => b.take n :: cutBytes n m (b.drop n)

/-- One block into a hash value. -/
def ShaKind.compress (k : ShaKind) (h : List Nat) (b : List Byte) : List Nat :=
  let w := (cutBytes (k.bits / 8) 16 b).map bigNat
  List.zipWith (fun x y => (x + y) % 2 ^ k.bits) h (k.rounds k.ks w h)

/-- The message with its padding, for a message that follows `before` bytes already hashed. -/
def ShaKind.padded (k : ShaKind) (before : Nat) (b : List Byte) : List Byte :=
  let field_ := k.bits / 4
  let used := b.length + 1 + field_
  b ++ [0x80] ++ List.replicate ((k.block - used % k.block) % k.block) 0 ++ bigBytes field_ (8 * (before + b.length))

/-- A message hashed on from a hash value that already covers `before` bytes. -/
def ShaKind.from (k : ShaKind) (h : List Nat) (before : Nat) (b : List Byte) : List Byte :=
  let p := k.padded before b
  let out := (cutBytes k.block (p.length / k.block) p).foldl k.compress h
  (out.take k.words).flatMap (bigBytes (k.bits / 8))

/-- The digest of a message. -/
def ShaKind.digest (k : ShaKind) (b : List Byte) : List Byte := k.from k.init 0 b

/-- More bytes into a SHA-256 in progress. -/
def sha256Add (hash : List Nat) (tail b : List Byte) : List Nat × List Byte :=
  let t := tail ++ b
  let n := t.length / 64
  ((cutBytes 64 n t).foldl sha256Kind.compress hash, t.drop (64 * n))

/-- SHA-384 of bytes. -/
def sha384 (b : List Byte) : List Byte := sha384Kind.digest b

/-! ### HMAC (FIPS 198-1, R647) -/

/-- The state after one block of the key combined with a pad byte; a key longer than a block is hashed first. -/
def ShaKind.padState (k : ShaKind) (pad : Byte) (key : List Byte) : List Nat :=
  let key := if k.block < key.length then k.digest key else key
  k.compress k.init ((key ++ List.replicate (k.block - key.length) 0).map fun x => x ^^^ pad)

/-- HMAC from the two states of a key. -/
def ShaKind.hmacFrom (k : ShaKind) (inner outer : List Nat) (b : List Byte) : List Byte :=
  k.from outer k.block (k.from inner k.block b)

/-! ### CRC-32, IEEE 802.3 polynomial -/

/-- One bit of the CRC, reflected. -/
def crcBit (c : Nat) : Nat := if c % 2 = 1 then (c / 2) ^^^ 0xEDB88320 else c / 2

/-- One byte of the CRC. -/
def crcByte (c : Nat) (b : Byte) : Nat := (List.range 8).foldl (fun c _ => crcBit c) (c ^^^ b.toNat)

/-- CRC-32 of bytes. -/
def crc32 (b : List Byte) : Nat := (b.foldl crcByte 0xFFFFFFFF) ^^^ 0xFFFFFFFF

/-! ### GF(2^8) (FIPS 197, R415) -/

/-- An element times x under a field polynomial. -/
def gfDouble (poly a : Nat) : Nat := if 128 ≤ a then (2 * a) ^^^ poly else 2 * a

/-- The product in GF(2^8) under a field polynomial. -/
def gfMul (poly a b : Nat) : Nat :=
  (List.range 8).foldl (fun acc i => gfDouble poly acc ^^^ (if b.testBit (7 - i) then a else 0)) 0

/-- A power in GF(2^8). -/
def gfPow (poly a : Nat) : Nat → Nat
  | 0 => 1
  | n + 1 => gfMul poly a (gfPow poly a n)

/-! ### AES-256 (FIPS 197) -/

/-- The polynomial of AES. -/
def aesPoly : Nat := 0x11B

/-- A byte rotated left. -/
def rotByte (n x : Nat) : Nat := (x * 2 ^ n) % 256 + x / 2 ^ (8 - n)

/-- The S-box: the inverse, then the affine map. -/
def sBox (x : Nat) : Nat :=
  let b := gfPow aesPoly x 254
  b ^^^ rotByte 1 b ^^^ rotByte 2 b ^^^ rotByte 3 b ^^^ rotByte 4 b ^^^ 0x63

/-- The inverse S-box. -/
def invSBox (y : Nat) : Nat := gfPow aesPoly (rotByte 1 y ^^^ rotByte 3 y ^^^ rotByte 6 y ^^^ 0x05) 254

/-- Two lists of bytes combined bit by bit. -/
def xorBytes (a b : List Byte) : List Byte := List.zipWith (· ^^^ ·) a b

/-- The substitution of bytes. -/
def aesSub (f : Nat → Nat) (l : List Byte) : List Byte := l.map fun b => BitVec.ofNat 8 (f b.toNat)

/-- The next word of the key schedule: `i` counts words, of which the first eight are the key. -/
def aesWord (i : Nat) (w : List (List Byte)) : List Byte :=
  let last := w.getD (i - 1) []
  let t := if i % 8 = 0 then xorBytes (aesSub sBox (last.drop 1 ++ last.take 1)) [BitVec.ofNat 8 (gfPow aesPoly 2 (i / 8 - 1)), 0, 0, 0]
    else if i % 8 = 4 then aesSub sBox last
    else last
  xorBytes (w.getD (i - 8) []) t

/-- The fifteen round keys of a key of 32 bytes. -/
def aesKeys (key : List Byte) : List (List Byte) :=
  let w := (List.range 52).foldl (fun w i => w ++ [aesWord (i + 8) w]) (cutBytes 4 8 key)
  cutBytes 16 15 w.flatten

/-- Rows shifted by their numbers, left to encrypt and right to decrypt. -/
def aesShift (right : Bool) (l : List Byte) : List Byte :=
  (List.range 16).map fun i => l.getD (4 * ((i / 4 + (if right then 4 - i % 4 else i % 4)) % 4) + i % 4) 0

/-- Columns multiplied by a circulant matrix given by its first row. -/
def aesMix (m : List Nat) (l : List Byte) : List Byte :=
  (List.range 16).map fun i => BitVec.ofNat 8 ((List.range 4).foldl (fun acc j =>
    acc ^^^ gfMul aesPoly (l.getD (4 * (i / 4) + j) 0).toNat (m.getD ((j + 4 - i % 4) % 4) 0)) 0)

/-- One block encrypted under its round keys. -/
def aesBlock (ks : List (List Byte)) (b : List Byte) : List Byte :=
  let s := (List.range 13).foldl (fun s r => xorBytes (aesMix [2, 3, 1, 1] (aesShift false (aesSub sBox s))) (ks.getD (r + 1) []))
    (xorBytes b (ks.getD 0 []))
  xorBytes (aesShift false (aesSub sBox s)) (ks.getD 14 [])

/-- One block decrypted under its round keys. -/
def aesUnblock (ks : List (List Byte)) (b : List Byte) : List Byte :=
  let s := (List.range 13).foldl (fun s r => aesMix [14, 11, 13, 9] (xorBytes (aesSub invSBox (aesShift true s)) (ks.getD (13 - r) [])))
    (xorBytes b (ks.getD 14 []))
  xorBytes (aesSub invSBox (aesShift true s)) (ks.getD 0 [])

/-! ### XTS-AES-256 (IEEE 1619, R632, R633) -/

/-- The number that bytes hold, least significant first. -/
def littleNat (b : List Byte) : Nat := bigNat b.reverse

/-- `n` bytes of a number, least significant first. -/
def littleBytes (n v : Nat) : List Byte := (bigBytes n (v % 256 ^ n)).reverse

/-- The tweak of the next block: the last times the generator of GF(2^128). -/
def nextTweak (t : Nat) : Nat := if 2 ^ 127 ≤ t then (2 * t % 2 ^ 128) ^^^ 0x87 else 2 * t

/-- One block under a tweak. -/
def xtsBlock (decrypt : Bool) (ks : List (List Byte)) (t : Nat) (b : List Byte) : List Byte :=
  let m := littleBytes 16 t
  xorBytes m ((if decrypt then aesUnblock else aesBlock) ks (xorBytes m b))

/-- Blocks under successive tweaks; the last whole block and a part of one steal ciphertext from each other. -/
def xtsBlocks (decrypt : Bool) (ks : List (List Byte)) : Nat → Nat → List Byte → List Byte
  | 0, _, _ => []
  | n + 1, t, b =>
    if b.length < 32 ∧ 16 < b.length then
      let (t1, t2) := if decrypt then (nextTweak t, t) else (t, nextTweak t)
      let c := xtsBlock decrypt ks t1 (b.take 16)
      let r := b.length - 16
      xtsBlock decrypt ks t2 (b.drop 16 ++ c.drop r) ++ c.take r
    else if b.isEmpty then []
    else xtsBlock decrypt ks t (b.take 16) ++ xtsBlocks decrypt ks n (nextTweak t) (b.drop 16)

/-- A data unit encrypted or decrypted under a key of 64 bytes, the data half first, and a tweak of 128 bits. -/
def xts (decrypt : Bool) (key : List Byte) (tweak : Nat) (b : List Byte) : List Byte :=
  xtsBlocks decrypt (aesKeys (key.take 32)) (b.length / 16 + 1)
    (littleNat (aesBlock (aesKeys (key.drop 32)) (littleBytes 16 tweak))) b

/-! ### AES-256-GCM (NIST SP 800-38D, R636) -/

/-- The product in GF(2^128) as GHASH numbers it: the most significant bit is the constant term. -/
def ghashMul (x y : Nat) : Nat :=
  ((List.range 128).foldl (fun (p : Nat × Nat) i =>
    (if x.testBit (127 - i) then p.1 ^^^ p.2 else p.1, if p.2 % 2 = 1 then p.2 / 2 ^^^ 0xE1 * 2 ^ 120 else p.2 / 2)) (0, y)).1

/-- Bytes with zeros to a whole number of blocks. -/
def padBlock (b : List Byte) : List Byte := b ++ List.replicate ((16 - b.length % 16) % 16) 0

/-- The hash of blocks under the hash key. -/
def ghash (h : Nat) (b : List Byte) : Nat :=
  (cutBytes 16 (b.length / 16) b).foldl (fun y x => ghashMul (y ^^^ bigNat x) h) 0

/-- Counter mode from the block after the first: counter 1 belongs to the tag. -/
def gcmStream (ks : List (List Byte)) (nonce b : List Byte) : List Byte :=
  ((cutBytes 16 (b.length / 16 + 1) b).zipIdx.flatMap fun p => xorBytes p.1 (aesBlock ks (nonce ++ bigBytes 4 (p.2 + 2))))

/-- The tag of additional authenticated data and ciphertext. -/
def gcmTag (ks : List (List Byte)) (nonce aad c : List Byte) : List Byte :=
  let h := bigNat (aesBlock ks (List.replicate 16 0))
  let y := ghash h (padBlock aad ++ padBlock c ++ bigBytes 8 (8 * aad.length) ++ bigBytes 8 (8 * c.length))
  xorBytes (aesBlock ks (nonce ++ bigBytes 4 1)) (bigBytes 16 y)

/-- A message sealed: ciphertext and tag. -/
def gcmSeal (key nonce aad text : List Byte) : List Byte × List Byte :=
  let ks := aesKeys key
  let c := gcmStream ks nonce text
  (c, gcmTag ks nonce aad c)

/-- A message opened: nothing where its tag fails (R638). -/
def gcmOpen (key nonce aad c tag : List Byte) : Option (List Byte) :=
  let ks := aesKeys key
  if gcmTag ks nonce aad c = tag then some (gcmStream ks nonce c) else none

/-! ### ECDSA P-384 (FIPS 186-5, R649) -/

/-- The field prime, the curve's b, its base point and the order of it. -/
def p384 : Nat := 2 ^ 384 - 2 ^ 128 - 2 ^ 96 + 2 ^ 32 - 1
def p384b : Nat :=
  0xB3312FA7E23EE7E4988E056BE3F82D19181D9C6EFE8141120314088F5013875AC656398D8A2ED19D2A85C8EDD3EC2AEF
def p384x : Nat :=
  0xAA87CA22BE8B05378EB1C71EF320AD746E1D3B628BA79B9859F741E082542A385502F25DBF55296C3A545E3872760AB7
def p384y : Nat :=
  0x3617DE4A96262C6F5D9E98BF9292DC29F8F41DBD289A147CE9DA3113B5F0B8C00A60B1CE1D7E819D7A431D7C90EA0E5F
def p384n : Nat :=
  0xFFFFFFFFFFFFFFFFFFFFFFFFFFFFFFFFFFFFFFFFFFFFFFFFC7634D81F4372DDF581A0DB248B0A77AECEC196ACCC52973

/-- `a ^ e mod m` over the low `fuel` bits of `e`. -/
def powMod (m : Nat) : Nat → Nat → Nat → Nat
  | 0, _, _ => 1 % m
  | fuel + 1, a, e =>
    let r := powMod m fuel (a * a % m) (e / 2)
    if e % 2 = 1 then a * r % m else r

/-- The inverse modulo a prime of 384 bits. -/
def invMod (m a : Nat) : Nat := powMod m 384 (a % m) (m - 2)

/-- A difference modulo `p384`. -/
def subMod (a b : Nat) : Nat := (a + p384 - b % p384) % p384

/-- A point in Jacobian coordinates; z = 0 is the point at infinity. -/
structure EcPoint where
  x : Nat
  y : Nat
  z : Nat
  deriving DecidableEq, Repr

/-- Twice a point of a curve with a = -3. -/
def EcPoint.double (a : EcPoint) : EcPoint :=
  let zz := a.z * a.z % p384
  let yy := a.y * a.y % p384
  let s := 4 * a.x * yy % p384
  let m := 3 * subMod a.x zz * (a.x + zz) % p384
  let x := subMod (m * m % p384) (2 * s)
  ⟨x, subMod (m * subMod s x) (8 * yy * yy), 2 * a.y * a.z % p384⟩

/-- The sum of two points. -/
def EcPoint.add (a b : EcPoint) : EcPoint :=
  if a.z = 0 then b
  else if b.z = 0 then a
  else
    let za := a.z * a.z % p384
    let zb := b.z * b.z % p384
    let u := a.x * zb % p384
    let s := a.y * zb * b.z % p384
    let h := subMod (b.x * za) u
    let r := subMod (b.y * za * a.z) s
    if h = 0 then (if r = 0 then a.double else ⟨1, 1, 0⟩)
    else
      let hh := h * h % p384
      let x := subMod (subMod (r * r) (h * hh)) (2 * u * hh)
      ⟨x, subMod (r * subMod (u * hh) x) (s * h * hh), h * a.z * b.z % p384⟩

/-- `k` times a point, over the low `fuel` bits of `k`. -/
def EcPoint.times (a : EcPoint) : Nat → Nat → EcPoint
  | 0, _ => ⟨1, 1, 0⟩
  | fuel + 1, k =>
    let r := (EcPoint.times a fuel (k / 2)).double
    if k % 2 = 1 then r.add a else r

/-- A public key lies on the curve; the point at infinity has no such coordinates. -/
def onCurve (x y : Nat) : Bool :=
  decide (x < p384) && decide (y < p384) && y * y % p384 == subMod (x * x * x + p384b) (3 * x)

/-- The signature r, s of a digest verifies under the public key (x, y). -/
def ecdsaVerifies (x y r s : Nat) (digest : List Byte) : Bool :=
  decide (1 ≤ r) && decide (r < p384n) && decide (1 ≤ s) && decide (s < p384n) && onCurve x y &&
    let w := invMod p384n s
    let q := ((EcPoint.mk p384x p384y 1).times 384 (bigNat digest * w % p384n)).add
      ((EcPoint.mk x y 1).times 384 (r * w % p384n))
    q.z != 0 && (q.x * invMod p384 (q.z * q.z % p384) % p384) % p384n == r

end Sys2Proof.Machine
end

