-- ==== Sys2Proof/Machine/State.lean ====
section
/-!
DEFINITION. The state of the block, its faults and refusals, and the state after reset.
-/

namespace Sys2Proof.Machine

/-- The test access port and the pads (chapter 3). -/
structure Pads where
  /-- Instruction register of the TAP; IDCODE after a TAP reset (R134). -/
  ir : BitVec 8 := 0x01
  /-- Value captured in the selected data register. -/
  scan : Nat := 0
  /-- Boundary-scan register as preloaded: the level each cell drives, and whether its ball is driven (R133). -/
  scan_level : Nat := 0
  scan_drive : Nat := 0
  /-- KL0_PRES# and KL1_PRES# as sampled (R115). -/
  present : BitVec 2 := 0
  /-- The straps have been sampled since VIN rose above the power-on threshold (R115, R116). -/
  sampled : Bool := false
  /-- NVMe-MI configuration of sideband port 0, of port 1 and of the in-band path (2), by 256 × path + identifier (R129,
  R598). -/
  mi_config : Tab Nat := []
  /-- Composite Controller Status flags, by the same paths (R598). -/
  mi_composite : Tab Nat := []
  deriving DecidableEq, Repr

/-- Why the machine stops. No command of this block stops with a fault: the spec gives every error a status, a
register or an event. -/
inductive Fault where
  /-- Raised by no command; kept so that the type of an outcome is closed and named. Safe. -/
  | none
  deriving DecidableEq, Repr

/-- Why a command is turned away. -/
inductive Refusal where
  /-- The command has no meaning in this model yet. Safe: nothing can be shown about it. -/
  | notModelled (mnemonic : String)
  deriving DecidableEq, Repr

/-- The device: queue of commands, mode, registers by window, and what each block holds beside its registers. -/
structure State where
  /-- Commands waiting, first in, first out. -/
  pending : List Instr := []
  mode : Mode := .hold
  prevMode : Mode := .hold
  mgmt : MgmtRegs := {}
  camp : CampRegs := {}
  pad : PadRegs := {}
  pwr : PwrRegs := {}
  rst : RstRegs := {}
  ba : BaRegs := {}
  man : ManRegs := {}
  pcie : PcieRegs := {}
  cmd : CmdRegs := {}
  map : MapRegs := {}
  str : StrRegs := {}
  rcl : RclRegs := {}
  ch : ChRegs := {}
  red : RedRegs := {}
  thm : ThmRegs := {}
  psm : PsmRegs := {}
  sec : SecRegs := {}
  mem : MemRegs := {}
  tsl : TslRegs := {}
  kk : KkRegs := {}
  evt : EvtRegs := {}
  time : Campion := {}
  timers : List Timer := []
  reset_ctl : ResetCtl := {}
  power : Power := {}
  boot : BootArray := {}
  manifest : ManifestState := {}
  ep : Endpoint := {}
  nvme : Nvme := {}
  engine : MapEngine := {}
  shroud : StripeBuilder := {}
  reclaim : Reclaim := {}
  media : Media := {}
  redun : Redundancy := {}
  thermal : Thermal := {}
  health : Health := {}
  power_states : PowerStates := {}
  security : Security := {}
  memory : MemoryIntegrity := {}
  teasel : Teasel := {}
  keaka : Keaka := {}
  events : Events := {}
  pads : Pads := {}
  /-- Messages sent, oldest first. -/
  out : List HostMsg := []
  deriving DecidableEq, Repr

/-- The device right after VIN is applied: Hold, power-on reset asserted, every register at its reset value. -/
def State.reset : State := {}

end Sys2Proof.Machine
end

