-- ==== Sys2Proof/Machine/Ops.lean ====
section
/-!
DEFINITION. Operations every chapter shares: bytes, byte memories, saturating counts, timers held against H,
controllers and ports by number, and messages sent.
-/

namespace Sys2Proof.Machine

/-! ### Bytes and byte memories -/

/-- `n` bytes of `v`, little-endian (R14). -/
def leBytes : Nat → Nat → Bytes
  | 0, _ => []
  | n + 1, v => BitVec.ofNat 8 v :: leBytes n (v / 256)

/-- The number that bytes hold, little-endian (R14). -/
def leNat : Bytes → Nat
  | [] => 0
  | b :: t => b.toNat + 256 * leNat t

/-- `n` bytes of `b` from offset `i`, as a little-endian number; bytes beyond the end read 0. -/
def field (b : Bytes) (i n : Nat) : Nat := leNat ((b.drop i).take n)

/-- Byte at address `a`; a byte not listed reads 0. -/
def Cells.read (m : List (Nat × Byte)) (a : Nat) : Byte := Tab.look m 0 a

/-- Memory with byte `b` at `a`; a zero byte is not listed. -/
def Cells.write (m : List (Nat × Byte)) (a : Nat) (b : Byte) : List (Nat × Byte) :=
  if b = 0 then Tab.drop m a else Tab.put m a b

/-- Bytes written from `a` up. -/
def Cells.writes (m : List (Nat × Byte)) (a : Nat) : Bytes → List (Nat × Byte)
  | [] => m
  | b :: t => Cells.writes (Cells.write m a b) (a + 1) t

/-- `n` bytes read from `a` up. -/
def Cells.reads (m : List (Nat × Byte)) (a : Nat) : Nat → Bytes
  | 0 => []
  | n + 1 => Cells.read m a :: Cells.reads m (a + 1) n

/-- The canonical form: addresses strictly rising, and no byte listed as 0. -/
def Cells.wf (m : List (Nat × Byte)) : Bool := Tab.ok m && m.all fun p => p.2 != 0

/-! ### Counts -/

/-- A count that saturates at all ones. -/
def satAdd {n : Nat} (x : BitVec n) (k : Nat) : BitVec n :=
  if x.toNat + k < 2 ^ n then BitVec.ofNat n (x.toNat + k) else BitVec.ofNat n (2 ^ n - 1)

/-- A value saturated to a field. -/
def sat (n v : Nat) : BitVec n := if v < 2 ^ n then BitVec.ofNat n v else BitVec.ofNat n (2 ^ n - 1)

/-- Set or clear bit `i`. -/
def setBit {n : Nat} (x : BitVec n) (i : Nat) (b : Bool) : BitVec n :=
  if b then x ||| BitVec.ofNat n (2 ^ i) else x &&& ~~~(BitVec.ofNat n (2 ^ i))

/-- `⌈a / b⌉`. -/
def divUp (a b : Nat) : Nat := (a + b - 1) / b

/-- Insert by rising key, after equal keys. -/
def insertOn {α : Type} (f : α → Nat) (a : α) : List α → List α
  | [] => [a]
  | b :: t => if f a < f b then a :: b :: t else b :: insertOn f a t

/-! ### Time and timers -/

/-- H in motes (R60). -/
def State.h (s : State) : Nat := s.time.hq / 2 ^ 32

/-- Motes of H counted, step amounts excluded (R90): what is held as a moment and compared with another is taken by it. -/
def State.run (s : State) : Nat := ((s.h : Int) - s.time.moved).toNat

/-- The timer of a kind and index, if armed. -/
def State.timer (s : State) (k : TimerKind) (i : Nat) : Option Timer :=
  s.timers.find? fun t => t.kind == k && t.idx == i

/-- Disarm a timer. -/
def disarm (k : TimerKind) (i : Nat) (s : State) : State :=
  { s with timers := s.timers.filter fun t => !(t.kind == k && t.idx == i) }

/-- Arm a timer at a value of H, in place of one of the same kind and index. -/
def armAt (k : TimerKind) (i deadline : Nat) (s : State) : State :=
  { s with timers := ⟨k, i, deadline⟩ :: s.timers.filter fun t => !(t.kind == k && t.idx == i) }

/-- Arm a timer for an interval from now (R90). -/
def arm (k : TimerKind) (i n : Nat) (s : State) : State := armAt k i (s.h + n) s

/-- Arm a timer unless one is armed already. -/
def armOnce (k : TimerKind) (i n : Nat) (s : State) : State :=
  if (s.timer k i).isSome then s else arm k i n s

/-- H has reached the deadline of the timer (R90). -/
def State.due (s : State) (k : TimerKind) (i : Nat) : Bool :=
  match s.timer k i with
  | some t => decide (t.deadline ≤ s.h)
  | none => false

/-- Disarm every timer of a kind. -/
def disarmAll (k : TimerKind) (s : State) : State :=
  { s with timers := s.timers.filter fun t => !(t.kind == k) }

/-- Move every deadline with H (R41, R91, R769). -/
def shiftTimers (d : Int) (s : State) : State :=
  { s with
    timers := s.timers.map fun t => { t with deadline := ((t.deadline : Int) + d).toNat }
    time.moved := s.time.moved + d }

/-! ### Controllers, ports, messages -/

/-- Controller `c`. -/
def State.ctrl (s : State) (c : Nat) : Controller := if c = 0 then s.nvme.ctrl0 else s.nvme.ctrl1

/-- Change controller `c`. -/
def onCtrl (c : Nat) (f : Controller → Controller) (s : State) : State :=
  if c = 0 then { s with nvme.ctrl0 := f s.nvme.ctrl0 } else { s with nvme.ctrl1 := f s.nvme.ctrl1 }

/-- Port `n`. -/
def State.port (s : State) (n : Nat) : Port := if n = 0 then s.ep.port0 else s.ep.port1

/-- Change port `n`. -/
def onPort (n : Nat) (f : Port → Port) (s : State) : State :=
  if n = 0 then { s with ep.port0 := f s.ep.port0 } else { s with ep.port1 := f s.ep.port1 }

/-- PCIE_PORT_STATUS of port `n`. -/
def State.portStatus (s : State) (n : Nat) : PciePortStatus0Reg :=
  if n = 0 then s.pcie.portStatus0 else s.pcie.portStatus1

/-- Change PCIE_PORT_STATUS of port `n`. -/
def onPortStatus (n : Nat) (f : PciePortStatus0Reg → PciePortStatus0Reg) (s : State) : State :=
  if n = 0 then { s with pcie.portStatus0 := f s.pcie.portStatus0 }
  else { s with pcie.portStatus1 := f s.pcie.portStatus1 }

/-- Send a message. -/
def say (m : HostMsg) (s : State) : State := { s with out := s.out ++ [m] }

/-- The controllers that exist: controller 1 in x8+x8 operation only (R261). -/
def State.ctrls (s : State) : List Nat := if s.ep.dual then [0, 1] else [0]

/-- The controllers that are enabled. -/
def State.enabledCtrls (s : State) : List Nat := s.ctrls.filter fun c => (s.ctrl c).en

/-- MSI-X vectors of a port's table (R295, R296). -/
def State.vectors (s : State) (n : Nat) : Nat :=
  if s.ep.dual then (if n = 0 then 1025 else 1024) else 2049

/-- Whether the message of vector `v` may be sent now: Bus Master Enable, MSI-X Enable, and no mask (R283, R297). -/
def State.msixReady (s : State) (n v : Nat) : Bool :=
  (s.portStatus n).bme && (s.port n).msix_enable && !(s.port n).msix_masked && ((s.port n).flr == 0)
    && !((s.port n).msix_table.look {} v).masked

/-- Raise MSI-X vector `v` of port `n`: sent at once, or held in its PBA bit (R283, R297). -/
def raiseMsix (n v : Nat) (s : State) : State :=
  if s.msixReady n v then say (.msix n v) s
  else onPort n (fun p => if p.pba.contains v then p else { p with pba := p.pba ++ [v] }) s

/-- Send every pending message of port `n` that may be sent now (R283). -/
def sendPending (n : Nat) (s : State) : State :=
  let go := (s.port n).pba.filter fun v => s.msixReady n v
  let s := onPort n (fun p => { p with pba := p.pba.filter fun v => !go.contains v }) s
  { s with out := s.out ++ go.map fun v => .msix n v }

/-- Operations applied in turn over a list. -/
def each {α : Type} (l : List α) (f : α → State → State) (s : State) : State := l.foldl (fun s a => f a s) s

/-- The device is a yard (R117). -/
def State.yard (s : State) : Bool := !s.pad.strapStatus.mast

/-- Cascade position as strapped (R117). -/
def State.position (s : State) : Nat := if s.pad.strapStatus.mast then 0 else s.pad.strapStatus.casc_pos.toNat

end Sys2Proof.Machine
end

