-- ==== Sys2Proof/Machine/Stamps.lean ====
section
/-!
DEFINITION. Stamps and what waits for them: issue and reservation (R61 to R65, R83), the event ring and its routing
(R742 to R752), Error Information entries and the error handler (R753 to R761), mode transitions (R58, R772), and
frames toward another device of a cascade (R706, R713).
-/

namespace Sys2Proof.Machine

/-! ### Frames on Keaka links -/

/-- The entry of KK_TOPO for yard position `p` (table of KK_TOPO). -/
def topoOf (s : State) (p : Nat) : BitVec 4 :=
  match p with
  | 1 => s.kk.topo.pos1
  | 2 => s.kk.topo.pos2
  | 3 => s.kk.topo.pos3
  | _ => 0

/-- Parent position of yard `p`, and the parent's link that serves it (R705). -/
def parentOf (s : State) (p : Nat) : Nat × Nat := ((topoOf s p).toNat % 4, (topoOf s p).toNat / 4 % 2)

/-- The link of this device toward position `p` (R706): down the tree where `p` lies below, else toward the parent. -/
def linkToward (s : State) : Nat → Nat → Nat
  | 0, _ => 0
  | fuel + 1, p =>
    if p = 0 then 0
    else if (parentOf s p).1 = s.position then (parentOf s p).2
    else linkToward s fuel (parentOf s p).1

/-- Link `n`. -/
def State.link (s : State) (n : Nat) : KkLink := if n = 0 then s.keaka.link0 else s.keaka.link1

/-- Change link `n`. -/
def onLink (n : Nat) (f : KkLink → KkLink) (s : State) : State :=
  if n = 0 then { s with keaka.link0 := f s.keaka.link0 } else { s with keaka.link1 := f s.keaka.link1 }

/-- KK_LINK_STATUS of link `n`. -/
def State.linkStatus (s : State) (n : Nat) : KkLinkStatus0Reg :=
  if n = 0 then s.kk.linkStatus0 else s.kk.linkStatus1

/-- Change KK_LINK_STATUS of link `n`. -/
def onLinkStatus (n : Nat) (f : KkLinkStatus0Reg → KkLinkStatus0Reg) (s : State) : State :=
  if n = 0 then { s with kk.linkStatus0 := f s.kk.linkStatus0 } else { s with kk.linkStatus1 := f s.kk.linkStatus1 }

/-- The link carries frames: up, or single lane in Patrol. -/
def State.linkUp (s : State) (n : Nat) : Bool := (s.linkStatus n).state == 2 || (s.linkStatus n).state == 4

/-- A link in single-lane operation returns to its trained width (R736). -/
def wideLink (n : Nat) (s : State) : State :=
  onLinkStatus n (fun x => if x.state = 4 then { x with state := 2, width := BitVec.ofNat 4 (s.link n).trained } else x) s

/-- Send a frame on link `n`: it takes the next link sequence number and stays in the replay buffer until an ack
covers it; while the link is not up it waits there (R713, R715, R716). -/
def sendOnLink (n : Nat) (f : KkFrame) (s : State) : State :=
  let f := { f with seq := (s.link n).tx_seq }
  let s := if f.type = 0x11 ∨ f.type = 0x19 then wideLink n s else s
  let up := s.linkUp n
  let s := onLink n (fun l => { l with tx_seq := (l.tx_seq + 1) % 2 ^ 16, replay := l.replay ++ [f] }) s
  let s := if up then say (.frame n f.type f.dst f.seq f.tag f.body) s else s
  let s := armOnce .kkAck n (2 ^ 22) s
  arm .kkHeartbeat n (2 ^ 20) s

/-- Send a frame to position `dst` (R706). -/
def sendFrame (type dst tag : Nat) (body : List Nat) (s : State) : State :=
  sendOnLink (linkToward s 4 dst) { type := type, src := s.position, dst := dst, tag := tag, body := body } s

/-! ### Asynchronous events -/

/-- Change tracker entry `t`, if it is allocated. -/
def onEntry (t : Nat) (f : Entry → Entry) (s : State) : State :=
  match s.nvme.tracker.find t with
  | some e => { s with nvme.tracker := s.nvme.tracker.put t (f e) }
  | none => s

/-- Tracker entry `t` has its status and waits to be completed (R273). -/
def markDone (t status dw0 : Nat) (s : State) : State :=
  onEntry t (fun e => { e with status := status, dw0 := dw0, state := .done }) s

/-! ### Health status changes of NVMe-MI (R598) -/

/-- A table of flags by path with some flags set on every path. -/
def markPaths (flags : Nat) (m : Tab Nat) : Tab Nat := [0, 1, 2].foldl (fun m p => m.put p (m.look 0 p ||| flags)) m

/-- Health status of controller `c` has changed: its flags, and those of the composite status. -/
def noteMi (c flags : Nat) (s : State) : State :=
  { onCtrl c (fun k => { k with mi_changed := markPaths flags k.mi_changed }) s with
    pads.mi_composite := markPaths flags s.pads.mi_composite }

/-- Health status of the whole subsystem has changed. -/
def noteMiAll (flags : Nat) (s : State) : State := each s.ctrls (fun c => noteMi c flags) s

/-- The flags, in the order of the standard: ready, fatal status, shutdown, subsystem reset, enable change, namespace
attributes, firmware activated, temperature, life used, spare, critical warning. -/
def Mi.rdy : Nat := 1
def Mi.cfs : Nat := 2
def Mi.shst : Nat := 4
def Mi.nssro : Nat := 16
def Mi.ceco : Nat := 32
def Mi.nac : Nat := 64
def Mi.fa : Nat := 128
def Mi.temperature : Nat := 512
def Mi.lifeUsed : Nat := 1024
def Mi.spare : Nat := 2048
def Mi.warning : Nat := 4096

/-- Post an asynchronous event on controller `c` (R752): against the oldest outstanding request, else retained; an
event type is masked from its posting until its log is read. -/
def postAsync (c : Nat) (e : AsyncEvent) (s : State) : State :=
  let k := s.ctrl c
  if k.aer_masked.contains e.type then s
  else match k.aer_requests with
    | t :: rest =>
      let s := onCtrl c (fun k => { k with aer_requests := rest, aer_masked := k.aer_masked ++ [e.type] }) s
      markDone t 0 (e.type + 2 ^ 8 * e.info + 2 ^ 16 * e.log) s
    | [] => if k.aer_pending.contains e then s
            else onCtrl c (fun k => { k with aer_pending := k.aer_pending ++ [e] }) s

/-- Post an asynchronous event that concerns the subsystem (R752). -/
def postAsyncAll (e : AsyncEvent) (s : State) : State := each s.enabledCtrls (fun c => postAsync c e) s

/-! ### The event ring -/

/-- Number of sources in use in group `g` (table "Event groups"). -/
def sourcesInGroup (g : Nat) : Nat :=
  match g with
  | 0 => 5 | 1 => 4 | 2 => 8 | 3 => 9 | 4 => 3 | 5 => 5 | 6 => 4 | 7 => 4 | 8 => 1 | 9 => 3 | 10 => 4 | 11 => 3
  | 12 => 9 | 13 => 5 | 14 => 1 | 15 => 2 | 16 => 3 | 17 => 5 | 18 => 4 | 20 => 32 | 21 => 16
  | _ => 0

/-- Reset value of EVT_ENABLEg: 1 for each source in use. -/
def evtEnableDefault (g : Nat) : BitVec 32 := BitVec.ofNat 32 (2 ^ sourcesInGroup g - 1)

/-- Sources whose enable bit reads 1 and ignores writes (R749). -/
def fixedSource (n : Nat) : Bool := n == 0 || n == 32 || n == 579

/-- The source is enabled (R749). -/
def State.sourceOn (s : State) (n : Nat) : Bool :=
  decide (n % 32 < sourcesInGroup (n / 32))
    && (fixedSource n || (s.evt.enable.look (evtEnableDefault (n / 32)) (n / 32)).getLsbD (n % 32))

/-- The source is routed (R750). -/
def State.sourceRouted (s : State) (n : Nat) : Bool := (s.evt.route.look 0 (n / 32)).getLsbD (n % 32)

/-- Write an entry to the ring (R745, R746, R748). -/
def ringWrite (e : EventDraft) (st : Stamped) (s : State) : State :=
  let seq := (s.evt.ringSeq.toNat + 1) % 2 ^ 32
  let e := if e.forwarded then e else { e with position := s.position }
  let lost := match s.events.ring.find (seq % 4096) with
    | some o => decide (s.evt.hostSeq.toNat < o.seq)
    | none => false
  { s with
    events.ring := s.events.ring.put (seq % 4096) ⟨st, e, seq⟩
    evt.ringSeq := BitVec.ofNat 32 seq
    evt.overflow := if lost then satAdd s.evt.overflow 1 else s.evt.overflow }

/-- Act on the route bit of an entry that has entered the ring (R750). -/
def routeEvent (n : Nat) (s : State) : State :=
  if s.sourceRouted n then
    let s := postAsyncAll ⟨7, 0, 0xC2⟩ s
    if s.evt.irq.armed then
      raiseMsix s.evt.irq.port.toNat s.evt.irq.vector.toNat { s with evt.irq.armed := false }
    else s
  else s

/-- What an event forward frame carries of an event (table "Keaka frame types"). -/
def EventDraft.body (e : EventDraft) (st : Stamped) : List Nat :=
  [0, e.source, e.detail, st.stamp.toNat, st.unanch.toNat, e.pay_unanch] ++ e.payload.map BitVec.toNat

/-- What it carries of an error detail entry (R760). -/
def ErrorDraft.body (e : ErrorDraft) (st : Stamped) : List Nat :=
  [1, e.kind, e.source, e.serial, st.stamp.toNat, st.unanch.toNat, e.nested.toNat, e.escalated.toNat, e.fatal.toNat,
   e.first.stamp.toNat, e.first.unanch.toNat, e.detail] ++ e.payload.map BitVec.toNat

/-- On a yard an entry also goes to the masthead (R737, R760). -/
def forwardEvent (e : EventDraft) (st : Stamped) (s : State) : State :=
  if s.yard then sendFrame 0x38 0 0 (e.body st) s else s

/-- Enter an event of an enabled source into the ring. -/
def enterEvent (e : EventDraft) (st : Stamped) (s : State) : State :=
  if s.sourceOn e.source then
    let s := routeEvent e.source (ringWrite e st s)
    if e.forwarded then s else forwardEvent { e with position := s.position } st s
  else s

/-! ### Delivery of a stamp to what waited for it -/

/-- Write an Error Information entry and its partner (R753 to R755), with the ring entry raised with it; `handled`
names the handler's slot entry that takes the stamp. -/
def deliverError (d : ErrorDraft) (handled : Option Nat) (st : Stamped) (s : State) : State :=
  let count := s.nvme.error_count + 1
  let on := d.kind != 0 && !d.silent && s.sourceOn d.source
  let r : EventDraft := { source := d.source, detail := d.detail, payload := d.payload, forwarded := d.forwarded, position := d.position }
  let s := if on then routeEvent d.source (ringWrite r st s) else s
  let seq := if on then s.evt.ringSeq.toNat else 0
  let first := match s.events.slot0 with
    | some z => if d.nested && d.first.stamp == 0 && some z.id != handled then z.stamp else d.first
    | none => d.first
  let s := if s.yard && d.kind != 0 then sendFrame 0x38 0 0 (({ d with first := first } : ErrorDraft).body st) s else s
  let e : ErrorEntry := { error_count := count, stamp := st, draft := { d with first := first, position := if d.forwarded then d.position else s.position }, event_seq := seq }
  let goal := if d.target = 0 then [0] else if d.target = 1 then [1] else s.enabledCtrls
  let s := each goal (fun c => onCtrl c fun k => { k with error_log := (e :: k.error_log).take 256 }) s
  let fill := fun (h : HandlerError) => if some h.id = handled then { h with stamp := st, error_count := count } else h
  { s with
    nvme.error_count := count
    events.slot0 := s.events.slot0.map fill
    events.slot1 := s.events.slot1.map fill
    events.held := s.events.held.map fill }

/-- A GCM message takes a free lane, or waits for one (R637). -/
def askLane (m : GcmMessage) (s : State) : State :=
  match (List.range 4).find? fun n => !s.security.lanes.has n with
  | some n => { s with security.lanes := s.security.lanes.put n m }
  | none => { s with security.gcm_waiting := s.security.gcm_waiting ++ [m] }

/-- What a consumer does when its stamp arrives (R64, table "Stamp placement"). -/
def deliver (u : StampUse) (st : Stamped) (s : State) : State :=
  match u with
  | .event e => enterEvent e st s
  | .mode new prev =>
    let s := if s.mode.code = new ∧ s.prevMode.code = prev then
        { s with mgmt.modeStamp := st.stamp, mgmt.modeStatus.unanchored := st.unanch } else s
    enterEvent { source := 0, detail := new + 16 * prev } st s
  | .error e handled => deliverError e handled st s
  | .memoryUe => { s with mem.lastUeStamp := st.stamp, mem.lastUe.stamp_unanch := st.unanch }
  | .refusal => { s with psm.lastRefusalStamp := st.stamp, psm.status.refusal_unanch := st.unanch }
  | .firstTraining => if s.ep.dropped_dual then enterEvent { source := 6 * 32 + 2 } st s else s
  | .redPage => match s.redun.page_held with
    | some p => { s with redun.page := some { p with stamp := st }, redun.page_held := none }
    | none => s
  | .extreme high v =>
    let mark := fun (x : Int × Stamped) => if x.1 = v then (v, st) else x
    if high then { s with health.counts.max_composite := s.health.counts.max_composite.map mark }
    else { s with health.counts.min_composite := s.health.counts.min_composite.map mark }
  | .scrubStart n => match s.memory.passes.find n with
    | some p => { s with memory.passes := s.memory.passes.put n { p with start := st } }
    | none => s
  | .scrubPass n =>
    { s with
      mem.scrPassStamp := s.mem.scrPassStamp.put n st.stamp
      mem.scrStatus.pass_unanch := setBit s.mem.scrStatus.pass_unanch n st.unanch }
  | .record type payload =>
    let r : JournalRecord := { type := type, seq := s.boot.record_seq + 1, stamp := st, payload := payload }
    askLane { purpose := .journalRecord, sealing := true, text := payload, record := some r }
      { s with boot.record_seq := s.boot.record_seq + 1 }

/-! ### Issue (R61 to R65, R83) -/

/-- The value the next stamp takes (R62). -/
def State.nextStamp (s : State) : Nat := max s.h (s.time.last + 1)

/-- A stamp value with the anchor flag of this cycle (R76). -/
def State.flagged (s : State) (v : Nat) : Stamped := ⟨BitVec.ofNat 64 v, !s.camp.status.anchored⟩

/-- Make a reservation current: the register, the retention register and the Shroud header (R83). -/
def setReservation (v : Nat) (s : State) : State :=
  { s with
    camp.reserve := BitVec.ofNat 64 v
    reset_ctl.retention.reservation := v
    shroud.header_reserve := v }

/-- L takes an issued value; clamped shows whether H still lies at or below it after a backward step (R62, R81). -/
def setLast (v : Nat) (s : State) : State := { s with time.last := v }

/-- Issue one stamp, making the reservation cover it first where it does not (R62, R83). -/
def issueNow (s : State) : Stamped × State :=
  let v := s.nextStamp
  let s := if v ≤ s.camp.reserve.toNat then s else setReservation (v + s.camp.reserveSpan.toNat) s
  (s.flagged v, setLast v s)

/-- Issue a stamp to a consumer that waits for it. -/
def issueTo (u : StampUse) (s : State) : State := let (st, s) := issueNow s; deliver u st s

/-- The reservation write completes: stamps assigned before the floor are handed out in request order, then the
requests that waited are served (R64, R83). -/
def settle (s : State) : State :=
  match s.time.reserving with
  | none => s
  | some v =>
    let out := s.time.handout
    let wait := s.time.waiting
    let s := setReservation v { s with time.reserving := none, time.handout := [], time.waiting := [] }
    let s := each out (fun p s => deliver p.2 ⟨BitVec.ofNat 64 p.1, true⟩ (setLast p.1 s)) s
    each wait issueTo s

/-- A stamp for a consumer that cannot go on without it; before the floor it has the value 0 (R63, R65). -/
def takeStamp (s : State) : Stamped × State :=
  if s.camp.status.floor_seeded then issueNow (settle s) else (⟨0, true⟩, s)

/-- A status that has an Error Information entry of its own (R754). -/
def loggedStatus (status : Nat) : Bool := status / 256 == 2 || status == 0x004 || status == 0x006

/-- A status that is an error of the command for the log: one of R754, or any failure on a halt-on-error queue that is not
itself halting the command (R338). -/
def detected (s : State) (e : Entry) (status : Nat) : Bool :=
  loggedStatus status || (status != 0 && status != 0x780 && (match (s.ctrl e.ctrl).sqs.find e.sqid with
    | some q => q.halt_attr && !q.halted && !q.closing
    | none => false))

/-- The stamp of an error-log entry is taken when the error is detected (R87): where the command gets its status. -/
def noteDetected (t status : Nat) (s : State) : State :=
  match s.nvme.tracker.find t with
  | some e =>
    if e.error_stamp.isNone && !e.logged && detected s e status then
      let (st, s) := takeStamp s
      onEntry t (fun e => { e with error_stamp := some st }) s
    else s
  | none => s

/-- Command `t` ends with a status: what its error takes at once, and its completion waits to be posted (R87, R273). -/
def finishEntry (t status dw0 : Nat) (s : State) : State := markDone t status dw0 (noteDetected t status s)

/-- A request for a stamp by a consumer that does not wait (R64, R65, R83). -/
def request (u : StampUse) (s : State) : State :=
  if s.time.no_floor then deliver u ⟨0, true⟩ s
  else if !s.camp.status.floor_seeded then
    if 256 ≤ s.time.preseed.length then
      deliver u ⟨0, true⟩ { s with camp.status.preseed_overflow := true }
    else { s with time.preseed := s.time.preseed ++ [u] }
  else if s.time.reserving.isSome then { s with time.waiting := s.time.waiting ++ [u] }
  else if s.nextStamp ≤ s.camp.reserve.toNat then issueTo u s
  else { s with
    time.reserving := some (s.nextStamp + s.camp.reserveSpan.toNat)
    time.waiting := [u] }

/-- The event of a step carries the first stamp issued after it: it goes before what waits for a reservation write (R80). -/
def requestFirst (u : StampUse) (s : State) : State :=
  match s.time.reserving with
  | some _ => { s with time.waiting := u :: s.time.waiting }
  | none => request u s

/-! ### Events, errors, modes -/

/-- Source `i` of group `g`. -/
def src (g i : Nat) : Nat := 32 * g + i

/-- A source asserts (R743, R749). -/
def raise (source : Nat) (detail : Nat := 0) (payload : Bytes := []) (s : State) : State :=
  if s.sourceOn source then request (.event { source := source, detail := detail, payload := payload }) s else s

/-- A transition of mode completes (R58, R772). -/
def setMode (m : Mode) (s : State) : State :=
  let p := s.mode
  request (.mode m.code p.code)
    { s with mode := m, prevMode := p, mgmt.modeStamp := 0, mgmt.modeStatus.unanchored := false }

/-- CSTS.CFS is set on a controller and it stops fetching (R53). -/
def setCfs (c : Nat) (s : State) : State :=
  let s := if (s.ctrl c).cfs then s else noteMi c Mi.cfs s
  onCtrl c (fun k => { k with cfs := true, fetch_stopped := true }) s

/-- The error handler runs: from step 6 of Start in every mode except Hold and Flush (R756). -/
def State.handlerOn (s : State) : Bool :=
  match s.mode with
  | .hold => false
  | .flush => false
  | .start => decide (6 ≤ s.reset_ctl.start_step)
  | _ => true

/-- Mark the entry of a count escalated in every log (R758). -/
def markEscalated (count : Nat) (s : State) : State :=
  each [0, 1] (fun c => onCtrl c fun k => { k with error_log := k.error_log.map fun e =>
    if e.error_count = count then { e with draft.escalated := true } else e }) s

/-- A fatal error counts (R759). -/
def countFatal (e : ErrorDraft) (s : State) : State :=
  if e.fatal then { s with evt.errCounts.fatal := satAdd s.evt.errCounts.fatal 1 } else s

/-- An error with no other in handling takes slot 0 (R757). -/
def firstError (e : ErrorDraft) (h : HandlerError) (s : State) : State :=
  raise (src 18 0) 0 [] (request (.error e (some h.id)) (countFatal e { s with events.slot0 := some h }))

/-- The stripe touched by both errors is escalated (R758). -/
def escalateError (z : HandlerError) (shared : List Nat) (s : State) : State :=
  raise (src 18 2) 0 [] (markEscalated z.error_count { s with
    events.slot0 := some { z with escalated := true }
    events.escalations := s.events.escalations ++ shared
    evt.errCounts.escalated := satAdd s.evt.errCounts.escalated 1 })

/-- An error behind the one in slot 0, `z`, is queued nested in slot 1 (R758). -/
def nestedError (e : ErrorDraft) (h z : HandlerError) (s : State) : State :=
  let shared := h.serials.filter fun n => z.serials.contains n
  let esc := !shared.isEmpty
  let s := countFatal e { s with
    events.slot1 := some { h with escalated := esc }
    evt.errCounts.nested := satAdd s.evt.errCounts.nested 1 }
  let s := request (.error { e with nested := true, first := z.stamp, escalated := esc } (some h.id)) s
  let s := raise (src 18 1) 0 [] s
  if esc then escalateError z shared s else s

/-- An error behind both slots is held, and is fatal (R759). -/
def heldError (e : ErrorDraft) (h z : HandlerError) (s : State) : State :=
  let s := { s with
    events.held := s.events.held ++ [h]
    evt.status.fatal := true
    evt.errCounts.fatal := satAdd s.evt.errCounts.fatal 1 }
  let s := each s.enabledCtrls setCfs s
  let s := postAsyncAll ⟨0, 5, 1⟩ s
  let s := request (.error { e with nested := true, first := z.stamp, fatal := true } (some h.id)) s
  raise (src 18 3) 0 [] s

/-- An error is taken by the handler (R757 to R759): into slot 0, or queued nested in slot 1, or held with fatal
status. `serials` are the stripes it touches; a stripe touched by both errors is left in `escalations`. -/
def takeError (e : ErrorDraft) (serials : List Nat) (s : State) : State :=
  if !s.handlerOn then (if e.silent then s else raise e.source e.detail e.payload s)
  else
    let h : HandlerError := { id := s.events.next_id, kind := e.kind, source := e.source, serials := serials, stamp := {} }
    let e := { e with fatal := s.evt.status.fatal }
    let t := { s with events.next_id := s.events.next_id + 1 }
    match s.events.slot0, s.events.slot1 with
    | none, _ => firstError e h t
    | some z, none => nestedError e h z t
    | some z, some _ => heldError e h z t

end Sys2Proof.Machine
end

