-- ==== Sys2Proof/Machine/Derived.lean ====
section
/-!
DEFINITION. Register fields that report what the device holds elsewhere, reset values that depend on the
configuration, and the domain of each register (R301, R763 to R765).
-/

namespace Sys2Proof.Machine

/-- `lo ≤ v ≤ hi`. -/
def inRange (v lo hi : Nat) : Bool := decide (lo ≤ v) && decide (v ≤ hi)

/-- Sum over the set positions of a list of flags: bit `i` of the result is flag `i`. -/
def bitsOf (l : List Bool) : Nat := l.foldr (fun b n => b.toNat + 2 * n) 0

/-- Reset value of PCIE_CMB_WINk: the whole CMB in order in x16; 16 MiB for each port in x8+x8 (R301). -/
def cmbWinDefault (s : State) (k : Nat) : PcieCmbWinReg :=
  if s.ep.dual then
    { enable := true, port := decide (8 ≤ k), host_read := true, host_write := true, len := 16, base := BitVec.ofNat 9 (16 * k) }
  else
    { enable := true, port := false, host_read := true, host_write := true, len := 32, base := BitVec.ofNat 9 (32 * k) }

/-- Read requests outstanding on both ports (PCIE_TAG_STATUS). -/
def tagsOutstanding (s : State) : Nat := s.ep.port0.tags.length + s.ep.port1.tags.length

/-- Tags quarantined on both ports (PCIE_TAG_STATUS). -/
def tagsQuarantined (s : State) : Nat := s.ep.port0.quarantined.length + s.ep.port1.quarantined.length

/-- Bit k is 1 while the fence of window k is open (R289). -/
def fencesOpen (s : State) : Nat := bitsOf ((List.range 16).map fun k => s.ep.fences.has k)

/-- Stamp of the error in a slot, no stamp while it is empty. -/
def slotStamp (h : Option HandlerError) : Stamped :=
  match h with
  | some z => z.stamp
  | none => {}

/-! ### Thermal (R566, R599) -/

/-- A temperature in units of 2^-32 °C as a signed 16-bit count of 1/256 °C, rounded toward minus infinity (R566). -/
def temp16 (t : Int) : Nat := (BitVec.ofInt 16 (t / 2 ^ 24)).toNat

/-- Temperature of node `i`, t_board for node 14 (THM_NODE). -/
def nodeReported (s : State) : Nat :=
  let i := s.thm.nodeSelect.toNat
  if s.thermal.temps.isEmpty then 0x8000
  else if i < 14 then temp16 (s.thermal.temps.getD i 0)
  else if i = 14 then temp16 s.thermal.board else 0x8000

/-- Last valid reading for the selected node: a die diode, or the external sensor for its pair's node. -/
def nodeReading (s : State) : Nat :=
  let i := s.thm.nodeSelect.toNat
  let k := if i < 6 then some i else if i = 6 + s.thm.cfg.ext_pair.toNat then some 6 else none
  match k with
  | some k => match s.thermal.readings.find k with
    | some r => (BitVec.ofInt 16 r).toNat
    | none => 0x8000
  | none => 0x8000

/-- Offset c of the selected node, 0 for node 14. -/
def nodeCorrection (s : State) : Nat :=
  let i := s.thm.nodeSelect.toNat
  if i < 14 then temp16 (s.thermal.corr.getD i 0) else 0

/-! ### Security, Teasel, memory, clocks -/

/-- Ranges with a lock enabled (SEC_STATUS). -/
def rangesEnabled (s : State) : Nat :=
  (s.security.store.ranges.vals.filter fun r => r.read_enabled || r.write_enabled).length

/-- Some range is read- or write-locked (SEC_STATUS). -/
def anyLocked (s : State) : Bool := s.security.store.ranges.vals.any fun r => r.read_locked || r.write_locked

/-- Bit n set while digest context n is held (DIG_STATUS). -/
def contextsBusy (s : State) : Nat := bitsOf ((List.range 16).map fun n => s.security.contexts.has n)

/-- Valid entries in banks `lo` to `hi - 1` (TSL_OCCUPANCY). -/
def tslCount (s : State) (lo hi : Nat) : Nat :=
  (s.teasel.entries.filter fun p => p.2.valid && decide (lo * 4096 ≤ p.1) && decide (p.1 < hi * 4096)).length

/-- Ranges with a scrub pass in progress (SCR_STATUS). -/
def scrubActive (s : State) : Nat := bitsOf ((List.range 4).map fun n => s.memory.passes.has n)

/-- clk_good of RST_CLK_STATUS: MGMT, DRAM, MEDIA, CMD, PORT0, PORT1, KEAKA, core loops. -/
def clockGoodBits (s : State) : Nat :=
  let c := s.reset_ctl.clock_good
  bitsOf ([2, 3, 4, 5, 6, 7, 10].map (fun d => c.getLsbD d) ++ [s.reset_ctl.core_loops])

/-- Level of a reset source in the configuration and role in force, 0 for no reset effect (R179). -/
def levelOf (s : State) (code : Nat) : Nat :=
  match code with
  | 0x0 => 5
  | 0x1 => 5
  | 0x2 => 5
  | 0x3 => if s.yard then 0 else if s.ep.dual then 3 else 4
  | 0x4 => if s.yard then 0 else if s.ep.dual then 3 else 0
  | 0x5 => 4
  | 0x6 => 4
  | 0x7 => if s.yard then 4 else 0
  | 0x8 => 4
  | 0x9 => 4
  | 0xA => if s.yard then 0 else 3
  | 0xB => if s.yard then 0 else if s.ep.dual then 3 else 0
  | 0xC => if s.yard then 0 else 2
  | 0xD => if s.yard then 0 else if s.ep.dual then 2 else 0
  | 0xE => if s.yard then 0 else 1
  | 0xF => if s.yard then 0 else if s.ep.dual then 1 else 0
  | _ => 0

/-- Codes in force of `n` sources from `first`, three bits each (RST_REACH_MAP). -/
def reachMap (s : State) (first n : Nat) : Nat :=
  ((List.range n).map fun i => levelOf s (first + i) * 2 ^ (3 * i)).foldl (· + ·) 0

/-- A domain is held in reset. -/
def State.isHeld (s : State) (d : Domain) : Bool := s.reset_ctl.held.getLsbD d.num

/-- Domain of the registers of a window that hold no RWM field (table "Block windows", R301). -/
def windowDomain (s : State) (w o : Nat) : Domain :=
  match w with
  | 0x02 => .ret
  | 0x03 => if o = 0x10 ∨ o = 0x14 ∨ o = 0x18 then .media else .ao
  | 0x04 => if o ≤ 0x14 then .ret else .mgmt
  | 0x07 =>
    if o = 0x00 then .port0 else if o = 0x04 then .port1 else if o = 0x20 then .port0
    else if 0x100 ≤ o ∧ o < 0x180 then
      (if (s.pcie.cmbWin.look (cmbWinDefault s ((o - 0x100) / 8)) ((o - 0x100) / 8)).port then .port1 else .port0)
    else .cmd
  | 0x08 => .cmd
  | 0x09 => .media
  | 0x0A => .media
  | 0x0B => .media
  | 0x0C => .media
  | 0x0D => .media
  | 0x10 => if o = 0x28 then .cmd else .mgmt
  | 0x12 => .cmd
  | 0x13 => .keaka
  | _ => .mgmt

/-- A field that reports what a block of a domain holds: its reset value, 0, while that domain is held in reset (R24). -/
def shown (s : State) (d : Domain) (v : Nat) : Nat := if s.isHeld d then 0 else v

/-- A memory request reaches port `n`: the link carries it and its function accepts requests. -/
def State.reachable (s : State) (n : Nat) : Bool :=
  s.ctrls.contains n && (s.portStatus n).link_up && !s.yard
    && (match s.mode with | .hold => false | .flush => false | .thermalHalt => false | _ => true)

end Sys2Proof.Machine
end

