-- ==== Sys2Proof/Machine/Cmb.lean ====
section
/-!
DEFINITION. The controller memory buffer (R287 to R291, R672, R673): windows and their fences, reads and writes of BAR2.
Uncorrectable conditions of a port (R298) stand here too, as every BAR reports them.
-/

namespace Sys2Proof.Machine

/-! ### Errors of a port (R298) -/

/-- An uncorrectable condition of port `n`: AER status, the count, the event (R298). -/
def uncorrectable (n : Nat) (aer : String) (s : State) : State :=
  raise (src (6 + n) 0) 0 [] { onPort n (fun p => { p with
      aer_uncorrectable := if p.aer_uncorrectable.contains aer then p.aer_uncorrectable else p.aer_uncorrectable ++ [aer] }) s
    with pcie.errCount.uncorrectable := satAdd s.pcie.errCount.uncorrectable 1 }

/-- A read is completed with Unsupported Request or with Completer Abort, and reported (R269, R271, R298). -/
def refuseRead (n : Nat) (abort : Bool) (s : State) : State :=
  uncorrectable n (if abort then "Completer Abort" else "Unsupported Request")
    (say (.readData n (if abort then 2 else 1) []) s)

/-- A write is discarded and reported as Unsupported Request (R271, R287). -/
def refuseWrite (n : Nat) (s : State) : State := uncorrectable n "Unsupported Request" s

/-- The function answers memory requests (R271, R285). -/
def memoryOpen (s : State) (n : Nat) : Bool :=
  (s.portStatus n).mse && !(s.portStatus n).d3hot && decide ((s.port n).flr < 2)

/-- A memory write to a BAR: none reaches a function in its reset, and one that is not enabled is reported (R271, R285). -/
def memoryWrite (n : Nat) (f : State → State) (s : State) : State :=
  if !s.reachable n then s
  else if memoryOpen s n then f s
  else if 2 ≤ (s.port n).flr then s
  else refuseWrite n s

/-- A memory read of a BAR. -/
def memoryRead (n : Nat) (f : State → State) (s : State) : State :=
  if !s.reachable n then s else if memoryOpen s n then f s else refuseRead n false s

/-! ### Windows (R287) -/

/-- The mapping in force of a window. -/
def State.window (s : State) (k : Nat) : PcieCmbWinReg := s.pcie.cmbWin.look (cmbWinDefault s k) k

/-- SRAM address of a BAR2 access through the windows (table "CMB access resolution"); none for Unsupported Request. -/
def cmbResolve (s : State) (port offset : Nat) (write : Bool) : Option Nat :=
  let w := s.window (offset / 2 ^ 21)
  let o := offset % 2 ^ 21
  if s.pcie.cfg.cmb_enable && decide (offset < 2 ^ 25) && w.enable && (w.port == (port == 1))
      && decide (o < w.len.toNat * 65536) && (if write then w.host_write else w.host_read) then
    some (w.base.toNat * 65536 + o)
  else none

/-- Set the valid bit of a code word of CMB SRAM at its first write (R667). -/
def markCmbValid (word : Nat) (s : State) : State :=
  if s.memory.cmb_valid.contains word then s else { s with memory.cmb_valid := s.memory.cmb_valid ++ [word] }

/-- A word of CMB SRAM among `n` bytes from `a` is uncorrectable; one whose valid bit is 0 never is (R666). -/
def cmbBad (s : State) (a n : Nat) : Bool :=
  s.memory.bad_words.any fun w => w.1 == 3 && s.memory.cmb_valid.contains (w.2 / 4) && decide (w.2 / 4 * 4 < a + n) && decide (a < w.2 / 4 * 4 + 4)

/-- A DW has byte enables that are neither all 1 nor all 0 (R672). -/
def partialDw : Nat → List Bool → Bool
  | 0, _ => false
  | _ + 1, [] => false
  | n + 1, l => (let d := l.take 4; d.any id && !(decide (d.length = 4) && d.all id)) || partialDw n (l.drop 4)

/-- Bytes written at `a`, where their enables are 1. -/
def writeEnabled (a : Nat) : Bytes → List Bool → State → State
  | b :: t, e :: l, s =>
    writeEnabled (a + 1) t l (if e then markCmbValid (a / 4) { s with
      ep.cmb := Cells.write s.ep.cmb a b
      memory.bad_words := s.memory.bad_words.filter fun w => !(w.1 == 3 && w.2 / 4 == a / 4) } else s)
  | _, _, s => s

/-- Write bytes into CMB SRAM; a word written whole loses its error (R673). -/
def writeCmb (a : Nat) (b : Bytes) (s : State) : State := writeEnabled a b (List.replicate b.length true) s

/-- A read of BAR2 is answered (R287; row "Host read of BAR2" of R675). -/
def serveRead (port offset len : Nat) (s : State) : State :=
  match cmbResolve s port offset false with
  | none => refuseRead port false s
  | some a => say (.readData port (if cmbBad s a len then 3 else 0) (Cells.reads s.ep.cmb a len)) s

/-- A write of BAR2 is carried out (R287, R672). -/
def serveWrite (port offset : Nat) (data : Bytes) (enables : List Bool) (s : State) : State :=
  match cmbResolve s port offset true with
  | none => refuseWrite port s
  | some a =>
    if partialDw (enables.length / 4 + 1) enables then
      refuseWrite port { s with mem.narrow.cmb_partial := satAdd s.mem.narrow.cmb_partial 1 }
    else writeEnabled a data enables s

/-! ### Fences (R288 to R290) -/

/-- What waited behind a fence of window `k` goes on, up to the next register write (R290). -/
def serveWaiting (k : Nat) : List CmbRequest → State → State
  | [], s => s
  | .read p o n :: rest, s => serveWaiting k rest (serveRead p o n s)
  | .write p o b l :: rest, s => serveWaiting k rest (serveWrite p o b l s)
  | .remap w :: rest, s => { s with ep.fences := s.ep.fences.put k w, ep.cmb_waiting := s.ep.cmb_waiting.put k rest }

/-- The fence of window `k` ends: its mapping is current, and what waited is served (R289). -/
def endFence (k : Nat) (s : State) : State :=
  match s.ep.fences.find k with
  | none => s
  | some w =>
    let l := s.ep.cmb_waiting.look [] k
    serveWaiting k l { s with
      pcie.cmbWin := s.pcie.cmbWin.put k w
      ep.fences := s.ep.fences.drop k
      ep.cmb_waiting := s.ep.cmb_waiting.drop k }

/-- A request to slot `k`: served at once, or behind the open fence (R289). -/
def cmbRequest (k : Nat) (r : CmbRequest) (s : State) : State :=
  if s.ep.fences.has k then { s with ep.cmb_waiting := s.ep.cmb_waiting.put k (s.ep.cmb_waiting.look [] k ++ [r]) }
  else serveWaiting k [r] s

/-- The fields of a value written to PCIE_CMB_WINk (R301). -/
def windowFields (v : Nat) : PcieCmbWinReg :=
  { enable := v.testBit 63, port := v.testBit 62, host_read := v.testBit 61, host_write := v.testBit 60
    len := BitVec.ofNat 6 (v / 2 ^ 32), base := BitVec.ofNat 9 (v / 2 ^ 16) }

/-- A write to PCIE_CMB_WINk is ignored (R288). -/
def windowBad (s : State) (w : PcieCmbWinReg) : Bool :=
  decide (512 < w.base.toNat + w.len.toNat) || (w.enable && w.len == 0) || (w.port && !s.ep.dual)

/-- A write of PCIE_CMB_WINk reaches the CMB block: it is checked, and opens a fence or waits behind the open one (R288
to R290). -/
def windowWritten (k v : Nat) (s : State) : State :=
  let w := windowFields v
  if windowBad s w then { s with pcie.cmbFence.win_err := true }
  else if s.ep.fences.has k then cmbRequest k (.remap w) s
  else if w = s.window k then s
  else { s with ep.fences := s.ep.fences.put k w }

/-- The fences of window `k` end in turn: every request received retires (row "CMB fence open" of R299). -/
def retireFences (k : Nat) : Nat → State → State
  | 0, s => s
  | n + 1, s => if s.ep.fences.has k then retireFences k n (endFence k s) else s

end Sys2Proof.Machine
end

