-- ==== Sys2Proof/Machine/Campion.lean ====
section
/-!
DEFINITION. Campion, the time unit (chapter 2): counting, PTM dialogs, slewing and steps, anchoring, the stamp floor,
and the commands that read and write its registers.  R769 to R771 are in that chapter too.
-/

namespace Sys2Proof.Machine

/-! ### Counting -/

/-- The rate added to H at each oscillator cycle, in units of 2^-32 motes (R60): the nominal 2^64 / 4·10^8, times
(1 + rate_adj·10^-9). -/
def rateOf (adj : Int) : Nat := (2 ^ 64 * (10 ^ 9 + adj) / (4 * 10 ^ 8 * 10 ^ 9)).toNat

/-- H after one oscillator cycle: it advances in every mode except Hold (R59, R60). -/
def oscillate (s : State) : State :=
  match s.mode with
  | .hold => s
  | _ => { s with
      time.hq := s.time.hq + rateOf s.camp.rateAdj.toInt
      reset_ctl.cycles := s.reset_ctl.cycles + 1
      health.counts.power_on_cycles := s.health.counts.power_on_cycles + 1 }

/-- comp(t) of R575 at t of node D5, in parts per billion times 2^32; before the model starts t is 25 °C (R577). -/
def compAt (s : State) : Int :=
  let t := s.thermal.temps.getD 5 (25 * 2 ^ 32)
  let d := t - (s.thm.oscComp.t0.toNat : Int) * 2 ^ 24
  s.thm.oscComp.a1.toInt * d / 16 + s.thm.oscComp.a2.toInt * (d * d / 2 ^ 32) / 256

/-- rate_adj while unanchored (R576, R77): the frequency estimate with the oscillator compensation, or the
compensation alone when no good dialog has occurred since the last reset that reached MGMT.  The table bounds CAMP_RATE_ADJ to
-500,000 to +500,000, R576's formula does not: the formula's value stands unclamped (DESIGN CHOICE, log entry 90). -/
def unanchoredRate (s : State) : Int :=
  if s.time.ever_good then (s.time.freq_est - s.thermal.comp_now + s.thermal.comp_good) / 2 ^ 32
  else -(s.thermal.comp_now / 2 ^ 32)

/-- Recompute rate_adj where Campion is unanchored (R576). -/
def refreshRate (s : State) : State :=
  if s.camp.status.anchored then s else { s with camp.rateAdj := BitVec.ofInt 32 (unanchoredRate s) }

/-! ### Dialogs -/

/-- The anchor port (R67). -/
def anchorPort (s : State) : Option Nat :=
  match s.camp.ctrl.anchor_port.toNat with
  | 0 => some 0
  | 1 => if s.ep.dual then some 1 else none
  | _ => s.ctrls.find? fun n => (s.portStatus n).ptm_enabled

/-- A dialog may be attempted: the anchor port exists, its data link is up, the host has set PTM Enable (R69), and
the floor is seeded. -/
def dialogPort (s : State) : Option Nat :=
  match anchorPort s with
  | some n =>
    if (s.portStatus n).link_up && (s.portStatus n).ptm_enabled && s.camp.status.floor_seeded && !s.yard then some n
    else none
  | none => none

/-- A dialog has failed: it is counted, and H is left unchanged (R69, R98). -/
def countFailed (s : State) : State :=
  { s with
    camp.syncStats.fail_count := satAdd s.camp.syncStats.fail_count 1
    camp.status.holdover := s.camp.status.anchored }

/-- A dialog that is open ends without its response (R69). -/
def failDialog (s : State) : State :=
  match s.time.dialog with
  | none => s
  | some _ => disarm .ptmResponse 0 (countFailed { s with time.dialog := none })

/-- Attempt a dialog (R69); one still open has had no response and counts as failed. -/
def startDialog (s : State) : State :=
  match dialogPort s with
  | some n => say (.ptmRequest n) (arm .ptmResponse 0 (2 ^ 22) { failDialog s with
      time.dialog := some n
      time.dialog_sent := s.run })
  | none => s

/-- Motes of a count of nanoseconds below one second, rounded half up (R17, R70). -/
def nsToMotes (ns : Nat) : Nat := (ns * 2 ^ 33 + 10 ^ 9) / (2 * 10 ^ 9)

/-- A span of motes in nanoseconds, rounded half up (R17, R70). -/
def motesToNs (m : Nat) : Nat := (m * 2 * 10 ^ 9 + 2 ^ 32) / 2 ^ 33

/-- PTM master time at the local sample, the receipt of the response (R70): the master received the request at `t2` and
sent the response at `t3`, both in nanoseconds of its time, and half of the rest of the round trip is the propagation
delay.  A quotient that is not whole is rounded down (DESIGN CHOICE, log entry 10). -/
def masterTime (s : State) (t2 t3 : Nat) : Nat :=
  ((t3 : Int) + ((motesToNs (s.run - s.time.dialog_sent) : Int) - ((t3 : Int) - t2)) / 2).toNat

/-- PTM master time in stamp format, moved by the epoch offset (R70). -/
def ptmTarget (s : State) (ns : Nat) : Nat :=
  (ns / 10 ^ 9 * 2 ^ 32 + nsToMotes (ns % 10 ^ 9) + s.camp.epochOffset.toNat) % 2 ^ 64

/-- Set H to a value and record the step (R71, R80, R81, R91). -/
def stepTo (t cause : Nat) (s : State) : State :=
  let old := s.h
  let d : Int := (t : Int) - (old : Int)
  let back := decide (t < old)
  let s := shiftTimers d { s with
    time.hq := t * 2 ^ 32
    time.last_good := s.time.last_good.map fun g => g + d
    camp.stepLog.step_count := satAdd s.camp.stepLog.step_count 1
    camp.stepLog.cause := BitVec.ofNat 4 cause
    camp.stepLog.backward := back
    camp.stepFrom := BitVec.ofNat 64 old
    camp.stepTo := BitVec.ofNat 64 t
    camp.status.clamped := decide (t ≤ s.time.last)
    keaka.steps := s.keaka.steps + 1 }
  requestFirst (.event { source := src 1 0, detail := cause + 16 * back.toNat, payload := leBytes 8 old ++ leBytes 8 t }) s

/-- `v` clamped to a range. -/
def clampInt (lo hi v : Int) : Int := max lo (min hi v)

/-- The slewing law (R71): freq_est and rate_adj from offset `d` over `interval` motes. -/
def slew (d : Int) (interval : Nat) (s : State) : State :=
  let est := s.time.freq_est + 10 ^ 9 * d * 2 ^ 32 / (8 * (interval : Int))
  let adj := clampInt (-500000 * 2 ^ 32) (500000 * 2 ^ 32) (est + 10 ^ 9 * d * 2 ^ 32 / (16 * (interval : Int)))
  { s with time.freq_est := est, camp.rateAdj := BitVec.ofInt 32 (adj / 2 ^ 32) }

/-- Distance of two epoch offsets modulo 2^64. -/
def offsetMove (a b : Nat) : Nat := min ((a + 2 ^ 64 - b) % 2 ^ 64) ((b + 2 ^ 64 - a) % 2 ^ 64)

/-- A good dialog with target `t` (R71, R75, R78, R770, R771).  `source` is its code in CAMP_STATUS; `forced` is the
cause of a step made whatever the offset (R719). -/
def goodDialog (t source : Nat) (anchors : Bool) (forced : Option Nat) (s : State) : State :=
  let h := s.h
  let was := s.camp.status.anchored
  let d : Int := (t : Int) - (h : Int)
  let thresh := s.camp.stepThresh.toNat
  let fresh := !s.camp.status.anchored && anchors
  let moved := s.time.offset_written && decide (thresh < offsetMove s.camp.epochOffset.toNat s.time.offset_applied)
  let changed := match s.time.anchor_last with
    | some p => p != source
    | none => false
  let steps := decide (thresh < d.natAbs) || changed || forced.isSome
  let cause := match forced with
    | some c => c
    | none => if moved then 4 else if changed then 5 else if fresh then 3 else if d < 0 then 1 else 2
  let interval := match s.time.last_good with
    | some g => ((h : Int) - g).toNat
    | none => s.camp.ptmInterval.toNat
  let s := { s with
    time.freq_est := if fresh then s.camp.rateAdj.toInt * 2 ^ 32 else s.time.freq_est
    time.dialog := none
    time.last_good := some (h : Int)
    time.anchor_last := some source
    time.offset_applied := s.camp.epochOffset.toNat
    time.offset_written := false
    time.ever_good := true
    thermal.comp_good := compAt s
    camp.syncStats.good_count := s.camp.syncStats.good_count + 1
    camp.lastOffset := BitVec.ofInt 32 (clampInt (-(2 ^ 31 - 1)) (2 ^ 31 - 1) d)
    camp.status.source := BitVec.ofNat 2 source
    camp.status.anchored := anchors
    camp.status.holdover := false }
  let s := disarm .ptmResponse 0 s
  let s := if steps then stepTo t cause s else slew d (max 1 interval) s
  let s := arm .holdover 0 s.camp.holdover.toNat s
  if fresh then raise (src 1 2) 0 [] s
  else if was && !anchors then raise (src 1 1) 0 [] s
  else s

/-! ### The floor (R63 to R65, R85, R769) -/

/-- Seed the floor: L = F, H = F + 1, every deadline moved with H; requests held take F + 1 and onward, under a
reservation that covers the last of them (R64, R85, R769). -/
def seedFloor (f code : Nat) (s : State) : State :=
  let n := s.time.preseed.length
  let d : Int := (f + 1 : Int) - (s.h : Int)
  let s := shiftTimers d s
  { s with
    time.hq := (f + 1) * 2 ^ 32
    time.last := f
    time.last_good := none
    time.preseed := []
    time.handout := (List.range n).zipWith (fun i u => (f + 1 + i, u)) s.time.preseed
    time.reserving := if n = 0 then none else some (f + n + s.camp.reserveSpan.toNat)
    camp.floor := BitVec.ofNat 64 f
    camp.status.floor_src := BitVec.ofNat 3 code
    camp.status.floor_seeded := true }

/-- Start stops before step 11: every held request is released with no stamp (R65). -/
def releaseHeld (s : State) : State :=
  if s.camp.status.floor_seeded then s
  else
    let l := s.time.preseed
    each l (fun u s => deliver u ⟨0, true⟩ s) { s with time.preseed := [], time.no_floor := true }

/-! ### Commands -/

/-- PTM_DIALOG_INTERVAL (R69): the interval starts again; a dialog is attempted if the anchor port is eligible. -/
def execPtmDialogInterval (s : State) : Host.Outcome State Fault Refusal :=
  if s.due .ptmInterval 0 then .next (startDialog (arm .ptmInterval 0 s.camp.ptmInterval.toNat s)) else .next s

/-- The response of the open dialog is within 2^22 motes of its request (R69). -/
def inDialog (s : State) : Bool := decide (s.run ≤ s.time.dialog_sent + 2 ^ 22)

/-- PTM_RESPONSE (R69 to R71): the dialog is good; `times` are the PTM master times at which the request was received
and the response sent. -/
def execPtmResponse (times : PtmTimes) (s : State) : Host.Outcome State Fault Refusal :=
  match s.time.dialog with
  | some n =>
    if inDialog s then .next (goodDialog (ptmTarget s (masterTime s times.t2 times.t3)) (n + 1) true none s) else .next s
  | none => .next s

/-- PTM_RESPONSE_TIMEOUT (R69): the dialog failed; H is unchanged. -/
def execPtmResponseTimeout (s : State) : Host.Outcome State Fault Refusal :=
  if s.time.dialog.isSome && s.due .ptmResponse 0 then .next (failDialog s) else .next s

/-- HOLDOVER_EXPIRY (R75, R79, R576): Campion becomes unanchored. -/
def execHoldoverExpiry (s : State) : Host.Outcome State Fault Refusal :=
  if s.due .holdover 0 && s.camp.status.anchored then
    let s := disarm .holdover 0 { s with camp.status.anchored := false, camp.status.holdover := false }
    .next (raise (src 1 1) 0 [] (refreshRate s))
  else .next s

/-- CLAMP_END (R81): H exceeds L. -/
def execClampEnd (s : State) : Host.Outcome State Fault Refusal :=
  if s.camp.status.clamped && decide (s.time.last < s.h) then .next { s with camp.status.clamped := false }
  else .next s

/-- RESERVATION_WRITE_DONE (R64, R83). -/
def execReservationWriteDone (s : State) : Host.Outcome State Fault Refusal := .next (settle s)

/-- A read of the lower word of CAMP_ISSUE issues a stamp and latches its upper word; before the floor is seeded it
returns no stamp (R28, R64, R98). -/
def issueRead (s : State) : Nat × State :=
  if s.camp.status.floor_seeded then
    let (st, s) := takeStamp s
    (st.stamp.toNat % 2 ^ 32, { s with
      camp.status.issue_unanch := st.unanch
      time.latched := s.time.latched.put 0x10008 (st.stamp.toNat / 2 ^ 32) })
  else (0, { s with time.latched := s.time.latched.put 0x10008 0 })

/-- CAMP_ISSUE_READ (R28, R64, R98). -/
def execCampIssueRead (port : Nat) (s : State) : Host.Outcome State Fault Refusal :=
  .next (memoryRead port (fun s =>
    if s.isHeld .mgmt then refuseRead port true s
    else
      let (v, s) := issueRead s
      say (.readData port 0 (leBytes 4 v)) s) s)

/-- A yard starts a time dialog with its parent (R718); one still open has had no good response and has failed. -/
def startYardDialog (s : State) : State :=
  let s := match s.keaka.request with
    | some _ => countFailed { s with keaka.request := none }
    | none => s
  if s.linkUp 0 && s.camp.status.floor_seeded then
    sendFrame 0x03 (parentOf s s.position).1 0 [s.h] { s with keaka.request := some s.h }
  else s

/-- redialog of CAMP_CTRL is written 1: a dialog starts at once and the interval restarts from it (R98); on a yard the
dialog is its time dialog (R93). -/
def redialog (s : State) : State :=
  if s.yard then startYardDialog (arm .yardDialog 0 s.camp.ptmInterval.toNat s)
  else startDialog (arm .ptmInterval 0 s.camp.ptmInterval.toNat s)

/-- CAMP_REDIALOG (R98). -/
def execCampRedialog (s : State) : Host.Outcome State Fault Refusal :=
  if s.isHeld .mgmt then .next s else .next (redialog s)

/-- The value R73 tests: H, less the offset in effect, plus the written value, modulo 2^64. -/
def offsetTest (s : State) (v : Nat) : Nat := (s.h + 2 ^ 64 - s.time.offset_applied % 2 ^ 64 + v) % 2 ^ 64

/-- CAMP_EPOCH_OFFSET is written (R72, R73). -/
def offsetWritten (v : Nat) (s : State) : State :=
  if 0xFFFF000000000000 ≤ offsetTest s v then raise (src 1 3) 0 [] { s with camp.status.offset_rejected := true }
  else { s with camp.epochOffset := BitVec.ofNat 64 v, time.offset_written := true }

/-- CAMP_EPOCH_OFFSET_WRITE (R72, R73). -/
def execCampEpochOffsetWrite (value : BitVec 64) (s : State) : Host.Outcome State Fault Refusal :=
  if s.isHeld .mgmt then .next s else .next (offsetWritten value.toNat s)

end Sys2Proof.Machine
end

