-- ==== Sys2Proof/Machine/Teasel.lean ====
section
/-!
DEFINITION. Teasel, the associative search engine (chapter 18): searches, the insert methods of each bank group,
block shifts, removals, the probe, and the rebuild of an uncorrectable word.
-/

namespace Sys2Proof.Machine

/-- Teasel runs: its domain is not held in reset and its clock is not gated (R668, R701). -/
def State.teaselOn (s : State) : Bool :=
  !s.isHeld .cmd && (match s.mode with | .hold => false | .flush => false | _ => true)

/-- Entry at an address. -/
def State.tslAt (s : State) (a : Nat) : TslEntry := s.teasel.entries.look {} a

/-- Entry bits [127:64] (table "Teasel entry"). -/
def TslEntry.hi (e : TslEntry) : BitVec 64 :=
  BitVec.ofNat 64 (e.valid.toNat * 2 ^ 63 + e.prio.toNat * 2 ^ 59 + e.len.toNat * 2 ^ 47 + e.key.toNat)

/-- TSL_PROBE_ADDR is written: the entry at the address is taken into the probe registers (R702). -/
def tslProbe (address : BitVec 16) (s : State) : State :=
  { s with
    tsl.probeAddr := address
    tsl.probeHi := (s.tslAt address.toNat).hi
    tsl.probeLo := (s.tslAt address.toNat).payload }

/-- Write entry `e` at address `a`, validated (R691). -/
def tslWrite (a : Nat) (e : TslEntry) (s : State) : State :=
  { s with teasel.entries := s.teasel.entries.put a { e with valid := true } }

/-- Invalidate the entry at an address: step 1 of R691 alone (R692). -/
def tslClear (a : Nat) (s : State) : State :=
  match s.teasel.entries.find a with
  | some e => { s with teasel.entries := s.teasel.entries.put a { e with valid := false } }
  | none => s

/-! ### Searches (R687 to R689) -/

/-- First and last key of an entry (R687). -/
def TslEntry.last (e : TslEntry) : Nat := e.key.toNat + e.len.toNat

/-- The entry covers a key of the range `lo` to `hi` (R687, R688). -/
def TslEntry.meets (e : TslEntry) (lo hi : Nat) : Bool :=
  e.valid && decide (e.key.toNat ≤ hi) && decide (lo ≤ e.last)

/-- An entry at address `a` matches a search (R688). -/
def tslMatches (q : TslSearch) (a : Nat) (e : TslEntry) : Bool :=
  q.banks.getLsbD (a / 4096) && e.meets q.key.toNat (q.key.toNat + q.n - 1)
    && ((e.payload &&& q.mask) == (q.value &&& q.mask))

/-- Matches of a search, in ascending address order. -/
def tslHits (s : State) (q : TslSearch) : List (Nat × TslEntry) :=
  s.teasel.entries.filter fun p => tslMatches q p.1 p.2

/-- Of matches in ascending address order, the one of highest prio, the lowest address among equals (R689). -/
def firstMatch : List (Nat × TslEntry) → Option (Nat × TslEntry)
  | [] => none
  | p :: t =>
    match firstMatch t with
    | some r => if p.2.prio < r.2.prio then some r else some p
    | none => some p

/-- The four results of a search (R689). -/
def tslSearch (s : State) (q : TslSearch) : TslResult :=
  let l := tslHits s q
  match firstMatch l with
  | some (a, e) => { hit := true, first := e, address := a, count := min 15 l.length }
  | none => {}

/-- A completed search is counted, and its result stands (R689, TSL_SEARCHES, TSL_HITS). -/
def tslCounted (r : TslResult) (s : State) : State :=
  { s with
    teasel.result := r
    tsl.searches := s.tsl.searches + 1
    tsl.hits := if r.hit then s.tsl.hits + 1 else s.tsl.hits }

/-! ### Groups and free addresses -/

/-- First address and number of addresses of a group (table "Bank assignment"). -/
def groupSpan : TslGroup → Nat × Nat
  | .writeBuffer => (0, 32768)
  | .overlap => (32768, 16384)
  | .stripes => (49152, 8192)
  | .hints => (57344, 8192)

/-- Lowest address at or above `a`, of `n` addresses, that holds no valid entry. -/
def tslFree (s : State) : Nat → Nat → Option Nat
  | _, 0 => none
  | a, n + 1 => if (s.tslAt a).valid then tslFree s (a + 1) n else some a

/-- An insert found no free address (R695). -/
def tslRefused (s : State) : State := { s with tsl.err.refused := satAdd s.tsl.err.refused 1 }

/-- A free-slot insert (R694, R695): the state and the address taken. -/
def tslFreeSlot (g : TslGroup) (e : TslEntry) (s : State) : Option Nat × State :=
  match tslFree s (groupSpan g).1 (groupSpan g).2 with
  | some a => (some a, tslWrite a e s)
  | none => (none, tslRefused s)

/-- A search-insert of banks 8 to 11 (R693): on a miss the entry is written; the address taken. -/
def tslSearchInsert (e : TslEntry) (s : State) : Option Nat × State :=
  let r := tslSearch s { banks := 0x0F00, key := e.key, n := e.len.toNat + 1 }
  let s := tslCounted r s
  if r.hit then (none, s) else tslFreeSlot .overlap e s

/-- A ring insert into banks 14 and 15, after any valid hint with the same key is removed (R694). -/
def tslRing (e : TslEntry) (s : State) : State :=
  let s := { s with teasel.entries := s.teasel.entries.over fun a x =>
    if 57344 ≤ a ∧ x.valid ∧ x.key = e.key then { x with valid := false } else x }
  let s := tslWrite (57344 + s.teasel.ring) e s
  { s with teasel.ring := (s.teasel.ring + 1) % 8192 }

/-! ### Ordered insert and block shifts (R696 to R698) -/

/-- The lowest address of banks 0 to 7 whose valid entry the range of `e` overlaps; 32,768 when there is none. -/
def lowestOverlap (s : State) (e : TslEntry) : Nat :=
  match s.teasel.entries.find? fun p => decide (p.1 < 32768) && p.2.meets e.key.toNat e.last with
  | some p => p.1
  | none => 32768

/-- An ordered insert (R696): the lowest free address below every overlap, else the start of a shift; while a shift
runs it waits (R698). -/
def tslOrdered (e : TslEntry) (s : State) : State :=
  if s.teasel.shift.isSome then { s with teasel.inserts := s.teasel.inserts ++ [e] }
  else
    let l := lowestOverlap s e
    match tslFree s 0 l with
    | some a => tslWrite a e s
    | none =>
      match tslFree s l (32768 - l) with
      | some f => { s with
          teasel.shift := some { source := f - 1, target := l, moves := 0, entry := e }
          tsl.shifts.count := satAdd s.tsl.shifts.count 1 }
      | none => tslRefused s

/-- Serve the ordered inserts that waited for a shift, up to the first that starts another (R698). -/
def tslServe : Nat → State → State
  | 0, s => s
  | n + 1, s =>
    if s.teasel.shift.isSome then s
    else match s.teasel.inserts with
      | [] => s
      | e :: rest => tslServe n (tslOrdered e { s with teasel.inserts := rest })

/-- One move of the shift in progress (R697); after the last move the new entry is written at its address. -/
def tslMove (s : State) : State :=
  match s.teasel.shift with
  | none => s
  | some h =>
    let s := { s with teasel.entries := s.teasel.entries.put (h.source + 1) (s.tslAt h.source) }
    let n := h.moves + 1
    if h.source = h.target then
      let s := tslWrite h.target h.entry { s with
        teasel.shift := none
        tsl.shifts.max_moves := if s.tsl.shifts.max_moves.toNat < n then BitVec.ofNat 16 n else s.tsl.shifts.max_moves }
      tslServe s.teasel.inserts.length s
    else { s with teasel.shift := some { h with source := h.source - 1, moves := n } }

/-- Removal by match (R692): every matching entry of the banks searched. -/
def tslRemove (q : TslSearch) (s : State) : State :=
  { s with teasel.entries := s.teasel.entries.over fun a e =>
    if tslMatches q a e then { e with valid := false } else e }

/-! ### Keys and payloads (tables "Key by group", "Payloads") -/

/-- Key of a unit of a namespace. -/
def unitKey (ns unit : Nat) : BitVec 47 := BitVec.ofNat 47 (ns * 2 ^ 37 + unit)

/-- Entry of a write slice. -/
def sliceEntry (d : SliceDesc) (index : Nat) : TslEntry :=
  { len := BitVec.ofNat 12 (d.units - 1), key := unitKey d.ns_index d.first
    payload := BitVec.ofNat 64 (d.stamp / 2 ^ 32 % 2 ^ 15 * 2 ^ 48 + index % 2 ^ 15) }

/-- Entry of a held mapping update record; its record-area index in [15:0]. -/
def recordEntry (ns first units index : Nat) : TslEntry :=
  { len := BitVec.ofNat 12 (units - 1), key := unitKey ns first
    payload := BitVec.ofNat 64 (2 ^ 63 + index % 2 ^ 16) }

/-- The write-buffer entry of a held record: kinds 0x01, 0x02 and 0x05 have one (R685). -/
def MapRecord.entry (m : MapRecord) : Option TslEntry :=
  if m.kind = 1 ∨ m.kind = 2 ∨ m.kind = 5 then
    m.ns_unit.map fun u => recordEntry m.ns_index u (min m.count 4096) m.slot
  else none

/-- A record's entry leaves the write-buffer index (R381, R692). -/
def leaveRecord (m : MapRecord) (s : State) : State :=
  match m.entry with
  | some e => tslRemove { banks := 0x00FF, key := e.key, n := e.len.toNat + 1, value := e.payload, mask := BitVec.ofNat 64 (2 ^ 64 - 1) } s
  | none => s

/-- The lowest free index of the record area. -/
def freeRecordSlot (s : State) : Nat :=
  ((List.range (s.shroud.records.length + 1)).find? fun i => !(s.shroud.records.any fun m => m.slot == i)).getD 0

/-- Entry of a data-changing command; `next` is the address of its next entry, 0xFFFF when none. -/
def overlapEntry (ns first units tracker next : Nat) : TslEntry :=
  { len := BitVec.ofNat 12 (units - 1), key := unitKey ns first
    payload := BitVec.ofNat 64 (tracker % 2 ^ 18 * 2 ^ 46 + next % 2 ^ 16 * 2 ^ 30) }

/-- Entry of a member of a stripe in flight. -/
def memberEntry (die block position serial : Nat) : TslEntry :=
  { key := BitVec.ofNat 47 (die * 4096 + block), payload := BitVec.ofNat 64 (position * 2 ^ 48 + serial % 2 ^ 48) }

/-- Entry of a hint: the slot base of a reef. -/
def hintEntry (reef base : Nat) : TslEntry := { key := BitVec.ofNat 47 reef, payload := BitVec.ofNat 64 (base % 2 ^ 38) }

/-! ### Uncorrectable words (R700) -/

/-- Slices and records whose range meets neither a valid entry nor a released state get an entry again, in ascending
stamp order. -/
def rebuildWriteBuffer (s : State) : State :=
  let slices := (s.shroud.slices.filter fun p => decide (p.2.released.length < p.2.units)).map fun p =>
    (p.2.stamp, sliceEntry p.2 p.1)
  let records := (s.shroud.records.filter fun m => !m.applied).filterMap fun m => m.entry.map fun e => (m.stamp.stamp.toNat, e)
  let l := (slices ++ records).filter fun p =>
    !(s.teasel.entries.any fun q => decide (q.1 < 32768) && q.2.meets p.2.key.toNat p.2.last)
  each (l.mergeSort fun a b => decide (a.1 ≤ b.1)) (fun p => tslOrdered p.2) s

/-- Entries of commands whose overlap_tag named an address removed are written again. -/
def rebuildOverlap (a : Nat) (saved : TslEntry) (s : State) : State :=
  if saved.valid && s.nvme.tracker.any (fun p => p.2.overlap.contains a) then
    let (b, s) := tslFreeSlot .overlap saved s
    match b with
    | some b => { s with nvme.tracker := s.nvme.tracker.over fun _ e =>
        { e with overlap := e.overlap.map fun x => if x = a then b else x } }
    | none => s
  else s

/-- Members of stripes in flight that lack an entry get one again. -/
def rebuildStripes (s : State) : State :=
  let fl := s.shroud.stripes.filter fun p => p.2.state == .filling || p.2.state == .programming
  each fl (fun p s =>
    each ((List.range p.2.members.length).zip p.2.members) (fun m s =>
      let e := memberEntry m.2.die m.2.block m.1 p.1
      if s.teasel.entries.any (fun q => decide (49152 ≤ q.1) && q.2.valid && q.2.key == e.key && q.2.payload == e.payload)
      then s else (tslFreeSlot .stripes e s).2) s) s

/-- An uncorrectable code word at an even address: both entries go, the owner inserts again, and the count of R675
rises (R700). -/
def tslRebuild (address : Nat) (s : State) : State :=
  let a := address - address % 2
  let e0 := s.tslAt a
  let e1 := s.tslAt (a + 1)
  let s := tslClear (a + 1) (tslClear a s)
  let s := if a < 32768 then rebuildWriteBuffer s
    else if a < 49152 then rebuildOverlap (a + 1) e1 (rebuildOverlap a e0 s)
    else if a < 57344 then rebuildStripes s
    else s
  let s := { s with
    tsl.err.rebuilds := satAdd s.tsl.err.rebuilds 1
    mem.eccCount.sram_ue := satAdd s.mem.eccCount.sram_ue 1
    mem.lastUe.memory := 2
    mem.lastUe.requester := 0
    mem.lastUe.address := BitVec.ofNat 40 (a / 2 * 32) }
  raise (src 14 0) 0 [] (raise (src 13 1) 0 [] (request .memoryUe s))

/-! ### Commands -/

/-- A key range an owner may write (R687). -/
def TslEntry.inSpace (e : TslEntry) : Bool := decide (e.last < 2 ^ 47)

/-- TEASEL_SEARCH (R688, R689, R700): `error` is the address of an uncorrectable word of a selected bank. -/
def execTeaselSearch (search : TslSearch) (error : Option Nat) (s : State) : Host.Outcome State Fault Refusal :=
  if s.teaselOn && decide (1 ≤ search.n) && decide (search.n ≤ 4096) then
    let s := match error with
      | some a => if a < 65536 ∧ search.banks.getLsbD (a / 4096) then tslRebuild a s else s
      | none => s
    .next (tslCounted (tslSearch s search) s)
  else .next s

/-- TEASEL_SEARCH_INSERT (R693, R695). -/
def execTeaselSearchInsert (entry : TslEntry) (s : State) : Host.Outcome State Fault Refusal :=
  if s.teaselOn && entry.inSpace then .next (tslSearchInsert entry s).2 else .next s

/-- TEASEL_ORDERED_INSERT (R695, R696, R698). -/
def execTeaselOrderedInsert (entry : TslEntry) (s : State) : Host.Outcome State Fault Refusal :=
  if s.teaselOn && entry.inSpace then .next (tslOrdered entry s) else .next s

/-- TEASEL_FREE_SLOT_INSERT (R694, R695), for the groups whose method it is. -/
def execTeaselFreeSlotInsert (group : TslGroup) (entry : TslEntry) (s : State) : Host.Outcome State Fault Refusal :=
  match group with
  | .overlap => if s.teaselOn && entry.inSpace then .next (tslFreeSlot .overlap entry s).2 else .next s
  | .stripes => if s.teaselOn && entry.inSpace then .next (tslFreeSlot .stripes entry s).2 else .next s
  | .writeBuffer => .next s
  | .hints => .next s

/-- TEASEL_RING_INSERT (R694). -/
def execTeaselRingInsert (entry : TslEntry) (s : State) : Host.Outcome State Fault Refusal :=
  if s.teaselOn && entry.inSpace then .next (tslRing entry s) else .next s

/-- TEASEL_REMOVE_BY_ADDRESS (R692), of banks 8 to 13. -/
def execTeaselRemoveByAddress (address : Nat) (s : State) : Host.Outcome State Fault Refusal :=
  if s.teaselOn && decide (32768 ≤ address) && decide (address < 57344) then .next (tslClear address s) else .next s

/-- TEASEL_REMOVE_BY_MATCH (R692), of banks 0 to 7, 14 and 15. -/
def execTeaselRemoveByMatch (search : TslSearch) (s : State) : Host.Outcome State Fault Refusal :=
  if s.teaselOn then .next (tslRemove { search with banks := search.banks &&& 0xC0FF } s) else .next s

/-- TEASEL_SHIFT_MOVE (R697, R698). -/
def execTeaselShiftMove (s : State) : Host.Outcome State Fault Refusal :=
  if s.teaselOn then .next (tslMove s) else .next s

/-- TEASEL_PROBE (R702): the entry at the address is taken into the probe registers. -/
def execTeaselProbe (address : BitVec 16) (s : State) : Host.Outcome State Fault Refusal :=
  if s.isHeld .cmd then .next s else .next (tslProbe address s)

end Sys2Proof.Machine
end

