-- ==== Sys2Proof/Machine/PowerOps.lean ====
section
/-!
DEFINITION. Caps, clock levels and power states as other chapters use them (R39, R173, R579, R601 to R606, R615,
R616), and SMART values: Critical Warning and the changes it reports (R589 to R592).
-/

namespace Sys2Proof.Machine

/-! ### Caps and clock levels -/

/-- The state cap of a power state in mW, none for PS0 (table "Power states"). -/
def stateCap (s : State) (ps : Nat) : Option Nat :=
  match ps with
  | 1 => some s.psm.capPs1.toNat
  | 2 => some s.psm.capPs2.toNat
  | 3 => some s.psm.capPs3.toNat
  | 4 => some s.psm.capPs4.toNat
  | _ => none

/-- Clock level of a power state (table "Power states"). -/
def stateLevel (ps : Nat) : Nat :=
  match ps with
  | 2 => 1
  | 3 => 2
  | _ => 0

/-- The thermal cap, while there is one (R580). -/
def thermalCap (s : State) : Option Nat :=
  if s.thm.status.throttling && s.thm.cfg.method_a then some s.thermal.cap else none

/-- The cap in force and its source code (R39, R173, PWR_LEDGER): the lowest of the three, or the Flush cap. -/
def capInForce (s : State) : Nat × Nat :=
  match s.mode with
  | .flush => (s.pwr.flushLoadMw.toNat - 28000, 4)
  | _ =>
    let best := (s.pwr.driveCapMw.toNat, 3)
    let best := match thermalCap s with
      | some c => if c < best.1 then (c, 2) else best
      | none => best
    match stateCap s s.psm.status.in_force.toNat with
    | some c => if c < best.1 then (c, 1) else best
    | none => best

/-- The clock level in force: the greater of the state's and the thermal loop's (R603). -/
def levelInForce (s : State) : Nat := max (stateLevel s.psm.status.in_force.toNat) s.thermal.loop_level

/-- Show the clock level in force; it takes effect at CLOCK_LEVEL_EFFECTIVE (R579). -/
def refreshLevel (s : State) : State := { s with thm.status.clock_level := BitVec.ofNat 2 (levelInForce s) }

/-! ### Critical Warning (R590, R591) -/

/-- The composite temperature M in units of 2^-32 °C and its node (R569). -/
def composite (s : State) : Int × Nat :=
  ((List.range 14).zip (s.thermal.temps.zip s.thermal.params)).foldl
    (fun best p =>
      let v := p.2.1 + p.2.2.adj * 2 ^ 24
      if p.1 = 0 ∨ best.1 < v then (v, p.1) else best) (0, 0)

/-- A temperature in kelvins as SMART reports it: rounded to the nearest °C, halves up, plus 273 (R589). -/
def kelvin (t : Int) : Int := (t + 2 ^ 31) / 2 ^ 32 + 273

/-- Temperature sensor `n` of SMART, 0 the composite; none while sensor 8 is invalid (R589, R591). -/
def sensorTemp (s : State) (n : Nat) : Option Int :=
  if s.thermal.temps.isEmpty then none
  else if n = 0 then some (kelvin (composite s).1)
  else if n ≤ 6 then some (kelvin (s.thermal.temps.getD (n - 1) 0))
  else if n = 7 then some (kelvin ((s.thermal.temps.drop 6).foldl max (s.thermal.temps.getD 6 0)))
  else if n = 8 ∧ s.thm.status.ext_valid then (s.thermal.readings.find 6).map fun r => kelvin (r * 2 ^ 24)
  else none

/-- The over threshold of sensor `n` on a controller, by default warn + 273 (R591). -/
def overThreshold (s : State) (c n : Nat) : Int := (s.ctrl c).temp_over.look (s.thm.thresh.warn.toNat + 273) n

/-- The under threshold of sensor `n` on a controller, by default 0 (R591). -/
def underThreshold (s : State) (c n : Nat) : Int := (s.ctrl c).temp_under.look 0 n

/-- A comparison of R591 holds. -/
def thresholdCrossed (s : State) : Bool :=
  s.ctrls.any fun c => (List.range 9).any fun n =>
    match sensorTemp s n with
    | some t => decide (overThreshold s c n < t)
        || (decide (underThreshold s c n ≠ 0) && decide (t < underThreshold s c n))
    | none => false

/-- A fatal media condition holds: a failed pair, both stays lost, a lost security store, too few channels for any
shape, a scan mismatch, or a lost yard on a masthead that holds a table (R153 to R155, R401, R557, R650, R731). -/
def fatalMedia (s : State) : Bool :=
  (s.pwr.pairStatus.failed != 0) || s.sec.status.sec_store_lost || s.map.status.scan_mismatch || s.red.status.fatal_shape
    || (s.kk.status.lost != 0 && s.engine.formatted)

/-- The Critical Warning byte (R590). -/
def criticalWarning (s : State) : Nat :=
  let die := s.redun.dies.vals.any fun d => d.state == 2 || d.state == 3
  bitsOf [s.rcl.status.spare_warn, thresholdCrossed s, die || fatalMedia s || s.health.counts.rel_latched,
    decide (s.mode = .readOnly), s.pwr.status.below_floor || s.pwr.status.shroud_lost]

/-- Note a change of Critical Warning: its event, and the asynchronous event of each bit newly set that is enabled
(R590, R596, R751, R752). -/
def noteHealth (s : State) : State :=
  let now := criticalWarning s
  let old := s.health.critical
  let s := { s with thm.status.tt_over := now.testBit 1, health.critical := now }
  if now = old then s
  else
    let s := noteMiAll Mi.warning (raise (src 4 2) now [BitVec.ofNat 8 old] s)
    each ((List.range 5).filter fun i => now.testBit i && !old.testBit i) (fun i s =>
      let info := if i = 0 then 2 else if i = 1 then 1 else 0
      each (s.enabledCtrls.filter fun c => (s.ctrl c).async_config.testBit i) (fun c => postAsync c ⟨1, info, 2⟩) s) s

/-- Write a health page (R595). -/
def writeHealthPage (s : State) : State :=
  let (st, s) := takeStamp s
  { s with health.page := some s.health.counts, health.page_seq := s.health.page_seq + 1, health.page_stamp := st }

/-- The nonce of a lane and a counter: the id in bytes 0 to 3, the counter in bytes 4 to 11 (R642). -/
def gcmNonce (s : State) (lane counter : Nat) : Nat :=
  lane % 16 * 2 ^ 28 + s.position % 4 * 2 ^ 26 + Config.serialNumber.toNat % 2 ^ 26 + 2 ^ 32 * (counter % 2 ^ 64)

/-- The nonce of a message that a lane seals now (R638, R642). -/
def takeNonce (lane : Nat) (s : State) : Nat × State :=
  (gcmNonce s lane s.sec.nonceNext.toNat, { s with
    sec.nonceNext := s.sec.nonceNext + 1
    sec.gcmCounts.sealed := satAdd s.sec.gcmCounts.sealed 1 })

/-- The lane that a message takes that is sealed at once: the first that is free (R637). -/
def openLane (s : State) : Nat := ((List.range 4).find? fun n => !s.security.lanes.has n).getD 0

/-- More bytes into a SHA-256 in progress (R645). -/
def RunningDigest.add (d : RunningDigest) (b : Bytes) : RunningDigest :=
  let p := sha256Add (if d.length = 0 then shaInit256 else d.hash) d.tail b
  { hash := p.1, tail := p.2, length := d.length + b.length }

/-- The digest of what has gone in. -/
def RunningDigest.value (d : RunningDigest) : Bytes :=
  sha256Kind.from (if d.length = 0 then shaInit256 else d.hash) (d.length - d.tail.length) d.tail

/-- Units of the Shroud are lost: shroud_lost sets (R163, R169, R592, R596). -/
def shroudLost (units : Nat) (s : State) : State :=
  noteHealth (raise (src 2 7) 0 (leBytes 4 units) { s with
    pwr.status.shroud_lost := true
    health.counts.shroud_lost_count := s.health.counts.shroud_lost_count + (if s.pwr.status.shroud_lost then 0 else 1)
    health.counts.rel_latched := true })

/-- Lowest digest context of 0 to 13 that is free (R646). -/
def freeContext (s : State) : Option Nat := (List.range 14).find? fun n => !s.security.contexts.has n

/-- A user asks for a digest context: 15 for a spill image, 14 for the Array Service Routine, one of 0 to 13 for any other;
with none free it waits (R646). -/
def askDigest (stamp : Nat) (u : EngineUse) (s : State) : State :=
  match u with
  | .endMarker => { s with security.contexts := s.security.contexts.put 15 u }
  | .journalRecord => { s with security.contexts := s.security.contexts.put 14 u }
  | _ => match freeContext s with
    | some n => { s with security.contexts := s.security.contexts.put n u }
    | none => { s with security.digest_waiting := insertOn Prod.fst (stamp, u) s.security.digest_waiting }

/-- A user asks the signature checker, which serves one request at a time in admission-stamp order (R649). -/
def askChecker (stamp : Nat) (u : EngineUse) (s : State) : State :=
  { s with security.checker := match s.security.checker with
      | [] => [(stamp, u)]
      | now :: rest => now :: insertOn Prod.fst (stamp, u) rest }

/-- Load a digest key slot from its key (R647). -/
def loadKeySlot (n : Nat) (key : Bytes) (s : State) : State :=
  { s with security.key_slots := s.security.key_slots.put n {
      inner384 := sha384Kind.padState 0x36 key, outer384 := sha384Kind.padState 0x5C key
      inner256 := sha256Kind.padState 0x36 key, outer256 := sha256Kind.padState 0x5C key } }

/-- Step 2 of Start derives the keys of digest key slots 0 and 1 from fused secrets (R218, R629). -/
def deriveKeys (s : State) : State := loadKeySlot 1 (Config.digestKey 1) (loadKeySlot 0 (Config.digestKey 0) s)

/-- HMAC-SHA-384 by reference to a digest key slot (R647). -/
def State.slotHmac384 (s : State) (n : Nat) (b : Bytes) : Bytes :=
  sha384Kind.hmacFrom (s.security.key_slots.look {} n).inner384 (s.security.key_slots.look {} n).outer384 b

/-- HMAC-SHA-256 by reference to a digest key slot (R647). -/
def State.slotHmac256 (s : State) (n : Nat) (b : Bytes) : Bytes :=
  sha256Kind.hmacFrom (s.security.key_slots.look {} n).inner256 (s.security.key_slots.look {} n).outer256 b

/-- The seal of a manifest under the device manifest key, slot 0 (R230). -/
def State.manifestSeal (s : State) (b : Bytes) : Bytes := s.slotHmac384 0 b

/-- Verifier of a PIN: the PIN followed by its salt, under slot 1 (R650, R659; the order is DEDUCED, log entry 88). -/
def State.pinVerifier (s : State) (salt pin : Bytes) : Bytes := s.slotHmac256 1 (pin ++ salt)

/-- A signature r then s of a message verifies under a key x then y, each 48 bytes little-endian (R14, R230, R649). -/
def signatureVerifies (key signature message : Bytes) : Bool :=
  ecdsaVerifies (field key 0 48) (field key 48 48) (field signature 0 48) (field signature 48 48) (sha384 message)

/-! ### Power states -/

/-- Requested state of a controller. -/
def requested (s : State) (c : Nat) : Nat := if c = 0 then s.psm.status.req0.toNat else s.psm.status.req1.toNat

/-- Record the requested state of a controller (R606). -/
def setRequested (c ps : Nat) (s : State) : State :=
  if c = 0 then { s with psm.status.req0 := BitVec.ofNat 3 ps } else { s with psm.status.req1 := BitVec.ofNat 3 ps }

/-- The state in force that the requested states give (R606). -/
def stateByRequests (s : State) : Nat :=
  if s.ep.dual then min (requested s 0) (requested s 1) else requested s 0

/-- LTR value of a power state in microseconds (table "Power states"). -/
def ltrValue (ps : Nat) : Nat := if ps ≤ 1 then 16 else if ps ≤ 3 then 100 else 3000

/-- Send LTR at the end of an entry or return, on each port whose function may (R604). -/
def sendLtr (ps : Nat) (s : State) : State :=
  each (s.ctrls.filter fun n => (s.port n).ltr_enable && (s.portStatus n).bme) (fun n => say (.ltr n (ltrValue ps))) s

/-- The mode of an operational power state. -/
def operational (ps : Nat) : Mode := if ps = 0 then .run else .reduced

/-- A power state is applied: cap and clock level (R610 steps 1 and 2, R616). -/
def applyState (ps : Nat) (s : State) : State :=
  let s := { s with
    psm.status.in_force := BitVec.ofNat 3 ps
    psm.status.last_op := if ps < 4 then BitVec.ofNat 3 ps else s.psm.status.last_op }
  refreshLevel s

/-- Complete the Set Features of a power-state change, where there is one. -/
def completePower (entry : Option Nat) (s : State) : State :=
  match entry with
  | some t => finishEntry t 0 0 s
  | none => s

/-- A return to state `ps` begins (R615): from a Reduced state it is made at once (R616); from PS4 by the steps of
R617, which PATROL_RETURN_STEP takes. -/
def beginReturn (ps : Nat) (entry : Option Nat) (s : State) : State :=
  if s.psm.status.in_force = 4 then
    { s with power_states.returning := some { step := 1, target := ps, entry := entry } }
  else
    let s := applyState ps s
    let s := match s.mode with
      | .reduced => if ps = 0 then setMode .run s else s
      | _ => s
    completePower entry (raise (src 16 2) 0 [] (sendLtr ps s))

/-- The last operational state of a controller (R47). -/
def noteOperational (c ps : Nat) (s : State) : State :=
  if 4 ≤ ps then s
  else if c = 0 then { s with power_states.last0 := ps } else { s with power_states.last1 := ps }

/-- The requested state of a controller becomes PS0, and a return begins where the state in force changes (R606,
R614, R626). -/
def dropRequest (c : Nat) (s : State) : State :=
  let s := match s.power_states.handshake with
    | some h => if h.ctrl = c then { s with power_states.handshake := none, power_states.held_doorbell := none } else s
    | none => s
  let s := noteOperational c 0 (setRequested c 0 s)
  let ps := stateByRequests s
  if ps < s.psm.status.in_force.toNat ∧ s.power_states.returning.isNone ∧ s.reset_ctl.sequence.isNone then
    match s.mode with
    | .run => beginReturn ps none s
    | .reduced => beginReturn ps none s
    | .patrol => beginReturn ps none s
    | .readOnly => beginReturn ps none s
    | _ => s
  else s

end Sys2Proof.Machine
end

