-- ==== Sys2Proof/Machine/CommandOps.lean ====
section
/-!
DEFINITION. What other chapters do to commands: status values, freeing tracker entries, ending a controller's
commands with no completion, and resets of a controller (R282, R284, R309, R320, R328, R701).
-/

namespace Sys2Proof.Machine

/-! ### Status values: Status Code Type times 256, plus Status Code -/

/-- CNTLID of a controller (R302). -/
def cntlid (c : Nat) : Nat := c + 1

/-- The controller that a CNTLID names (R302). -/
def controllerNamed (s : State) (id : Nat) : Option Nat := s.ctrls.find? fun c => cntlid c == id

def Status.invalidOpcode : Nat := 0x001
def Status.invalidField : Nat := 0x002
def Status.dataTransfer : Nat := 0x004
def Status.internalError : Nat := 0x006
def Status.abortRequested : Nat := 0x007
def Status.abortedSqDeletion : Nat := 0x008
def Status.invalidNamespace : Nat := 0x00B
def Status.sequenceError : Nat := 0x00C
def Status.sglType : Nat := 0x011
def Status.sglGranularity : Nat := 0x01E
def Status.dataSglLength : Nat := 0x00F
def Status.prpOffset : Nat := 0x013
def Status.writeProtected : Nat := 0x020
def Status.lbaRange : Nat := 0x080
def Status.notReady : Nat := 0x082
def Status.reservationConflict : Nat := 0x083
def Status.formatInProgress : Nat := 0x084
def Status.cqInvalid : Nat := 0x100
def Status.invalidQueueId : Nat := 0x101
def Status.invalidQueueSize : Nat := 0x102
def Status.abortLimit : Nat := 0x103
def Status.aerLimit : Nat := 0x105
def Status.invalidSlot : Nat := 0x106
def Status.invalidImage : Nat := 0x107
def Status.invalidVector : Nat := 0x108
def Status.invalidLog : Nat := 0x109
def Status.invalidFormat : Nat := 0x10A
def Status.needsReset : Nat := 0x10B
def Status.invalidQueueDeletion : Nat := 0x10C
def Status.notSaveable : Nat := 0x10D
def Status.notChangeable : Nat := 0x10E
def Status.insufficientCapacity : Nat := 0x115
def Status.nsidUnavailable : Nat := 0x116
def Status.alreadyAttached : Nat := 0x118
def Status.isPrivate : Nat := 0x119
def Status.notAttached : Nat := 0x11A
def Status.thinProvisioning : Nat := 0x11B
def Status.controllerListInvalid : Nat := 0x11C
def Status.unrecoveredRead : Nat := 0x281
def Status.compareFailure : Nat := 0x285
def Status.accessDenied : Nat := 0x286
def Status.abortedByHalt : Nat := 0x780
def Status.queueNotHalted : Nat := 0x781
def Status.entryNotRead : Nat := 0x782
def Status.installFailed : Nat := 0x783

/-! ### Write buffer space -/

/-- Write-buffer slots reserved by admitted slices and not yet released (R429). -/
def slotsReserved (s : State) : Nat :=
  (s.shroud.slices.vals.map fun d => d.units - d.released.length).foldl (· + ·) 0

/-- Slots of 4,160 bytes in the write buffer (R426). -/
def slotsTotal (s : State) : Nat := s.cmd.wbufCfg.toNat * 2 ^ 20 / 4160

/-- Bytes of a stay record (R431). -/
def StayRecord.bytes (r : StayRecord) : Nat :=
  if r.type = 1 ∨ r.type = 2 then 32 + 8 * r.members.length else 32

/-- The record is programmed in both stays (R432). -/
def StayRecord.durable (r : StayRecord) : Bool := r.durable0 && r.durable1

/-- Shroud occupancy in MiB when `more` further slots are reserved (R429). -/
def occupancyWith (s : State) (more : Nat) : Nat :=
  let journal := ((s.shroud.journal.filter fun r => !r.durable).map StayRecord.bytes).foldl (· + ·) 0
  divUp ((slotsReserved s + more) * 4160 + s.shroud.held.length * 32 + s.shroud.records.length * 32 + journal) (2 ^ 20)

/-! ### Ending commands -/

/-- Units of a slice are released or discarded; when every unit is, the slice descriptor goes, and its Teasel entry
with it (R424, R328, R692). -/
def releaseSliceUnits (d : Nat) (offsets : List Nat) (s : State) : State :=
  match s.shroud.slices.find d with
  | none => s
  | some x =>
    let x := { x with released := x.released ++ offsets.filter fun o => !x.released.contains o }
    if x.units ≤ x.released.length then
      let e := sliceEntry x d
      tslRemove { banks := 0x00FF, key := e.key, n := x.units, value := e.payload, mask := BitVec.ofNat 64 (2 ^ 64 - 1) }
        { s with shroud.slices := s.shroud.slices.drop d }
    else { s with shroud.slices := s.shroud.slices.put d x }

/-- Units of a piece, as offsets in the slice whose first unit is `first`. -/
def pieceOffsets (first : Nat) (p : Piece) : List Nat := (List.range p.units).map fun i => p.unit + i - first

/-- Pieces of a slice that are not held are discarded (R328). -/
def discardSlice (x : Slice) (s : State) : State :=
  if x.admitted then
    match x.pieces with
    | [] => s
    | p :: _ => releaseSliceUnits x.desc ((x.pieces.filter fun q => !q.held).flatMap (pieceOffsets p.unit)) s
  else s

/-- The pieces of a command that are not held are discarded. -/
def discardUnheld (e : Entry) (s : State) : State := each e.slices discardSlice s

/-- The Teasel entries of a command in banks 8 to 11 are removed. -/
def dropOverlap (e : Entry) (s : State) : State := each e.overlap tslClear s

/-- The time with an I/O command outstanding ends (Controller Busy Time of R589). -/
def settleBusy (s : State) : State :=
  match s.health.busy_from with
  | some h =>
    if s.nvme.tracker.vals.any fun e => e.sqid != 0 then s
    else { s with health.busy_from := none, health.counts.busy_motes := s.health.counts.busy_motes + (s.run - h) }
  | none => s

/-- Data still on its way for an ended command is dropped when it arrives; reads not yet issued are not issued. -/
def dropData (t : Nat) (s : State) : State :=
  let mine := fun (r : ReadRequest) => match r.purpose with | .data x _ => x == t | .dropped => false
  let f := fun (p : Port) => { p with
    tags := p.tags.over fun _ r => if mine r then { r with purpose := .dropped } else r
    reads_waiting := p.reads_waiting.filter fun r => !mine r }
  onPort 1 f (onPort 0 f s)

/-- Namespaces as a delete, create or format leaves them when its command ends before it is complete: a delete that has
released its chunks stands, any other namespace opens again. -/
def leaveNamespaces (s : State) (t : Nat) : Tab Namespace :=
  let gone := s.keaka.admin.any fun a => a.entry == t && a.body.headD 0 == 1
  Tab.over (fun _ n => if n.closing = some t then { n with closing := none } else n)
    (s.nvme.namespaces.filter fun p => !(gone && p.2.closing == some t))

/-- A GenKey whose command ends: before step 3 nothing has changed, after it the rest goes on without a command (R657). -/
def leaveGenKey (t : Nat) (g : Option GenKey) : Option GenKey :=
  match g with
  | some g => if g.entry = t then (if g.step = 1 then none else some { g with entry := 2 ^ 32 }) else some g
  | none => none

/-! ### Blocks and NAND operations -/

/-- Key of a block. -/
def blockKey (die block : Nat) : Nat := die * 4096 + block

/-- A block. -/
def State.blockAt (s : State) (k : Nat) : Block := s.reclaim.blocks.look {} k

/-- Change a block. -/
def onBlock (k : Nat) (f : Block → Block) (s : State) : State :=
  { s with reclaim.blocks := s.reclaim.blocks.put k (f (s.blockAt k)) }

/-- An operation by number. -/
def State.op (s : State) (i : Nat) : Option NandOp := s.media.ops.find i

/-- Change an operation. -/
def onOp (i : Nat) (f : NandOp → NandOp) (s : State) : State :=
  match s.op i with
  | some o => { s with media.ops := s.media.ops.put i (f o) }
  | none => s

/-- An operation leaves. -/
def dropOp (i : Nat) (s : State) : State :=
  { s with
    media.ops := s.media.ops.drop i
    media.ceiling := if s.media.ceiling = some i then none else s.media.ceiling }

/-- An operation leaves; a read leaves its block's reads in flight too (R383). -/
def leaveOp (i : Nat) (s : State) : State :=
  match s.op i with
  | none => s
  | some o => match o.kind with
    | .read => onBlock (blockKey o.die o.block) (fun b => { b with inflight := b.inflight - 1 }) (dropOp i s)
    | _ => dropOp i s

/-- A read that is not at the die is cancelled; one at the die drops its data (R171, R527). -/
def cancelOp (i : Nat) (s : State) : State :=
  match s.op i with
  | none => s
  | some o => match o.state with
    | .waiting => leaveOp i s
    | .admitted => leaveOp i s
    | .decoding => leaveOp i s
    | _ => onOp i (fun o => { o with dropped := true }) s

/-- Reads and reconstructions for an ended command (R393, R527): senses not yet at the die are cancelled, a sense at the
die completes and its data is dropped. -/
def cancelReads (t : Nat) (s : State) : State :=
  let gone := (s.redun.recons.filter fun p => match p.2.use with | .host x _ => x == t | _ => false).map Prod.fst
  let mine := fun (o : NandOp) => match o.owner with
    | .host x _ => x == t
    | .speculative x _ _ => x == t
    | .reconstruct id _ => gone.contains id
    | _ => false
  each ((s.media.ops.filter fun p => mine p.2).map Prod.fst) cancelOp
    { s with redun.recons := s.redun.recons.filter fun p => !gone.contains p.1 }

/-! ### Freeing an entry -/

/-- Free a tracker entry (R320). -/
def freeEntry (t : Nat) (s : State) : State :=
  match s.nvme.tracker.find t with
  | none => s
  | some e =>
    let s := cancelReads t (dropData t (dropOverlap e s))
    settleBusy { s with
      nvme.tracker := s.nvme.tracker.drop t
      nvme.namespaces := leaveNamespaces s t
      keaka.admin := s.keaka.admin.filter fun a => a.entry != t
      security.genkey := leaveGenKey t s.security.genkey
      nvme.ceiling := if s.nvme.ceiling = some t then none else s.nvme.ceiling
      engine.specs := s.engine.specs.filter fun p => p.entry != t
      map.specDiscarded := s.map.specDiscarded
        + BitVec.ofNat 64 (((s.engine.specs.filter fun p => p.entry == t).map fun p => p.unit / 16).eraseDups.length) }

/-- End a command with no completion. -/
def endEntry (t : Nat) (s : State) : State :=
  match s.nvme.tracker.find t with
  | none => s
  | some e => freeEntry t (discardUnheld e s)

/-- On a masthead the yards discard what an ended command has not made held (R734, R739). -/
def abortOnYards (t : Nat) (s : State) : State :=
  match s.nvme.tracker.find t with
  | none => s
  | some e => each e.yards_wait.eraseDups (fun p => sendFrame 0x14 p t []) s

/-- A command ends with a status: what it has not made held is discarded, its waits end, its yards are told (R324, R328,
R734). -/
def failEntry (t status dw0 : Nat) (s : State) : State :=
  match s.nvme.tracker.find t with
  | none => s
  | some e =>
    let s := discardUnheld e (abortOnYards t s)
    let s := onEntry t (fun e => { e with
      slices := [], reads_left := [], unread := [], remote_left := [], yards_wait := [], broken := none }) s
    finishEntry t status dw0 (dropData t s)

/-- First LBA. -/
def Sqe.slba (q : Sqe) : Nat := q.cdw10.toNat + 2 ^ 32 * q.cdw11.toNat

/-- What the log says of a command that ends with a status. -/
def commandDraft (e : Entry) (status : Nat) (d : ErrorDraft) : ErrorDraft :=
  { d with sqid := e.sqid, cid := e.sqe.cid.toNat, status := status, nsid := e.sqe.nsid.toNat, target := e.ctrl
           slba := if e.sqid = 0 then 0 else e.sqe.slba }

/-- An error that ends command `t` with a status is taken by the handler, and its entry is the command's own (R754). -/
def takeCommandError (d : ErrorDraft) (serials : List Nat) (t status : Nat) (s : State) : State :=
  match s.nvme.tracker.find t with
  | some e =>
    if s.handlerOn && !s.yard && e.state != .done then
      onEntry t (fun e => { e with logged := true }) (takeError (commandDraft e status d) serials s)
    else takeError d serials s
  | none => takeError d serials s

/-- The command changes user data (R44): Write, Write Zeroes or Dataset Management. -/
def Entry.changes (e : Entry) : Bool :=
  e.sqid != 0 && (e.sqe.opcode == 0x01 || e.sqe.opcode == 0x08 || e.sqe.opcode == 0x09)

/-- A yard refuses the slices it has not admitted, naming the status (R723). -/
def refuseSlices (status : Nat) (s : State) : State :=
  each (s.keaka.slices.filter fun y => !y.admitted) (fun y => sendFrame 0x12 0 y.tag [1, status])
    { s with keaka.slices := s.keaka.slices.filter fun y => y.admitted }

/-- Commands that change user data and are not done end with a status, where `f` picks them (R330); the slices that a yard
has not admitted are refused with it. -/
def endWrites (status : Nat) (f : Entry → Bool) (s : State) : State :=
  let s := refuseSlices status s
  each ((s.nvme.tracker.filter fun p => p.2.changes && p.2.state != .done && f p.2).map Prod.fst)
    (fun t => failEntry t status 0) s

/-- No slice of the command has been admitted. -/
def Entry.unstarted (e : Entry) : Bool := e.slices.all fun x => !x.admitted

/-- End every command of a controller with no completion (R284, R285, R299, R308, R309). -/
def endCommands (c : Nat) (s : State) : State :=
  let l := (s.nvme.tracker.filter fun p => p.2.ctrl == c).map Prod.fst
  let s := each l (fun t s => endEntry t (abortOnYards t s)) s
  onCtrl c (fun k => { k with aer_requests := [] }) s

/-! ### Resets of a controller -/

/-- Registers and queues a Controller Reset returns to their reset values; AQA, ASQ, ACQ and CMBMSC keep theirs, as
do the error log (R753) and fatal status (R759). -/
def resetController (fatal : Bool) (k : Controller) : Controller :=
  { aqa := k.aqa, asq := k.asq, acq := k.acq, cmbmsc := k.cmbmsc, nssro := k.nssro, error_log := k.error_log,
    cfs := fatal, ns_changed := k.ns_changed, mi_changed := k.mi_changed }

/-- L1 (R309): commands end, queues are deleted, the power state requested becomes PS0 (R606). -/
def controllerReset (c : Nat) (s : State) : State :=
  let s := endCommands c s
  let fatal := s.evt.status.fatal
  let was := s.ctrl c
  let s := noteMi c (bitsOf [was.rdy, was.cfs != fatal, was.shst != 0] + (if was.en then Mi.ceco else 0))
    (onCtrl c (resetController fatal) s)
  dropRequest c s

/-- A reset of level L2 or deeper closes the session on its controller (R656). -/
def closeSession (c : Nat) (s : State) : State :=
  match s.security.session with
  | some x => if x.ctrl = c then { s with security.session := none } else s
  | none => s

/-- L2: the controller with every register (R178, R285). -/
def functionReset (c : Nat) (s : State) : State :=
  let s := closeSession c (controllerReset c s)
  onCtrl c (fun k => { k with aqa := 0, asq := 0, acq := 0, cmbmsc := 0 }) s

/-- Read tags of a port are quarantined until the timeout in force has passed (R280, R281). -/
def ctoMotes (p : Port) : Nat :=
  if p.cto_disable then 2 ^ 34
  else match p.cto_value with
    | 1 => nsToMotes 100000
    | 2 => nsToMotes 10000000
    | 5 => nsToMotes 55000000
    | 6 => nsToMotes 210000000
    | 9 => nsToMotes 900000000
    | 10 => nsToMotes 3500000000
    | 13 => nsToMotes 13000000000
    | 14 => nsToMotes 64000000000
    | _ => 2 ^ 26

/-- Index of the timer of tag `g` on port `n`. -/
def tagIdx (n g : Nat) : Nat := n * 16384 + g

/-- Tag mode that the enables of a port give (table "Tag modes"). -/
def tagMode (p : Port) : BitVec 2 := if p.tag14 then 3 else if p.tag10 then 2 else if p.tag_ext then 1 else 0

/-- The tag mode follows the enables while no read is outstanding (R279). -/
def refreshTagMode (n : Nat) (s : State) : State :=
  if (s.port n).tags.isEmpty then onPortStatus n (fun p => { p with tag_mode := tagMode (s.port n) }) s else s

/-- A request ends and its buffer space is freed. -/
def dropRead (n g : Nat) (s : State) : State :=
  let r := (s.port n).tags.find g
  let len := match r with | some r => r.remaining + r.position | none => 0
  let s := onPort n (fun p => { p with tags := p.tags.drop g }) s
  refreshTagMode n (disarm .tagTimeout (tagIdx n g) { s with ep.reserved := s.ep.reserved - len })

/-- A tag is quarantined (R281). -/
def quarantine (n g : Nat) (s : State) : State :=
  let left := match (s.port n).tags.find g with | some r => r.remaining | none => 0
  let s := onPort n (fun p => { p with quarantined := p.quarantined.put g left }) (dropRead n g s)
  arm .quarantine (tagIdx n g) (ctoMotes (s.port n)) s

/-- Every outstanding tag of a port is quarantined (R281, R283, R285). -/
def quarantineAll (n : Nat) (s : State) : State :=
  let s := each ((s.port n).tags.map Prod.fst) (quarantine n) s
  onPort n (fun p => { p with reads_waiting := [] }) s

/-- Every tag of a port is freed at once: no completion can arrive on a reset link (R299). -/
def freeTags (n : Nat) (s : State) : State :=
  let s := each ((s.port n).tags.map Prod.fst) (dropRead n) s
  let s := each (s.port n).quarantined (fun p => disarm .quarantine (tagIdx n p.1)) s
  onPort n (fun p => { p with quarantined := [], reads_waiting := [] }) s

end Sys2Proof.Machine
end

