-- ==== Sys2Proof/Machine/Geometry.lean ====
section
/-!
DEFINITION. Dies, blocks and addresses (R365, R366, R411 to R413, R496), NAND operations and the power ledger (R171
to R174, R550).
-/

namespace Sys2Proof.Machine

/-! ### Lists in order -/

/-- A list in rising order of a key. -/
def sortOn {α : Type} (f : α → Nat) (l : List α) : List α := l.foldl (fun r a => insertOn f a r) []

/-- Sum of a list of numbers. -/
def total (l : List Nat) : Nat := l.foldl (· + ·) 0

/-- The element of least key, the first of equals. -/
def leastOn {α : Type} (f : α → Nat) : List α → Option α
  | [] => none
  | a :: t => match leastOn f t with
    | some b => if f b < f a then some b else some a
    | none => some a

/-! ### Dies -/

/-- Channel of a die (R365). -/
def dieChannel (die : Nat) : Nat := die / 32

/-- NAND power pair of a die: pair p serves channels 6p to 6p + 5. -/
def diePair (die : Nat) : Nat := die / 192

/-- Byte of the CE map for a die (R496). -/
def ceByte (s : State) (die : Nat) : Nat := s.media.ce_map.getD (die / 4) 0

/-- The CE map declares the die (R496). -/
def State.declared (s : State) (die : Nat) : Bool := decide (die % 4 < ceByte s die % 8)

/-- Geometry of a die's part. -/
def State.geo (s : State) (die : Nat) : Geometry := s.media.geometry.getD (ceByte s die / 8 % 4) {}

/-- A die as redundancy control sees it. -/
def State.die (s : State) (d : Nat) : Die := s.redun.dies.look {} d

/-- Change a die. -/
def onDie (d : Nat) (f : Die → Die) (s : State) : State :=
  { s with redun.dies := s.redun.dies.put d (f (s.die d)) }

/-- A die awaits or undergoes rebuild (RED_STATUS). -/
def rebuildWaits (s : State) : Bool := s.redun.dies.vals.any fun d => d.state == 2 || d.state == 3

/-- Rebuild runs in this mode (R548). -/
def rebuildMode (s : State) : Bool := match s.mode with | .run => true | .reduced => true | _ => false

/-- The die is failed (table "Die states"). -/
def State.dieDown (s : State) (d : Nat) : Bool := (s.die d).state == 2 || (s.die d).state == 3 || (s.die d).state == 4

/-- The die's pair is powered and its channel is not failed. -/
def State.dieReachable (s : State) (d : Nat) : Bool :=
  ((s.power.pairs.look {} (diePair d)).phase == .discovered) && !s.ch.failed.getLsbD (dieChannel d)

/-- A usable die, but for room (R412, R499). -/
def State.usable (s : State) (d : Nat) : Bool :=
  s.declared d && ((s.die d).state == 0) && !(s.die d).becalmed && s.dieReachable d

/-- The dies of a channel. -/
def channelDies (c : Nat) : List Nat := (List.range 32).map fun i => 32 * c + i

/-- Usable dies of a channel. -/
def usableOn (s : State) (c : Nat) : List Nat := (channelDies c).filter s.usable

/-- Every usable die, in die order. -/
def usableDies (s : State) : List Nat := (List.range 48).flatMap (usableOn s)

/-! ### Blocks -/

/-- Units per block, U_b (R477). -/
def unitsPerBlock (g : Geometry) : Nat := g.pages * 4 * g.planes

/-! ### Physical unit addresses (R365, R366) -/

/-- Physical unit address of a unit. -/
def puaOf (die plane block page unit : Nat) : Nat := die * 2 ^ 27 + plane * 2 ^ 25 + block * 2 ^ 13 + page * 4 + unit

/-- Die of an address. -/
def puaDie (a : Nat) : Nat := a / 2 ^ 27

/-- Plane of an address. -/
def puaPlane (a : Nat) : Nat := a / 2 ^ 25 % 4

/-- Block of an address. -/
def puaBlock (a : Nat) : Nat := a / 2 ^ 13 % 4096

/-- Page of an address. -/
def puaPage (a : Nat) : Nat := a / 4 % 2048

/-- Unit within the page of an address. -/
def puaUnit (a : Nat) : Nat := a % 4

/-- Block key of an address. -/
def puaKey (a : Nat) : Nat := blockKey (puaDie a) (puaBlock a)

/-- Address of unit `k` of the reef slot whose base page is `page` (R366). -/
def slotUnit (planes die block page k : Nat) : Nat := puaOf die (k / 4 % planes) block (page + k / (4 * planes)) (k % 4)

/-- Address of unit `k` of the slot with base `b`. -/
def unitInSlot (s : State) (b k : Nat) : Nat := slotUnit (s.geo (puaDie b)).planes (puaDie b) (puaBlock b) (puaPage b) k

/-! ### Stripe shapes and places in a stripe (R407 to R413) -/

/-- The entry of a shape; an unused entry has no data members. -/
def State.shape (s : State) (i : Nat) : Shape := s.shroud.shapes.getD i { channels := 0, data := 0, parity := 1, slots := 1 }

/-- Width W. -/
def Shape.width (p : Shape) : Nat := p.data + p.parity

/-- Data units of a stripe of a shape (R413). -/
def Shape.units (p : Shape) : Nat := 16 * (p.data * p.slots - 2)

/-- Mapping update records that a stripe holds (R419). -/
def Shape.records (p : Shape) : Nat := (130944 - 32 * p.units) / 32

/-- Shape in force (R408). -/
def State.shapeNow (s : State) : Nat := s.str.status.shape.toNat

/-- Eligible channels of a shape with a usable die, ascending (R411). -/
def channelsOf (s : State) (p : Shape) : List Nat :=
  (List.range 48).filter fun c => p.channels.testBit c && !(usableOn s c).isEmpty

/-- Member position of a data slot (R413). -/
def slotMember (p : Shape) (j : Nat) : Nat := if p.data = 0 then 0 else j % p.data

/-- Address of unit index `u` of a stripe (R366, R409, R413). -/
def unitAddress (s : State) (st : Stripe) (u : Nat) : Nat :=
  let p := s.shape st.shape
  let j := u / 16
  let m := st.members.getD (slotMember p j) { die := 0, block := 0, page := 0 }
  let pl := (s.geo m.die).planes
  slotUnit pl m.die m.block (m.page + 4 * (if p.data = 0 then 0 else j / p.data) / pl) (u % 16)

/-- Address in member `m` of the frame at the position of unit index `u`: the member's own page, plane and unit. -/
def frameAddress (s : State) (st : Stripe) (m u : Nat) : Nat :=
  let p := s.shape st.shape
  match st.members[m]? with
  | some x =>
    let pl := (s.geo x.die).planes
    slotUnit pl x.die x.block (x.page + 4 * (if p.data = 0 then 0 else u / 16 / p.data) / pl) (u % 16)
  | none => 0

/-- Unit indexes of a stripe that lie on member position `m`. -/
def memberUnits (s : State) (st : Stripe) (m : Nat) : List Nat :=
  (List.range st.units.length).filter fun u => slotMember (s.shape st.shape) (u / 16) == m

/-- The stripe that holds a physical address: its serial and unit index. -/
def stripeAt (s : State) (a : Nat) : Option (Nat × Nat) :=
  s.shroud.stripes.findSome? fun p =>
    if p.2.members.any (fun m => m.die == puaDie a && m.block == puaBlock a) then
      ((List.range p.2.units.length).find? fun u => unitAddress s p.2 u == a).map fun u => (p.1, u)
    else none

/-! ### NAND operations -/

/-- Enter an operation in its channel queue, waiting at the ledger (R39). -/
def addOp (o : NandOp) (s : State) : State :=
  { s with media.ops := s.media.ops.put s.media.op_next o, media.op_next := s.media.op_next + 1 }

/-- A LUN. -/
def State.lun (s : State) (d : Nat) : Lun := s.media.luns.look {} d

/-- Change a LUN. -/
def onLun (d : Nat) (f : Lun → Lun) (s : State) : State := { s with media.luns := s.media.luns.put d (f (s.lun d)) }

/-! ### The ledger (R171 to R174) -/

/-- Charge of a kind of operation (table "Ledger charges"). -/
def chargeOf (s : State) (k : LedgerKind) : Nat :=
  match k with
  | .read => s.pwr.opChargeA.read_mw.toNat
  | .program => s.pwr.opChargeA.program_mw.toNat
  | .erase => s.pwr.opChargeB.erase_mw.toNat

/-- Charge an operation holds (R171, R172): while its data crosses the channel into a decoder, the transfer charge. A read that a merged read carries holds none (R503). -/
def heldCharge (s : State) (o : NandOp) : Nat :=
  if o.merged.isSome then 0
  else match o.state with
    | .waiting => 0
    | .decoding => if o.decoder then s.pwr.opChargeB.transfer_mw.toNat else 0
    | .suspended => s.pwr.opChargeC.toNat
    | .resuming => s.pwr.opChargeC.toNat
    | _ => chargeOf s o.kind

/-- The admitted total (R171). -/
def admittedTotal (s : State) : Nat := total (s.media.ops.vals.map (heldCharge s))

/-- What an operation asks the ledger for: its charge, or the difference for a resume (R172). -/
def askedCharge (s : State) (o : NandOp) : Option Nat :=
  match o.state with
  | .waiting => some (chargeOf s o.kind)
  | .resuming => some (chargeOf s o.kind - s.pwr.opChargeC.toNat)
  | _ => none

/-- The operation is a rebuild read. -/
def NandOp.forRebuild (o : NandOp) : Bool :=
  match o.owner with
  | .rebuild _ _ => true
  | _ => false

/-- A rebuild read fits the rebuild share (R550); any other operation has no share of its own. -/
def withinShare (s : State) (o : NandOp) : Bool :=
  !o.forRebuild ||
    decide (16 * (total ((s.media.ops.vals.filter NandOp.forRebuild).map (heldCharge s)) + chargeOf s o.kind)
      ≤ s.red.cfg.rebuild_share.toNat * (capInForce s).1)

/-- Operations waiting at the ledger, oldest first (R38, R173, R174). -/
def ledgerQueue (s : State) : List Nat :=
  (sortOn (fun p : Nat × NandOp => p.2.stamp)
    (s.media.ops.filter fun p => (askedCharge s p.2).isSome && withinShare s p.2)).map Prod.fst

/-- An operation is admitted: a resume begins at the die, any other waits for its LUN. -/
def admitOp (i : Nat) (s : State) : State :=
  let s := { s with media.ceiling := if s.media.ceiling = some i then none else s.media.ceiling }
  match s.op i with
  | none => s
  | some o => match o.state with
    | .resuming =>
      let h := s.run
      onLun o.die (fun l => { l with running := some i, suspended := none, susp_reads := 0 })
        (onOp i (fun o => { o with state := .running, run_from := h }) s)
    | _ => onOp i (fun o => { o with state := .admitted }) s

/-- Test one waiting operation: the oldest is admitted whatever its charge when the total is 0 (R173). -/
def tryAdmit (i : Nat) (s : State) : State :=
  match s.op i with
  | none => s
  | some o => match askedCharge s o with
    | none => s
    | some w =>
      if !withinShare s o then s
      else if admittedTotal s + w ≤ (capInForce s).1 then admitOp i s
      else if admittedTotal s = 0 then admitOp i { s with pwr.ledger.floor_admit := true }
      else s

/-- NAND operations begin: MEDIA is released, in a mode that runs them, with no L4, Flush, spill or Thermal Halt entry in
progress (R49, R166, R186). -/
def State.mediaOn (s : State) : Bool :=
  !s.isHeld .media && s.reset_ctl.sequence.isNone && s.thermal.entry.isNone && s.shroud.spill.isNone
    && (match s.mode with | .hold => false | .flush => false | .thermalHalt => false | _ => true)

/-- One pass of the ledger (R173): every waiting operation that fits; past the starvation ceiling only the oldest. -/
def ledgerPass (s : State) : State :=
  if !s.mediaOn then s
  else match s.media.ceiling with
    | some i =>
      let t := tryAdmit i s
      if t.media.ceiling = some i then t else each (ledgerQueue t) tryAdmit t
    | none => each (ledgerQueue s) tryAdmit s

/-! ### Decoders (R516) -/

/-- The read is speculative and not confirmed. -/
def NandOp.unconfirmed (o : NandOp) : Bool :=
  match o.owner with
  | .speculative _ _ _ => true
  | _ => false

/-- A sensed read waits for a decoder; one not yet confirmed is decoded at its first level alone (R393). -/
def NandOp.wantsDecoder (o : NandOp) : Bool :=
  o.state == .decoding && !o.decoder && !o.pending.isEmpty && !(o.unconfirmed && o.best.isSome)

/-- `n` decoders serve the operations of a kind, in admission-stamp order; one is held until its decode completes. -/
def grantFrom (n : Nat) (f : NandOp → Bool) (s : State) : State :=
  let held := (s.media.ops.vals.filter fun o => f o && o.state == .decoding && o.decoder).length
  let next := (sortOn (fun p : Nat × NandOp => p.2.stamp) (s.media.ops.filter fun p => f p.2 && p.2.wantsDecoder)).take (n - held)
  each (next.map Prod.fst) (fun i => onOp i fun o => { o with decoder := true }) s

/-- A channel trains or retrains: no new data crosses its bus (R500, R508). -/
def retraining (s : State) (c : Nat) : Bool := (s.media.channels.look {} c).training.isSome

/-- Two hard decoders of each channel, and eight soft ones that all channels share (R516). -/
def grantDecoders (s : State) : State :=
  let l := s.media.ops.vals.filter fun o => o.wantsDecoder && !retraining s (dieChannel o.die)
  if l.isEmpty then s
  else grantFrom 8 (fun o => o.soft && !retraining s (dieChannel o.die)) (each ((l.map fun o => dieChannel o.die).eraseDups) (fun c =>
    grantFrom 2 fun o => !o.soft && dieChannel o.die == c) s)

/-- Operations stop (Flush steps 3 and 4, L4 step 1, Thermal Halt entry): what waits is cancelled, reads and programs at a
die complete, a suspended program resumes at once, and erases are abandoned and their blocks erased again before use
(R166, R186, R188, R514). -/
def haltMedia (s : State) : State :=
  let program := fun (o : NandOp) => match o.kind with | .program => true | _ => false
  let held := fun (o : NandOp) => program o && (o.state == .suspended || o.state == .resuming || o.state == .suspending)
  let stays := fun (o : NandOp) => o.kind != .erase && (o.state == .running || held o)
  let erased := s.media.ops.vals.filter fun o => o.kind == .erase && o.state != .waiting && o.state != .admitted
  let h := s.run
  let s := { s with
    media.ops := Tab.over (fun _ o => if held o then { o with state := .running, run_from := h } else o)
      (s.media.ops.filter fun p => stays p.2)
    media.ceiling := none
    media.luns := s.media.luns.over fun _ l =>
      let kept := fun (i : Option Nat) => i.filter fun j => (s.media.ops.find j).any stays
      { l with running := (kept l.suspended).or (kept l.running), suspended := none } }
  each erased (fun o => onBlock (blockKey o.die o.block) fun b => { b with state := .released }) s

end Sys2Proof.Machine
end

