-- ==== Sys2Proof/Machine/Resets.lean ====
section
/-!
DEFINITION. Resets (chapter 5): sources and their levels, what each level does to the state, the L4 assertion
sequence, deferral, clock gating of domains, and watchdogs.
-/

namespace Sys2Proof.Machine

/-! ### What a reset leaves (R24, R48, R178, R764) -/

/-- Domains held after a reset of level L4 or L5: all but RET and AO, or all (R178, R179). -/
def heldAfter (all : Bool) : BitVec 11 := if all then 0x7FF else 0x7FC

/-- What a reset leaves of the Shroud, stripes and stays: with DRAM kept the Shroud stays; else a stripe whose commit record
was in the Shroud's journal only is no longer shown committed. -/
def keepShroud (dram : Bool) (b : StripeBuilder) : StripeBuilder :=
  let lost := fun (n : Nat) => !dram && b.journal.any fun r =>
    (r.type == 1 || r.type == 2) && r.serial == n && !r.durable0 && !r.durable1
  { shapes := [], serial := b.serial, pair_gen := b.pair_gen, page_seq := b.page_seq
    stripes := b.stripes.over fun n st => if lost n then { st with state := .programming, applied := false } else st
    journal := if dram then b.journal else b.journal.filter fun r => r.durable0 || r.durable1,
    journal_seq := b.journal_seq, held := if dram then b.held else [], records := if dram then b.records else [],
    header_reserve := if dram then b.header_reserve else 0, start_gen := if dram then b.start_gen else 0,
    clean_sr := dram, stay0 := b.stay0, stay1 := b.stay1, images := b.images, sets := b.sets }

/-- A pulse that a reset cuts: a flag cell being programmed no longer reads firmly 1, and a place of a nonce copy is used
(R200, R207, R255). -/
def cutPulse (b : BootArray) : BootArray :=
  match b.pulsing, b.current.bind fun q => q.ops[b.done]? with
  | true, some (.flagProgram k) => { b with flags := b.flags.put k false }
  | true, some (.slotFlagProgram true) => { b with slot_flag_b := false }
  | true, some (.slotFlagProgram false) => { b with slot_flag_a := false }
  | true, some (.nonceProgram true place _) => { b with nonce_b.next := place + 1 }
  | true, some (.nonceProgram false place _) => { b with nonce_a.next := place + 1 }
  | _, _ => b

/-- What the boot array keeps: everything but requests, staging and what is in instruction memory. -/
def keepBoot (b : BootArray) : BootArray :=
  let b := cutPulse b
  { b with load_failed_a := false, load_failed_b := false, running := [], queue := [], current := none, pulsing := false, pulses := 0, done := 0, update := none, fw_staging := [], fw_length := 0 }

/-- Reports a yard still has for the masthead (R737). -/
def waitingReports (s : State) : List KkFrame :=
  if s.yard then s.keaka.forwards ++ s.keaka.link0.replay.filter fun f => f.type == 0x38 else []

/-- A controller after an L4 or L5: CSTS.NSSRO is 1 after an NVM Subsystem Reset, until it is cleared or power goes, as the
standard defines. -/
def afterSubsystemReset (ret : Bool) (asserted : BitVec 16) (k : Controller) : Controller :=
  let now := asserted.getLsbD 5 || asserted.getLsbD 6
  { nssro := !ret && (k.nssro || now), mi_changed := if !ret && now then markPaths Mi.nssro [] else [] }

/-- The device after the reach of an L4 or L5 has asserted.  `l5` also loses what power keeps; `dram` says that the
DRAM contents are kept; `ret` that RET and AO are reached too (R178, R179). -/
def afterReset (ret dram : Bool) (s : State) : State :=
  { State.reset with
    pending := s.pending
    out := s.out
    mgmt := { deviceId := s.mgmt.deviceId }
    pad := { s.pad with strapStatus.strap_changed := s.pad.strapStatus.strap_changed && !ret }
    pads := if ret then { present := s.pads.present, sampled := s.pads.sampled } else { s.pads with mi_config := [], mi_composite := if s.reset_ctl.asserted.getLsbD 5 || s.reset_ctl.asserted.getLsbD 6 then markPaths Mi.nssro [] else [] }
    pwr := if ret then { pairStatus := { npg := s.pwr.pairStatus.npg } }
           else { status := s.pwr.status, measure := s.pwr.measure, bankCap := s.pwr.bankCap, shroudAllow := s.pwr.shroudAllow,
                  flushLast := s.pwr.flushLast, pairStatus := { npg := s.pwr.pairStatus.npg } }
    rst := if ret then {} else { cause := s.rst.cause, last := s.rst.last, lastStamp := s.rst.lastStamp }
    ba := { status := { nonce_epoch := s.ba.status.nonce_epoch } }
    thm := { oscComp := { t0 := s.thm.oscComp.t0, a2 := s.thm.oscComp.a2, a1 := s.thm.oscComp.a1 } }
    timers := if ret then [] else (s.timers.filter fun t => t.kind == .bankTest || t.kind == .bankMeasure).map fun t =>
      { t with deadline := t.deadline - s.h }
    reset_ctl := { retention := if ret then {} else s.reset_ctl.retention
                   asserted := s.reset_ctl.asserted
                   since_record := if ret then 0 else s.reset_ctl.since_record
                   held := heldAfter ret
                   deferred := if ret then none else s.reset_ctl.deferred
                   deferred_causes := if ret then 0 else s.reset_ctl.deferred_causes
                   dram_kept := dram
                   shroud_gone := s.reset_ctl.shroud_gone }
    power := if ret then {} else { s.power with
      pairs := [], next_pair := none, charge_expired := false, dram_rails := false, vin_returned := false }
    boot := keepBoot s.boot
    keaka := { forwards := if ret then [] else waitingReports s }
    nvme := { ctrl0 := afterSubsystemReset ret (s.reset_ctl.asserted) s.nvme.ctrl0
              ctrl1 := afterSubsystemReset ret (s.reset_ctl.asserted) s.nvme.ctrl1
              namespaces := s.nvme.namespaces.over fun _ n => { n with reservation := {}, closing := none }
              clean := s.nvme.clean
              error_count := s.nvme.error_count }
    engine := { complete := s.engine.complete, formatted := s.engine.formatted, full_scan := s.engine.full_scan }
    shroud := keepShroud dram s.shroud
    reclaim := { blocks := s.reclaim.blocks.over fun _ b => { b with inflight := 0, reads := 0, valid := 0, queued := none }
                 flash := s.reclaim.flash
                 formatted := s.reclaim.formatted
                 initial := s.reclaim.initial
                 wear_erases := s.reclaim.wear_erases
                 wear_snaps := s.reclaim.wear_snaps, wear_stamp := s.reclaim.wear_stamp, wear_pe := s.reclaim.wear_pe }
    redun := { page := s.redun.page
               dies := s.redun.dies.over fun _ d => { d with becalmed := false, timeouts := [], calm := 0 }
               rescuing := s.redun.rescuing.map fun r => { r with marked := 0 } }
    health := { counts := s.health.counts, page := s.health.page, page_seq := s.health.page_seq,
                page_stamp := s.health.page_stamp }
    security := { store := (s.security.durable.getD {}), durable := s.security.durable, store_seq := s.security.store_seq, store_stamp := s.security.store_stamp,
                  keys_drawn := s.security.keys_drawn, datastore := s.security.datastore } }

/-! ### Sources (R182 to R185) -/

/-- A source asserts: its bit of RST_CAUSE, and the sources since the last reset-cause record (R183). -/
def recordSource (code : Nat) (s : State) : State :=
  { s with
    rst.cause := setBit s.rst.cause code true
    reset_ctl.asserted := setBit s.reset_ctl.asserted code true
    reset_ctl.since_record := setBit s.reset_ctl.since_record code true }

/-- RST_LAST of a governing source, with its arrival stamp (R183, R223). -/
def noteGoverning (a : Arrival) (level : Nat) (s : State) : State :=
  { s with
    rst.last := { stamp_unanch := a.stamp.unanch, mode_at := BitVec.ofNat 4 a.mode_at.code, deferred := a.deferred,
                  level := BitVec.ofNat 3 level, source := BitVec.ofNat 4 a.code }
    rst.lastStamp := a.stamp.stamp }

/-- An L4 or L5 that arrives where it waits: the first is kept with its stamp (R185). -/
def deferReset (a : Arrival) (s : State) : State :=
  { s with
    reset_ctl.deferred := some (s.reset_ctl.deferred.getD { a with deferred := true })
    reset_ctl.deferred_causes := setBit s.reset_ctl.deferred_causes a.code true }

/-- Whether DRAM holds a Shroud that must be kept when a reset arrives in a mode: an operating mode, a Start that found
one, or that has replayed one (R48, R222). -/
def keepsDram (m : Mode) (s : State) : Bool :=
  match m with
  | .run => true
  | .reduced => true
  | .patrol => true
  | .readOnly => true
  | .start => s.reset_ctl.dram_kept || decide (14 ≤ s.reset_ctl.start_step)
  | .thermalHalt => s.reset_ctl.dram_kept
  | _ => false

/-- An L4 begins its assertion steps (R186): NAND operations and fetching stop, an entry or return in progress is abandoned
(R55). -/
def beginL4 (a : Arrival) (s : State) : State :=
  arm .l4Bound 0 (2 ^ 23) { noteGoverning a 4 (haltMedia s) with
    reset_ctl.sequence := some a
    power_states.handshake := none
    power_states.returning := none
    nvme.ctrl0.fetch_stopped := true
    nvme.ctrl1.fetch_stopped := true }

/-- A Thermal Halt entry that began in this same mote gives way to a reset, which R54 puts before the threshold. -/
def resetFirst (s : State) : State :=
  if s.thermal.entry.isSome && s.thermal.entry_at == s.run then
    { s with thermal.entry := none, thermal.halt := none, shroud.spill := none }
  else s

/-- An L4 source as it arrived (R50, R52, R54, R184, R185, R585).  One that joins the steps in progress governs where its
code is lower (R183).  In Hold, with the reach of an L4 held already, it is recorded only and the governing source stays:
the spec does not say whether a lower code then governs (DESIGN CHOICE, log entry 94). -/
def actL4 (a : Arrival) (s : State) : State :=
  let s := resetFirst s
  if s.thermal.entry.isSome || s.shroud.spill.isSome then deferReset a s
  else match s.mode with
    | .hold => s
    | .flush => deferReset a s
    | .thermalHalt =>
      let m := (composite s).1
      if m < ((s.thm.thresh.warn.toNat : Int) - s.thm.thresh.hyst.toNat) * 2 ^ 32 then
        beginL4 a { s with reset_ctl.retention.th_clear := some (m / 2 ^ 24, a.stamp) }
      else s
    | _ =>
      match s.reset_ctl.sequence with
      | some q => if a.code < q.code then noteGoverning a 4 { s with reset_ctl.sequence := some a } else s
      | none => beginL4 a s

/-- L3 on port `n` (R178, R299): the controller as by L2, the port with its tags, MSI-X and link; the windows it owns
return to their reset value once what they received has retired (R293, R299). -/
def resetPort (n : Nat) (s : State) : State :=
  let fenced := (List.range 16).filter fun k => s.ep.fences.has k && (s.window k).port == (n == 1)
  let before := s.out
  let s := each fenced (fun k => retireFences k ((s.ep.cmb_waiting.look [] k).length + 1)) s
  let lost := fun (m : HostMsg) => match m with | .readData p _ _ => p == n | _ => false
  let s := { s with out := before ++ (s.out.drop before.length).filter fun m => !lost m }
  let s := functionReset n s
  let s := freeTags n s
  let s := onPort n (fun _ => {}) s
  let s := onPortStatus n (fun _ => {}) s
  let owned := (List.range 16).filter fun k => (s.pcie.cmbWin.look (cmbWinDefault s k) k).port == (n == 1)
  let s := each owned (fun k s => { s with pcie.cmbWin := s.pcie.cmbWin.drop k }) s
  let s := if n = 0 then { s with pcie.msixExt := false } else s
  if s.time.dialog = some n then failDialog s else s

/-- Domains PORTn and CTRLn. -/
def portDomains (n : Nat) : BitVec 11 := if n = 0 then 0x140 else 0x280

/-- A source shallower than L4 acts where the mode keeps a link to reset (R299); in Flush, Hold and Thermal Halt, and while
an L4 asserts, it is recorded only (R184, R222). -/
def State.shallowActs (s : State) : Bool :=
  s.reset_ctl.sequence.isNone && (match s.mode with | .hold => false | .flush => false | .thermalHalt => false | _ => true)

/-- An L3 on port `n`. -/
def actL3 (n : Nat) (s : State) : State :=
  if !s.shallowActs then s
  else resetPort n { s with reset_ctl.held := s.reset_ctl.held ||| portDomains n }

/-- A source of level L4 or less asserts (R183 to R185). -/
def assertSource (code : Nat) (s : State) : State :=
  let level := levelOf s code
  let (st, s) := takeStamp s
  let s := raise (src 0 1) 0 [] (recordSource code s)
  let port := if code % 2 = 1 then 1 else 0
  match level with
  | 4 => actL4 { code := code, stamp := st, mode_at := s.mode } s
  | 3 => actL3 (if code = 0x3 then 0 else if code = 0x4 then 1 else if code = 0xA then 0 else 1) s
  | 2 => s
  | 1 => if s.reset_ctl.sequence.isSome then s else controllerReset port s
  | _ => s

/-- Source 0x0 or 0x1 asserts: an L5 that reaches RET and AO too (R179, R223). -/
def powerOn (code : Nat) (s : State) : State :=
  { afterReset true false s with
    rst.cause := BitVec.ofNat 16 (2 ^ code)
    rst.last := { source := BitVec.ofNat 4 code }
    reset_ctl.since_record := BitVec.ofNat 16 (2 ^ code) }

/-- Source 0x2 asserts, an L5 that leaves RET and AO (R179, R184, R189): the reach at once, with DRAM kept where its rails
stay good (R170); the rails come up again from step 3. -/
def assertL5 (a : Arrival) (dram : Bool) (s : State) : State :=
  let s := afterReset false dram (recordSource a.code s)
  noteGoverning a 5 { s with power.por := true, power.rail_step := 2 }

/-! ### The L4 assertion steps (R186) -/

/-- Reads and programs at a die have completed, and no boot-array pulse is in progress (steps 2 and 3). -/
def safePoint (s : State) : Bool :=
  !s.boot.pulsing && s.media.ops.vals.all fun o =>
    match o.kind with
    | .erase => true
    | _ => !(o.state == .running || o.state == .decoding)

/-- L4_REACH_ASSERTED (R186 to R188): at the safe point, or when the bound has passed. -/
def execL4ReachAsserted (s : State) : Host.Outcome State Fault Refusal :=
  match s.reset_ctl.sequence with
  | none => .next s
  | some q =>
    if safePoint s || s.due .l4Bound 0 then
      .next { afterReset false (keepsDram q.mode_at s) s with rst.clkStatus.not_ready_count := s.rst.clkStatus.not_ready_count }
    else .next s

/-! ### Commands that assert a source -/

/-- PERST0_ASSERT (R179): L4, or L3 on port 0 in x8+x8. -/
def execPerst0Assert (s : State) : Host.Outcome State Fault Refusal := .next (assertSource 0x3 s)

/-- PERST1_ASSERT (R179): L3 on port 1 in x8+x8, recorded only otherwise. -/
def execPerst1Assert (s : State) : Host.Outcome State Fault Refusal := .next (assertSource 0x4 s)

/-- NVM_SUBSYSTEM_RESET (R179): the host writes NSSR; a value other than "NVMe" has no effect, as the NVM Express
Base Specification defines; CSTS.NSSRO is 1 after the reset (afterReset). -/
def execNvmSubsystemReset (ctrl : Nat) (value : BitVec 32) (s : State) : Host.Outcome State Fault Refusal :=
  .next (memoryWrite ctrl (fun s => if value == 0x4E564D65 then
    assertSource 0x5 s else s) s)

/-- KL0_RST_ASSERT (R181): source 0x7, on a yard. -/
def execKl0RstAssert (s : State) : Host.Outcome State Fault Refusal := .next (assertSource 0x7 s)

/-- NVME_MI_SUBSYSTEM_RESET (R179, R597): on a sideband port, which serves in every mode except Hold. -/
def execNvmeMiSubsystemReset (port : Nat) (s : State) : Host.Outcome State Fault Refusal :=
  match s.mode with
  | .hold => .next s
  | _ => if port < 2 then .next (assertSource 0x6 (say (.miResponse port 0 []) s)) else .next s

/-! ### Clock gating (R190 to R193) -/

/-- Codes of the sources that reach a domain, with the reach in force (R178, R179). -/
def sourcesReaching (s : State) (d : Domain) : List Nat :=
  (List.range 16).filter fun c => match levelOf s c with
    | 5 => c ≤ 1 || !(d == .ret || d == .ao)
    | 4 => !(d == .ret || d == .ao)
    | 3 => if c == 0x4 || c == 0xB then d == .port1 || d == .ctrl1 else d == .port0 || d == .ctrl0
    | 2 => if c == 0xD then d == .ctrl1 else d == .ctrl0
    | 1 => if c == 0xF then d == .ctrl1 else d == .ctrl0
    | _ => false

/-- Release a domain: every source that reaches it is released, and its clock-good has been high long enough (R182,
R190). -/
def releaseDomain (d : Domain) (s : State) : State :=
  { s with
    reset_ctl.asserted := (sourcesReaching s d).foldl (fun b c => setBit b c false) s.reset_ctl.asserted
    reset_ctl.held := setBit s.reset_ctl.held d.num false
    reset_ctl.clock_good := setBit s.reset_ctl.clock_good d.num true }

/-- The release window of a domain has passed since its clock-good last dropped in it (R190, R191). -/
def windowPassed (d : Domain) (s : State) : Bool :=
  match s.reset_ctl.not_ready.find d.num with
  | some t => decide (t + 2 ^ 10 ≤ s.run)
  | none => true

/-- DOMAIN_RELEASE (R182, R190, R191): the last source that reaches the domain is released, and its clock-good window has
passed; any domain but MGMT, whose release ends Hold; CTRLn follows PORTn. -/
def execDomainRelease (d : Domain) (s : State) : Host.Outcome State Fault Refusal :=
  match s.mode with
  | .hold => .next s
  | _ =>
    if s.reset_ctl.sequence.isSome || !windowPassed d s then .next s
    else match d with
      | .mgmt => .next s
      | .port0 => .next (releaseDomain .ctrl0 (releaseDomain .port0 s))
      | .port1 => .next (releaseDomain .ctrl1 (releaseDomain .port1 s))
      | d => .next (releaseDomain d s)

/-- CLOCK_NOT_READY (R191): in the release window of a held domain, which then begins again. -/
def execClockNotReady (d : Domain) (s : State) : Host.Outcome State Fault Refusal :=
  if s.isHeld d then
    .next (raise (src 0 2) d.clock [] { s with
      reset_ctl.clock_good := setBit s.reset_ctl.clock_good d.num false
      reset_ctl.not_ready := s.reset_ctl.not_ready.put d.num s.run
      rst.clkStatus.not_ready_count := satAdd s.rst.clkStatus.not_ready_count 1 })
  else .next s

/-- CLOCK_LOSS (R192): source 0x9, at L4, or at L3 when the domain is PORTn; RET and AO have no clock-good. -/
def execClockLoss (d : Domain) (s : State) : Host.Outcome State Fault Refusal :=
  if s.isHeld d then .next s
  else
    let t := { s with reset_ctl.clock_good := setBit s.reset_ctl.clock_good d.num false }
    match d with
    | .ret => .next s
    | .ao => .next s
    | .port0 => .next (actL3 0 (raise (src 0 1) 0 [] (recordSource 9 t)))
    | .port1 => .next (actL3 1 (raise (src 0 1) 0 [] (recordSource 9 t)))
    | _ => .next (assertSource 9 t)

/-- PLL_LOCK_RETRY (R193): the switch of a core domain to its loop is tried again every 2^20 motes; after 2^26 motes
source 0x9 is raised. -/
def execPllLockRetry (d : Domain) (locked : Bool) (s : State) : Host.Outcome State Fault Refusal :=
  if s.due .pllRetry d.num then
    if locked then
      let s := disarm .pllLimit d.num (disarm .pllRetry d.num s)
      .next { s with reset_ctl.core_loops := !s.timers.any fun t => t.kind == .pllRetry }
    else if s.due .pllLimit d.num then
      .next (assertSource 9 (disarm .pllLimit d.num (disarm .pllRetry d.num s)))
    else .next (arm .pllRetry d.num (2 ^ 20) s)
  else .next s

/-! ### Watchdogs (R194, R195) -/

/-- Watchdogs run in this mode (R194); in Start they start at step 6. -/
def State.watchdogs (s : State) : Bool :=
  match s.mode with
  | .hold => false
  | .flush => false
  | .start => decide (6 < s.reset_ctl.start_step)
  | _ => true

/-- The watchdog timeout has passed since a count of oscillator cycles (R194): a cycle is 2^32 / (4 × 10^8) motes. -/
def State.timedOut (s : State) (since : Nat) : Bool :=
  decide (s.rst.wdtTimeout.toNat * (4 * 10 ^ 8) ≤ (s.reset_ctl.cycles - since) * 2 ^ 32)

/-- WATCHDOG_STAGE1 (R194, R195): the count of a core's watchdog reaches the timeout since it started, or since an earlier
stage 1 after which firmware restarted it; a watchdog event and an error-log entry naming the core. -/
def execWatchdogStage1 (core : Nat) (s : State) : Host.Outcome State Fault Refusal :=
  if s.watchdogs && decide (core < 44) && s.timedOut (s.reset_ctl.wdt_stage1.look s.reset_ctl.wdt_start core) then
    let s := { s with
      reset_ctl.wdt_stage1 := s.reset_ctl.wdt_stage1.put core s.reset_ctl.cycles
      rst.wdtStatus := { stage1_count := satAdd s.rst.wdtStatus.stage1_count 1, stage1 := true, core := BitVec.ofNat 6 core } }
    .next (takeError { source := src 0 3, kind := 7, detail := core } [] s)
  else .next s

/-- WATCHDOG_STAGE2 (R195): a second timeout has passed since stage 1 of the core's watchdog. -/
def execWatchdogStage2 (core : Nat) (s : State) : Host.Outcome State Fault Refusal :=
  match s.reset_ctl.wdt_stage1.find core with
  | some t => if s.watchdogs && s.timedOut t then .next (assertSource 8 s) else .next s
  | none => .next s

end Sys2Proof.Machine
end

