-- ==== Sys2Proof/Machine/MapOps.lean ====
section
/-!
DEFINITION. The mapping table (R360 to R381): entries, coarse and fine reefs, changes, valid counts, the paged cache and
the map-page directory, and the index of held units and records by which a read is resolved (R332, R381, R699).
-/

namespace Sys2Proof.Machine

/-! ### Units and chunks (R360 to R363) -/

/-- Units of a chunk. -/
def chunkUnits : Nat := 2 ^ 18

/-- Number of chunks C (R361). -/
def chunkCount (s : State) : Nat := s.map.capacityGb.toNat * 10 ^ 9 / 2 ^ 30

/-- Reef entries of the table. -/
def reefCount (s : State) : Nat := chunkCount s * (chunkUnits / 16)

/-- Chunk of a namespace's chunk ordinal. -/
def chunkOf (s : State) (ns ordinal : Nat) : Option Nat :=
  (s.engine.chunks.find? fun p => p.2.1 == ns && p.2.2 == ordinal).map Prod.fst

/-- Devices of the cascade (R704). -/
def deviceCount (s : State) : Nat := s.kk.cfg.count.toNat + 1

/-- The device that holds unit `u` of a namespace (table "Layouts"). -/
def deviceOf (s : State) (ns u : Nat) : Nat :=
  match s.kk.cfg.layout.toNat with
  | 0 => 0
  | 1 => u / 256 % deviceCount s
  | 2 => match s.nvme.namespaces.find ns with
    | some n => n.placed.getD (u / chunkUnits) 0
    | none => 0
  | _ => match s.nvme.namespaces.find ns with
    | some n => n.home
    | none => 0

/-- Device unit offset of unit `u` (table "Layouts"). -/
def deviceUnit (s : State) (u : Nat) : Nat :=
  if s.kk.cfg.layout = 1 then u / (256 * deviceCount s) * 256 + u % 256 else u

/-- The unit of a namespace that this device holds at a device unit offset. -/
def unitOfDevice (s : State) (d : Nat) : Nat :=
  if s.kk.cfg.layout = 1 then d / 256 * (256 * deviceCount s) + s.position * 256 + d % 256 else d

/-- Global unit index of a namespace's unit on this device (R362, R709). -/
def globalUnit (s : State) (ns u : Nat) : Option Nat :=
  let d := deviceUnit s u
  (chunkOf s ns (d / chunkUnits)).map fun c => c * chunkUnits + d % chunkUnits

/-- Namespace index and unit offset of a global unit index. -/
def namespaceUnit (s : State) (g : Nat) : Option (Nat × Nat) :=
  (s.engine.chunks.find (g / chunkUnits)).map fun p => (p.1, unitOfDevice s (p.2 * chunkUnits + g % chunkUnits))

/-- A record takes a place in the record area (R424). -/
def placeRecord (m : MapRecord) (s : State) : MapRecord × State :=
  let m := { m with slot := freeRecordSlot s, ns_unit := (namespaceUnit s m.first).map Prod.snd }
  (m, { s with shroud.records := s.shroud.records ++ [m], nvme.clean := false })

/-- Hold a mapping update record, with its entry in the write-buffer index (R381, R685). -/
def holdMapRecord (m : MapRecord) (s : State) : State :=
  let (m, s) := placeRecord m s
  match m.entry with
  | some e => tslOrdered e s
  | none => s

/-- Assignable chunks that are free, in order (R361), at most `n` of them. -/
def freeChunks (s : State) (n : Nat) : List Nat :=
  ((List.range (s.engine.chunks.length + n)).filter fun c => decide (c + 1 < chunkCount s) && !s.engine.chunks.has c).take n

/-! ### Entries -/

/-- Entry of a unit. -/
def entryOf (s : State) (g : Nat) : Loc :=
  match s.engine.table.find (g / 16) with
  | none => .unmapped
  | some (.coarse (.flash b)) => .flash (unitInSlot s b (g % 16))
  | some (.coarse l) => l
  | some (.fine _ l) => l.getD (g % 16) .unmapped

/-- The 16 entries of a reef. -/
def reefEntries (s : State) (r : Nat) : List Loc := (List.range 16).map fun k => entryOf s (16 * r + k)

/-- Fine-table indexes in use. -/
def fineUsed (s : State) : List Nat :=
  s.engine.table.filterMap fun p => match p.2 with
    | .fine i _ => some i
    | .coarse _ => none

/-- Free fine tables. -/
def fineFree (s : State) : Nat := s.map.fineMax.toNat - (fineUsed s).length

/-- Lowest fine-table index not in use. -/
def nextFine (s : State) : Nat :=
  let used := fineUsed s
  ((List.range (used.length + 1)).find? fun i => !used.contains i).getD 0

/-- All 16 entries lie in one reef slot: its base. -/
def oneSlot (s : State) (l : List Loc) : Option Nat :=
  match l with
  | .flash b :: _ =>
    if puaPlane b = 0 ∧ puaUnit b = 0 ∧ l = (List.range 16).map (fun k => Loc.flash (unitInSlot s b k)) then some b else none
  | _ => none

/-- All 16 entries are the same unmapped or unreadable entry. -/
def oneKind (l : List Loc) : Option Loc :=
  match l with
  | .flash _ :: _ => none
  | e :: _ => if l.all fun x => x == e then some e else none
  | [] => none

/-- The reef that holds 16 entries, keeping a fine table it has (R368, R369). -/
def reefOf (s : State) (r : Nat) (l : List Loc) : Reef :=
  match oneSlot s l, oneKind l with
  | some b, _ => .coarse (.flash b)
  | none, some e => .coarse e
  | none, none => match s.engine.table.find r with
    | some (.fine i _) => .fine i l
    | _ => .fine (nextFine s) l

/-! ### Paged mode (R374 to R377) -/

/-- Map page of a reef; reef pages and fine pages are numbered 2n and 2n + 1. -/
def reefPage (r : Nat) : Nat := 2 * (r / 800)

/-- Map page of a fine-table index. -/
def finePage (i : Nat) : Nat := 2 * (i / 50) + 1

/-- Pages a reef's entry lies in. -/
def pagesOf (s : State) (r : Nat) : List Nat :=
  match s.engine.table.find r with
  | some (.fine i _) => [reefPage r, finePage i]
  | _ => [reefPage r]

/-- Frames of the paged cache (R376). -/
def cacheFrames : Nat := 10485760

/-- The reef was resolved within MAP_HINT_AGE (R387). -/
def recentlyResolved (s : State) (r : Nat) : Bool :=
  match s.engine.resolved.find r with
  | some h => decide (s.run ≤ h + s.map.hintAge.toNat)
  | none => false

/-- Insert the hints of an evicted reef page: its coarse flash reefs resolved lately (R387). -/
def hintPage (page : Nat) (s : State) : State :=
  if s.map.cfg.hint_enable && page % 2 == 0 then
    each (s.engine.table.filter fun p => p.1 / 800 == page / 2 && recentlyResolved s p.1) (fun p s => match p.2 with
      | .coarse (.flash b) => tslRing (hintEntry p.1 b) s
      | _ => s) s
  else s

/-- Bytes cut or filled with zeros to a length. -/
def fitTo (n : Nat) (b : Bytes) : Bytes := b.take n ++ List.replicate (n - b.length) 0

/-! ### The bytes of the mapping table (R364, R374, R375) -/

/-- An entry that is no fine pointer, in 40 bits (table "Mapping entry"). -/
def Loc.bits (l : Loc) : Nat :=
  match l with
  | .unmapped => 0
  | .flash a => 2 ^ 38 + a % 2 ^ 38
  | .unreadable c => 3 * 2 ^ 38 + c % 256

/-- A reef entry in 40 bits. -/
def Reef.bits (r : Reef) : Nat :=
  match r with
  | .coarse e => e.bits
  | .fine i _ => 2 * 2 ^ 38 + i % 2 ^ 38

/-- The 5 bytes of a reef of a table; a reef not listed is unmapped. -/
def reefBytes (t : Tab Reef) (r : Nat) : Bytes := leBytes 5 ((t.find r).map Reef.bits |>.getD 0)

/-- The 80 bytes of the fine table with an index. -/
def fineBytes (t : Tab Reef) (i : Nat) : Bytes :=
  match t.findSome? fun p => match p.2 with
      | .fine j l => if j = i then some l else none
      | .coarse _ => none with
  | some l => fitTo 80 (l.flatMap fun e => leBytes 5 e.bits)
  | none => leBytes 80 0

/-- A map page as captured now (table "Map page"). -/
def mapPageBytes (s : State) (page : Nat) : Bytes :=
  let n := page / 2
  let t := s.engine.table
  let entries := if page % 2 = 0 then (List.range 800).flatMap fun i => reefBytes t (800 * n + i)
    else (List.range 50).flatMap fun i => fineBytes t (50 * n + i)
  let rest := leBytes 8 s.engine.horizon.stamp.toNat ++ leBytes 72 0 ++ entries
  leBytes 4 0x5A474D50 ++ leBytes 1 (page % 2 + 2 * s.engine.horizon.unanch.toNat) ++ leBytes 3 0 ++ leBytes 4 n
    ++ leBytes 4 (crc32 rest) ++ rest

/-- Map units waiting for the host stream: the page is captured with a stamp (R377). -/
def writeBack (page : Nat) (s : State) : State :=
  match s.engine.cache.find page with
  | none => s
  | some c =>
    let (st, s) := takeStamp s
    disarm .mapWriteback page { s with
      engine.cache := s.engine.cache.put page { c with dirty := false }
      engine.captured := s.engine.captured.put st.stamp.toNat (mapPageBytes s page)
      shroud.replace := s.shroud.replace ++ [.mapPage page st] }

/-- Make room for one frame: the least recently used clean frame that nothing waits on goes (R376). -/
def evictOne (s : State) : State :=
  if s.engine.cache.length < cacheFrames then s
  else match leastOn (fun p : Nat × CachedPage => p.2.used) (s.engine.cache.filter fun p => !p.2.waiting) with
    | none => s
    | some (page, c) =>
      let s := if c.dirty then writeBack page s else s
      let s := hintPage page s
      { s with engine.cache := s.engine.cache.drop page }

/-- The page is in the cache and has arrived, or the table is resident. -/
def State.cached (s : State) (page : Nat) : Bool :=
  !s.map.cfg.paged || (match s.engine.cache.find page with | some c => !c.waiting | none => false)

/-- Touch a page: it becomes the most recently used. -/
def touchPage (page : Nat) (s : State) : State :=
  if s.map.cfg.paged then
    let c := s.engine.cache.look {} page
    let s := if s.engine.cache.has page then s else evictOne s
    { s with
      engine.clock := s.engine.clock + 1
      engine.cache := s.engine.cache.put page { c with used := s.engine.clock + 1 } }
  else s

/-- A page holds a change not written back (R377). -/
def dirtyPage (page : Nat) (s : State) : State :=
  if s.map.cfg.paged then
    let s := touchPage page s
    let c := s.engine.cache.look {} page
    let s := if c.dirty then s else arm .mapWriteback page s.map.wbAge.toNat s
    { s with engine.cache := s.engine.cache.put page { c with dirty := true, waiting := false } }
  else s

/-- A change to a reef invalidates its hint (R387). -/
def dropHint (r : Nat) (s : State) : State :=
  tslRemove { banks := 0xC000, key := BitVec.ofNat 47 r } s

/-! ### Changes (R368 to R381, R455) -/

/-- Valid counts follow an entry that changes (R455). -/
def moveValid (old new : Loc) (s : State) : State :=
  if old = new then s
  else
    let s := match old with
      | .flash a => onBlock (puaKey a) (fun b => { b with valid := b.valid - 1 }) s
      | _ => s
    match new with
    | .flash a => onBlock (puaKey a) (fun b => { b with valid := b.valid + 1 }) s
    | _ => s

/-- Set some units of one reef (R368, R369). -/
def setReef (r : Nat) (change : List (Nat × Loc)) (s : State) : State :=
  let old := reefEntries s r
  let new := (List.range 16).map fun k => Tab.look change (old.getD k .unmapped) k
  if old = new then s
  else
    let s := each (List.range 16) (fun k => moveValid (old.getD k .unmapped) (new.getD k .unmapped)) s
    let reef := reefOf s r new
    let s := { s with engine.table := if reef = .coarse .unmapped then s.engine.table.drop r else s.engine.table.put r reef }
    let s := dropHint r s
    let s := each (pagesOf s r) dirtyPage s
    let s := { s with engine.folding := s.engine.folding.filter fun x => x != r }
    match reef with
    | .fine _ _ => arm .fold r s.map.foldAge.toNat s
    | .coarse _ => disarm .fold r s

/-- Set one unit. -/
def setUnit (g : Nat) (l : Loc) (s : State) : State := setReef (g / 16) [(g % 16, l)] s

/-- Units of reef `r` in the range of `n` units from `first`. -/
def unitsIn (r first n : Nat) : List Nat :=
  (List.range 16).filter fun k => decide (first ≤ 16 * r + k) && decide (16 * r + k < first + n)

/-- Unmap a range of units: only listed reefs can change. -/
def unmapRange (first n : Nat) (s : State) : State :=
  each ((s.engine.table.map Prod.fst).filter fun r => !(unitsIn r first n).isEmpty)
    (fun r => setReef r ((unitsIn r first n).map fun k => (k, Loc.unmapped))) s

/-- Mark a range of units unreadable. -/
def markRange (first n cause : Nat) (s : State) : State :=
  if n = 0 then s
  else each ((List.range ((first + n - 1) / 16 - first / 16 + 1)).map fun i => first / 16 + i)
    (fun r => setReef r ((unitsIn r first n).map fun k => (k, Loc.unreadable cause))) s

/-- Raise the greatest key applied (R395). -/
def raiseHorizon (st : Stamped) (s : State) : State :=
  if s.engine.horizon.stamp.toNat < st.stamp.toNat then { s with engine.horizon := st } else s

/-- The change a mapping update record makes to the table (R363, R381). The chunk directory has followed the record since
it was held. -/
def applyRecord (m : MapRecord) (s : State) : State :=
  let s := raiseHorizon m.stamp s
  match m.kind with
  | 1 => unmapRange m.first m.count s
  | 2 => unmapRange m.first m.count s
  | 4 => unmapRange m.first m.count s
  | 5 => markRange m.first m.count (m.ordinal % 256) s
  | _ => s

/-! ### What is held and not applied (R381, R699) -/

/-- A held unit still is its unit's data: it is not applied, or the table refers to its stripe. -/
def HeldUnit.current (s : State) (u : HeldUnit) : Bool :=
  !u.applied || (match entryOf s u.unit with
    | .flash a => match stripeAt s a with
      | some p => some p.1 == u.serial
      | none => false
    | _ => false)

/-- The newest held unit of a global unit index. -/
def heldUnit (s : State) (g : Nat) : Option HeldUnit :=
  ((s.shroud.held.filter fun u => u.unit == g && u.current s).map fun u => (u.stamp.stamp.toNat, u)).foldl
    (fun best p => match best with
      | some (k, _) => if k < p.1 then some p else best
      | none => some p) none |>.map Prod.snd

/-- The newest record, not yet applied, that covers a unit. -/
def heldRecord (s : State) (g : Nat) : Option MapRecord :=
  (s.shroud.records.filter fun m => !m.applied && decide (m.first ≤ g) && decide (g < m.first + m.count)
      && (m.kind == 1 || m.kind == 2 || m.kind == 4 || m.kind == 5)).foldl
    (fun best m => match best with
      | some b => if b.stamp.stamp.toNat < m.stamp.stamp.toNat then some m else best
      | none => some m) none

/-- Where a read of a unit is answered from. -/
inductive Resolved where
  | held (u : HeldUnit)
  | zeros
  | unreadable
  | flash (a : Nat)
  deriving DecidableEq, Repr

/-- Resolution of one unit: the newest of what is held, else its entry (R332, R333, R367, R381). -/
def resolve (s : State) (g : Nat) : Resolved :=
  let table := match entryOf s g with
    | .unmapped => Resolved.zeros
    | .unreadable _ => .unreadable
    | .flash a => .flash a
  match heldUnit s g, heldRecord s g with
  | some u, some m =>
    if u.stamp.stamp.toNat < m.stamp.stamp.toNat then (if m.kind = 5 then .unreadable else .zeros) else .held u
  | some u, none => .held u
  | none, some m => if m.kind = 5 then .unreadable else .zeros
  | none, none => table

/-- Fine-table demand (R371): host units in stripes opened and not yet applied, and twice the records not yet applied. -/
def fineDemand (s : State) : Nat :=
  (s.shroud.held.filter fun u => u.serial.isSome && !u.applied).length
    + 2 * (s.shroud.records.filter fun m => !m.applied).length

end Sys2Proof.Machine
end

