-- ==== Sys2Proof/Machine/Formats.lean ====
section
/-!
DEFINITION. The byte formats of what the device keeps on flash and in DRAM: mapping update records (R381), checkpoints
(R396), unit frames and their spare metadata (R416, R417), stripe
headers and summaries (R418), the Shroud header and index (R427, R428), stay pages and records (R430, R431), wear and
redundancy pages (R457, R545), tracker entries (R320), frame headers (R713); and parity over unit frames (R415, R531).
-/

namespace Sys2Proof.Machine

/-- A mapping update record (table "Mapping update record"). -/
def MapRecord.bytes (m : MapRecord) : Bytes :=
  leBytes 1 m.kind ++ leBytes 1 m.stamp.unanch.toNat ++ leBytes 2 (m.ns_index % 1024) ++ leBytes 4 m.ordinal
    ++ leBytes 8 m.stamp.stamp.toNat ++ leBytes 8 m.first ++ leBytes 8 m.count

/-! ### Checkpoints (R396) -/

/-- Reef pages of the table, then fine pages (R375). -/
def directoryPages (s : State) : List Nat :=
  ((List.range (divUp (reefCount s) 800)).map fun n => 2 * n) ++ (List.range (divUp s.map.fineMax.toNat 50)).map fun n => 2 * n + 1

/-- Fine-table indexes in use in a table, ascending. -/
def fineSlots (t : Tab Reef) : List Nat :=
  sortOn id (t.filterMap fun p => match p.2 with
    | .fine i _ => some i
    | .coarse _ => none)

/-- The body of a checkpoint: the chunk directory, then the reef table and each fine table with its index, or the map-page
directory. -/
def checkpointBody (s : State) (c : Checkpoint) : Bytes :=
  ((List.range (chunkCount s)).flatMap fun k => leBytes 4 (match c.chunks.find k with | some p => p.1 + 1 + 2 ^ 11 * p.2 | none => 0))
    ++ (if s.map.cfg.paged then (directoryPages s).flatMap fun p =>
          leBytes 5 (match s.engine.directory.find p with | some a => (Loc.flash a).bits | none => 0)
        else ((List.range (reefCount s)).flatMap fun r => reefBytes c.table r)
          ++ (fineSlots c.table).flatMap fun i => leBytes 5 i ++ fineBytes c.table i)

/-- The header of a checkpoint (table "Checkpoint header"); in the first unit, with no complete stamp and no digest. -/
def checkpointHeader (s : State) (c : Checkpoint) (units : Nat) (last : Bool) : Bytes :=
  let prior := match s.engine.complete.head? with | some p => p.begin_stamp.stamp.toNat | none => 0
  let done := if last then c.complete_stamp else {}
  leBytes 4 0x5A47434B ++ leBytes 2 1
    ++ leBytes 1 (s.map.cfg.paged.toNat + 2 * c.begin_stamp.unanch.toNat + 4 * c.horizon_unanch.toNat + 8 * done.unanch.toNat) ++ [0]
    ++ leBytes 8 c.begin_stamp.stamp.toNat ++ leBytes 8 c.horizon ++ leBytes 8 c.scan_from ++ leBytes 8 (reefCount s)
    ++ leBytes 4 (if s.map.cfg.paged then 0 else (fineSlots c.table).length) ++ leBytes 4 units ++ leBytes 8 prior
    ++ leBytes 8 done.stamp.toNat
    ++ (if last then sha256Kind.digest (fitTo (4096 * (units - 2)) (checkpointBody s c)) else leBytes 32 0) ++ leBytes 32 0

/-- Unit `o` of a checkpoint of so many units. -/
def checkpointUnit (s : State) (c : Checkpoint) (units o : Nat) : Bytes :=
  if o = 0 then checkpointHeader s c units false
  else if o + 1 = units then checkpointHeader s c units true
  else ((checkpointBody s c).drop (4096 * (o - 1))).take 4096

/-! ### Unit frames (R416, R417) -/

/-- Bytes 0 to 25 of a unit entry (table "Unit entry"). -/
def unitEntry (kind ns_index ns_unit target src : Nat) (st : Stamped) : Bytes :=
  leBytes 8 st.stamp.toNat ++ leBytes 5 (target % 2 ^ 37) ++ leBytes 5 (ns_unit % 2 ^ 37) ++ leBytes 5 (src % 2 ^ 38)
    ++ leBytes 1 (kind % 8 + 8 * st.unanch.toNat) ++ leBytes 2 (ns_index % 1024)

/-- Bytes 0 to 25 of what a unit on flash holds of itself. -/
def FlashUnit.entry (f : FlashUnit) : Bytes := unitEntry f.kind f.ns_index f.ns_unit f.target f.src f.stamp

/-- The frame of a unit: data, host metadata and spare metadata, 4,192 bytes; a parity frame has bytes of its own. -/
def FlashUnit.bytes (f : FlashUnit) : Bytes :=
  if f.parity.isEmpty then fitTo 4096 f.frame.data ++ fitTo 64 f.frame.metadata ++ f.entry ++ leBytes 6 (f.serial % 2 ^ 48)
  else fitTo 4192 f.parity

/-- The unit that the bytes of a frame hold. -/
def FlashUnit.ofBytes (b : Bytes) : FlashUnit :=
  let m := b.drop 4160
  { frame := { data := b.take 4096, metadata := (b.drop 4096).take 64 }
    kind := field m 23 1 % 8
    stamp := ⟨BitVec.ofNat 64 (field m 0 8), (field m 23 1).testBit 3⟩
    target := field m 8 5
    ns_index := field m 24 2
    ns_unit := field m 13 5
    src := field m 18 5
    serial := field m 26 6 }

/-- A map page number as a unit entry has it: reef page number, or bit 32 and fine page number. -/
def pageTarget (page : Nat) : Nat := page / 2 + page % 2 * 2 ^ 32

/-- The checkpoint with a begin stamp, in progress or complete. -/
def checkpointOf (s : State) (id : Nat) : Option Checkpoint :=
  (s.engine.current.toList ++ s.engine.complete).find? fun c => c.begin_stamp.stamp.toNat == id

/-- What a programmed unit holds on flash (R416, R417): a host unit's frame is in the Shroud, a copy's in the copy buffer, a map
page's as it was captured. -/
def flashOf (s : State) (serial : Nat) (st : Stripe) (u : UnitSource) : FlashUnit :=
  match u with
  | .empty => { kind := 0, serial := serial }
  | .host g k => match s.shroud.held.find? fun x => x.unit == g && x.stamp == k with
    | some x => { frame := x.frame, kind := 1, stamp := x.stamp, target := g, ns_index := x.ns_index, ns_unit := x.ns_unit, serial := serial }
    | none => { kind := 1, stamp := k, target := g, serial := serial }
  | .copy g _ a => { s.shroud.copied.look {} a with kind := 2, target := g, src := a, serial := serial }
  | .mapPage page k => { frame := { data := s.engine.captured.look [] k.stamp.toNat }, kind := 3, stamp := k, target := pageTarget page, serial := serial }
  | .checkpoint id o => match checkpointOf s id with
    | some c => { frame := { data := checkpointUnit s c c.units o }, kind := 4, stamp := st.open_stamp,
                  target := o, serial := serial }
    | none => { kind := 4, stamp := st.open_stamp, target := o, serial := serial }

/-! ### Stripe headers and summaries (R418) -/

/-- The summary region of a stripe: header, unit entries in unit-index order, records in stamp order (table "Stripe header"). -/
def summaryRegion (s : State) (serial : Nat) (st : Stripe) : Bytes :=
  let p := s.shape st.shape
  let body := fitTo (131072 - 32) (leBytes 96 0
    ++ ((List.range p.units).flatMap fun u => (flashOf s serial st (st.units.getD u .empty)).entry ++ leBytes 6 0)
    ++ (sortOn (fun m : MapRecord => m.stamp.stamp.toNat) st.records).flatMap MapRecord.bytes)
  leBytes 4 0x5A475354
    ++ leBytes 1 (st.shape % 4 + 4 * (p.parity - 1) + 8 * st.open_stamp.unanch.toNat + 16 * st.copyStream.toNat)
    ++ leBytes 1 p.data ++ leBytes 1 p.slots ++ [0] ++ leBytes 8 serial ++ leBytes 8 st.open_stamp.stamp.toNat
    ++ leBytes 2 p.units ++ leBytes 2 st.records.length ++ leBytes 4 (crc32 body) ++ body

/-- Unit `i` of the two summary slots. -/
def summaryUnit (s : State) (serial : Nat) (st : Stripe) (i : Nat) : FlashUnit :=
  { frame := { data := ((summaryRegion s serial st).drop (4096 * i)).take 4096 }, kind := 5, stamp := st.open_stamp, serial := serial }

/-- What data member `d` of a stripe holds at position `k` of its slot `i` (R413). -/
def dataUnitAt (s : State) (serial : Nat) (st : Stripe) (d i k : Nat) : FlashUnit :=
  let p := s.shape st.shape
  let j := i * p.data + d
  if j + 2 < p.data * p.slots then flashOf s serial st (st.units.getD (16 * j + k) .empty)
  else summaryUnit s serial st ((j + 2 - p.data * p.slots) * 16 + k)

/-! ### Parity (R415, R531) -/

/-- The polynomial of the parity field. -/
def parityPoly : Nat := 0x11D

/-- A power of g. -/
def gPower (n : Nat) : Nat := gfPow parityPoly 2 (n % 255)

/-- Bytes times an element of the parity field. -/
def gfScale (c : Nat) (b : Bytes) : Bytes := b.map fun x => BitVec.ofNat 8 (gfMul parityPoly c x.toNat)

/-- The exclusive or of frames. -/
def xorAll (l : List Bytes) : Bytes := l.foldl xorBytes (leBytes 4192 0)

/-- P of frames with their data positions (R415). -/
def parityP (l : List (Nat × Bytes)) : Bytes := xorAll (l.map Prod.snd)

/-- Q of frames with their data positions (R415). -/
def parityQ (l : List (Nat × Bytes)) : Bytes := xorAll (l.map fun p => gfScale (gPower p.1) p.2)

/-- A lost data frame from the surviving data frames, P and Q (table "Reconstruction of data frames"): `i` is its position; `other`
another that is lost too. -/
def recoverFrame (i : Nat) (other : Option Nat) (data : List (Nat × Bytes)) (p q : Option Bytes) : Option Bytes :=
  match other, p, q with
  | none, some p, _ => some (xorBytes p (parityP data))
  | none, none, some q => some (gfScale (gPower (255 - i % 255)) (xorBytes q (parityQ data)))
  | some j, some p, some q =>
    let a := xorBytes p (parityP data)
    let b := xorBytes q (parityQ data)
    let solve := fun (i j : Nat) =>
      let g := gPower (j - i)
      gfScale (gfPow parityPoly (g ^^^ 1) 254) (xorBytes (gfScale g a) (gfScale (gPower (255 - i % 255)) b))
    if i < j then some (solve i j) else some (xorBytes a (solve j i))
  | _, _, _ => none

/-- The parity frame of member `q` (0 for P, 1 for Q) at position `k` of slot `i`. -/
def parityUnit (s : State) (serial : Nat) (st : Stripe) (q i k : Nat) : FlashUnit :=
  let l := (List.range (s.shape st.shape).data).map fun d => (d, (dataUnitAt s serial st d i k).bytes)
  { parity := if q = 0 then parityP l else parityQ l }

/-! ### The Shroud (R427, R428) -/

/-- An index entry (R428): a unit entry of kind 0b001, and the serial to which the unit is assigned. -/
def HeldUnit.indexBytes (u : HeldUnit) : Bytes :=
  unitEntry 1 u.ns_index u.ns_unit u.unit 0 u.stamp ++ leBytes 6 ((u.serial.getD 0xFFFFFFFFFFFF) % 2 ^ 48)

/-- The Shroud's index: an entry for each unit held. -/
def shroudIndex (s : State) : Bytes := s.shroud.held.flatMap HeldUnit.indexBytes

/-- The Shroud header (table "Shroud header"). -/
def shroudHeader (s : State) : Bytes :=
  let head := fun (clean : Bool) => leBytes 4 0x5A475348 ++ leBytes 1 clean.toNat ++ leBytes 3 0 ++ leBytes 8 s.shroud.header_reserve
    ++ leBytes 8 s.shroud.start_gen ++ leBytes 4 s.shroud.held.length ++ leBytes 4 s.shroud.records.length ++ leBytes 8 s.shroud.journal_seq
  fitTo 4096 (head s.shroud.clean_sr ++ sha256Kind.digest (head false ++ shroudIndex s))

/-! ### Stays (R430, R431) -/

/-- A stay record: its head, and 8 bytes for each member (table "Stay record head"). -/
def StayRecord.encoded (r : StayRecord) : Bytes :=
  let b := if r.type = 1 ∨ r.type = 2 then r.members.flatMap fun m =>
      leBytes 8 (m.1 % 2 ^ 11 + 2 ^ 11 * (m.2.1 % 2 ^ 12) + 2 ^ 23 * (m.2.2.1 % 2 ^ 11) + 2 ^ 34 * m.2.2.2.toNat)
    else []
  leBytes 1 r.type ++ leBytes 1 (r.stamp.unanch.toNat + 2 * r.carried.toNat + (if r.type = 5 then 4 * (r.aux / 2 ^ 32 % 2 ^ 6) else 0))
    ++ leBytes 2 (32 + b.length) ++ leBytes 4 r.aux ++ leBytes 8 r.serial ++ leBytes 8 r.stamp.stamp.toNat ++ leBytes 8 r.seq ++ b

/-- A stay page of records (R430): pair generation, page sequence, count, and CRC-32 of the page with its own field zero. -/
def stayPageBytes (generation seq : Nat) (l : List StayRecord) : Bytes :=
  let body := fitTo 4064 (l.flatMap StayRecord.encoded)
  let head := leBytes 6 0x5A4753544159 ++ leBytes 2 0 ++ leBytes 4 generation ++ leBytes 4 seq ++ leBytes 2 l.length ++ leBytes 10 0
  head ++ leBytes 4 (crc32 (head ++ leBytes 4 0 ++ body)) ++ body

/-! ### Other anchor-block pages (R457, R545) -/

/-- A page with its CRC-32 at byte `at_`, taken over every other byte. -/
def withCrc (at_ : Nat) (b : Bytes) : Bytes := b.take at_ ++ leBytes 4 (crc32 (b.take at_ ++ b.drop (at_ + 4))) ++ b.drop (at_ + 4)

/-- The erase count of a block in a wear page; a retired block reads 0xFFFF. -/
def wearEntry (s : State) (k : Nat) : Nat :=
  match (s.blockAt k).state with
  | .retired => 0xFFFF
  | _ => s.reclaim.wear_pe.look 0 k

/-- A wear page of a die: the erase counts of blocks from the first it covers (table "Wear page"). -/
def wearPage (s : State) (die first count snap : Nat) : Bytes :=
  let st := s.reclaim.wear_stamp.look {} die
  withCrc 28 (fitTo 4096 (leBytes 6 0x5A4757454152 ++ leBytes 1 st.unanch.toNat ++ [0] ++ leBytes 8 st.stamp.toNat ++ leBytes 2 first
    ++ leBytes 2 count ++ leBytes 4 snap ++ leBytes 8 0
    ++ (List.range count).flatMap fun i => leBytes 2 (wearEntry s (blockKey die (first + i)))))

/-- A stripe-shape entry (R407). -/
def Shape.bytes (p : Shape) : Bytes :=
  leBytes 6 p.channels ++ leBytes 1 p.data ++ leBytes 1 (p.parity % 4 + 4 * (p.slots % 8)) ++ leBytes 8 0

/-- The redundancy page (table "Redundancy page"), with the die states as they stand. -/
def redPageBytes (s : State) (r : RedPage) : Bytes :=
  let entry := fun (p : Option Shape) => match p with | some p => p.bytes | none => leBytes 16 0
  withCrc 32 (fitTo 4096 (leBytes 6 0x5A475245444E ++ leBytes 2 0 ++ leBytes 8 r.stamp.stamp.toNat ++ leBytes 4 r.seq
    ++ leBytes 1 (r.in_force % 4 + 4 * (r.source % 4) + 16 * (r.reshape % 4))
    ++ leBytes 1 ((r.pending.getD 0) % 4 + 4 * r.pending.isSome.toNat + 8 * r.stamp.unanch.toNat + 16 * r.cut.unanch.toNat)
    ++ leBytes 2 0 ++ leBytes 8 r.cut.stamp.toNat ++ leBytes 32 0
    ++ ((List.range 1536).flatMap fun d => leBytes 2 ((s.redun.dies.look {} d).state % 16 + 16 * ((s.redun.dies.look {} d).cause % 16)))
    ++ entry r.in_force_entry ++ entry r.from_entry))

/-! ### The tracker (R320) -/

/-- A tracker entry in DRAM (table "Tracker entry"); its descriptors lie at an address of the device's own. -/
def Entry.bytes (s : State) (t : Nat) (e : Entry) : Bytes :=
  let halt := match (s.ctrl e.ctrl).sqs.find e.sqid with | some q => q.halt_attr | none => false
  let lba := e.sqid != 0
  leBytes 8 e.admitted.stamp.toNat ++ leBytes 8 (if lba then e.sqe.cdw10.toNat + 2 ^ 32 * e.sqe.cdw11.toNat else 0)
    ++ leBytes 4 (if lba then e.sqe.cdw12.toNat % 2 ^ 16 + 1 else 0) ++ leBytes 2 e.sqe.cid.toNat
    ++ leBytes 2 (e.sqid % 2 ^ 12 + 2 ^ 12 * e.ctrl + 2 ^ 13 * halt.toNat + 2 ^ 14 * e.admitted.unanch.toNat)
    ++ leBytes 1 e.sqe.opcode.toNat ++ leBytes 1 e.state.code ++ leBytes 2 ((e.sqe.nsid.toNat - 1) % 1024) ++ leBytes 2 e.sq_pos
    ++ leBytes 1 e.slices.length ++ leBytes 1 (e.slices.filter fun x => x.pieces.all Piece.held).length ++ leBytes 2 e.status ++ leBytes 2 0
    ++ leBytes 4 e.dw0 ++ Config.descriptorAddress t ++ leBytes 4 (e.overlap.headD 0xFFFFFFFF) ++ leBytes 12 0

/-! ### Frames on links (R713) -/

/-- The header of a frame with so many payload bytes (table "Keaka frame header"). -/
def KkFrame.header (f : KkFrame) (length ack : Nat) : Bytes :=
  leBytes 1 f.type ++ leBytes 1 (f.src % 4 + 4 * (f.dst % 4)) ++ leBytes 2 length ++ leBytes 2 f.seq ++ leBytes 2 ack
    ++ leBytes 4 f.tag ++ leBytes 4 0

/-- A frame as sent: header, payload and CRC-32 over both. -/
def KkFrame.wire (f : KkFrame) (payload : Bytes) (ack : Nat) : Bytes :=
  let b := f.header payload.length ack ++ payload
  b ++ leBytes 4 (crc32 b)

end Sys2Proof.Machine
end

