-- ==== Sys2Proof/Machine/Stays.lean ====
section
/-!
DEFINITION. Table checkpoints (R394 to R397), the stripe journal and the stays that hold it on flash (R430 to R435).
-/

namespace Sys2Proof.Machine

/-! ### Beginning a checkpoint (R394 to R396) -/

/-- Map pages (R375). -/
def mapPages (s : State) : Nat := divUp (reefCount s) 800 + divUp s.map.fineMax.toNat 50

/-- Units of a checkpoint's body, with its two headers (R396). -/
def checkpointUnits (s : State) : Nat :=
  let body := 4 * chunkCount s +
    (if s.map.cfg.paged then 5 * mapPages s else 5 * reefCount s + 85 * (fineUsed s).length)
  divUp body 4096 + 2

/-- The oldest stripe not yet applied gives scan_from (R395). -/
def scanFrom (s : State) (begin_ : Nat) : Nat :=
  ((s.shroud.stripes.vals.filter fun st => !st.applied && st.state != .abandoned && st.state != .lost).map
    fun st => st.open_stamp.stamp.toNat).foldl min begin_

/-- A checkpoint begins (R394, R395); in paged mode every dirty page is written back first. -/
def beginCheckpoint (s : State) : State :=
  let (st, s) := takeStamp s
  let s := if s.map.cfg.paged then each ((s.engine.cache.filter fun p => p.2.dirty).map Prod.fst) writeBack s else s
  let c : Checkpoint := {
    begin_stamp := st, horizon := s.engine.horizon.stamp.toNat, horizon_unanch := s.engine.horizon.unanch
    scan_from := scanFrom s st.stamp.toNat, table := s.engine.table, chunks := s.engine.chunks
    units := checkpointUnits s, units_left := checkpointUnits s }
  arm .checkpoint 0 s.map.ckptInterval.toNat <| askDigest st.stamp.toNat .checkpointDigest { s with
    engine.current := some c
    engine.queued := false
    engine.stripes_since := 0
    map.status.ckpt_busy := true }

/-- A trigger of R394: one that comes during a checkpoint starts the next when it ends. -/
def checkpointTrigger (s : State) : State :=
  if s.engine.current.isSome then { s with engine.queued := true }
  else match s.mode with
    | .run => beginCheckpoint s
    | .reduced => beginCheckpoint s
    | .readOnly => beginCheckpoint s
    | _ => s

/-! ### The journal and stay pages (R431, R432) -/

/-- Change a record of the journal. -/
def onRecord (q : Nat) (f : StayRecord → StayRecord) (s : State) : State :=
  { s with shroud.journal := s.shroud.journal.map fun r => if r.seq = q then f r else r }

/-- Stay 0 or 1. -/
def State.stay (s : State) (second : Bool) : Option Stay := if second then s.shroud.stay1 else s.shroud.stay0

/-- Set a stay and its register field. -/
def setStay (second : Bool) (x : Stay) (s : State) : State :=
  if second then { s with shroud.stay1 := some x, str.stayStatus.die1 := BitVec.ofNat 11 x.die }
  else { s with shroud.stay0 := some x, str.stayStatus.die0 := BitVec.ofNat 11 x.die }

/-- Units that open an anchor block of a stay: the newest redundancy page, health page and security store, then the records
that are carried (R433, R545, R595, R650). -/
def openingPages (s : State) (l : List StayRecord) : Nat :=
  s.redun.page.isSome.toNat + s.health.page.isSome.toNat + s.security.durable.isSome.toNat
    + divUp (total (l.map StayRecord.bytes)) 4064

/-- The next anchor block of a stay's die, 0 to 13, in ring order, whose programs have not failed. -/
def nextAnchor (x : Stay) : Option Nat :=
  ((List.range 13).map fun i => (x.block + 1 + i) % 14).find? fun b => !x.bad.contains b

/-- A stay moves to a fresh anchor block: the retained records of its oldest block are appended again with carried = 1, and
that block is erased (R433). -/
def moveStay (second : Bool) (b : Nat) (x : Stay) (s : State) : State :=
  let mine := fun (r : StayRecord) => if second then r.durable1 else r.durable0
  let s := setStay second { x with block := b, page := openingPages s (s.shroud.journal.filter mine) } s
  onBlock (blockKey x.die x.block) (fun k => { k with pe := k.pe + 1 })
    { s with shroud.journal := s.shroud.journal.map fun r => if mine r then { r with carried := true } else r }

/-- Room for one more page in a stay's anchor block; where there is none, the stay moves (R433). -/
def stayRoom (second : Bool) (s : State) : State :=
  match s.stay second with
  | some x =>
    if x.page < (s.geo x.die).pages then s
    else match nextAnchor x with
      | some b => moveStay second b x s
      | none => s
  | none => s

/-- Program the page at the end of stay's chain: one SLC unit of an anchor block. -/
def stayProgram (second : Bool) (s : State) : State :=
  let s := stayRoom second s
  match s.stay second with
  | none => s
  | some x =>
    addOp { kind := .program, owner := .stay second, die := x.die, block := x.block, page := x.page, slc := true, stamp := s.nextStamp }
      (setStay second { x with page := x.page + 1 } s)

/-- The page being filled. -/
def openPage (s : State) : List Nat :=
  match s.shroud.pages.find? fun p => !p.issued with
  | some p => p.seqs
  | none => []

/-- Bytes of records in a page. -/
def pageBytes (s : State) (seqs : List Nat) : Nat :=
  total ((s.shroud.journal.filter fun r => seqs.contains r.seq).map StayRecord.bytes)

/-- Program the page being filled into both stays (R432). -/
def issueStayPage (s : State) : State :=
  if openPage s = [] ∨ s.shroud.repairing.isSome then s
  else
    let n := s.shroud.page_seq + 1
    let s := disarm .stayFlush 0 { s with
      shroud.pages := s.shroud.pages.map fun p => if p.issued then p else { p with issued := true, number := n }
      shroud.page_seq := n }
    stayProgram true (stayProgram false s)

/-- Put a record in the page being filled. -/
def pageRecord (q : Nat) (s : State) : State :=
  match s.shroud.pages.find? fun p => !p.issued with
  | some _ => { s with shroud.pages := s.shroud.pages.map fun p => if p.issued then p else { p with seqs := p.seqs ++ [q] } }
  | none => arm .stayFlush 0 s.str.stayFlushAge.toNat { s with shroud.pages := s.shroud.pages ++ [{ seqs := [q] }] }

/-- Append a record to the Shroud's journal and to the stay page being filled, which is programmed when it is full
(R432). -/
def appendStay (type aux serial : Nat) (st : Stamped) (members : List (Nat × Nat × Nat × Bool)) (s : State) : State :=
  let r : StayRecord := { type := type, aux := aux, serial := serial, stamp := st, seq := s.shroud.journal_seq + 1, members := members }
  let s := if 4096 - 32 < pageBytes s (openPage s) + r.bytes then issueStayPage s else s
  let s := pageRecord r.seq { s with shroud.journal_seq := r.seq, shroud.journal := s.shroud.journal ++ [r] }
  if 4096 - 32 < pageBytes s (openPage s) + 32 then issueStayPage s else s

/-- A record that takes its stamp when it is built. -/
def appendBuilt (type aux : Nat) (s : State) : State :=
  let (st, s) := takeStamp s
  appendStay type aux 0 st [] s

/-- A release of R424 waits on a record: its page is programmed at once (R432). -/
def hurryStays (s : State) : State := issueStayPage s

/-- The stays retain the records of R433; the rest leave the journal once a checkpoint completes. -/
def pruneJournal (s : State) : State :=
  match s.engine.complete.getLast? with
  | none => s
  | some c =>
    let newest := fun t => (s.shroud.journal.filter fun r => r.type == t).getLast?.map StayRecord.seq
    { s with shroud.journal := s.shroud.journal.filter fun r =>
        decide (c.scan_from ≤ r.stamp.stamp.toNat) || r.type == 8 || !r.durable
          || (r.type == 5 || r.type == 6 || r.type == 7) && newest r.type == some r.seq }

/-! ### Re-pair (R434, R435) -/

/-- Lowest usable die on a channel that the other stay does not use. -/
def stayDieOn (s : State) (c : Nat) (not_ : Option Nat) : Option Nat :=
  (usableOn s c).find? fun d => some d != not_

/-- New partner of a stay on channel `c`: on channel (c + 24) mod 48, or the next upward that has one (R434). -/
def stayPartner (s : State) (c : Nat) : Option Nat :=
  (List.range 47).findSome? fun i => if (c + 24 + i) % 48 = c then none else stayDieOn s ((c + 24 + i) % 48) none

/-- Begin to write retained records to a new partner (R434). -/
def beginRepair (survivor : Stay) (s : State) : State :=
  raise (src 10 2) 0 [] { s with
    shroud.repairing := stayPartner s (dieChannel survivor.die)
    str.status.stay_repair := true }

/-- A new pair from the Shroud's journal, when both stays are lost (R435). -/
def rebuildStays (s : State) : State :=
  match (List.range 48).findSome? fun c => stayDieOn s c none with
  | none => s
  | some a =>
    let s := setStay false { die := a } s
    let s := match stayPartner s (dieChannel a) with
      | some b => setStay true { die := b } s
      | none => s
    let s := { s with
      shroud.journal := s.shroud.journal.map fun r => { r with durable0 := false, durable1 := false }
      shroud.pages := [{ seqs := s.shroud.journal.map StayRecord.seq, number := s.shroud.page_seq + 1, issued := true }]
      shroud.page_seq := s.shroud.page_seq + 1
      shroud.repairing := none
      str.status.stay_repair := false
      str.status.stays_lost := true
      engine.full_scan := true }
    let s := stayProgram true (stayProgram false s)
    checkpointTrigger (appendBuilt 9 0 (raise (src 10 3) 0 [] s))

/-- The die of a stay fails, or has no good anchor block left (R434, R435). -/
def loseStay (second : Bool) (s : State) : State :=
  let other := s.stay (!second)
  let s := if second then { s with shroud.stay1 := s.shroud.stay1.map fun x => { x with good := false } }
           else { s with shroud.stay0 := s.shroud.stay0.map fun x => { x with good := false } }
  match other with
  | some o => if o.good then beginRepair o s else rebuildStays s
  | none => rebuildStays s

/-- A stay lies on the die. -/
def stayOn (s : State) (second : Bool) (die : Nat) : Bool :=
  match s.stay second with
  | some x => x.die == die && x.good
  | none => false

/-- The stays on a die that fails are re-paired (R544 step 3). -/
def dropStaysOn (die : Nat) (s : State) : State :=
  let s := if stayOn s false die then loseStay false s else s
  if stayOn s true die then loseStay true s else s

/-- What a stay page holds on flash (R430). -/
def stayUnit (s : State) (g : StayPage) : FlashUnit :=
  let l := s.shroud.journal.filter fun r => g.seqs.contains r.seq
  { frame := { data := stayPageBytes s.shroud.pair_gen g.number l }, kind := 7
    stamp := match l with | r :: _ => r.stamp | [] => {} }

/-- A program of a stay page at an address reports (R432, R434): success makes its records durable in that stay; a failure moves
the stay to another anchor block of the die, or the stay is lost. -/
def stayReported (second : Bool) (a : Nat) (ok : Bool) (s : State) : State :=
  if ok then
    match s.shroud.pages.find? fun p => p.issued && !(if second then p.done1 else p.done0) with
    | none => s
    | some g =>
      let mark := fun (p : StayPage) => if p = g then (if second then { p with done1 := true } else { p with done0 := true }) else p
      { s with
        reclaim.flash := s.reclaim.flash.put a (stayUnit s g)
        shroud.pages := s.shroud.pages.map mark
        shroud.journal := s.shroud.journal.map fun r =>
          if g.seqs.contains r.seq then (if second then { r with durable1 := true } else { r with durable0 := true }) else r }
  else match s.stay second with
    | none => s
    | some x =>
      let x := { x with bad := x.bad ++ [x.block] }
      match nextAnchor x with
      | some b => stayProgram second (moveStay second b x s)
      | none => loseStay second s

end Sys2Proof.Machine
end

