-- ==== Sys2Proof/Machine/Accounting.lean ====
section
/-!
DEFINITION. Free blocks, spares and levels (R467 to R471, R481 to R483), groups of blocks, queueing, retirement and
release (R454, R459, R462, R464), releases of Shroud space (R424), and entry to Read-Only.
-/

namespace Sys2Proof.Machine

/-! ### Read-Only (R46, R56, R483) -/

/-- Entry to Read-Only: the transition, the end of writes not wholly held, and on a yard the report to the masthead
(R44, R330, R733). -/
def goReadOnly (s : State) : State :=
  let enter := fun (s : State) =>
    let s := endWrites Status.writeProtected (fun _ => true) (setMode .readOnly s)
    if s.yard then sendFrame 0x38 0 0 [2, s.mgmt.modeStatus.ro_cause.toNat] s else s
  noteHealth (match s.mode with
    | .run => enter s
    | .reduced => enter s
    | .patrol => enter s
    | _ => s)

/-- A return from Patrol in progress is abandoned by a Read-Only condition (R55): PS4 stays in force. The Set Features that
asked for it completes with Command Sequence Error and Dword 0 of 0 (DESIGN CHOICE, log entry 35); an I/O submission is
evaluated again and its return starts anew from Read-Only (R54). -/
def abandonReturn (s : State) : State :=
  match s.power_states.returning with
  | none => s
  | some r => match r.entry with
    | some t =>
      let c := match s.nvme.tracker.find t with | some e => e.ctrl | none => 0
      finishEntry t Status.sequenceError 0 (setRequested c 4 { s with power_states.returning := none })
    | none => { s with power_states.returning := some { r with step := 1 } }

/-- A Read-Only condition: its cause is recorded, and the mode changes at once, or when the handshake in progress completes
(R56); in Start step 17 evaluates it. An L4 in its assertion steps and a Thermal Halt entry come before it (R54). -/
def enterReadOnly (cause : Nat) (s : State) : State :=
  let s := { s with mgmt.modeStatus.ro_cause := s.mgmt.modeStatus.ro_cause ||| BitVec.ofNat 2 cause }
  if s.power_states.handshake.isSome || s.thermal.entry.isSome || s.reset_ctl.sequence.isSome then s
  else match s.mode with
    | .patrol => goReadOnly (abandonReturn s)
    | _ => goReadOnly s

/-- A fatal media condition. -/
def fatalCondition (s : State) : State := enterReadOnly 2 s

/-! ### Counts of blocks (table "Block accounting") -/

/-- Non-anchor blocks of a die. -/
def dieBlocks (s : State) (d : Nat) : Nat := (s.geo d).blocks - 16

/-- Listed non-anchor blocks of usable dies that meet a test. -/
def countBlocks (s : State) (f : Block → Bool) : Nat :=
  (s.reclaim.blocks.filter fun p => f p.2 && decide (16 ≤ p.1 % 4096) && s.usable (p.1 / 4096)).length

/-- Non-anchor blocks of the usable dies. -/
def allBlocks (s : State) : Nat := total ((usableDies s).map (dieBlocks s))

/-- F: blocks erased, released or erasing, less those still held out for spill sets (chapter 11). -/
def freeCount (s : State) : Nat :=
  allBlocks s - countBlocks s (fun b => b.state != .erased && b.state != .released && b.state != .erasing)
    - (s.rcl.needs.n_spill.toNat - countBlocks s fun b => b.state == .spill)

/-- Geometry that the block accounting takes: part 0. -/
def mainGeometry (s : State) : Geometry := s.media.geometry.headD {}

/-- `⌈n / (U_b × f)⌉` for a shape. -/
def blocksFor (s : State) (p : Shape) (n : Nat) : Nat :=
  divUp (n * p.width * p.slots) (unitsPerBlock (mainGeometry s) * (p.data * p.slots - 2))

/-- Largest checkpoint length L_ck (R481). -/
def checkpointLength (s : State) : Nat :=
  if s.map.cfg.paged then 4101 * mapPages s + 4 * chunkCount s
  else 5 * reefCount s + 85 * s.map.fineMax.toNat + 4 * chunkCount s

/-- N_u. -/
def userNeed (s : State) (p : Shape) : Nat := blocksFor s p (chunkCount s * chunkUnits)

/-- N_m. -/
def metaNeed (s : State) (p : Shape) : Nat :=
  divUp (3 * checkpointLength s * p.width * p.slots) (4096 * unitsPerBlock (mainGeometry s) * (p.data * p.slots - 2))

/-- Blocks of a spill set at its reserved width, which the spec leaves open. -/
def setBlocks (s : State) : Nat := Config.spillSetBlocks s.str.cfg.shroud_mib.toNat (unitsPerBlock (mainGeometry s))

/-- N_s: both spill sets. -/
def spillNeed (s : State) : Nat := 2 * setBlocks s

/-- R_ls. -/
def lastStand (s : State) (p : Shape) : Nat :=
  blocksFor s p (s.str.cfg.shroud_mib.toNat * 256) + 3 * p.width + s.rcl.lsMargin.toNat

/-- S for a shape. -/
def sparesWith (s : State) (p : Shape) : Int :=
  ((allBlocks s - countBlocks s fun b => b.state == .retired : Nat) : Int) - userNeed s p - metaNeed s p - spillNeed s

/-- S and R_ls as the registers hold them. -/
def belowReserve (s : State) : Bool := decide (s.rcl.spares.spares.toInt < (s.rcl.reserve.toNat : Int))

/-- Available Spare (R482). -/
def spareNow (s : State) : Nat :=
  let r : Int := s.rcl.reserve.toNat
  let d := (s.rcl.spares.initial.toNat : Int) - r
  if d ≤ 0 then 100 else ((100 * max 0 (s.rcl.spares.spares.toInt - r)) / d).toNat

/-- A change of Available Spare is a change of health status (R598). -/
def noteSpare (was : Nat) (s : State) : State := if spareNow s = was then s else noteMiAll Mi.spare s

/-- The needs of R462 and the spares of R463 as they stand. -/
def countSpares (s : State) : State :=
  let p := s.shape s.shapeNow
  noteSpare (spareNow s) { s with
    rcl.spares.spares := BitVec.ofInt 32 (sparesWith s p)
    rcl.needs := { n_user := sat 32 (userNeed s p), n_meta := sat 16 (metaNeed s p), n_spill := sat 16 (spillNeed s) }
    rcl.reserve := sat 32 (lastStand s p) }

/-- spare_warn follows the spares; its event is raised when it changes. -/
def warnSpares (s : State) : State :=
  let warn := decide (spareNow s < s.rcl.spareWarn.toNat)
  if warn = s.rcl.status.spare_warn then s else raise (src 4 0) 0 [] { s with rcl.status.spare_warn := warn }

/-- ro_spares follows the reserve; its event is raised when it sets. -/
def noteReserve (s : State) : State :=
  let was := s.rcl.status.ro_spares
  let t := { s with rcl.status.ro_spares := belowReserve s }
  if belowReserve s && !was then raise (src 11 1) 0 [] t else t

/-- Percentage Used marks reached and not yet reported (R596). -/
def reportUsed (s : State) : State :=
  let reached := [80, 90, 100].filter fun v => decide (v ≤ s.rcl.peStats.pct_used.toNat) && !s.health.counts.used_reported.contains v
  each reached (fun v => raise (src 4 1) v []) { s with
    health.counts.used_reported := s.health.counts.used_reported ++ reached }

/-- A change of Percentage Used is a change of health status (R598). -/
def noteUsed (was : BitVec 8) (s : State) : State := if s.rcl.peStats.pct_used = was then s else noteMiAll Mi.lifeUsed s

/-- Keep RCL_PE_STATS (R465, R480). -/
def peStats (s : State) : State := reportUsed (noteUsed s.rcl.peStats.pct_used (
  let l := (s.reclaim.blocks.filter fun p => p.2.state != .retired && decide (16 ≤ p.1 % 4096)).map fun p => p.2.pe
  let n := allBlocks s
  let sum := total l
  let mean := if n = 0 then 0 else sum / n
  let low := if l.length < n then 0 else l.foldl min (l.headD 0)
  { s with rcl.peStats := {
      pe_max := sat 16 (l.foldl max 0), pe_min := sat 16 low, pe_mean := sat 16 mean
      pct_used := sat 8 (if s.rcl.peRated.toNat = 0 then 255 else 100 * mean / s.rcl.peRated.toNat) } }))

/-- Recompute the block accounting (R481), Available Spare (R482), and enter Read-Only where S falls below R_ls (R483). -/
def recount (s : State) : State :=
  let s := noteReserve (warnSpares (countSpares (peStats s)))
  noteHealth (if belowReserve s then enterReadOnly 1 s else s)

/-! ### Reclaim level and throttle (R468, R469) -/

/-- Level of the table "Reclaim levels". -/
def levelFor (s : State) : Nat :=
  let f := freeCount s
  if s.rcl.bgStart.toNat ≤ f then 0 else if s.rcl.fgStart.toNat ≤ f then 1 else if s.rcl.fgFloor.toNat ≤ f then 2 else 3

/-- DTWIN Writes Typical as taken at a window entry (R477). -/
def writesTypical (s : State) : Nat :=
  let p := s.shape s.shapeNow
  (freeCount s - s.rcl.fgStart.toNat) * unitsPerBlock (mainGeometry s) * (p.data * p.slots - 2) / (p.width * p.slots)

/-- Event types of the Predictable Latency log, as the standard numbers them: the change came from a maximum or minimum of the
window, or from a deterministic excursion. -/
def plmMaximum : Nat := 14
def plmExcursion : Nat := 15

/-- The set leaves the deterministic window for the non-deterministic one (R475), with an event of the given type where the
host has enabled it (R474). -/
def leaveWindow (type : Nat) (s : State) : State :=
  if s.rcl.status.dtwin then
    let h := s.run
    let w := writesTypical s
    let told := s.reclaim.plm_enable.testBit type
    let s := disarm .dtwin 0 { s with
      rcl.status.dtwin := false
      reclaim.window_entry := h
      reclaim.dtwin_writes := w
      reclaim.plm_events := if told then s.reclaim.plm_events ||| 2 ^ type else s.reclaim.plm_events }
    let s := each (s.enabledCtrls.filter fun c => (s.ctrl c).async_config.testBit 12 && told) (fun c => postAsync c ⟨2, 3, 0x0B⟩) s
    raise (src 11 2) 0 [] s
  else s

/-- Follow F: the level, credit outside Foreground, and the window (R468, R469, R475). -/
def refreshLevels (s : State) : State :=
  let l := levelFor s
  let s := { s with rcl.status.level := BitVec.ofNat 2 l, reclaim.credit := if l = 2 then s.reclaim.credit else 0 }
  if 2 ≤ l then leaveWindow plmMaximum s else s

/-! ### Groups (R454) -/

/-- Blocks of the stripes that share a block with a set. -/
def spread (s : State) (g : List Nat) : List Nat :=
  s.shroud.stripes.vals.foldl (fun g st =>
    let ks := st.members.map fun m => blockKey m.die m.block
    if ks.any g.contains then g ++ ks.eraseDups.filter fun k => !g.contains k else g) g

/-- Spread until nothing is added. -/
def closeGroup (s : State) : Nat → List Nat → List Nat
  | 0, g => g
  | n + 1, g =>
    let g' := spread s g
    if g'.length = g.length then g else closeGroup s n g'

/-- The group of a block (R454). -/
def groupOf (s : State) (k : Nat) : List Nat := closeGroup s (s.shroud.stripes.length + 1) [k]

/-- Stripes with a member in a group. -/
def stripesOf (s : State) (g : List Nat) : List (Nat × Stripe) :=
  s.shroud.stripes.filter fun p => p.2.members.any fun m => g.contains (blockKey m.die m.block)

/-- u of a group. -/
def groupValid (s : State) (g : List Nat) : Nat := total (g.map fun k => (s.blockAt k).valid)

/-- c of a group: the data units of its stripes. -/
def groupCapacity (s : State) (g : List Nat) : Nat := total ((stripesOf s g).map fun p => (s.shape p.2.shape).units)

/-- pe of a group: the mean, rounded down. -/
def groupPe (s : State) (g : List Nat) : Nat := if g = [] then 0 else total (g.map fun k => (s.blockAt k).pe) / g.length

/-- Close a block to further programs; it takes its close stamp (R455). -/
def closeBlock (k : Nat) (s : State) : State :=
  match (s.blockAt k).state with
  | .opened =>
    let (v, s) := takeStamp s
    onBlock k (fun b => { b with state := .closed, close_stamp := v.stamp.toNat }) s
  | _ => s

/-- Queue a block's group for reclaim under a class; for classes 0 and 1 its open blocks are closed (R454, R464). -/
def queueBlock (cls k : Nat) (s : State) : State :=
  let n := s.reclaim.queue_next
  let s := onBlock k (fun b => { b with
    queued := some (min cls (b.queued.getD cls))
    queue_order := if b.queued.isSome then b.queue_order else n }) { s with reclaim.queue_next := n + 1 }
  let s := if cls ≤ 1 then each (groupOf s k) closeBlock s else s
  if cls = 0 then leaveWindow plmExcursion s else s

/-- Report a block for refresh, once until it is erased (R521, R535); a report in PS4 waits for the return (R624). -/
def reportRefresh (k : Nat) (s : State) : State :=
  if s.media.reported.contains k || decide (k % 4096 < 16) then s
  else
    let s := { s with media.reported := s.media.reported ++ [k] }
    if s.psm.status.in_force = 4 then { s with power_states.reports := s.power_states.reports ++ [k] } else queueBlock 2 k s

/-- Write a wear snapshot of a die (R457, R458). -/
def wearSnapshot (d : Nat) (s : State) : State :=
  let (v, s) := takeStamp s
  let mine := s.reclaim.blocks.filter fun p => p.1 / 4096 == d
  { s with
    reclaim.wear_snaps := s.reclaim.wear_snaps.put d (s.reclaim.wear_snaps.look 0 d + 1)
    reclaim.wear_erases := s.reclaim.wear_erases.put d 0
    reclaim.wear_stamp := s.reclaim.wear_stamp.put d v
    reclaim.wear_pe := mine.foldl (fun t p => t.put p.1 (if p.2.state = .retired then 0xFFFF else p.2.pe)) s.reclaim.wear_pe }

/-- Retire a block (R436, R462, R463): a type 0x08 record, the counters and the event. -/
def retireBlock (program : Bool) (k : Nat) (s : State) : State :=
  match (s.blockAt k).state with
  | .retired => s
  | _ =>
    let s := onBlock k (fun b => { b with state := .retired }) s
    let s := onDie (k / 4096) (fun d => { d with retired := d.retired + 1 }) s
    let s := if program then { s with rcl.retired.program_fail := satAdd s.rcl.retired.program_fail 1
                                      health.counts.program_retired := s.health.counts.program_retired + 1 }
             else { s with rcl.retired.erase_fail := satAdd s.rcl.retired.erase_fail 1
                           health.counts.erase_retired := s.health.counts.erase_retired + 1 }
    let s := appendBuilt 8 (k / 4096 + 2 ^ 11 * (k % 4096)) s
    recount (wearSnapshot (k / 4096) s)

/-! ### Release of groups (R459) -/

/-- The commit or closed record of a stripe is in both stays (R424). -/
def commitDurable (s : State) (serial : Nat) : Bool :=
  match s.shroud.journal.find? fun r => (r.type == 1 || r.type == 2) && r.serial == serial with
  | some r => r.durable
  | none => true

/-- A unit source that a retained checkpoint or the one in progress holds (R397). -/
def retained (s : State) (u : UnitSource) : Bool :=
  match u with
  | .checkpoint id _ =>
    s.engine.complete.any (fun c => c.begin_stamp.stamp.toNat == id)
      || (match s.engine.current with | some c => c.begin_stamp.stamp.toNat == id | none => false)
  | _ => false

/-- A stripe no longer holds its group: it was withdrawn, or it is applied with its record in both stays. -/
def stripeSettled (s : State) (serial : Nat) (st : Stripe) : Bool :=
  match st.state with
  | .abandoned => true
  | .lost => !s.redun.rescuing.any fun r => r.serial == serial
  | .committed => st.applied && commitDurable s serial && !st.units.any (retained s)
  | .closed => st.applied && commitDurable s serial && !st.units.any (retained s)
  | _ => false

/-- A copy of a unit of the group is still in an unapplied stripe or waits for the copy stream (R383, R424). -/
def copyPending (s : State) (g : List Nat) : Bool :=
  let from_ := fun (u : UnitSource) => match u with
    | .copy _ _ a => g.contains (puaKey a)
    | _ => false
  s.shroud.copies.any from_ || s.shroud.stripes.vals.any fun st =>
    !(st.applied || st.state == .abandoned || st.state == .lost) && st.units.any from_

/-- The group may be released (R459). -/
def releasable (s : State) (g : List Nat) : Bool :=
  groupValid s g == 0
    && (stripesOf s g).all (fun p => stripeSettled s p.1 p.2)
    && !copyPending s g
    && g.all (fun k => (s.blockAt k).state == .closed || (s.blockAt k).state == .victim || (s.blockAt k).state == .retired)
    && !(s.engine.directory.vals.any fun a => g.contains (puaKey a))

/-- Release a group: its blocks that are not retired become released; its stripes end (R459). -/
def releaseGroup (g : List Nat) (s : State) : State :=
  let (st, s) := takeStamp s
  let v := st.stamp.toNat
  let gone := (stripesOf s g).map Prod.fst
  let s := each g (fun k s => match (s.blockAt k).state with
    | .retired => s
    | _ => onBlock k (fun b => { b with state := .released, release_stamp := v, queued := none }) s) s
  let s := each gone (fun n s => { s with shroud.stripes := s.shroud.stripes.drop n }) s
  refreshLevels { s with reclaim.victims := s.reclaim.victims.filter fun x => !x.blocks.any g.contains }

/-- Release every group that may be: victims, and closed groups whose valid count reached 0; not before the counts are
ready (R456). -/
def sweepGroups (s : State) : State :=
  if !s.rcl.status.counts_ready then s else each ((s.reclaim.blocks.filter fun p => decide (p.2.valid = 0) && (p.2.state == .closed || p.2.state == .victim)).map Prod.fst)
    (fun k s => match (s.blockAt k).state with
      | .released => s
      | _ => let g := groupOf s k
             if releasable s g then releaseGroup g s else s) s

/-! ### Release of Shroud space (R424, R443) -/

/-- A held unit may leave: it is applied and its stripe's record is in both stays. -/
def unitReleasable (s : State) (u : HeldUnit) : Bool :=
  u.applied && (match u.serial with | some n => commitDurable s n | none => true)

/-- Units of an image are all released (R443). -/
def imageReleased (s : State) (i : SpillImage) : Bool :=
  i.units.all fun u => !s.shroud.held.any fun v => v.unit == u.unit && v.stamp.stamp == u.stamp.stamp

/-! ### Spill sets (R168, R443) -/

/-- Erased blocks of a die. -/
def erasedOn (s : State) (die : Nat) : List Nat :=
  ((List.range (s.geo die).blocks).filter fun b => decide (16 ≤ b) && (s.blockAt (blockKey die b)).state == .erased).map (blockKey die)

/-- The erased block that a spill set takes next: on a die with fewest of its blocks, the one of least pe (DESIGN CHOICE, log
entry 106). -/
def nextSetBlock (s : State) (l : List Nat) : Option Nat :=
  match leastOn (fun d => l.countP fun k => k / 4096 == d) ((usableDies s).filter fun d => !(erasedOn s d).isEmpty) with
  | some d => leastOn (fun k => (s.blockAt k).pe) (erasedOn s d)
  | none => none

/-- A spill set takes up to so many more erased blocks. -/
def growSet (k : Nat) : Nat → State → State
  | 0, s => s
  | n + 1, s => match nextSetBlock s (s.shroud.sets.look [] k) with
    | some b => growSet k n (onBlock b (fun x => { x with state := .spill })
        { s with shroud.sets := s.shroud.sets.put k (s.shroud.sets.look [] k ++ [b]) })
    | none => s

/-- Each set that holds no image not yet released is made up from the spare pool, less what has been retired, and is named in a
record (R443). -/
def fillSets (s : State) : State :=
  each [0, 1] (fun k s =>
    if (s.shroud.images.any fun i => i.set == k && !i.released) || (usableDies s).isEmpty then s
    else
      let old := s.shroud.sets.look [] k
      let kept := old.filter fun b => (s.blockAt b).state == .spill
      let s := growSet k (setBlocks s - kept.length) { s with shroud.sets := s.shroud.sets.put k kept }
      if s.shroud.sets.look [] k = old then s else appendBuilt 6 k s) s

/-- The blocks of a failed die leave the spill sets; the erased set is made up at once from the spare pool (R544 step 4). -/
def dropSetsOn (die : Nat) (s : State) : State :=
  if s.shroud.sets.vals.any fun l => l.any fun k => k / 4096 == die then
    fillSets { s with shroud.sets := s.shroud.sets.over fun _ l => l.filter fun k => k / 4096 != die }
  else s

/-- The blocks of a set whose image is released leave it, to be erased (R443, table "Block states"). -/
def emptySet (k : Nat) (s : State) : State :=
  let (st, s) := takeStamp s
  let v := st.stamp.toNat
  let gone := (s.shroud.sets.look [] k).filter fun b => (s.blockAt b).state == .spill
  each gone (fun b => onBlock b fun x => { x with state := .released, release_stamp := v })
    { s with shroud.sets := s.shroud.sets.put k [] }

/-- Release every unit and record that R424 lets go, the spill images whose units are released, and groups. -/
def releaseDurable (s : State) : State :=
  if s.shroud.repairing.isSome then s
  else
    let gone := s.shroud.held.filter (unitReleasable s)
    let s := { s with shroud.held := s.shroud.held.filter fun u => !unitReleasable s u }
    let s := each gone (fun u s => match s.shroud.slices.find u.slice with
      | some d => releaseSliceUnits u.slice [u.ns_unit - d.first] s
      | none => s) s
    let done := fun (m : MapRecord) => m.applied && (match m.serial with
      | some n => commitDurable s n && (match s.shroud.stripes.find n with | some st => st.applied | none => true)
      | none => false)
    let s := { s with shroud.records := s.shroud.records.filter fun m => !done m }
    let gone := s.shroud.images.filter fun i => !i.released && imageReleased s i
    let s := each gone (fun i s => emptySet i.set (appendBuilt 6 i.set s))
      { s with shroud.images := s.shroud.images.map fun i => if imageReleased s i then { i with released := true } else i }
    sweepGroups (if gone.isEmpty then s else fillSets s)

end Sys2Proof.Machine
end

