-- ==== Sys2Proof/Machine/Stripes.lean ====
section
/-!
DEFINITION. The life of a stripe (R408 to R425, R436 to R441): opening, placement of units and records, member
programs, commit, closing, abandonment and application; die failures (R544), reshape (R556 to R560) and rescue of lost
stripes (R552, R553).
-/

namespace Sys2Proof.Machine

/-! ### Looking at stripes -/

/-- A stripe by serial. -/
def State.stripe (s : State) (n : Nat) : Option Stripe := s.shroud.stripes.find n

/-- Change a stripe. -/
def onStripe (n : Nat) (f : Stripe → Stripe) (s : State) : State :=
  match s.stripe n with
  | some st => { s with shroud.stripes := s.shroud.stripes.put n (f st) }
  | none => s

/-- In flight: open and not yet committed (R422). -/
def Stripe.inFlight (st : Stripe) : Bool :=
  match st.state with
  | .filling => true
  | .programming => true
  | _ => false

/-- Stripes in flight. -/
def inFlightCount (s : State) : Nat := (s.shroud.stripes.vals.filter Stripe.inFlight).length

/-- No commit or closed record enters the journal from L4 step 1, Flush step 3 or Thermal Halt entry (R423). -/
def State.commits (s : State) : Bool :=
  s.reset_ctl.sequence.isNone && s.thermal.entry.isNone &&
    (match s.mode with | .flush => false | .hold => false | .thermalHalt => false | .start => false | _ => true)

/-- Stripes are opened in this mode. -/
def State.builds (s : State) : Bool :=
  s.commits && (match s.mode with | .patrol => false | _ => true)

/-! ### The redundancy page (R545) -/

/-- The reshape field of the table "Redundancy page": relocation pauses while a die waits for its rebuild or is rebuilt, in
Read-Only, and in every mode that pauses a rebuild (R560). -/
def reshapeState (s : State) : Nat :=
  if s.red.status.reshape = 0 then 0 else if rebuildWaits s || !rebuildMode s then 2 else 1

/-- Write a redundancy page: a die state, the shape in force or the reshape state changed. Before the floor is seeded it is
held until its stamp arrives (R64). -/
def writeRedPage (s : State) : State :=
  let old := s.redun.page_held.getD (s.redun.page.getD {})
  let new : RedPage := { old with
      seq := old.seq + 1
      in_force := s.shapeNow
      source := s.red.status.from_shape.toNat
      reshape := reshapeState s
      in_force_entry := old.in_force_entry.orElse fun _ => some (s.shape s.shapeNow) }
  if s.camp.status.floor_seeded then
    let (st, s) := takeStamp s
    { s with redun.page := some { new with stamp := st } }
  else request .redPage { s with redun.page_held := some new }

/-! ### Shapes (R411, R556 to R558) -/

/-- A used shape that has channels enough (R411). -/
def shapeOpens (s : State) (i : Nat) : Bool :=
  decide (0 < (s.shape i).data) && decide ((s.shape i).width ≤ (channelsOf s (s.shape i)).length)

/-- The fallback shape (R556). -/
def fallbackShape (s : State) : Option Nat :=
  (List.range s.shroud.shapes.length).find? fun i => i != s.shapeNow && shapeOpens s i

/-- A reshape begins: its redundancy page is being made durable (R558, R559). -/
def beginReshape (target : Nat) (s : State) : State :=
  raise (src 12 5) 0 [] { s with redun.cutover := some target }

/-- A reshape to a target by R558; the spares test is not made under R556. -/
def tryReshape (target : Nat) (testSpares : Bool) (s : State) : State :=
  if shapeOpens s target && (!testSpares || decide ((lastStand s (s.shape target) : Int) ≤ sparesWith s (s.shape target))) then
    beginReshape target s
  else raise (src 12 7) 0 [] { s with red.status.target_refused := true }

/-- The shape for a new stripe (R411, R556, R557). -/
def chooseShape (s : State) : Option Nat :=
  if shapeOpens s s.shapeNow then some s.shapeNow else fallbackShape s

/-- Note that the shape in force cannot open: the fallback and its reshape, or fatal_shape (R556, R557). -/
def noteShape (s : State) : State :=
  let s := if (chooseShape s).isSome then { s with red.status.fatal_shape := false } else s
  if shapeOpens s s.shapeNow then s
  else match fallbackShape s with
    | some i =>
      if s.red.status.fallback_shape then s
      else
        let s := { s with red.status.fallback_shape := true }
        if s.red.status.reshape = 0 ∧ s.redun.cutover.isNone then tryReshape i false s
        else { s with redun.page := s.redun.page.map fun p => { p with pending := some i } }
    | none => if s.red.status.fatal_shape then s else fatalCondition { s with red.status.fatal_shape := true }

/-! ### Choice of dies and blocks (R412, R463, R478) -/

/-- Pages of a member on each plane (R409). -/
def memberPages (s : State) (p : Shape) (die : Nat) : Nat := 4 * p.slots / (s.geo die).planes

/-- The open block of a stream on a die with room for a member. -/
def openBlock (s : State) (copy : Bool) (p : Shape) (die : Nat) : Option Nat :=
  (s.reclaim.blocks.find? fun q => q.1 / 4096 == die && q.2.state == .opened && q.2.copyStream == copy
    && decide (q.2.next_page + memberPages s p die ≤ (s.geo die).pages)).map fun q => q.1 % 4096

/-- The erased block that a stream opens on a die: lowest pe for the host stream, highest for the copy stream (R478). -/
def erasedBlock (s : State) (copy : Bool) (die : Nat) : Option Nat :=
  let l := ((List.range (s.geo die).blocks).filter fun b => decide (16 ≤ b) && (s.blockAt (blockKey die b)).state == .erased)
  leastOn (fun b => if copy then 2 ^ 32 - (s.blockAt (blockKey die b)).pe else (s.blockAt (blockKey die b)).pe) l

/-- The die has room for a member. -/
def hasRoom (s : State) (copy : Bool) (p : Shape) (die : Nat) : Bool :=
  (openBlock s copy p die).isSome || (erasedBlock s copy die).isSome

/-- Dies of a channel in the order of its cursor, those that were skipped first (R412). -/
def cursorOrder (s : State) (copy : Bool) (c : Nat) : List Nat :=
  let at_ := (if copy then s.shroud.cursor_copy else s.shroud.cursor_host).look 0 c
  let owed := (if copy then s.shroud.skipped_copy else s.shroud.skipped_host).filter fun d => dieChannel d == c
  owed ++ (((List.range 32).map fun i => 32 * c + (at_ + i) % 32).filter fun d => s.declared d && !owed.contains d)

/-- The die a member takes on a channel. -/
def pickDie (s : State) (copy : Bool) (p : Shape) (c : Nat) : Option Nat :=
  (cursorOrder s copy c).find? fun d => s.usable d && hasRoom s copy p d

/-- The cursor moves past the die taken; dies passed over keep their turn. -/
def moveCursor (copy : Bool) (c die : Nat) (s : State) : State :=
  let passed := (cursorOrder s copy c).takeWhile fun d => d != die
  let owed := if copy then s.shroud.skipped_copy else s.shroud.skipped_host
  let was := owed.contains die
  let owed := (owed.filter fun d => d != die) ++ passed.filter fun d => !owed.contains d
  let pos := if was then (if copy then s.shroud.cursor_copy else s.shroud.cursor_host).look 0 c else (die % 32 + 1) % 32
  if copy then { s with shroud.skipped_copy := owed, shroud.cursor_copy := s.shroud.cursor_copy.put c pos }
  else { s with shroud.skipped_host := owed, shroud.cursor_host := s.shroud.cursor_host.put c pos }

/-- The first page of an erased block is read before it is opened (R463), unless a check is under way. -/
def beginCheck (die block : Nat) (s : State) : State :=
  let under := s.media.ops.vals.any fun o => o.owner == .check && o.die == die && o.block == block
  if under then s
  else addOp { kind := .read, owner := .check, die := die, block := block, pending := [0], stamp := s.nextStamp } s

/-- Take room for a member on a die: its open block, or an erased block that has passed its check. -/
def takeRoom (copy : Bool) (p : Shape) (die : Nat) (s : State) : Option Member × State :=
  let n := memberPages s p die
  match openBlock s copy p die with
  | some b =>
    let k := blockKey die b
    let page := (s.blockAt k).next_page
    (some { die := die, block := b, page := page }, onBlock k (fun x => { x with next_page := page + n }) s)
  | none => match erasedBlock s copy die with
    | none => (none, s)
    | some b =>
      let k := blockKey die b
      if (s.blockAt k).checked then
        (some { die := die, block := b, page := 0 },
          onBlock k (fun x => { x with state := .opened, copyStream := copy, next_page := n, queued := none }) s)
      else (none, beginCheck die b s)

/-- Members of a stripe, in member-position order; `none` where a channel has no room yet (R411). -/
def takeMembers (copy : Bool) (p : Shape) : List Nat → State → Option (List Member) × State
  | [], s => (some [], s)
  | c :: rest, s =>
    match pickDie s copy p c with
    | none => (none, s)
    | some d =>
      match takeRoom copy p d s with
      | (none, s) => (none, s)
      | (some m, s) =>
        match takeMembers copy p rest (moveCursor copy c d s) with
        | (some l, s) => (some (m :: l), s)
        | (none, s) => (none, s)

/-! ### Opening (R420 to R422, R469, R470) -/

/-- The victim of class 4 that sets the throttle. -/
def throttleVictim (s : State) : Option Victim := s.reclaim.victims.find? fun v => v.cls == 4

/-- Credit a host stripe needs, and the ratio of RCL_THROTTLE (R469). -/
def creditNeed (s : State) (n : Nat) : Option (Nat × Nat) :=
  (throttleVictim s).map fun v =>
    let u := groupValid s v.blocks
    let c := groupCapacity s v.blocks
    let span := s.rcl.fgStart.toNat - s.rcl.fgFloor.toNat
    let boost := span + s.rcl.fgStart.toNat - freeCount s
    if c ≤ u ∨ span = 0 then (0, 0)
    else (divUp (n * u * boost) ((c - u) * span), 256 * u * boost / ((c - u) * span))

/-- Host-stream stripes open without credit down to 2 × W (R470). -/
def freeOfCredit (s : State) (pad : Bool) : Bool :=
  pad || s.mode == .readOnly || decide (s.pwr.shroudAllow.toNat < occupancyWith s 0)

/-- A host-stream stripe may open (R371, R422, R469, R470), and the credit it takes. -/
def hostMayOpen (s : State) (p : Shape) (pad : Bool) : Option Nat :=
  let waiting := min p.units (s.shroud.held.filter fun u => u.serial.isNone).length
  if s.str.cfg.inflight_max.toNat ≤ inFlightCount s then none
  else if fineFree s < fineDemand s + waiting then none
  else
    let f := freeCount s
    if levelFor s ≤ 1 then some 0
    else if freeOfCredit s pad && decide (2 * p.width ≤ f) then some 0
    else if levelFor s = 2 then
      match creditNeed s p.units with
      | some (need, _) => if need ≤ s.reclaim.credit then some need else none
      | none => none
    else none

/-- Every source of a victim has been read. -/
def victimRead (s : State) (v : Victim) : Bool :=
  !s.media.ops.vals.any fun o => match o.owner with
    | .copy _ a => v.blocks.contains (puaKey a)
    | _ => false

/-- A copy-stream stripe may open (R422, R470, R475). -/
def copyMayOpen (s : State) (p : Shape) : Bool :=
  decide (inFlightCount s < s.str.cfg.inflight_max.toNat) && !s.rcl.status.dtwin
    && (decide (p.width ≤ freeCount s) || s.reclaim.victims.any (victimRead s))

/-- Open a stripe of a stream, if it may (R411, R420 to R422). -/
def openStripe (copy pad : Bool) (s : State) : State :=
  let s := noteShape s
  match chooseShape s with
  | none => s
  | some i =>
    let p := s.shape i
    let credit := if copy then (if copyMayOpen s p then some 0 else none) else hostMayOpen s p pad
    match credit with
    | none =>
      if copy then s
      else
        let low := decide (fineFree s < fineDemand s + (s.shroud.held.filter fun u => u.serial.isNone).length)
        let throttled := !low && levelFor s == 2 && !s.reclaim.stalled
        { s with
          map.status.fine_low := low
          reclaim.stalled := s.reclaim.stalled || throttled
          rcl.throttle.stalls := if throttled then satAdd s.rcl.throttle.stalls 1 else s.rcl.throttle.stalls }
    | some need =>
      let serial := s.shroud.serial + 1
      let chans := channelsOf s p
      let r := serial % p.width
      match takeMembers copy p ((List.range p.width).map fun k => chans.getD ((k + r) % p.width) 0) s with
      | (none, t) => { s with media.ops := t.media.ops, media.op_next := t.media.op_next }
      | (some ms, s) =>
        let (st, s) := takeStamp s
        let x : Stripe := { shape := i, copyStream := copy, open_stamp := st, members := ms }
        let s := { s with
          shroud.stripes := s.shroud.stripes.put serial x
          shroud.serial := serial
          str.serial := BitVec.ofNat 64 serial
          engine.stripes_since := s.engine.stripes_since + 1 }
        let s := each (ms.zipIdx) (fun m s => (tslFreeSlot .stripes (memberEntry m.1.die m.1.block m.2 serial) s).2) s
        let s := refreshLevels s
        let s := if copy then { s with shroud.filling_copy := some serial }
                 else { s with shroud.filling_host := some serial, map.status.fine_low := false,
                               reclaim.credit := s.reclaim.credit - need, reclaim.stalled := false }
        if s.map.ckptStripes.toNat ≤ s.engine.stripes_since then checkpointTrigger s else s

/-! ### Issuing members (R422) -/

/-- Stamp of a stripe's programs at the ledger: its open stamp, or for copies the stamp at which the victim was chosen
(R472). -/
def programStamp (s : State) (st : Stripe) : Nat :=
  if st.copyStream then (match s.reclaim.victims with | v :: _ => v.chosen.stamp.toNat | [] => st.open_stamp.stamp.toNat)
  else st.open_stamp.stamp.toNat

/-- Issue one member. -/
def issueMember (serial pos : Nat) (s : State) : State :=
  match s.stripe serial with
  | none => s
  | some st => match st.members[pos]? with
    | some m =>
      if m.state = .filling ∧ s.dieDown m.die = false then
        addOp { kind := .program, owner := .member serial pos, die := m.die, block := m.block, page := m.page,
                stamp := programStamp s st }
          (onStripe serial (fun st => { st with
            state := .programming
            members := st.members.set pos { m with state := .issued } }) s)
      else s
    | none => s

/-- The last data slot of data member `m`; a member with a summary slot is issued at the end. -/
def memberFull (p : Shape) (filled m : Nat) : Bool :=
  decide (m + 2 < p.data) && decide (16 * (m + p.data * (p.slots - 1)) + 16 ≤ filled)

/-- Issue every data member whose slots are all filled. -/
def issueFull (serial : Nat) (s : State) : State :=
  match s.stripe serial with
  | none => s
  | some st =>
    let p := s.shape st.shape
    each ((List.range p.data).filter fun m => memberFull p st.units.length m) (issueMember serial) s

/-- Every data unit is placed: the rest of the members are issued, and the stream has no stripe being filled. -/
def finishFilling (serial : Nat) (s : State) : State :=
  match s.stripe serial with
  | none => s
  | some st =>
    let s := if st.copyStream then { s with shroud.filling_copy := none }
             else disarm .stripePad 0 { s with shroud.filling_host := none }
    each (List.range st.members.length) (issueMember serial) s

/-- Put units into a stripe, and finish it when it is full. -/
def putUnits (serial : Nat) (l : List UnitSource) (s : State) : State :=
  let s := onStripe serial (fun st => { st with units := st.units ++ l }) s
  let s := issueFull serial s
  match s.stripe serial with
  | some st => if (s.shape st.shape).units ≤ st.units.length then finishFilling serial s else s
  | none => s

/-- Pad a stripe with empty units and close it (R425). -/
def padStripe (serial : Nat) (s : State) : State :=
  match s.stripe serial with
  | some st => putUnits serial (List.replicate ((s.shape st.shape).units - st.units.length) .empty) s
  | none => s

/-! ### The host stream (R414, R419, R421) -/

/-- Host units not yet assigned, in stamp order. -/
def unplaced (s : State) : List HeldUnit :=
  sortOn (fun u : HeldUnit => u.stamp.stamp.toNat) (s.shroud.held.filter fun u => u.serial.isNone && !u.applied)

/-- The next 16 host units are one reef, written by one command in ascending order (R414). -/
def wholeReef (l : List HeldUnit) : Bool :=
  match l with
  | [] => false
  | u :: _ => u.unit % 16 == 0 && decide (16 ≤ l.length)
      && ((l.take 16).zipIdx.all fun p => p.1.unit == u.unit + p.2 && p.1.cmd == u.cmd)

/-- Mark units assigned to a stripe. -/
def assignUnits (serial : Nat) (l : List HeldUnit) (s : State) : State :=
  { s with shroud.held := s.shroud.held.map fun u =>
      if l.any fun v => v.unit = u.unit ∧ v.stamp = u.stamp then { u with serial := some serial } else u }

/-- The source that a held unit is in a stripe. -/
def HeldUnit.source (u : HeldUnit) : UnitSource := .host u.unit u.stamp

/-- The oldest record not yet assigned. -/
def unplacedRecord (s : State) : Option MapRecord :=
  leastOn (fun m : MapRecord => m.stamp.stamp.toNat) (s.shroud.records.filter fun m => m.serial.isNone)

/-- Place units at the end of the stripe being filled, on a slot boundary where they are a whole reef. -/
def placeHost (serial : Nat) (l : List HeldUnit) (s : State) : State :=
  match s.stripe serial, l with
  | some st, u :: _ =>
    let pad := if l.length = 16 then (16 - st.units.length % 16) % 16 else 0
    let first := !(st.units.any fun x => match x with | .host _ _ => true | _ => false)
    let s := if first then armAt .stripePad 0 (u.stamp.stamp.toNat + s.str.padAge.toNat) s else s
    if (s.shape st.shape).units < st.units.length + pad + l.length then padStripe serial s
    else putUnits serial (List.replicate pad .empty ++ l.map HeldUnit.source) (assignUnits serial l s)
  | _, _ => s

/-- Something waits for the host stream. -/
def hostWaits (s : State) : Bool :=
  !s.shroud.replace.isEmpty || !(unplaced s).isEmpty || (unplacedRecord s).isSome
    || (match s.engine.current with | some c => decide (0 < c.units_left) | none => false)

/-- Place the next thing into the stripe being filled: a map or checkpoint unit that waits, else the record or units of
lowest stamp, else a unit of the checkpoint in progress. -/
def placeNext (serial : Nat) (s : State) : State :=
  match s.shroud.replace with
  | u :: rest => putUnits serial [u] { s with shroud.replace := rest }
  | [] =>
    match unplacedRecord s, unplaced s, s.stripe serial with
    | some m, l, some st =>
      if l.isEmpty || l.any (fun u => decide (m.stamp.stamp.toNat < u.stamp.stamp.toNat)) && (match l with
          | u :: _ => decide (m.stamp.stamp.toNat < u.stamp.stamp.toNat) | [] => true) then
        if (s.shape st.shape).records ≤ st.records.length then padStripe serial s
        else
          onStripe serial (fun st => { st with records := st.records ++ [m] })
            { s with shroud.records := s.shroud.records.map fun r => if r.stamp = m.stamp then { r with serial := some serial } else r }
      else placeHost serial (if wholeReef l then l.take 16 else l.take 1) s
    | none, u :: l, _ => placeHost serial (if wholeReef (u :: l) then (u :: l).take 16 else [u]) s
    | none, [], _ => match s.engine.current with
      | some c =>
        if 0 < c.units_left then
          let (st, s) := if c.units_left = 1 then takeStamp s else (c.complete_stamp, s)
          putUnits serial [.checkpoint c.begin_stamp.stamp.toNat (c.units - c.units_left)]
            { s with engine.current := some { c with units_left := c.units_left - 1, complete_stamp := st } }
        else s
      | none => s
    | _, _, none => s

/-- Place while something waits and a stripe is, or can be, open. -/
def fillHost : Nat → State → State
  | 0, s => s
  | n + 1, s =>
    if !s.builds || !hostWaits s then s
    else
      let s := if s.shroud.filling_host.isNone then openStripe false false s else s
      match s.shroud.filling_host with
      | some serial => fillHost n (placeNext serial s)
      | none => s

/-- How many placements the host stream may need. -/
def hostWork (s : State) : Nat :=
  2 * (s.shroud.replace.length + s.shroud.held.length + s.shroud.records.length
    + (match s.engine.current with | some c => c.units_left | none => 0)) + 2

/-! ### The copy stream (R414, R421) -/

/-- Place of a copy in the copy stream: a fold first while fine tables are short (R371); then rescues and
placements made again, with class 0; then class 1; then rebuild copies, whose sources lie on failed dies (R550); then the victims' units, of
the lower class first (R467). -/
def copyRank (s : State) (c : UnitSource) : Nat :=
  match c with
  | .copy g _ a =>
    if s.map.status.fine_low && s.engine.folding.contains (g / 16) then 0
    else match s.reclaim.victims.find? fun v => v.blocks.contains (puaKey a) with
      | some v => if v.cls ≤ 1 then 1 + v.cls else if s.dieDown (puaDie a) then 3 else 2 + v.cls
      | none => if s.dieDown (puaDie a) then 3 else 1
  | _ => 1

/-- Copies that may be placed now, in their order: those of a fold wait until all 16 are here (R370). -/
def readyCopies (s : State) : List UnitSource :=
  sortOn (copyRank s) (s.shroud.copies.filter fun c => match c with
    | .copy g _ _ =>
      let r := g / 16
      !s.engine.folding.contains r || !(s.media.ops.vals.any fun o => match o.owner with
        | .copy h _ => h / 16 == r
        | _ => false)
    | _ => true)

/-- The next 16 copies fold one reef (R370, R414). -/
def wholeFold (s : State) (l : List UnitSource) : Bool :=
  match l with
  | .copy g _ _ :: _ => s.engine.folding.contains (g / 16) && g % 16 == 0 && decide (16 ≤ l.length)
      && ((l.take 16).zipIdx.all fun p => match p.1 with | .copy h _ _ => h == g + p.2 | _ => false)
  | _ => false

/-- Place the copies that come next. -/
def placeCopies (serial : Nat) (s : State) : State :=
  match s.stripe serial with
  | none => s
  | some st =>
    let ready := readyCopies s
    let n := if wholeFold s ready then 16 else 1
    let pad := if n = 16 then (16 - st.units.length % 16) % 16 else 0
    if (s.shape st.shape).units < st.units.length + pad + n then padStripe serial s
    else putUnits serial (List.replicate pad .empty ++ ready.take n)
      { s with shroud.copies := s.shroud.copies.filter fun c => !(ready.take n).contains c }

/-- Place copies while some wait; none in a deterministic window (R475). -/
def fillCopy : Nat → State → State
  | 0, s => s
  | n + 1, s =>
    if !s.builds || s.rcl.status.dtwin || (readyCopies s).isEmpty then s
    else
      let s := if s.shroud.filling_copy.isNone then openStripe true false s else s
      match s.shroud.filling_copy with
      | some serial => fillCopy n (placeCopies serial s)
      | none => s

/-- Build stripes from what waits (R421). -/
def pump (s : State) : State :=
  let s := fillHost (hostWork s) s
  fillCopy (2 * s.shroud.copies.length + 2) s

/-- Close the copy stripe being filled once its victims have nothing left, so that their units can be applied. -/
def padCopies (s : State) : State :=
  match s.shroud.filling_copy with
  | some n => padStripe n s
  | none => s

/-! ### Placing again (R437) -/

/-- Read a copy's source (R466); for a rescue, a rebuild or a reclaim copy alike. -/
def readCopy (stamp g a : Nat) (s : State) : State :=
  addOp { kind := .read, owner := .copy g a, die := puaDie a, block := puaBlock a, page := puaPage a, plane := puaPlane a,
          pending := [4 * puaPlane a + puaUnit a], stamp := stamp }
    (onBlock (puaKey a) (fun b => { b with inflight := b.inflight + 1 }) s)

/-- A unit of a stripe that will not be applied is placed again by its own means. -/
def placeAgain (serial : Nat) (u : UnitSource) (s : State) : State :=
  match u with
  | .empty => s
  | .host g k =>
    { s with shroud.held := s.shroud.held.map fun x =>
        if x.unit = g ∧ x.stamp = k ∧ x.serial = some serial then { x with serial := none } else x }
  | .copy g _ a => readCopy s.nextStamp g a s
  | .mapPage page _ => dirtyPage page s
  | .checkpoint id o => { s with shroud.replace := s.shroud.replace ++ [.checkpoint id o] }

/-- Records of a stripe that will not be applied are placed again. -/
def recordsAgain (serial : Nat) (s : State) : State :=
  { s with shroud.records := s.shroud.records.map fun m => if m.serial = some serial ∧ !m.applied then { m with serial := none } else m }

/-- Teasel entries of the members are removed when the stripe leaves flight (R422). -/
def dropMembers (serial : Nat) (st : Stripe) (s : State) : State :=
  each st.members.zipIdx (fun m s =>
    let e := memberEntry m.1.die m.1.block m.2 serial
    tslRemove { banks := 0x3000, key := e.key, value := e.payload, mask := BitVec.ofNat 64 (2 ^ 64 - 1) } s) s

/-- Member list of a stay record: die, block, base page and failed flag (R431). -/
def memberList (st : Stripe) : List (Nat × Nat × Nat × Bool) :=
  st.members.map fun m => (m.die, m.block, m.page, m.state == .failed)

/-- Abandon a stripe (R439, R440): none of its units is applied, each is placed again, the blocks of its good members
are closed and queued. -/
def abandonStripe (serial : Nat) (s : State) : State :=
  match s.stripe serial with
  | none => s
  | some st =>
    if !st.inFlight then s
    else
      let s := onStripe serial (fun st => { st with state := .abandoned }) s
      let s := { s with
        shroud.filling_host := if s.shroud.filling_host = some serial then none else s.shroud.filling_host
        shroud.filling_copy := if s.shroud.filling_copy = some serial then none else s.shroud.filling_copy
        str.failCount.abandoned := satAdd s.str.failCount.abandoned 1 }
      let s := dropMembers serial st s
      let s := each st.units (placeAgain serial) (recordsAgain serial s)
      let s := appendStay 3 0 serial st.open_stamp [] s
      let s := each (st.members.filter fun m => m.state != .failed) (fun m s =>
        match (s.blockAt (blockKey m.die m.block)).state with
        | .retired => s
        | _ => queueBlock 1 (blockKey m.die m.block) s) s
      raise (src 10 1) 0 [] s

/-! ### Commit (R423, R436 to R438) -/

/-- A member's program succeeded: its units are on flash, those of the summary and of parity among them (R409, R413, R415). -/
def programMember (serial pos : Nat) (s : State) : State :=
  match s.stripe serial with
  | none => s
  | some st =>
    let p := s.shape st.shape
    let held := fun (i k : Nat) =>
      if pos < p.data then dataUnitAt s serial st pos i k else parityUnit s serial st (pos - p.data) i k
    each ((List.range p.slots).flatMap fun i => (List.range 16).map fun k => (i, k)) (fun q s =>
      { s with reclaim.flash := s.reclaim.flash.put (frameAddress s st pos (q.1 * p.data * 16 + q.2)) (held q.1 q.2) }) s

/-- Members recorded failed. -/
def Stripe.failures (st : Stripe) : Nat := (st.members.filter fun m => m.state == .failed).length

/-- Every member that is to be used has reported. -/
def Stripe.reported (st : Stripe) : Bool := st.members.all fun m => m.state == .ok || m.state == .failed

/-- Units on failed members. -/
def failedUnits (s : State) (st : Stripe) : List UnitSource :=
  ((List.range st.members.length).filter fun m => ((st.members[m]?).map Member.state) == some .failed).flatMap fun m =>
    (memberUnits s st m).map fun u => st.units.getD u .empty

/-- Only parity members failed (R438). -/
def parityOnly (s : State) (st : Stripe) : Bool :=
  (List.range (s.shape st.shape).data).all fun m => ((st.members[m]?).map Member.state) != some .failed

/-- Commit or close a stripe whose members have all reported, or abandon one with too many failures (R423, R436 to
R439). -/
def settleStripe (serial : Nat) (s : State) : State :=
  match s.stripe serial with
  | none => s
  | some st =>
    if !st.inFlight then s
    else if (s.shape st.shape).parity < st.failures then abandonStripe serial s
    else if !st.reported || !s.commits then s
    else
      let bad := st.failures ≠ 0
      let s := onStripe serial (fun st => { st with state := if bad then .closed else .committed }) s
      let s := dropMembers serial st s
      let s := appendStay (if bad then 2 else 1) 0 serial st.open_stamp (memberList st) s
      if bad then
        let s := each (failedUnits s st) (placeAgain serial) s
        let s := if parityOnly s st then
            each st.members (fun m s => match (s.blockAt (blockKey m.die m.block)).state with
              | .retired => s
              | _ => queueBlock 1 (blockKey m.die m.block) s) s
          else s
        raise (src 10 0) 0 []
          { s with str.failCount.closed := satAdd s.str.failCount.closed 1 }
      else s

/-- A block whose pages are all taken is closed (R453). -/
def closeFull (die block : Nat) (s : State) : State :=
  let k := blockKey die block
  if (s.geo die).pages ≤ (s.blockAt k).next_page then closeBlock k s else s

/-- Mark a member failed, retire its block and queue it (R436); `error` where the program failure is an error of its
own, not one occurrence of another cause (R756). -/
def failMember (error : Bool) (serial pos : Nat) (s : State) : State :=
  match s.stripe serial with
  | none => s
  | some st => match st.members[pos]? with
    | none => s
    | some m =>
      let k := blockKey m.die m.block
      let s := onStripe serial (fun st => { st with members := st.members.set pos { m with state := .failed } }) s
      let s := if error then takeError { source := src 11 0, kind := 1, serial := serial } [serial] s else raise (src 11 0) 0 [] s
      let had := decide (0 < (s.blockAt k).valid)
      let s := retireBlock true k s
      if had then queueBlock 0 k s else s

/-- A member program reports (R423, R436). -/
def memberReported (serial pos : Nat) (ok : Bool) (s : State) : State :=
  match s.stripe serial with
  | none => s
  | some st => match st.members[pos]? with
    | none => s
    | some m =>
      if m.state ≠ .issued then s else
      let s := if ok then programMember serial pos (onStripe serial (fun st => { st with
                  members := st.members.set pos { m with state := .ok } }) s)
               else failMember true serial pos s
      settleStripe serial (if ok then closeFull m.die m.block s else s)

/-! ### Application (R378 to R380) -/

/-- A unit of a stripe that is applied: not on a failed member. -/
def liveUnit (s : State) (st : Stripe) (u : Nat) : Bool :=
  ((st.members[slotMember (s.shape st.shape) (u / 16)]?).map Member.state) != some .failed

/-- Unapplied host units and records in key order: key, and the stripe each is in (R378). -/
def keyOrder (s : State) : List (Nat × Option Nat) :=
  sortOn (fun p : Nat × Option Nat => p.1)
    ((s.shroud.held.filter fun u => !u.applied).map (fun u => (u.stamp.stamp.toNat, u.serial))
      ++ (s.shroud.records.filter fun m => !m.applied).map fun m => (m.stamp.stamp.toNat, m.serial))

/-- Apply the host unit at one unit index of a stripe, if it is the one with key `k`. -/
def applyHost (k : Nat) (st : Stripe) (s : State) : State :=
  match (List.range st.units.length).find? fun u => (match st.units.getD u .empty with
      | .host _ j => j.stamp.toNat == k
      | _ => false) && liveUnit s st u with
  | none => s
  | some u => match st.units.getD u .empty with
    | .host g _ =>
      let s := setUnit g (.flash (unitAddress s st u)) s
      match s.shroud.held.find? fun x => x.unit == g && x.stamp.stamp.toNat == k with
      | some x => raiseHorizon x.stamp { s with shroud.held := s.shroud.held.map fun y =>
          if y.unit = g ∧ y.stamp.stamp.toNat = k then { y with applied := true } else y }
      | none => s
    | _ => s

/-- Apply the change with key `k` of a stripe: its record, or its host unit. -/
def applyKey (st : Stripe) (k : Nat) (s : State) : State :=
  match s.shroud.records.find? fun m => !m.applied && m.stamp.stamp.toNat == k with
  | some m => applyRecord m (leaveRecord m { s with shroud.records := s.shroud.records.map fun r =>
      if r.stamp.stamp.toNat = k then { r with applied := true } else r })
  | none => applyHost k st s

/-- Apply a copy, or drop it (R379); an applied copy adds a credit (R469). -/
def applyCopy (st : Stripe) (u : Nat) (s : State) : State :=
  match st.units.getD u .empty with
  | .copy g _ a =>
    if entryOf s g = .flash a ∧ liveUnit s st u then
      let n := (s.shape st.shape).units
      { setUnit g (.flash (unitAddress s st u)) s with
        reclaim.credit := if s.rcl.status.level = 2 then min (16 * n) (s.reclaim.credit + 1) else s.reclaim.credit }
    else s
  | .mapPage page _ =>
    if liveUnit s st u then
      let new := unitAddress s st u
      let old := match s.engine.directory.find page with | some a => Loc.flash a | none => .unmapped
      moveValid old (.flash new) { s with engine.directory := s.engine.directory.put page new }
    else s
  | _ => s

/-- What was buffered for a copy or a map unit goes once its stripe is applied. -/
def dropBuffered (u : UnitSource) (s : State) : State :=
  match u with
  | .copy _ _ a => { s with shroud.copied := s.shroud.copied.drop a }
  | .mapPage _ k => { s with engine.captured := s.engine.captured.drop k.stamp.toNat }
  | _ => s

/-- Apply what a committed stripe may apply now: its changes of lowest key while no other change is lower (R378), then
its copies and map units (R379). -/
def applyStripe (serial : Nat) (s : State) : State :=
  match s.stripe serial with
  | none => s
  | some st =>
    if st.applied || !(st.state == .committed || st.state == .closed) then s
    else
      let keys := ((keyOrder s).takeWhile fun p => p.2 == some serial).map Prod.fst
      let s := each keys (applyKey st) s
      if (keyOrder s).any fun p => p.2 == some serial then s
      else
        let s := each (List.range st.units.length) (applyCopy st) s
        let s := onStripe serial (fun st => { st with applied := true }) (each st.units dropBuffered s)
        releaseDurable (hurryStays s)

/-! ### Lost stripes (R552, R553) -/

/-- Unit indexes of a stripe whose entry still holds their address (R549, R553). -/
def wantedUnits (s : State) (st : Stripe) : List (Nat × Nat) :=
  (List.range st.units.length).filterMap fun u =>
    let a := unitAddress s st u
    let hit := fun (g : Nat) => if entryOf s g = .flash a then some (g, a) else none
    match st.units.getD u .empty with
    | .host g _ => hit g
    | .copy g _ _ => hit g
    | _ => none

/-- Hold a record of kind 0x05 for one unit with a cause (R553, R676). -/
def markUnreadable (g cause : Nat) (s : State) : State :=
  let (st, s) := takeStamp s
  let ns := match namespaceUnit s g with | some p => p.1 | none => 0
  holdMapRecord { kind := 5, stamp := st, ns_index := ns, ordinal := cause, first := g, count := 1 } s

/-- The lost-stripe event: the low word of the serial, the units marked, the stamp of the escalation (R553, R743). -/
def lostEvent (r : Rescue) (s : State) : State :=
  if s.sourceOn (src 12 4) then
    request (.event { source := src 12 4, pay_unanch := if r.stamp.unanch then 2 else 0,
                      payload := leBytes 4 r.serial ++ leBytes 4 r.marked ++ leBytes 8 r.stamp.stamp.toNat }) s
  else s

/-- A stripe's rescue has no read outstanding: the lost record, the refresh report, the log entry and the event. -/
def endRescue (serial : Nat) (s : State) : State :=
  match s.stripe serial with
  | none => s
  | some st =>
    match s.redun.rescuing.find? fun r => r.serial == serial with
    | none => s
    | some r =>
      let open_ := (s.media.ops.vals.any fun o => match o.owner with
        | .copy _ a => st.members.any fun m => m.die == puaDie a && m.block == puaBlock a
        | _ => false) || s.redun.recons.vals.any fun r => r.serial == serial && (match r.use with | .copy _ _ => true | _ => false)
      if open_ then s
      else
        let s := { s with
          redun.rescuing := s.redun.rescuing.filter fun x => x.serial != serial
          red.lost.stripes := satAdd s.red.lost.stripes 1
          health.counts.stripes_lost := s.health.counts.stripes_lost + 1 }
        let s := appendStay 4 0 serial st.open_stamp [] s
        let s := match st.members with
          | m :: _ => reportRefresh (blockKey m.die m.block) s
          | [] => s
        lostEvent r s

/-- A rescue begins, or is repeated in full (R553, R554): each unit whose entry still holds its address is read. -/
def startRescue (stamp serial : Nat) (s : State) : State :=
  match s.stripe serial with
  | none => s
  | some st => endRescue serial (each (wantedUnits s st) (fun p => readCopy stamp p.1 p.2) s)

/-- Escalate a committed stripe to lost and begin its rescue (R552, R553). -/
def loseStripe (serial : Nat) (s : State) : State :=
  match s.stripe serial with
  | none => s
  | some st =>
    if st.state = .lost ∨ st.state = .abandoned then s
    else if st.inFlight then abandonStripe serial s
    else
      let (at_, s) := takeStamp s
      let s := onStripe serial (fun st => { st with state := .lost }) s
      let s := { s with redun.rescuing := s.redun.rescuing ++ [{ serial := serial, stamp := at_ }] }
      startRescue at_.stamp.toNat serial s

/-- Carry out the escalations the error handler has asked for (R440, R758). -/
def escalate (s : State) : State :=
  each s.events.escalations loseStripe { s with events.escalations := [] }

/-! ### Die failures (R543, R544) -/

/-- In a stripe being programmed, members on a failed die: an issued one is failed, one not issued moves to the next
usable die of its channel, once the block it takes there has passed its check (R463, R544 step 2). -/
def moveMembers (die serial : Nat) (s : State) : State :=
  match s.stripe serial with
  | none => s
  | some st =>
    if !st.inFlight then s
    else
      let p := s.shape st.shape
      let s := each (List.range st.members.length) (fun i s =>
        match (s.stripe serial).bind fun st => st.members[i]? with
        | none => s
        | some m =>
          if m.die ≠ die then s
          else match m.state with
            | .issued => failMember false serial i s
            | .filling =>
              match pickDie s st.copyStream p (dieChannel die) with
              | none => failMember false serial i s
              | some d => match takeRoom st.copyStream p d s with
                | (some new, s) =>
                  let s := onStripe serial (fun st => { st with members := st.members.set i new })
                    (moveCursor st.copyStream (dieChannel die) d s)
                  if s.shroud.filling_host = some serial ∨ s.shroud.filling_copy = some serial then issueFull serial s
                  else issueMember serial i s
                | (none, s) => s
            | _ => s) s
      settleStripe serial s

/-- A die becomes failed with a cause (R543, R544); `error` where it is an error of its own (R756). -/
def dieFails (error : Bool) (die cause : Nat) (s : State) : State :=
  if s.dieDown die then s
  else
    let s := onDie die (fun d => { d with state := 2, cause := cause, becalmed := false }) s
    let s := writeRedPage s
    let s := each (s.shroud.stripes.map Prod.fst) (moveMembers die) s
    let s := dropStaysOn die s
    let s := recount (dropSetsOn die s)
    let s := if error then takeError { source := src 12 1, kind := 5, detail := cause } [] s else raise (src 12 1) cause [] s
    noteShape (noteHealth s)

/-- A die becomes failed (R543). -/
def failDie (die cause : Nat) (s : State) : State := dieFails true die cause s

/-- Dies that fail of one cause are one error (R756). -/
def failDies (dies : List Nat) (cause : Nat) (s : State) : State :=
  match dies.filter fun d => !s.dieDown d with
  | [] => s
  | d :: rest => each rest (fun d => dieFails false d cause) (dieFails true d cause s)

/-- A retirement that brings a die to die_retire_max fails it (cause 0x6). -/
def checkRetired (die : Nat) (s : State) : State :=
  if s.red.cfg2.die_retire_max.toNat ≤ (s.die die).retired then failDie die 6 s else s

/-- Members that still wait on a failed die for a place on another (R544 step 2). -/
def retryMoves (s : State) : State :=
  each (s.shroud.stripes.flatMap fun p => if p.2.inFlight then
      ((p.2.members.filter fun m => m.state == .filling && s.dieDown m.die).map Member.die).eraseDups.map fun d => (d, p.1) else [])
    (fun q => moveMembers q.1 q.2) s

end Sys2Proof.Machine
end

