-- ==== Sys2Proof/Machine/LbaOps.lean ====
section
/-!
DEFINITION. LBAs, units and transfers (R321, R325, R344), media keys and locking ranges (R633, R634, R653, R654), and
the bytes a command moves.
-/

namespace Sys2Proof.Machine

/-! ### Fields of a command -/

/-- Logical blocks, from a count less one. -/
def Sqe.blocks (q : Sqe) : Nat := q.cdw12.toNat % 2 ^ 16 + 1

/-- Namespace index of a command (NSID − 1). -/
def Sqe.ns (q : Sqe) : Nat := q.nsid.toNat - 1

/-- A namespace by index. -/
def State.nspace (s : State) (i : Nat) : Option Namespace := s.nvme.namespaces.find i

/-- Change a namespace. -/
def onNamespace (i : Nat) (f : Namespace → Namespace) (s : State) : State :=
  match s.nspace i with
  | some n => { s with nvme.namespaces := s.nvme.namespaces.put i (f n) }
  | none => s

/-! ### Formats (table "LBA formats") -/

/-- Data bytes of an LBA. -/
def lbaData (lbaf : Nat) : Nat := if lbaf = 3 then 512 else 4096

/-- Metadata bytes of an LBA. -/
def lbaMeta (lbaf : Nat) : Nat := if lbaf = 1 then 8 else if lbaf = 2 then 64 else 0

/-- LBAs of a unit (R360). -/
def lbasPerUnit (lbaf : Nat) : Nat := if lbaf = 3 then 8 else 1

/-- Units that a range of LBAs touches: first and count. -/
def unitsOf (lbaf slba n : Nat) : Nat × Nat :=
  let k := lbasPerUnit lbaf
  (slba / k, (slba + n - 1) / k - slba / k + 1)

/-- Bytes of an LBA in a transfer: with its metadata in an extended LBA. -/
def lbaBytes (n : Namespace) : Nat := lbaData n.lbaf + (if n.extended then lbaMeta n.lbaf else 0)

/-- Bytes of a transfer of `count` LBAs, separate metadata included: it follows the data. -/
def transferBytes (n : Namespace) (count : Nat) : Nat := count * (lbaData n.lbaf + lbaMeta n.lbaf)

/-- Bytes of user data of a transfer, as MDTS and PRPs count them. -/
def transferLength (n : Namespace) (count : Nat) : Nat := count * lbaBytes n

/-- Exactly `n` bytes, zeros beyond the end. -/
def padTo (n : Nat) (b : Bytes) : Bytes := b.take n ++ List.replicate (n - b.length) 0

/-- Offset of the data of LBA `i` of a transfer. -/
def dataAt (n : Namespace) (i : Nat) : Nat := i * lbaBytes n

/-- Offset of the metadata of LBA `i` of a transfer of `count`. -/
def metaAt (n : Namespace) (count i : Nat) : Nat :=
  if n.extended then i * lbaBytes n + lbaData n.lbaf else count * lbaData n.lbaf + i * lbaMeta n.lbaf

/-- The bytes of one LBA within the 4,160 bytes of its unit: data and metadata. -/
def lbaOfUnit (lbaf lba : Nat) (u : Bytes) : Bytes × Bytes :=
  let k := lba % lbasPerUnit lbaf
  (padTo (lbaData lbaf) (u.drop (k * lbaData lbaf)), padTo (lbaMeta lbaf) (u.drop 4096))

/-- A transfer assembled from units read, by global unit index. -/
def assemble (n : Namespace) (slba count : Nat) (unit : Nat → Bytes) : Bytes :=
  let l := (List.range count).map fun i => lbaOfUnit n.lbaf (slba + i) (unit ((slba + i) / lbasPerUnit n.lbaf))
  if n.extended then l.flatMap fun p => p.1 ++ p.2
  else l.flatMap Prod.fst ++ l.flatMap Prod.snd

/-- The bytes of one unit of a write: host bytes for the LBAs it covers, `old` for the rest (R334). -/
def unitOfWrite (n : Namespace) (slba count : Nat) (buffer : List (Nat × Byte)) (u : Nat) (old : Bytes) : Bytes :=
  let k := lbasPerUnit n.lbaf
  let part := fun (i : Nat) =>
    let lba := u * k + i
    if slba ≤ lba ∧ lba < slba + count then Cells.reads buffer (dataAt n (lba - slba)) (lbaData n.lbaf)
    else padTo (lbaData n.lbaf) (old.drop (i * lbaData n.lbaf))
  let md := if lbaMeta n.lbaf = 0 then [] else Cells.reads buffer (metaAt n count (u * k - slba)) (lbaMeta n.lbaf)
  (List.range k).flatMap part ++ padTo 64 md

/-! ### Keys and locks -/

/-- The locking range that holds a unit, 0 for the Global Range (R634, R653). -/
def rangeOf (s : State) (ns unit lbaf : Nat) : Nat :=
  let lba := unit * lbasPerUnit lbaf
  ((s.security.store.ranges.find? fun p => decide (0 < p.1) && p.2.ns == ns + 1 && decide (p.2.start ≤ lba)
    && decide (lba < p.2.start + p.2.length)).map Prod.fst).getD 0

/-- A locking range. -/
def State.range (s : State) (k : Nat) : LockRange := s.security.store.ranges.look {} k

/-- Media key of a unit (R634). -/
def keyOf (s : State) (ns unit lbaf : Nat) : Nat := s.security.store.keys.look 0 (rangeOf s ns unit lbaf)

/-- Ranges that hold an LBA of a range of LBAs. -/
def rangesTouched (s : State) (ns slba count lbaf : Nat) : List Nat :=
  let u := unitsOf lbaf slba count
  ((List.range u.2).map fun i => rangeOf s ns (u.1 + i) lbaf).eraseDups

/-- A read of the LBAs is refused (R654). -/
def readLocked (s : State) (ns slba count lbaf : Nat) : Bool :=
  (rangesTouched s ns slba count lbaf).any fun k => (s.range k).read_locked

/-- A write of the LBAs is refused (R654). -/
def writeLocked (s : State) (ns slba count lbaf : Nat) : Bool :=
  (rangesTouched s ns slba count lbaf).any fun k => (s.range k).write_locked

/-- A lane has processed `n` data units (SEC_XTS_UNITS). -/
def countXts (n : Nat) (s : State) : State := { s with sec.xtsUnits := s.sec.xtsUnits + BitVec.ofNat 64 n }

/-- The first 64 attempts at a media key: 512 bits of noise for each half, conditioned with HMAC-SHA-384 in digest key slot 1, of
which a half keeps the first 256 (R630, log entry 100). -/
def keyDraws (k : Nat) : List Bytes :=
  (List.range 64).map fun i => (List.range 2).flatMap fun h =>
    (sha384Kind.hmacFrom (sha384Kind.padState 0x36 (Config.digestKey 1)) (sha384Kind.padState 0x5C (Config.digestKey 1))
      (Config.noise k i h)).take 32

/-- A media key by ordinal: the first draw whose halves differ (R630). -/
def mediaKey (k : Nat) : Bytes := ((keyDraws k).find? fun b => b.take 32 != b.drop 32).getD []

/-- The tweak of a unit: LBA of its first LBA, and namespace index (R633). -/
def tweakOf (ns unit lbaf : Nat) : Nat := unit * lbasPerUnit lbaf % 2 ^ 64 + ns % 1024 * 2 ^ 64

/-- Bytes of a data unit: the data, then the namespace's metadata (R632). -/
def dataUnitBytes (lbaf : Nat) : Nat := 4096 + lbaMeta lbaf

/-- The frame that a lane makes of a unit's 4,160 bytes under a media key (R416, R632, R635). -/
def cipherUnit (key ns unit lbaf : Nat) (b : Bytes) : Frame :=
  let c := xts false (mediaKey key) (tweakOf ns unit lbaf) (padTo (dataUnitBytes lbaf) b)
  { data := c.take 4096, metadata := padTo 64 (c.drop 4096) }

/-- A frame of a unit's 4,160 bytes, under the key in force (R634). -/
def sealUnit (s : State) (ns unit lbaf : Nat) (b : Bytes) : Frame := cipherUnit (keyOf s ns unit lbaf) ns unit lbaf b

/-- The bytes of a frame as a lane decrypts them under the key in force (R634, R635); after a key change they are no data of the
host's. -/
def openUnit (s : State) (ns unit lbaf : Nat) (f : Frame) : Bytes :=
  padTo 4160 (xts true (mediaKey (keyOf s ns unit lbaf)) (tweakOf ns unit lbaf)
    ((padTo 4096 f.data ++ padTo 64 f.metadata).take (dataUnitBytes lbaf)))

/-! ### Ends of data commands -/

/-- A command of a namespace and its format. -/
def commandSpace (s : State) (e : Entry) : Option Namespace := s.nspace e.sqe.ns

/-- Host data of a command that has arrived. -/
def hostBytes (n : Namespace) (e : Entry) : Bytes := Cells.reads e.buffer 0 (transferBytes n e.sqe.blocks)

/-- Data of the units a read has fetched. -/
def readBytes (n : Namespace) (e : Entry) : Bytes :=
  assemble n e.sqe.slba e.sqe.blocks fun u => e.got.look [] u

/-- A command that reads has all its units: a read or verify succeeds; a compare is made once its host data is here too;
a write that merges goes on (R332, R334, R348). -/
def readsEnd (t : Nat) (s : State) : State :=
  match s.nvme.tracker.find t with
  | none => s
  | some e =>
    if !e.reads_left.isEmpty || !e.unread.isEmpty || !e.remote_left.isEmpty || e.state == .done then s
    else match e.sqe.opcode.toNat with
      | 0x02 => finishEntry t 0 0 (onEntry t (fun e => { e with effect := true }) s)
      | 0x0C => finishEntry t 0 0 s
      | 0x05 => match commandSpace s e with
        | some n =>
          if e.state = .transferring then s
          else if hostBytes n e = readBytes n e then finishEntry t 0 0 s
          else finishEntry t Status.compareFailure 0 s
        | none => s
      | _ => s

/-- One unit of a command has been read. -/
def unitRead (t g unit : Nat) (b : Bytes) (s : State) : State :=
  readsEnd t (onEntry t (fun e => { e with reads_left := e.reads_left.filter fun x => x != g, got := e.got.put unit b }) s)

/-- A unit of a command cannot be had: a command that only reads completes with the status; a write that merges takes
no unit from there on (R334). -/
def unitFailed (t unit status : Nat) (s : State) : State :=
  match s.nvme.tracker.find t with
  | none => s
  | some e =>
    if e.state = .done then s
    else if e.sqe.opcode = 0x01 then
      onEntry t (fun e => { e with
        broken := some (min unit (e.broken.getD unit))
        status := if e.broken.isSome then e.status else status
        reads_left := [], unread := [], remote_left := [] }) s
    else finishEntry t status 0 (onEntry t (fun e => { e with reads_left := [], unread := [], remote_left := [] }) s)

/-- A read that a yard serves for the masthead has all its units: its entry ends (R725). -/
def endServed (t : Nat) (s : State) : State :=
  match s.nvme.tracker.find t with
  | some e =>
    if e.reads_left.isEmpty && e.unread.isEmpty then { s with nvme.tracker := s.nvme.tracker.drop t } else s
  | none => s

/-- A frame as the bytes of a read data or write data frame carry it: its ciphertext. -/
def Frame.body (f : Frame) : List Nat := (f.data ++ f.metadata).map BitVec.toNat

/-- A unit resolved for a command: `none` reads as zeros (R367). On a yard it goes to the masthead in ciphertext (R725). -/
def deliverUnit (t g unit : Nat) (f : Option Frame) (s : State) : State :=
  if s.yard then
    endServed t (sendFrame 0x19 0 t (unit :: (f.getD {}).body)
      (onEntry t (fun e => { e with reads_left := e.reads_left.filter fun x => x != g }) s))
  else match s.nvme.tracker.find t with
    | none => s
    | some e => match commandSpace s e, f with
      | some n, some f =>
        if s.sec.status.sec_store_lost then unitFailed t unit Status.unrecoveredRead s
        else unitRead t g unit (openUnit s e.sqe.ns unit n.lbaf f) (countXts 1 s)
      | some _, none => unitRead t g unit [] s
      | none, _ => s

/-- One unit of a command cannot be read: Unrecovered Read Error (R367, R536). -/
def unitLost (t g : Nat) (s : State) : State :=
  if s.yard then
    sendFrame 0x1A 0 t [Status.unrecoveredRead] { s with nvme.tracker := s.nvme.tracker.drop t }
  else match namespaceUnit s g with
    | some p => unitFailed t p.2 Status.unrecoveredRead s
    | none => s

end Sys2Proof.Machine
end

