-- ==== Sys2Proof/Machine/Levels.lean ====
section
/-!
DEFINITION. Read levels (R518, R522 to R526): which level a sense takes and the offsets written for it.
-/

namespace Sys2Proof.Machine

/-! ### Read levels (R518, R522 to R526) -/

/-- Retry table of a part (table "Offset and retry tables"). -/
def retryTable (s : State) (die : Nat) : Bytes := s.media.retry_tables.getD (ceByte s die / 8 % 4) []

/-- Offset table of a part. -/
def offsetTable (s : State) (die : Nat) : Bytes := s.media.offset_tables.getD (ceByte s die / 8 % 4) []

/-- A signed byte of a table. -/
def signedByte (t : Bytes) (i : Nat) : Int := (t.getD i 0).toInt

/-- Age bin of a block (R523). -/
def ageBin (s : State) (k : Nat) : Nat :=
  match (s.blockAt k).state with
  | .opened => 0
  | _ => (((offsetTable s (k / 4096)).drop 14).take 7).foldl
      (fun n e => if 2 ^ e.toNat ≤ s.h - (s.blockAt k).close_stamp then n + 1 else n) 0

/-- pe bin of a block (R523). -/
def peBin (s : State) (k : Nat) : Nat :=
  ((List.range 7).filter fun i => decide (field (offsetTable s (k / 4096)) (2 * i) 2 ≤ (s.blockAt k).pe)).length

/-- Temperature estimate of a pair in units of 2^-32 °C. -/
def pairTemp (s : State) (p : Nat) : Int := s.thermal.temps.getD (6 + p) 0

/-- `a / b` rounded to the nearest, halves away from zero. -/
def roundDiv (a b : Int) : Int := if 0 ≤ a then (2 * a + b) / (2 * b) else -((-(2 * a) + b) / (2 * b))

/-- Offset of read level `v` before a sense at a retry level (R522); an SLC sense by R526. -/
def readOffset (s : State) (k : Nat) (slc : Bool) (level v : Nat) : Int :=
  let die := k / 4096
  let t := offsetTable s die
  let deg := pairTemp s (diePair die) / 2 ^ 32
  let temp := roundDiv ((deg - signedByte t 21) * signedByte t (24 + v)) 16
  let base := if slc then 0 else signedByte t (64 + 128 * peBin s k + 16 * ageBin s k + v)
  let retry := if slc then signedByte (retryTable s die) 16 else signedByte (retryTable s die) (16 + 16 * level + v)
  max (-128) (min 127 (base + retry + temp))

/-- The offsets written for a sense (R522, R526). -/
def offsetsFor (s : State) (o : NandOp) : List Int :=
  let n := if o.slc then 1 else 2 ^ (s.geo o.die).bits - 1
  (List.range n).map fun v => readOffset s (blockKey o.die o.block) o.slc o.level v

/-- Start level of a block's die and age bin (R525). -/
def startLevel (s : State) (k : Nat) : Nat := s.media.start_levels.look 0 (k / 4096 * 8 + ageBin s k)

/-- Retry levels of the part. -/
def levelCount (s : State) (die : Nat) : Nat := max 1 (field (retryTable s die) 0 1)

/-- The level of sense `i` in the order of R518. -/
def levelOfSense (s : State) (k i : Nat) : Nat :=
  let st := startLevel s k
  (st :: ((List.range (levelCount s (k / 4096))).filter fun l => l != st)).getD i 0

end Sys2Proof.Machine
end

