-- ==== Sys2Proof/Machine/Reads.lean ====
section
/-!
DEFINITION. Reads of units (R332, R383 to R393): resolution, page reads and speculation, the end of a die read, and
reconstruction (R530 to R539).
-/

namespace Sys2Proof.Machine

/-! ### Issuing reads at dies -/

/-- Position of an address in its page: plane × 4 + unit. -/
def puaPosition (a : Nat) : Nat := 4 * puaPlane a + puaUnit a

/-- Issue reads of addresses, one for each page of a block (R503): `own` gives the owner of one page's positions. -/
def issueReads (stamp : Nat) (own : List (Nat × Nat) → OpOwner) (l : List (Nat × Nat)) (s : State) : State :=
  let page := fun (a : Nat) => (puaDie a, puaBlock a, puaPage a)
  let pages := (l.map fun p => page p.2).eraseDups
  each pages (fun g s =>
    let mine := l.filter fun p => page p.2 == g
    addOp { kind := .read, owner := own (mine.map fun p => (puaPosition p.2, p.1)), die := g.1, block := g.2.1, page := g.2.2,
            pending := mine.map fun p => puaPosition p.2, stamp := stamp }
      (onBlock (blockKey g.1 g.2.1) (fun b => { b with inflight := b.inflight + 1 }) s)) s

/-! ### Reconstruction (R530 to R534) -/

/-- A member's frame at a position is an erasure before any read (R530): failed at commit, on a failed die, or on a
becalmed one unless the position needs it. -/
def memberErased (s : State) (becalmed : Bool) (m : Member) : Bool :=
  m.state == .failed || (s.die m.die).state == 2 || (s.die m.die).state == 3 || (s.die m.die).state == 4
    || (becalmed && (s.die m.die).becalmed)

/-- Members to read for a reconstruction (table "Reconstruction of data frames"): the surviving data members and one
parity member for each erased data frame; `none` where the position is not recoverable. -/
def reconPlan (s : State) (st : Stripe) (target : Nat) (lost : List Nat) (becalmed : Bool) : Option (List Nat) :=
  let p := s.shape st.shape
  let gone := fun (m : Nat) => m == target || lost.contains m ||
    (match st.members[m]? with | some x => memberErased s becalmed x | none => true)
  let data := (List.range p.data).filter fun m => !gone m
  let erased := p.data - data.length
  let parity := ((List.range p.parity).map fun i => p.data + i).filter fun m => !gone m
  if parity.length < erased then none else some (data ++ parity.take erased)

/-- The reconstruction is of a rebuild walk (R550). -/
def ReconUse.forRebuild (u : ReconUse) : Bool :=
  match u with
  | .rebuildCopy _ _ => true
  | .rebuildMap _ => true
  | _ => false

/-- The position of an address can be recovered without reading its die (R538, R539). -/
def recoverable (s : State) (a : Nat) : Bool :=
  match stripeAt s a with
  | some (n, u) => match s.stripe n with
    | some st => (reconPlan s st (slotMember (s.shape st.shape) (u / 16)) [] true).isSome
    | none => false
  | none => false

/-- Ask for the frames of members not yet asked for. -/
def askFrames (id : Nat) (r : Recon) (st : Stripe) (members : List Nat) (s : State) : State :=
  let new := members.filter fun m => !r.asked.contains m
  let s := { s with redun.recons := s.redun.recons.put id { r with asked := r.asked ++ new } }
  each new (fun m s =>
    let a := frameAddress s st m r.index
    issueReads r.stamp (fun _ => if r.use.forRebuild then .rebuild id m else .reconstruct id m) [(m, a)] s) s

/-- A map page cannot be read: each unit of a read that waits for it to be resolved is lost (R393, R536). -/
def losePage (page : Nat) (s : State) : State :=
  let mine := fun (g : Nat) => (pagesOf s (g / 16)).contains page
  let units := s.nvme.tracker.flatMap fun p => (p.2.reads_left.filter mine).map fun g => (p.1, g)
  each units (fun q => unitLost q.1 q.2) { s with
    engine.cache := s.engine.cache.drop page
    engine.specs := s.engine.specs.filter fun p => !mine p.unit }

/-- The position is not recoverable (R536, R549, R553): a host read fails and its stripe is escalated to lost; a copy is
left to the rescue, and a unit under rescue is marked unreadable with cause 0x02. -/
def notRecoverable (r : Recon) (s : State) : State :=
  let lost := ((s.stripe r.serial).map Stripe.state) == some .lost
  let mark := fun (g a : Nat) (s : State) =>
    if lost && entryOf s g == .flash a then
      { markUnreadable g 2 s with
        redun.rescuing := s.redun.rescuing.map fun x => if x.serial = r.serial then { x with marked := x.marked + 1 } else x
        red.lost.units := satAdd s.red.lost.units 1
        health.counts.units_unreadable := s.health.counts.units_unreadable + 1 }
    else s
  let bump := fun (s : State) => { s with health.counts.cw_uncorr := s.health.counts.cw_uncorr + 1 }
  let fail := fun (s : State) => if lost then s else
    escalate (loseStripe r.serial (takeError { source := src 12 4, kind := 3, serial := r.serial, silent := true } [r.serial] s))
  let busy := fun (t g : Nat) => s.media.ops.vals.any fun o => !o.dropped && (match o.owner with
    | .host x l => x == t && l.any fun q => q.2 == g
    | _ => false)
  match r.use with
  | .host t g => if busy t g then s else bump (fail (unitLost t g s))
  | .copy g a => endRescue r.serial (mark g a (fail s))
  | .rebuildCopy g a => endRescue r.serial (mark g a (fail s))
  | .mapPage page => losePage page (fail s)
  | .rebuildMap _ => fail s

/-- Begin to reconstruct the unit at an address for a use (R531, R533, R539): a becalmed die is read where the position
cannot be recovered without it. -/
def beginRecon (stamp : Nat) (use : ReconUse) (a : Nat) (s : State) : State :=
  match stripeAt s a with
  | none => notRecoverable { serial := 0, index := 0, use := use, stamp := stamp } s
  | some (serial, u) => match s.stripe serial with
    | none => s
    | some st =>
      let id := s.redun.recon_next
      let r : Recon := { serial := serial, index := u, use := use, stamp := stamp }
      let target := slotMember (s.shape st.shape) (u / 16)
      let s := { s with redun.recon_next := id + 1 }
      match reconPlan s st target [] true with
      | some l => askFrames id r st l s
      | none => match reconPlan s st target [] false with
        | some l => askFrames id r st l s
        | none => notRecoverable r s

/-! ### Serving what was read -/

/-- The block of a unit whose codeword was bad is reported once for refresh (R535). -/
def reportAt (a : Nat) (s : State) : State := reportRefresh (puaKey a) s

/-- A copy's source is at hand: it enters the copy stream while its entry still holds the address (R466). -/
def enqueueCopy (front : Bool) (g a : Nat) (f : FlashUnit) (s : State) : State :=
  if entryOf s g = .flash a then
    let s := { s with shroud.copied := s.shroud.copied.put a f }
    let c : UnitSource := .copy g f.stamp a
    let l := if front then c :: s.shroud.copies else s.shroud.copies ++ [c]
    let fold := fun (x : UnitSource) => match x with
      | .copy h _ _ => h / 16 == g / 16
      | _ => false
    let order := fun (x : UnitSource) => match x with
      | .copy h _ _ => h
      | _ => 0
    { s with
      shroud.copies := if s.engine.folding.contains (g / 16) then l.filter (fun x => !fold x) ++ sortOn order (l.filter fold) else l
      rcl.copied := s.rcl.copied + 1 }
  else s

/-- A host read unit is at hand: the stale-map check, then its bytes (R384, R385); no unit at all where the sequencer's
address compare found its block under erase. -/
def serveUnit (t g : Nat) (f : Option FlashUnit) (again : State → State) (s : State) : State :=
  match s.nvme.tracker.find t with
  | none => s
  | some e => match namespaceUnit s g with
    | some (ns, u) =>
      match f.filter fun f => f.ns_index == ns && f.ns_unit == u && ns == e.sqe.ns with
      | some f => deliverUnit t g u (some f.frame) s
      | none =>
          let s := { s with map.staleCount := satAdd s.map.staleCount 1, health.counts.stale_reads := s.health.counts.stale_reads + 1 }
          if s.engine.stale_once.contains (t, g) then
            unitLost t g (takeCommandError { source := src 9 0, kind := 9 } [] t Status.unrecoveredRead s)
          else again { s with engine.stale_once := s.engine.stale_once ++ [(t, g)] }
    | none => unitLost t g s

/-- The sequencer's address compare finds an erase of the block pending or suspended (R384, R513). -/
def eraseCaught (s : State) (a : Nat) : Bool :=
  s.media.ops.vals.any fun o => o.kind == .erase && blockKey o.die o.block == puaKey a

/-- A host read unit is at hand on flash. -/
def serveHost (t g a : Nat) (again : State → State) (s : State) : State :=
  serveUnit t g (if eraseCaught s a then none else s.reclaim.flash.find a) again s

/-! ### Resolution of host reads (R332, R376, R386 to R391) -/

/-- Address at which a map page was last written. -/
def pageAddress (s : State) (page : Nat) : Option Nat := s.engine.directory.find page

/-- Read a map page that is not cached (R376); a page never written is there at once. -/
def readPage (stamp page : Nat) (s : State) : State :=
  if s.cached page || (s.engine.cache.has page) then s
  else
    let s := { s with map.cacheMiss := s.map.cacheMiss + 1 }
    let s := touchPage page s
    match pageAddress s page with
    | none => s
    | some a =>
      issueReads stamp (fun _ => .mapPage page) [(page, a)]
        { s with engine.cache := s.engine.cache.put page { s.engine.cache.look {} page with waiting := true } }

/-- Pages that a unit's resolution needs and that have not arrived. -/
def missing (s : State) (g : Nat) : List Nat := (pagesOf s (g / 16)).filter fun p => !s.cached p

/-- Prediction of a reef's slot base: a hint, else its stream (R387, R388). -/
def predict (s : State) (ns reef : Nat) : Option (Nat × Bool) :=
  let hit := tslSearch s { banks := 0xC000, key := BitVec.ofNat 47 reef }
  if s.map.cfg.hint_enable && hit.hit then some (hit.first.payload.toNat % 2 ^ 38, true)
  else if s.map.cfg.stream_enable then
    (s.engine.streams.vals.find? fun x => x.ns == ns && decide (4 ≤ x.hits)).bind fun x =>
      x.lastBase.bind fun b => (stripeAt s b).bind fun p => (s.stripe p.1).bind fun st =>
        let next := p.2 / 16 * 16 + 16
        if next < (s.shape st.shape).units then some (unitAddress s st next, false)
        else (leastOn (fun q : Nat × Stripe => q.1) (s.shroud.stripes.filter fun q =>
          decide (p.1 < q.1) && q.2.copyStream == st.copyStream)).map fun q => (unitAddress s q.2 0, false)
  else none

/-- A read of a namespace that begins where the one before it ended lengthens its stream; any other is the first of a new
one, in the place of the oldest when every stream is in use (R388). -/
def noteStream (ns first count : Nat) (s : State) : State :=
  if !s.map.cfg.paged || !s.map.cfg.stream_enable || s.map.specCfg.streams = 0 then s
  else
    let old := s.engine.streams.find? fun p => p.2.ns == ns && p.2.next == first
    let used := s.engine.streams.map fun p => (p.1, match s.timer .stream p.1 with | some t => t.deadline | none => 0)
    let k := match old with
      | some p => p.1
      | none => if s.engine.streams.length < s.map.specCfg.streams.toNat then s.engine.streams.fresh 0 (s.engine.streams.length + 1)
                else match leastOn (fun p : Nat × Nat => p.2) used with | some p => p.1 | none => 0
    let x : Stream := match old with
      | some p => { p.2 with next := first + count, hits := p.2.hits + 1 }
      | none => { ns := ns, next := first + count }
    arm .stream k s.map.hintAge.toNat { s with engine.streams := s.engine.streams.put k x }

/-- Where a stream's last unit was found (R388): units of a namespace with their addresses. -/
def noteStreamSlot (ns : Nat) (l : List (Nat × Nat)) (s : State) : State :=
  { s with engine.streams := s.engine.streams.over fun _ x =>
      if x.ns = ns then match l.find? fun p => p.1 + 1 == x.next with
        | some p => { x with lastBase := some p.2 }
        | none => x
      else x }

/-- Speculative reads outstanding, on the device and on a channel (R389). -/
def specCount (s : State) (c : Option Nat) : Nat :=
  (s.media.ops.vals.filter fun o => (match o.owner with | .speculative _ _ _ => !o.dropped | _ => false)
    && (match c with | some c => dieChannel o.die == c | none => true)).length

/-- Some erase of the block waits or runs (R390, R513). -/
def eraseOn (s : State) (k : Nat) : Bool :=
  (match (s.blockAt k).state with | .erasing => true | .released => true | _ => false)

/-- The block of a predicted slot takes no speculative read: open, retired, or with an erase pending or suspended (R390). -/
def badSlot (s : State) (base : Nat) : Bool :=
  (match (s.blockAt (puaKey base)).state with | .opened => true | .retired => true | _ => false) || eraseOn s (puaKey base)

/-- A speculative read to a slot base may be launched (R386, R389, R390, R534). -/
def maySpeculate (s : State) (base : Nat) : Bool :=
  s.map.cfg.paged && s.map.cfg.spec_enable
    && (match s.mode with | .run => true | .reduced => true | .readOnly => true | _ => false)
    && decide (specCount s none < s.map.specCfg.spec_total.toNat)
    && decide (specCount s (some (dieChannel (puaDie base))) < s.map.specCfg.spec_chan.toNat)
    && s.usable (puaDie base)
    && !badSlot s base

/-- Launch a speculative read of the units of a command in one reef (R386). -/
def speculate (t stamp ns reef : Nat) (units : List Nat) (s : State) : State :=
  match predict s ns reef with
  | none => s
  | some (base, hint) =>
    if maySpeculate s base then
      let s := issueReads stamp (fun l => .speculative t l []) (units.map fun g => (g, unitInSlot s base (g % 16))) s
      { s with
        map.specLaunched := s.map.specLaunched + 1
        engine.specs := s.engine.specs ++ units.map fun g => { entry := t, unit := g, base := unitInSlot s base (g % 16), fromHint := hint, ns := ns } }
    else if hint && badSlot s base then dropHint reef s else s

/-- Resolve and read the units of a command that have no wait left (R332, R376, R382). -/
def readUnits (t : Nat) (units : List Nat) (s : State) : State :=
  match s.nvme.tracker.find t with
  | none => s
  | some e =>
      let stamp := e.admitted.stamp.toNat
      let local_ := fun (g : Nat) => match namespaceUnit s g with | some p => p.2 | none => 0
      let onFlash := fun (g : Nat) => match resolve s g with | .flash _ => true | _ => false
      let late := units.filter fun g => onFlash g && !(missing s g).isEmpty
      let now := units.filter fun g => !late.contains g
      let h := s.run
      let s := { s with engine.resolved := now.foldl (fun m g => m.put (g / 16) h) s.engine.resolved }
      let flash := now.filterMap fun g => match resolve s g with | .flash a => some (g, a) | _ => none
      let s := noteStreamSlot e.sqe.ns (flash.map fun p => (local_ p.1, p.2)) s
      let s := each now (fun g s => match resolve s g with
        | .held u => deliverUnit t g (local_ g) (some u.frame) s
        | .zeros => deliverUnit t g (local_ g) none s
        | .unreadable => unitLost t g s
        | .flash _ => s) s
      let bad := fun (a : Nat) => s.dieDown (puaDie a) || (s.die (puaDie a)).becalmed && recoverable s a
      let s := each (flash.filter fun p => bad p.2) (fun p s => beginRecon stamp (.host t p.1) p.2 s) s
      let s := issueReads stamp (fun l => .host t l) (flash.filter fun p => !bad p.2) s
      let s := each (late.flatMap (missing s)).eraseDups (readPage stamp) s
      each (late.map (· / 16)).eraseDups (fun r s => speculate t stamp e.sqe.ns r (late.filter fun g => g / 16 == r) s) s

/-- Units of commands that wait for a page and can now be resolved (R391): not yet read and not at a die. -/
def waitingUnits (s : State) (t : Nat) (e : Entry) : List Nat :=
  let busy := s.media.ops.vals.flatMap fun o => match o.owner with
    | .host x l => if x = t then l.map Prod.snd else []
    | .speculative x l c => if x = t then (l ++ c).map Prod.snd else []
    | _ => []
  let recon := s.redun.recons.vals.filterMap fun r => match r.use with
    | .host x g => if x = t then some g else none
    | _ => none
  e.reads_left.filter fun g => !busy.contains g && !recon.contains g && (missing s g).isEmpty

/-! ### The end of a die read -/

/-- Whether the codeword at a position was lost. -/
def NandOp.isLost (o : NandOp) (p : Nat) : Bool := o.lost.contains p

/-- The unit recovered from the members read (R531): the other data members that are not read are lost too. -/
def recovered (s : State) (st : Stripe) (index : Nat) (read : List Nat) : Option FlashUnit :=
  let p := s.shape st.shape
  let target := slotMember p (index / 16)
  let frame := fun (m : Nat) => (s.reclaim.flash.look {} (frameAddress s st m index)).bytes
  let have_ := read.filter fun m => decide (m < p.data) && m != target
  let other := (List.range p.data).find? fun m => m != target && !have_.contains m
  let parity := fun (m : Nat) => if read.contains m then some (frame m) else none
  (recoverFrame target other (have_.map fun m => (m, frame m)) (parity p.data) (parity (p.data + 1))).map FlashUnit.ofBytes

/-- A recovered frame is the unit's: its metadata is the unit entry's, and for a host read it is the unit asked for (R532). -/
def recoveryHolds (s : State) (st : Stripe) (r : Recon) (f : FlashUnit) : Bool :=
  let entry := match st.units.getD r.index .empty with
    | .host g k => f.kind == 1 && f.target == g && f.stamp == k
    | .copy g k a => f.kind == 2 && f.target == g && f.stamp == k && f.src == a
    | .mapPage page k => f.kind == 3 && f.target == pageTarget page && f.stamp == k
    | _ => true
  entry && match r.use with
    | .host _ g => namespaceUnit s g == some (f.ns_index, f.ns_unit)
    | _ => true

/-- A recovered frame serves what it was recovered for. -/
def useFrame (r : Recon) (f : FlashUnit) (s : State) : State :=
  match r.use with
  | .host t g => serveUnit t g (some f) (fun s => readUnits t [g] s) s
  | .copy g b => endRescue r.serial (enqueueCopy false g b f s)
  | .rebuildCopy g b => endRescue r.serial (enqueueCopy true g b f s)
  | .mapPage page => { s with engine.cache := s.engine.cache.put page { s.engine.cache.look {} page with waiting := true } }
  | .rebuildMap page => dirtyPage page s

/-- Go on with a reconstruction: what it needs has been read, more frames are asked for, or the position is not recoverable. A
frame that fails its checks is a further erasure, taken to be the parity frame it came from (R532, log entry 107). -/
def settleRecon (id : Nat) (st : Stripe) (n : Nat) (r : Recon) (s : State) : State :=
  let target := slotMember (s.shape st.shape) (r.index / 16)
  let plan := match reconPlan s st target r.lost true with
    | some l => some l
    | none => reconPlan s st target r.lost false
  match plan with
  | none => notRecoverable r { s with redun.recons := s.redun.recons.drop id }
  | some l =>
    if l.all r.got.contains then
      let p := s.shape st.shape
      let frames := p.data - (l.filter fun m => decide (m < p.data)).length
      let s := { s with redun.recons := s.redun.recons.drop id, red.recon := s.red.recon + BitVec.ofNat 64 frames }
      match (recovered s st r.index l).filter (recoveryHolds s st r) with
      | some f => useFrame r f s
      | none => match n with
        | 0 => notRecoverable r s
        | n + 1 => settleRecon id st n { r with lost := r.lost ++ (l.filter fun m => decide (p.data ≤ m)).take 1 } s
    else askFrames id r st l s

/-- A frame asked for by a reconstruction is at hand, or is one more erasure (R531, R533). -/
def frameRead (id m : Nat) (ok : Bool) (s : State) : State :=
  match s.redun.recons.find id with
  | none => s
  | some r => match s.stripe r.serial with
    | none => { s with redun.recons := s.redun.recons.drop id }
    | some st =>
      let r := if ok then { r with got := r.got ++ [m] } else { r with lost := r.lost ++ [m] }
      settleRecon id st 2 r (if ok then s else reportAt (frameAddress s st m r.index) s)

/-- A probe ends: calm_reads consecutive probes in time make the die usable again (R540). -/
def probeEnd (o : NandOp) (s : State) : State :=
  if o.timed then onDie o.die (fun d => { d with calm := 0 }) s
  else
    let n := (s.die o.die).calm + 1
    onDie o.die (fun d => if s.red.cfg.calm_reads.toNat ≤ n then { d with calm := 0, becalmed := false } else { d with calm := n }) s

/-- The erased check of a page ends (R463): next the block's last page, then the block may be opened; a block that is not
erased returns to released, and one that its erase had reported good is retired. -/
def checkEnd (o : NandOp) (erased : Bool) (s : State) : State :=
  let k := blockKey o.die o.block
  let last := (s.geo o.die).pages - 1
  if erased then
    if o.page = last then onBlock k (fun b => { b with checked := true }) s
    else addOp { kind := .read, owner := .check, die := o.die, block := o.block, page := last, pending := [0], stamp := s.nextStamp } s
  else if 0 < (s.blockAt k).pe then
    checkRetired o.die (takeError { source := src 11 0, kind := 2 } [] (retireBlock false k s))
  else
    let v := s.nextStamp
    onBlock k (fun b => { b with state := .released, release_stamp := v }) s

/-- Change the sample of a patrol read (R623). -/
def onSample (o : NandOp) (f : PatrolSample → PatrolSample) (s : State) : State :=
  { s with power_states.samples := s.power_states.samples.map fun x => if x.block = blockKey o.die o.block then f x else x }

/-- The owner is a patrol read. -/
def OpOwner.isPatrol (w : OpOwner) : Bool := match w with | .patrol => true | _ => false

/-- A die read has ended: each wanted unit is served, or passes to redundancy control (R519, R534). -/
def readEnded (i : Nat) (s : State) : State :=
  match s.op i with
  | none => s
  | some o =>
    let s := dropOp i s
    let s := onBlock (blockKey o.die o.block) (fun b => { b with inflight := b.inflight - 1 }) s
    let at_ := fun (p : Nat) => puaOf o.die (p / 4) o.block o.page (p % 4)
    if o.dropped then s
    else match o.owner with
      | .host t l => each l (fun p s =>
          if o.isLost p.1 then beginRecon o.stamp (.host t p.2) (at_ p.1) (reportAt (at_ p.1) s)
          else serveHost t p.2 (at_ p.1) (fun s => readUnits t [p.2] s) s) s
      | .speculative _ _ _ => s
      | .mapPage page =>
        if o.lost.isEmpty then s
        else match pageAddress s page with
          | some a => beginRecon o.stamp (.mapPage page) a (reportAt a s)
          | none => s
      | .copy g a =>
        if o.lost.isEmpty then
          let s := enqueueCopy false g a (s.reclaim.flash.look {} a) s
          match stripeAt s a with
          | some p => endRescue p.1 s
          | none => s
        else beginRecon o.stamp (.copy g a) a (reportAt a s)
      | .reconstruct id m => frameRead id m o.lost.isEmpty s
      | .rebuild id m => frameRead id m o.lost.isEmpty s
      | .probe => probeEnd o s
      | .patrol => onSample o (fun x => { x with done := true, uncorrectable := !o.lost.isEmpty }) s
      | .check => checkEnd o (!o.lost.isEmpty) s
      | _ => s

/-- Record decodes in the statistics of a die (R520). -/
def noteDie (d : Nat) (f : DieStats → DieStats) (s : State) : State :=
  { s with media.die_stats := s.media.die_stats.put d (f (s.media.die_stats.look {} d)) }

/-- Statistics of decoded codewords, and reports for refresh (R520, R521): position, bits corrected, level index. -/
def recordDecodes (l : List (Nat × Nat × Nat)) (o : NandOp) (s : State) : State :=
  let late := (l.filter fun r => decide (0 < r.2.2)).length
  let s := noteDie o.die (fun d => { d with
    bits := d.bits + total (l.map fun r => r.2.1), first := d.first + (l.length - late), retried := d.retried + late }) { s with
    ch.ldpcDecoded := s.ch.ldpcDecoded + BitVec.ofNat 64 l.length
    ch.ldpcRetried := s.ch.ldpcRetried + BitVec.ofNat 64 late
    health.counts.cw_retried := s.health.counts.cw_retried + late }
  let s := if o.owner.isPatrol then
      onSample o (fun x => { x with corrected := (l.map fun r => r.2.1).foldl max x.corrected }) s
    else s
  if l.any fun r => decide (s.ch.refreshCfg.refresh_bits.toNat < r.2.1)
      || (decide (0 < r.2.2) && decide (s.ch.refreshCfg.refresh_level.toNat ≤ o.level)) then
    if o.owner.isPatrol then onSample o (fun x => { x with refresh := true }) s else reportRefresh (blockKey o.die o.block) s
  else s

/-- The codewords still pending of an operation are uncorrectable (R518, R519). -/
def giveUp (i : Nat) (s : State) : State :=
  match s.op i with
  | none => s
  | some o =>
    let n := o.pending.length
    let s := { s with ch.ldpcUncorr := s.ch.ldpcUncorr + BitVec.ofNat 64 n }
    readEnded i (onOp i (fun o => { o with lost := o.lost ++ o.pending, pending := [] }) s)

/-- The next level of R518, the soft read, or the end. -/
def nextSense (i : Nat) (s : State) : State :=
  match s.op i with
  | none => s
  | some o =>
    let k := blockKey o.die o.block
    let n := o.senses + 1
    if n < min s.ch.ldpcCfg.retry_max.toNat (levelCount s o.die) then
      onOp i (fun o => { o with state := .waiting, wait_from := some s.run, decoder := false, senses := n, level := levelOfSense s k n }) s
    else if s.ch.ldpcCfg.soft_enable && !o.owner.isPatrol then
      onOp i (fun o => { o with
        state := .waiting
        wait_from := some s.run
        decoder := false
        soft := true
        soft_left := 3
        level := (o.best.map Prod.fst).getD o.level }) s
    else giveUp i s

/-- Reconstruction of the units of a read that has timed out, where the position can be recovered without the die
(R537, R538). -/
def reconstructFor (o : NandOp) (s : State) : State :=
  match o.owner with
  | .host t l => each (l.filter fun p => recoverable s (puaOf o.die (p.1 / 4) o.block o.page (p.1 % 4)))
      (fun p => beginRecon o.stamp (.host t p.2) (puaOf o.die (p.1 / 4) o.block o.page (p.1 % 4))) s
  | .copy g a => if recoverable s a then beginRecon o.stamp (.copy g a) a s else s
  | .mapPage page => match pageAddress s page with
    | some a => if recoverable s a then beginRecon o.stamp (.mapPage page) a s else s
    | none => s
  | _ => s

/-- A speculated unit is confirmed or discarded when its resolution is known (R391 to R393); the counters count a read once,
when its last unit is settled. -/
def settleSpec (p : SpecRead) (s : State) : State :=
  let hit := resolve s p.unit == .flash p.base
  let mates := fun (q : SpecRead) => q.entry == p.entry && q.unit / 16 == p.unit / 16
  let sure := hit || s.engine.specs.any fun q => mates q && q.sure
  let left := (s.engine.specs.filter fun q => q.unit != p.unit || q.entry != p.entry).map fun q => if mates q then { q with sure := sure } else q
  let last := !left.any mates
  let s := { s with
    engine.specs := left
    map.specConfirmed := if last && sure then s.map.specConfirmed + 1 else s.map.specConfirmed
    map.specDiscarded := if last && !sure then s.map.specDiscarded + 1 else s.map.specDiscarded }
  let mine := s.media.ops.filter fun o => match o.2.owner with
    | .speculative t l _ => t == p.entry && l.any fun q => q.2 == p.unit
    | _ => false
  let s := each (mine.map Prod.fst) (fun i s => match s.op i with
    | some o => match o.owner with
      | .speculative t l c =>
        let rest := l.filter fun q => q.2 != p.unit
        let good := if hit then c ++ l.filter fun q => q.2 == p.unit else c
        if rest ≠ [] then onOp i (fun o => { o with owner := .speculative t rest good }) s
        else if good = [] then cancelOp i s
        else
          let s := recordDecodes o.results o (onOp i (fun o => { o with owner := .host t good }) s)
          let s := if o.timed then reconstructFor { o with owner := .host t good } s else s
          if o.state = .decoding ∧ o.pending = [] then readEnded i s
          else if o.state = .decoding ∧ o.best.isSome then nextSense i s
          else s
      | _ => s
    | none => s) s
  if hit then (if mine.isEmpty then readUnits p.entry [p.unit] s else s)
  else
    let s := if p.fromHint then dropHint (p.unit / 16) s
             else { s with engine.streams := s.engine.streams.filter fun q => !(q.2.lastBase.isSome && q.2.ns == p.ns) }
    readUnits p.entry [p.unit] s

/-! ### Operations that wait for a die that is failed or becalmed (R534, R539, R544) -/

/-- A read that waits for a die is served by reconstruction instead: of every position when the die is failed, of those that can
be recovered without it when it is becalmed. -/
def divertRead (i : Nat) (o : NandOp) (s : State) : State :=
  let down := s.dieDown o.die
  let at_ := fun (p : Nat) => puaOf o.die (p / 4) o.block o.page (p % 4)
  match o.owner with
  | .host t l =>
    let gone := l.filter fun p => down || recoverable s (at_ p.1)
    let kept := l.filter fun p => !gone.contains p
    let s := if kept.isEmpty then leaveOp i s else onOp i (fun o => { o with
      owner := .host t kept
      pending := o.pending.filter fun p => kept.any fun q => q.1 == p }) s
    each gone (fun p => beginRecon o.stamp (.host t p.2) (at_ p.1)) s
  | .speculative t _ l => if down then each l (fun p => beginRecon o.stamp (.host t p.2) (at_ p.1)) (leaveOp i s) else s
  | .copy g a => if down || recoverable s a then beginRecon o.stamp (.copy g a) a (leaveOp i s) else s
  | .mapPage page => match pageAddress s page with
    | some a => if down || recoverable s a then beginRecon o.stamp (.mapPage page) a (leaveOp i s) else s
    | none => s
  | .reconstruct id m => if down then frameRead id m false (leaveOp i s) else s
  | .rebuild id m => if down then frameRead id m false (leaveOp i s) else s
  | .patrol => if down then leaveOp i { s with
      power_states.samples := s.power_states.samples.filter fun x => x.block != blockKey o.die o.block } else s
  | _ => if down then leaveOp i s else s

/-- An operation not yet at a die that is failed, or a read not yet at one that is becalmed. -/
def divertOp (i : Nat) (s : State) : State :=
  match s.op i with
  | none => s
  | some o =>
    if !(o.state == .waiting || o.state == .admitted) || !(s.dieDown o.die || (s.die o.die).becalmed) then s
    else match o.kind with
      | .read => divertRead i o s
      | .program => if s.dieDown o.die then dropOp i s else s
      | .erase => if s.dieDown o.die then onBlock (blockKey o.die o.block) (fun b => { b with state := .released }) (dropOp i s) else s

/-- Divert what waits for such dies. -/
def divertOps (s : State) : State :=
  each ((s.media.ops.filter fun p => s.dieDown p.2.die || (s.die p.2.die).becalmed).map Prod.fst) divertOp s

/-! ### Relocation of a reshape (R559 to R561) -/

/-- A stripe holds a unit that the table, the map-page directory or a retained checkpoint refers to. -/
def stripeReferenced (s : State) (st : Stripe) : Bool :=
  (List.range st.units.length).any fun u =>
    let a := unitAddress s st u
    match st.units.getD u .empty with
    | .host g _ => entryOf s g == .flash a
    | .copy g _ _ => entryOf s g == .flash a
    | .mapPage p _ => s.engine.directory.find p == some a
    | .checkpoint i o => retained s (.checkpoint i o)
    | .empty => false

/-- Stripes of the source shape that hold such a unit, or that are not yet applied. -/
def sourceStripes (s : State) : List Stripe :=
  s.shroud.stripes.vals.filter fun st => st.shape == s.red.status.from_shape.toNat && st.state != .abandoned
    && (stripeReferenced s st || st.inFlight || !st.applied && st.state != .lost)

/-- The reshape is complete: the state returns to 0b00, a page is written, and a target held in pending is begun (R559, R561); one
that the shape in force cannot open without is begun by R556. -/
def endReshape (s : State) : State :=
  let pend := s.redun.page.bind RedPage.pending
  let s := { s with red.status.reshape := 0, red.status.from_shape := 0, red.status.fallback_shape := false }
  let s := writeRedPage { s with redun.page := s.redun.page.map fun p => { p with from_entry := none, pending := none } }
  let s := raise (src 12 6) 0 [] s
  match pend with
  | some i =>
    let own := shapeOpens s s.shapeNow
    tryReshape i own { s with red.status.fallback_shape := !own }
  | none => s

/-- Go on with the relocation: the page follows a pause or its end, one group is reported for refresh, and the next when that
one has been released. -/
def relocate (s : State) : State :=
  if s.red.status.reshape = 0 || !s.mediaOn || !s.camp.status.floor_seeded then s
  else
    let s := if (s.redun.page.map RedPage.reshape) = some (reshapeState s) then s else writeRedPage s
    if reshapeState s ≠ 1 then s
    else
      let l := sourceStripes s
      if l.isEmpty then endReshape s
      else if l.any fun st => st.members.any fun m => s.media.reported.contains (blockKey m.die m.block) then s
      else match (l.filter fun st => !st.inFlight).flatMap Stripe.members with
        | m :: _ => reportRefresh (blockKey m.die m.block) s
        | [] => s

/-- Work that every command of the media tier leaves behind: decoders, members to move, escalations, placement, levels, reads to
divert, relocation. -/
def settleMedia (s : State) : State := relocate (divertOps (refreshLevels (pump (escalate (retryMoves (grantDecoders s))))))

end Sys2Proof.Machine
end

