-- ==== Sys2Proof/Machine/Channels.lean ====
section
/-!
DEFINITION. Flash channels and LDPC (chapter 12), the power ledger's and the sequencers' grants (R38, R173, R174,
R508), die timeouts (R507, R537, R776), and the commands that report what a die or the codec did.
-/

namespace Sys2Proof.Machine

/-! ### Eligibility (R508 to R512) -/

/-- The operation passed the starvation ceiling (R38, R509). -/
def starved (s : State) (stamp : Nat) : Bool := decide (stamp + s.cmd.starveCeil.toNat < s.h)

/-- Reads that may suspend a program (R511). -/
def OpOwner.urgent (w : OpOwner) : Bool :=
  match w with
  | .host _ _ => true
  | .mapPage _ => true
  | _ => false

/-- The running operation `j` may be suspended for a read (R509 to R511). -/
def maySuspend (s : State) (r j : NandOp) : Bool :=
  let ran := s.run - j.run_from
  j.state == .running && !starved s j.stamp && (match j.kind with
    | .erase => decide (s.ch.eraseMinRun.toNat ≤ ran) && decide (j.suspends < s.ch.suspCfg.erase_susp_max.toNat)
    | .program => r.owner.urgent && decide (s.ch.progMinRun.toNat ≤ ran)
        && decide (j.suspends < s.ch.suspCfg.prog_susp_max.toNat) && !j.cached
    | .read => false)

/-- The address compare holds a read for a suspended program's block (R513). -/
def blockedRead (s : State) (o : NandOp) : Bool :=
  match (s.lun o.die).suspended.bind s.op with
  | some j => (match j.kind with | .program => true | _ => false) && j.block == o.block
  | none => false

/-- No more reads are issued under the suspended operation of a LUN (R509, R512): susp_reads_max have been, CH_SUSP_HOLD_MAX
has passed, or the operation has passed the starvation ceiling. -/
def resumeDue (s : State) (die : Nat) : Bool :=
  match (s.lun die).suspended.bind s.op with
  | some j => decide (s.ch.suspCfg.susp_reads_max.toNat ≤ (s.lun die).susp_reads) || s.due .suspHold die || starved s j.stamp
      || j.state == .resuming
  | none => false

/-- The operation can be granted (table "Sequencer eligibility"). -/
def eligible (s : State) (o : NandOp) : Bool :=
  let l := s.lun o.die
  o.state == .admitted && s.dieReachable o.die && !l.reset && !retraining s (dieChannel o.die) && (match o.kind with
    | .read => !blockedRead s o && !resumeDue s o.die && (match l.running.bind s.op with
        | none => l.running.isNone
        | some j => maySuspend s o j)
    | .program => l.running.isNone && l.suspended.isNone
    | .erase => l.running.isNone && l.suspended.isNone && decide ((s.blockAt (blockKey o.die o.block)).inflight = 0))

/-- Grant an operation: it begins at its LUN, or a running program or erase is first suspended for it. -/
def grantOp (i : Nat) (s : State) : State :=
  match s.op i with
  | none => s
  | some o =>
    let h := s.run
    match (s.lun o.die).running with
    | some j =>
      let s := match (s.op j).map NandOp.kind with
        | some .erase => { s with ch.suspends.erase := satAdd s.ch.suspends.erase 1 }
        | _ => { s with ch.suspends.program := satAdd s.ch.suspends.program 1 }
      onOp j (fun x => { x with state := .suspending, suspends := x.suspends + 1, ran := x.ran + (h - x.run_from), run_from := h }) s
    | none =>
      let read := match o.kind with | .read => true | _ => false
      let same := s.media.ops.filter fun p => p.1 != i && read && p.2.state == .admitted
        && (match p.2.kind with | .read => true | _ => false) && p.2.die == o.die && p.2.block == o.block && p.2.page == o.page
      let next := read && s.media.ops.any fun p => p.2.state == .admitted && (match p.2.kind with | .read => true | _ => false)
        && p.2.die == o.die && p.2.block == o.block && p.2.page == o.page + 1
      let offs := offsetsFor s o
      let go := fun (m : Option Nat) (x : NandOp) => { x with state := .running, run_from := h, first := some (x.first.getD h + (h - x.wait_from.getD h)), wait_from := none,
                                                               merged := m, cached := next }
      let s := each (same.map Prod.fst) (fun k => onOp k (go (some i))) (onOp i (go none) s)
      onLun o.die (fun l => { l with
        running := some i
        susp_reads := if l.suspended.isSome then l.susp_reads + 1 else l.susp_reads
        offsets := if read then offs else l.offsets }) s

/-- The oldest operation of a channel that is eligible (R508). -/
def oldestEligible (s : State) (c : Nat) : Option Nat :=
  (leastOn (fun p : Nat × NandOp => p.2.stamp)
    (s.media.ops.filter fun p => dieChannel p.2.die == c && eligible s p.2)).map Prod.fst

/-- The sequencer's grant. -/
def sequencerGrant (c : Nat) (s : State) : State :=
  if !s.mediaOn then s
  else match oldestEligible s c with
    | some i => grantOp i s
    | none => s

/-! ### The ledger and the ceilings -/

/-- LEDGER_ADMIT (R173). -/
def execLedgerAdmit (s : State) : Host.Outcome State Fault Refusal :=
  .next (ledgerPass s)

/-- Count a grant made because a ceiling was passed (R318). -/
def ceilingGrant (s : State) : State := { s with cmd.ceilGrants := satAdd s.cmd.ceilGrants 1 }

/-- A write that has a slice waiting for admission. -/
def Entry.waits (e : Entry) : Bool :=
  (e.state == .admitting || e.state == .transferring || e.state == .haltOrder) && e.slices.any fun x => !x.admitted

/-- Slices waiting for admission, oldest first (R327): a command and its stamp, or on a yard the tag of a slice and the stamp of
its command. -/
def waitingSlices (s : State) : List (Nat × Nat) :=
  sortOn Prod.snd (if s.yard then (s.keaka.slices.filter fun y => !y.admitted).map fun y => (y.tag, y.stamp.stamp.toNat)
    else (s.nvme.tracker.filter fun p => p.2.waits).map fun p => (p.1, p.2.admitted.stamp.toNat))

/-- STARVATION_CEILING_REACHED (R38, R174, R327): the oldest eligible request is served ahead of all others. -/
def execStarvationCeilingReached (arbiter : Arbiter) (s : State) : Host.Outcome State Fault Refusal :=
  match arbiter with
  | .ledger => match ledgerQueue s with
    | i :: _ =>
      if ((s.op i).map fun o => starved s o.stamp) = some true ∧ s.media.ceiling.isNone ∧ s.mediaOn then
        .next (ledgerPass (ceilingGrant { s with media.ceiling := some i }))
      else .next s
    | [] => .next s
  | .writeBuffer => match waitingSlices s with
    | (t, stamp) :: _ =>
      if starved s stamp ∧ s.nvme.ceiling.isNone then
        .next (ceilingGrant { s with nvme.ceiling := some t })
      else .next s
    | [] => .next s
  | .sequencer c => match oldestEligible s c with
    | some i =>
      if ((s.op i).map fun o => starved s o.stamp) = some true ∧ s.mediaOn then .next (grantOp i (ceilingGrant s)) else .next s
    | none => .next s

/-- SEQUENCER_GRANT (R508). -/
def execSequencerGrant (channel : Nat) (s : State) : Host.Outcome State Fault Refusal :=
  .next (sequencerGrant channel s)

/-! ### Suspend (R512, R514) -/

/-- SUSPEND_COMPLETE (R512): the operation is suspended, and reads are issued to its LUN. -/
def execSuspendComplete (die : Nat) (s : State) : Host.Outcome State Fault Refusal :=
  match (s.lun die).running with
  | none => .next s
  | some j => match s.op j with
    | none => .next s
    | some o =>
      if o.state = .suspending then
        let s := onOp j (fun o => { o with state := .suspended }) s
        let s := onLun die (fun l => { l with running := none, suspended := some j, susp_reads := 0 }) s
        .next (sequencerGrant (dieChannel die) (arm .suspHold die s.ch.suspHoldMax.toNat s))
      else .next s

/-- SUSPEND_RESUME (R512, R172): after susp_reads_max reads, CH_SUSP_HOLD_MAX, or no eligible read, the operation asks
the ledger for the rest of its charge. -/
def execSuspendResume (die : Nat) (s : State) : Host.Outcome State Fault Refusal :=
  let l := s.lun die
  match l.suspended with
  | none => .next s
  | some j =>
    let reads := s.media.ops.vals.any fun o => o.die == die && (match o.kind with | .read => true | _ => false) && eligible s o
    if l.running.isNone && ((s.op j).map NandOp.state == some .suspended) && (resumeDue s die || !reads) then
      .next (disarm .suspHold die (onOp j (fun o => { o with state := .resuming }) s))
    else .next s

/-! ### Reads at a die (R501, R506, R517, R518) -/

/-- An array sense raises its block's read count (R506), and a count at the limit queues the group (R464). -/
def countSense (k : Nat) (s : State) : State :=
  let s := onBlock k (fun b => { b with reads := b.reads + 1 }) s
  if (s.blockAt k).reads = s.rcl.rdLimit.toNat ∧ 16 ≤ k % 4096 then queueBlock 2 k s else s

/-- Positions whose codeword reads erased (R517). -/
def erasedAt (s : State) (frames : List Sensed) : List Nat :=
  (frames.filter fun f => decide (f.zeros ≤ s.ch.refreshCfg.erased_zeros.toNat)).map Sensed.position

/-- What the sense of one operation brings: erased codewords leave, the rest go to the decoder; an erased check ends. -/
def senseOp (frames : List Sensed) (i : Nat) (s : State) : State :=
  match s.op i with
  | none => s
  | some o =>
    if o.dropped then readEnded i s
    else if 1 < o.soft_left then onOp i (fun o => { o with state := .waiting, wait_from := some s.run, soft_left := o.soft_left - 1, merged := none }) s
    else
      let gone := o.pending.filter fun p => (erasedAt s frames).contains p
      let s := if o.owner = .check then s else { s with ch.ldpcUncorr := s.ch.ldpcUncorr + BitVec.ofNat 64 gone.length }
      let s := onOp i (fun o => { o with
        state := .decoding
        decoder := false
        merged := none
        soft_left := 0
        soft := o.soft
        lost := o.lost ++ gone
        pending := o.pending.filter fun p => !gone.contains p }) s
      if o.owner = .check ∨ o.pending.length = gone.length then readEnded i s else s

/-- READ_SENSE_COMPLETE (R501): the LUN is free again; the read count rises once for a merged read (R506). -/
def execReadSenseComplete (op : Nat) (frames : List Sensed) (s : State) : Host.Outcome State Fault Refusal :=
  match s.op op with
  | none => .next s
  | some o =>
    if o.state = .running ∧ o.kind = .read ∧ (s.lun o.die).running = some op then
      let with_ := (s.media.ops.filter fun p => p.2.merged == some op).map Prod.fst
      let s := countSense (blockKey o.die o.block) (onLun o.die (fun l => { l with running := none }) s)
      .next (settleMedia (each (op :: with_) (senseOp frames) s))
    else .next s

/-- HARD_DECODE_COMPLETE (R518, R520, R521, R525). -/
def execHardDecodeComplete (op : Nat) (results : List Decoded) (s : State) : Host.Outcome State Fault Refusal :=
  match s.op op with
  | none => .next s
  | some o =>
    if o.state = .decoding ∧ o.soft = false ∧ o.decoder = true ∧ o.pending ≠ [] then
      let k := blockKey o.die o.block
      let good := results.filter fun r => r.ok && o.pending.contains r.position
      let rest := o.pending.filter fun p => !good.any fun r => r.position == p
      let left := total ((results.filter fun r => !r.ok && o.pending.contains r.position).map Decoded.bits)
      let notes := good.map fun r => (r.position, r.bits, o.senses)
      let best := match o.best with
        | some (l, n) => if left < n then some (o.level, left) else some (l, n)
        | none => some (o.level, left)
      let s := onOp op (fun o => { o with pending := rest, best := best, results := o.results ++ notes, decoder := false }) s
      if o.unconfirmed then .next (grantDecoders s)
      else
        let s := recordDecodes notes o s
        if rest = [] then
          let s := if o.level = startLevel s k then s
                   else { s with media.start_levels := s.media.start_levels.put (o.die * 8 + ageBin s k) o.level }
          .next (settleMedia (readEnded op s))
        else .next (settleMedia (nextSense op s))
    else .next s

/-- SOFT_DECODE_COMPLETE (R518, R520, R521). -/
def execSoftDecodeComplete (op : Nat) (results : List Decoded) (s : State) : Host.Outcome State Fault Refusal :=
  match s.op op with
  | none => .next s
  | some o =>
    if o.state = .decoding ∧ o.soft = true ∧ o.decoder = true then
      let good := results.filter fun r => r.ok && o.pending.contains r.position
      let n := good.length
      let s := noteDie o.die (fun d => { d with
        bits := d.bits + total (good.map Decoded.bits), soft := d.soft + n }) { s with
        ch.ldpcDecoded := s.ch.ldpcDecoded + BitVec.ofNat 64 n
        ch.ldpcSoft := s.ch.ldpcSoft + BitVec.ofNat 64 n
        health.counts.cw_soft := s.health.counts.cw_soft + n }
      let s := if 0 < n then reportRefresh (blockKey o.die o.block) s else s
      .next (settleMedia (giveUp op (onOp op (fun o => { o with
        pending := o.pending.filter fun p => !good.any fun r => r.position == p }) s)))
    else .next s

/-! ### Programs and erases (R423, R432, R460, R462) -/

/-- Free the LUN of an operation. -/
def freeLun (i die : Nat) (s : State) : State :=
  onLun die (fun l => { l with
    running := if l.running = some i then none else l.running
    suspended := if l.suspended = some i then none else l.suspended }) s

/-- What a program that reports does for its owner. -/
def programReported (o : NandOp) (ok : Bool) (s : State) : State :=
  match o.owner with
  | .member serial pos =>
    let s := memberReported serial pos ok s
    if ok then s else checkRetired o.die s
  | .stay second => stayReported second (puaOf o.die o.plane o.block o.page 0) ok s
  | _ => s

/-- PROGRAM_COMPLETE (R501): a member or a stay page; one that had passed its limit has been reported already. -/
def execProgramComplete (op : Nat) (ok : Bool) (s : State) : Host.Outcome State Fault Refusal :=
  match s.op op with
  | none => .next s
  | some o =>
    if o.kind = .program ∧ (o.state = .running ∨ o.state = .suspending) then
      let s := freeLun op o.die (dropOp op s)
      .next (settleMedia (if o.overdue then s else programReported o ok s))
    else .next s

/-- An erase fails: the block is retired, and the error is taken (R462). -/
def eraseFailed (k : Nat) (s : State) : State :=
  checkRetired (k / 4096) (takeError { source := src 11 0, kind := 2 } [] (retireBlock false k s))

/-- An erase succeeds (R460, R506, R458). -/
def eraseDone (k : Nat) (s : State) : State :=
  let s := onBlock k (fun b => { state := .erased, pe := b.pe + 1 }) s
  let s := { s with
    reclaim.flash := s.reclaim.flash.filter fun p => puaKey p.1 != k
    media.reported := s.media.reported.filter fun x => x != k
    reclaim.wear_erases := s.reclaim.wear_erases.put (k / 4096) (s.reclaim.wear_erases.look 0 (k / 4096) + 1) }
  let s := if 64 ≤ s.reclaim.wear_erases.look 0 (k / 4096) then wearSnapshot (k / 4096) s else s
  if s.shroud.sets.isEmpty then s else fillSets s

/-- ERASE_COMPLETE (R460, R462). -/
def execEraseComplete (op : Nat) (ok : Bool) (s : State) : Host.Outcome State Fault Refusal :=
  match s.op op with
  | none => .next s
  | some o =>
    if o.kind = .erase ∧ (o.state = .running ∨ o.state = .suspending) then
      let s := freeLun op o.die (dropOp op s)
      let k := blockKey o.die o.block
      .next (settleMedia (peStats (if o.overdue then s else if ok then eraseDone k s else eraseFailed k s)))
    else .next s

/-! ### Die timeouts (R507, R776) -/

/-- Longest time of an operation on its part, before the factor of the table "Die timeouts". -/
def longest (s : State) (o : NandOp) : Nat :=
  let g := s.geo o.die
  match o.kind with
  | .read => g.t_read_max
  | .program => if o.slc then g.t_slc_prog_max else g.t_prog_max
  | .erase => g.t_erase_max

/-- Change CHn_ERR. -/
def onChannelErr (c : Nat) (f : ChnErrReg → ChnErrReg) (s : State) : State :=
  { s with ch.chnErr := s.ch.chnErr.put c (f (s.ch.chnErr.look {} c)) }

/-- Event source of a channel. -/
def channelSource (c : Nat) : Nat := if c < 32 then src 20 c else src 21 (c - 32)

/-- A timeout outcome is counted and its event logged. -/
def timeoutOutcome (die : Nat) (s : State) : State :=
  raise (channelSource (dieChannel die)) 6 (leBytes 4 die)
    (onChannelErr (dieChannel die) (fun r => { r with timeouts := satAdd r.timeouts 1 }) s)

/-- DIE_OP_TIMEOUT (R507): the row of the table "Die timeouts" whose limit the operation has passed. -/
def execDieOpTimeout (op : Nat) (s : State) : Host.Outcome State Fault Refusal :=
  match s.op op with
  | none => .next s
  | some o =>
    let since := s.run - o.run_from
    let h := s.run
    match o.state with
    | .suspending =>
      if (s.geo o.die).t_susp_max < since then
        .next (timeoutOutcome o.die (onOp op (fun o => { o with state := .running, run_from := h }) s))
      else .next s
    | .running =>
      let busy := o.ran + since
      let limit := 2 * longest s o
      if limit + 2 ^ 26 < busy ∧ (s.lun o.die).reset = false then
        .next (timeoutOutcome o.die (arm .dieReset o.die (2 ^ 23) (onLun o.die (fun l => { l with reset := true }) s)))
      else if limit < busy then
        match o.kind with
        | .read =>
          if o.resensed then .next s
          else
            let s := countSense (blockKey o.die o.block) s
            .next (timeoutOutcome o.die (onOp op (fun o => { o with resensed := true, run_from := h }) s))
        | .program =>
          if o.overdue then .next s
          else
            let s := onOp op (fun o => { o with overdue := true }) s
            .next (settleMedia (timeoutOutcome o.die (programReported o false s)))
        | .erase =>
          if o.overdue then .next s
          else
            let s := onOp op (fun o => { o with overdue := true }) s
            .next (settleMedia (timeoutOutcome o.die (eraseFailed (blockKey o.die o.block) s)))
      else .next s
    | _ => .next s

/-- The operation at a reset LUN ends: a read's codewords are uncorrectable; a program or erase has been reported. -/
def endAtReset (i : Nat) (s : State) : State :=
  match s.op i with
  | none => s
  | some o => match o.kind with
    | .read =>
      let with_ := (s.media.ops.filter fun p => p.2.merged == some i).map Prod.fst
      each (i :: with_) giveUp s
    | _ => dropOp i s

/-- LUN_RESET_READY (R776). -/
def execLunResetReady (die : Nat) (s : State) : Host.Outcome State Fault Refusal :=
  let l := s.lun die
  if l.reset then
    let s := disarm .dieReset die (onLun die (fun l => { l with reset := false, running := none }) s)
    match l.running with
    | some i => .next (settleMedia (endAtReset i s))
    | none => .next s
  else .next s

/-- LUN_RESET_TIMEOUT (R507): the die is failed with cause 0x2. -/
def execLunResetTimeout (die : Nat) (s : State) : Host.Outcome State Fault Refusal :=
  let l := s.lun die
  if l.reset ∧ s.due .dieReset die then
    let s := disarm .dieReset die (onLun die (fun _ => {}) s)
    let s := match l.running with
      | some i => endAtReset i s
      | none => s
    .next (settleMedia (failDie die 2 s))
  else .next s

/-! ### Becalmed dies (R537 to R541) -/

/-- Timeouts of a die within RED_WINDOW. -/
def windowTimeouts (s : State) (d : Nat) : Nat :=
  ((s.die d).timeouts.filter fun t => decide (s.run ≤ t + s.red.window.toNat)).length

/-- BECALMED_READ_TIMEOUT (R537, R541). -/
def execBecalmedReadTimeout (op : Nat) (s : State) : Host.Outcome State Fault Refusal :=
  match s.op op with
  | none => .next s
  | some o => match o.first with
    | none => .next s
    | some f =>
      if o.kind = .read ∧ o.timed = false ∧ f + s.red.readTimeout.toNat ≤ o.wait_from.getD s.run then
        let h := s.run
        let d := s.die o.die
        let enters := d.state == 0 && !d.becalmed
        let s := onOp op (fun o => { o with timed := true }) s
        let s := onDie o.die (fun d => { d with becalmed := d.becalmed || d.state == 0, timeouts := d.timeouts ++ [h], calm := 0 }) s
        let s := { s with red.becalmEvents.timeouts := satAdd s.red.becalmEvents.timeouts 1 }
        let s := if enters then
            raise (src 12 0) 0 [] (arm .probe o.die s.red.probeInterval.toNat { s with
              red.becalmEvents.entries := satAdd s.red.becalmEvents.entries 1
              health.counts.becalm_entries := s.health.counts.becalm_entries + 1 })
          else s
        let s := reconstructFor o s
        let s := if s.red.cfg.fail_count.toNat ≤ windowTimeouts s o.die then failDie o.die 3 s else s
        .next (settleMedia s)
      else .next s

/-- PROBE_INTERVAL (R539, R542): one read of a block of the becalmed die is sent to it; in Patrol probes stop. -/
def execProbeInterval (die : Nat) (s : State) : Host.Outcome State Fault Refusal :=
  let patrol := match s.mode with | .patrol => true | _ => false
  if s.due .probe die ∧ (s.die die).becalmed ∧ (s.die die).state = 0 ∧ !patrol then
    let block := ((s.reclaim.blocks.find? fun p => p.1 / 4096 == die && decide (0 < p.2.valid)).map fun p => p.1 % 4096).getD 16
    let s := addOp { kind := .read, owner := .probe, die := die, block := block, pending := [0], stamp := s.nextStamp }
      (onBlock (blockKey die block) (fun b => { b with inflight := b.inflight + 1 }) s)
    .next (arm .probe die s.red.probeInterval.toNat s)
  else .next s

/-! ### Training and discovery (R491, R492, R497 to R500) -/

/-- Change CHn_STATUS. -/
def onChannelStatus (c : Nat) (f : ChnStatusReg → ChnStatusReg) (s : State) : State :=
  { s with ch.chnStatus := s.ch.chnStatus.put c (f (s.ch.chnStatus.look {} c)) }

/-- Change a channel sequencer. -/
def onChannel (c : Nat) (f : ChannelState → ChannelState) (s : State) : State :=
  { s with media.channels := s.media.channels.put c (f (s.media.channels.look {} c)) }

/-- Dies declared on a channel. -/
def declaredOn (s : State) (c : Nat) : List Nat := (channelDies c).filter s.declared

/-- Every part declared on the channel supports an interface, by its bit of iface. -/
def allSupport (s : State) (c bit : Nat) : Bool := (declaredOn s c).all fun d => (s.geo d).iface.testBit bit

/-- Highest rate that neither target_rate nor a part exceeds. -/
def rateBound (s : State) (c : Nat) : Nat :=
  (declaredOn s c).foldl (fun n d => min n (s.geo d).max_rate) s.ch.cfg.target_rate.toNat

/-- Mode and first rate of a channel (R491): mode 1 NV-DDR3, 2 NV-LPDDR4, 3 Toggle DDR. -/
def firstMode (s : State) (c : Nat) : Nat × Nat :=
  let b := rateBound s c
  if s.ch.cfg.target_rate.toNat ≤ 3 then (1, min 3 b)
  else
    let m := if allSupport s c 1 then 2 else if allSupport s c 2 then 3 else 1
    if m = 1 then (1, min 3 b) else if 4 ≤ b then (m, min 7 b) else (1, min 3 b)

/-- Discovery of a pair begins: its channels with a declared die train (R497 step 5). -/
def beginDiscovery (pair : Nat) (s : State) : State :=
  each ((List.range 6).map fun i => 6 * pair + i) (fun c s =>
    if (declaredOn s c).isEmpty then s
    else
      let m := firstMode s c
      onChannelStatus c (fun r => { r with mode := BitVec.ofNat 4 m.1, rate := BitVec.ofNat 4 m.2, training := true })
        (onChannel c (fun x => { x with first_rate := m.2, training := some false }) s)) s

/-- The mode and rate tried after a failure (R492); none when every rate open to the channel has failed. -/
def nextRate (s : State) (c mode rate : Nat) : Option (Nat × Nat) :=
  let low := if mode = 1 then 1 else 4
  if low < rate then some (mode, rate - 1)
  else if mode ≠ 1 ∧ allSupport s c 0 ∧ s.ch.cfg.nv_ddr3_fallback then some (1, 3)
  else none

/-- A channel has failed at every rate (R492, R498, R543 cause 0x4). -/
def failChannel (c : Nat) (s : State) : State :=
  let s := { s with ch.failed := setBit s.ch.failed c true }
  let s := onChannelStatus c (fun r => { r with failed := true, training := false }) (onChannel c (fun x => { x with training := none }) s)
  let s := raise (channelSource c) 5 [] s
  let s := if s.engine.formatted then s else fatalCondition s
  failDies (declaredOn s c) 4 s

/-- Training ended well. -/
def trained (c : Nat) (s : State) : State :=
  let t := pairTemp s (c / 6)
  let r := s.ch.chnStatus.look {} c
  let below := decide (r.mode.toNat = 1 ∧ 3 < (s.media.channels.look {} c).first_rate)
    || decide (r.rate.toNat < (s.media.channels.look {} c).first_rate)
  let was := r.degraded
  let s := onChannelStatus c (fun r => { r with training := false, degraded := below }) s
  let s := onChannel c (fun x => { x with training := none, trained_temp := t }) s
  let s := arm .retrain c s.ch.retrainInterval.toNat { s with ch.degraded := setBit s.ch.degraded c below }
  if below && !was then raise (channelSource c) 4 (leBytes 4 r.rate.toNat) s else s

/-- CHANNEL_TRAINING_DONE (R492, R500). -/
def execChannelTrainingDone (channel : Nat) (ok : Bool) (s : State) : Host.Outcome State Fault Refusal :=
  if (s.media.channels.look {} channel).training.isSome then
    if ok then .next (settleMedia (trained channel s))
    else
      let s := onChannelErr channel (fun r => { r with train_fail := satAdd r.train_fail 1 }) s
      let r := s.ch.chnStatus.look {} channel
      match nextRate s channel r.mode.toNat r.rate.toNat with
      | some (m, x) => .next (onChannelStatus channel (fun r => { r with mode := BitVec.ofNat 4 m, rate := BitVec.ofNat 4 x }) s)
      | none => .next (settleMedia (failChannel channel s))
  else .next s

/-- A LUN of the channel has a data transfer queued: a read's codewords that wait for a decoder (R500, R508). -/
def transferQueued (s : State) (c : Nat) : Bool :=
  s.media.ops.vals.any fun o => dieChannel o.die == c && o.wantsDecoder && !o.soft

/-- A channel that is up is to retrain (R500): the interval has passed, or the pair's temperature has moved by more than
retrain_delta. -/
def retrainDue (s : State) (c : Nat) : Bool :=
  let x := s.media.channels.look {} c
  let moved := decide ((s.ch.retrain.toNat : Int) * 2 ^ 32 < (pairTemp s (c / 6) - x.trained_temp).natAbs)
  (s.power.pairs.look {} (c / 6)).phase == .discovered && !s.ch.failed.getLsbD c && x.training.isNone
    && !(declaredOn s c).isEmpty && (s.due .retrain c || moved)

/-- A channel retrains at the rate in force. -/
def beginBusTraining (c : Nat) (s : State) : State :=
  disarm .retrain c (onChannelStatus c (fun r => { r with training := true })
    (onChannel c (fun x => { x with training := some true }) s))

/-- MEDIA sleeps: in Patrol, outside a wake and a return (table "Domains in Patrol"). -/
def mediaSleeps (s : State) : Bool :=
  s.psm.status.in_force == 4 && s.power_states.cycle.isNone && s.power_states.returning.isNone

/-- CHANNEL_RETRAIN (R500): a channel that is to retrain does, once no LUN of it has a data transfer queued. -/
def execChannelRetrain (channel : Nat) (s : State) : Host.Outcome State Fault Refusal :=
  if s.mediaOn ∧ !mediaSleeps s ∧ !transferQueued s channel ∧ retrainDue s channel then .next (beginBusTraining channel s)
  else .next s

/-- LUNs found on a chip enable. -/
def lunsOn (l : List DiscoveredDie) (ce : Nat) : Nat := (l.filter fun f => f.die / 4 == ce).length

/-- Show what discovery found on a channel. -/
def showChannel (c : Nat) (found : List DiscoveredDie) (s : State) : State :=
  let mine := found.filter fun f => dieChannel f.die == c
  let word := total ((List.range 8).map fun k => lunsOn mine (8 * c + k) * 2 ^ (4 * k))
  let s := { s with ch.chnCeFound := s.ch.chnCeFound.put c (BitVec.ofNat 32 word) }
  onChannelStatus c (fun r => { r with found := sat 8 mine.length }) s

/-- The mismatch event of a declared die that discovery did not find (R498). -/
def missingDie (d : Nat) (found : List DiscoveredDie) (s : State) : State :=
  raise (channelSource (dieChannel d)) (if 0 < lunsOn found (d / 4) then 2 else 1) (leBytes 4 d) s

/-- Dies not found (R498): failed with cause 0x1, or a fatal media condition of a device never formatted. -/
def dropMissing (l : List Nat) (s : State) : State :=
  if l.isEmpty then s else if s.engine.formatted then failDies l 1 s else fatalCondition s

/-- A failed die that has been rebuilt returns to use (R547). -/
def returnDie (d : Nat) (s : State) : State :=
  if (s.die d).state = 4 ∧ s.red.cfg.return_enable then
    let v := s.nextStamp
    let s := onDie d (fun _ => {}) s
    let mean := s.rcl.peStats.pe_mean.toNat
    let s := each ((List.range (s.geo d).blocks).filter fun b => decide (16 ≤ b)) (fun b s =>
      onBlock (blockKey d b) (fun _ => { state := .released, pe := s.reclaim.wear_pe.look mean (blockKey d b), release_stamp := v }) s) s
    writeRedPage s
  else s

/-- DISCOVERY_COMPLETE (R497 step 6, R498). -/
def execDiscoveryComplete (pair : Nat) (found : List DiscoveredDie) (s : State) : Host.Outcome State Fault Refusal :=
  let p := s.power.pairs.look {} pair
  let chans := (List.range 6).map fun i => 6 * pair + i
  if p.phase = .settled ∧ pair < 8 ∧ !(chans.any fun c => (s.media.channels.look {} c).training.isSome) then
    let mine := found.filter fun f => diePair f.die == pair && f.id == (s.geo f.die).id
    let dies := (chans.flatMap (declaredOn s))
    let lost := dies.filter fun d => !mine.any fun f => f.die == d
    let extra := (found.filter fun f => diePair f.die == pair && !s.declared f.die).map fun f => f.die / 4
    let s := { s with
      power.pairs := s.power.pairs.put pair { p with phase := .discovered, found := true }
      media.found := s.media.found ++ (mine.map DiscoveredDie.die).filter fun d => s.declared d && !s.media.found.contains d }
    let s := each chans (fun c => showChannel c (mine.filter fun f => s.declared f.die)) s
    let s := each extra.eraseDups (fun ce => raise (channelSource (ce / 8)) 3
      (leBytes 4 (ce % 8 + 16 * lunsOn found ce))) s
    let s := dropMissing lost (each lost (fun d => missingDie d mine) s)
    let s := each (dies.filter fun d => mine.any fun f => f.die == d) returnDie s
    .next (settleMedia s)
  else .next s

end Sys2Proof.Machine
end

