-- ==== Sys2Proof/Machine/Translation.lean ====
section
/-!
DEFINITION. Commands of the stripe builder, the stays, the map engine, reclaim and redundancy control that are not a
die's report (chapters 9, 10, 11 and 13).
-/

namespace Sys2Proof.Machine

/-- The modes in which the translation tier works on its own. -/
def State.works (s : State) : Bool :=
  match s.mode with
  | .run => true
  | .reduced => true
  | .readOnly => true
  | _ => false

/-! ### A normal shutdown's progress (R308) -/

/-- Commands outstanding on a controller, apart from Asynchronous Event Requests. -/
def outstanding (s : State) (c : Nat) : Bool :=
  s.nvme.tracker.vals.any fun e => e.ctrl == c && !(e.sqid == 0 && e.sqe.opcode == 0x0C)

/-- A normal shutdown goes on: once the controller's commands are complete the Shroud is built into stripes, then a
checkpoint is written, then SHST becomes 0b10. -/
def driveShutdown (s : State) : State :=
  match s.nvme.shutting with
  | none => s
  | some _ =>
    if s.ctrls.any fun c => (s.ctrl c).shst == 1 && outstanding s c then s
    else if !(s.shroud.held.isEmpty && s.shroud.records.isEmpty) then
      match s.shroud.filling_host with
      | some n => if (unplaced s).isEmpty && (unplacedRecord s).isNone then padStripe n s else s
      | none => s
    else if !s.nvme.shut_checkpoint then
      let s := each ((s.reclaim.wear_erases.filter fun p => decide (0 < p.2)).map Prod.fst) wearSnapshot s
      pump (checkpointTrigger { s with nvme.shut_checkpoint := true })
    else if s.engine.current.isSome || s.engine.queued then s
    else
      let done := fun (k : Controller) => if k.shst = 1 then { k with shst := 2 } else k
      let shut := s.ctrls.filter fun c => (s.ctrl c).shst == 1
      { each shut (noteMi · Mi.shst) (onCtrl 1 done (onCtrl 0 done (writeHealthPage s))) with
        nvme.shutting := none, nvme.shut_checkpoint := false, nvme.clean := true }

/-! ### Stripes and stays -/

/-- STRIPE_PAD_AGE (R425). -/
def execStripePadAge (s : State) : Host.Outcome State Fault Refusal :=
  if s.due .stripePad 0 ∧ s.builds then
    match s.shroud.filling_host with
    | some n => .next (settleMedia (padStripe n (disarm .stripePad 0 s)))
    | none => .next (disarm .stripePad 0 s)
  else .next s

/-- STRIPE_APPLY (R378 to R380): not in Flush, Thermal Halt or Hold; in Start the scan applies (R398). -/
def execStripeApply (serial : Nat) (s : State) : Host.Outcome State Fault Refusal :=
  if s.works then .next (driveShutdown (settleMedia (applyStripe serial s))) else .next s

/-- STAY_PAGE_FLUSH_AGE (R432). -/
def execStayPageFlushAge (s : State) : Host.Outcome State Fault Refusal :=
  if s.due .stayFlush 0 ∧ s.mediaOn then .next (issueStayPage (disarm .stayFlush 0 s)) else .next s

/-- STAY_PAGE_DURABLE (R432, R424). -/
def execStayPageDurable (s : State) : Host.Outcome State Fault Refusal :=
  match s.shroud.pages.find? fun p => p.issued && p.done0 && p.done1 with
  | none => .next s
  | some g => .next (driveShutdown (settleMedia (releaseDurable { s with shroud.pages := s.shroud.pages.filter fun p => p != g })))

/-- STAY_REPAIR_DONE (R434): every retained record is in the new stay, and a type 0x07 record is appended. -/
def execStayRepairDone (s : State) : Host.Outcome State Fault Refusal :=
  match s.shroud.repairing with
  | none => .next s
  | some d =>
    let second := match s.shroud.stay0 with | some x => x.good | none => false
    let gen := BitVec.ofNat 32 (s.shroud.pair_gen + 1)
    let s := setStay second { die := d } s
    let s := { s with
      shroud.repairing := none
      shroud.pages := []
      shroud.journal := s.shroud.journal.map fun r =>
        if (if second then r.durable0 else r.durable1) then { r with durable0 := true, durable1 := true } else r
      str.status.stay_repair := false
      shroud.pair_gen := s.shroud.pair_gen + 1
      str.stayGen := gen }
    let left := (s.shroud.journal.filter fun r => !r.durable).map StayRecord.seq
    let s := each left pageRecord s
    .next (settleMedia (releaseDurable (writeRedPage (issueStayPage (appendBuilt 7 gen.toNat s)))))

/-! ### The map engine -/

/-- MAP_PAGE_ARRIVAL (R376, R391): speculated units are settled, and waiting units are resolved and read. -/
def execMapPageArrival (page : Nat) (s : State) : Host.Outcome State Fault Refusal :=
  let reading := s.media.ops.vals.any fun o => o.owner == .mapPage page
  let recon := s.redun.recons.vals.any fun r => r.use == .mapPage page
  match s.engine.cache.find page with
  | none => .next s
  | some c =>
    if c.waiting ∧ !reading ∧ !recon then
      let s := { s with engine.cache := s.engine.cache.put page { c with waiting := false } }
      let s := each (s.engine.specs.filter fun p => (missing s p.unit).isEmpty) settleSpec s
      let s := each s.nvme.tracker (fun p s => if p.2.state = .overlap then s else readUnits p.1 (waitingUnits s p.1 p.2) s) s
      .next (settleMedia s)
    else .next s

/-- MAP_PAGE_WRITEBACK_AGE (R377, R403). -/
def execMapPageWritebackAge (page : Nat) (s : State) : Host.Outcome State Fault Refusal :=
  if s.due .mapWriteback page ∧ s.works then
    let s := disarm .mapWriteback page s
    if (s.engine.cache.look {} page).dirty then .next (settleMedia (writeBack page s)) else .next s
  else .next s

/-- CHECKPOINT_INTERVAL (R394). -/
def execCheckpointInterval (s : State) : Host.Outcome State Fault Refusal :=
  if s.due .checkpoint 0 ∧ s.works then .next (settleMedia (checkpointTrigger (disarm .checkpoint 0 s))) else .next s

/-- Units of a checkpoint that are not yet in a committed stripe. -/
def checkpointOpen (s : State) (id : Nat) : Bool :=
  let mine := fun (u : UnitSource) => match u with
    | .checkpoint i _ => i == id
    | _ => false
  s.shroud.replace.any mine || s.shroud.stripes.vals.any fun st => st.inFlight && st.units.any mine

/-- Address of the first unit of a checkpoint. -/
def checkpointFirst (s : State) (id : Nat) : Nat :=
  (s.shroud.stripes.findSome? fun p =>
    ((List.range p.2.units.length).find? fun u => p.2.units.getD u .empty == .checkpoint id 0 && p.2.state != .abandoned
      && liveUnit s p.2 u).map fun u => unitAddress s p.2 u).getD 0

/-- CHECKPOINT_COMPLETE (R397, R394, R433). -/
def execCheckpointComplete (s : State) : Host.Outcome State Fault Refusal :=
  match s.engine.current with
  | none => .next s
  | some c =>
    if c.units_left = 0 ∧ !checkpointOpen s c.begin_stamp.stamp.toNat then
      let first := checkpointFirst s c.begin_stamp.stamp.toNat
      let s := { s with
        engine.current := none
        engine.complete := (c :: s.engine.complete).take 2
        engine.full_scan := false
        map.status.ckpt_busy := false
        map.status.ckpt_unanch := c.begin_stamp.unanch
        map.status.horizon_unanch := c.horizon_unanch
        map.ckptStamp := c.begin_stamp.stamp
        map.ckptHorizon := BitVec.ofNat 64 c.horizon }
      let s := writeHealthPage s
      let s := pruneJournal (appendBuilt 5 first s)
      let s := if s.engine.queued then checkpointTrigger s else s
      .next (driveShutdown (settleMedia (releaseDurable s)))
    else .next s

/-- FOLD_AGE (R370): the reef's 16 units are read and copied into one slot. -/
def execFoldAge (reef : Nat) (s : State) : Host.Outcome State Fault Refusal :=
  let l := reefEntries s reef
  let fine := match s.engine.table.find reef with
    | some (.fine _ _) => true
    | _ => false
  let all := l.all fun x => match x with | .flash _ => true | _ => false
  let on := match s.mode with | .run => true | .reduced => true | _ => false
  if s.due .fold reef && on && fine && all && s.map.cfg.fold_enable then
    let k := s.nextStamp
    let s := { disarm .fold reef s with engine.folding := s.engine.folding ++ [reef] }
    .next (each (List.range 16) (fun i s => match l.getD i .unmapped with
      | .flash a => readCopy k (16 * reef + i) a s
      | _ => s) s)
  else .next s

/-- STREAM_END (R388). -/
def execStreamEnd (stream : Nat) (s : State) : Host.Outcome State Fault Refusal :=
  if s.due .stream stream then
    .next { disarm .stream stream s with engine.streams := s.engine.streams.drop stream }
  else .next s

/-! ### Reclaim -/

/-- Valid counts by walking the table and the directory (R455, R456). -/
def rebuildCounts (s : State) : State :=
  let s := { s with reclaim.blocks := s.reclaim.blocks.over fun _ b => { b with valid := 0 } }
  let add := fun (a : Nat) => onBlock (puaKey a) fun b => { b with valid := b.valid + 1 }
  let units := s.engine.table.flatMap fun p => (reefEntries s p.1).filterMap fun l => match l with
    | .flash a => some a
    | _ => none
  let held := s.shroud.stripes.vals.flatMap fun st => (List.range st.units.length).filterMap fun u =>
    if retained s (st.units.getD u .empty) then some (unitAddress s st u) else none
  each (units ++ s.engine.directory.vals ++ held) add s

/-- COUNTS_READY (R456). -/
def execCountsReady (s : State) : Host.Outcome State Fault Refusal :=
  let on := match s.mode with | .run => true | .reduced => true | .patrol => true | .readOnly => true | _ => false
  if on && !s.rcl.status.counts_ready then
    .next (settleMedia (sweepGroups { rebuildCounts s with rcl.status.counts_ready := true }))
  else .next s

/-- A group can be a victim (R454): no block is open or already a victim, and some block holds stripes. -/
def victimFit (s : State) (g : List Nat) : Bool :=
  g.all (fun k => match (s.blockAt k).state with | .closed => true | .retired => true | _ => false)
    && !(stripesOf s g).isEmpty && !(stripesOf s g).any fun p => p.2.inFlight

/-- Queued blocks of a class, oldest first. -/
def queuedIn (s : State) (cls : Nat) : List Nat :=
  (sortOn (fun p : Nat × Block => p.2.queue_order) (s.reclaim.blocks.filter fun p => p.2.queued == some cls)).map Prod.fst

/-- Closed blocks past the retention age (class 2). -/
def aged (s : State) : List Nat :=
  (sortOn (fun p : Nat × Block => p.2.close_stamp) (s.reclaim.blocks.filter fun p => p.2.state == .closed
    && decide (s.rcl.retainAge.toNat < s.h - p.2.close_stamp))).map Prod.fst

/-- The closed block of lowest pe, oldest on ties, when the spread is exceeded (class 3, R479). -/
def wearVictim (s : State) : List Nat :=
  let tooFar := decide (s.rcl.wlSpread.toNat < s.rcl.peStats.pe_max.toNat - s.rcl.peStats.pe_min.toNat)
  let ro := match s.mode with | .readOnly => true | _ => false
  if tooFar && s.rcl.cfg.wl_enable && !ro && !s.reclaim.victims.any fun v => v.cls == 3 then
    match leastOn (fun p : Nat × Block => p.2.pe * 2 ^ 64 + p.2.close_stamp) (s.reclaim.blocks.filter fun p => p.2.state == .closed) with
    | some p => [p.1]
    | none => []
  else []

/-- Score of a class 4 group (R465). -/
def groupScore (s : State) (g : List Nat) : Int :=
  let u := groupValid s g
  let c := groupCapacity s g
  let closed := (g.map fun k => (s.blockAt k).close_stamp).foldl max 0
  let ageS := min (s.h - closed) s.rcl.ageCap.toNat / 2 ^ 32
  let cap := s.rcl.ageCap.toNat / 2 ^ 32
  let age := 1024 + (if cap = 0 then 0 else s.rcl.cfg.w_age.toNat * ageS / cap)
  let diff := (s.rcl.peStats.pe_mean.toNat : Int) - groupPe s g
  let wear := max 256 (min 2048 (1024 + ((s.rcl.cfg.w_wear.toNat : Int) * diff).tdiv s.rcl.peRated.toNat))
  ((((c - u) * age : Nat) : Int) * wear).tdiv (u + c / 16)

/-- Groups of class 4: every fit group with u < c, of which the first is the one to choose; before the counts are ready
the oldest (R456, R464). -/
def class4 (s : State) : Option (List Nat) :=
  let gs := (((s.reclaim.blocks.filter fun p => p.2.state == .closed).map fun p => sortOn id (groupOf s p.1)).eraseDups).filter fun g =>
    victimFit s g && decide (groupValid s g < groupCapacity s g)
  let close := fun (g : List Nat) => (g.map fun k => (s.blockAt k).close_stamp).foldl max 0
  if s.rcl.status.counts_ready then
    gs.foldl (fun best g => match best with
      | none => some g
      | some b => if groupScore s b < groupScore s g ∨ (groupScore s b = groupScore s g ∧ close g < close b) then some g else best) none
  else leastOn close gs

/-- Class 4 is chosen now (table "Victim classes", R476). -/
def class4On (s : State) : Bool :=
  let ndwin := s.rcl.status.plm_enabled && !s.rcl.status.dtwin
  match levelFor s with
  | 0 => false
  | 1 => s.rcl.status.idle || ndwin
  | _ => true

/-- The next victim: class and group (R464, R475). -/
def nextVictim (s : State) : Option (Nat × List Nat) :=
  let pick := fun (cls : Nat) (l : List Nat) => (l.map (groupOf s)).find? (victimFit s) |>.map fun g => (cls, g)
  let c0 := pick 0 (queuedIn s 0)
  if s.rcl.status.dtwin then c0
  else
    let c4 := if class4On s then (class4 s).map fun g => (4, g) else none
    let c3 := if levelFor s ≤ 1 then pick 3 (wearVictim s) else none
    c0 <|> pick 1 (queuedIn s 1) <|> pick 2 (queuedIn s 2 ++ aged s) <|> c3 <|> c4

/-- RECLAIM_VICTIM_SELECT (R464 to R467, R473): the group's valid units are read, stripe by stripe, to be copied. -/
def execReclaimVictimSelect (s : State) : Host.Outcome State Fault Refusal :=
  if s.works ∧ s.reclaim.victims.length < 2 then
    match nextVictim s with
    | none => .next s
    | some (cls, g) =>
      let (st, s) := takeStamp s
      let s := each g (fun k s => match (s.blockAt k).state with
        | .retired => onBlock k (fun b => { b with queued := none }) s
        | _ => onBlock k (fun b => { b with state := .victim, queued := none }) s) s
      let s := { s with
        reclaim.victims := s.reclaim.victims ++ [{ blocks := g, cls := cls, chosen := st }]
        rcl.status.last_class := BitVec.ofNat 4 cls }
      let units := (stripesOf s g).flatMap fun p => wantedUnits s p.2
      let pages := (stripesOf s g).flatMap fun p => (List.range p.2.units.length).filterMap fun u => match p.2.units.getD u .empty with
        | .mapPage page _ => if s.engine.directory.find page = some (unitAddress s p.2 u) then some page else none
        | _ => none
      let s := each (units.filter fun p => g.contains (puaKey p.2)) (fun p => readCopy st.stamp.toNat p.1 p.2) s
      .next (settleMedia (sweepGroups (each pages dirtyPage s)))
  else .next s

/-- No table entry, directory entry, copy or read refers to a block (R383). -/
def unreferenced (s : State) (k : Nat) : Bool :=
  (s.blockAt k).inflight == 0 && !copyPending s [k] && !(s.engine.directory.vals.any fun a => puaKey a == k)
    && !(s.engine.table.any fun p => (reefEntries s p.1).any fun l => match l with
      | .flash a => puaKey a == k
      | _ => false)

/-- ERASE_ISSUE (R460, R475): the erase waits at the ledger with the stamp at which the block was released. -/
def execEraseIssue (block : Nat) (s : State) : Host.Outcome State Fault Refusal :=
  let b := s.blockAt block
  if s.works ∧ b.state = .released ∧ 16 ≤ block % 4096 ∧ unreferenced s block ∧ !s.rcl.status.dtwin then
    .next (addOp { kind := .erase, owner := .erase, die := block / 4096, block := block % 4096, stamp := b.release_stamp }
      (onBlock block (fun b => { b with state := .erasing }) s))
  else .next s

/-- IDLE_DETECT (R468). -/
def execIdleDetect (s : State) : Host.Outcome State Fault Refusal :=
  if s.due .idle 0 ∧ !(outstanding s 0) ∧ !(outstanding s 1) then
    .next { disarm .idle 0 s with rcl.status.idle := true }
  else .next s

/-- DTWIN_TIMEOUT (R475). -/
def execDtwinTimeout (s : State) : Host.Outcome State Fault Refusal :=
  if s.due .dtwin 0 then .next (leaveWindow plmMaximum (disarm .dtwin 0 s)) else .next s

/-! ### Redundancy control -/

/-- The walk in progress, or the next failed die to walk, with the serial to visit next (R549). -/
def walkNext (s : State) : Option (Nat × Nat) :=
  match s.redun.walk with
  | some w => some w
  | none => ((s.redun.dies.find? fun p => p.2.state == 2 || p.2.state == 3).map Prod.fst).map fun d => (d, 0)

/-- Stripes with a member on a die, in ascending serial. -/
def stripesOn (s : State) (d : Nat) : List (Nat × Stripe) :=
  s.shroud.stripes.filter fun p => !p.2.inFlight && p.2.members.any fun m => m.die == d

/-- Stripes with rebuild reads outstanding. -/
def rebuilding (s : State) : Nat :=
  ((s.redun.recons.vals.filter fun r => r.use.forRebuild).map Recon.serial).eraseDups.length

/-- Units of a stripe on any failed die that rebuild must move: global unit or page, and address (R549). -/
def rebuildWanted (s : State) (st : Stripe) : List (ReconUse × Nat) :=
  (List.range st.units.length).filterMap fun u =>
    let a := unitAddress s st u
    if !s.dieDown (puaDie a) then none
    else match st.units.getD u .empty with
      | .host g _ => if entryOf s g = .flash a then some (.rebuildCopy g a, a) else none
      | .copy g _ _ => if entryOf s g = .flash a then some (.rebuildCopy g a, a) else none
      | .mapPage p _ => if s.engine.directory.find p = some a then some (.rebuildMap p, a) else none
      | _ => none

/-- The walk of a die ends: it is rebuilt, and every group with a block on it is reported for refresh (R549). -/
def endWalk (d : Nat) (s : State) : State :=
  let s := writeRedPage (onDie d (fun x => { x with state := 4 }) { s with redun.walk := none })
  let s := raise (src 12 3) 0 [] s
  each ((s.reclaim.blocks.filter fun p => p.1 / 4096 == d && (p.2.state == .closed || p.2.state == .retired)).map Prod.fst) reportRefresh s

/-- REBUILD_STRIPE_VISIT (R548 to R551). -/
def execRebuildStripeVisit (s : State) : Host.Outcome State Fault Refusal :=
  let on := match s.mode with | .run => true | .reduced => true | _ => false
  if !on then .next s
  else match walkNext s with
    | none => .next s
    | some (d, from_) =>
      if s.red.cfg2.rebuild_depth.toNat ≤ rebuilding s then .next s
      else
        let l := stripesOn s d
        let s := if s.redun.walk.isSome ∧ (s.die d).state = 3 then s
                 else raise (src 12 2) 0 [] (writeRedPage (onDie d (fun x => { x with state := 3 }) { s with
                   redun.walk := some (d, 0)
                   red.rebuildDie := BitVec.ofNat 11 d
                   red.rebuildProgress := { total := sat 32 l.length, walked := 0 } }))
        match l.find? fun p => decide (from_ < p.1) with
        | none =>
          if rebuilding s = 0 then .next (settleMedia (endWalk d s)) else .next s
        | some (n, st) =>
          let (v, s) := takeStamp s
          let s := { s with
            redun.walk := some (d, n)
            red.rebuildProgress.walked := satAdd s.red.rebuildProgress.walked 1 }
          .next (settleMedia (each (rebuildWanted s st) (fun w => beginRecon v.stamp.toNat w.1 w.2) s))

/-- RESHAPE_CUTOVER (R559): the page is durable, the cut-over stamp is issued, and new stripes take the target. -/
def execReshapeCutover (s : State) : Host.Outcome State Fault Refusal :=
  match s.redun.cutover with
  | none => .next s
  | some i =>
    let from_ := s.shapeNow
    let old := s.shape from_
    let s := { s with
      redun.cutover := none
      str.status.shape := BitVec.ofNat 2 i
      red.status.from_shape := BitVec.ofNat 2 from_
      red.status.reshape := 1 }
    let s := writeRedPage s
    let (st, s) := takeStamp s
    let s := { s with redun.page := s.redun.page.map fun p => { p with
      cut := st, in_force_entry := some (s.shape i), from_entry := some old } }
    .next (settleMedia (recount s))

end Sys2Proof.Machine
end

