-- ==== Sys2Proof/Machine/Power.lean ====
section
/-!
DEFINITION. Power (chapter 4 and R115 to R125): rails and power-on reset, power loss, Flush and the spill image (R165 to
R170, R443 to R447, R51), NAND power pairs (R151 to R156), the hold-up bank and the Shroud allowance (R157 to R164).
-/

namespace Sys2Proof.Machine

/-! ### Thresholds in force (R143) -/

/-- Loss threshold in force, mV. -/
def lossThreshold (s : State) : Nat := if s.manifest.applied then s.pwr.vinLossMv.toNat else 3900

/-- Hold setpoint in force, mV. -/
def holdSetpoint (s : State) : Nat := if s.manifest.applied then s.pwr.vinHoldMv.toNat else 3700

/-- The device is out of Hold, so that its event fabric runs. -/
def State.awake (s : State) : Bool := match s.mode with | .hold => false | _ => true

/-- An event where the event fabric runs. -/
def raiseAwake (source : Nat) (detail : Nat) (s : State) : State := if s.awake then raise source detail [] s else s

/-! ### Rails and power-on reset (R139, R147, R148) -/

/-- The rails of a power-up step, by code (tables "Internal rails" and "Rail power-up steps"). -/
def stepRails (step : Nat) : List Nat :=
  match step with
  | 2 => [0xA, 0xB]
  | 3 => [0x9, 0x3]
  | 4 => [0x1, 0x2]
  | 5 => [0x4, 0x5, 0x6]
  | 6 => [0x7, 0x8]
  | _ => []

/-- The rails are coming up: power-on reset is asserted, power is there, and no wait or PWRDIS holds them. -/
def railsRising (s : State) : Bool :=
  !s.awake && s.power.por && !s.power.dark && !s.power.rail_wait && !s.pad.strapStatus.pwrdis_live

/-- RAIL_POWER_UP_STEP (R147). -/
def execRailPowerUpStep (s : State) : Host.Outcome State Fault Refusal :=
  if railsRising s && decide (s.power.rail_step < 6) then .next { s with power.rail_step := s.power.rail_step + 1 }
  else .next s

/-- The DRAM rails are off, and with them a Shroud held there (R148, R170). -/
def loseDram (s : State) : State :=
  { s with
    shroud := keepShroud false s.shroud
    reset_ctl.dram_kept := false
    reset_ctl.shroud_gone := s.reset_ctl.dram_kept || s.reset_ctl.shroud_gone
    power.dram_rails := false }

/-- RAIL_POWER_GOOD_TIMEOUT (R148): a rail of the step waited for is not good within its bound; every rail but VAO and
VAUX turns off, those of the DRAM too. -/
def execRailPowerGoodTimeout (rail : Nat) (s : State) : Host.Outcome State Fault Refusal :=
  if railsRising s && (stepRails (s.power.rail_step + 1)).contains rail then
    .next { loseDram s with
      power.rail_step := min 2 s.power.rail_step
      power.rail_failures := s.power.rail_failures + 1
      power.rail_wait := true
      reset_ctl.retention.rail_fault := rail }
  else .next s

/-- RAIL_RETRY_TIMER (R148): after three failed attempts the device stays in Hold. -/
def execRailRetryTimer (s : State) : Host.Outcome State Fault Refusal :=
  if s.power.rail_wait && decide (s.power.rail_failures < 3) then .next { s with power.rail_wait := false } else .next s

/-- The level bits of the straps, in the order of PAD_STRAP_STATUS bits [4:0]. -/
def Balls.levels (b : Balls) : BitVec 5 :=
  BitVec.ofNat 5 (b.mast.toNat + 2 * b.casc_pos.toNat + 8 * b.test_en.toNat + 16 * b.dualport.toNat)

/-- Sample the straps, the presence balls and DUALPORT_EN# (R115). -/
def sampleStraps (b : Balls) (s : State) : State :=
  { s with
    pad.strapStatus := { pwrdis_live := s.pad.strapStatus.pwrdis_live, strap_changed := false, live := b.levels,
                         dualport := b.dualport, test_en := b.test_en, casc_pos := b.casc_pos, mast := b.mast }
    pads.present := b.present
    pads.sampled := true }

/-- POWER_ON_RESET_RELEASE (R139, R115, R121): the straps are sampled at the release that follows source 0x0 or 0x1;
with TEST_EN sampled as 1 power-on reset stays asserted.  RET and AO, which have no clock-good, leave reset with it (R190). -/
def execPowerOnResetRelease (balls : Balls) (s : State) : Host.Outcome State Fault Refusal :=
  if railsRising s && s.power.rail_step == 6 && !s.pad.strapStatus.test_en then
    let s := if s.rst.last.source.toNat ≤ 1 then sampleStraps balls s
      else { s with pad.strapStatus.live := balls.levels }
    if s.pad.strapStatus.test_en then .next s
    else .next (releaseDomain .ret (releaseDomain .ao { s with
      power.por := false, power.rail_step := 7, power.rail_failures := 0 }))
  else .next s

/-- STRAP_CHANGE_DETECTED (R116): `levels` holds the straps in bits [4:0] and the presence balls in bits [6:5].  Field
live shows them; a difference from the sampled values sets strap_changed. -/
def execStrapChangeDetected (levels : Nat) (s : State) : Host.Outcome State Fault Refusal :=
  if s.power.dark then .next s
  else
    let p := s.pad.strapStatus
    let same := levels % 2 == p.mast.toNat && levels / 2 % 4 == p.casc_pos.toNat && levels / 8 % 2 == p.test_en.toNat
      && levels / 16 % 2 == p.dualport.toNat && levels / 32 % 4 == s.pads.present.toNat
    .next { s with
      pad.strapStatus.live := BitVec.ofNat 5 levels
      pad.strapStatus.strap_changed := p.strap_changed || (s.pads.sampled && !same) }

/-! ### Going to Hold (R150, R170) -/

/-- The device goes dark: every rail is down (R150), and the sampled straps are no longer held (R115). -/
def goDark (s : State) : State :=
  let vin := s.power.vin
  let s := afterReset true false s
  { s with
    power := { vin := vin, dark := true, rail_step := 0, vaux := false, por := true }
    pad.strapStatus := { live := s.pad.strapStatus.live, pwrdis_live := s.pad.strapStatus.pwrdis_live }
    pads := {} }

/-- The rails go down at the end of Flush or where nothing keeps them (R150); with PWRDIS high and VIN there, every rail but
VAUX_OUT (R125). -/
def powerDown (s : State) : State :=
  if s.pad.strapStatus.pwrdis_live && s.power.vin then
    { afterReset true false s with power := { vin := true, dark := false, rail_step := 1, vaux := true, por := true } }
  else goDark s

/-- The converter holds the DRAM rails in Hold, with DRAM in self-refresh (R170). -/
def holdDram (s : State) : State :=
  let s := afterReset false true s
  { s with
    power.por := true
    power.rail_step := 2
    power.dram_rails := true
    pwr.status.holdup_active := true
    pwr.status.loss_detected := true
    pwr.status.charging := false }

/-! ### The spill image (R167, R443 to R447) -/

/-- A spill set that holds no image not yet released (R774), and whose blocks are all erased (R443, R444). -/
def freeSet (s : State) : Option Nat :=
  [0, 1].find? fun k => !(s.shroud.images.any fun i => i.set == k && !i.released)
    && (s.shroud.sets.look [] k).all fun b => (s.blockAt b).state == .spill || (s.blockAt b).state == .retired

/-- Bytes of a Thermal Halt record payload (table "Thermal Halt record payload"). -/
def HaltRecord.bytes (r : HaltRecord) : Bytes :=
  leBytes 8 r.th_stamp.stamp.toNat ++ leBytes 2 (BitVec.ofInt 16 r.composite).toNat
    ++ leBytes 1 (r.node % 16) ++ leBytes 1 (r.mode % 16 + 16 * (r.power_state % 16))
    ++ leBytes 1 (r.deferred.toNat + 2 * r.th_stamp.unanch.toNat) ++ leBytes 1 r.halt ++ [0, 0]

/-- Journal and store messages being sealed are abandoned (R640). -/
def abandonSeals (s : State) : State :=
  let spill := fun (m : GcmMessage) => !m.sealing || m.purpose == .spillRecord
  { s with
    security.lanes := s.security.lanes.filter fun p => spill p.2
    security.gcm_waiting := s.security.gcm_waiting.filter spill }

/-- A spill begins (R166 step 1, R170, R49 step 4): its image takes its stamp; `th` says that a Thermal Halt entry is in
progress whose record is not written (R447). -/
def beginSpill (cause : SpillCause) (th : Bool) (s : State) : State :=
  match freeSet s with
  | none => s
  | some k =>
    let (st, s) := takeStamp s
    askDigest 0 .endMarker { s with shroud.spill := some {
        cause := cause
        image := { set := k, image_stamp := st, reserve := s.camp.reserve.toNat,
                   th_payload := if th then s.thermal.halt.map HaltRecord.bytes else none }
        left := s.shroud.held } }

/-- Payload bytes of a record at most (R445). -/
def spillPayload : Nat := 65536

/-- Records of the Shroud's journal that an image carries (R167, R429). -/
def spillJournal (s : State) : List StayRecord := s.shroud.journal.filter fun r => !r.durable

/-- The bytes of a stage of an image, all its records together (R167, R445, R447). -/
def stageBytes (x : Spill) (s : State) : Bytes :=
  match x.stage with
  | .reservation => leBytes 8 x.image.reserve ++ leBytes 1 x.image.th_payload.isSome.toNat ++ leBytes 7 0
      ++ fitTo 16 (x.image.th_payload.getD [])
  | .index => shroudHeader s ++ shroudIndex s ++ s.shroud.records.flatMap MapRecord.bytes
  | .journal => (spillJournal s).flatMap StayRecord.encoded
  | .units => (x.left.take 15).flatMap fun u => u.indexBytes ++ fitTo 4096 u.frame.data ++ fitTo 64 u.frame.metadata
  | _ => []

/-- Type code of the records of a stage, and how many there are. -/
def stageRecords (x : Spill) (s : State) : Nat × Nat :=
  match x.stage with
  | .reservation => (0x11, 1)
  | .index => (0x12, divUp (4096 + 32 * (s.shroud.held.length + s.shroud.records.length)) spillPayload)
  | .journal => (0x13, divUp (total ((spillJournal s).map fun r => r.encoded.length)) spillPayload)
  | .units => (0x14, 1)
  | _ => (0x15, 1)

/-- The head of a record (table "Spill record head"). -/
def spillHead (type length : Nat) (i : SpillImage) (nonce seq : Nat) : Bytes :=
  leBytes 1 type ++ leBytes 1 i.image_stamp.unanch.toNat ++ leBytes 2 0 ++ leBytes 4 length ++ leBytes 8 i.image_stamp.stamp.toNat
    ++ leBytes 12 nonce ++ leBytes 4 seq

/-- A record is sealed, every type but units in two copies under nonces of their own; the first copy goes into the digest
(R445, R446). -/
def sealRecord (type : Nat) (payload : Bytes) (x : Spill) (s : State) : Spill × State :=
  let (n, s) := takeNonce (openLane s) s
  let s := if type = 0x14 then s else (takeNonce (openLane s) s).2
  let head := spillHead type payload.length x.image n x.seq
  let c := gcmSeal (Config.gcmKey 0) (leBytes 12 n) head payload
  ({ x with seq := x.seq + 1, sum := x.sum.add (head ++ c.1 ++ c.2) }, s)

/-- Stage after the index: the journal where it holds records not durable in both stays, then units, then the marker. -/
def afterIndex (s : State) (x : Spill) : SpillStage :=
  if (spillJournal s).isEmpty then (if x.left.isEmpty then .marker else .units) else .journal

/-- Items of a stage that begin at a byte of it, each with its length, whose records all verified. -/
def survivors (bad : List Nat) : Nat → List (Nat × α) → List α
  | _, [] => []
  | at_, (n, a) :: rest =>
    let lost := bad.any fun p => decide (at_ / spillPayload ≤ p) && decide (p ≤ (at_ + n - 1) / spillPayload)
    (if lost then [] else [a]) ++ survivors bad (at_ + n) rest

/-- A stage of the image is written: what of it verified is in the image (R446). -/
def stageWritten (x : Spill) (s : State) : Spill :=
  let ok := x.bad.isEmpty
  let y := { x with piece := 0, bad := [] }
  match x.stage with
  | .reservation => { y with stage := .index, image.valid := ok }
  | .index => { y with
      stage := afterIndex s x
      image.index := survivors x.bad 4096 (s.shroud.held.map fun u => (32, u))
      image.records := survivors x.bad (4096 + 32 * s.shroud.held.length) (s.shroud.records.map fun m => (32, m)) }
  | .journal => { y with
      stage := if x.left.isEmpty then .marker else .units
      image.journal := survivors x.bad 0 ((spillJournal s).map fun r => (r.encoded.length, r)) }
  | .units =>
    let rest := x.left.drop 15
    { y with
      stage := if rest.isEmpty then .marker else .units
      image.units := if ok then x.image.units ++ x.left.take 15 else x.image.units
      left := rest }
  | _ => x

/-- A record of the image has been programmed, in both copies where it has two; `ok` says that a copy verifies (R446). -/
def spillRecord (ok : Bool) (x : Spill) (s : State) : State :=
  let k := stageRecords x s
  let (y, s) := sealRecord k.1 (((stageBytes x s).drop (spillPayload * x.piece)).take spillPayload) x s
  let y := { y with piece := x.piece + 1, bad := if ok then x.bad else x.bad ++ [x.piece] }
  { s with shroud.spill := some (if y.piece < k.2 then y else stageWritten y s) }

/-- The image is on flash as far as it goes. -/
def keepImage (x : Spill) (s : State) : State :=
  { s with
    shroud.images := if x.image.valid then (s.shroud.images.filter fun i => i.set != x.image.set) ++ [x.image] else s.shroud.images
    shroud.spill := none }

/-- The payload of an end marker (R445, table "Reservation and end-marker payloads"). -/
def EndMarker.bytes (m : EndMarker) : Bytes :=
  leBytes 8 m.stamp.stamp.toNat ++ leBytes 4 m.count ++ m.digest
    ++ leBytes 4 (m.stamp.unanch.toNat + 2 * m.def_stamp.unanch.toNat + 4 * m.start_spill.toNat)
    ++ leBytes 2 m.def_causes ++ leBytes 6 0 ++ leBytes 8 m.def_stamp.stamp.toNat

/-- Write the end marker (R445, R447). -/
def writeMarker (x : Spill) (s : State) : State :=
  let (st, s) := takeStamp s
  let start := match x.cause with | .startSpill => true | _ => false
  let m : EndMarker := {
    stamp := st
    count := x.image.units.length
    digest := x.sum.value
    start_spill := start
    def_causes := s.reset_ctl.since_record.toNat
    def_stamp := match s.reset_ctl.deferred with | some d => d.stamp | none => {} }
  let (x, s) := sealRecord 0x15 m.bytes x s
  keepImage { x with image.marker := some m } s

/-- The step 5 record of R49 comes next, once the Shroud is on flash; it takes its own stamp when it is built (R87). -/
def haltPersisted (s : State) : State :=
  match s.thermal.halt with
  | some r => request (.record 2 r.bytes) { s with thermal.entry := some .record }
  | none => { s with thermal.entry := some .record }

/-- SPILL_RECORD_WRITTEN (R167). In Thermal Halt entry the end marker is a record of this kind too (R49 step 4). -/
def execSpillRecordWritten (ok : Bool) (s : State) : Host.Outcome State Fault Refusal :=
  match s.shroud.spill with
  | none => .next s
  | some x => match x.stage, x.cause with
    | .marker, .thermalHalt => .next (haltPersisted (writeMarker x s))
    | .marker, _ => .next s
    | _, _ => .next (spillRecord ok x s)

/-! ### Power loss (R142, R165, R166, R170, R51) -/

/-- Entry to Flush from an operating mode; a Thermal Halt entry becomes a Flush (R51), an L4 not yet asserted is deferred. -/
def enterFlush (s : State) : State :=
  let entry := s.thermal.entry
  let s := match s.reset_ctl.sequence with
    | some q => deferReset q { s with reset_ctl.sequence := none }
    | none => s
  let s := abandonSeals <| haltMedia (setMode .flush { s with
    power_states.handshake := none
    power_states.returning := none
    nvme.ctrl0.fetch_stopped := true
    nvme.ctrl1.fetch_stopped := true
    nvme.act_led := false
    thermal.entry := none
    pwr.status.holdup_active := true })
  match s.shroud.spill, entry with
  | some x, _ => { s with shroud.spill := some { x with cause := .flush } }
  | none, some .record => s
  | none, some _ => beginSpill .flush true s
  | none, none => beginSpill .flush false s

/-- Every unit the Shroud holds, and every record of its journal not durable in both stays, is in one spill image. -/
def inImage (s : State) : Bool :=
  s.shroud.images.any fun i => (s.shroud.held.all fun u => i.units.contains u)
    && s.shroud.journal.all fun r => r.durable || i.journal.contains r

/-- Power loss in Start (R170): with a Shroud kept in DRAM, a spill from the end of step 11 on, where step 13 has not put
it into an image already (R35: a held unit is persisted through any later power loss); before, the DRAM Shroud is held in
self-refresh; without one the device goes dark. -/
def lossInStart (s : State) : State :=
  if !s.reset_ctl.dram_kept then powerDown s
  else if 14 ≤ s.reset_ctl.start_step ∧ inImage s = true then powerDown s
  else if 12 ≤ s.reset_ctl.start_step ∧ (freeSet s).isSome then
    abandonSeals <| haltMedia <| beginSpill .startSpill false { s with pwr.status.holdup_active := true }
  else holdDram s

/-- The charger may run: not in Flush or Thermal Halt, not over voltage, not in a measurement, and in Hold only from 4.0 V
(R158 to R160); VAO must be good. -/
def chargerMay (s : State) : Bool :=
  !s.power.dark && decide (2 ≤ s.power.rail_step) && !s.power.fault_over && !s.pwr.status.bank_test && !s.pwr.status.holdup_active &&
    (match s.mode with
      | .flush => false
      | .thermalHalt => false
      | .hold => decide (4000 ≤ s.pwr.measure.vin_mv.toNat)
      | _ => true)

/-- The charger restarts where the bank lies 500 mV below its target, and stops where it may not run (R158). -/
def refreshCharger (s : State) : State :=
  { s with pwr.status.charging := chargerMay s &&
      (s.pwr.status.charging || decide (s.pwr.measure.bank_mv.toNat + 500 ≤ s.pwr.bankTargetMv.toNat)) }

/-- What power loss does in the mode it meets (R142, R165, R170). -/
def actLoss (s : State) : State :=
  match s.mode with
  | .run => enterFlush s
  | .reduced => enterFlush s
  | .patrol => enterFlush s
  | .readOnly => enterFlush s
  | .flush => s
  | .start => if s.shroud.spill.isSome then s else lossInStart s
  | .thermalHalt => powerDown s
  | .hold => if s.reset_ctl.dram_kept then holdDram s else s

/-- Power loss is detected (R142): a bank measurement ends at once. -/
def powerLost (s : State) : State :=
  let s := actLoss (disarm .bankMeasure 0 { s with pwr.status.loss_detected := true, pwr.status.bank_test := false })
  { s with pwr.status.charging := s.pwr.status.charging && chargerMay s }

/-- POWER_LOSS_DETECTED (R142). -/
def execPowerLossDetected (s : State) : Host.Outcome State Fault Refusal :=
  if s.power.dark then .next s else .next (powerLost { s with pwr.status.vin_good := false })

/-- PWRDIS_ASSERT (R124 to R126): power loss for every purpose; in Hold power-on reset is kept asserted. -/
def execPwrdisAssert (s : State) : Host.Outcome State Fault Refusal :=
  let s := { s with pad.strapStatus.pwrdis_live := true }
  if s.power.dark then .next s
  else
    let s := powerLost s
    match s.mode with
    | .hold => .next { s with power.por := true, power.rail_step := min 2 s.power.rail_step }
    | _ => .next s

/-- Power-on reset applied again as source 0x1 (R125); three failed attempts at the rails stand until VIN falls (R148). -/
def reapply (s : State) : State :=
  let t := powerOn 1 s
  { t with
    power.rail_failures := s.power.rail_failures
    power.rail_wait := s.power.rail_wait
    reset_ctl.shroud_gone := s.reset_ctl.shroud_gone }

/-- PWRDIS_DEASSERT (R125): in Hold with VIN present power-on reset is applied again, as source 0x1. -/
def execPwrdisDeassert (s : State) : Host.Outcome State Fault Refusal :=
  let was := s.pad.strapStatus.pwrdis_live
  let s := { s with pad.strapStatus.pwrdis_live := false }
  match s.mode with
  | .hold =>
    if was && s.power.vin && !s.power.dark then .next (reapply (loseDram s)) else .next s
  | _ => .next s

/-- COLD_POWER_ON (R46, R114, R147): VIN rises above the power-on threshold, so a device that is dark begins anew. -/
def execColdPowerOn (s : State) : Host.Outcome State Fault Refusal :=
  if s.power.dark then .next (powerOn 0 s) else .next s

/-- VIN_FALL_DARK (R141, R150): the device goes dark, unless the converter holds its rails. -/
def execVinFallDark (s : State) : Host.Outcome State Fault Refusal :=
  if s.power.dark then .next s
  else
    let s := { s with pwr.status.vin_good := false, power.vin := false }
    let s := if s.pwr.status.loss_detected then s else powerLost s
    if s.pwr.status.holdup_active then .next s
    else .next (goDark s)

/-- VIN_OVERVOLTAGE (R144). -/
def execVinOvervoltage (s : State) : Host.Outcome State Fault Refusal :=
  if s.power.dark then .next s else .next (raiseAwake (src 2 0) 0 { s with pwr.status.vin_ov := true })

/-- FLUSH_END (R166 step 6, R167, R170): the end marker is written, the mode becomes Hold and the rails go down; power-on
reset follows where VIN has returned or PWRDIS is low with VIN there. -/
def execFlushEnd (s : State) : Host.Outcome State Fault Refusal :=
  let finish := fun (s : State) =>
    if s.pad.strapStatus.pwrdis_live then powerDown s
    else if s.power.vin_returned then powerOn 0 s
    else if s.pwr.status.vin_good then powerOn 1 s
    else goDark s
  let flush := match s.mode with | .flush => true | _ => false
  match s.shroud.spill with
  | none => if flush then .next (finish s) else .next s
  | some x => match x.stage, x.cause with
    | .marker, .thermalHalt => .next s
    | .marker, _ => .next (finish (writeMarker x s))
    | _, _ => .next s

/-- BANK_BELOW_VMIN (R170, R165): the converter stops; an image without its end marker stays as far as it was written. -/
def execBankBelowVmin (s : State) : Host.Outcome State Fault Refusal :=
  if s.pwr.status.holdup_active then
    let s := match s.shroud.spill with
      | some x => keepImage x s
      | none => s
    let gone := s.power.dram_rails
    let s := goDark s
    .next { s with reset_ctl.shroud_gone := gone || s.reset_ctl.shroud_gone }
  else .next s

/-- VIN_RETURN_IN_FLUSH (R170, R52): recorded. -/
def execVinReturnInFlush (s : State) : Host.Outcome State Fault Refusal :=
  match s.mode with
  | .flush => .next { s with power.vin := true, power.vin_returned := true, pwr.status.vin_good := true }
  | .start =>
    if s.shroud.spill.isSome then .next { s with power.vin := true, power.vin_returned := true, pwr.status.vin_good := true }
    else .next s
  | _ => .next s

/-- VIN_RETURN_IN_HOLD (R170): the rails are powered again from step 3, as source 0x2 with no rail fault. -/
def execVinReturnInHold (s : State) : Host.Outcome State Fault Refusal :=
  if s.power.dram_rails then
    .next (assertL5 { code := 2, stamp := ⟨0, true⟩, mode_at := .hold } true { s with
      power.vin := true
      pwr.status.vin_good := true
      pwr.status.holdup_active := false
      pwr.status.loss_detected := false
      pwr.status.rail_fault := 0
      reset_ctl.retention.rail_fault := 0 })
  else .next s

/-! ### NAND power pairs (R151 to R156) -/

/-- A pair. -/
def State.pair (s : State) (p : Nat) : Pair := s.power.pairs.look {} p

/-- Change a pair. -/
def onPair (p : Nat) (f : Pair → Pair) (s : State) : State := { s with power.pairs := s.power.pairs.put p (f (s.pair p)) }

/-- PWR_PAIR_MAP declares the pair populated. -/
def State.populated (s : State) (p : Nat) : Bool := decide (p < 8) && s.pwr.pairMap.getLsbD p

/-- Drive NVEN of a pair. -/
def driveNven (p : Nat) (on : Bool) (s : State) : State :=
  { s with pwr.pairStatus.nven := setBit s.pwr.pairStatus.nven p on }

/-- Show the NPG level of a pair. -/
def showNpg (p : Nat) (on : Bool) (s : State) : State := { s with pwr.pairStatus.npg := setBit s.pwr.pairStatus.npg p on }

/-- Step 1 of the pair enable steps: NVEN high, with the bound of R153. -/
def enablePair (p : Nat) (retry : Bool) (s : State) : State :=
  arm .npgTimeout p (s.pwr.npgTimeout.toNat + 2 ^ 20)
    (onPair p (fun x => { x with phase := .enabled, retry := retry }) (driveNven p true s))

/-- The populated pair after `p`, if any. -/
def nextPair (s : State) (p : Nat) : Option Nat := ((List.range 8).filter fun q => decide (p < q)).find? s.populated

/-- Enable a pair of Start, and arm the stagger for the one after it (R152). -/
def startPair (p : Nat) (s : State) : State :=
  let s := enablePair p false s
  match nextPair s p with
  | some q => arm .pairStagger 0 s.pwr.nvenStagger.toNat { s with power.next_pair := some q }
  | none => { s with power.next_pair := none }

/-- PAIR_ENABLE_STAGGER (R152). -/
def execPairEnableStagger (s : State) : Host.Outcome State Fault Refusal :=
  match s.power.next_pair with
  | some p => if s.due .pairStagger 0 then .next (startPair p (disarm .pairStagger 0 s)) else .next s
  | none => .next s

/-- Erases of a pair's blocks that were interrupted are made again before use: their blocks are released. -/
def dropPairOps (p : Nat) (s : State) : State :=
  let mine := s.media.ops.filter fun q => diePair q.2.die == p
  let s := each mine (fun q s =>
    match q.2.kind, q.2.owner with
    | .erase, _ => onBlock (blockKey q.2.die q.2.block) (fun b => { b with state := .released }) (dropOp q.1 s)
    | .program, .member _ _ => dropOp q.1 s
    | _, .speculative _ _ [] => leaveOp q.1 s
    | _, .speculative t _ c => onOp q.1 (fun o => { o with owner := .host t c, state := .waiting, merged := none, senses := 0, decoder := false, first := none }) s
    | _, _ => if q.2.dropped then leaveOp q.1 s
        else onOp q.1 (fun o => { o with state := .waiting, merged := none, senses := 0, decoder := false, first := none }) s) s
  { s with media.luns := s.media.luns.over fun d l => if diePair d = p then {} else l }

/-- A pair has failed (R153 to R155, R543 cause 0x5): a fatal media condition; on a formatted device its dies fail and
the reads held for them are served by redundancy control. -/
def failPair (p : Nat) (s : State) : State :=
  let s := disarm .npgTimeout p (driveNven p false { s with pwr.pairStatus.failed := setBit s.pwr.pairStatus.failed p true })
  let s := onPair p (fun x => { x with phase := .off, retry := false }) s
  let s := fatalCondition s
  if s.engine.formatted then
    let dies := (List.range 192).map (fun i => 192 * p + i)
    let s := failDies (dies.filter s.declared) 5 s
    let reads := (s.media.ops.filter fun q => diePair q.2.die == p && q.2.kind == .read).map Prod.fst
    each reads giveUp s
  else s

/-- NPG_SETTLED (R111, R152 steps 3 and 4): discovery begins; a pair that was lost has come back (R154), and in Start its
discovery runs again only if it had not completed. -/
def execNpgSettled (pair : Nat) (s : State) : Host.Outcome State Fault Refusal :=
  let x := s.pair pair
  if decide (x.phase = .enabled) && s.populated pair then
    let back := x.retry
    let again := !(back && x.found && (match s.mode with | .start => true | _ => false))
    let s := disarm .npgTimeout pair (showNpg pair true (onPair pair
      (fun x => { x with phase := if again then .settled else .discovered, retry := false }) s))
    let s := if again then beginDiscovery pair s else s
    .next (if back then raise (src 2 6) 0 [] s else s)
  else .next s

/-- NPG_TIMEOUT (R153, R154). -/
def execNpgTimeout (pair : Nat) (s : State) : Host.Outcome State Fault Refusal :=
  if s.due .npgTimeout pair && decide ((s.pair pair).phase = .enabled) then
    .next (settleMedia (failPair pair s))
  else .next s

/-- Stripes open with a member on a pair's channels. -/
def stripesOnPair (s : State) (p : Nat) : List Nat :=
  (s.shroud.stripes.filter fun q => q.2.inFlight && q.2.members.any fun m => diePair m.die == p).map Prod.fst

/-- NPG of a settled pair goes low in an operating mode (R154, R155). -/
def losePair (p : Nat) (s : State) : State :=
  let again := match (s.pair p).last_loss with
    | some t => decide (s.run ≤ t + 2 ^ 36)
    | none => false
  let h := s.run
  let s := driveNven p false (onPair p (fun x => { x with phase := .lost, last_loss := some h }) s)
  let open_ := stripesOnPair s p
  let s := each open_ abandonStripe s
  let s := takeError { source := src 2 5, kind := 6 } open_ (dropPairOps p s)
  if again then failPair p s else arm .pairRetry p (2 ^ 24) s

/-- NPG_LOSS (R154, R155, R170): before step 3 only the wait of R111 restarts; in Flush the pair leaves the spill layout. -/
def execNpgLoss (pair : Nat) (s : State) : Host.Outcome State Fault Refusal :=
  let s := showNpg pair false s
  let x := s.pair pair
  let up := x.phase == .settled || x.phase == .discovered
  let drop := fun (s : State) => match s.shroud.spill with
    | some y => { driveNven pair false (onPair pair (fun x => { x with phase := .lost }) s) with
        shroud.spill := some { y with dropped := y.dropped + 1 } }
    | none => driveNven pair false (onPair pair (fun x => { x with phase := .lost }) s)
  if !up then .next s
  else match s.mode with
    | .flush => .next (drop s)
    | .start => if s.shroud.spill.isSome then .next (drop s) else .next (settleMedia (losePair pair s))
    | .hold => .next s
    | .thermalHalt => .next s
    | _ => .next (settleMedia (losePair pair s))

/-- PAIR_RETRY_TIMER (R154): the pair enable steps are run once. -/
def execPairRetryTimer (pair : Nat) (s : State) : Host.Outcome State Fault Refusal :=
  if s.due .pairRetry pair && decide ((s.pair pair).phase = .lost) then
    .next (enablePair pair true (disarm .pairRetry pair s))
  else .next s

/-! ### The bank and the charger (R157 to R160) -/

/-- bank_fault follows its two conditions (R159); the event is raised when it sets. -/
def refreshBankFault (s : State) : State :=
  let f := s.power.fault_over || s.power.fault_measure
  let rise := f && !s.pwr.status.bank_fault
  let s := { s with pwr.status.bank_fault := f }
  if rise then raiseAwake (src 2 2) 0 s else s

/-- BANK_TARGET_REACHED (R158, R160): the charger stops; the first time after a power-on a measurement is due. -/
def execBankTargetReached (s : State) : Host.Outcome State Fault Refusal :=
  if s.pwr.status.charging then
    let s := { s with pwr.status.charging := false }
    .next (if s.power.measured then s else arm .bankTest 0 0 s)
  else .next s

/-- BANK_CHARGE_RESTART (R158, R159): the bank is 500 mV below its target. -/
def execBankChargeRestart (s : State) : Host.Outcome State Fault Refusal :=
  if s.power.dark then .next s
  else
    let s := refreshBankFault { s with power.fault_over := false }
    .next { s with pwr.status.charging := s.pwr.status.charging || chargerMay s }

/-- BANK_OVERVOLTAGE (R159). -/
def execBankOvervoltage (s : State) : Host.Outcome State Fault Refusal :=
  if s.power.dark then .next s
  else .next (refreshBankFault { s with power.fault_over := true, pwr.status.charging := false })

/-- BANK_TEST_INTERVAL (R160): the charger stops and the draw begins. -/
def execBankTestInterval (s : State) : Host.Outcome State Fault Refusal :=
  if s.due .bankTest 0 && !s.pwr.status.bank_test && !s.pwr.status.holdup_active then
    .next (arm .bankMeasure 0 (2 ^ 26) (arm .bankTest 0 s.pwr.bankTestInterval.toNat { s with
      power.measured := true
      pwr.status.bank_test := true
      pwr.status.charging := false }))
  else .next s

/-- c_meas in µF of a draw of 50 mA for 2^26 motes that took the bank from `v1` to `v2` mV, rounded down and held at 16
bits where it is shown (the spec names no rounding: DESIGN CHOICE, log entry 91); 0xFFFF_FFFF for no fall. -/
def measured (v1 v2 : Nat) : Nat := if v1 ≤ v2 then 2 ^ 32 - 1 else 781250 / (v1 - v2)

/-- BANK_MEASURE_DONE (R160): a measurement above twice PWR_BANK_UF is discarded; it counts in test_count, on which the
spec is silent (DESIGN CHOICE, log entry 92).  The measurement goes on in Hold, where H stands still. -/
def execBankMeasureDone (v1 v2 : Nat) (s : State) : Host.Outcome State Fault Refusal :=
  if s.pwr.status.bank_test && (s.due .bankMeasure 0 || !s.awake) then
    let c := measured v1 v2
    let bad := decide (2 * s.pwr.bankUf.toNat < c)
    let s := disarm .bankMeasure 0 { s with
      pwr.status.bank_test := false
      power.fault_measure := bad
      pwr.bankCap.test_count := satAdd s.pwr.bankCap.test_count 1
      pwr.bankCap.cap_uf := if bad then s.pwr.bankCap.cap_uf else sat 16 c }
    let s := refreshBankFault s
    .next { s with pwr.status.charging := chargerMay s }
  else .next s

/-! ### The Shroud allowance (R161 to R164) -/

/-- c_meas in force (R160). -/
def cMeas (s : State) : Nat := if s.pwr.bankCap.cap_uf = 0 then s.pwr.bankUf.toNat else s.pwr.bankCap.cap_uf.toNat

/-- allow_mib (R161) at a bank voltage in mV, computed exactly: t = n / d milliseconds, bounded by 25. -/
def allowance (s : State) (bank_mv : Nat) : Nat :=
  let vmin := holdSetpoint s + 1000
  let v := if s.pwr.status.bank_test then bank_mv - 250 else bank_mv
  let n := cMeas s * (v * v - vmin * vmin) * 46 * (100 - s.pwr.holdMargin.toNat)
  let d := 10 ^ 10 * s.pwr.flushLoadMw.toNat
  let t := if 25 * d ≤ n then (25, 1) else (n, d)
  let a := (t.1 * 2 ^ 32 - s.pwr.flushFixed.toNat * 1000 * t.2) * s.pwr.flushRate.toNat / (t.2 * 2 ^ 32)
  min a s.str.cfg.shroud_mib.toNat

/-- The write-buffer floor in MiB (R163): MDTS is 16 MiB; a full stripe holds data × slots reef slots of 64 KiB. -/
def bufferFloor (s : State) : Nat :=
  let p := s.shape s.shapeNow
  max 64 (16 + divUp (2 * p.data * p.slots) 16)

/-- below_floor follows the allowance; the condition starts once Start has ended, and lasts while the allowance is below
the floor (R163, R164). -/
def refreshFloor (s : State) : State :=
  let on := match s.mode with | .run => true | .reduced => true | .patrol => true | .readOnly => true | _ => false
  let below := (on || s.pwr.status.below_floor) && decide (s.pwr.shroudAllow.toNat < bufferFloor s)
  if below = s.pwr.status.below_floor then s
  else
    let s := raise (src 2 (if below then 3 else 4)) 0 [] { s with pwr.status.below_floor := below }
    let s := if below then endWrites Status.notReady (fun e => e.sqe.opcode == 0x01 && e.unstarted) s else s
    noteHealth s

/-- ALLOWANCE_UPDATE (R161): measured voltages, in mV; H stands still in Hold, where the charger runs on its own. -/
def execAllowanceUpdate (bank_mv vin_mv : Nat) (s : State) : Host.Outcome State Fault Refusal :=
  if s.power.dark || decide (s.power.rail_step < 2) || (s.awake && !s.due .allowance 0) then .next s
  else
    let s := { s with
      pwr.measure := { bank_mv := sat 16 bank_mv, vin_mv := sat 16 vin_mv }
      pwr.status.vin_good := decide (lossThreshold s ≤ vin_mv)
      power.fault_over := s.power.fault_over && decide (s.pwr.bankTargetMv.toNat ≤ bank_mv) }
    let s := refreshBankFault s
    let s := { refreshCharger s with pwr.shroudAllow := BitVec.ofNat 11 (allowance s bank_mv) }
    if s.awake then .next (settleMedia (refreshFloor (arm .allowance 0 (2 ^ 20) s))) else .next s

/-- CHARGE_TIMEOUT (R164). -/
def execChargeTimeout (s : State) : Host.Outcome State Fault Refusal :=
  if s.due .charge 0 then .next { disarm .charge 0 s with power.charge_expired := true } else .next s

end Sys2Proof.Machine
end

