-- ==== Sys2Proof/Machine/RegImage.lean ====
section
/-!
DEFINITION. The register images a manifest sets (R227, R228): shape, ranges and loading of the RWM fields.
-/

namespace Sys2Proof.Machine

/-- Width and mask of the RWM fields of a register image of window 0x01 (R227, R228). -/
def imageShapeCamp (o : Nat) : Option (Nat × Nat) :=
  match o with
  | 0x0000 => some (32, 0x3)  -- CAMP_CTRL
  | 0x0040 => some (64, 0xffffffffffffffff)  -- CAMP_PTM_INTERVAL
  | 0x0048 => some (64, 0xffffffffffffffff)  -- CAMP_HOLDOVER
  | 0x0050 => some (64, 0xffffffffffffffff)  -- CAMP_STEP_THRESH
  | 0x0058 => some (64, 0xffffffffffffffff)  -- CAMP_RESERVE_SPAN
  | _ => none

/-- Ranges of the RWM fields of a register image of window 0x01: low bit, width, least and greatest value. -/
def imageRangesCamp (o : Nat) : List (Nat × Nat × Nat × Nat) :=
  match o with
  | 0x0000 => [(0, 2, 0, 2)]  -- CAMP_CTRL
  | 0x0040 => [(0, 64, 1048576, 4294967296)]  -- CAMP_PTM_INTERVAL
  | 0x0048 => [(0, 64, 1073741824, 17592186044416)]  -- CAMP_HOLDOVER
  | 0x0050 => [(0, 64, 4096, 4294967296)]  -- CAMP_STEP_THRESH
  | 0x0058 => [(0, 64, 4194304, 1073741824)]  -- CAMP_RESERVE_SPAN
  | _ => []

/-- Width and mask of the RWM fields of a register image of window 0x03 (R227, R228). -/
def imageShapePwr (o : Nat) : Option (Nat × Nat) :=
  match o with
  | 0x0040 => some (32, 0xffffffff)  -- PWR_VIN_LOSS_MV
  | 0x0044 => some (32, 0xffffffff)  -- PWR_VIN_HOLD_MV
  | 0x0048 => some (32, 0xffffffff)  -- PWR_BANK_TARGET_MV
  | 0x004c => some (32, 0xffffffff)  -- PWR_BANK_CHARGE_MA
  | 0x0050 => some (32, 0xffffffff)  -- PWR_BANK_UF
  | 0x0054 => some (32, 0xffffffff)  -- PWR_FLUSH_LOAD_MW
  | 0x0058 => some (32, 0xffffffff)  -- PWR_FLUSH_RATE
  | 0x005c => some (32, 0xffffffff)  -- PWR_HOLD_MARGIN
  | 0x0060 => some (32, 0xffffffff)  -- PWR_DRIVE_CAP_MW
  | 0x0064 => some (32, 0xff)  -- PWR_PAIR_MAP
  | 0x0068 => some (32, 0xffffffff)  -- PWR_OP_CHARGE_A
  | 0x006c => some (32, 0xffffffff)  -- PWR_OP_CHARGE_B
  | 0x0070 => some (32, 0xffff)  -- PWR_OP_CHARGE_C
  | 0x0080 => some (64, 0xffffffffffffffff)  -- PWR_FLUSH_FIXED
  | 0x0088 => some (64, 0xffffffffffffffff)  -- PWR_NVEN_STAGGER
  | 0x0090 => some (64, 0xffffffffffffffff)  -- PWR_NPG_TIMEOUT
  | 0x0098 => some (64, 0xffffffffffffffff)  -- PWR_CHARGE_TIMEOUT
  | 0x00a0 => some (64, 0xffffffffffffffff)  -- PWR_BANK_TEST_INTERVAL
  | _ => none

/-- Ranges of the RWM fields of a register image of window 0x03: low bit, width, least and greatest value. -/
def imageRangesPwr (o : Nat) : List (Nat × Nat × Nat × Nat) :=
  match o with
  | 0x0040 => [(0, 32, 4300, 19000)]  -- PWR_VIN_LOSS_MV
  | 0x0044 => [(0, 32, 4000, 18700)]  -- PWR_VIN_HOLD_MV
  | 0x0048 => [(0, 32, 12000, 38000)]  -- PWR_BANK_TARGET_MV
  | 0x004c => [(0, 32, 100, 2000)]  -- PWR_BANK_CHARGE_MA
  | 0x0050 => [(0, 32, 1000, 20000)]  -- PWR_BANK_UF
  | 0x0054 => [(0, 32, 30000, 90000)]  -- PWR_FLUSH_LOAD_MW
  | 0x0058 => [(0, 32, 8, 128)]  -- PWR_FLUSH_RATE
  | 0x005c => [(0, 32, 10, 50)]  -- PWR_HOLD_MARGIN
  | 0x0060 => [(0, 32, 5000, 500000)]  -- PWR_DRIVE_CAP_MW
  | 0x0068 => [(16, 16, 1, 2000), (0, 16, 1, 2000)]  -- PWR_OP_CHARGE_A
  | 0x006c => [(16, 16, 1, 2000), (0, 16, 1, 2000)]  -- PWR_OP_CHARGE_B
  | 0x0070 => [(0, 16, 1, 2000)]  -- PWR_OP_CHARGE_C
  | 0x0080 => [(0, 64, 4194304, 134217728)]  -- PWR_FLUSH_FIXED
  | 0x0088 => [(0, 64, 131072, 67108864)]  -- PWR_NVEN_STAGGER
  | 0x0090 => [(0, 64, 4194304, 268435456)]  -- PWR_NPG_TIMEOUT
  | 0x0098 => [(0, 64, 2147483648, 34359738368)]  -- PWR_CHARGE_TIMEOUT
  | 0x00a0 => [(0, 64, 68719476736, 70368744177664)]  -- PWR_BANK_TEST_INTERVAL
  | _ => []

/-- Width and mask of the RWM fields of a register image of window 0x04 (R227, R228). -/
def imageShapeRst (o : Nat) : Option (Nat × Nat) :=
  match o with
  | 0x0020 => some (64, 0xffffffffffffffff)  -- RST_WDT_TIMEOUT
  | _ => none

/-- Ranges of the RWM fields of a register image of window 0x04: low bit, width, least and greatest value. -/
def imageRangesRst (o : Nat) : List (Nat × Nat × Nat × Nat) :=
  match o with
  | 0x0020 => [(0, 64, 16777216, 17179869184)]  -- RST_WDT_TIMEOUT
  | _ => []

/-- Width and mask of the RWM fields of a register image of window 0x07 (R227, R228). -/
def imageShapePcie (o : Nat) : Option (Nat × Nat) :=
  match o with
  | 0x0008 => some (32, 0xc)  -- PCIE_CFG
  | _ => none

/-- Ranges of the RWM fields of a register image of window 0x07: low bit, width, least and greatest value. -/
def imageRangesPcie (o : Nat) : List (Nat × Nat × Nat × Nat) :=
  match o with
  | _ => []

/-- Width and mask of the RWM fields of a register image of window 0x08 (R227, R228). -/
def imageShapeCmd (o : Nat) : Option (Nat × Nat) :=
  match o with
  | 0x0010 => some (32, 0x7ff)  -- CMD_WBUF_CFG
  | 0x0018 => some (64, 0xffffffffffffffff)  -- CMD_STARVE_CEIL
  | 0x0020 => some (32, 0x87ff)  -- CMD_CFG
  | _ => none

/-- Ranges of the RWM fields of a register image of window 0x08: low bit, width, least and greatest value. -/
def imageRangesCmd (o : Nat) : List (Nat × Nat × Nat × Nat) :=
  match o with
  | 0x0010 => [(0, 11, 64, 1024)]  -- CMD_WBUF_CFG
  | 0x0018 => [(0, 64, 268435456, 68719476736)]  -- CMD_STARVE_CEIL
  | 0x0020 => [(0, 11, 1, 1024)]  -- CMD_CFG
  | _ => []

/-- Width and mask of the RWM fields of a register image of window 0x09 (R227, R228). -/
def imageShapeMap (o : Nat) : Option (Nat × Nat) :=
  match o with
  | 0x0080 => some (32, 0x1f)  -- MAP_CFG
  | 0x0084 => some (32, 0xffff0fff)  -- MAP_SPEC_CFG
  | 0x0088 => some (32, 0xffffffff)  -- MAP_CAPACITY_GB
  | 0x008c => some (32, 0xffffffff)  -- MAP_FINE_MAX
  | 0x0090 => some (32, 0xffffffff)  -- MAP_CKPT_STRIPES
  | 0x0094 => some (32, 0xffffffff)  -- MAP_SCAN_SAMPLES
  | 0x00a0 => some (64, 0xffffffffffffffff)  -- MAP_CKPT_INTERVAL
  | 0x00a8 => some (64, 0xffffffffffffffff)  -- MAP_WB_AGE
  | 0x00b0 => some (64, 0xffffffffffffffff)  -- MAP_FOLD_AGE
  | 0x00b8 => some (64, 0xffffffffffffffff)  -- MAP_HINT_AGE
  | _ => none

/-- Ranges of the RWM fields of a register image of window 0x09: low bit, width, least and greatest value. -/
def imageRangesMap (o : Nat) : List (Nat × Nat × Nat × Nat) :=
  match o with
  | 0x0084 => [(23, 9, 0, 256), (16, 7, 1, 64), (0, 12, 1, 3072)]  -- MAP_SPEC_CFG
  | 0x0088 => [(0, 32, 1, 512000)]  -- MAP_CAPACITY_GB
  | 0x008c => [(0, 32, 65536, 2147483648)]  -- MAP_FINE_MAX
  | 0x0090 => [(0, 32, 1024, 262144)]  -- MAP_CKPT_STRIPES
  | 0x0094 => [(0, 32, 0, 65536)]  -- MAP_SCAN_SAMPLES
  | 0x00a0 => [(0, 64, 17179869184, 4398046511104)]  -- MAP_CKPT_INTERVAL
  | 0x00a8 => [(0, 64, 1073741824, 274877906944)]  -- MAP_WB_AGE
  | 0x00b0 => [(0, 64, 17179869184, 70368744177664)]  -- MAP_FOLD_AGE
  | 0x00b8 => [(0, 64, 268435456, 68719476736)]  -- MAP_HINT_AGE
  | _ => []

/-- Width and mask of the RWM fields of a register image of window 0x0A (R227, R228). -/
def imageShapeStr (o : Nat) : Option (Nat × Nat) :=
  match o with
  | 0x0080 => some (32, 0x7ff00ff)  -- STR_CFG
  | 0x0088 => some (64, 0xffffffffffffffff)  -- STR_PAD_AGE
  | 0x0090 => some (64, 0xffffffffffffffff)  -- STAY_FLUSH_AGE
  | _ => none

/-- Ranges of the RWM fields of a register image of window 0x0A: low bit, width, least and greatest value. -/
def imageRangesStr (o : Nat) : List (Nat × Nat × Nat × Nat) :=
  match o with
  | 0x0080 => [(16, 11, 96, 1024), (0, 8, 1, 170)]  -- STR_CFG
  | 0x0088 => [(0, 64, 268435456, 68719476736)]  -- STR_PAD_AGE
  | 0x0090 => [(0, 64, 65536, 16777216)]  -- STAY_FLUSH_AGE
  | _ => []

/-- Width and mask of the RWM fields of a register image of window 0x0B (R227, R228). -/
def imageShapeRcl (o : Nat) : Option (Nat × Nat) :=
  match o with
  | 0x0080 => some (32, 0xffffff6)  -- RCL_CFG
  | 0x0084 => some (32, 0xffffffff)  -- RCL_BG_START
  | 0x0088 => some (32, 0xffffffff)  -- RCL_FG_START
  | 0x008c => some (32, 0xffffffff)  -- RCL_FG_FLOOR
  | 0x0090 => some (32, 0xffffffff)  -- RCL_PE_RATED
  | 0x0094 => some (32, 0xffffffff)  -- RCL_WL_SPREAD
  | 0x0098 => some (32, 0xffffffff)  -- RCL_LS_MARGIN
  | 0x009c => some (32, 0xffffffff)  -- RCL_SPARE_WARN
  | 0x00a0 => some (32, 0xffffffff)  -- RCL_RD_LIMIT
  | 0x00c0 => some (64, 0xffffffffffffffff)  -- RCL_IDLE_DELAY
  | 0x00c8 => some (64, 0xffffffffffffffff)  -- RCL_AGE_CAP
  | 0x00d0 => some (64, 0xffffffffffffffff)  -- RCL_RETAIN_AGE
  | 0x00d8 => some (64, 0xffffffffffffffff)  -- RCL_DTWIN_TMAX
  | 0x00e0 => some (64, 0xffffffffffffffff)  -- RCL_NDWIN_TMIN
  | _ => none

/-- Ranges of the RWM fields of a register image of window 0x0B: low bit, width, least and greatest value. -/
def imageRangesRcl (o : Nat) : List (Nat × Nat × Nat × Nat) :=
  match o with
  | 0x0080 => [(16, 12, 0, 4095), (4, 12, 0, 4095)]  -- RCL_CFG
  | 0x0084 => [(0, 32, 192, 1048576)]  -- RCL_BG_START
  | 0x0088 => [(0, 32, 192, 1048576)]  -- RCL_FG_START
  | 0x008c => [(0, 32, 192, 1048576)]  -- RCL_FG_FLOOR
  | 0x0090 => [(0, 32, 100, 100000)]  -- RCL_PE_RATED
  | 0x0094 => [(0, 32, 16, 10000)]  -- RCL_WL_SPREAD
  | 0x0098 => [(0, 32, 0, 65535)]  -- RCL_LS_MARGIN
  | 0x009c => [(0, 32, 1, 50)]  -- RCL_SPARE_WARN
  | 0x00a0 => [(0, 32, 1000, 10000000)]  -- RCL_RD_LIMIT
  | 0x00c0 => [(0, 64, 67108864, 68719476736)]  -- RCL_IDLE_DELAY
  | 0x00c8 => [(0, 64, 68719476736, 72057594037927936)]  -- RCL_AGE_CAP
  | 0x00d0 => [(0, 64, 70368744177664, 288230376151711744)]  -- RCL_RETAIN_AGE
  | 0x00d8 => [(0, 64, 1073741824, 1099511627776)]  -- RCL_DTWIN_TMAX
  | 0x00e0 => [(0, 64, 268435456, 68719476736)]  -- RCL_NDWIN_TMIN
  | _ => []

/-- Width and mask of the RWM fields of a register image of window 0x0C (R227, R228). -/
def imageShapeCh (o : Nat) : Option (Nat × Nat) :=
  match o with
  | 0x0080 => some (32, 0xf0f01)  -- CH_CFG
  | 0x0084 => some (32, 0xffffff00)  -- CH_SUSP_CFG
  | 0x0088 => some (32, 0x1cfcff7f)  -- LDPC_CFG
  | 0x008c => some (32, 0xffff1fff)  -- CH_REFRESH_CFG
  | 0x0090 => some (32, 0xff)  -- CH_RETRAIN
  | 0x0098 => some (64, 0xffffffffffffffff)  -- CH_RETRAIN_INTERVAL
  | 0x00a0 => some (64, 0xffffffffffffffff)  -- CH_ERASE_MIN_RUN
  | 0x00a8 => some (64, 0xffffffffffffffff)  -- CH_PROG_MIN_RUN
  | 0x00b0 => some (64, 0xffffffffffffffff)  -- CH_SUSP_HOLD_MAX
  | _ => none

/-- Ranges of the RWM fields of a register image of window 0x0C: low bit, width, least and greatest value. -/
def imageRangesCh (o : Nat) : List (Nat × Nat × Nat × Nat) :=
  match o with
  | 0x0080 => [(16, 4, 1, 7), (10, 2, 0, 2)]  -- CH_CFG
  | 0x0084 => [(24, 8, 1, 32), (16, 8, 0, 32), (8, 8, 0, 8)]  -- CH_SUSP_CFG
  | 0x0088 => [(26, 3, 0, 4), (18, 6, 4, 63), (8, 8, 1, 64), (1, 6, 1, 32)]  -- LDPC_CFG
  | 0x008c => [(16, 16, 1, 2000), (8, 5, 1, 31), (0, 8, 0, 255)]  -- CH_REFRESH_CFG
  | 0x0090 => [(0, 8, 1, 50)]  -- CH_RETRAIN
  | 0x0098 => [(0, 64, 68719476736, 17592186044416)]  -- CH_RETRAIN_INTERVAL
  | 0x00a0 => [(0, 64, 65536, 8388608)]  -- CH_ERASE_MIN_RUN
  | 0x00a8 => [(0, 64, 65536, 8388608)]  -- CH_PROG_MIN_RUN
  | 0x00b0 => [(0, 64, 262144, 16777216)]  -- CH_SUSP_HOLD_MAX
  | _ => []

/-- Width and mask of the RWM fields of a register image of window 0x0D (R227, R228). -/
def imageShapeRed (o : Nat) : Option (Nat × Nat) :=
  match o with
  | 0x0080 => some (32, 0x340ffff)  -- RED_CFG
  | 0x0084 => some (32, 0xfff007f)  -- RED_CFG2
  | 0x0088 => some (64, 0xffffffffffffffff)  -- RED_READ_TIMEOUT
  | 0x0090 => some (64, 0xffffffffffffffff)  -- RED_WINDOW
  | 0x0098 => some (64, 0xffffffffffffffff)  -- RED_PROBE_INTERVAL
  | _ => none

/-- Ranges of the RWM fields of a register image of window 0x0D: low bit, width, least and greatest value. -/
def imageRangesRed (o : Nat) : List (Nat × Nat × Nat × Nat) :=
  match o with
  | 0x0080 => [(12, 4, 1, 15), (8, 4, 1, 15), (0, 8, 2, 64)]  -- RED_CFG
  | 0x0084 => [(16, 12, 16, 4095), (0, 7, 1, 64)]  -- RED_CFG2
  | 0x0088 => [(0, 64, 4194304, 1073741824)]  -- RED_READ_TIMEOUT
  | 0x0090 => [(0, 64, 4294967296, 274877906944)]  -- RED_WINDOW
  | 0x0098 => [(0, 64, 67108864, 17179869184)]  -- RED_PROBE_INTERVAL
  | _ => []

/-- Width and mask of the RWM fields of a register image of window 0x0E (R227, R228). -/
def imageShapeThm (o : Nat) : Option (Nat × Nat) :=
  match o with
  | 0x0080 => some (32, 0xffffff0f)  -- THM_THRESH
  | 0x0084 => some (32, 0xffffff73)  -- THM_CFG
  | 0x0088 => some (32, 0xfffff)  -- THM_CFG2
  | 0x008c => some (32, 0xffff)  -- THM_CFG3
  | 0x0090 => some (64, 0xffffffffffffffff)  -- THM_STEP
  | 0x0098 => some (64, 0xffffffffffffffff)  -- THM_CAL_INTERVAL
  | 0x00a0 => some (64, 0xffffffffffffffff)  -- THM_THROTTLE_PERIOD
  | _ => none

/-- Ranges of the RWM fields of a register image of window 0x0E: low bit, width, least and greatest value. -/
def imageRangesThm (o : Nat) : List (Nat × Nat × Nat × Nat) :=
  match o with
  | 0x0080 => [(24, 8, 50, 105), (16, 8, 45, 100), (8, 8, 40, 95), (0, 4, 1, 10)]  -- THM_THRESH
  | 0x008c => [(8, 8, 1, 30), (0, 8, 5, 60)]  -- THM_CFG3
  | 0x0090 => [(0, 64, 1048576, 16777216)]  -- THM_STEP
  | 0x0098 => [(0, 64, 67108864, 17179869184)]  -- THM_CAL_INTERVAL
  | 0x00a0 => [(0, 64, 16777216, 4294967296)]  -- THM_THROTTLE_PERIOD
  | _ => []

/-- Width and mask of the RWM fields of a register image of window 0x0F (R227, R228). -/
def imageShapePsm (o : Nat) : Option (Nat × Nat) :=
  match o with
  | 0x0080 => some (32, 0xffffffff)  -- PSM_CAP_PS1
  | 0x0084 => some (32, 0xffffffff)  -- PSM_CAP_PS2
  | 0x0088 => some (32, 0xffffffff)  -- PSM_CAP_PS3
  | 0x008c => some (32, 0xffffffff)  -- PSM_CAP_PS4
  | 0x0090 => some (32, 0x1ff0fff)  -- PSM_PATROL_CFG
  | 0x00a0 => some (64, 0xffffffffffffffff)  -- PSM_HANDSHAKE_TIMEOUT
  | 0x00a8 => some (64, 0xffffffffffffffff)  -- PSM_PATROL_PERIOD
  | _ => none

/-- Ranges of the RWM fields of a register image of window 0x0F: low bit, width, least and greatest value. -/
def imageRangesPsm (o : Nat) : List (Nat × Nat × Nat × Nat) :=
  match o with
  | 0x0080 => [(0, 32, 1000, 500000)]  -- PSM_CAP_PS1
  | 0x0084 => [(0, 32, 1000, 500000)]  -- PSM_CAP_PS2
  | 0x0088 => [(0, 32, 1000, 500000)]  -- PSM_CAP_PS3
  | 0x008c => [(0, 32, 500, 20000)]  -- PSM_CAP_PS4
  | 0x0090 => [(16, 8, 1, 255), (0, 12, 1, 4095)]  -- PSM_PATROL_CFG
  | 0x00a0 => [(0, 64, 67108864, 68719476736)]  -- PSM_HANDSHAKE_TIMEOUT
  | 0x00a8 => [(0, 64, 1073741824, 1099511627776)]  -- PSM_PATROL_PERIOD
  | _ => []

/-- Width and mask of the RWM fields of a register image of window 0x10 (R227, R228). -/
def imageShapeSec (o : Nat) : Option (Nat × Nat) :=
  match o with
  | 0x0080 => some (32, 0xff7f01)  -- SEC_CFG
  | _ => none

/-- Ranges of the RWM fields of a register image of window 0x10: low bit, width, least and greatest value. -/
def imageRangesSec (o : Nat) : List (Nat × Nat × Nat × Nat) :=
  match o with
  | 0x0080 => [(16, 8, 0, 255), (8, 7, 8, 64)]  -- SEC_CFG
  | _ => []

/-- Width and mask of the RWM fields of a register image of window 0x11 (R227, R228). -/
def imageShapeMem (o : Nat) : Option (Nat × Nat) :=
  match o with
  | 0x0080 => some (32, 0xffff0000)  -- SCR_CFG
  | 0x0088 => some (64, 0xffffffffffffffff)  -- SCR_PERIOD_DRAM
  | 0x0090 => some (64, 0xffffffffffffffff)  -- SCR_PERIOD_SRAM
  | _ => none

/-- Ranges of the RWM fields of a register image of window 0x11: low bit, width, least and greatest value. -/
def imageRangesMem (o : Nat) : List (Nat × Nat × Nat × Nat) :=
  match o with
  | 0x0080 => [(16, 16, 1, 65535)]  -- SCR_CFG
  | 0x0088 => [(0, 64, 17179869184, 4398046511104)]  -- SCR_PERIOD_DRAM
  | 0x0090 => [(0, 64, 1073741824, 274877906944)]  -- SCR_PERIOD_SRAM
  | _ => []

/-- Width and mask of the RWM fields of a register image of window 0x12 (R227, R228). -/
def imageShapeTsl (o : Nat) : Option (Nat × Nat) :=
  match o with
  | 0x0080 => some (32, 0xf)  -- TSL_CFG
  | _ => none

/-- Ranges of the RWM fields of a register image of window 0x12: low bit, width, least and greatest value. -/
def imageRangesTsl (o : Nat) : List (Nat × Nat × Nat × Nat) :=
  match o with
  | 0x0080 => [(0, 4, 1, 15)]  -- TSL_CFG
  | _ => []

/-- Width and mask of the RWM fields of a register image of window 0x13 (R227, R228). -/
def imageShapeKk (o : Nat) : Option (Nat × Nat) :=
  match o with
  | 0x0080 => some (32, 0xf00)  -- KK_CFG
  | 0x0084 => some (32, 0xf0f0f)  -- KK_TOPO
  | 0x0088 => some (64, 0xffffffffffffffff)  -- KK_JOIN_TIMEOUT
  | 0x0090 => some (64, 0xffffffffffffffff)  -- KK_LINK_TIMEOUT
  | _ => none

/-- Ranges of the RWM fields of a register image of window 0x13: low bit, width, least and greatest value. -/
def imageRangesKk (o : Nat) : List (Nat × Nat × Nat × Nat) :=
  match o with
  | 0x0088 => [(0, 64, 1073741824, 274877906944)]  -- KK_JOIN_TIMEOUT
  | 0x0090 => [(0, 64, 4194304, 268435456)]  -- KK_LINK_TIMEOUT
  | _ => []

/-- Width and mask of the RWM fields of a register image; `none` where the window and offset name no register that
holds one (R227, R228). -/
def imageShape (w o : Nat) : Option (Nat × Nat) :=
  match w with
  | 0x01 => imageShapeCamp o
  | 0x03 => imageShapePwr o
  | 0x04 => imageShapeRst o
  | 0x07 => imageShapePcie o
  | 0x08 => imageShapeCmd o
  | 0x09 => imageShapeMap o
  | 0x0a => imageShapeStr o
  | 0x0b => imageShapeRcl o
  | 0x0c => imageShapeCh o
  | 0x0d => imageShapeRed o
  | 0x0e => imageShapeThm o
  | 0x0f => imageShapePsm o
  | 0x10 => imageShapeSec o
  | 0x11 => imageShapeMem o
  | 0x12 => imageShapeTsl o
  | 0x13 => imageShapeKk o
  | _ => none

/-- Whether every RWM field of the image lies in the range its register table gives (acceptance check 4). -/
def imageInRange (w o v : Nat) : Bool :=
  let l := match w with
    | 0x01 => imageRangesCamp o
    | 0x03 => imageRangesPwr o
    | 0x04 => imageRangesRst o
    | 0x07 => imageRangesPcie o
    | 0x08 => imageRangesCmd o
    | 0x09 => imageRangesMap o
    | 0x0a => imageRangesStr o
    | 0x0b => imageRangesRcl o
    | 0x0c => imageRangesCh o
    | 0x0d => imageRangesRed o
    | 0x0e => imageRangesThm o
    | 0x0f => imageRangesPsm o
    | 0x10 => imageRangesSec o
    | 0x11 => imageRangesMem o
    | 0x12 => imageRangesTsl o
    | 0x13 => imageRangesKk o
    | _ => []
  l.all fun p => inRange (v / 2 ^ p.1 % 2 ^ p.2.1) p.2.2.1 p.2.2.2

/-- Load a register image into its RWM fields, window 0x01. -/
def setImageCamp (v : Nat) (o : Nat) (s : State) : State :=
  match o with
  | 0x0000 => { s with camp.ctrl.anchor_port := BitVec.ofNat 2 (v / 2 ^ 0) }  -- CAMP_CTRL
  | 0x0040 => { s with camp.ptmInterval := BitVec.ofNat 64 (v / 2 ^ 0) }  -- CAMP_PTM_INTERVAL
  | 0x0048 => { s with camp.holdover := BitVec.ofNat 64 (v / 2 ^ 0) }  -- CAMP_HOLDOVER
  | 0x0050 => { s with camp.stepThresh := BitVec.ofNat 64 (v / 2 ^ 0) }  -- CAMP_STEP_THRESH
  | 0x0058 => { s with camp.reserveSpan := BitVec.ofNat 64 (v / 2 ^ 0) }  -- CAMP_RESERVE_SPAN
  | _ => s

/-- Load a register image into its RWM fields, window 0x03. -/
def setImagePwr (v : Nat) (o : Nat) (s : State) : State :=
  match o with
  | 0x0040 => { s with pwr.vinLossMv := BitVec.ofNat 32 (v / 2 ^ 0) }  -- PWR_VIN_LOSS_MV
  | 0x0044 => { s with pwr.vinHoldMv := BitVec.ofNat 32 (v / 2 ^ 0) }  -- PWR_VIN_HOLD_MV
  | 0x0048 => { s with pwr.bankTargetMv := BitVec.ofNat 32 (v / 2 ^ 0) }  -- PWR_BANK_TARGET_MV
  | 0x004c => { s with pwr.bankChargeMa := BitVec.ofNat 32 (v / 2 ^ 0) }  -- PWR_BANK_CHARGE_MA
  | 0x0050 => { s with pwr.bankUf := BitVec.ofNat 32 (v / 2 ^ 0) }  -- PWR_BANK_UF
  | 0x0054 => { s with pwr.flushLoadMw := BitVec.ofNat 32 (v / 2 ^ 0) }  -- PWR_FLUSH_LOAD_MW
  | 0x0058 => { s with pwr.flushRate := BitVec.ofNat 32 (v / 2 ^ 0) }  -- PWR_FLUSH_RATE
  | 0x005c => { s with pwr.holdMargin := BitVec.ofNat 32 (v / 2 ^ 0) }  -- PWR_HOLD_MARGIN
  | 0x0060 => { s with pwr.driveCapMw := BitVec.ofNat 32 (v / 2 ^ 0) }  -- PWR_DRIVE_CAP_MW
  | 0x0064 => { s with pwr.pairMap := BitVec.ofNat 8 (v / 2 ^ 0) }  -- PWR_PAIR_MAP
  | 0x0068 => { s with pwr.opChargeA.program_mw := BitVec.ofNat 16 (v / 2 ^ 16), pwr.opChargeA.read_mw := BitVec.ofNat 16 (v / 2 ^ 0) }  -- PWR_OP_CHARGE_A
  | 0x006c => { s with pwr.opChargeB.erase_mw := BitVec.ofNat 16 (v / 2 ^ 16), pwr.opChargeB.transfer_mw := BitVec.ofNat 16 (v / 2 ^ 0) }  -- PWR_OP_CHARGE_B
  | 0x0070 => { s with pwr.opChargeC := BitVec.ofNat 16 (v / 2 ^ 0) }  -- PWR_OP_CHARGE_C
  | 0x0080 => { s with pwr.flushFixed := BitVec.ofNat 64 (v / 2 ^ 0) }  -- PWR_FLUSH_FIXED
  | 0x0088 => { s with pwr.nvenStagger := BitVec.ofNat 64 (v / 2 ^ 0) }  -- PWR_NVEN_STAGGER
  | 0x0090 => { s with pwr.npgTimeout := BitVec.ofNat 64 (v / 2 ^ 0) }  -- PWR_NPG_TIMEOUT
  | 0x0098 => { s with pwr.chargeTimeout := BitVec.ofNat 64 (v / 2 ^ 0) }  -- PWR_CHARGE_TIMEOUT
  | 0x00a0 => { s with pwr.bankTestInterval := BitVec.ofNat 64 (v / 2 ^ 0) }  -- PWR_BANK_TEST_INTERVAL
  | _ => s

/-- Load a register image into its RWM fields, window 0x04. -/
def setImageRst (v : Nat) (o : Nat) (s : State) : State :=
  match o with
  | 0x0020 => { s with rst.wdtTimeout := BitVec.ofNat 64 (v / 2 ^ 0) }  -- RST_WDT_TIMEOUT
  | _ => s

/-- Load a register image into its RWM fields, window 0x07. -/
def setImagePcie (v : Nat) (o : Nat) (s : State) : State :=
  match o with
  | 0x0008 => { s with pcie.cfg.cmb_enable := v.testBit 3, pcie.cfg.dual_permit := v.testBit 2 }  -- PCIE_CFG
  | _ => s

/-- Load a register image into its RWM fields, window 0x08. -/
def setImageCmd (v : Nat) (o : Nat) (s : State) : State :=
  match o with
  | 0x0010 => { s with cmd.wbufCfg := BitVec.ofNat 11 (v / 2 ^ 0) }  -- CMD_WBUF_CFG
  | 0x0018 => { s with cmd.starveCeil := BitVec.ofNat 64 (v / 2 ^ 0) }  -- CMD_STARVE_CEIL
  | 0x0020 => { s with cmd.cfg.ext_enable := v.testBit 15, cmd.cfg.ns_limit := BitVec.ofNat 11 (v / 2 ^ 0) }  -- CMD_CFG
  | _ => s

/-- Load a register image into its RWM fields, window 0x09. -/
def setImageMap (v : Nat) (o : Nat) (s : State) : State :=
  match o with
  | 0x0080 => { s with map.cfg.fold_enable := v.testBit 4, map.cfg.stream_enable := v.testBit 3, map.cfg.hint_enable := v.testBit 2, map.cfg.spec_enable := v.testBit 1, map.cfg.paged := v.testBit 0 }  -- MAP_CFG
  | 0x0084 => { s with map.specCfg.streams := BitVec.ofNat 9 (v / 2 ^ 23), map.specCfg.spec_chan := BitVec.ofNat 7 (v / 2 ^ 16), map.specCfg.spec_total := BitVec.ofNat 12 (v / 2 ^ 0) }  -- MAP_SPEC_CFG
  | 0x0088 => { s with map.capacityGb := BitVec.ofNat 32 (v / 2 ^ 0) }  -- MAP_CAPACITY_GB
  | 0x008c => { s with map.fineMax := BitVec.ofNat 32 (v / 2 ^ 0) }  -- MAP_FINE_MAX
  | 0x0090 => { s with map.ckptStripes := BitVec.ofNat 32 (v / 2 ^ 0) }  -- MAP_CKPT_STRIPES
  | 0x0094 => { s with map.scanSamples := BitVec.ofNat 32 (v / 2 ^ 0) }  -- MAP_SCAN_SAMPLES
  | 0x00a0 => { s with map.ckptInterval := BitVec.ofNat 64 (v / 2 ^ 0) }  -- MAP_CKPT_INTERVAL
  | 0x00a8 => { s with map.wbAge := BitVec.ofNat 64 (v / 2 ^ 0) }  -- MAP_WB_AGE
  | 0x00b0 => { s with map.foldAge := BitVec.ofNat 64 (v / 2 ^ 0) }  -- MAP_FOLD_AGE
  | 0x00b8 => { s with map.hintAge := BitVec.ofNat 64 (v / 2 ^ 0) }  -- MAP_HINT_AGE
  | _ => s

/-- Load a register image into its RWM fields, window 0x0A. -/
def setImageStr (v : Nat) (o : Nat) (s : State) : State :=
  match o with
  | 0x0080 => { s with str.cfg.shroud_mib := BitVec.ofNat 11 (v / 2 ^ 16), str.cfg.inflight_max := BitVec.ofNat 8 (v / 2 ^ 0) }  -- STR_CFG
  | 0x0088 => { s with str.padAge := BitVec.ofNat 64 (v / 2 ^ 0) }  -- STR_PAD_AGE
  | 0x0090 => { s with str.stayFlushAge := BitVec.ofNat 64 (v / 2 ^ 0) }  -- STAY_FLUSH_AGE
  | _ => s

/-- Load a register image into its RWM fields, window 0x0B. -/
def setImageRcl (v : Nat) (o : Nat) (s : State) : State :=
  match o with
  | 0x0080 => { s with rcl.cfg.w_wear := BitVec.ofNat 12 (v / 2 ^ 16), rcl.cfg.w_age := BitVec.ofNat 12 (v / 2 ^ 4), rcl.cfg.plm_permit := v.testBit 2, rcl.cfg.wl_enable := v.testBit 1 }  -- RCL_CFG
  | 0x0084 => { s with rcl.bgStart := BitVec.ofNat 32 (v / 2 ^ 0) }  -- RCL_BG_START
  | 0x0088 => { s with rcl.fgStart := BitVec.ofNat 32 (v / 2 ^ 0) }  -- RCL_FG_START
  | 0x008c => { s with rcl.fgFloor := BitVec.ofNat 32 (v / 2 ^ 0) }  -- RCL_FG_FLOOR
  | 0x0090 => { s with rcl.peRated := BitVec.ofNat 32 (v / 2 ^ 0) }  -- RCL_PE_RATED
  | 0x0094 => { s with rcl.wlSpread := BitVec.ofNat 32 (v / 2 ^ 0) }  -- RCL_WL_SPREAD
  | 0x0098 => { s with rcl.lsMargin := BitVec.ofNat 32 (v / 2 ^ 0) }  -- RCL_LS_MARGIN
  | 0x009c => { s with rcl.spareWarn := BitVec.ofNat 32 (v / 2 ^ 0) }  -- RCL_SPARE_WARN
  | 0x00a0 => { s with rcl.rdLimit := BitVec.ofNat 32 (v / 2 ^ 0) }  -- RCL_RD_LIMIT
  | 0x00c0 => { s with rcl.idleDelay := BitVec.ofNat 64 (v / 2 ^ 0) }  -- RCL_IDLE_DELAY
  | 0x00c8 => { s with rcl.ageCap := BitVec.ofNat 64 (v / 2 ^ 0) }  -- RCL_AGE_CAP
  | 0x00d0 => { s with rcl.retainAge := BitVec.ofNat 64 (v / 2 ^ 0) }  -- RCL_RETAIN_AGE
  | 0x00d8 => { s with rcl.dtwinTmax := BitVec.ofNat 64 (v / 2 ^ 0) }  -- RCL_DTWIN_TMAX
  | 0x00e0 => { s with rcl.ndwinTmin := BitVec.ofNat 64 (v / 2 ^ 0) }  -- RCL_NDWIN_TMIN
  | _ => s

/-- Load a register image into its RWM fields, window 0x0C. -/
def setImageCh (v : Nat) (o : Nat) (s : State) : State :=
  match o with
  | 0x0080 => { s with ch.cfg.target_rate := BitVec.ofNat 4 (v / 2 ^ 16), ch.cfg.drive := BitVec.ofNat 2 (v / 2 ^ 10), ch.cfg.odt := BitVec.ofNat 2 (v / 2 ^ 8), ch.cfg.nv_ddr3_fallback := v.testBit 0 }  -- CH_CFG
  | 0x0084 => { s with ch.suspCfg.susp_reads_max := BitVec.ofNat 8 (v / 2 ^ 24), ch.suspCfg.erase_susp_max := BitVec.ofNat 8 (v / 2 ^ 16), ch.suspCfg.prog_susp_max := BitVec.ofNat 8 (v / 2 ^ 8) }  -- CH_SUSP_CFG
  | 0x0088 => { s with ch.ldpcCfg.code := BitVec.ofNat 3 (v / 2 ^ 26), ch.ldpcCfg.iter_max := BitVec.ofNat 6 (v / 2 ^ 18), ch.ldpcCfg.soft_delta := BitVec.ofNat 8 (v / 2 ^ 8), ch.ldpcCfg.retry_max := BitVec.ofNat 6 (v / 2 ^ 1), ch.ldpcCfg.soft_enable := v.testBit 0 }  -- LDPC_CFG
  | 0x008c => { s with ch.refreshCfg.refresh_bits := BitVec.ofNat 16 (v / 2 ^ 16), ch.refreshCfg.refresh_level := BitVec.ofNat 5 (v / 2 ^ 8), ch.refreshCfg.erased_zeros := BitVec.ofNat 8 (v / 2 ^ 0) }  -- CH_REFRESH_CFG
  | 0x0090 => { s with ch.retrain := BitVec.ofNat 8 (v / 2 ^ 0) }  -- CH_RETRAIN
  | 0x0098 => { s with ch.retrainInterval := BitVec.ofNat 64 (v / 2 ^ 0) }  -- CH_RETRAIN_INTERVAL
  | 0x00a0 => { s with ch.eraseMinRun := BitVec.ofNat 64 (v / 2 ^ 0) }  -- CH_ERASE_MIN_RUN
  | 0x00a8 => { s with ch.progMinRun := BitVec.ofNat 64 (v / 2 ^ 0) }  -- CH_PROG_MIN_RUN
  | 0x00b0 => { s with ch.suspHoldMax := BitVec.ofNat 64 (v / 2 ^ 0) }  -- CH_SUSP_HOLD_MAX
  | _ => s

/-- Load a register image into its RWM fields, window 0x0D. -/
def setImageRed (v : Nat) (o : Nat) (s : State) : State :=
  match o with
  | 0x0080 => { s with red.cfg.target_shape := BitVec.ofNat 2 (v / 2 ^ 24), red.cfg.return_enable := v.testBit 22, red.cfg.rebuild_share := BitVec.ofNat 4 (v / 2 ^ 12), red.cfg.calm_reads := BitVec.ofNat 4 (v / 2 ^ 8), red.cfg.fail_count := BitVec.ofNat 8 (v / 2 ^ 0) }  -- RED_CFG
  | 0x0084 => { s with red.cfg2.die_retire_max := BitVec.ofNat 12 (v / 2 ^ 16), red.cfg2.rebuild_depth := BitVec.ofNat 7 (v / 2 ^ 0) }  -- RED_CFG2
  | 0x0088 => { s with red.readTimeout := BitVec.ofNat 64 (v / 2 ^ 0) }  -- RED_READ_TIMEOUT
  | 0x0090 => { s with red.window := BitVec.ofNat 64 (v / 2 ^ 0) }  -- RED_WINDOW
  | 0x0098 => { s with red.probeInterval := BitVec.ofNat 64 (v / 2 ^ 0) }  -- RED_PROBE_INTERVAL
  | _ => s

/-- Load a register image into its RWM fields, window 0x0E. -/
def setImageThm (v : Nat) (o : Nat) (s : State) : State :=
  match o with
  | 0x0080 => { s with thm.thresh.halt := BitVec.ofNat 8 (v / 2 ^ 24), thm.thresh.throttle := BitVec.ofNat 8 (v / 2 ^ 16), thm.thresh.warn := BitVec.ofNat 8 (v / 2 ^ 8), thm.thresh.hyst := BitVec.ofNat 4 (v / 2 ^ 0) }  -- THM_THRESH
  | 0x0084 => { s with thm.cfg.k_x := BitVec.ofNat 8 (v / 2 ^ 24), thm.cfg.k_c := BitVec.ofNat 8 (v / 2 ^ 16), thm.cfg.k_b := BitVec.ofNat 8 (v / 2 ^ 8), thm.cfg.ext_pair := BitVec.ofNat 3 (v / 2 ^ 4), thm.cfg.method_b := v.testBit 1, thm.cfg.method_a := v.testBit 0 }  -- THM_CFG
  | 0x0088 => { s with thm.cfg2 := BitVec.ofNat 20 (v / 2 ^ 0) }  -- THM_CFG2
  | 0x008c => { s with thm.cfg3.c_max := BitVec.ofNat 8 (v / 2 ^ 8), thm.cfg3.diode_limit := BitVec.ofNat 8 (v / 2 ^ 0) }  -- THM_CFG3
  | 0x0090 => { s with thm.step := BitVec.ofNat 64 (v / 2 ^ 0) }  -- THM_STEP
  | 0x0098 => { s with thm.calInterval := BitVec.ofNat 64 (v / 2 ^ 0) }  -- THM_CAL_INTERVAL
  | 0x00a0 => { s with thm.throttlePeriod := BitVec.ofNat 64 (v / 2 ^ 0) }  -- THM_THROTTLE_PERIOD
  | _ => s

/-- Load a register image into its RWM fields, window 0x0F. -/
def setImagePsm (v : Nat) (o : Nat) (s : State) : State :=
  match o with
  | 0x0080 => { s with psm.capPs1 := BitVec.ofNat 32 (v / 2 ^ 0) }  -- PSM_CAP_PS1
  | 0x0084 => { s with psm.capPs2 := BitVec.ofNat 32 (v / 2 ^ 0) }  -- PSM_CAP_PS2
  | 0x0088 => { s with psm.capPs3 := BitVec.ofNat 32 (v / 2 ^ 0) }  -- PSM_CAP_PS3
  | 0x008c => { s with psm.capPs4 := BitVec.ofNat 32 (v / 2 ^ 0) }  -- PSM_CAP_PS4
  | 0x0090 => { s with psm.patrolCfg.patrol_enable := v.testBit 24, psm.patrolCfg.patrol_delta := BitVec.ofNat 8 (v / 2 ^ 16), psm.patrolCfg.patrol_reads := BitVec.ofNat 12 (v / 2 ^ 0) }  -- PSM_PATROL_CFG
  | 0x00a0 => { s with psm.handshakeTimeout := BitVec.ofNat 64 (v / 2 ^ 0) }  -- PSM_HANDSHAKE_TIMEOUT
  | 0x00a8 => { s with psm.patrolPeriod := BitVec.ofNat 64 (v / 2 ^ 0) }  -- PSM_PATROL_PERIOD
  | _ => s

/-- Load a register image into its RWM fields, window 0x10. -/
def setImageSec (v : Nat) (o : Nat) (s : State) : State :=
  match o with
  | 0x0080 => { s with sec.cfg.pin_try_limit := BitVec.ofNat 8 (v / 2 ^ 16), sec.cfg.range_max := BitVec.ofNat 7 (v / 2 ^ 8), sec.cfg.opal_enable := v.testBit 0 }  -- SEC_CFG
  | _ => s

/-- Load a register image into its RWM fields, window 0x11. -/
def setImageMem (v : Nat) (o : Nat) (s : State) : State :=
  match o with
  | 0x0080 => { s with mem.scrCfg.ce_warn := BitVec.ofNat 16 (v / 2 ^ 16) }  -- SCR_CFG
  | 0x0088 => { s with mem.scrPeriodDram := BitVec.ofNat 64 (v / 2 ^ 0) }  -- SCR_PERIOD_DRAM
  | 0x0090 => { s with mem.scrPeriodSram := BitVec.ofNat 64 (v / 2 ^ 0) }  -- SCR_PERIOD_SRAM
  | _ => s

/-- Load a register image into its RWM fields, window 0x12. -/
def setImageTsl (v : Nat) (o : Nat) (s : State) : State :=
  match o with
  | 0x0080 => { s with tsl.cfg := BitVec.ofNat 4 (v / 2 ^ 0) }  -- TSL_CFG
  | _ => s

/-- Load a register image into its RWM fields, window 0x13. -/
def setImageKk (v : Nat) (o : Nat) (s : State) : State :=
  match o with
  | 0x0080 => { s with kk.cfg.layout := BitVec.ofNat 2 (v / 2 ^ 10), kk.cfg.count := BitVec.ofNat 2 (v / 2 ^ 8) }  -- KK_CFG
  | 0x0084 => { s with kk.topo.pos3 := BitVec.ofNat 4 (v / 2 ^ 16), kk.topo.pos2 := BitVec.ofNat 4 (v / 2 ^ 8), kk.topo.pos1 := BitVec.ofNat 4 (v / 2 ^ 0) }  -- KK_TOPO
  | 0x0088 => { s with kk.joinTimeout := BitVec.ofNat 64 (v / 2 ^ 0) }  -- KK_JOIN_TIMEOUT
  | 0x0090 => { s with kk.linkTimeout := BitVec.ofNat 64 (v / 2 ^ 0) }  -- KK_LINK_TIMEOUT
  | _ => s

/-- Load one register image (R240). -/
def setImage (w o v : Nat) (s : State) : State :=
  match w with
  | 0x01 => setImageCamp v o s
  | 0x03 => setImagePwr v o s
  | 0x04 => setImageRst v o s
  | 0x07 => setImagePcie v o s
  | 0x08 => setImageCmd v o s
  | 0x09 => setImageMap v o s
  | 0x0a => setImageStr v o s
  | 0x0b => setImageRcl v o s
  | 0x0c => setImageCh v o s
  | 0x0d => setImageRed v o s
  | 0x0e => setImageThm v o s
  | 0x0f => setImagePsm v o s
  | 0x10 => setImageSec v o s
  | 0x11 => setImageMem v o s
  | 0x12 => setImageTsl v o s
  | 0x13 => setImageKk v o s
  | _ => s

end Sys2Proof.Machine
end

