-- ==== Sys2Proof/Machine/Manifest.lean ====
section
/-!
DEFINITION. The manifest (chapter 6): image layout, validity and acceptance checks, cross-checks of every chapter,
selection and application at Start, and the checks of an install.
-/

namespace Sys2Proof.Machine

/-! ### Parts of an image (R225, R226, R230) -/

def imgTlvLength (b : Bytes) : Nat := field b 12 4
def imgTotal (b : Bytes) : Nat := field b 8 4
def imgCount (b : Bytes) : Nat := field b 16 4
def imgFwMin (b : Bytes) : Nat := field b 20 4
def imgGeneration (b : Bytes) : Nat := field b 24 8
def imgSerial (b : Bytes) : Bytes := (b.drop 32).take 16
def imgKeyIndex (b : Bytes) : Nat := field b 48 1 % 4
def imgRaiseFloor (b : Bytes) : Bool := field b 49 1 % 2 == 1
def imgCascadeId (b : Bytes) : Nat := field b 52 8
def imgTlv (b : Bytes) : Bytes := (b.drop 128).take (imgTlvLength b)
def imgTrailer (b : Bytes) : Bytes := b.drop (128 + imgTlvLength b)

/-- Image bytes 0 to the end of the signature: what the seal and the record digest cover (R230, R243). -/
def imgSealed (b : Bytes) : Bytes := b.take (128 + imgTlvLength b + 192)

/-- The image with its seal in place (R230). -/
def imgWithSeal (s : State) (b : Bytes) : Bytes :=
  let at_ := 128 + imgTlvLength b + 192
  b.take at_ ++ (s.manifestSeal (imgSealed b)).take 48 ++ b.drop (at_ + 48)

/-- An entry of the parameter area (R227). -/
structure ParamEntry where
  index : Nat
  flags : Nat
  window : Nat
  length : Nat
  value : Bytes
  deriving DecidableEq, Repr

/-- The key of an entry: bytes 0 to 3. -/
def ParamEntry.key (p : ParamEntry) : Nat := p.index + 2 ^ 16 * p.flags + 2 ^ 24 * p.window

/-- The entry is a structure. -/
def ParamEntry.isTable (p : ParamEntry) : Bool := p.flags % 2 == 1

/-- Entries of a parameter area, at most `n`. -/
def parseParams : Nat → Bytes → List ParamEntry
  | 0, _ => []
  | n + 1, b =>
    if b.length < 8 then []
    else
      let len := field b 4 4
      { index := field b 0 2, flags := field b 2 1, window := field b 3 1, length := len, value := (b.drop 8).take len }
        :: parseParams n (b.drop (8 + len))

/-- The entries of an image. -/
def imgParams (b : Bytes) : List ParamEntry := parseParams (imgCount b) (imgTlv b)

/-- The value of a structure, if the image sets it. -/
def imgTable (b : Bytes) (window index : Nat) : Option Bytes :=
  ((imgParams b).find? fun p => p.isTable && p.window == window && p.index == index).map ParamEntry.value

/-! ### Structures (R407, R495, R496, R524, R570) -/

/-- `n` pieces of `k` bytes. -/
def pieces (k : Nat) : Nat → Bytes → List Bytes
  | 0, _ => []
  | n + 1, b => b.take k :: pieces k n (b.drop k)

/-- A stripe-shape entry. -/
def shapeOf (b : Bytes) : Shape :=
  { channels := field b 0 6, data := field b 6 1, parity := field b 7 1 % 4, slots := field b 7 1 / 4 % 8 }

/-- A geometry entry. -/
def geometryOf (b : Bytes) : Geometry :=
  { id := field b 0 6, planes := field b 6 1 % 8, bits := field b 6 1 / 8 % 8, prog_pages := field b 7 1 % 8
    blocks := field b 8 2, pages := field b 10 2, page_bytes := field b 12 4, iface := field b 16 1 % 8
    max_rate := field b 17 1 % 16, slc_prefix := field b 18 1, offset_feature := field b 19 1
    susp_opcode := field b 20 1, resume_opcode := field b 21 1, t_read_max := field b 24 4, t_prog_max := field b 28 4
    t_erase_max := field b 32 4, t_susp_max := field b 36 4, t_slc_prog_max := field b 40 4 }

/-- A node parameter entry. -/
def nodeOf (b : Bytes) : NodeParam :=
  { theta := field b 0 2, adj := (BitVec.ofNat 16 (field b 2 2)).toInt, tau := field b 4 4 }

/-- Default node parameters (table "Node parameter defaults"). -/
def defaultNodes : List NodeParam :=
  [⟨154, -3840, 2 ^ 17⟩, ⟨307, -2560, 2 ^ 18⟩, ⟨384, -3840, 2 ^ 17⟩, ⟨512, -3840, 2 ^ 17⟩, ⟨256, -3840, 2 ^ 18⟩,
   ⟨768, -3840, 2 ^ 18⟩] ++ List.replicate 8 ⟨1536, 0, 2 ^ 20⟩

/-- Default stripe shapes (R407). -/
def defaultShapes : List Shape := [{ channels := 0xFFFFFFFFFFFF, data := 46, parity := 2, slots := 3 }]

/-- Take one structure (R240). -/
def setTable (window index : Nat) (v : Bytes) (s : State) : State :=
  match window, index with
  | 0x0A, 1 => { s with shroud.shapes := (pieces 16 4 v).map shapeOf }
  | 0x0C, 1 => { s with media.geometry := (pieces 64 (v.length / 64) v).map geometryOf }
  | 0x0C, 2 => { s with media.ce_map := v.map BitVec.toNat }
  | 0x0C, 3 => { s with media.offset_tables := pieces 1088 (v.length / 1088) v }
  | 0x0C, 4 => { s with media.retry_tables := pieces 528 (v.length / 528) v }
  | 0x0E, 1 => { s with thermal.params := (pieces 8 14 v).map nodeOf }
  | _, _ => s

/-- The structures a manifest may set. -/
def tableDefined (window index : Nat) : Bool :=
  (window == 0x0A && index == 1) || (window == 0x0C && decide (1 ≤ index) && decide (index ≤ 4)) || (window == 0x0E && index == 1)

/-- Take one entry. -/
def setParam (p : ParamEntry) (s : State) : State :=
  if p.isTable then setTable p.window p.index p.value s else setImage p.window (4 * p.index) (leNat p.value) s

/-- Take every entry of an image, over reset values and defaults (R229, R240). -/
def applyImage (b : Bytes) (s : State) : State :=
  each (imgParams b) setParam { s with shroud.shapes := defaultShapes, thermal.params := defaultNodes }

/-! ### Validity (R231 to R234) -/

/-- First data sector and flag sector of copy A (`false`) or B. -/
def copySectors (b : Bool) : List Nat := (List.range 15).map fun i => (if b then 544 else 528) + i

def copyFlagSector (b : Bool) : Nat := if b then 559 else 543

/-- Good data sectors of a copy. -/
def goodSectors (s : State) (b : Bool) : List Nat := (copySectors b).filter fun n => !s.boot.retired.contains n

/-- Capacity of a copy (R232). -/
def copyCapacity (s : State) (b : Bool) : Nat := 65536 * (goodSectors s b).length

/-- The flag cell of a sector reads firmly 1 (R200). -/
def flagSet (s : State) (sector : Nat) : Bool := s.boot.flags.look true sector

/-- The stored image of a copy. -/
def copyImage (s : State) (b : Bool) : Bytes := if b then s.boot.manifest_b else s.boot.manifest_a

/-- Generation of the booted firmware slot. -/
def bootedGeneration (s : State) : Nat :=
  if s.ba.status.active_slot then s.ba.slotInfoB.generation.toNat else s.ba.slotInfoA.generation.toNat

/-- Lengths disagree (check 3). -/
def badLength (b : Bytes) (capacity : Nat) : Bool :=
  let t := imgTotal b
  let l := imgParams b
  decide (t ≠ 128 + imgTlvLength b + 248) || decide (b.length < t) || decide (capacity < t) || decide (983040 < t)
    || decide (field (imgTrailer b) 240 4 ≠ 0x4D464E44) || decide (field (imgTrailer b) 244 4 ≠ t)
    || decide (total (l.map fun p => 8 + p.length) ≠ imgTlvLength b) || decide (l.length ≠ imgCount b)

/-- Checks 2 to 10 of the table "Validity checks", the seal where asked: reason code, 0 for none. -/
def imageReason (s : State) (b : Bytes) (capacity : Nat) (withSeal : Bool) : Nat :=
  let owner := (imgTrailer b).take 96
  let signed := b.take (128 + imgTlvLength b + 96)
  let signature := ((imgTrailer b).drop 96).take 96
  if field b 0 4 ≠ 0x5A474D46 ∨ field b 6 2 ≠ 128 ∨ field b 124 4 ≠ crc32 (b.take 124) then 0x02
  else if badLength b capacity then 0x03
  else if field b 4 2 ≠ 1 then 0x04
  else if bootedGeneration s < imgFwMin b then 0x05
  else if withSeal ∧ ((imgTrailer b).drop 192).take 48 ≠ s.manifestSeal (imgSealed b) then 0x06
  else if (b.drop 64).take 48 ≠ sha384 (imgTlv b) then 0x07
  else if sha384 owner ≠ Config.ownerKeyHash (imgKeyIndex b) ∨ Config.ownerKeyRevoked (imgKeyIndex b) = true
      ∨ signatureVerifies owner signature signed = false then 0x08
  else if imgSerial b ≠ List.replicate 16 0 ∧ imgSerial b ≠ Config.deviceSerial then 0x09
  else if imgGeneration b < s.man.floor.toNat then 0x0A
  else 0

/-- Reason a copy is not valid, 0 where it is (R233, R234). -/
def copyReason (s : State) (b : Bool) : Nat :=
  if !flagSet s (copyFlagSector b) || (copySectors b).any (fun n => !s.boot.retired.contains n && !flagSet s n) then 0x01
  else imageReason s (copyImage s b) (copyCapacity s b) true

/-! ### Acceptance (R237) -/

/-- Check 1 of one entry. -/
def unknownEntry (p : ParamEntry) : Bool :=
  decide (2 ≤ p.flags) ||
    (if p.isTable then !tableDefined p.window p.index else (imageShape p.window (4 * p.index)).isNone)

/-- Check 2 of one entry. -/
def wrongLength (p : ParamEntry) : Bool :=
  !p.isTable && (match imageShape p.window (4 * p.index) with | some (n, _) => decide (p.length ≠ n / 8) | none => true)

/-- Bits of a byte range are all 0. -/
def zeros (b : Bytes) (i n : Nat) : Bool := decide (field b i n = 0)

/-- Reserved bits and bytes of a structure are 0. -/
def tableReserved (p : ParamEntry) : Bool :=
  let v := p.value
  match p.window, p.index with
  | 0x0A, 1 => (pieces 16 (v.length / 16) v).all fun e => decide (field e 7 1 < 32) && zeros e 8 8
  | 0x0C, 1 => (pieces 64 (v.length / 64) v).all fun e => decide (field e 6 1 < 64) && decide (field e 7 1 < 8)
      && decide (field e 16 1 < 8) && decide (field e 17 1 < 16) && zeros e 22 2 && zeros e 44 20
  | 0x0C, 2 => v.all fun x => decide (x.toNat < 32)
  | 0x0C, 3 => (pieces 1088 (v.length / 1088) v).all fun e => zeros e 22 2 && zeros e 40 24
  | 0x0C, 4 => (pieces 528 (v.length / 528) v).all fun e => zeros e 1 15
  | _, _ => true

/-- Check 3 of one entry (R228). -/
def strayBits (p : ParamEntry) : Bool :=
  if p.isTable then !tableReserved p
  else match imageShape p.window (4 * p.index) with
    | some (_, mask) => decide (leNat p.value ≠ leNat p.value &&& mask)
    | none => false

/-- Ranges of the elements of a geometry entry. -/
def geometryInRange (g : Geometry) : Bool :=
  let time := fun t => inRange t 4096 0xFFFFFFFF
  [1, 2, 4].contains g.planes && inRange g.bits 1 4 && inRange g.prog_pages 1 4 && inRange g.blocks 16 4096
    && inRange g.pages 1 2048 && time g.t_read_max && time g.t_prog_max && time g.t_erase_max && time g.t_susp_max
    && time g.t_slc_prog_max

/-- Ranges of the elements of a structure. -/
def tableInRange (p : ParamEntry) : Bool :=
  let v := p.value
  match p.window, p.index with
  | 0x0A, 1 => ((pieces 16 (v.length / 16) v).map shapeOf).all fun x =>
      x.data == 0 || (inRange x.data 4 46 && inRange x.parity 1 2 && inRange x.slots 1 4)
  | 0x0C, 1 => ((pieces 64 (v.length / 64) v).map geometryOf).all geometryInRange
  | 0x0C, 2 => v.all fun x => decide (x.toNat % 8 ≤ 4)
  | 0x0C, 3 => (pieces 1088 (v.length / 1088) v).all fun e => (List.range 7).all fun i => inRange (field e (14 + i) 1) 16 62
  | 0x0C, 4 => (pieces 528 (v.length / 528) v).all fun e => inRange (field e 0 1) 1 32
  | 0x0E, 1 => ((pieces 8 (v.length / 8) v).map nodeOf).all fun n => decide (-10240 ≤ n.adj) && decide (n.adj ≤ 2560)
      && inRange n.tau 256 16777216
  | _, _ => true

/-- A register image lies outside its range. -/
def badImage (p : ParamEntry) : Bool := !p.isTable && !imageInRange p.window (4 * p.index) (leNat p.value)

/-- Ranges that R99, R176 and R224 make cross-checks: those of Campion, power and the resets (R238). -/
def crossRange (p : ParamEntry) : Bool := p.window == 0x01 || p.window == 0x03 || p.window == 0x04

/-- Check 4 of one entry. -/
def outOfRange (p : ParamEntry) : Bool := if p.isTable then !tableInRange p else badImage p && !crossRange p

/-- Keys that do not rise: the key of the first entry that breaks the order. -/
def unordered : List ParamEntry → Option Nat
  | a :: b :: t => if b.key ≤ a.key then some b.key else unordered (b :: t)
  | _ => none

/-- Strictly ascending numbers. -/
def rising : List Nat → Bool
  | a :: b :: t => decide (a < b) && rising (b :: t)
  | _ => true

/-- `n` whole entries of `k` bytes, from `lo` to `hi` of them. -/
def wholeEntries (v : Bytes) (k lo hi : Nat) : Bool := decide (v.length % k = 0) && inRange (v.length / k) lo hi

/-- Eligible channels of a shape. -/
def eligibleChannels (p : Shape) : List Nat := (List.range 48).filter fun c => p.channels.testBit c

/-- An entry breaks a cross-check of its owning chapter by its value alone (R99, R176, R224, R238, R407, R452, R495, R496,
R529, R570). -/
def brokenTable (p : ParamEntry) : Bool :=
  let v := p.value
  (badImage p && crossRange p) || p.isTable && !(match p.window, p.index with
    | 0x0A, 1 => wholeEntries v 16 4 4 && decide (0 < (shapeOf v).data)
        && ((pieces 16 4 v).map shapeOf).all fun x => x.data == 0
          || (decide (x.data * x.slots ≤ 138) && decide (x.width ≤ (eligibleChannels x).length))
    | 0x0C, 1 => wholeEntries v 64 1 4
    | 0x0C, 2 => wholeEntries v 384 1 1
    | 0x0C, 3 => wholeEntries v 1088 1 4 && (pieces 1088 (v.length / 1088) v).all fun o =>
        rising ((List.range 7).map fun i => field o (2 * i) 2) && rising ((List.range 7).map fun i => field o (14 + i) 1)
    | 0x0C, 4 => wholeEntries v 528 1 4 && (pieces 528 (v.length / 528) v).all fun e => zeros e 16 16
    | 0x0E, 1 => wholeEntries v 8 14 14
    | _, _ => true)

/-- The used shapes of a configuration. -/
def usedShapes (t : State) : List Shape := t.shroud.shapes.filter fun p => decide (0 < p.data)

/-- Populated channels of a configuration (R151). -/
def populatedChannel (t : State) (c : Nat) : Bool := t.pwr.pairMap.getLsbD (c / 6)

/-- Largest charge of the table "Ledger charges" plus transfer_mw (R171, R176). -/
def largestCharge (t : State) : Nat :=
  [t.pwr.opChargeA.read_mw.toNat, t.pwr.opChargeA.program_mw.toNat, t.pwr.opChargeB.erase_mw.toNat,
    t.pwr.opChargeB.transfer_mw.toNat, t.pwr.opChargeC.toNat].foldl max 0 + t.pwr.opChargeB.transfer_mw.toNat

/-- Write-buffer floor of a configuration in units of 64 KiB, for its largest used shape (R239). -/
def configFloor (t : State) : Nat :=
  max 1024 (256 + 2 * ((usedShapes t).map fun p => p.data * p.slots).foldl max 0)

/-- Flush can write so many units of 64 KiB in 25 ms: (25 ms − fixed) × rate, compared exactly (R176). -/
def flushHolds (t : State) (units : Nat) : Bool :=
  decide (units * 2 ^ 32 ≤ 16 * ((25 * 2 ^ 32 - t.pwr.flushFixed.toNat * 1000) * t.pwr.flushRate.toNat))

/-- Cross-checks of power, time, commands and map (R99, R176, R239, R406, R426, R641). -/
def crossPower (t : State) : Bool :=
  let c := t.map.capacityGb.toNat
  let chans := ((List.range 48).filter (populatedChannel t)).length
  decide (4 * t.camp.ptmInterval.toNat ≤ t.camp.holdover.toNat)
    && decide (2 * t.camp.stepThresh.toNat ≤ t.camp.reserveSpan.toNat)
    && decide (t.pwr.vinHoldMv.toNat + 300 ≤ t.pwr.vinLossMv.toNat)
    && decide (t.pwr.vinHoldMv.toNat + 3000 ≤ t.pwr.bankTargetMv.toNat)
    && flushHolds t (16 * t.str.cfg.shroud_mib.toNat) && flushHolds t (configFloor t)
    && decide (largestCharge t ≤ t.pwr.driveCapMw.toNat)
    && decide (t.pwr.flushRate.toNat ≤ 59)
    && decide (configFloor t ≤ 16 * t.cmd.wbufCfg.toNat) && decide (t.cmd.wbufCfg.toNat ≤ t.str.cfg.shroud_mib.toNat)
    && decide (t.str.cfg.shroud_mib.toNat ≤ 1024) && decide (t.cmd.wbufCfg.toNat + 32 ≤ t.str.cfg.shroud_mib.toNat)
    && decide (c ≤ 512000) && (t.map.cfg.paged || decide (c ≤ 192000)) && decide (t.cmd.cfg.ns_limit.toNat ≤ 1024)
    && (t.map.cfg.paged || decide (5 * divUp (c * 10 ^ 9) 65536 + 80 * t.map.fineMax.toNat ≤ 40 * 2 ^ 30))
    && (!t.map.cfg.spec_enable || chans == 48 || decide (t.map.specCfg.spec_total.toNat ≤ t.map.specCfg.spec_chan.toNat * chans))

/-- Cross-checks of shapes and reclaim (R409, R452, R489, R176). -/
def crossShapes (t : State) : Bool :=
  (usedShapes t).all (fun p =>
      decide (t.str.cfg.inflight_max.toNat * p.width ≤ 8192)
        && (eligibleChannels p).all (populatedChannel t)
        && (eligibleChannels p).all (fun c => !(declaredOn t c).isEmpty)
        && (eligibleChannels p).all (fun c => (declaredOn t c).all fun d =>
            decide ((t.geo d).prog_pages * (t.geo d).planes = 4 * p.slots))
        && decide (4 * p.width ≤ t.rcl.fgFloor.toNat))
    && decide (t.rcl.fgFloor.toNat < t.rcl.fgStart.toNat) && decide (t.rcl.fgStart.toNat < t.rcl.bgStart.toNat)
    && decide (t.rcl.ndwinTmin.toNat ≤ t.rcl.dtwinTmax.toNat)

/-- Codeword bytes of the code in force (table "LDPC codes"). -/
def codewordBytes (t : State) : Nat := 4480 + 64 * t.ch.ldpcCfg.code.toNat

/-- Cross-checks of the declared parts (R529). -/
def crossParts (b : Bytes) (t : State) : Bool :=
  let whole := fun (i k lo hi : Nat) => match imgTable b 0x0C i with
    | some v => wholeEntries v k lo hi
    | none => false
  let n := t.media.geometry.length
  whole 1 64 1 4 && whole 2 384 1 1 && whole 3 1088 n n && whole 4 528 n n
    && t.media.geometry.all (fun g => decide (4 * codewordBytes t ≤ g.page_bytes))
    && (List.range 384).all (fun i =>
      let x := t.media.ce_map.getD i 0
      x % 8 == 0 || (decide (x / 8 % 4 < n) && populatedChannel t (i / 8)))
    && (List.range 48).all (fun c => (declaredOn t c).isEmpty ||
      ((List.range 3).any (allSupport t c)
        && (if t.ch.cfg.target_rate.toNat ≤ 3 then allSupport t c 0 && decide (1 ≤ rateBound t c)
            else decide ((firstMode t c).1 ≠ 1) || (allSupport t c 0 && decide (1 ≤ (firstMode t c).2)))))

/-- Cross-checks of redundancy, thermal control and power states (R562, R565, R600, R628). -/
def crossControl (t : State) (page : Option RedPage) : Bool :=
  let c := t.psm
  let h := t.thm.thresh
  decide (0 < (t.shape t.red.cfg.target_shape.toNat).data)
    && decide (t.red.cfg.fail_count.toNat * t.red.readTimeout.toNat ≤ t.red.window.toNat)
    && decide (t.red.readTimeout.toNat ≤ t.red.probeInterval.toNat)
    && (match page with
      | some p => decide (p.in_force_entry.getD (t.shape p.in_force) = t.shape p.in_force)
          && (p.reshape == 0 || decide (p.from_entry.getD (t.shape p.source) = t.shape p.source))
      | none => true)
    && decide (h.warn.toNat < h.throttle.toNat) && decide (h.throttle.toNat < h.halt.toNat)
    && decide (35 + h.hyst.toNat ≤ h.warn.toNat)
    && t.thermal.params.all (fun n => decide (16 * t.thm.step.toNat ≤ n.tau * 2 ^ 16))
    && decide (16 * t.thm.step.toNat ≤ t.thm.calInterval.toNat)
    && (t.thm.cfg.method_a || t.thm.cfg.method_b)
    && decide (t.thm.cfg2.toNat ≤ t.pwr.driveCapMw.toNat) && decide (largestCharge t ≤ t.thm.cfg2.toNat)
    && t.pwr.pairMap.getLsbD t.thm.cfg.ext_pair.toNat
    && decide (c.capPs2.toNat ≤ c.capPs1.toNat) && decide (c.capPs3.toNat ≤ c.capPs2.toNat)
    && decide (c.capPs4.toNat ≤ c.capPs3.toNat) && decide (c.capPs1.toNat ≤ t.pwr.driveCapMw.toNat)
    && decide (largestCharge t ≤ c.capPs4.toNat)

/-- Field of KK_TOPO for yard `p`: present, link, parent. -/
def topoPresent (t : State) (p : Nat) : Bool := (topoOf t p).getLsbD 3

/-- KK_TOPO is a tree of R705 whose present positions are 1 to count (R741). -/
def topoTree (t : State) : Bool :=
  let n := t.kk.cfg.count.toNat
  [1, 2, 3].all (fun p => topoPresent t p == decide (p ≤ n))
    && ([1, 2, 3].filter (topoPresent t)).all (fun p =>
      let q := parentOf t p
      decide (q.1 < p) && (q.1 == 0 || q.2 == 1)
        && !(([1, 2, 3].filter (topoPresent t)).any fun o => o != p && parentOf t o == q))

/-- Link `l` of a device at position `at_` is declared present (R118). -/
def linkDeclared (t : State) (at_ l : Nat) : Bool :=
  if at_ = 0 then [1, 2, 3].any fun p => topoPresent t p && parentOf t p == (0, l)
  else if l = 0 then true
  else [1, 2, 3].any fun p => topoPresent t p && (parentOf t p).1 == at_

/-- Cross-checks of role and cascade (R117, R118, R239, R741). -/
def crossRole (b : Bytes) (t : State) : Bool :=
  let n := t.kk.cfg.count.toNat
  let st := t.pad.strapStatus
  let role := if st.mast then st.casc_pos == 0 else decide (1 ≤ st.casc_pos.toNat) && decide (st.casc_pos.toNat ≤ n)
  role && topoTree t && ((t.kk.cfg.layout == 0) == (n == 0)) && ((imgCascadeId b == 0) == (n == 0))
    && [0, 1].all fun l => t.pads.present.getLsbD l == linkDeclared t t.position l

/-- The configuration an image describes: its parameters over reset values, with what the checks compare them to. -/
def configOf (b : Bytes) (s : State) : State :=
  applyImage b { State.reset with pad := s.pad, pads := s.pads }

/-- The acceptance checks (R237): reason and key of the first that fails, reason 0 for none. -/
def acceptance (s : State) (b : Bytes) : Nat × Nat :=
  let l := imgParams b
  let none_ := 0xFFFFFFFF
  let hit := fun (f : ParamEntry → Bool) => (l.find? f).map ParamEntry.key
  match unordered l, hit unknownEntry, hit wrongLength, hit strayBits, hit outOfRange, hit brokenTable with
  | some k, _, _, _, _, _ => (0x0B, k)
  | _, some k, _, _, _, _ => (0x0B, k)
  | _, _, some k, _, _, _ => (0x0C, k)
  | _, _, _, some k, _, _ => (0x0D, k)
  | _, _, _, _, some k, _ => (0x0E, k)
  | _, _, _, _, _, some k => (0x0F, k)
  | none, none, none, none, none, none =>
    let t := configOf b s
    if crossRole b t && crossPower t && crossParts b t && crossShapes t && crossControl t s.redun.page then (0, none_)
    else (0x0F, none_)

/-! ### Selection (R235, R236, R240, R241) -/

/-- Header of a journal sector: magic, sequence number, and the CRC-32 of the header with that field 0 (R202; the order of
the three is DEDUCED, log entry 99). -/
def sectorHeader (sequence : Nat) : Bytes :=
  let h := leBytes 4 0x4A524E4C ++ leBytes 4 sequence
  padTo 64 (h ++ leBytes 4 (crc32 (padTo 64 h)))

/-- The header of a journal sector is valid (R202). -/
def JournalSector.valid (x : JournalSector) : Bool :=
  field x.header 0 4 == 0x4A524E4C && x.header == sectorHeader (field x.header 4 4)

/-- Journal sectors, 560 to 631 (R196). -/
def journalSectors : List Nat := (List.range 72).map fun i => 560 + i

/-- Journal sectors that are good (R205). -/
def goodJournal (s : State) : List Nat := journalSectors.filter fun n => !s.boot.retired.contains n

/-- Sectors the window may hold (R202, R205). -/
def journalSpan (s : State) : Nat := if (goodJournal s).length < 65 then (goodJournal s).length - 1 else 64

/-- The journal's window, newest sector first: the valid sectors of highest sequence numbers (R202). -/
def journalWindow (s : State) : List (Nat × JournalSector) :=
  (sortOn (fun p : Nat × JournalSector => 2 ^ 32 - field p.2.header 4 4)
    (s.boot.journal.filter fun p => p.2.valid)).take (journalSpan s)

/-- The journal's records. -/
def journalRecords (s : State) : List JournalRecord := (journalWindow s).flatMap fun p => p.2.records

/-- Newest record of a type: greatest seq (R204). -/
def newestRecord (s : State) (type : Nat) : Option JournalRecord :=
  ((journalRecords s).filter fun r => r.type == type).foldl
    (fun best r => match best with | some b => if b.seq < r.seq then some r else best | none => some r) none

/-- Step 8 of Start: the state with the copy chosen and applied, and the start_fail code, 0 for none (R236, R237, R240, R241). -/
def selectManifest (s : State) : Nat × State :=
  let floor := match newestRecord s 8 with | some r => field r.payload 12 8 | none => 0
  let s := { s with man.floor := BitVec.ofNat 64 floor }
  let ra := copyReason s false
  let rb := copyReason s true
  let ga := imgGeneration s.boot.manifest_a
  let gb := imgGeneration s.boot.manifest_b
  let bad := if ra ≠ 0 then (ra, false) else (rb, true)
  let s := { s with
    man.status.copy_a_valid := ra == 0
    man.status.copy_b_valid := rb == 0
    man.copyGenA := if ra = 0 then BitVec.ofNat 64 ga else 0
    man.copyGenB := if rb = 0 then BitVec.ofNat 64 gb else 0
    man.status.reject_reason := BitVec.ofNat 8 bad.1
    man.status.reject_copy := bad.1 != 0 && bad.2 }
  if ra ≠ 0 ∧ rb ≠ 0 then (2, { s with man.status.defaults_only := true })
  else
    let b := if ra ≠ 0 then true else if rb ≠ 0 then false else decide (ga < gb)
    let img := copyImage s b
    let s := { s with man.status.fallback := ra != 0 || rb != 0 }
    match acceptance s img with
    | (0, _) =>
      (0, { applyImage img s with
        man.status.applied_copy := b
        man.appliedGen := BitVec.ofNat 64 (imgGeneration img)
        man.status.floor_pending := imgRaiseFloor img && decide (floor < imgGeneration img)
        manifest.in_force := img
        manifest.applied := true })
    | (r, k) => (3, { s with
        man.status.reject_reason := BitVec.ofNat 8 r
        man.status.reject_copy := b
        man.rejectKey := BitVec.ofNat 32 k
        man.status.defaults_only := true })

/-! ### Install checks (R247, R249, R251) -/

/-- The copy that an install would replace: the one that is not valid, the older one, or the one that has room (R249). -/
def olderCopy (s : State) (img : Bytes) : Bool :=
  let a := s.man.status.copy_a_valid
  let b := s.man.status.copy_b_valid
  if a && b then (if s.man.copyGenA.toNat = s.man.copyGenB.toNat then true else decide (s.man.copyGenB.toNat < s.man.copyGenA.toNat))
  else if a then true
  else if b then false
  else
    let fits := fun (c : Bool) => decide (imgTotal img ≤ copyCapacity s c)
    fits true && !fits false

/-- Target of an install (R249): never the copy whose image is in force. -/
def installTarget (s : State) (img : Bytes) : Bool :=
  let c := olderCopy s img
  if s.manifest.applied && c == s.man.status.applied_copy then !c else c

/-- Format-bound parameters: paged, capacity, shroud_mib, the LDPC code, and the layout (R372, chapter 10, 12, 19). -/
def formatBound (t : State) : List Nat :=
  [t.map.cfg.paged.toNat, t.map.capacityGb.toNat, t.str.cfg.shroud_mib.toNat, t.ch.ldpcCfg.code.toNat, t.kk.cfg.layout.toNat]

/-- Step 2 of an install (R251): the result, 0 for none. -/
def installChecks (s : State) (img : Bytes) (target : Bool) : Nat :=
  let r := imageReason s img (copyCapacity s target) false
  if r ≠ 0 then r
  else
    let a := (acceptance s img).1
    if a ≠ 0 then a
    else if !s.manifest.applied then 0
    else if imgGeneration img ≤ s.man.appliedGen.toNat then 0x14
    else if !s.nvme.namespaces.isEmpty && formatBound (configOf img s) != formatBound (configOf s.manifest.in_force s) then 0x10
    else 0

/-- An install may be made in this mode (R247). -/
def installMode (s : State) (sideband : Bool) : Bool :=
  match s.mode with
  | .run => true
  | .reduced => true
  | .patrol => true
  | .readOnly => true
  | .start => sideband && (s.mgmt.modeStatus.start_fail == 2 || s.mgmt.modeStatus.start_fail == 3)
  | _ => false

end Sys2Proof.Machine
end

