-- ==== Sys2Proof/Machine/BootArray.lean ====
section
/-!
DEFINITION. The boot array (R196 to R217) and the writes a manifest install makes (R245 to R255): the Array Service
Routine, the journal, the nonce reservation, firmware updates, and the ends of admin operations (R728).
-/

namespace Sys2Proof.Machine

/-! ### Ends of admin operations -/

/-- Yards joined, in position order. -/
def yardsJoined (s : State) : List Nat := [1, 2, 3].filter fun p => s.kk.status.joined.getLsbD p

/-- Change the cascade operation of a tracker entry. -/
def onCascade (t : Nat) (f : CascadeAdmin → CascadeAdmin) (s : State) : State :=
  { s with keaka.admin := s.keaka.admin.map fun a => if a.entry = t then f a else a }

/-- One device's part of an admin command has ended (R728): the next yard runs, or the command completes with the
status of the first device whose result is not success. -/
def adminDone (t status dw0 : Nat) (s : State) : State :=
  match s.keaka.admin.find? fun a => a.entry == t with
  | none => finishEntry t status dw0 s
  | some a =>
    let st := if a.status = 0 then status else a.status
    match a.waiting with
    | [] => finishEntry t st dw0 { s with keaka.admin := s.keaka.admin.filter fun a => a.entry != t }
    | p :: rest =>
      sendFrame 0x28 p t a.body (onCascade t (fun a => { a with waiting := rest, asked := some p, status := st }) s)

/-- Yards take part in an admin command, after the masthead (R728). -/
def involveYards (t : Nat) (yards body : List Nat) (s : State) : State :=
  if yards = [] then s
  else { s with keaka.admin := s.keaka.admin ++ [{ entry := t, waiting := yards, body := body }] }

/-- An admin operation ends toward whoever asked for it. -/
def endAdmin (path : AdminPath) (status dw0 : Nat) (s : State) : State :=
  match path with
  | .host t => adminDone t status dw0 s
  | .sideband p => say (.miResponse p status (leBytes 4 dw0)) s
  | .cascade tag => sendFrame 0x29 0 tag [status, dw0] s
  | .own => s

/-! ### The journal (R202 to R206) -/

/-- Show the good sectors; below 65 the window shrinks and ba_worn sets (R205). -/
def showJournal (s : State) : State :=
  let n := (goodJournal s).length
  let was := s.ba.status.ba_worn
  let s := { s with ba.status.journal_good := sat 8 n, ba.status.ba_worn := was || decide (n < 65) }
  if s.ba.status.ba_worn && !was then raise (src 5 3) 0 [] s else s

/-- The head: the sector of highest sequence number (R202). -/
def headSector (s : State) : Option (Nat × JournalSector) := (journalWindow s).head?

/-- The oldest sector of the window. -/
def oldestSector (s : State) : Option (Nat × JournalSector) := (journalWindow s).getLast?

/-- The next erased physical sector in ring order; retired ones are skipped (R203). -/
def nextErased (s : State) (after : Nat) : Option Nat :=
  ((List.range 72).map fun i => 560 + (after - 560 + 1 + i) % 72).find? fun n =>
    !s.boot.retired.contains n && !s.boot.journal.has n && flagSet s n

/-- Program operations over `n` units from unit `u` of a sector. -/
def programs (sector u n : Nat) : List BaOp := (List.range n).map fun i => .program (65536 * sector + 256 * (u + i))

/-- Take room for `n` units at the end of the head, or in the next head, whose header is programmed first (R203). -/
def journalRoom (n : Nat) (s : State) : Option (List BaOp × State) :=
  let open_ := fun (seq after : Nat) => (nextErased s after).map fun k =>
    (.journalHeader k :: programs k 1 n, { s with boot.journal := s.boot.journal.put k { sequence := seq + 1, used := n + 1 } })
  match headSector s with
  | some (k, x) =>
    if x.used + n ≤ 256 then some (programs k x.used n, { s with boot.journal := s.boot.journal.put k { x with used := x.used + n } })
    else open_ x.sequence k
  | none => open_ 0 631

/-- Program units of a record: header, payload and tag. -/
def recordUnits (r : JournalRecord) : Nat := divUp (48 + r.payload.length) 256

/-- Seq below which Thermal Halt records are cleared (R586). -/
def clearedSeq (s : State) : Nat := match newestRecord s 3 with | some r => field r.payload 0 4 | none => 0

/-- Uncleared Thermal Halt records. -/
def unclearedHalts (s : State) : List JournalRecord :=
  (journalRecords s).filter fun r => r.type == 2 && decide (clearedSeq s < r.seq)

/-- The record is the newest of its type. -/
def isNewest (s : State) (r : JournalRecord) : Bool :=
  match newestRecord s r.type with | some n => n.seq == r.seq | none => false

/-- Live records (R204). -/
def liveRecord (s : State) (r : JournalRecord) : Bool :=
  match r.type with
  | 2 => decide (clearedSeq s < r.seq)
  | 4 => isNewest s r
  | 7 => true
  | 8 => isNewest s r
  | 1 => decide ((((journalRecords s).filter fun x => (x.type == 1 || x.type == 5) && decide (r.seq < x.seq)).map JournalRecord.seq).eraseDups.length < 16)
  | 5 => decide ((((journalRecords s).filter fun x => (x.type == 1 || x.type == 5) && decide (r.seq < x.seq)).map JournalRecord.seq).eraseDups.length < 16)
  | _ => false

/-- Bytes 0 to 31 of a record, its additional authenticated data (table "Journal record"). -/
def JournalRecord.head (r : JournalRecord) : Bytes :=
  leBytes 1 r.type ++ leBytes 1 (r.stamp.unanch.toNat + 2 * r.carried.toNat) ++ leBytes 2 r.payload.length ++ leBytes 4 r.seq
    ++ leBytes 8 r.stamp.stamp.toNat ++ leBytes 12 r.nonce ++ leBytes 4 0

/-- Counters of the block in force remain (R208). -/
def nonceLeft (s : State) : Bool := decide (s.sec.nonceNext.toNat < s.sec.nonceLimit.toNat)

/-- A record as it lies in the journal: head, ciphertext and tag under the journal key (R206, R636). -/
def JournalRecord.bytes (r : JournalRecord) : Bytes :=
  let c := gcmSeal (Config.gcmKey 1) (leBytes 12 r.nonce) r.head r.payload
  r.head ++ c.1 ++ c.2

/-- Ask the routine for something. -/
def askArray (q : BaPurpose) (ops : List BaOp) (s : State) : State :=
  { s with boot.queue := s.boot.queue ++ [{ purpose := q, ops := ops, admitted := s.nextStamp }] }

/-- Erase of a sector under its flag cell (R200). -/
def eraseOps (sector : Nat) : List BaOp := [.flagProgram sector, .erase sector, .flagErase sector]

/-- Live records of a sector that lie in no other sector of the window. -/
def uncopied (s : State) (k : Nat) : List JournalRecord :=
  match (journalWindow s).find? fun p => p.1 == k with
  | some p => (p.2.records.filter (liveRecord s)).filter fun r => !(journalWindow s).any fun q =>
      q.1 != k && q.2.records.any fun y => y.seq == r.seq
  | none => []

/-- A record is sealed again with carried = 1 (R204). -/
def carryRecord (r : JournalRecord) (s : State) : State :=
  askLane { purpose := .journalRecord, sealing := true, text := r.payload, record := some { r with carried := true } } s

/-- When the window has reached its limit, the live records of the oldest sector are copied into the head under new
nonces, and it is erased (R204). -/
def rollJournal (s : State) : State :=
  match oldestSector s with
  | none => s
  | some (k, _) =>
    if (journalWindow s).length < journalSpan s || (journalWindow s).length < 2
        || s.boot.queue.any (fun q => q.purpose == .journalErase k) then s
    else askArray (.journalErase k) (eraseOps k) (each (uncopied s k) carryRecord s)

/-- A record is stored in the sector of its last program unit. -/
def storeRecord (ops : List BaOp) (r : JournalRecord) (s : State) : State :=
  match ops.getLast? with
  | some (.program a) =>
    let k := a / 65536
    match s.boot.journal.find k with
    | some x => { s with boot.journal := s.boot.journal.put k { x with records := x.records ++ [r] } }
    | none => s
  | _ => s

/-- Records are still written (R205). -/
def journalOn (s : State) : Bool := decide (9 ≤ (goodJournal s).length)

/-- Thermal Halt state is held in the retention register only (R205). -/
def holdRecord (r : JournalRecord) (s : State) : State :=
  if r.type = 2 then { s with reset_ctl.retention.th_held := s.reset_ctl.retention.th_held ++ [r.payload] } else s

/-- Build a record with a stamp it has already; a GCM lane seals it, and the routine then writes it (R197, R206). -/
def askRecord (type : Nat) (st : Stamped) (payload : Bytes) (s : State) : State := deliver (.record type (payload.take 4048)) st s

/-- A record of one of these types waits for its stamp, its lane or the routine. -/
def recordPending (types : List Nat) (s : State) : Bool :=
  let sealing := fun (m : GcmMessage) => m.sealing && (match m.record with | some r => types.contains r.type | none => false)
  let held := fun (u : StampUse) => match u with | .record t _ => types.contains t | _ => false
  let asked := fun (q : BaRequest) => match q.purpose with | .record r => types.contains r.type | _ => false
  s.security.lanes.vals.any sealing || s.security.gcm_waiting.any sealing || s.time.preseed.any held || s.time.waiting.any held
    || s.boot.queue.any asked || s.boot.current.any asked

/-! ### Nonce reservation (R207 to R209, R643) -/

/-- A reservation is asked for when fewer than 2^16 counters remain. -/
def watchNonces (s : State) : State :=
  if s.sec.nonceLimit.toNat < s.sec.nonceNext.toNat + 2 ^ 16 ∧ !s.sec.status.nonce_prefetch ∧ s.sec.nonceLimit ≠ 0 then
    askArray (.nonceBlock (s.sec.nonceLimit.toNat + 2 ^ 20)) [] { s with sec.status.nonce_prefetch := true }
  else s

/-- A copy of the nonce reservation. -/
def State.nonceCopy (s : State) (b : Bool) : NonceCopy := if b then s.boot.nonce_b else s.boot.nonce_a

/-- Change a copy of the nonce reservation. -/
def onNonceCopy (b : Bool) (f : NonceCopy → NonceCopy) (s : State) : State :=
  if b then { s with boot.nonce_b := f s.boot.nonce_b } else { s with boot.nonce_a := f s.boot.nonce_a }

/-- First sector of a copy (R196). -/
def nonceBase (b : Bool) : Nat := if b then 640 else 632

/-- A record is valid when the complement matches (R207). -/
def NonceRecord.valid (r : NonceRecord) : Bool := r.check == ~~~r.n

/-- The greatest valid N of a copy and its place (R208). -/
def NonceCopy.greatest (c : NonceCopy) : Option (Nat × Nat) :=
  (c.records.filter fun p => p.2.valid).foldl
    (fun best p => match best with
      | some b => if b.2 < p.2.n.toNat then some (p.1, p.2.n.toNat) else best
      | none => some (p.1, p.2.n.toNat)) none

/-- Operations that write N to a copy (R208): at the next place; where a sector is full, in the next good one, which is
erased first if it is not erased, and never the one that holds the greatest record. -/
def nonceOps (s : State) (b : Bool) (n : Nat) : List BaOp :=
  let c := s.nonceCopy b
  let sector := fun (i : Nat) => nonceBase b + i
  let full := c.records.filter fun p => p.2.valid
  if c.next % 4096 ≠ 0 ∧ !s.boot.retired.contains (sector (c.next / 4096 % 8)) then [.nonceProgram b c.next n]
  else
    let keep := c.greatest.map fun g => g.1 / 4096
    match ((List.range 8).map fun i => (divUp c.next 4096 + i) % 8).find? fun i =>
        !s.boot.retired.contains (sector i) && keep != some i with
    | some i =>
      (if full.any (fun p => p.1 / 4096 == i) || !flagSet s (sector i) then eraseOps (sector i) else []) ++ [.nonceProgram b (4096 * i) n]
    | none => []

/-! ### Firmware slots (R210 to R214) -/

/-- Sectors of a slot. -/
def slotSectors (b : Bool) : List Nat := (List.range 256).map fun i => (if b then 272 else 16) + i

/-- A slot. -/
def State.slot (s : State) (b : Bool) : FwSlot := if b then s.boot.slot_b else s.boot.slot_a

/-- Change a slot. -/
def onSlot (b : Bool) (f : FwSlot → FwSlot) (s : State) : State :=
  if b then { s with boot.slot_b := f s.boot.slot_b } else { s with boot.slot_a := f s.boot.slot_a }

def hdrGeneration (h : Bytes) : Nat := field h 4 4
def hdrSecVersion (h : Bytes) : Nat := field h 8 4
def hdrRaiseMin (h : Bytes) : Bool := field h 73 1 % 2 == 1

/-- Fused minimum security version, with the raises made (R216). -/
def minVersion (s : State) : Nat := max Config.fusedMinVersion (s.boot.min_version.getD 0)

/-- The image digest of a header matches, and its signature verifies with the public key of the service region whose hash is
the fused one of key_index, a key that is not revoked (R211). -/
def firmwareAuthentic (header : Bytes) (image : List (Nat × Byte)) : Bool :=
  let i := field header 72 1 % 4
  (header.drop 24).take 48 == sha384 (Cells.reads image 0 (field header 12 4)) && !Config.firmwareKeyRevoked i
    && (Config.serviceKeys.any fun k => sha384 k == Config.firmwareKeyHash i
      && signatureVerifies k ((header.drop 76).take 96) (header.take 76))

/-- The conditions of R211 on a header and image. -/
def imageValid (s : State) (header : Bytes) (image : List (Nat × Byte)) : Bool :=
  field header 0 4 == 0x5A474657 && decide (1 ≤ field header 12 4) && decide (field header 12 4 ≤ 16773120)
    && firmwareAuthentic header image && decide (minVersion s ≤ hdrSecVersion header)

/-- The slot flag cell reads firmly 1. -/
def slotFlag (s : State) (b : Bool) : Bool := if b then s.boot.slot_flag_b else s.boot.slot_flag_a

/-- A slot is valid (R211), and its load has not failed twice in this Start (R213). -/
def slotValid (s : State) (b : Bool) : Bool :=
  slotFlag s b && !(if b then s.boot.load_failed_b else s.boot.load_failed_a) && (slotSectors b).all (flagSet s)
    && imageValid s (s.slot b).header (s.slot b).image

/-- Show what the last check of a slot found. -/
def showSlot (b : Bool) (s : State) : State :=
  let v := slotValid s b
  let h := (s.slot b).header
  let g := if v then BitVec.ofNat 32 (hdrGeneration h) else 0
  let n := if v then BitVec.ofNat 32 (hdrSecVersion h) else 0
  if b then { s with ba.status.slot_b_valid := v, ba.slotInfoB := { generation := g, sec_version := n } }
  else { s with ba.status.slot_a_valid := v, ba.slotInfoA := { generation := g, sec_version := n } }

/-- Payload of a firmware-update-result record. -/
def updateResult (b : Bool) (result generation : Nat) : Bytes := leBytes 1 b.toNat ++ leBytes 3 result ++ leBytes 4 generation

/-- Payload of a next-boot record. -/
def nextBoot (s : State) (b : Bool) : Bytes := leBytes 4 b.toNat ++ leBytes 4 (hdrGeneration (s.slot b).header)

/-- The stamp by which an admin operation's requests to an engine wait (R38): its command's, or the next one. -/
def pathStamp (s : State) (p : AdminPath) : Nat :=
  match p with
  | .host t => match s.nvme.tracker.find t with
    | some e => e.admitted.stamp.toNat
    | none => s.nextStamp
  | _ => s.nextStamp

/-- An update begins: its started record is written before anything changes in the slot. -/
def beginUpdate (u : FwUpdate) (s : State) : State :=
  request (.record 6 (updateResult u.slotB 4 (hdrGeneration u.header)))
    (askChecker (pathStamp s u.path) .firmwareSlot (askDigest (pathStamp s u.path) .firmwareDigest { s with boot.update := some { u with step := 0 } }))

/-- Operations of a step of an update. -/
def updateOps (s : State) (u : FwUpdate) (step : Nat) : List BaOp :=
  let base := if u.slotB then 272 else 16
  match step with
  | 1 => [.slotFlagProgram u.slotB]
  | 2 => ((slotSectors u.slotB).filter fun n => !s.boot.retired.contains n).flatMap eraseOps
  | 3 => programs base 16 (divUp (field u.header 12 4) 256)
  | 4 => programs base 0 16
  | _ => [.slotFlagErase u.slotB]

/-- An update ends. -/
def endUpdate (u : FwUpdate) (status : Nat) (s : State) : State :=
  let s := showSlot u.slotB { s with boot.update := none }
  match u.path with
  | .own => { s with reset_ctl.recovered := true }
  | p => endAdmin p status 0 s

/-- An update fails: its result record, and the end of the command. -/
def failUpdate (u : FwUpdate) (result status : Nat) (s : State) : State :=
  request (.record 6 (updateResult u.slotB result (hdrGeneration u.header))) (endUpdate u status s)

/-- Begin a step of an update that the routine runs; a program unit that lies in a retired sector, which is never used
again (R199), is a program that fails. -/
def stepUpdate (step : Nat) (u : FwUpdate) (s : State) : State :=
  let lost := fun (o : BaOp) => match o with | .program a => s.boot.retired.contains (a / 65536) | _ => false
  if (updateOps s u step).any lost then failUpdate u 1 Status.internalError s
  else askArray (.update step) (updateOps s u step) { s with boot.update := some { u with step := step } }

/-- The image of a slot has not reached Run. -/
def forgetRun (b : Bool) (s : State) : State := if b then { s with boot.ran_b := false } else { s with boot.ran_a := false }

/-- The update goes on after a step of R214 that succeeded. -/
def advanceUpdate (s : State) : State :=
  match s.boot.update with
  | none => s
  | some u => match u.step with
    | 0 => stepUpdate 1 u s
    | 1 => stepUpdate 2 u s
    | 2 => stepUpdate 3 u (forgetRun u.slotB (onSlot u.slotB (fun _ => {}) s))
    | 3 => stepUpdate 4 u (onSlot u.slotB (fun x => { x with image := u.image }) s)
    | 4 =>
      let s := onSlot u.slotB (fun x => { x with header := u.header }) s
      if imageValid s u.header u.image && (slotSectors u.slotB).all (flagSet s) then stepUpdate 6 u s else failUpdate u 2 Status.invalidImage s
    | 6 => request (.record 6 (updateResult u.slotB 0 (hdrGeneration u.header)))
        (showSlot u.slotB { s with boot.update := some { u with step := 7 } })
    | 7 => if u.activate then request (.record 4 (nextBoot s u.slotB)) { s with boot.update := some { u with step := 8 } }
           else endUpdate u 0 s
    | _ => endUpdate u 0 s

/-! ### Manifest installs (R245 to R255) -/

/-- An install or mirror ends with a result. -/
def endInstall (code : Nat) (s : State) : State :=
  match s.manifest.install with
  | none => s
  | some i =>
    let s := { s with
      manifest.install := none
      man.installStatus := { result := BitVec.ofNat 8 code, target := i.targetB, step := 0 } }
    match i.path with
    | .own =>
      if code = 0 then s
      else raise (src 5 2) 0 [] { s with man.status.mirror_fail := true }
    | p => endAdmin p (if code = 0 then 0 else Status.installFailed) code s

/-- Operations of a step of an install. -/
def installOps (s : State) (i : Install) (step : Nat) : List BaOp :=
  let flag := copyFlagSector i.targetB
  let good := goodSectors s i.targetB
  match step with
  | 4 => [.flagProgram flag]
  | 5 => good.flatMap eraseOps
  | 6 => (List.range (divUp i.image.length 256)).map fun u => .program (65536 * good.getD (u / 256) 0 + 256 * (u % 256))
  | _ => [.flagErase flag]

/-- Begin a step of an install that the routine runs. -/
def stepInstall (step : Nat) (i : Install) (s : State) : State :=
  askArray (.install step) (installOps s i step) { s with
    manifest.install := some { i with step := step }
    man.installStatus.step := BitVec.ofNat 4 step }

/-- Change the stored image of a copy. -/
def setCopy (b : Bool) (img : Bytes) (s : State) : State :=
  if b then { s with boot.manifest_b := img } else { s with boot.manifest_a := img }

/-- Show whether a copy is valid, and its generation. -/
def showCopy (b valid : Bool) (s : State) : State :=
  let g := if valid then BitVec.ofNat 64 (imgGeneration (copyImage s b)) else 0
  if b then { s with man.status.copy_b_valid := valid, man.copyGenB := g }
  else { s with man.status.copy_a_valid := valid, man.copyGenA := g }

/-- Payload of a manifest record (R243, R244). -/
def manifestRecord (s : State) (kind : Nat) (b : Bool) (img : Bytes) (floor : Nat) : Bytes :=
  leBytes 1 kind ++ leBytes 3 b.toNat ++ leBytes 8 (imgGeneration img) ++ leBytes 8 floor
    ++ (if kind = 2 then List.replicate 48 0 else padTo 48 (sha384 (imgSealed (copyImage s b))))

/-- The install goes on after a step that succeeded. -/
def advanceInstall (s : State) : State :=
  match s.manifest.install with
  | none => s
  | some i => match i.step with
    | 4 => stepInstall 5 i (showCopy i.targetB false s)
    | 5 => stepInstall 6 i (setCopy i.targetB [] s)
    | 6 =>
      let s := setCopy i.targetB i.image s
      if imageReason s i.image (copyCapacity s i.targetB) true = 0 then stepInstall 8 i s else endInstall 0x13 s
    | 8 =>
      let s := showCopy i.targetB true { s with
        manifest.install := some { i with step := 9 }
        man.installStatus.step := 9 }
      match i.path with
      | .own =>
        request (.record 8 (manifestRecord s 3 i.targetB i.image (imgGeneration i.image))) s
      | _ => request (.record 8 (manifestRecord s 1 i.targetB i.image s.man.floor.toNat)) s
    | _ => endInstall 0 s

/-- Step 3 of an install (R230, R250): the seal is placed in the image, and step 4 begins. -/
def beginInstall (path : AdminPath) (target : Bool) (img : Bytes) (s : State) : State :=
  stepInstall 4 { path := path, step := 3, targetB := target, image := imgWithSeal s img }
    (askChecker (pathStamp s path) .manifestSignature (askDigest (pathStamp s path) .manifestDigest { s with man.installStatus.target := target }))

/-- The staging buffer is busy: an install or a mirror is in progress, or a forward to a yard (R248, R729). -/
def stagingBusy (s : State) : Bool :=
  s.manifest.install.isSome || s.keaka.admin.any fun a => a.body.headD 0 == 3

/-- Steps 1 and 2 of an install: the mode, the busy test and the checks (R247, R248, R251, R252, R256). -/
def installManifest (path : AdminPath) (sideband : Bool) (img : Bytes) (s : State) : State :=
  let refuse := fun (code : Nat) => endAdmin path Status.installFailed code
    { s with man.installStatus := { s.man.installStatus with
        result := BitVec.ofNat 8 code, target := installTarget s (img.take (imgTotal img)) } }
  if !installMode s sideband then refuse 0x12
  else if stagingBusy s then endAdmin path Status.installFailed 0x11 s
  else if img.length < imgTotal img then refuse 0x03
  else
    let img := img.take (imgTotal img)
    let target := installTarget s img
    match installChecks s img target with
    | 0 => beginInstall path target img s
    | code => refuse code

/-! ### The Array Service Routine (R197 to R200) -/

/-- Pulses stop: in Hold, in Flush, during a spill from Start, in the assertion steps of an L4, and in Thermal Halt
entry and Thermal Halt for an install (R166, R186, R255, R640). -/
def arrayStopped (s : State) : Bool :=
  s.reset_ctl.sequence.isSome || s.shroud.spill.isSome
    || (match s.mode with | .hold => true | .flush => true | _ => false)

/-- A request is for a record whose payload is this, of this type. -/
def JournalRecord.isFor (r : JournalRecord) (type : Nat) (payload : Bytes) : Bool := r.type == type && r.payload == payload

/-- The record that an update in progress waits for: started, result or next boot (R214). -/
def updateWaits (s : State) (u : FwUpdate) (r : JournalRecord) : Bool :=
  match u.step with
  | 0 => r.isFor 6 (updateResult u.slotB 4 (hdrGeneration u.header))
  | 7 => r.isFor 6 (updateResult u.slotB 0 (hdrGeneration u.header))
  | 8 => r.isFor 4 (nextBoot s u.slotB)
  | _ => false

/-- What the journal now holds is no longer held elsewhere: the causes and the deferred reset of a reset-cause record, the
Start failure of R220, the Thermal Halt state a cleared record clears (R183, R220, R587), the floor of a kind 3 manifest
record (R235, R245). -/
def recordHeld (r : JournalRecord) (s : State) : State :=
  match r.type with
  | 1 => { s with
      reset_ctl.since_record := s.reset_ctl.since_record &&& ~~~(BitVec.ofNat 16 (field r.payload 0 2))
      reset_ctl.deferred_causes := s.reset_ctl.deferred_causes &&& ~~~(BitVec.ofNat 16 (field r.payload 0 2))
      reset_ctl.deferred := match s.reset_ctl.deferred with
        | some d => if d.stamp.stamp.toNat = field r.payload 16 8 then none else some d
        | none => none }
  | 3 => { s with reset_ctl.retention.th_held := [], reset_ctl.retention.th_clear := none }
  | 5 => { s with reset_ctl.retention.start_failure := none }
  | 8 =>
    if field r.payload 0 1 = 3 then { s with man.floor := BitVec.ofNat 64 (field r.payload 12 8), man.status.floor_pending := false }
    else s
  | _ => s

/-- A request leaves. -/
def endRequest (s : State) : State := { s with boot.current := none, boot.pulsing := false, boot.pulses := 0, boot.done := 0 }

/-- What a request that succeeded does. -/
def requestDone (q : BaRequest) (s : State) : State :=
  match q.purpose with
  | .record r =>
    let s := storeRecord q.ops r s
    let s := if r.carried then s else recordHeld r s
    if r.carried then s
    else if r.type = 8 ∧ (s.manifest.install.map Install.step) = some 9 then advanceInstall s
    else match s.boot.update with
      | some u => if updateWaits s u r then advanceUpdate s else s
      | none => s
  | .nonceBlock n => { s with sec.nonceLimit := BitVec.ofNat 64 n, sec.status.nonce_prefetch := false }
  | .sectorErase _ => s
  | .install _ => advanceInstall s
  | .update _ => advanceUpdate s
  | .journalErase _ => s
  | .abandoned => s

/-- What a request that failed does: a record or a reservation is tried once at the next free place (R199).  A carried
record is sealed again.  An update whose started, result or next-boot record cannot be written ends with Internal Error: the
spec does not say what ends it (DESIGN CHOICE, log entry 95). -/
def requestFailed (q : BaRequest) (s : State) : State :=
  match q.purpose with
  | .record r =>
    if !q.retried then { s with boot.queue := { q with ops := [], retried := true } :: s.boot.queue }
    else if r.carried then carryRecord r s
    else
      let s := holdRecord r s
      if r.type = 8 ∧ (s.manifest.install.map Install.step) = some 9 then advanceInstall s
      else match s.boot.update with
        | some u => if updateWaits s u r then endUpdate u Status.internalError s else s
        | none => s
  | .nonceBlock _ => if q.retried then { s with sec.status.nonce_prefetch := false }
                     else { s with boot.queue := { q with ops := [], retried := true } :: s.boot.queue }
  | .sectorErase _ => s
  | .install _ => endInstall 0x13 s
  | .update _ => match s.boot.update with
    | some u => failUpdate u 1 Status.internalError s
    | none => s
  | .journalErase _ => s
  | .abandoned => s

/-- Where a record goes is settled when it is taken. -/
def placeRequest (q : BaRequest) (s : State) : Option (BaRequest × State) :=
  match q.purpose, q.ops with
  | .record r, [] =>
    if !journalOn s then none
    else (journalRoom (recordUnits r) s).map fun p => ({ q with ops := p.1 }, rollJournal p.2)
  | .nonceBlock n, [] => some ({ q with ops := nonceOps s false n ++ nonceOps s true n }, s)
  | _, _ => some (q, s)

/-- A request may be taken: a sector of the journal is erased once its live records are copied (R204). -/
def mayTake (s : State) (q : BaRequest) : Bool :=
  match q.purpose with
  | .journalErase k => (uncopied s k).isEmpty
  | _ => true

/-- BOOT_ARRAY_REQUEST (R197): the oldest request by admission is taken, and its first pulse begins. -/
def execBootArrayRequest (s : State) : Host.Outcome State Fault Refusal :=
  if arrayStopped s || s.boot.current.isSome then .next s
  else match leastOn BaRequest.admitted (s.boot.queue.filter (mayTake s)) with
    | none => .next s
    | some q =>
      let s := { s with boot.queue := s.boot.queue.erase q }
      match placeRequest q s with
      | some (q, s) => .next { s with boot.current := some q, boot.pulsing := true, boot.pulses := 0 }
      | none => .next (requestFailed { q with retried := true } s)

/-- An operation is an erase. -/
def BaOp.isErase : BaOp → Bool
  | .erase _ => true
  | .flagErase _ => true
  | .slotFlagErase _ => true
  | _ => false

/-- A sector has been erased: what the journal or a nonce copy held there is gone. -/
def sectorErased (k : Nat) (s : State) : State :=
  let clear := fun (b : Bool) (c : NonceCopy) => { c with records := c.records.filter fun p => nonceBase b + p.1 / 4096 != k }
  onNonceCopy true (clear true) (onNonceCopy false (clear false) { s with boot.journal := s.boot.journal.drop k })

/-- A pulse has gone to a flag cell that is being programmed, or to a place of a nonce copy: the cell no longer reads firmly
1, and the place is used, whether or not it verifies (R200, R207, R253, R255).  The spec gives no reading of a cell whose own
pulse was cut: taken as not firmly 1 (DESIGN CHOICE, log entry 93). -/
def pulseGiven (o : BaOp) (s : State) : State :=
  match o with
  | .flagProgram k => { s with boot.flags := s.boot.flags.put k false }
  | .slotFlagProgram b => if b then { s with boot.slot_flag_b := false } else { s with boot.slot_flag_a := false }
  | .nonceProgram b place _ => onNonceCopy b (fun c => { c with next := place + 1 }) s
  | _ => s

/-- What a verified operation leaves in the array. -/
def opVerified (o : BaOp) (s : State) : State :=
  match o with
  | .program _ => s
  | .journalHeader k => match s.boot.journal.find k with
    | some x => { s with boot.journal := s.boot.journal.put k { x with header := sectorHeader x.sequence } }
    | none => s
  | .nonceProgram b place n => onNonceCopy b (fun c => { c with
      records := c.records.put place { n := BitVec.ofNat 64 n, check := ~~~(BitVec.ofNat 64 n) } }) s
  | .erase k => sectorErased k s
  | .flagProgram k => { s with boot.flags := s.boot.flags.put k false }
  | .flagErase k => { s with boot.flags := s.boot.flags.drop k }
  | .slotFlagProgram b => if b then { s with boot.slot_flag_b := false } else { s with boot.slot_flag_a := false }
  | .slotFlagErase b => if b then { s with boot.slot_flag_b := true } else { s with boot.slot_flag_a := true }

/-- An operation that never verified: a sector whose erase failed is retired, with its record (R199). -/
def opFailed (o : BaOp) (s : State) : State :=
  let s := raise (src 5 0) 0 [] { s with ba.status.ba_fail := true }
  match o with
  | .erase k =>
    if s.boot.retired.contains k then s
    else showJournal (request (.record 7 (leBytes 2 k)) { s with boot.retired := s.boot.retired ++ [k] })
  | _ => s

/-- BOOT_ARRAY_PULSE_DONE (R198): a verified operation gives way to the next, 12 program or 40 erase pulses without
success are a fail flag, and no further pulse begins where pulses stop. -/
def execBootArrayPulseDone (verified : Bool) (s : State) : Host.Outcome State Fault Refusal :=
  match s.boot.current with
  | none => .next s
  | some q =>
    if !s.boot.pulsing then .next s
    else match q.ops.drop s.boot.done with
      | [] => .next (endRequest s)
      | o :: rest =>
        let s := pulseGiven o s
        if verified then
          let s := if q.purpose == .abandoned && o.isErase then s else opVerified o s
          if rest.isEmpty then .next (watchNonces (requestDone q (endRequest s)))
          else .next { s with boot.done := s.boot.done + 1, boot.pulses := 0, boot.pulsing := !arrayStopped s }
        else
          let limit := if o.isErase then 40 else 12
          if s.boot.pulses + 1 < limit then .next { s with boot.pulses := s.boot.pulses + 1, boot.pulsing := !arrayStopped s }
          else .next (requestFailed q (opFailed o (endRequest s)))

/-- RECOVERY_IMAGE (R217): accepted while start_fail is 0x01, and written to slot A. -/
def execRecoveryImage (image : FwImage) (s : State) : Host.Outcome State Fault Refusal :=
  let on := match s.mode with | .start => s.mgmt.modeStatus.start_fail == 1 | _ => false
  if on && !s.reset_ctl.recovered && s.boot.update.isNone && image.authentic then
    .next (beginUpdate { slotB := false, step := 0, activate := false, path := .own, header := image.header,
                         image := (List.range image.image.length).zip image.image |>.filter fun p => p.2 != 0 } s)
  else .next s

end Sys2Proof.Machine
end

