-- ==== Sys2Proof/Machine/Dma.lean ====
section
/-!
DEFINITION. Host memory as the endpoint reaches it: the regions of a data pointer (R322, R323), read requests (R275 to
R281), and the windows of the controller memory buffer (R287, R291, R292).
-/

namespace Sys2Proof.Machine

/-! ### Regions (R322, R323) -/

/-- A contiguous part of a transfer: its offset, its length, and its host address, none for a bit bucket. -/
structure Region where
  offset : Nat
  length : Nat
  address : Option Nat
  deriving DecidableEq, Repr

/-- Regions of PRP entries: the first runs to the end of its memory page, each other is a page (R305, R322). -/
def prpRegions (offset len : Nat) : List Nat → List Region
  | [] => []
  | a :: rest =>
    if len = 0 then []
    else
      let n := min len (4096 - a % 4096)
      { offset := offset, length := n, address := some a } :: prpRegions (offset + n) (len - n) rest

/-- Regions of SGL descriptors: Data Block (0x0) and Bit Bucket (0x1); segments hold no data. -/
def sglRegions (offset : Nat) : List SglDesc → List Region
  | [] => []
  | d :: rest => match d.type with
    | 0 => { offset := offset, length := d.length, address := some d.address } :: sglRegions (offset + d.length) rest
    | 1 => { offset := offset, length := d.length, address := none } :: sglRegions (offset + d.length) rest
    | _ => sglRegions offset rest

/-- Regions of a command's transfer of `len` bytes of data, with `md` bytes of separate metadata after it. -/
def regionsOf (e : Entry) (len md : Nat) : List Region :=
  let data := match e.ptr with
    | .prp later => prpRegions 0 len (e.sqe.prp1.toNat :: later)
    | .sgl l => sglRegions 0 l
    | .failed => []
  if md = 0 then data else data ++ [{ offset := len, length := md, address := some e.sqe.mptr.toNat }]

/-- The part of a region that lies in `n` bytes from `lo`. -/
def Region.cut (lo n : Nat) (r : Region) : Option Region :=
  let a := max lo r.offset
  let b := min (lo + n) (r.offset + r.length)
  if a < b then some { offset := a, length := b - a, address := r.address.map fun x => x + (a - r.offset) } else none

/-- A region divided at the multiples of `m` of its address: reads by Max_Read_Request_Size, posted writes by
Max_Payload_Size (R275). -/
def splitRegion (m : Nat) : Nat → Region → List Region
  | 0, r => [r]
  | n + 1, r => match r.address with
    | none => []
    | some a =>
      let k := m - a % m
      if r.length ≤ k then [r]
      else { r with length := k } :: splitRegion m n { offset := r.offset + k, length := r.length - k, address := some (a + k) }

/-- Status of a data pointer that is in error for `len` bytes; 0 where it is good (R322 to R324). `reads` says that the
command writes to host memory. -/
def pointerStatus (ptr : DataPtr) (len : Nat) (reads : Bool) : Nat :=
  match ptr with
  | .failed => Status.dataTransfer
  | .prp later => if later.any fun a => a % 4096 != 0 then Status.prpOffset else 0
  | .sgl l =>
    if l.any fun d => !(d.type == 0 || d.type == 2 || d.type == 3 || (d.type == 1 && reads)) then Status.sglType
    else if l.any fun d => d.address % 4 != 0 || ((d.type == 0 || d.type == 1) && d.length % 4 != 0) then Status.sglGranularity
    else if total ((l.filter fun d => d.type == 0 || d.type == 1).map SglDesc.length) ≠ len then Status.dataSglLength
    else 0

/-! ### The controller memory buffer (R291, R292) -/

/-- BAR2 offset of a controller's access to its own CMB, where the address lies in it: CMSE and CRE of CMBMSC are bits
1 and 0, and its base bits [63:12]. -/
def cmbOffset (s : State) (c addr : Nat) : Option Nat :=
  let m := (s.ctrl c).cmbmsc
  let base := m / 4096 * 4096
  let size := if s.ep.dual then 2 ^ 24 else 2 ^ 25
  if s.pcie.cfg.cmb_enable && m.testBit 0 && m.testBit 1 && decide (base ≤ addr) && decide (addr < base + size) then
    some (addr - base + (if s.ep.dual && c == 1 then 2 ^ 24 else 0))
  else none

/-! ### Read requests (R275 to R279) -/

/-- Tags of a port in the mode in force (table "Tag modes"). -/
def tagLimit (s : State) (n : Nat) : Nat :=
  match (s.portStatus n).tag_mode.toNat with
  | 3 => if s.ep.dual then 8192 else 16384
  | 2 => 768
  | 1 => 256
  | _ => 32

/-- The lowest tag neither outstanding nor quarantined. -/
def freeTag (s : State) (n : Nat) : Option Nat :=
  let used := ((s.port n).tags.map Prod.fst) ++ (s.port n).quarantined.map Prod.fst
  (List.range (min (tagLimit s n) (used.length + 1))).find? fun g => !used.contains g

/-- Bytes of the completion buffer (R277). -/
def bufferBytes : Nat := 2 ^ 24

/-- The oldest read that waits on port `n`, with a free tag, where the function may send reads now (R283). -/
def nextRead (s : State) (n : Nat) : Option (Nat × ReadRequest × Nat) :=
  if (s.portStatus n).bme then
    match leastOn ReadRequest.stamp (s.port n).reads_waiting, freeTag s n with
    | some r, some g => some (n, r, g)
    | _, _ => none
  else none

/-- The read that goes next: of the ports', the older by admission stamp (R277, R318 level 5). -/
def oldestRead (s : State) : Option (Nat × ReadRequest × Nat) :=
  leastOn (fun p : Nat × ReadRequest × Nat => p.2.1.stamp) ([0, 1].filterMap (nextRead s))

/-- Issue reads that wait, oldest admission stamp first, while a tag and buffer space are free (R277, R283). -/
def grantReads : Nat → State → State
  | 0, s => s
  | k + 1, s => match oldestRead s with
    | some (n, r, g) =>
      if s.ep.reserved + r.remaining ≤ bufferBytes then
        let s := onPort n (fun p => { p with reads_waiting := p.reads_waiting.erase r, tags := p.tags.put g r })
          { s with ep.reserved := s.ep.reserved + r.remaining }
        grantReads k (say (.readRequest n g r.address r.remaining) (arm .tagTimeout (tagIdx n g) (ctoMotes (s.port n)) s))
      else s
    | none => s

/-- Issue what both ports may issue now; nothing in Flush, which discards what still comes (R166). -/
def grantAll (s : State) : State :=
  match s.mode with
  | .flush => s
  | _ => grantReads ((s.port 0).reads_waiting.length + (s.port 1).reads_waiting.length) s

/-- Place bytes in a command's buffer. -/
def placeData (t offset : Nat) (b : Bytes) (s : State) : State :=
  onEntry t (fun e => { e with buffer := Cells.writes e.buffer offset b }) s

/-- Fetch one request's worth of a command's data: from the CMB at once, else by a read request. -/
def fetchRegion (t : Nat) (e : Entry) (r : Region) (s : State) : State :=
  match r.address with
  | none => s
  | some a => match cmbOffset s e.ctrl a with
    | some o => match cmbResolve s e.ctrl o false with
      | some m => if cmbBad s m r.length then failEntry t Status.dataTransfer 0 s
        else placeData t r.offset (Cells.reads s.ep.cmb m r.length) s
      | none => failEntry t Status.dataTransfer 0 s
    | none => onPort e.ctrl (fun p => { p with reads_waiting := p.reads_waiting ++
        [{ purpose := .data t r.offset, address := a, remaining := r.length, stamp := e.admitted.stamp.toNat }] }) s

/-- Fetch `n` bytes from offset `lo` of a command's transfer of `len` bytes of data and `md` of metadata. -/
def fetchData (t len md lo n : Nat) (s : State) : State :=
  match s.nvme.tracker.find t with
  | none => s
  | some e =>
    let m := (s.port e.ctrl).mrrs
    let l := ((regionsOf e len md).filterMap (Region.cut lo n)).flatMap fun r => splitRegion m (r.length / m + 1) r
    grantAll (each l (fetchRegion t e) s)

/-- Data of a command in `n` bytes from `lo` has still to arrive. -/
def dataDue (s : State) (t c lo n : Nat) : Bool :=
  let due := fun (r : ReadRequest) => match r.purpose with
    | .data x o => x == t && decide (o < lo + n) && decide (lo < o + r.position + r.remaining)
    | .dropped => false
  (s.port c).tags.vals.any due || (s.port c).reads_waiting.any due

/-- One posted write of a transfer: the CMB takes its part; a bit bucket takes none. -/
def sendRegion (e : Entry) (b : Bytes) (r : Region) (s : State) : State :=
  let part := (b.drop r.offset).take r.length
  match r.address with
  | none => s
  | some a => match cmbOffset s e.ctrl a with
    | some o => match cmbResolve s e.ctrl o true with
      | some m => writeCmb m part s
      | none => s
    | none => say (.data e.ctrl e.sqid e.sqe.cid.toNat a part) s

/-- Posted writes of regions, each divided by the Max_Payload_Size in force (R275). -/
def sendRegions (e : Entry) (b : Bytes) (l : List Region) (s : State) : State :=
  let m := (s.port e.ctrl).mps
  each (l.flatMap fun r => splitRegion m (r.length / m + 1) r) (sendRegion e b) s

/-- Write a transfer of `len` bytes of data, and metadata after it, to the host (R273 step 1). -/
def sendData (e : Entry) (len : Nat) (b : Bytes) (s : State) : State :=
  sendRegions e b (regionsOf e len (b.length - len)) s

/-- The memory pages after the first of an admin command's PRP data: PRP2 names the second where two are enough, else a
list in host memory, whose entries are no state of the device. -/
def adminPages (e : Entry) (len : Nat) : List Nat :=
  let first := 4096 - e.sqe.prp1.toNat % 4096
  if len ≤ first + 4096 then [e.sqe.prp2.toNat]
  else (List.range (divUp (len - first) 4096)).map (Config.prpListEntry e.sqe.prp2.toNat)

/-- Write the data of an admin command to the host: admin commands use PRPs (R323 gives SGLs to I/O commands). -/
def sendAdmin (e : Entry) (b : Bytes) (s : State) : State :=
  sendRegions e b (prpRegions 0 b.length (e.sqe.prp1.toNat :: adminPages e b.length)) s

end Sys2Proof.Machine
end

