-- ==== Sys2Proof/Machine/Overlap.lean ====
section
/-!
DEFINITION. Commands that touch the same units (R331, R337, R693, R724), reads resolved when their waits end (R332, R725),
and changes made without host data: Write Zeroes and deallocation (R333, R381, R728).
-/

namespace Sys2Proof.Machine

/-! ### Ranges -/

/-- Units that a command's LBA ranges touch: first and count of each. -/
def touchedUnits (n : Namespace) (e : Entry) : List (Nat × Nat) := e.ranges.map fun r => unitsOf n.lbaf r.1 r.2

/-- Units that a range of LBAs covers whole: first and count. -/
def wholeUnits (lbaf slba count : Nat) : Nat × Nat :=
  let k := lbasPerUnit lbaf
  (divUp slba k, (slba + count) / k - divUp slba k)

/-- Units that a range of LBAs covers in part (R334). -/
def partUnits (lbaf slba count : Nat) : List Nat :=
  let t := unitsOf lbaf slba count
  let w := wholeUnits lbaf slba count
  (List.range t.2).map (fun i => t.1 + i) |>.filter fun u => !(decide (w.1 ≤ u) && decide (u < w.1 + w.2))

/-- A unit lies in a range of units. -/
def inUnits (u : Nat) (r : Nat × Nat) : Bool := decide (r.1 ≤ u) && decide (u < r.1 + r.2)

/-- Ranges of units meet. -/
def unitsMeet (a b : Nat × Nat) : Bool := decide (a.1 < b.1 + b.2) && decide (b.1 < a.1 + a.2)

/-! ### Waits (table "Overlap outcomes", R337) -/

/-- Units of a data-changing command in progress that are not held yet: of a write from its first admitted slice on. -/
def Entry.unheld (n : Namespace) (e : Entry) : List (Nat × Nat) :=
  if !e.changes || e.state == .done then []
  else if e.sqe.opcode = 0x01 then
    if e.unstarted then [] else e.slices.flatMap fun x => (x.pieces.filter fun p => !p.held).map fun p => (p.unit, p.units)
  else if e.state = .overlap then touchedUnits n e else []

/-- Commands of the same namespace admitted before `e`. -/
def earlier (s : State) (e : Entry) : List Entry :=
  s.nvme.tracker.vals.filter fun x => x.sqid != 0 && x.sqe.nsid == e.sqe.nsid
    && decide (x.admitted.stamp.toNat < e.admitted.stamp.toNat)

/-- An earlier command still has to make some of these units held. -/
def blocked (s : State) (n : Namespace) (e : Entry) (r : Nat × Nat) : Bool :=
  (earlier s e).any fun x => (x.unheld n).any fun q => unitsMeet q r

/-- The submission queue of a command. -/
def queueOf (s : State) (e : Entry) : Option SubQueue := (s.ctrl e.ctrl).sqs.find e.sqid

/-- The command is on a halt-on-error queue. -/
def onHaltQueue (s : State) (e : Entry) : Bool := match queueOf s e with | some q => q.halt_attr | none => false

/-- Commands of the same queue admitted before `e` that have not posted. -/
def queuedBefore (s : State) (e : Entry) : List (Nat × Entry) :=
  s.nvme.tracker.filter fun p => p.2.ctrl == e.ctrl && p.2.sqid == e.sqid
    && decide (p.2.admitted.stamp.toNat < e.admitted.stamp.toNat)

/-- A change on a halt-on-error queue may be made: every earlier command of the queue has posted success (R337). -/
def haltPermits (s : State) (e : Entry) : Bool := !onHaltQueue s e || (queuedBefore s e).isEmpty

/-! ### Entries of banks 8 to 11 (R331, R693) -/

/-- Insert one overlap entry of a command before the entries inserted so far: their addresses, and the state (R693). -/
def putOverlap (t : Nat) (e : Entry) (p : List Nat × State) (r : Nat × Nat) : List Nat × State :=
  match tslFreeSlot .overlap (overlapEntry e.sqe.ns r.1 r.2 t (p.1.headD 0xFFFF)) p.2 with
  | (some a, s) => (a :: p.1, s)
  | (none, s) => (p.1, s)

/-- The overlap entries of a command are written, chained in ascending order, unless an earlier command overlaps it. -/
def enterOverlap (t : Nat) (s : State) : State :=
  match s.nvme.tracker.find t with
  | none => s
  | some e => match commandSpace s e with
    | none => s
    | some n =>
      let l := touchedUnits n e
      let s := each l (fun r s => tslCounted (tslSearch s { banks := 0x0F00, key := unitKey e.sqe.ns r.1, n := r.2 }) s) s
      if !e.overlap.isEmpty || l.any (blocked s n e) then s
      else
        let (l, s) := l.reverse.foldl (putOverlap t e) ([], s)
        onEntry t (fun e => { e with overlap := l }) s

/-- The entries of a command go when its last unit is held. -/
def leaveOverlap (t : Nat) (s : State) : State :=
  match s.nvme.tracker.find t with
  | some e => onEntry t (fun e => { e with overlap := [] }) (dropOverlap e s)
  | none => s

/-! ### Reads (R332, R725) -/

/-- Runs of consecutive units on one device, each within a slice of 256 units: first, count and device. -/
def deviceRuns (s : State) (ns : Nat) : List Nat → List (Nat × Nat × Nat)
  | [] => []
  | u :: rest =>
    let d := deviceOf s ns u
    match deviceRuns s ns rest with
    | (v, n, x) :: l => if x = d ∧ v = u + 1 ∧ v % 256 ≠ 0 then (u, n + 1, d) :: l else (u, 1, d) :: (v, n, x) :: l
    | [] => [(u, 1, d)]

/-- Read requests to yards (R725): namespace, device unit offset, units and admission stamp. -/
def askYard (t : Nat) (e : Entry) (r : Nat × Nat × Nat) (s : State) : State :=
  let s := onEntry t (fun e => { e with
    remote_left := e.remote_left ++ (List.range r.2.1).map fun i => r.1 + i
    yards_wait := if e.yards_wait.contains r.2.2 then e.yards_wait else e.yards_wait ++ [r.2.2] }) s
  sendFrame 0x18 r.2.2 t [e.sqe.ns, deviceUnit s r.1, r.2.1, e.admitted.stamp.toNat, e.admitted.unanch.toNat] s

/-- A lost yard holds one of the units (R732). -/
def onLostYard (s : State) (ns : Nat) (units : List Nat) : Bool :=
  units.any fun u => s.kk.status.lost.getLsbD (deviceOf s ns u)

/-- Resolve every unit of a command whose waits have ended. -/
def pumpReads (t : Nat) (s : State) : State :=
  match s.nvme.tracker.find t with
  | none => s
  | some e => match commandSpace s e with
    | none => s
    | some n =>
      let free := e.unread.filter fun u => !blocked s n e (u, 1)
      if free.isEmpty then s
      else
        let s := onEntry t (fun e => { e with unread := e.unread.filter fun u => !free.contains u }) s
        let here := free.filter fun u => deviceOf s e.sqe.ns u == s.position
        let away := free.filter fun u => deviceOf s e.sqe.ns u != s.position
        let l := here.filterMap (globalUnit s e.sqe.ns)
        let none_ := here.filter fun u => (globalUnit s e.sqe.ns u).isNone
        let s := onEntry t (fun e => { e with reads_left := e.reads_left ++ l, got := none_.foldl (fun m u => m.put u []) e.got }) s
        if onLostYard s e.sqe.ns away then failEntry t Status.notReady 0 s
        else
          let s := each (deviceRuns s e.sqe.ns away) (askYard t e) s
          readsEnd t (readUnits t l s)

/-! ### Held changes without host data -/

/-- Records of a command's whole units, one for each run of consecutive global units on this device (R381). -/
def localRuns (s : State) (ns : Nat) : List Nat → List (Nat × Nat)
  | [] => []
  | u :: rest =>
    match (if deviceOf s ns u = s.position then globalUnit s ns u else none), localRuns s ns rest with
    | some g, (h, n) :: l => if h = g + 1 then (g, n + 1) :: l else (g, 1) :: (h, n) :: l
    | some g, [] => [(g, 1)]
    | none, l => l

/-- Hold a change of a kind for a run of units under a stamp (R381). -/
def holdChange (kind ns ordinal first count : Nat) (st : Stamped) (s : State) : State :=
  holdMapRecord { kind := kind, stamp := st, ns_index := ns, ordinal := ordinal, first := first, count := count } s

/-- Records that the Shroud can still take (table "Shroud regions"). -/
def recordRoom (s : State) : Nat := 65536 - s.shroud.records.length

/-- One unit made held with no slice of a command: it takes a slice descriptor of its own (R334, R658). -/
def holdUnit (ns unit : Nat) (f : Frame) (cmd : Nat) (s : State) : State :=
  match globalUnit s ns unit with
  | none => s
  | some g =>
    let (st, s) := takeStamp s
    let d := s.shroud.slices.fresh 0 (s.shroud.slices.length + 1)
    let x : SliceDesc := { ns_index := ns, first := unit, units := 1, stamp := cmd }
    let s := { s with
      nvme.clean := false
      shroud.slices := s.shroud.slices.put d x
      shroud.held := s.shroud.held ++ [{ unit := g, ns_index := ns, ns_unit := unit, stamp := st, frame := f, slice := d, cmd := cmd }] }
    tslOrdered (sliceEntry x d) s

/-- A unit with some of its LBAs zeroed by the ranges of a command. -/
def zeroed (n : Namespace) (e : Entry) (unit : Nat) (old : Bytes) : Bytes :=
  e.ranges.foldl (fun b r => if inUnits unit (unitsOf n.lbaf r.1 r.2) then unitOfWrite n r.1 r.2 [] unit b else b) old

/-- Units that a command's ranges cover in part. -/
def edges (n : Namespace) (e : Entry) : List Nat := (e.ranges.flatMap fun r => partUnits n.lbaf r.1 r.2).eraseDups

/-- Kind of the records of a command: Write Zeroes or deallocate. -/
def recordKind (e : Entry) : Nat := if e.sqe.opcode = 0x08 then 2 else 1

/-- Units a command's ranges cover whole. -/
def wholeList (n : Namespace) (e : Entry) : List (List Nat) :=
  e.ranges.map fun r => (List.range (wholeUnits n.lbaf r.1 r.2).2).map fun i => (wholeUnits n.lbaf r.1 r.2).1 + i

/-- The records (a run of global units) and merged units of a change, by their first unit in ascending order, in which they
take their stamps (R88). -/
def localChanges (s : State) (own : List (Nat × Nat)) (rim : List Nat) : List (Nat × Option (Nat × Nat)) :=
  sortOn Prod.fst ((own.map fun r => ((match namespaceUnit s r.1 with | some p => p.2 | none => 0), some r))
    ++ rim.map fun u => (u, none))

/-- A Write Zeroes or deallocation makes its change when its waits have ended: its records are held, here and on the
yards that hold covered units, and units it covers in part are written as merged units (R337, R381, R728). -/
def tryChange (t : Nat) (s : State) : State :=
  match s.nvme.tracker.find t with
  | none => s
  | some e => match commandSpace s e with
    | none => s
    | some n =>
      let own := (wholeList n e).flatMap fun l => localRuns s e.sqe.ns l
      let rim := (edges n e).filter fun u => deviceOf s e.sqe.ns u == s.position
      let far := (edges n e).filter fun u => deviceOf s e.sqe.ns u != s.position
      if e.sqid = 0 ∨ (e.sqe.opcode ≠ 0x08 ∧ e.sqe.opcode ≠ 0x09) ∨ e.state ≠ .overlap then s
      else if e.broken.isSome then failEntry t e.status 0 s
      else if (touchedUnits n e).any (blocked s n e) || !haltPermits s e || !e.unread.isEmpty || !e.reads_left.isEmpty
          || !e.remote_left.isEmpty || decide (recordRoom s < own.length) || (tslFree s 0 32768).isNone then s
      else
        let cmd := e.admitted.stamp.toNat
        let s := each (localChanges s own rim) (fun p s => match p.2 with
          | some r =>
            let (st, s) := takeStamp s
            holdChange (recordKind e) e.sqe.ns 0 r.1 r.2 st s
          | none =>
            holdUnit e.sqe.ns p.1 (sealUnit s e.sqe.ns p.1 n.lbaf (zeroed n e p.1 (e.got.look [] p.1))) cmd (countXts 1 s)) s
        let runs := (wholeList n e).flatMap fun l => deviceRuns s e.sqe.ns (l.filter fun u => deviceOf s e.sqe.ns u != s.position)
        let s := each runs (fun r s =>
          let (st, s) := takeStamp s
          sendFrame 0x20 r.2.2 t [recordKind e, e.sqe.ns, deviceUnit s r.1, r.2.1, st.stamp.toNat, st.unanch.toNat] s) s
        let s := each far (fun u s =>
          let p := deviceOf s e.sqe.ns u
          let f := sealUnit s e.sqe.ns u n.lbaf (zeroed n e u (e.got.look [] u))
          let s := sendFrame 0x10 p t [e.sqe.ns, deviceUnit s u, 1, cmd, e.admitted.unanch.toNat, 0] s
          sendFrame 0x11 p t (u :: f.body) (countXts 1 s)) s
        let yards := runs.map (fun r => r.2.2) ++ far.map (deviceOf s e.sqe.ns)
        let s := leaveOverlap t (onEntry t (fun e => { e with effect := true, yards_wait := yards }) s)
        let s := if yards.isEmpty then finishEntry t 0 0 s else onEntry t (fun e => { e with state := .transferring }) s
        pump s

/-- Frames that release the pieces of a command of a halt-on-error queue on yards, once R337 permits (R726). -/
def releaseYards (t : Nat) (s : State) : State :=
  match s.nvme.tracker.find t with
  | some e =>
    if e.sqe.opcode = 0x01 ∧ e.sqid ≠ 0 ∧ onHaltQueue s e ∧ haltPermits s e ∧ e.state = .haltOrder then
      each e.yards_wait.eraseDups (fun p => sendFrame 0x13 p t []) (onEntry t (fun e => { e with state := .transferring }) s)
    else s
  | none => s

/-- What waited for another command goes on, in admission order. -/
def wakeAll (s : State) : State :=
  let l := (sortOn (fun p : Nat × Entry => p.2.admitted.stamp.toNat) (s.nvme.tracker.filter fun p => p.2.sqid != 0 && p.2.state != .done))
  each (l.map Prod.fst) (fun t s =>
    match s.nvme.tracker.find t with
    | none => s
    | some e =>
      let s := if e.unread.isEmpty then s else pumpReads t s
      let s := if e.changes && e.overlap.isEmpty && !e.unstarted then enterOverlap t s else s
      releaseYards t (tryChange t s)) s

end Sys2Proof.Machine
end

