-- ==== Sys2Proof/Machine/HostData.lean ====
section
/-!
DEFINITION. Commands on user data (chapter 8): checks, reads, the write buffer's admission of slices and pieces on the
masthead and on yards (R325 to R334, R722 to R726), Write Zeroes, deallocation and Flush.
-/

namespace Sys2Proof.Machine

/-! ### Taking a command's row -/

/-- The modes in which commands are processed; a Thermal Halt entry has ended them (R49 step 2). -/
def State.serving (s : State) : Bool :=
  s.thermal.entry.isNone && (match s.mode with | .run => true | .reduced => true | .patrol => true | .readOnly => true | _ => false)

/-- The command cores take commands in the order of their admission stamps (R38, R318 level 4); one that has been taken and waits
for a key change is passed. -/
def dispatches (s : State) (e : Entry) : Bool :=
  e.parked || s.nvme.tracker.vals.all fun x => x.state != .fetched || x.parked || decide (e.admitted.stamp.toNat ≤ x.admitted.stamp.toNat)

/-- A command that has been fetched and not begun, from the admin queue or an I/O queue, with the opcode of a row. -/
def fetchedEntry (t : Nat) (admin : Bool) (opcode : Nat) (s : State) : Option Entry :=
  match s.nvme.tracker.find t with
  | some e =>
    if e.state == .fetched && dispatches s e && ((e.sqid == 0) == admin) && e.sqe.opcode.toNat == opcode && s.serving && !s.yard then some e else none
  | none => none

/-- Run the row of a command, where it names one that waits for it. -/
def runEntry (t : Nat) (admin : Bool) (opcode : Nat) (f : Entry → State → State) (s : State) : Host.Outcome State Fault Refusal :=
  match fetchedEntry t admin opcode s with
  | some e => .next (f e s)
  | none => .next s

/-- The first status of a list that is not success. -/
def firstStatus (l : List Nat) : Nat := (l.find? fun x => x != 0).getD 0

/-- A status where a condition holds, success otherwise. -/
def failIf (b : Bool) (status : Nat) : Nat := if b then status else 0

/-! ### Checks -/

/-- Bytes of the largest transfer (R321). -/
def mdtsBytes : Nat := 2 ^ 24

/-- A controller has the namespace attached. -/
def Namespace.attachedTo (n : Namespace) (c : Nat) : Bool := if c = 0 then n.attached0 else n.attached1

/-- The NSID names an active namespace of the controller. -/
def nsidStatus (s : State) (e : Entry) : Nat :=
  let k := e.sqe.nsid.toNat
  if k = 0 ∨ s.cmd.cfg.ns_limit.toNat < k then Status.invalidNamespace
  else match s.nspace e.sqe.ns with
    | some n => if !n.attachedTo e.ctrl then Status.invalidField else if n.closing.isSome then Status.formatInProgress else 0
    | none => Status.invalidField

/-- LBA ranges lie in the namespace, and together within MDTS (R321). -/
def rangeStatus (n : Namespace) (l : List (Nat × Nat)) : Nat :=
  if l.any fun r => decide (n.nsze < r.1 + r.2) then Status.lbaRange
  else failIf (decide (mdtsBytes < total (l.map fun r => transferLength n r.2))) Status.invalidField

/-- Registrant of a controller's host (R304). -/
def registrant (s : State) (n : Namespace) (c : Nat) : Option Registrant :=
  n.reservation.registrants.find? fun r => some r.host_id == (s.ctrl c).host_id

/-- The controller's host holds the reservation: every registrant does in the all-registrants types. -/
def holdsReservation (s : State) (n : Namespace) (c : Nat) : Bool :=
  match (s.ctrl c).host_id with
  | some h => if 5 ≤ n.reservation.type then (registrant s n c).isSome else n.reservation.holder == some h
  | none => false

/-- A reservation refuses a read or a write of the controller (R304, NVM Express Base Specification). -/
def conflict (s : State) (n : Namespace) (c : Nat) (write : Bool) : Bool :=
  let r := n.reservation
  if r.type = 0 ∨ holdsReservation s n c then false
  else
    let member := (registrant s n c).isSome
    match r.type with
    | 1 => write
    | 2 => true
    | 3 => write && !member
    | 5 => write && !member
    | _ => !member

/-- A GenKey is in progress on a range that holds an LBA: new commands to it wait (R657). -/
def keyWaits (s : State) (ns : Nat) (lbaf : Nat) (l : List (Nat × Nat)) : Bool :=
  match s.security.genkey with
  | some g => l.any fun r => (rangesTouched s ns r.1 r.2 lbaf).any g.slots.contains
  | none => false

/-- The one LBA range of a command. -/
def oneRange (e : Entry) : List (Nat × Nat) := [(e.sqe.slba, e.sqe.blocks)]

/-- Checks that every command on LBAs makes before its own. -/
def lbaChecks (s : State) (e : Entry) (n : Namespace) (l : List (Nat × Nat)) : List Nat :=
  [failIf (e.sqe.fuse != 0) Status.invalidField, nsidStatus s e, rangeStatus n l]

/-- Begin a command on LBAs: it ends with the first failing check, waits for a GenKey on its range, or goes on. -/
def beginLba (t : Nat) (l : Entry → List (Nat × Nat)) (checks : Namespace → Entry → State → List Nat)
    (go : Namespace → Entry → State → State) (e : Entry) (s : State) : State :=
  match s.nspace e.sqe.ns with
  | none => finishEntry t (firstStatus [failIf (e.sqe.fuse != 0) Status.invalidField, nsidStatus s e]) 0 s
  | some n =>
    let st := firstStatus (lbaChecks s e n (l e) ++ checks n e s)
    if st ≠ 0 then finishEntry t st 0 s
    else if keyWaits s e.sqe.ns n.lbaf (l e) then onEntry t (fun e => { e with parked := true }) s
    else
      let e := { e with ranges := l e }
      go n e { s with nvme.tracker := s.nvme.tracker.put t e }

/-- The device refuses changes of user data (R44). -/
def protectedStatus (s : State) : Nat := failIf (decide (s.mode = .readOnly)) Status.writeProtected

/-! ### Reads (R332, R348, R654) -/

/-- Units that a command touches. -/
def allUnits (n : Namespace) (e : Entry) : List Nat :=
  (touchedUnits n e).flatMap fun r => (List.range r.2).map fun i => r.1 + i

/-- Checks of a command that reads. -/
def readChecks (n : Namespace) (e : Entry) (s : State) : List Nat :=
  [failIf (conflict s n e.ctrl false) Status.reservationConflict,
   failIf (readLocked s e.sqe.ns e.sqe.slba e.sqe.blocks n.lbaf) Status.accessDenied]

/-- Bytes of separate metadata of a command. -/
def separateBytes (n : Namespace) (count : Nat) : Nat := transferBytes n count - transferLength n count

/-- IO_READ (R332). -/
def execIoRead (entry : Nat) (ptr : DataPtr) (s : State) : Host.Outcome State Fault Refusal :=
  runEntry entry false 0x02 (beginLba entry oneRange
    (fun n e s => readChecks n e s ++ [pointerStatus ptr (transferLength n e.sqe.blocks) true])
    (fun n e s =>
      let s := each (touchedUnits n e) (fun r => noteStream e.sqe.ns r.1 r.2) s
      pumpReads entry (onEntry entry (fun x => { x with state := .overlap, ptr := ptr, unread := allUnits n e }) s))) s

/-- IO_VERIFY (R348): reads and transfers nothing. -/
def execIoVerify (entry : Nat) (s : State) : Host.Outcome State Fault Refusal :=
  runEntry entry false 0x0C (beginLba entry oneRange readChecks
    (fun n e s => pumpReads entry (onEntry entry (fun x => { x with state := .overlap, unread := allUnits n e }) s))) s

/-- A compare whose host data is here waits for its units only. -/
def compareArrived (t : Nat) (s : State) : State :=
  match s.nvme.tracker.find t with
  | some e =>
    if e.sqe.opcode = 0x05 ∧ e.sqid ≠ 0 ∧ e.state = .transferring ∧ !dataDue s t e.ctrl 0 (2 * mdtsBytes) then
      readsEnd t (onEntry t (fun e => { e with state := .overlap }) s)
    else s
  | none => s

/-- IO_COMPARE (R348): reads like a read, and compares with host data. -/
def execIoCompare (entry : Nat) (ptr : DataPtr) (s : State) : Host.Outcome State Fault Refusal :=
  runEntry entry false 0x05 (beginLba entry oneRange
    (fun n e s => readChecks n e s ++ [pointerStatus ptr (transferLength n e.sqe.blocks) false])
    (fun n e s =>
      let len := transferLength n e.sqe.blocks
      let s := onEntry entry (fun x => { x with state := .transferring, ptr := ptr, unread := allUnits n e }) s
      let s := fetchData entry len (separateBytes n e.sqe.blocks) 0 (transferBytes n e.sqe.blocks) s
      compareArrived entry (pumpReads entry s))) s

/-! ### Writes: slices and pieces (R325) -/

/-- A run of units cut at the multiples of `m`. -/
def cutUnits (m : Nat) : Nat → Nat × Nat → List (Nat × Nat)
  | 0, _ => []
  | k + 1, (a, n) =>
    if n = 0 then []
    else
      let c := min n (m - a % m)
      (a, c) :: cutUnits m k (a + c, n - c)

/-- Slices of a write: at 1 MiB boundaries, with their pieces at 512 KiB boundaries. -/
def slicesOf (s : State) (n : Namespace) (e : Entry) : List Slice :=
  let u := unitsOf n.lbaf e.sqe.slba e.sqe.blocks
  (cutUnits 256 (u.2 / 256 + 2) u).map fun r =>
    { pieces := (cutUnits 128 4 r).map fun p => { unit := p.1, units := p.2 }, position := deviceOf s e.sqe.ns r.1 }

/-- IO_WRITE (R325): the write is cut, and its slices wait for admission. -/
def execIoWrite (entry : Nat) (ptr : DataPtr) (s : State) : Host.Outcome State Fault Refusal :=
  runEntry entry false 0x01 (beginLba entry oneRange
    (fun n e s => [protectedStatus s, failIf s.pwr.status.below_floor Status.notReady,
                   failIf (conflict s n e.ctrl true) Status.reservationConflict,
                   pointerStatus ptr (transferLength n e.sqe.blocks) false])
    (fun n e s => onEntry entry (fun x => { x with state := .admitting, ptr := ptr, slices := slicesOf s n e }) s)) s

/-- Units of a slice. -/
def Slice.span (x : Slice) : Nat × Nat :=
  match x.pieces with
  | [] => (0, 0)
  | p :: _ => (p.unit, total (x.pieces.map Piece.units))

/-- Byte ranges of a transfer that units of a write take: data, and separate metadata. -/
def bytesOf (n : Namespace) (e : Entry) (r : Nat × Nat) : (Nat × Nat) × (Nat × Nat) :=
  let k := lbasPerUnit n.lbaf
  let a := max e.sqe.slba (r.1 * k) - e.sqe.slba
  let b := min (e.sqe.slba + e.sqe.blocks) ((r.1 + r.2) * k) - e.sqe.slba
  let md := if n.extended then 0 else lbaMeta n.lbaf
  ((dataAt n a, (b - a) * lbaBytes n), (e.sqe.blocks * lbaData n.lbaf + a * md, (b - a) * md))

/-- The first slice of a write not admitted, by position in the command. -/
def nextSlice (e : Entry) : Option (Nat × Slice) :=
  (e.slices.zipIdx.find? fun p => !p.1.admitted).map fun p => (p.2, p.1)

/-- An earlier write has an unadmitted slice that meets these units (R326). -/
def meetsUnadmitted (s : State) (e : Entry) (r : Nat × Nat) : Bool :=
  (earlier s e).any fun x => x.sqe.opcode == 0x01 && x.state != .done
    && x.slices.any fun y => !y.admitted && unitsMeet y.span r

/-- The write buffer and its index have room for `units` more (R326, R162). -/
def bufferRoom (s : State) (units : Nat) : Bool :=
  decide (slotsReserved s + units ≤ slotsTotal s) && decide (occupancyWith s units ≤ s.pwr.shroudAllow.toNat)
    && (tslFree s 0 32768).isSome && s.teasel.inserts.isEmpty

/-- A slice enters the write buffer: its descriptor, and its entry in banks 0 to 7. -/
def admitSlice (ns : Nat) (r : Nat × Nat) (stamp : Nat) (s : State) : Nat × State :=
  let d := s.shroud.slices.fresh 0 (s.shroud.slices.length + 1)
  let x : SliceDesc := { ns_index := ns, first := r.1, units := r.2, stamp := stamp }
  (d, tslOrdered (sliceEntry x d) { s with shroud.slices := s.shroud.slices.put d x })

/-- Mark slice `i` of a command admitted. -/
def markAdmitted (t i d : Nat) (s : State) : State :=
  onEntry t (fun e => { e with slices := e.slices.zipIdx.map fun p =>
    if p.2 = i then { p.1 with admitted := true, desc := d } else p.1 }) s

/-- Fetch the data of a slice and read the units it covers in part (R334). -/
def startSlice (t : Nat) (n : Namespace) (e : Entry) (r : Nat × Nat) (s : State) : State :=
  let part := (partUnits n.lbaf e.sqe.slba e.sqe.blocks).filter fun u => inUnits u r
  let s := onEntry t (fun e => { e with unread := e.unread ++ part, state := if onHaltQueue s e then .haltOrder else .transferring }) s
  let b := bytesOf n e r
  let len := transferLength n e.sqe.blocks
  let md := separateBytes n e.sqe.blocks
  pumpReads t (fetchData t len md b.2.1 b.2.2 (fetchData t len md b.1.1 b.1.2 s))

/-- Admit a slice of this device, or send it to the yard that holds it (R326, R722). -/
def admitNext (t i : Nat) (x : Slice) (n : Namespace) (e : Entry) (s : State) : State :=
  let r := x.span
  if x.position = s.position then
    let (d, s) := admitSlice e.sqe.ns r e.admitted.stamp.toNat s
    startSlice t n e r (markAdmitted t i d s)
  else
    let s := markAdmitted t i 0 (onEntry t (fun e => { e with yards_wait := e.yards_wait ++ [x.position] }) s)
    let s := sendFrame 0x10 x.position (t + 2 ^ 18 * i) [e.sqe.ns, deviceUnit s r.1, r.2, e.admitted.stamp.toNat,
      e.admitted.unanch.toNat, (onHaltQueue s e).toNat] s
    startSlice t n e r s

/-- The next slice of a write meets R326; a slice of a yard is sent to it, which has its own buffer. -/
def mayAdmit (s : State) (e : Entry) : Bool :=
  match nextSlice e with
  | some (_, x) => !meetsUnadmitted s e x.span && (x.position != s.position || bufferRoom s x.span.2)
      && !(e.unstarted && (tslFree s 32768 16384).isNone) && e.broken.isNone
  | none => false

/-- Whether the arbiter lets a waiting slice go (R327): none before it meets R326, unless the ceiling names it; while the ceiling
names a slice, no other goes. -/
def granted (s : State) (t stamp : Nat) (meets : Nat → Bool) : Bool :=
  match s.nvme.ceiling with
  | some c => c == t
  | none => !((waitingSlices s).any fun p => decide (p.2 < stamp) && meets p.1)

/-- Admission of a write's next slice on the device that faces the host. -/
def hostAdmit (t : Nat) (s : State) : State :=
  match s.nvme.tracker.find t with
  | none => s
  | some e => match commandSpace s e, nextSlice e with
    | some n, some (i, x) =>
      let meets := fun t => match s.nvme.tracker.find t with | some e => mayAdmit s e | none => false
      if !s.serving || !e.waits || !mayAdmit s e || !granted s t e.admitted.stamp.toNat meets then s
      else if e.unstarted && writeLocked s e.sqe.ns e.sqe.slba e.sqe.blocks n.lbaf then failEntry t Status.accessDenied 0 s
      else if onLostYard s e.sqe.ns [x.span.1] then failEntry t Status.notReady 0 s
      else
        let first := e.unstarted
        let s := { s with nvme.ceiling := none }
        let s := admitNext t i x n e s
        if first then enterOverlap t s else s
    | _, _ => s

/-! ### Slices on a yard (R722, R724, R726) -/

/-- Pieces of a yard's slice: first unit of the namespace, and units. -/
def YardSlice.pieces (s : State) (y : YardSlice) : List (Nat × Nat) := cutUnits 128 (y.units / 128 + 2) (unitOfDevice s y.first, y.units)

/-- Change the slice of a tag. -/
def onYardSlice (tag : Nat) (f : YardSlice → YardSlice) (s : State) : State :=
  { s with keaka.slices := s.keaka.slices.map fun y => if y.tag = tag then f y else y }

/-- A slice on a yard meets R326: there is room, and no unadmitted slice of an earlier command meets it. -/
def yardMayAdmit (s : State) (y : YardSlice) : Bool :=
  bufferRoom s y.units && !(s.keaka.slices.any fun z => !z.admitted && z.ns_index == y.ns_index
    && decide (z.stamp.stamp.toNat < y.stamp.stamp.toNat) && unitsMeet (z.first, z.units) (y.first, y.units))

/-- A yard admits a slice it was sent; the slices of one command in the order sent, which is ascending (R327, R722). -/
def yardAdmit (tag : Nat) (s : State) : State :=
  match s.keaka.slices.find? fun y => y.tag == tag && !y.admitted with
  | some y =>
    let meets := fun t => match s.keaka.slices.find? fun z => z.tag == t && !z.admitted with | some z => yardMayAdmit s z | none => false
    let first := s.keaka.slices.find? fun z => !z.admitted && z.stamp == y.stamp
    if s.serving && yardMayAdmit s y && first == some y && granted s tag y.stamp.stamp.toNat meets then
      let (d, s) := admitSlice y.ns_index (unitOfDevice s y.first, y.units) y.stamp.stamp.toNat { s with nvme.ceiling := none }
      onYardSlice tag (fun y => { y with admitted := true, desc := d }) s
    else s
  | none => s

/-- SLICE_ADMIT (R326, R327): the next slice of a write; on a yard the slice of a tag. -/
def execSliceAdmit (entry : Nat) (s : State) : Host.Outcome State Fault Refusal :=
  .next (if s.yard then yardAdmit entry s else hostAdmit entry s)

/-! ### Pieces held (R328, R88) -/

/-- Units enter the Shroud, each with its stamp, in ascending order. -/
def holdUnits (ns slice cmd : Nat) (l : List (Nat × Frame)) (s : State) : State :=
  each l (fun p s => match globalUnit s ns p.1 with
    | none => s
    | some g =>
      let (st, s) := takeStamp s
      let u : HeldUnit := { unit := g, ns_index := ns, ns_unit := p.1, stamp := st, frame := p.2, slice := slice, cmd := cmd }
      { s with shroud.held := s.shroud.held ++ [u] }) { s with nvme.clean := false }

/-- A write is complete when every piece is held, or when every piece before a unit it could not merge is (R334). -/
def writeEnd (t : Nat) (s : State) : State :=
  match s.nvme.tracker.find t with
  | none => s
  | some e =>
    if e.state = .done ∨ e.slices.isEmpty then s
    else
      let ps := e.slices.flatMap Slice.pieces
      match e.broken with
      | some u => if (ps.filter fun p => decide (p.unit + p.units ≤ u)).all Piece.held then failEntry t e.status 0 s else s
      | none => if ps.all Piece.held then finishEntry t 0 0 (leaveOverlap t s) else s

/-- Mark piece `j` of slice `i` held. -/
def markHeld (t i j : Nat) (s : State) : State :=
  onEntry t (fun e => { e with slices := e.slices.zipIdx.map fun p =>
    if p.2 = i then { p.1 with pieces := p.1.pieces.zipIdx.map fun q => if q.2 = j then { q.1 with held := true } else q.1 }
    else p.1 }) s

/-- The host data of units of a write is here, merged units included. -/
def unitsHere (s : State) (t : Nat) (n : Namespace) (e : Entry) (r : Nat × Nat) : Bool :=
  let b := bytesOf n e r
  !dataDue s t e.ctrl b.1.1 b.1.2 && !dataDue s t e.ctrl b.2.1 b.2.2
    && (partUnits n.lbaf e.sqe.slba e.sqe.blocks).all fun u => !inUnits u r || e.got.has u

/-- Unit `u` of a write as it is stored. -/
def writtenFrame (s : State) (n : Namespace) (e : Entry) (u : Nat) : Frame :=
  sealUnit s e.sqe.ns u n.lbaf (unitOfWrite n e.sqe.slba e.sqe.blocks e.buffer u (e.got.look [] u))

/-- The pieces of a write below piece `j` of slice `i` that this device holds are held: stamps of one command rise with the
LBA (R88). -/
def lowerHeld (s : State) (e : Entry) (i j : Nat) : Bool :=
  (e.slices.zipIdx.all fun p => !(decide (p.2 < i) && p.1.position == s.position) || p.1.pieces.all Piece.held)
    && match e.slices[i]? with
      | some x => (x.pieces.take j).all Piece.held
      | none => true

/-- A piece of a write on this device becomes held. -/
def hostHeld (t i j : Nat) (s : State) : State :=
  match s.nvme.tracker.find t with
  | none => s
  | some e => match commandSpace s e, e.slices[i]? with
    | some n, some x => match x.pieces[j]? with
      | some p =>
        let r := (p.unit, p.units)
        if !s.serving || e.state == .done || !x.admitted || x.position != s.position || p.held || !unitsHere s t n e r
            || blocked s n e r || !haltPermits s e || !lowerHeld s e i j || (match e.broken with | some u => decide (u < p.unit + p.units) | none => false)
        then s
        else
          let units := (List.range p.units).map fun k => p.unit + k
          let l := units.map fun u => (u, writtenFrame s n e u)
          let s := holdUnits e.sqe.ns x.desc e.admitted.stamp.toNat l (countXts p.units s)
          let s := writeEnd t (markHeld t i j (onEntry t (fun e => { e with effect := true }) s))
          settleMedia (wakeAll s)
      | none => s
    | _, _ => s

/-- An earlier slice of the yard still has unheld pieces that meet these units (R724). -/
def yardBlocked (s : State) (tag ns : Nat) (r : Nat × Nat) : Bool :=
  (s.keaka.slices.takeWhile fun y => y.tag != tag).any fun y =>
    y.ns_index == ns && (y.pieces s).zipIdx.any fun p => !y.held.contains p.2 && unitsMeet p.1 r

/-- The lower pieces of the slice, and the earlier slices of its command, are held (R88). -/
def yardLowerHeld (s : State) (tag j : Nat) (y : YardSlice) : Bool :=
  (List.range j).all y.held.contains
    && !((s.keaka.slices.takeWhile fun z => z.tag != tag).any fun z => z.tag % 2 ^ 18 == tag % 2 ^ 18)

/-- A piece of a yard's slice becomes held, and the masthead is told (R722). -/
def yardHeld (tag j : Nat) (s : State) : State :=
  match s.keaka.slices.find? fun y => y.tag == tag with
  | none => s
  | some y => match (y.pieces s)[j]? with
    | none => s
    | some r =>
      let units := (List.range r.2).map fun k => r.1 + k
      if !s.serving || !y.admitted || y.held.contains j || !units.all y.received.has || (y.halt && !y.released && !y.permitted.contains j)
          || yardBlocked s tag y.ns_index r || !yardLowerHeld s tag j y then s
      else
        let s := holdUnits y.ns_index y.desc y.stamp.stamp.toNat (units.map fun u => (u, y.received.look {} u)) s
        let s := onYardSlice tag (fun y => { y with held := y.held ++ [j] }) s
        let s := { s with keaka.slices := s.keaka.slices.filter fun y => !(y.tag == tag && y.held.length == (y.pieces s).length) }
        settleMedia (wakeAll (sendFrame 0x12 0 tag [0, j] s))

/-- PIECE_HELD (R328): piece `piece` of slice `slice` of a write; on a yard, of the slice of a tag. -/
def execPieceHeld (entry slice piece : Nat) (s : State) : Host.Outcome State Fault Refusal :=
  .next (if s.yard then yardHeld entry piece s else hostHeld entry slice piece s)

/-- Send the units of a write that yards hold and that are here (R722). -/
def sendUnits (t : Nat) (s : State) : State :=
  match s.nvme.tracker.find t with
  | none => s
  | some e => match commandSpace s e with
    | none => s
    | some n =>
      if e.sqe.opcode ≠ 0x01 ∨ e.sqid = 0 ∨ e.state = .done then s
      else
        let far := (e.slices.zipIdx.filter fun p => p.1.admitted && p.1.position != s.position).flatMap fun p =>
          (List.range p.1.span.2).map fun k => (p.2, p.1.position, p.1.span.1 + k)
        let ready := far.filter fun q => !e.sent.contains q.2.2 && unitsHere s t n e (q.2.2, 1)
        let s := onEntry t (fun e => { e with sent := e.sent ++ ready.map fun q => q.2.2 }) s
        each ready (fun q s => sendFrame 0x11 q.2.1 (t + 2 ^ 18 * q.1) (q.2.2 :: (writtenFrame s n e q.2.2).body) (countXts 1 s)) s

/-- Data of a command has arrived, or a unit it merges has been read. -/
def dataArrived (t : Nat) (s : State) : State := compareArrived t (sendUnits t s)

/-! ### Changes without host data, Flush -/

/-- Begin a Write Zeroes or deallocation. -/
def beginChange (t : Nat) (n : Namespace) (e : Entry) (s : State) : State :=
  let s := onEntry t (fun x => { x with state := .overlap, unread := edges n e }) s
  tryChange t (pumpReads t (enterOverlap t s))

/-- Checks of a command that changes user data and brings none. -/
def changeChecks (l : Entry → List (Nat × Nat)) (n : Namespace) (e : Entry) (s : State) : List Nat :=
  [protectedStatus s, failIf (conflict s n e.ctrl true) Status.reservationConflict,
   failIf ((l e).any fun r => writeLocked s e.sqe.ns r.1 r.2 n.lbaf) Status.accessDenied]

/-- IO_WRITE_ZEROES (R381): DEAC makes no difference, since both kinds of record unmap. -/
def execIoWriteZeroes (entry : Nat) (s : State) : Host.Outcome State Fault Refusal :=
  runEntry entry false 0x08 (beginLba entry oneRange (changeChecks oneRange) (beginChange entry)) s

/-- Ranges of a Dataset Management command: NR entries of 16 bytes; a length of 0 covers nothing. -/
def dsmRanges (data : Bytes) (e : Entry) : List (Nat × Nat) :=
  ((List.range (e.sqe.cdw10.toNat % 256 + 1)).map fun i => (field data (16 * i + 8) 8, field data (16 * i + 4) 4)).filter
    fun r => r.2 != 0

/-- DATASET_MANAGEMENT (R381): deallocation only; without AD the hints are ignored. -/
def execDatasetManagement (entry : Nat) (data : Bytes) (s : State) : Host.Outcome State Fault Refusal :=
  runEntry entry false 0x09 (fun e s =>
    if !e.sqe.cdw11.getLsbD 2 then
      finishEntry entry (firstStatus [failIf (e.sqe.fuse != 0) Status.invalidField, nsidStatus s e]) 0 s
    else if (dsmRanges data e).isEmpty then finishEntry entry (nsidStatus s e) 0 s
    else beginLba entry (dsmRanges data) (changeChecks (dsmRanges data)) (beginChange entry) e s) s

/-- IO_FLUSH (R353): every write that has completed is held already. -/
def execIoFlush (entry : Nat) (s : State) : Host.Outcome State Fault Refusal :=
  runEntry entry false 0x00 (fun e s =>
    finishEntry entry (firstStatus [failIf (e.sqe.fuse != 0) Status.invalidField,
      if e.sqe.nsid = 0xFFFFFFFF then 0 else nsidStatus s e]) 0 s) s

end Sys2Proof.Machine
end

