-- ==== Sys2Proof/Machine/NamespaceOps.lean ====
section
/-!
DEFINITION. Namespace Management, Namespace Attachment and Format NVM (R345 to R347, R361 to R363, R708, R728), and the
first format (R408, R430, R482, R545, R650).
-/

namespace Sys2Proof.Machine

/-! ### Device units and chunks -/

/-- Units below namespace unit `x` that position `p` holds, by device unit offset (table "Layouts"). -/
def devBefore (s : State) (p x : Nat) : Nat :=
  if s.kk.cfg.layout = 1 then
    let w := 256 * deviceCount s
    x / w * 256 + min 256 (x % w - 256 * p)
  else x

/-- Device unit offsets of a range of namespace units on position `p`: first and count. -/
def deviceSpan (s : State) (p : Nat) (r : Nat × Nat) : Nat × Nat :=
  (devBefore s p r.1, devBefore s p (r.1 + r.2) - devBefore s p r.1)

/-- Ranges that follow one another become one. -/
def mergeRuns : List (Nat × Nat) → List (Nat × Nat)
  | [] => []
  | (a, n) :: rest => match mergeRuns rest with
    | (b, m) :: l => if a + n = b then (a, n + m) :: l else (a, n) :: (b, m) :: l
    | [] => [(a, n)]

/-- Global units of a range of a namespace's device units on this device: first and count of each run. -/
def chunkRuns (s : State) (ns : Nat) (d : Nat × Nat) : List (Nat × Nat) :=
  mergeRuns ((s.engine.chunks.filter fun p => p.2.1 == ns).filterMap fun p =>
    let a := max d.1 (p.2.2 * chunkUnits)
    let b := min (d.1 + d.2) ((p.2.2 + 1) * chunkUnits)
    if a < b then some (p.1 * chunkUnits + (a - p.2.2 * chunkUnits), b - a) else none)

/-- Chunks of a namespace, over all devices. -/
def Namespace.chunks (n : Namespace) : Nat := n.nsze * lbaData n.lbaf / 2 ^ 30

/-- Units of a namespace. -/
def Namespace.units (n : Namespace) : Nat := n.nsze / lbasPerUnit n.lbaf

/-- Chunk ordinals of a namespace that position `p` holds (R707, R708). -/
def ordinalsOn (s : State) (n : Namespace) (p : Nat) : List Nat :=
  match s.kk.cfg.layout.toNat with
  | 0 => if p = 0 then List.range n.chunks else []
  | 1 => List.range (n.chunks / deviceCount s)
  | 2 => (List.range n.chunks).filter fun o => n.placed.getD o 0 == p
  | _ => if n.home = p then List.range n.chunks else []

/-- Positions of the yards of a cascade that hold a part of a namespace. -/
def yardsOf (s : State) (n : Namespace) : List Nat :=
  (List.range (deviceCount s)).filter fun p => decide (0 < p) && !(ordinalsOn s n p).isEmpty

/-- Free chunks of a position (R361, R710). -/
def chunksFree (s : State) (p : Nat) : Nat :=
  if p = s.position then chunkCount s - 1 - s.engine.chunks.length
  else Config.yardCapacityGb p * 10 ^ 9 / 2 ^ 30 - 1
    - total (s.nvme.namespaces.vals.map fun n => (ordinalsOn s n p).length)

/-- Configured user capacity in bytes (R710). -/
def userCapacity (s : State) : Nat :=
  (s.map.capacityGb.toNat + total ((List.range (s.kk.cfg.count.toNat)).map fun i => Config.yardCapacityGb (i + 1))) * 10 ^ 9

/-! ### Records -/

/-- Hold records of a kind for runs of global units (R363, R381). -/
def holdRuns (kind ns : Nat) (l : List (Nat × Nat)) (s : State) : State :=
  each l (fun r s => let (st, s) := takeStamp s; holdChange kind ns 0 r.1 r.2 st s) s

/-- Assign free chunks to ordinals of a namespace, lowest first (R361). -/
def assignChunks (ns : Nat) (ordinals : List Nat) (s : State) : State :=
  each (ordinals.zip (freeChunks s ordinals.length)) (fun p s =>
    let (st, s) := takeStamp s
    holdChange 3 ns p.1 (p.2 * chunkUnits) chunkUnits st { s with engine.chunks := s.engine.chunks.put p.2 (ns, p.1) }) s

/-- Release a namespace's chunks, at most `n` of them. -/
def releaseChunks (ns n : Nat) (s : State) : State :=
  each ((s.engine.chunks.filter fun p => p.2.1 == ns).take n) (fun p s =>
    let (st, s) := takeStamp s
    let s := holdChange 4 ns p.2.2 (p.1 * chunkUnits) chunkUnits st s
    { s with engine.chunks := s.engine.chunks.drop p.1 }) s

/-! ### Keys and the security store (R630, R650) -/

/-- The head of a unit of the store, its CRC-32 left to `withCrc 28` (R650). -/
def storeHead (s : State) (part : Nat) : Bytes :=
  leBytes 6 0x5A474B455953 ++ leBytes 2 s.security.store_stamp.unanch.toNat ++ leBytes 8 s.security.store_stamp.stamp.toNat
    ++ leBytes 4 s.security.store_seq ++ leBytes 1 part ++ leBytes 11 0

/-- A unit of the store that carries a piece of the sealed message (R650). -/
def storeUnit (s : State) (part : Nat) (piece : Bytes) : Bytes := withCrc 28 (fitTo 4096 (storeHead s part ++ piece))

/-- The store as it stands is sealed under a nonce of its own and made durable in both stays (R650, R638). -/
def storeDurable (s : State) : State :=
  let (st, s) := takeStamp (takeNonce (openLane s) s).2
  { s with security.durable := some s.security.store, security.store_seq := s.security.store_seq + 1, security.store_stamp := st }

/-- A new media key for each slot (R630). -/
def drawKeys (slots : List Nat) (s : State) : State :=
  each slots (fun k s => { s with
    security.keys_drawn := s.security.keys_drawn + 1
    security.store.keys := s.security.store.keys.put k (s.security.keys_drawn + 1) }) s

/-! ### The first format -/

/-- The first format fixes S_0 and the shape, chooses the stays, writes the redundancy page and on a masthead draws the
keys and writes the first store (R408, R430, R482, R545, R650, R730). -/
def firstFormat (s : State) : State :=
  if s.engine.formatted then s
  else
    let s := { s with engine.formatted := true, reclaim.formatted := true }
    let s := match (List.range 48).findSome? fun c => stayDieOn s c none with
      | some a =>
        let s := setStay false { die := a } s
        match stayPartner s (dieChannel a) with
        | some b => setStay true { die := b } s
        | none => s
      | none => s
    let s := recount (fillSets s)
    let n := (max 0 s.rcl.spares.spares.toInt).toNat
    let s := writeRedPage { s with rcl.spares.initial := sat _ n, reclaim.initial := n }
    if s.yard then s else storeDurable (drawKeys (List.range 65) s)

/-! ### Admin commands on every device concerned (R728) -/

/-- An admin command that has been fetched, or is under way, with an opcode. -/
def adminEntry (t opcode : Nat) (s : State) : Option Entry :=
  match s.nvme.tracker.find t with
  | some e =>
    if ((e.state == .fetched && dispatches s e) || e.state == .overlap) && e.sqid == 0 && e.sqe.opcode.toNat == opcode && s.serving && !s.yard then some e
    else none
  | none => none

/-- Report a change of a namespace's attributes to a controller. -/
def nsChanged (ns c : Nat) (s : State) : State :=
  let s := noteMi c Mi.nac <| onCtrl c (fun k => { k with ns_changed := if k.ns_changed.contains ns then k.ns_changed else k.ns_changed ++ [ns] }) s
  if (s.ctrl c).async_config.testBit 8 then postAsync c ⟨2, 0, 4⟩ s else s

/-- Report it to every controller that has it attached. -/
def nsChangedAll (ns : Nat) (n : Namespace) (s : State) : State :=
  each (s.enabledCtrls.filter n.attachedTo) (nsChanged ns) s

/-- Namespaces that a delete or format has closed. -/
def closedBy (s : State) (t : Nat) : List (Nat × Namespace) := s.nvme.namespaces.filter fun p => p.2.closing == some t

/-- The command ends: closed namespaces go, or open again. -/
def endNamespaceAdmin (t status dw0 : Nat) (s : State) : State :=
  match s.nvme.tracker.find t with
  | none => s
  | some e =>
    let s := each (closedBy s t) (fun p s =>
      if e.sqe.opcode = 0x0D then nsChangedAll p.1 p.2 { s with nvme.namespaces := s.nvme.namespaces.drop p.1 }
      else nsChangedAll p.1 p.2 (onNamespace p.1 (fun n => { n with closing := none }) s)) s
    finishEntry t status dw0 s

/-- Ask the next yard, or end the command with the first status that was no success. -/
def cascadeNext (t : Nat) (s : State) : State :=
  match s.keaka.admin.find? fun a => a.entry == t with
  | none => s
  | some a =>
    let others := s.keaka.admin.filter fun x => x.entry != t
    match a.waiting with
    | [] =>
      let dw0 := match s.nvme.tracker.find t with | some e => e.dw0 | none => 0
      endNamespaceAdmin t a.status dw0 { s with keaka.admin := others }
    | p :: rest =>
      let ordinals := match a.body with
        | [0, nsid, _] => (match s.nspace (nsid - 1) with | some n => ordinalsOn s n p | none => [])
        | _ => []
      sendFrame 0x28 p t (a.body ++ ordinals) { s with keaka.admin := others ++ [{ a with waiting := rest, asked := some p }] }

/-- The masthead's own part has ended: yards follow in position order. -/
def localEnded (t dw0 : Nat) (yards : List Nat) (body : List Nat) (s : State) : State :=
  let s := onEntry t (fun e => { e with state := .overlap, dw0 := dw0 }) s
  cascadeNext t { s with keaka.admin := s.keaka.admin ++ [{ entry := t, waiting := yards, body := body }] }

/-- A command's own part has been done and yards are being asked. -/
def askingYards (s : State) (t : Nat) : Bool := s.keaka.admin.any fun a => a.entry == t

/-! ### Create (R345, R708) -/

/-- The namespace that a create asks for. -/
def newNamespace (data : Bytes) : Namespace :=
  let f := field data 26 1
  { nsze := field data 0 8, lbaf := f % 16, extended := f.testBit 4 && lbaMeta (f % 16) != 0 }

/-- Positions that take the ordinals of a namespace under Deepen: the lowest free chunk in the cascade's numbering. -/
def deepenPlaces (s : State) (k : Nat) : List Nat :=
  ((List.range (deviceCount s)).flatMap fun p => List.replicate (min k (chunksFree s p)) p).take k

/-- The home under Multiply: the device with the most free chunks that holds the namespace, lowest position first. -/
def multiplyHome (s : State) (k : Nat) : Option Nat :=
  leastOn (fun p => 2 ^ 32 - chunksFree s p) ((List.range (deviceCount s)).filter fun p => decide (k ≤ chunksFree s p))

/-- Place a namespace's chunks; none where they do not fit. -/
def place (s : State) (n : Namespace) : Option Namespace :=
  match s.kk.cfg.layout.toNat with
  | 0 => if n.chunks ≤ chunksFree s 0 then some n else none
  | 1 => if (List.range (deviceCount s)).all fun p => decide (n.chunks / deviceCount s ≤ chunksFree s p) then some n else none
  | 2 =>
    let l := deepenPlaces s n.chunks
    if l.length = n.chunks then some { n with placed := l } else none
  | _ => (multiplyHome s n.chunks).map fun p => { n with home := p }

/-- Status of a create, but for room. -/
def createStatus (s : State) (e : Entry) (data : Bytes) : Nat :=
  let n := newNamespace data
  let unit := 2 ^ 30 / lbaData n.lbaf * (if s.kk.cfg.layout = 1 then deviceCount s else 1)
  firstStatus [failIf (e.sqe.cdw10.toNat % 16 != 0) Status.invalidField,
    failIf (decide (3 < n.lbaf) || decide (32 ≤ field data 26 1)) Status.invalidFormat,
    failIf (field data 29 1 != 0) Status.invalidField,
    failIf (decide (n.nsze = 0) || n.nsze % unit != 0) Status.invalidField,
    failIf (field data 8 8 != n.nsze) Status.thinProvisioning,
    failIf (decide (s.mode = .readOnly)) Status.insufficientCapacity,
    failIf (decide (s.cmd.cfg.ns_limit.toNat ≤ s.nvme.namespaces.length)) Status.nsidUnavailable,
    failIf (decide (userCapacity s < total (s.nvme.namespaces.vals.map fun m => m.nsze * lbaData m.lbaf) + n.nsze * lbaData n.lbaf))
      Status.insufficientCapacity]

/-- Hold the assignment records that remain; once all are held the yards follow (R363). -/
def createStep (t ns : Nat) (n : Namespace) (s : State) : State :=
  let left := (ordinalsOn s n s.position).filter fun o => (chunkOf s ns o).isNone
  let s := assignChunks ns (left.take (recordRoom s)) s
  if (left.drop (recordRoom s)).isEmpty && left.all (fun o => (chunkOf s ns o).isSome) then
    localEnded t (ns + 1) (yardsOf s n) [0, ns + 1, n.lbaf] s
  else onEntry t (fun e => { e with state := .overlap, dw0 := ns + 1 }) s

/-- NAMESPACE_CREATE (R345): Namespace Management with a select field other than delete. A create that waits for room
for its records goes on when the row comes again. -/
def execNamespaceCreate (entry : Nat) (data : Bytes) (s : State) : Host.Outcome State Fault Refusal :=
  .next (match adminEntry entry 0x0D s with
    | none => s
    | some e =>
      if e.sqe.cdw10.toNat % 16 = 1 ∨ askingYards s entry then s
      else if e.state = .overlap then
        (match s.nspace (e.dw0 - 1) with
          | some n => createStep entry (e.dw0 - 1) n s
          | none => s)
      else
        let st := createStatus s e data
        if st ≠ 0 then finishEntry entry st 0 s
        else match place s (newNamespace data) with
          | none => finishEntry entry Status.insufficientCapacity 0 s
          | some n =>
            let s := firstFormat s
            let ns := s.nvme.namespaces.fresh 0 1024
            createStep entry ns n { s with nvme.namespaces := s.nvme.namespaces.put ns n })

/-! ### Delete and format (R346, R347, R654, R657) -/

/-- Every command admitted to the namespace before the command `e` has ended. -/
def namespaceQuiet (s : State) (ns : Nat) (e : Entry) : Bool :=
  !(s.nvme.tracker.vals.any fun x => x.sqid != 0 && x.sqe.ns == ns && decide (x.admitted.stamp.toNat < e.admitted.stamp.toNat))

/-- Some LBA of a namespace is write-locked (R654). -/
def namespaceLocked (s : State) (ns : Nat) (n : Namespace) : Bool :=
  let bound := s.security.store.ranges.filter fun p => decide (0 < p.1) && p.2.ns == ns + 1 && decide (0 < p.2.length)
  bound.any (fun p => p.2.write_locked)
    || ((s.range 0).write_locked && decide (total (bound.map fun p => p.2.length) < n.nsze))

/-- Namespaces that a delete or format acts on: one, or every one for the broadcast value. -/
def namespacesNamed (s : State) (e : Entry) : List (Nat × Namespace) :=
  if e.sqe.nsid = 0xFFFFFFFF then s.nvme.namespaces else s.nvme.namespaces.filter fun p => p.1 + 1 == e.sqe.nsid.toNat

/-- Status of an NSID that must name a namespace. -/
def allocatedStatus (s : State) (e : Entry) : Nat :=
  if e.sqe.nsid = 0xFFFFFFFF then 0
  else if e.sqe.nsid = 0 ∨ s.cmd.cfg.ns_limit.toNat < e.sqe.nsid.toNat then Status.invalidNamespace
  else failIf (namespacesNamed s e).isEmpty Status.invalidField

/-- Close namespaces to new commands (R346). -/
def closeNamespaces (t : Nat) (l : List (Nat × Namespace)) (s : State) : State :=
  each l (fun p => onNamespace p.1 fun n => { n with closing := some t }) (onEntry t (fun e => { e with state := .overlap }) s)

/-- Ranges bound to a namespace lose their length and take new keys (R657). -/
def unbindRanges (ns : Nat) (s : State) : State :=
  let slots := (s.security.store.ranges.filter fun p => decide (0 < p.1) && p.2.ns == ns + 1).map Prod.fst
  if slots.isEmpty then s
  else
    let ranges := s.security.store.ranges.over fun k r => if slots.contains k then { r with length := 0 } else r
    storeDurable (drawKeys slots { s with security.store.ranges := ranges })

/-- A delete goes on once its namespaces are quiet: chunk release records, keys, yards. -/
def deleteStep (t : Nat) (e : Entry) (s : State) : State :=
  let l := closedBy s t
  if askingYards s t || !(l.all fun p => namespaceQuiet s p.1 e) then s
  else
    let s := each l (fun p s => releaseChunks p.1 (recordRoom s) s) s
    if l.any (fun p => s.engine.chunks.any fun q => q.2.1 == p.1) then s
    else
      let s := each l (fun p => unbindRanges p.1) s
      localEnded t 0 ((List.range (deviceCount s)).filter fun y => l.any fun p => (yardsOf s p.2).contains y) [1, e.sqe.nsid.toNat] s

/-- NAMESPACE_DELETE (R346): it waits for commands admitted to the namespace, and goes on when the row comes again. -/
def execNamespaceDelete (entry : Nat) (s : State) : Host.Outcome State Fault Refusal :=
  .next (match adminEntry entry 0x0D s with
    | none => s
    | some e =>
      if e.sqe.cdw10.toNat % 16 ≠ 1 then s
      else if e.state = .overlap then deleteStep entry e s
      else
        let l := namespacesNamed s e
        let st := firstStatus [allocatedStatus s e, failIf (l.any fun p => p.2.closing.isSome) Status.formatInProgress,
          failIf (l.any fun p => namespaceLocked s p.1 p.2) Status.accessDenied]
        if st ≠ 0 then finishEntry entry st 0 s
        else deleteStep entry e (closeNamespaces entry l s))

/-- Secure erase setting of a Format NVM. -/
def formatSes (e : Entry) : Nat := e.sqe.cdw10.toNat / 512 % 8

/-- LBA format index of a Format NVM. -/
def formatLbaf (e : Entry) : Nat := e.sqe.cdw10.toNat % 16 + e.sqe.cdw10.toNat / 2 ^ 12 % 4 * 16

/-- A namespace takes an LBA format: its capacity in bytes of data stays. -/
def Namespace.reformat (e : Entry) (n : Namespace) : Namespace :=
  { n with
    nsze := n.nsze * lbaData n.lbaf / lbaData (formatLbaf e)
    lbaf := formatLbaf e
    extended := e.sqe.cdw10.getLsbD 4 && lbaMeta (formatLbaf e) != 0 }

/-- Runs of every unit of namespaces on this device. -/
def wholeRuns (s : State) (l : List (Nat × Namespace)) : List (Nat × List (Nat × Nat)) :=
  l.map fun p => (p.1, chunkRuns s p.1 (0, p.2.units))

/-- A format goes on once its namespaces are quiet: every unit is deallocated; SES 2 takes new keys (R347, R657). -/
def formatStep (t : Nat) (e : Entry) (s : State) : State :=
  let l := closedBy s t
  let runs := wholeRuns s l
  if askingYards s t || !(l.all fun p => namespaceQuiet s p.1 e) || decide (recordRoom s < total (runs.map fun p => p.2.length)) then s
  else
    let yards := (List.range (deviceCount s)).filter fun y => l.any fun p => (yardsOf s p.2).contains y
    let s := firstFormat s
    let s := each runs (fun p => holdRuns 1 p.1 p.2) s
    let s := if formatSes e = 2 ∧ !s.yard then storeDurable (drawKeys (List.range 65) s) else s
    let s := if formatSes e = 0 then s else { s with health.counts.rel_latched := false }
    let named := (namespacesNamed s e).map Prod.fst
    let s := each named (fun i => onNamespace i (Namespace.reformat e)) s
    localEnded t 0 yards [2, e.sqe.nsid.toNat, formatLbaf e, formatSes e] s

/-- FORMAT_NVM (R347): SES 1 and SES 2 act on every namespace; the LBA format changes on the named one only. -/
def execFormatNvm (entry : Nat) (s : State) : Host.Outcome State Fault Refusal :=
  .next (match adminEntry entry 0x80 s with
    | none => s
    | some e =>
      if e.state = .overlap then formatStep entry e s
      else
        let l := if formatSes e = 0 then namespacesNamed s e else s.nvme.namespaces
        let st := firstStatus [allocatedStatus s e, failIf (decide (2 < formatSes e)) Status.invalidField,
          failIf (decide (3 < formatLbaf e) || e.sqe.cdw10.toNat / 32 % 8 != 0) Status.invalidFormat,
          protectedStatus s, failIf (l.any fun p => p.2.closing.isSome) Status.formatInProgress,
          failIf (l.any fun p => namespaceLocked s p.1 p.2) Status.accessDenied]
        if st ≠ 0 then finishEntry entry st 0 s
        else formatStep entry e (closeNamespaces entry l s))

/-! ### On a yard (R728) -/

/-- A yard runs a forwarded namespace operation; it holds its records and reports. -/
def yardNamespace (op : KkAdmin) (s : State) : State :=
  match op with
  | .namespaceCreate nsid lbaf ordinals =>
    let s := firstFormat s
    let n : Namespace := { nsze := ordinals.length * (2 ^ 30 / lbaData lbaf), lbaf := lbaf }
    assignChunks (nsid - 1) ordinals { s with nvme.namespaces := s.nvme.namespaces.put (nsid - 1) n }
  | .namespaceDelete nsid =>
    each ((s.nvme.namespaces.map Prod.fst).filter fun i => nsid == 0xFFFFFFFF || i + 1 == nsid) (fun i s =>
      let s := releaseChunks i s.engine.chunks.length s
      { s with nvme.namespaces := s.nvme.namespaces.drop i }) s
  | .format nsid lbaf ses =>
    let named := fun (i : Nat) => nsid == 0xFFFFFFFF || i + 1 == nsid
    let s := firstFormat s
    let s := each ((s.nvme.namespaces.map Prod.fst).filter fun i => ses != 0 || named i) (fun i s =>
      holdRuns 1 i (chunkRuns s i (0, 2 ^ 60)) s) s
    each ((s.nvme.namespaces.map Prod.fst).filter named) (fun i => onNamespace i fun n => { n with lbaf := lbaf }) s
  | _ => s

/-! ### Attachment (R346) -/

/-- Attach or detach a namespace on a controller. -/
def setAttached (ns c : Nat) (on : Bool) (s : State) : State :=
  nsChanged ns c (onNamespace ns (fun n => if c = 0 then { n with attached0 := on } else { n with attached1 := on }) s)

/-- NAMESPACE_ATTACHMENT (R346, NVM Express Base Specification 2.0): the data is a controller list. -/
def execNamespaceAttachment (entry : Nat) (data : Bytes) (s : State) : Host.Outcome State Fault Refusal :=
  runEntry entry true 0x15 (fun e s =>
    let sel := e.sqe.cdw10.toNat % 16
    let count := field data 0 2
    let ids := (List.range count).map fun i => field data (2 + 2 * i) 2
    let list := ids.filterMap (controllerNamed s)
    match s.nspace e.sqe.ns with
    | none => finishEntry entry (if e.sqe.nsid = 0 ∨ s.cmd.cfg.ns_limit.toNat < e.sqe.nsid.toNat then Status.invalidNamespace else Status.invalidField) 0 s
    | some n =>
      let st := firstStatus [failIf (decide (e.sqe.nsid = 0)) Status.invalidNamespace, failIf (decide (1 < sel)) Status.invalidField,
        failIf (decide (count = 0) || decide (2047 < count) || ids.any fun i => (controllerNamed s i).isNone) Status.controllerListInvalid,
        failIf n.closing.isSome Status.formatInProgress,
        failIf (sel == 0 && list.any n.attachedTo) Status.alreadyAttached,
        failIf (sel == 1 && list.any fun c => !n.attachedTo c) Status.notAttached]
      if st ≠ 0 then finishEntry entry st 0 s
      else finishEntry entry 0 0 (each list.eraseDups (fun c => setAttached e.sqe.ns c (sel == 0)) s)) s

/-- Deletes and formats that wait go on (R346). -/
def tryClosing (s : State) : State :=
  each ((s.nvme.namespaces.vals.filterMap Namespace.closing).eraseDups) (fun t s =>
    match adminEntry t 0x0D s, adminEntry t 0x80 s with
    | some e, _ => deleteStep t e s
    | none, some e => formatStep t e s
    | none, none => s) s

end Sys2Proof.Machine
end

