-- ==== Sys2Proof/Machine/Opal.lean ====
section
/-!
DEFINITION. The Opal locking subset (R650 to R660): sessions, PINs, locking ranges, GenKey, Revert, the DataStore and
Level 0 Discovery. A method's response is held as its TCG status byte.
-/

namespace Sys2Proof.Machine

/-! ### Status of methods (TCG Storage Core Specification) -/

def Tcg.success : Byte := 0x00
def Tcg.notAuthorized : Byte := 0x01
def Tcg.noSessions : Byte := 0x07
def Tcg.invalidParameter : Byte := 0x0C
def Tcg.lockedOut : Byte := 0x12

/-- The method ends: its response waits for Security Receive, and the Security Send succeeds. -/
def respond (t : Nat) (status : Byte) (s : State) : State :=
  finishEntry t 0 0 { s with security.response := [status] }

/-! ### Taking a Security command -/

/-- Security Protocol of a command. -/
def Sqe.secp (q : Sqe) : Nat := q.cdw10.toNat / 2 ^ 24

/-- Its ComID (protocol-specific field). -/
def Sqe.comid (q : Sqe) : Nat := q.cdw10.toNat / 2 ^ 8 % 2 ^ 16

/-- Protocols 0x01 and 0x02 with their ComIDs, while Opal is enabled (R651). -/
def opalAddressed (s : State) (q : Sqe) : Bool :=
  s.sec.cfg.opal_enable && ((q.secp == 1 && q.comid == 0x1000) || (q.secp == 2 && (q.comid == 0x1000 || q.comid == 0x0004)))

/-- Run a method of Security Send by protocol, or end the command with Invalid Field (R651). -/
def runMethod (t secp : Nat) (f : Entry → State → State) (s : State) : Host.Outcome State Fault Refusal :=
  .next (match adminEntry t 0x81 s with
    | none => s
    | some e =>
      if opalAddressed s e.sqe && e.sqe.secp == secp then f e s
      else if e.state = .fetched then finishEntry t Status.invalidField 0 s else s)

/-- The session is this controller's, to an SP, and an administrator's: authorities 0 (SID) and 1 to 4 (Admin1 to
Admin4). -/
def sessionAdmin (s : State) (c sp : Nat) : Bool :=
  match s.security.session with
  | some x => x.ctrl == c && x.sp == sp && x.authorities.any fun a => decide (a ≤ 4)
  | none => false

/-- A method on the Locking SP by an administrator. -/
def lockingMethod (t : Nat) (f : Entry → State → State) (s : State) : Host.Outcome State Fault Refusal :=
  runMethod t 1 (fun e s => if sessionAdmin s e.ctrl 1 then f e s else respond t Tcg.notAuthorized s) s

/-- Change the store and make it durable; the method succeeds (R650). -/
def changeStore (t : Nat) (f : OpalStore → OpalStore) (s : State) : State :=
  respond t Tcg.success (storeDurable { s with security.store := f s.security.store })

/-! ### PINs (R659) -/

/-- The C_PIN of an authority, as manufactured where none has been set. -/
def pinOf (s : State) (a : Nat) : Pin :=
  s.security.store.pins.look { verifier := s.pinVerifier [] Config.firstPin, try_limit := s.sec.cfg.pin_try_limit.toNat } a

/-- Check a PIN: the status, with the try counts as they become. -/
def checkPin (stamp a : Nat) (pin : Bytes) (s : State) : Byte × State :=
  let p := pinOf s a
  if p.try_limit ≠ 0 ∧ p.try_limit ≤ p.tries then (Tcg.lockedOut, s)
  else
    let good := s.pinVerifier p.salt pin = p.verifier
    let s := storeDurable (askDigest stamp .pinCheck { s with
      security.store.pins := s.security.store.pins.put a { p with tries := if good then 0 else p.tries + 1 } })
    if good then (Tcg.success, s) else (Tcg.notAuthorized, s)

/-- OPAL_AUTHENTICATE (R659): an authority joins the open session, of which two may. -/
def execOpalAuthenticate (entry authority : Nat) (pin : Bytes) (s : State) : Host.Outcome State Fault Refusal :=
  runMethod entry 1 (fun e s => match s.security.session with
    | some x =>
      if x.ctrl ≠ e.ctrl ∨ (2 ≤ x.authorities.length ∧ !x.authorities.contains authority) then respond entry Tcg.notAuthorized s
      else
        let (st, s) := checkPin e.admitted.stamp.toNat authority pin s
        let x := if st = Tcg.success ∧ !x.authorities.contains authority then { x with authorities := x.authorities ++ [authority] } else x
        respond entry st { s with security.session := some x }
    | none => respond entry Tcg.notAuthorized s) s

/-! ### The DataStore (R658) -/

/-- Write one unit of the DataStore through the host stream: the reserved chunk, media key slot 0. -/
def holdStore (cmd k : Nat) (s : State) : State :=
  let (st, s) := takeStamp s
  let d := s.shroud.slices.fresh 0 (s.shroud.slices.length + 1)
  let unit := 2 ^ 37 - 2 ^ 18 + k
  let x : SliceDesc := { ns_index := 0, first := unit, units := 1, stamp := cmd }
  let f := cipherUnit (s.security.store.keys.look 0 0) 0 unit 0 (Cells.reads s.security.datastore (4096 * k) 4096)
  let u : HeldUnit := { unit := (chunkCount s - 1) * chunkUnits + k, ns_index := 0, ns_unit := unit, stamp := st, frame := f,
                        slice := d, cmd := cmd }
  let s := { s with nvme.clean := false, shroud.slices := s.shroud.slices.put d x, shroud.held := s.shroud.held ++ [u] }
  tslOrdered (sliceEntry x d) s

/-- Bytes of the DataStore (table "Level 0 Discovery"). -/
def datastoreBytes : Nat := 10485760

/-- Set bytes of the DataStore: the units they touch become held. -/
def setDatastore (t : Nat) (e : Entry) (offset : Nat) (b : Bytes) (s : State) : State :=
  let first := offset / 4096
  let n := if b.isEmpty then 0 else (offset + b.length - 1) / 4096 - first + 1
  if datastoreBytes < offset + b.length then respond t Tcg.invalidParameter s
  else if !bufferRoom s n then s
  else
    let s := { s with security.datastore := Cells.writes s.security.datastore offset b }
    let s := each (List.range n) (fun i => holdStore e.admitted.stamp.toNat (first + i)) (countXts n s)
    pump (respond t Tcg.success s)

/-! ### Ranges (R653 to R655) -/

/-- Ranges of LBAs meet, where both have a length. -/
def lbasMeet (a b : LockRange) : Bool :=
  a.ns == b.ns && decide (0 < a.length) && decide (0 < b.length)
    && decide (a.start < b.start + b.length) && decide (b.start < a.start + a.length)

/-- A Set of a range is answered with INVALID_PARAMETER (R653). -/
def rangeInvalid (s : State) (k : Nat) (r : LockRange) : Bool :=
  match s.nspace (r.ns - 1) with
  | none => true
  | some n => decide (k = 0) || decide (s.sec.cfg.range_max.toNat < k) || decide (r.ns = 0)
      || (n.lbaf == 3 && (r.start % 8 != 0 || r.length % 8 != 0))
      || (s.security.store.ranges.any fun p => p.1 != 0 && p.1 != k && lbasMeet r p.2)

/-- Put a range in the table of the store. -/
def OpalStore.setRange (k : Nat) (f : LockRange → LockRange) (x : OpalStore) : OpalStore :=
  { x with ranges := x.ranges.put k (f (x.ranges.look {} k)) }

/-- A method on a range of the usable ones; the Global Range is 0. -/
def rangeMethod (t k : Nat) (f : LockRange → LockRange) (s : State) : Host.Outcome State Fault Refusal :=
  lockingMethod t (fun _ s =>
    if s.sec.cfg.range_max.toNat < k then respond t Tcg.invalidParameter s else changeStore t (OpalStore.setRange k f) s) s

/-- OPAL_SET_LOCK (R655). -/
def execOpalSetLock (entry range : Nat) (readLock writeLock : Option Bool) (s : State) : Host.Outcome State Fault Refusal :=
  rangeMethod entry range (fun r => { r with
    read_locked := readLock.getD r.read_locked
    write_locked := writeLock.getD r.write_locked }) s

/-- A range with the values that a Set gives. -/
def RangeSet.apply (c : RangeSet) (r : LockRange) : LockRange :=
  { r with ns := c.ns.getD r.ns, start := c.start.getD r.start, length := c.length.getD r.length }

/-- OPAL_SET_RANGE (R653). -/
def execOpalSetRange (entry range : Nat) (change : RangeSet) (s : State) : Host.Outcome State Fault Refusal :=
  lockingMethod entry (fun _ s =>
    if rangeInvalid s range (change.apply (s.range range)) then respond entry Tcg.invalidParameter s
    else changeStore entry (OpalStore.setRange range change.apply) s) s

/-! ### GenKey (R657) -/

/-- Parts of `n` units from `lo` up that rising ranges leave: first and count. -/
def gapsOf (lo : Nat) (stop : Nat) : List (Nat × Nat) → List (Nat × Nat)
  | [] => if lo < stop then [(lo, stop - lo)] else []
  | (a, n) :: rest =>
    if lo < a then (lo, a - lo) :: gapsOf (a + n) stop rest else gapsOf (max lo (a + n)) stop rest

/-- Units of a locking range in a namespace. -/
def LockRange.units (n : Namespace) (r : LockRange) : Nat × Nat := (r.start / lbasPerUnit n.lbaf, r.length / lbasPerUnit n.lbaf)

/-- Units that a locking range governs, by namespace (R653). -/
def unitsOfRange (s : State) (k : Nat) : List (Nat × (Nat × Nat)) :=
  if k = 0 then
    s.nvme.namespaces.flatMap fun p =>
      let bound := (s.security.store.ranges.filter fun q => decide (0 < q.1) && q.2.ns == p.1 + 1 && decide (0 < q.2.length)).map
        fun q => q.2.units p.2
      (gapsOf 0 p.2.units (sortOn Prod.fst bound)).map fun r => (p.1, r)
  else
    let r := s.range k
    match s.nspace (r.ns - 1) with
    | some n => if r.length = 0 then [] else [(r.ns - 1, r.units n)]
    | none => []

/-- No command under way touches one of the slots. -/
def slotsQuiet (s : State) (slots : List Nat) : Bool :=
  !(s.nvme.tracker.vals.any fun e => e.sqid != 0 && e.state != .fetched && e.state != .done
    && (match s.nspace e.sqe.ns with
        | some n => e.ranges.any fun r => (rangesTouched s e.sqe.ns r.1 r.2 n.lbaf).any slots.contains
        | none => false))

/-- Steps 4 and 5: the new store is durable, the slots are loaded, waiting commands may be sent again. -/
def genKeyEnd (t : Nat) (g : GenKey) (s : State) : State :=
  let s := drawKeys g.slots { s with security.genkey := none }
  let s := if g.revert then
      { s with security.store := { keys := s.security.store.keys }, security.session := none }
    else s
  respond t Tcg.success (storeDurable s)

/-- Steps 2 to 5 of GenKey, once the commands admitted before it are complete and its records have room (R657). -/
def genKeyStep (s : State) : State :=
  match s.security.genkey with
  | none => s
  | some g =>
    let l := g.slots.flatMap (unitsOfRange s)
    let own := l.map fun p => (p.1, chunkRuns s p.1 (deviceSpan s s.position p.2))
    if g.step = 3 ∧ g.entry = 2 ^ 32 then genKeyEnd g.entry g s
    else if g.step ≠ 1 || !slotsQuiet s g.slots || decide (recordRoom s < total (own.map fun p => p.2.length)) then s
    else
      let s := each own (fun p => holdRuns 1 p.1 p.2) s
      let far := l.flatMap fun p => match s.nspace p.1 with
        | some n => (yardsOf s n).map fun y => (y, p.1, deviceSpan s y p.2)
        | none => []
      let s := each far (fun q s =>
        let (st, s) := takeStamp s
        sendFrame 0x20 q.1 g.entry [1, q.2.1, q.2.2.1, q.2.2.2, st.stamp.toNat, st.unanch.toNat] s) s
      let s := onEntry g.entry (fun e => { e with yards_wait := far.map Prod.fst }) s
      pump (if far.isEmpty then genKeyEnd g.entry g s else { s with security.genkey := some { g with step := 3 } })

/-- Begin a GenKey; one that comes while another runs waits for its row to come again. -/
def beginGenKey (t : Nat) (slots : List Nat) (revert : Bool) (s : State) : State :=
  match s.security.genkey with
  | some g => if g.entry = t then genKeyStep s else s
  | none =>
    genKeyStep (onEntry t (fun e => { e with state := .overlap })
      { s with security.genkey := some { slots := slots, step := 1, entry := t, revert := revert } })

/-- OPAL_GENKEY (R657). -/
def execOpalGenkey (entry range : Nat) (s : State) : Host.Outcome State Fault Refusal :=
  lockingMethod entry (fun _ s =>
    if s.sec.cfg.range_max.toNat < range then respond entry Tcg.invalidParameter s else beginGenKey entry [range] false s) s

/-- OPAL_REVERT (R657): by the SID in the Admin SP, or an administrator in the Locking SP. -/
def execOpalRevert (entry : Nat) (s : State) : Host.Outcome State Fault Refusal :=
  runMethod entry 1 (fun e s =>
    if sessionAdmin s e.ctrl 0 || sessionAdmin s e.ctrl 1 then beginGenKey entry (List.range 65) true s
    else respond entry Tcg.notAuthorized s) s

/-- A yard has answered for a command: when none is left to answer the command ends (R728). -/
def yardAnswered (t p : Nat) (s : State) : State :=
  let s := onEntry t (fun e => { e with yards_wait := e.yards_wait.erase p }) s
  match s.nvme.tracker.find t with
  | none => s
  | some e =>
    if !e.yards_wait.isEmpty || e.state == .done then s
    else match s.security.genkey with
      | some g => if g.entry = t ∧ g.step = 3 then genKeyEnd t g s
                  else if e.changes && e.sqe.opcode != 0x01 then finishEntry t 0 0 s else s
      | none => if e.changes && e.sqe.opcode != 0x01 then finishEntry t 0 0 s else s

/-! ### Other methods -/

/-- StartSession: one session on the device (R652); to the Locking SP only once it is Manufactured. -/
def startSession (t : Nat) (e : Entry) (sp : Nat) (authority : Option Nat) (pin : Bytes) (s : State) : State :=
  if s.security.session.isSome then respond t Tcg.noSessions s
  else if 1 < sp ∨ (sp = 1 ∧ !s.security.store.manufactured) then respond t Tcg.invalidParameter s
  else match authority with
    | none => respond t Tcg.success { s with security.session := some { ctrl := e.ctrl, sp := sp } }
    | some a =>
      let (st, s) := checkPin e.admitted.stamp.toNat a pin s
      respond t st (if st = Tcg.success then { s with security.session := some { ctrl := e.ctrl, sp := sp, authorities := [a] } } else s)

/-- A method in the session by an administrator of any SP. -/
def adminMethod (t : Nat) (e : Entry) (f : OpalStore → OpalStore) (s : State) : State :=
  if sessionAdmin s e.ctrl 0 || sessionAdmin s e.ctrl 1 then changeStore t f s else respond t Tcg.notAuthorized s

/-- Change a C_PIN. -/
def setPin (s : State) (a : Nat) (f : Pin → Pin) (x : OpalStore) : OpalStore := { x with pins := x.pins.put a (f (pinOf s a)) }

/-- A method of protocol 0x01 other than those with rows of their own. -/
def runOther (t : Nat) (e : Entry) (call : OpalMethod) (s : State) : State :=
  match call with
  | .startSession sp a pin => startSession t e sp a pin s
  | .endSession => respond t Tcg.success (closeSession e.ctrl s)
  | .setPin a salt pin => adminMethod t e (setPin s a fun p =>
      { p with salt := salt, verifier := s.pinVerifier salt pin, tries := 0 }) s
  | .setTryLimit a n => adminMethod t e (setPin s a fun p => { p with try_limit := n }) s
  | .setLockEnabled k r w =>
    if !sessionAdmin s e.ctrl 1 then respond t Tcg.notAuthorized s
    else if s.sec.cfg.range_max.toNat < k then respond t Tcg.invalidParameter s
    else changeStore t (OpalStore.setRange k fun x => { x with read_enabled := r, write_enabled := w }) s
  | .setLockOnReset k b =>
    if !sessionAdmin s e.ctrl 1 then respond t Tcg.notAuthorized s
    else if s.sec.cfg.range_max.toNat < k then respond t Tcg.invalidParameter s
    else changeStore t (OpalStore.setRange k fun x => { x with lock_on_reset := b }) s
  | .activate =>
    if sessionAdmin s e.ctrl 0 then changeStore t (fun x => { x with manufactured := true }) s
    else respond t Tcg.notAuthorized s
  | .datastore offset b => if sessionAdmin s e.ctrl 1 then setDatastore t e offset b s else respond t Tcg.notAuthorized s
  | .readDatastore offset n =>
    if !sessionAdmin s e.ctrl 1 then respond t Tcg.notAuthorized s
    else if datastoreBytes < offset + n then respond t Tcg.invalidParameter s
    else finishEntry t 0 0 { s with security.response := Tcg.success :: Cells.reads s.security.datastore offset n }
  | .stackReset => finishEntry t Status.invalidField 0 s
  | .other => finishEntry t Status.invalidField 0 s

/-- SECURITY_SEND (R651): a stack reset is ComID management of protocol 0x02; it closes the session. -/
def execSecuritySend (entry : Nat) (call : OpalMethod) (s : State) : Host.Outcome State Fault Refusal :=
  match call with
  | .stackReset => runMethod entry 2 (fun _ s => finishEntry entry 0 0 { s with security.session := none, security.response := [] }) s
  | c => runMethod entry 1 (fun e s => runOther entry e c s) s

/-- TPER_RESET (R656): closes the session; no lock changes. -/
def execTperReset (entry : Nat) (s : State) : Host.Outcome State Fault Refusal :=
  runMethod entry 2 (fun _ s => finishEntry entry 0 0 { s with security.session := none }) s

/-! ### Security Receive (R651) -/

/-- A feature descriptor: code, length, data. -/
def feature (code : Nat) (body : Bytes) : Bytes := leBytes 2 code ++ [0x10, BitVec.ofNat 8 body.length] ++ body

/-- Descriptors of Level 0 Discovery (table "Level 0 Discovery"), multi-byte fields little-endian as R14 states for every
host-visible structure. -/
def discovery (s : State) : Bytes :=
  let zeros := fun (n : Nat) => List.replicate n (0 : Byte)
  let lock := 0x49 + 2 * (decide (0 < rangesEnabled s)).toNat + 4 * (anyLocked s).toNat
  let l := feature 0x0001 ([0x51] ++ zeros 11)
    ++ (if s.sec.cfg.opal_enable then feature 0x0002 ([BitVec.ofNat 8 lock] ++ zeros 11) else [])
    ++ feature 0x0003 ([0x01] ++ zeros 7 ++ leBytes 4 4096 ++ leBytes 8 1 ++ leBytes 8 0)
    ++ feature 0x0202 (zeros 2 ++ leBytes 2 1 ++ leBytes 4 10485760 ++ leBytes 4 1)
    ++ feature 0x0203 (leBytes 2 0x1000 ++ leBytes 2 1 ++ [0] ++ leBytes 2 4 ++ leBytes 2 65 ++ zeros 7)
  leBytes 4 (44 + l.length) ++ leBytes 4 1 ++ zeros 40 ++ l

/-- Data of an admin command goes to the host (R273 step 1). -/
def answer (t : Nat) (e : Entry) (b : Bytes) (s : State) : State :=
  finishEntry t 0 0 (onEntry t (fun e => { e with effect := true })
    (sendAdmin e b s))

/-- SECURITY_RECEIVE (R651). -/
def execSecurityReceive (entry : Nat) (s : State) : Host.Outcome State Fault Refusal :=
  runEntry entry true 0x82 (fun e s =>
    let n := e.sqe.cdw11.toNat
    if mdtsBytes < n then finishEntry entry Status.invalidField 0 s
    else if e.sqe.secp = 0 then answer entry e (padTo n ((discovery s).take n)) s
    else if opalAddressed s e.sqe then answer entry e (padTo n (s.security.response.take n)) s
    else finishEntry entry Status.invalidField 0 s) s

end Sys2Proof.Machine
end

