-- ==== Sys2Proof/Machine/Completion.lean ====
section
/-!
DEFINITION. Posting a completion (R273, R336 to R343), what it counts (R589) and logs (R338, R754), interrupts and their
coalescing (R297, R354), and what waits for commands to end (R308, R314, R346, R657).
-/

namespace Sys2Proof.Machine

/-! ### Whether a completion may be posted -/

/-- The queue has no free slot for an entry. -/
def CplQueue.full (q : CplQueue) : Bool := (q.tail + 1) % q.size == q.head

/-- The controller's function may send writes and messages now (R283, R284, R286). -/
def State.mayWrite (s : State) (n : Nat) : Bool :=
  s.reachable n && (s.portStatus n).bme && !(s.portStatus n).d3hot && (s.port n).flr == 0

/-- The submission queue of a command with its completion queue, where the completion may be posted: in submission order
on a halt-on-error queue (R336). -/
def postable (s : State) (e : Entry) : Option (SubQueue × CplQueue) :=
  match queueOf s e with
  | none => none
  | some q => match (s.ctrl e.ctrl).cqs.find q.cqid with
    | none => none
    | some c =>
      if e.state == .done && s.mayWrite e.ctrl && (s.ctrl e.ctrl).en && !c.full && !(q.halt_attr && !(queuedBefore s e).isEmpty) then
        some (q, c)
      else none

/-! ### Interrupts -/

/-- Index of the coalescing timer of a completion queue. -/
def coalesceIdx (c cqid : Nat) : Nat := c * 65536 + cqid

/-- Change a completion queue. -/
def onCq (c cqid : Nat) (f : CplQueue → CplQueue) (s : State) : State :=
  onCtrl c (fun k => match k.cqs.find cqid with
    | some q => { k with cqs := k.cqs.put cqid (f q) }
    | none => k) s

/-- Change a submission queue. -/
def onSq (c sqid : Nat) (f : SubQueue → SubQueue) (s : State) : State :=
  onCtrl c (fun k => match k.sqs.find sqid with
    | some q => { k with sqs := k.sqs.put sqid (f q) }
    | none => k) s

/-- Interrupts of an I/O completion queue are coalesced: a threshold and a time are set and its vector takes part. -/
def coalesces (k : Controller) (cqid v : Nat) : Bool :=
  cqid != 0 && k.coalesce_thr != 0 && k.coalesce_time != 0 && !k.vector_cd.contains v

/-- The message of a completion queue: at once, or once enough completions or time have passed; the time is counted in
H, in units of 100 µs (R354). -/
def interrupt (c cqid : Nat) (s : State) : State :=
  let k := s.ctrl c
  match k.cqs.find cqid with
  | none => s
  | some q =>
    if !q.ien then s
    else if !coalesces k cqid q.vector || decide (k.coalesce_thr < q.uncoalesced + 1) then
      raiseMsix c q.vector (disarm .coalesce (coalesceIdx c cqid) (onCq c cqid (fun q => { q with uncoalesced := 0 }) s))
    else
      armOnce .coalesce (coalesceIdx c cqid) (nsToMotes (100000 * k.coalesce_time))
        (onCq c cqid (fun q => { q with uncoalesced := q.uncoalesced + 1 }) s)

/-- COALESCING_TIMER: the time of a completion queue's oldest unsignalled completion has passed. -/
def execCoalescingTimer (ctrl cqid : Nat) (s : State) : Host.Outcome State Fault Refusal :=
  if s.due .coalesce (coalesceIdx ctrl cqid) then
    let s := disarm .coalesce (coalesceIdx ctrl cqid) s
    .next (match (s.ctrl ctrl).cqs.find cqid with
      | some q => raiseMsix ctrl q.vector (onCq ctrl cqid (fun q => { q with uncoalesced := 0 }) s)
      | none => s)
  else .next s

/-! ### Counts and logs -/

/-- Host data of a successful Read or Write in units of 512,000 bytes, rounded up (R589). -/
def dataUnits (s : State) (e : Entry) : Nat :=
  match commandSpace s e with
  | some n => divUp (e.sqe.blocks * lbaData n.lbaf) 512000
  | none => 0

/-- SMART counts of a completed I/O command (R589). -/
def countCommand (e : Entry) (s : State) : State :=
  if e.sqid = 0 then s
  else
    let units := dataUnits s e
    let h := s.health.counts
    let good := e.status == 0
    let h := match e.sqe.opcode.toNat with
      | 0x01 => if good then { h with data_units_written := h.data_units_written + units, host_writes := h.host_writes + 1 } else h
      | 0x02 => if good then { h with data_units_read := h.data_units_read + units, host_reads := h.host_reads + 1 } else h
      | 0x05 => if good then { h with host_reads := h.host_reads + 1 } else h
      | 0x0C => if good then { h with host_reads := h.host_reads + 1 } else h
      | 0x08 => if good then { h with host_writes := h.host_writes + 1 } else h
      | _ => h
    let h := if e.status = Status.unrecoveredRead then { h with media_errors := h.media_errors + 1 } else h
    { s with health.counts := h }

/-- Later commands of a queue that halts are aborted (R338). -/
def abortLater (e : Entry) (s : State) : State :=
  let later := s.nvme.tracker.filter fun p => p.2.ctrl == e.ctrl && p.2.sqid == e.sqid
    && decide (e.admitted.stamp.toNat < p.2.admitted.stamp.toNat)
  each (later.map Prod.fst) (fun t => failEntry t Status.abortedByHalt 0) s

/-- The Error Information entry of a command, under the stamp of its detection (R87, R754); none where the handler has
written it. -/
def logCommand (e : Entry) (s : State) : State :=
  if e.logged then s
  else
    let (st, s) := match e.error_stamp with | some st => (st, s) | none => takeStamp s
    deliverError (commandDraft e e.status {}) none st s

/-- A halt-on-error queue halts at its failing command (R338). -/
def haltQueue (e : Entry) (s : State) : State :=
  let s := logCommand e s
  let mine := (s.ctrl e.ctrl).error_log.find? fun x => x.draft.sqid == e.sqid && x.draft.cid == e.sqe.cid.toNat
  let count := match mine with | some x => x.error_count | none => s.nvme.error_count
  let s := onSq e.ctrl e.sqid (fun q => { q with halted := true, halt_entry := some count, halt_read := false })
    { s with cmd.haltStatus.last_sqid := BitVec.ofNat 12 e.sqid }
  abortLater e (raise (src 8 0) 0 [] s)

/-- Logs that a completion writes: the halt of its queue, or an entry for its status. -/
def logCompletion (e : Entry) (q : SubQueue) (s : State) : State :=
  if q.halt_attr && e.status != 0 && !q.halted && !q.closing then haltQueue e s
  else if loggedStatus e.status then logCommand e s
  else s

/-! ### The post (R273) -/

/-- Status field: DNR for the Waidar codes that carry it (table "Waidar status codes"). -/
def statusField (status : Nat) : Nat :=
  if status = Status.queueNotHalted ∨ status = Status.entryNotRead ∨ status = Status.installFailed then status + 2 ^ 14 else status

/-- Data writes of a read. -/
def sendRead (e : Entry) (s : State) : State :=
  if e.sqid ≠ 0 ∧ e.sqe.opcode = 0x02 ∧ e.status = 0 then
    match commandSpace s e with
    | some n => sendData e (transferLength n e.sqe.blocks) (readBytes n e) s
    | none => s
  else s

/-- The completion stamp entry of a queue that has opted in (R342, R343). -/
def sendStamp (e : Entry) (cqid : Nat) (q : CplQueue) (s : State) : State :=
  if q.stamped then
    let (st, s) := takeStamp s
    let latency := min (2 ^ 32 - 1) (st.stamp.toNat - e.admitted.stamp.toNat)
    say (.stampEntry e.ctrl cqid q.tail st.stamp.toNat latency st.unanch e.admitted.unanch
      (s.camp.stepLog.step_count.toNat != e.steps)) s
  else s

/-- The queue with one more entry. -/
def CplQueue.push (q : CplQueue) : CplQueue :=
  { q with tail := (q.tail + 1) % q.size, phase := if q.tail + 1 = q.size then !q.phase else q.phase }

/-- The completion queue entry. -/
def sendCompletion (e : Entry) (q : SubQueue) (c : CplQueue) (s : State) : State :=
  say (.completion e.ctrl q.cqid c.tail e.sqid q.head e.sqe.cid.toNat (statusField e.status) e.dw0 c.phase)
    (onCq e.ctrl q.cqid CplQueue.push s)

/-- ACT_LED# goes low at each completed I/O command (R127). -/
def lightLed (e : Entry) (s : State) : State :=
  if e.sqid = 0 then s else arm .actLed 0 (2 ^ 25) { s with nvme.act_led := true }

/-- Post a completion: data, stamp entry, completion entry, message, in that order; then the entry is freed. -/
def post (t : Nat) (e : Entry) (q : SubQueue) (c : CplQueue) (s : State) : State :=
  let s := interrupt e.ctrl q.cqid (sendCompletion e q c (sendStamp e q.cqid c (sendRead e s)))
  freeEntry t (lightLed e (logCompletion e q (countCommand e s)))

/-! ### What waited for commands to end -/

/-- Deletes of submission queues whose last completion has been posted (R314). -/
def tryDeletes (s : State) : State :=
  each (s.nvme.tracker.filter fun p => p.2.sqid == 0 && p.2.sqe.opcode == 0x00 && p.2.state == .overlap) (fun p s =>
    let id := p.2.sqe.cdw10.toNat % 65536
    if s.nvme.tracker.vals.any fun x => x.ctrl == p.2.ctrl && x.sqid == id then s
    else finishEntry p.1 0 0 (onCtrl p.2.ctrl (fun k => { k with sqs := k.sqs.drop id }) s)) s

/-- What waited for a command goes on. -/
def afterCommand (s : State) : State :=
  driveShutdown (grantAll (wakeAll (tryClosing (genKeyStep (tryDeletes s)))))

/-- COMMAND_COMPLETE (R273). -/
def execCommandComplete (entry : Nat) (s : State) : Host.Outcome State Fault Refusal :=
  .next (match s.nvme.tracker.find entry with
    | none => s
    | some e => match postable s e with
      | some (q, c) => afterCommand (post entry e q c s)
      | none => s)

end Sys2Proof.Machine
end

