-- ==== Sys2Proof/Machine/Queues.lean ====
section
/-!
DEFINITION. Controllers and queues (R302 to R320): enable, reset, shutdown, doorbells, fetch, creation and deletion of
queues, Abort (R352), Asynchronous Event Request (R752), Resume Queue (R341) and unsupported opcodes (R348).
-/

namespace Sys2Proof.Machine

/-! ### Enable, reset, shutdown (R305, R306, R308, R309) -/

/-- A controller becomes ready: it is enabled and Start has ended (R306). -/
def makeReady (c : Nat) (s : State) : State :=
  if (s.ctrl c).en && !(s.ctrl c).cfs && s.serving then
    noteMi c Mi.rdy { onCtrl c (fun k => { k with rdy := true }) s with health.ready_seen := true }
  else s

/-- Values of CC that the controller accepts at enable: IOSQES 6, IOCQES 4, 4 KiB pages, NVM Command Set, a supported
arbitration (R305). -/
def ccGood (cc : BitVec 32) : Bool :=
  let v := cc.toNat
  v / 2 ^ 16 % 16 == 6 && v / 2 ^ 20 % 16 == 4 && v / 2 ^ 7 % 16 == 0 && v / 2 ^ 4 % 8 == 0 && decide (v / 2 ^ 11 % 8 ≤ 1)

/-- Entries of an admin queue, from a field of AQA. -/
def adminSize (k : Controller) (completion : Bool) : Nat := (if completion then k.aqa / 2 ^ 16 else k.aqa) % 4096 + 1

/-- CC.EN changes from 0 to 1: the admin queues exist; a value that is not accepted sets CSTS.CFS (R305). -/
def enableController (c : Nat) (cc : BitVec 32) (s : State) : State :=
  let k := s.ctrl c
  let good := ccGood cc && decide (2 ≤ adminSize k false) && decide (2 ≤ adminSize k true)
  let s := onCtrl c (fun k => { k with
    en := true
    cc := cc.toNat
    cfs := k.cfs || !good
    iosqes := cc.toNat / 2 ^ 16 % 16
    iocqes := cc.toNat / 2 ^ 20 % 16
    ams := cc.toNat / 2 ^ 11 % 8
    fetch_stopped := k.cfs || !good
    sqs := [(0, { size := adminSize k false, cqid := 0 })]
    cqs := [(0, { size := adminSize k true, ien := true })] }) s
  makeReady c (noteMi c (Mi.ceco ||| (if good then 0 else Mi.cfs)) s)

/-- CONTROLLER_ENABLE (R305): a write of CC with EN 1 while it is 0. -/
def execControllerEnable (ctrl : Nat) (cc : BitVec 32) (s : State) : Host.Outcome State Fault Refusal :=
  .next (memoryWrite ctrl (fun s => if !(s.ctrl ctrl).en && cc.getLsbD 0 then enableController ctrl cc s else s) s)

/-- What other parts hold for a controller's commands goes on without them. -/
def afterEnded (s : State) : State := grantAll (wakeAll (tryClosing (genKeyStep s)))

/-- CONTROLLER_RESET (R309): a write of CC with EN 0 while it is 1. -/
def execControllerReset (ctrl : Nat) (s : State) : Host.Outcome State Fault Refusal :=
  .next (memoryWrite ctrl (fun s => if (s.ctrl ctrl).en then
    let s := each (s.ctrl ctrl).cqs (fun p => disarm .coalesce (coalesceIdx ctrl p.1)) s
    afterEnded (assertSource (0xE + ctrl) s)
  else s) s)

/-- CC with a shutdown notification in bits [15:14]. -/
def noticeOf (shn cc : Nat) : Nat := cc % 2 ^ 14 + shn * 2 ^ 14 + cc / 2 ^ 16 * 2 ^ 16

/-- SHUTDOWN_NORMAL (R308). -/
def execShutdownNormal (ctrl : Nat) (s : State) : Host.Outcome State Fault Refusal :=
  .next (memoryWrite ctrl (fun s => if (s.ctrl ctrl).en && s.serving && (s.ctrl ctrl).shst == 0 then
    driveShutdown (noteMi ctrl Mi.shst
      { onCtrl ctrl (fun k => { k with shst := 1, cc := noticeOf 1 k.cc, fetch_stopped := true }) s with nvme.shutting := some ctrl })
  else s) s)

/-- SHUTDOWN_ABRUPT (R308): commands end with no completion; what the Shroud holds stays. -/
def execShutdownAbrupt (ctrl : Nat) (s : State) : Host.Outcome State Fault Refusal :=
  .next (memoryWrite ctrl (fun s => if (s.ctrl ctrl).en && s.serving && (s.ctrl ctrl).shst != 2 then
    let s := endCommands ctrl (onCtrl ctrl (fun k => { k with fetch_stopped := true }) s)
    let other := s.ctrls.any fun c => c != ctrl && (s.ctrl c).shst == 1
    let s := noteMi ctrl Mi.shst (onCtrl ctrl (fun k => { k with shst := 2, cc := noticeOf 2 k.cc }) s)
    afterEnded { s with
      nvme.shutting := if other then s.nvme.shutting else none
      nvme.shut_checkpoint := s.nvme.shut_checkpoint && other }
  else s) s)

/-! ### Doorbells (R306, R315, R317, R339, R626) -/

/-- An I/O submission in PS4 begins a return to the last operational state of its controller (R47, R615); in a handshake
to PS4 it is held (R626). -/
def ioDoorbell (c : Nat) (s : State) : State :=
  match s.power_states.handshake with
  | some h => if h.target = 4 then { s with power_states.held_doorbell := some c } else s
  | none =>
    if s.psm.status.in_force = 4 ∧ s.power_states.returning.isNone ∧ s.reset_ctl.sequence.isNone then
      let ps := if c = 0 then s.power_states.last0 else s.power_states.last1
      let s := setRequested c ps { s with psm.transitions.io_returns := satAdd s.psm.transitions.io_returns 1 }
      beginReturn (stateByRequests s) none s
    else s

/-- A doorbell that names no queue, or a value beyond it, is reported (R315). -/
def badDoorbell (c info : Nat) (s : State) : State := postAsync c ⟨0, info, 1⟩ s

/-- A tail doorbell is written. -/
def tailWritten (c sqid tail : Nat) (s : State) : State :=
  match (s.ctrl c).sqs.find sqid with
  | none => badDoorbell c 0 s
  | some q =>
    if q.size ≤ tail then badDoorbell c 1 s
    else if q.tail = tail then s
    else
      let (st, s) := takeStamp s
      let s := onSq c sqid (fun q => { q with tail := tail, doorbells := q.doorbells ++ [(tail, st)] }) s
      if sqid = 0 ∨ tail = q.head then s else ioDoorbell c s

/-- SQ_TAIL_DOORBELL (R306, R315, R317). -/
def execSqTailDoorbell (ctrl sqid tail : Nat) (s : State) : Host.Outcome State Fault Refusal :=
  .next (memoryWrite ctrl (fun s => if (s.ctrl ctrl).rdy then tailWritten ctrl sqid tail s else s) s)

/-- A head doorbell is written. -/
def headWritten (c cqid head : Nat) (s : State) : State :=
  match (s.ctrl c).cqs.find cqid with
  | none => badDoorbell c 0 s
  | some q => if q.size ≤ head then badDoorbell c 1 s else onCq c cqid (fun q => { q with head := head }) s

/-- CQ_HEAD_DOORBELL (R306, R315). -/
def execCqHeadDoorbell (ctrl cqid head : Nat) (s : State) : Host.Outcome State Fault Refusal :=
  .next (memoryWrite ctrl (fun s => if (s.ctrl ctrl).rdy then headWritten ctrl cqid head s else s) s)

/-! ### Fetch (R316 to R319) -/

/-- I/O queues are fetched: not in PS4, nor in a handshake to it or a return from it (R608, R617, R620). -/
def ioFetch (s : State) : Bool :=
  s.psm.status.in_force != 4 && s.power_states.returning.isNone
    && (match s.power_states.handshake with | some h => h.target != 4 | none => true)

/-- Tracker entries held by a controller. -/
def entriesOf (s : State) (c : Nat) : Nat := (s.nvme.tracker.filter fun p => p.2.ctrl == c).length

/-- A controller fetches (R306, R283, R319). -/
def ctrlFetches (s : State) (c : Nat) : Bool :=
  let k := s.ctrl c
  s.serving && k.rdy && !k.fetch_stopped && s.mayWrite c && decide (s.nvme.tracker.length < 262144)
    && !(s.ep.dual && decide (196608 ≤ entriesOf s c))

/-- A queue has an entry that may be fetched. -/
def mayFetch (s : State) (c sqid : Nat) : Bool :=
  match (s.ctrl c).sqs.find sqid with
  | some q => ctrlFetches s c && q.head != q.tail && !q.halted && !q.closing && (sqid == 0 || ioFetch s)
  | none => false

/-- Doorbell stamp of a queue's oldest entry not fetched. -/
def doorbellStamp (q : SubQueue) : Nat := match q.doorbells with | p :: _ => p.2.stamp.toNat | [] => 0

/-- Queues that may be fetched and whose oldest entry has passed the ceiling: controller, queue and stamp. -/
def overCeiling (s : State) : List (Nat × Nat × Nat) :=
  s.ctrls.flatMap fun c => ((s.ctrl c).sqs.filter fun p => mayFetch s c p.1
    && decide (s.cmd.starveCeil.toNat < s.h - doorbellStamp p.2)).map fun p => (c, p.1, doorbellStamp p.2)

/-- Class of an I/O queue in arbitration: one class under round robin; urgent 0, high 1, medium 2, low 3 under weighted round
robin (R313, R316). -/
def classOf (k : Controller) (q : SubQueue) : Nat := if k.ams = 1 then q.prio else 0

/-- Entries that class `n` may give in a round of weights, High, Medium or Low Priority Weight being 0-based. -/
def classWeight (k : Controller) (n : Nat) : Nat := k.weights / 2 ^ (8 * (3 - n)) % 256 + 1

/-- The I/O queues of a controller that may be fetched. -/
def candidates (s : State) (c : Nat) : List (Nat × SubQueue) := (s.ctrl c).sqs.filter fun p => p.1 != 0 && mayFetch s c p.1

/-- A class has entries left in the round of weights. -/
def classLeft (k : Controller) (n : Nat) : Bool := n == 0 || decide (k.class_given.look 0 n < classWeight k n)

/-- The class that gives the next entry: urgent first, then the highest with entries left, in a new round where none has. -/
def nextClass (k : Controller) (l : List (Nat × SubQueue)) : Option Nat :=
  let here := fun n => l.any fun p => classOf k p.2 == n
  match (List.range 4).find? fun n => here n && classLeft k n with
  | some n => some n
  | none => (List.range 4).find? here

/-- The queue of a class that gives the next entry: the one whose turn it is, for a burst of at most 2 to the Arbitration Burst
entries (7 for no limit), then the lowest that has not had its turn in the round. -/
def nextQueue (k : Controller) (l : List Nat) : Option Nat :=
  let goesOn := match k.turn with
    | some (q, n) => if l.contains q && (k.arb_burst == 7 || decide (n < 2 ^ k.arb_burst)) then some q else none
    | none => none
  match goesOn with
  | some q => some q
  | none => match l.filter fun q => !k.served.contains q with
    | q :: _ => some q
    | [] => l.head?

/-- The I/O queue that arbitration picks (R316), with its class. -/
def arbitrated (s : State) (c : Nat) : Option (Nat × Nat) :=
  let k := s.ctrl c
  let l := candidates s c
  (nextClass k l).bind fun n => (nextQueue k ((l.filter fun p => classOf k p.2 == n).map Prod.fst)).map fun q => (n, q)

/-- Arbitration after an entry of queue `q` in class `n` has been fetched. -/
def afterTurn (s : State) (c n q : Nat) (k : Controller) : Controller :=
  let mates := ((candidates s c).filter fun p => classOf k p.2 == n).map Prod.fst
  let given := if classLeft k n then k.class_given else []
  let same := match k.turn with
    | some (p, m) => if p = q ∧ (k.arb_burst = 7 ∨ m < 2 ^ k.arb_burst) then some m else none
    | none => none
  { k with
    turn := some (q, same.getD 0 + 1)
    served := if same.isSome then k.served
      else if mates.all k.served.contains then (k.served.filter fun x => !mates.contains x) ++ [q] else k.served ++ [q]
    class_given := if n = 0 then k.class_given else given.put n (given.look 0 n + 1) }

/-- The queue's turn: the oldest past the ceiling goes first (R317); else the admin queue, then the queue that arbitration
picks (R316). -/
def myTurn (s : State) (c sqid : Nat) : Bool :=
  match leastOn (fun p : Nat × Nat × Nat => p.2.2) (overCeiling s) with
  | some p => p.1 == c && p.2.1 == sqid
  | none => if mayFetch s c 0 then sqid == 0 else (arbitrated s c).map Prod.snd == some sqid

/-- Arbitration notes a fetch from an I/O queue; one past the ceiling takes no turn. -/
def noteTurn (c sqid : Nat) (s : State) : State :=
  if sqid = 0 ∨ !(overCeiling s).isEmpty then s
  else match arbitrated s c with
    | some (n, q) => onCtrl c (afterTurn s c n q) s
    | none => s

/-- An entry is fetched: it takes a tracker entry and its admission stamp (R319). -/
def takeEntry (c sqid : Nat) (q : SubQueue) (e : Sqe) (s : State) : State :=
  let ceiling := !(overCeiling s).isEmpty
  let head := (q.head + 1) % q.size
  let s := onSq c sqid (fun q => { q with
    head := head
    doorbells := match q.doorbells with | p :: rest => if p.1 = head then rest else q.doorbells | [] => [] }) (noteTurn c sqid s)
  let (st, s) := takeStamp s
  let t := s.nvme.tracker.fresh 0 (s.nvme.tracker.length + 1)
  let x : Entry := { ctrl := c, sqid := sqid, sqe := e, admitted := st, sq_pos := q.head, steps := s.camp.stepLog.step_count.toNat }
  arm .idle 0 s.rcl.idleDelay.toNat { s with
    nvme.tracker := s.nvme.tracker.put t x
    cmd.ceilGrants := if ceiling then satAdd s.cmd.ceilGrants 1 else s.cmd.ceilGrants
    rcl.status.idle := false
    health.busy_from := if sqid = 0 then s.health.busy_from else some (s.health.busy_from.getD s.run) }

/-- SQ_ENTRY_FETCH (R319): a fetch that fails sets CSTS.CFS (R324). -/
def execSqEntryFetch (ctrl sqid : Nat) (fetched : Option Sqe) (s : State) : Host.Outcome State Fault Refusal :=
  .next (match (s.ctrl ctrl).sqs.find sqid with
    | none => s
    | some q =>
      if !(mayFetch s ctrl sqid && myTurn s ctrl sqid) then s
      else match fetched with
        | none => setCfs ctrl s
        | some e => takeEntry ctrl sqid q e s)

/-! ### Creation and deletion of queues (R311 to R314) -/

/-- I/O queues of a controller at most (table "Queue limits"). -/
def queueLimit (s : State) : Nat := if s.ep.dual then 1024 else 2048

/-- Queues allocated: submission and completion; the limit where none are yet (R311). -/
def allocation (s : State) (c : Nat) : Nat × Nat := (s.ctrl c).granted.getD (queueLimit s, queueLimit s)

/-- Fix the allocation at the limit if a queue is created before it is fixed. -/
def fixAllocation (c : Nat) (s : State) : State := onCtrl c (fun k => { k with granted := some (allocation s c) }) s

/-- Status of Create I/O Completion Queue (table "Completion queue creation checks"). -/
def createCqStatus (s : State) (e : Entry) : Nat :=
  let id := e.sqe.cdw10.toNat % 2 ^ 16
  let v := e.sqe.cdw11.toNat / 2 ^ 16
  let stamp := e.sqe.cdw13.getLsbD 0
  firstStatus [
    failIf (decide (id = 0) || decide ((allocation s e.ctrl).2 < id) || (s.ctrl e.ctrl).cqs.has id) Status.invalidQueueId,
    failIf (decide (e.sqe.cdw10.toNat / 2 ^ 16 = 0)) Status.invalidQueueSize,
    failIf (!e.sqe.cdw11.getLsbD 0) Status.invalidField,
    failIf (decide (s.vectors e.ctrl ≤ v) || (decide (v = 2048) && !s.pcie.msixExt)) Status.invalidVector,
    failIf ((stamp && !s.cmd.cfg.ext_enable) || (s.cmd.cfg.ext_enable && e.sqe.cdw14.toNat % 4096 != 0)) Status.invalidField,
    failIf (decide (3 < e.sqe.cdw11.toNat % 2 ^ 16) || decide (1 < e.sqe.cdw13.toNat)) Status.invalidField]

/-- CREATE_IO_COMPLETION_QUEUE (R312). -/
def execCreateIoCompletionQueue (entry : Nat) (s : State) : Host.Outcome State Fault Refusal :=
  runEntry entry true 0x05 (fun e s =>
    let st := createCqStatus s e
    if st ≠ 0 then finishEntry entry st 0 s
    else
      let q : CplQueue := {
        size := e.sqe.cdw10.toNat / 2 ^ 16 + 1
        ien := e.sqe.cdw11.getLsbD 1
        vector := e.sqe.cdw11.toNat / 2 ^ 16
        stamped := e.sqe.cdw13.getLsbD 0
        ring := e.sqe.cdw14.toNat + 2 ^ 32 * e.sqe.cdw15.toNat }
      finishEntry entry 0 0 (onCtrl e.ctrl (fun k => { k with cqs := k.cqs.put (e.sqe.cdw10.toNat % 2 ^ 16) q }) (fixAllocation e.ctrl s))) s

/-- Status of Create I/O Submission Queue. -/
def createSqStatus (s : State) (e : Entry) : Nat :=
  let id := e.sqe.cdw10.toNat % 2 ^ 16
  let cq := e.sqe.cdw11.toNat / 2 ^ 16
  firstStatus [
    failIf (decide (id = 0) || decide ((allocation s e.ctrl).1 < id) || (s.ctrl e.ctrl).sqs.has id) Status.invalidQueueId,
    failIf (decide (e.sqe.cdw10.toNat / 2 ^ 16 = 0)) Status.invalidQueueSize,
    failIf (!e.sqe.cdw11.getLsbD 0) Status.invalidField,
    failIf (decide (cq = 0) || decide ((allocation s e.ctrl).2 < cq)) Status.invalidQueueId,
    failIf (!(s.ctrl e.ctrl).cqs.has cq) Status.cqInvalid,
    failIf (e.sqe.cdw13.getLsbD 0 && !s.cmd.cfg.ext_enable) Status.invalidField]

/-- CREATE_IO_SUBMISSION_QUEUE (R313). -/
def execCreateIoSubmissionQueue (entry : Nat) (s : State) : Host.Outcome State Fault Refusal :=
  runEntry entry true 0x01 (fun e s =>
    let st := createSqStatus s e
    if st ≠ 0 then finishEntry entry st 0 s
    else
      let q : SubQueue := {
        size := e.sqe.cdw10.toNat / 2 ^ 16 + 1
        cqid := e.sqe.cdw11.toNat / 2 ^ 16
        prio := e.sqe.cdw11.toNat / 2 % 4
        halt_attr := e.sqe.cdw13.getLsbD 0 }
      finishEntry entry 0 0 (onCtrl e.ctrl (fun k => { k with sqs := k.sqs.put (e.sqe.cdw10.toNat % 2 ^ 16) q }) (fixAllocation e.ctrl s))) s

/-- DELETE_IO_SUBMISSION_QUEUE (R314): every command of the queue that has not posted ends so. -/
def execDeleteIoSubmissionQueue (entry : Nat) (s : State) : Host.Outcome State Fault Refusal :=
  runEntry entry true 0x00 (fun e s =>
    let id := e.sqe.cdw10.toNat % 2 ^ 16
    match (s.ctrl e.ctrl).sqs.find id with
    | none => finishEntry entry Status.invalidQueueId 0 s
    | some q =>
      if id = 0 ∨ q.closing then finishEntry entry Status.invalidQueueId 0 s
      else
        let s := onEntry entry (fun e => { e with state := .overlap }) (onSq e.ctrl id (fun q => { q with closing := true }) s)
        let l := s.nvme.tracker.filter fun p => p.2.ctrl == e.ctrl && p.2.sqid == id
        afterCommand (each (l.map Prod.fst) (fun t => failEntry t Status.abortedSqDeletion 0) s)) s

/-- DELETE_IO_COMPLETION_QUEUE (R314). -/
def execDeleteIoCompletionQueue (entry : Nat) (s : State) : Host.Outcome State Fault Refusal :=
  runEntry entry true 0x04 (fun e s =>
    let id := e.sqe.cdw10.toNat % 2 ^ 16
    let k := s.ctrl e.ctrl
    if id = 0 ∨ !k.cqs.has id then finishEntry entry Status.invalidQueueId 0 s
    else if k.sqs.vals.any fun q => q.cqid == id then finishEntry entry Status.invalidQueueDeletion 0 s
    else finishEntry entry 0 0 (disarm .coalesce (coalesceIdx e.ctrl id) (onCtrl e.ctrl (fun k => { k with cqs := k.cqs.drop id }) s))) s

/-! ### Abort, AER, Resume Queue, other opcodes -/

/-- Nothing of a command has been made: no piece held, no mapping update applied, no data written to the host (R352). -/
def abortable (e : Entry) : Bool :=
  e.state != .done && !e.effect && (e.slices.all fun x => x.pieces.all fun p => !p.held)
    && (e.sqid != 0 || e.state == .fetched || e.sqe.opcode == 0x0C)

/-- ABORT (R352); beyond the Abort Command Limit it completes with Abort Command Limit Exceeded. -/
def execAbortCommand (entry : Nat) (s : State) : Host.Outcome State Fault Refusal :=
  runEntry entry true 0x08 (fun e s =>
    let sqid := e.sqe.cdw10.toNat % 2 ^ 16
    let cid := e.sqe.cdw10.toNat / 2 ^ 16
    let aborts := (s.nvme.tracker.filter fun p => p.2.ctrl == e.ctrl && p.2.sqid == 0 && p.2.sqe.opcode == 0x08).length
    if 8 < aborts then finishEntry entry Status.abortLimit 0 s
    else match s.nvme.tracker.find? fun p => p.1 != entry && p.2.ctrl == e.ctrl && p.2.sqid == sqid && p.2.sqe.cid.toNat == cid with
      | some p =>
        if abortable p.2 then
          let s := onCtrl e.ctrl (fun k => { k with aer_requests := k.aer_requests.filter fun t => t != p.1 }) s
          wakeAll (finishEntry entry 0 0 (failEntry p.1 Status.abortRequested 0 s))
        else finishEntry entry 0 1 s
      | none => finishEntry entry 0 1 s) s

/-- ASYNCHRONOUS_EVENT_REQUEST (R751, R752): AERL is 7, so eight may be outstanding. -/
def execAsynchronousEventRequest (entry : Nat) (s : State) : Host.Outcome State Fault Refusal :=
  runEntry entry true 0x0C (fun e s =>
    let k := s.ctrl e.ctrl
    if 8 ≤ k.aer_requests.length then finishEntry entry Status.aerLimit 0 s
    else
      let s := onEntry entry (fun e => { e with state := .overlap })
        (onCtrl e.ctrl (fun k => { k with aer_requests := k.aer_requests ++ [entry] }) s)
      match k.aer_pending.find? fun a => !k.aer_masked.contains a.type with
      | some a => postAsync e.ctrl a (onCtrl e.ctrl (fun k => { k with aer_pending := k.aer_pending.erase a }) s)
      | none => s) s

/-- RESUME_QUEUE (table "Resume Queue outcomes"). -/
def execResumeQueue (entry : Nat) (s : State) : Host.Outcome State Fault Refusal :=
  runEntry entry true 0xC0 (fun e s =>
    let id := e.sqe.cdw10.toNat % 2 ^ 16
    match (s.ctrl e.ctrl).sqs.find id with
    | none => finishEntry entry Status.invalidQueueId 0 s
    | some q =>
      let overwritten := match q.halt_entry with
        | some n => !((s.ctrl e.ctrl).error_log.any fun x => x.error_count == n)
        | none => true
      if id = 0 then finishEntry entry Status.invalidQueueId 0 s
      else if !q.halted then finishEntry entry Status.queueNotHalted 0 s
      else if !q.halt_read && !overwritten then finishEntry entry Status.entryNotRead 0 s
      else finishEntry entry 0 0 (onSq e.ctrl id (fun q => { q with halted := false, halt_entry := none, halt_read := false }) s)) s

/-- Opcodes of the table "Supported commands". -/
def supportedOpcodes (admin : Bool) : List Nat :=
  if admin then [0x00, 0x01, 0x02, 0x04, 0x05, 0x06, 0x08, 0x09, 0x0A, 0x0C, 0x0D, 0x10, 0x11, 0x15, 0x1D, 0x1E, 0x80, 0x81,
    0x82, 0xC0, 0xC1, 0xC4]
  else [0x00, 0x01, 0x02, 0x05, 0x08, 0x09, 0x0C, 0x0D, 0x0E, 0x11, 0x15]

/-- INVALID_COMMAND_OPCODE (R348). -/
def execInvalidCommandOpcode (entry : Nat) (s : State) : Host.Outcome State Fault Refusal :=
  .next (match s.nvme.tracker.find entry with
    | some e =>
      if e.state == .fetched && dispatches s e && s.serving && !s.yard && !(supportedOpcodes (e.sqid == 0)).contains e.sqe.opcode.toNat then
        finishEntry entry Status.invalidOpcode 0 s
      else s
    | none => s)

end Sys2Proof.Machine
end

