-- ==== Sys2Proof/Machine/Reported.lean ====
section
/-!
DEFINITION. Register fields that report what the mapping, media and boot-array blocks hold: the values that reads of
their status registers compute.
-/

namespace Sys2Proof.Machine

/-- An uncleared Thermal Halt record is held, in the journal or in the retention register alone (R57, R205, R587). -/
def thRecord (s : State) : Bool := !(unclearedHalts s).isEmpty || !s.reset_ctl.retention.th_held.isEmpty

/-- Dirty frames of the map cache, 0 in resident mode (MAP_CACHE_DIRTY). -/
def dirtyFrames (s : State) : Nat :=
  if s.map.cfg.paged then (s.engine.cache.vals.filter CachedPage.dirty).length else 0

/-- ratio of RCL_THROTTLE (R469): saturates at 0xFFFF, 0 outside Foreground. -/
def throttleRatio (s : State) : Nat :=
  if levelFor s = 2 then
    match creditNeed s 0 with
    | some (_, r) => min 0xFFFF r
    | none => 0
  else 0

/-- Dies in states 0x2 to 0x4 (RED_DIE_COUNTS). -/
def diesFailed (s : State) : Nat := (s.redun.dies.vals.filter fun d => 2 ≤ d.state && d.state ≤ 4).length

/-- Dies becalmed (RED_DIE_COUNTS). -/
def diesBecalmed (s : State) : Nat := (s.redun.dies.vals.filter Die.becalmed).length

/-- State of the selected die (table "Die states"). -/
def dieStateShown (s : State) : Nat :=
  let d := s.red.dieSelect.toNat
  if s.declared d then (s.die d).state else 1

/-- Bit 4 × CE + LUN of each usable die of a channel (CHn_USABLE). -/
def usableMask (s : State) (c : Nat) : Nat := bitsOf ((channelDies c).map s.usable)

/-- Slices waiting for admission (CMD_ADMIT). -/
def slicesWaiting (s : State) : Nat :=
  total (s.nvme.tracker.vals.map fun e =>
    if e.state == .admitting then (e.slices.filter fun x => !x.admitted).length else 0)

/-- Queues halted on both controllers (CMD_HALT_STATUS). -/
def queuesHalted (s : State) : Nat :=
  ((s.nvme.ctrl0.sqs.vals ++ s.nvme.ctrl1.sqs.vals).filter SubQueue.halted).length

end Sys2Proof.Machine
end

