-- ==== Sys2Proof/Machine/RegMap.lean ====
section
/-!
DEFINITION. Reading and writing the registers by window and offset (R22, R26 to R28, R763 to R768): the value a
read of each register of the register index returns, and the effect of a write by field type.
-/

namespace Sys2Proof.Machine

/-- Width and read value of the register at offset `o` of window 0x00. -/
def readMgmt (s : State) (o : Nat) : Option (Nat × Nat) :=
  match o with
  | 0x0010 => some (32, s.mgmt.modeStatus.start_fail.toNat * 2 ^ 16 + (thRecord s).toNat * 2 ^ 14 + s.mgmt.modeStatus.ro_cause.toNat * 2 ^ 12 + s.mgmt.modeStatus.unanchored.toNat * 2 ^ 11 + (s.psm.status.in_force.toNat) % 2 ^ 3 * 2 ^ 8 + (s.prevMode.code) % 2 ^ 4 * 2 ^ 4 + (s.mode.code) % 2 ^ 4)  -- MGMT_MODE_STATUS
  | 0x0018 => some (64, s.mgmt.modeStamp.toNat)  -- MGMT_MODE_STAMP
  | 0x0000 => some (32, s.mgmt.deviceId.part.toNat * 2 ^ 16 + s.mgmt.deviceId.version.toNat * 2 ^ 12 + s.mgmt.deviceId.variant.toNat)  -- MGMT_DEVICE_ID
  | _ => none

/-- Width and read value of the register at offset `o` of window 0x01. -/
def readCamp (s : State) (o : Nat) : Option (Nat × Nat) :=
  match o with
  | 0x0000 => some (32, s.camp.ctrl.anchor_port.toNat)  -- CAMP_CTRL
  | 0x0004 => some (32, s.camp.status.offset_rejected.toNat * 2 ^ 15 + s.camp.status.issue_unanch.toNat * 2 ^ 14 + s.camp.status.preseed_overflow.toNat * 2 ^ 13 + s.camp.status.floor_src.toNat * 2 ^ 10 + s.camp.status.source.toNat * 2 ^ 8 + s.camp.status.clamped.toNat * 2 ^ 6 + s.camp.status.holdover.toNat * 2 ^ 5 + s.camp.status.anchored.toNat * 2 ^ 4 + s.camp.status.floor_seeded.toNat)  -- CAMP_STATUS
  | 0x0008 => some (64, (0) % 2 ^ 64)  -- CAMP_ISSUE
  | 0x0010 => some (64, s.camp.epochOffset.toNat)  -- CAMP_EPOCH_OFFSET
  | 0x0018 => some (64, s.camp.floor.toNat)  -- CAMP_FLOOR
  | 0x0020 => some (64, s.camp.reserve.toNat)  -- CAMP_RESERVE
  | 0x0028 => some (32, s.camp.stepLog.step_count.toNat * 2 ^ 16 + s.camp.stepLog.cause.toNat * 2 ^ 4 + s.camp.stepLog.backward.toNat)  -- CAMP_STEP_LOG
  | 0x002c => some (32, s.camp.syncStats.fail_count.toNat * 2 ^ 16 + s.camp.syncStats.good_count.toNat)  -- CAMP_SYNC_STATS
  | 0x0030 => some (64, s.camp.stepFrom.toNat)  -- CAMP_STEP_FROM
  | 0x0038 => some (64, s.camp.stepTo.toNat)  -- CAMP_STEP_TO
  | 0x0040 => some (64, s.camp.ptmInterval.toNat)  -- CAMP_PTM_INTERVAL
  | 0x0048 => some (64, s.camp.holdover.toNat)  -- CAMP_HOLDOVER
  | 0x0050 => some (64, s.camp.stepThresh.toNat)  -- CAMP_STEP_THRESH
  | 0x0058 => some (64, s.camp.reserveSpan.toNat)  -- CAMP_RESERVE_SPAN
  | 0x0060 => some (32, s.camp.rateAdj.toNat)  -- CAMP_RATE_ADJ
  | 0x0064 => some (32, s.camp.lastOffset.toNat)  -- CAMP_LAST_OFFSET
  | _ => none

/-- Width and read value of the register at offset `o` of window 0x02. -/
def readPad (s : State) (o : Nat) : Option (Nat × Nat) :=
  match o with
  | 0x0000 => some (32, s.pad.strapStatus.pwrdis_live.toNat * 2 ^ 14 + s.pad.strapStatus.strap_changed.toNat * 2 ^ 13 + s.pad.strapStatus.live.toNat * 2 ^ 8 + s.pad.strapStatus.dualport.toNat * 2 ^ 4 + s.pad.strapStatus.test_en.toNat * 2 ^ 3 + s.pad.strapStatus.casc_pos.toNat * 2 ^ 1 + s.pad.strapStatus.mast.toNat)  -- PAD_STRAP_STATUS
  | 0x0004 => some (32, s.pad.resetMap.tdo.toNat * 2 ^ 14 + s.pad.resetMap.kl_rst.toNat * 2 ^ 12 + s.pad.resetMap.led_fault.toNat * 2 ^ 10 + s.pad.resetMap.clkreq.toNat * 2 ^ 8 + s.pad.resetMap.nven.toNat * 2 ^ 6 + s.pad.resetMap.ch_other.toNat * 2 ^ 4 + s.pad.resetMap.ch_wp.toNat * 2 ^ 2 + s.pad.resetMap.ch_ce.toNat)  -- PAD_RESET_MAP
  | 0x0008 => some (32, s.pad.idcode.version.toNat * 2 ^ 28 + s.pad.idcode.part.toNat * 2 ^ 12 + s.pad.idcode.manufacturer.toNat * 2 ^ 1 + s.pad.idcode.one.toNat)  -- PAD_IDCODE
  | _ => none

/-- Width and read value of the register at offset `o` of window 0x03. -/
def readPwr (s : State) (o : Nat) : Option (Nat × Nat) :=
  match o with
  | 0x0000 => some (32, s.pwr.status.rail_fault.toNat * 2 ^ 20 + s.pwr.status.last_flush.toNat * 2 ^ 18 + s.pwr.status.shroud_lost.toNat * 2 ^ 17 + s.pwr.status.vin_ov.toNat * 2 ^ 16 + s.pwr.status.below_floor.toNat * 2 ^ 8 + s.pwr.status.bank_test.toNat * 2 ^ 7 + s.pwr.status.bank_fault.toNat * 2 ^ 6 + s.pwr.status.charging.toNat * 2 ^ 5 + s.pwr.status.holdup_active.toNat * 2 ^ 4 + s.pwr.status.loss_detected.toNat * 2 ^ 3 + s.pwr.status.vin_good.toNat * 2 ^ 2)  -- PWR_STATUS
  | 0x0004 => some (32, s.pwr.measure.bank_mv.toNat * 2 ^ 16 + s.pwr.measure.vin_mv.toNat)  -- PWR_MEASURE
  | 0x0008 => some (32, s.pwr.bankCap.test_count.toNat * 2 ^ 16 + s.pwr.bankCap.cap_uf.toNat)  -- PWR_BANK_CAP
  | 0x000c => some (32, s.pwr.shroudAllow.toNat)  -- PWR_SHROUD_ALLOW
  | 0x0010 => some (32, ((255 - s.pwr.pairMap.toNat)) % 2 ^ 8 * 2 ^ 24 + s.pwr.pairStatus.failed.toNat * 2 ^ 16 + s.pwr.pairStatus.npg.toNat * 2 ^ 8 + s.pwr.pairStatus.nven.toNat)  -- PWR_PAIR_STATUS
  | 0x0014 => some (32, s.pwr.ledger.floor_admit.toNat * 2 ^ 31 + ((shown s .media (capInForce s).2)) % 2 ^ 3 * 2 ^ 28 + ((min 0xFFFFF (admittedTotal s))) % 2 ^ 20)  -- PWR_LEDGER
  | 0x0018 => some (32, ((shown s .media (min 0xFFFFF (capInForce s).1))) % 2 ^ 20)  -- PWR_LEDGER_CAP
  | 0x0020 => some (64, s.pwr.flushLast.duration.toNat * 2 ^ 32 + s.pwr.flushLast.mib.toNat)  -- PWR_FLUSH_LAST
  | 0x0040 => some (32, s.pwr.vinLossMv.toNat)  -- PWR_VIN_LOSS_MV
  | 0x0044 => some (32, s.pwr.vinHoldMv.toNat)  -- PWR_VIN_HOLD_MV
  | 0x0048 => some (32, s.pwr.bankTargetMv.toNat)  -- PWR_BANK_TARGET_MV
  | 0x004c => some (32, s.pwr.bankChargeMa.toNat)  -- PWR_BANK_CHARGE_MA
  | 0x0050 => some (32, s.pwr.bankUf.toNat)  -- PWR_BANK_UF
  | 0x0054 => some (32, s.pwr.flushLoadMw.toNat)  -- PWR_FLUSH_LOAD_MW
  | 0x0058 => some (32, s.pwr.flushRate.toNat)  -- PWR_FLUSH_RATE
  | 0x005c => some (32, s.pwr.holdMargin.toNat)  -- PWR_HOLD_MARGIN
  | 0x0060 => some (32, s.pwr.driveCapMw.toNat)  -- PWR_DRIVE_CAP_MW
  | 0x0064 => some (32, s.pwr.pairMap.toNat)  -- PWR_PAIR_MAP
  | 0x0068 => some (32, s.pwr.opChargeA.program_mw.toNat * 2 ^ 16 + s.pwr.opChargeA.read_mw.toNat)  -- PWR_OP_CHARGE_A
  | 0x006c => some (32, s.pwr.opChargeB.erase_mw.toNat * 2 ^ 16 + s.pwr.opChargeB.transfer_mw.toNat)  -- PWR_OP_CHARGE_B
  | 0x0070 => some (32, s.pwr.opChargeC.toNat)  -- PWR_OP_CHARGE_C
  | 0x0080 => some (64, s.pwr.flushFixed.toNat)  -- PWR_FLUSH_FIXED
  | 0x0088 => some (64, s.pwr.nvenStagger.toNat)  -- PWR_NVEN_STAGGER
  | 0x0090 => some (64, s.pwr.npgTimeout.toNat)  -- PWR_NPG_TIMEOUT
  | 0x0098 => some (64, s.pwr.chargeTimeout.toNat)  -- PWR_CHARGE_TIMEOUT
  | 0x00a0 => some (64, s.pwr.bankTestInterval.toNat)  -- PWR_BANK_TEST_INTERVAL
  | _ => none

/-- Width and read value of the register at offset `o` of window 0x04. -/
def readRst (s : State) (o : Nat) : Option (Nat × Nat) :=
  match o with
  | 0x0000 => some (32, s.rst.cause.toNat)  -- RST_CAUSE
  | 0x0004 => some (32, s.rst.last.stamp_unanch.toNat * 2 ^ 12 + s.rst.last.mode_at.toNat * 2 ^ 8 + s.rst.last.deferred.toNat * 2 ^ 7 + s.rst.last.level.toNat * 2 ^ 4 + s.rst.last.source.toNat)  -- RST_LAST
  | 0x0008 => some (64, s.rst.lastStamp.toNat)  -- RST_LAST_STAMP
  | 0x0010 => some (32, (reachMap s 0 10) % 2 ^ 30)  -- RST_REACH_MAP_LO
  | 0x0014 => some (32, (reachMap s 10 6) % 2 ^ 18)  -- RST_REACH_MAP_HI
  | 0x0018 => some (32, s.rst.clkStatus.not_ready_count.toNat * 2 ^ 16 + (clockGoodBits s) % 2 ^ 8)  -- RST_CLK_STATUS
  | 0x0020 => some (64, s.rst.wdtTimeout.toNat)  -- RST_WDT_TIMEOUT
  | 0x0028 => some (32, s.rst.wdtStatus.stage1_count.toNat * 2 ^ 8 + s.rst.wdtStatus.stage1.toNat * 2 ^ 7 + s.rst.wdtStatus.core.toNat)  -- RST_WDT_STATUS
  | _ => none

/-- Width and read value of the register at offset `o` of window 0x05. -/
def readBa (s : State) (o : Nat) : Option (Nat × Nat) :=
  match o with
  | 0x0000 => some (32, s.ba.status.nonce_epoch.toNat * 2 ^ 16 + s.ba.status.journal_good.toNat * 2 ^ 8 + s.ba.status.epoch_advanced.toNat * 2 ^ 7 + s.ba.status.ba_worn.toNat * 2 ^ 6 + s.ba.status.ba_fail.toNat * 2 ^ 5 + s.ba.status.fallback.toNat * 2 ^ 4 + s.ba.status.slot_b_valid.toNat * 2 ^ 3 + s.ba.status.slot_a_valid.toNat * 2 ^ 2 + s.ba.status.active_slot.toNat)  -- BA_STATUS
  | 0x0008 => some (64, s.ba.slotInfoA.generation.toNat * 2 ^ 32 + s.ba.slotInfoA.sec_version.toNat)  -- BA_SLOT_INFO_A
  | 0x0010 => some (64, s.ba.slotInfoB.generation.toNat * 2 ^ 32 + s.ba.slotInfoB.sec_version.toNat)  -- BA_SLOT_INFO_B
  | _ => none

/-- Width and read value of the register at offset `o` of window 0x06. -/
def readMan (s : State) (o : Nat) : Option (Nat × Nat) :=
  match o with
  | 0x0000 => some (32, s.man.status.reject_reason.toNat * 2 ^ 16 + s.man.status.reject_copy.toNat * 2 ^ 13 + s.man.status.floor_pending.toNat * 2 ^ 12 + s.manifest.install.isSome.toNat * 2 ^ 11 + s.man.status.mirror_fail.toNat * 2 ^ 10 + s.man.status.copy_b_valid.toNat * 2 ^ 9 + s.man.status.copy_a_valid.toNat * 2 ^ 8 + s.man.status.defaults_only.toNat * 2 ^ 3 + s.man.status.fallback.toNat * 2 ^ 2 + s.man.status.applied_copy.toNat)  -- MAN_STATUS
  | 0x0008 => some (64, s.man.appliedGen.toNat)  -- MAN_APPLIED_GEN
  | 0x0010 => some (64, s.man.copyGenA.toNat)  -- MAN_COPY_GEN_A
  | 0x0018 => some (64, s.man.copyGenB.toNat)  -- MAN_COPY_GEN_B
  | 0x0020 => some (64, s.man.floor.toNat)  -- MAN_FLOOR
  | 0x0028 => some (32, s.man.rejectKey.toNat)  -- MAN_REJECT_KEY
  | 0x002c => some (32, s.man.installStatus.result.toNat * 2 ^ 16 + s.man.installStatus.target.toNat * 2 ^ 12 + s.man.installStatus.step.toNat * 2 ^ 4)  -- MAN_INSTALL_STATUS
  | _ => none

/-- Width and read value of the register at offset `o` of window 0x07. -/
def readPcie (s : State) (o : Nat) : Option (Nat × Nat) :=
  if 0x0100 ≤ o ∧ o < 0x0180 ∧ (o - 0x0100) % 0x8 = 0 then
    let k := (o - 0x0100) / 0x8
    some (64, (s.pcie.cmbWin.look (cmbWinDefault s k) k).enable.toNat * 2 ^ 63 + (s.pcie.cmbWin.look (cmbWinDefault s k) k).port.toNat * 2 ^ 62 + (s.pcie.cmbWin.look (cmbWinDefault s k) k).host_read.toNat * 2 ^ 61 + (s.pcie.cmbWin.look (cmbWinDefault s k) k).host_write.toNat * 2 ^ 60 + (s.pcie.cmbWin.look (cmbWinDefault s k) k).len.toNat * 2 ^ 32 + (s.pcie.cmbWin.look (cmbWinDefault s k) k).base.toNat * 2 ^ 16)
  else
  match o with
  | 0x0000 => some (32, s.pcie.portStatus0.tag_mode.toNat * 2 ^ 16 + s.pcie.portStatus0.rate.toNat * 2 ^ 12 + s.pcie.portStatus0.width.toNat * 2 ^ 6 + s.pcie.portStatus0.flit.toNat * 2 ^ 5 + s.pcie.portStatus0.d3hot.toNat * 2 ^ 4 + s.pcie.portStatus0.mse.toNat * 2 ^ 3 + s.pcie.portStatus0.bme.toNat * 2 ^ 2 + s.pcie.portStatus0.ptm_enabled.toNat * 2 ^ 1 + s.pcie.portStatus0.link_up.toNat)  -- PCIE_PORT_STATUS0
  | 0x0004 => some (32, s.pcie.portStatus1.tag_mode.toNat * 2 ^ 16 + s.pcie.portStatus1.rate.toNat * 2 ^ 12 + s.pcie.portStatus1.width.toNat * 2 ^ 6 + s.pcie.portStatus1.flit.toNat * 2 ^ 5 + s.pcie.portStatus1.d3hot.toNat * 2 ^ 4 + s.pcie.portStatus1.mse.toNat * 2 ^ 3 + s.pcie.portStatus1.bme.toNat * 2 ^ 2 + s.pcie.portStatus1.ptm_enabled.toNat * 2 ^ 1 + s.pcie.portStatus1.link_up.toNat)  -- PCIE_PORT_STATUS1
  | 0x0008 => some (32, s.pcie.cfg.cmb_enable.toNat * 2 ^ 3 + s.pcie.cfg.dual_permit.toNat * 2 ^ 2)  -- PCIE_CFG
  | 0x0010 => some (32, (tagsOutstanding s) % 2 ^ 16 * 2 ^ 16 + (tagsQuarantined s) % 2 ^ 16)  -- PCIE_TAG_STATUS
  | 0x0018 => some (32, s.pcie.errCount.uncorrectable.toNat * 2 ^ 16 + s.pcie.errCount.correctable.toNat)  -- PCIE_ERR_COUNT
  | 0x001c => some (32, s.pcie.lateCpl.toNat)  -- PCIE_LATE_CPL
  | 0x0020 => some (32, s.pcie.msixExt.toNat)  -- PCIE_MSIX_EXT
  | 0x0028 => some (32, s.pcie.cmbFence.win_err.toNat * 2 ^ 31 + (fencesOpen s) % 2 ^ 16)  -- PCIE_CMB_FENCE
  | _ => none

/-- Width and read value of the register at offset `o` of window 0x08. -/
def readCmd (s : State) (o : Nat) : Option (Nat × Nat) :=
  match o with
  | 0x0000 => some (32, (s.nvme.tracker.length) % 2 ^ 19)  -- CMD_TRACKER
  | 0x0004 => some (32, ((shown s .cmd ((slotsTotal s - slotsReserved s) * 4160 / 2 ^ 20))) % 2 ^ 11 * 2 ^ 16 + ((min 0xFFFF (slicesWaiting s))) % 2 ^ 16)  -- CMD_ADMIT
  | 0x0008 => some (32, s.cmd.haltStatus.last_sqid.toNat * 2 ^ 16 + (queuesHalted s) % 2 ^ 12)  -- CMD_HALT_STATUS
  | 0x000c => some (32, s.cmd.ceilGrants.toNat)  -- CMD_CEIL_GRANTS
  | 0x0010 => some (32, s.cmd.wbufCfg.toNat)  -- CMD_WBUF_CFG
  | 0x0018 => some (64, s.cmd.starveCeil.toNat)  -- CMD_STARVE_CEIL
  | 0x0020 => some (32, s.cmd.cfg.ext_enable.toNat * 2 ^ 15 + s.cmd.cfg.ns_limit.toNat)  -- CMD_CFG
  | _ => none

/-- Width and read value of the register at offset `o` of window 0x09. -/
def readMap (s : State) (o : Nat) : Option (Nat × Nat) :=
  match o with
  | 0x0000 => some (32, s.map.status.last_end.toNat * 2 ^ 8 + s.map.status.scan_mismatch.toNat * 2 ^ 7 + s.map.status.ckpt_fallback.toNat * 2 ^ 6 + (!s.engine.folding.isEmpty).toNat * 2 ^ 5 + s.map.status.fine_low.toNat * 2 ^ 4 + s.map.status.ckpt_busy.toNat * 2 ^ 3 + s.map.status.horizon_unanch.toNat * 2 ^ 2 + s.map.status.ckpt_unanch.toNat * 2 ^ 1 + s.map.cfg.paged.toNat)  -- MAP_STATUS
  | 0x0004 => some (32, (shown s .media (fineFree s)) % 2 ^ 31)  -- MAP_FINE_FREE
  | 0x0008 => some (32, (dirtyFrames s) % 2 ^ 24)  -- MAP_CACHE_DIRTY
  | 0x000c => some (32, s.map.staleCount.toNat)  -- MAP_STALE_COUNT
  | 0x0010 => some (64, s.map.cacheMiss.toNat)  -- MAP_CACHE_MISS
  | 0x0018 => some (64, s.map.specLaunched.toNat)  -- MAP_SPEC_LAUNCHED
  | 0x0020 => some (64, s.map.specConfirmed.toNat)  -- MAP_SPEC_CONFIRMED
  | 0x0028 => some (64, s.map.specDiscarded.toNat)  -- MAP_SPEC_DISCARDED
  | 0x0030 => some (64, s.map.ckptStamp.toNat)  -- MAP_CKPT_STAMP
  | 0x0038 => some (64, s.map.ckptHorizon.toNat)  -- MAP_CKPT_HORIZON
  | 0x0040 => some (64, s.map.scanChanges.stripes.toNat * 2 ^ 32 + s.map.scanChanges.applied.toNat)  -- MAP_SCAN_CHANGES
  | 0x0080 => some (32, s.map.cfg.fold_enable.toNat * 2 ^ 4 + s.map.cfg.stream_enable.toNat * 2 ^ 3 + s.map.cfg.hint_enable.toNat * 2 ^ 2 + s.map.cfg.spec_enable.toNat * 2 ^ 1 + s.map.cfg.paged.toNat)  -- MAP_CFG
  | 0x0084 => some (32, s.map.specCfg.streams.toNat * 2 ^ 23 + s.map.specCfg.spec_chan.toNat * 2 ^ 16 + s.map.specCfg.spec_total.toNat)  -- MAP_SPEC_CFG
  | 0x0088 => some (32, s.map.capacityGb.toNat)  -- MAP_CAPACITY_GB
  | 0x008c => some (32, s.map.fineMax.toNat)  -- MAP_FINE_MAX
  | 0x0090 => some (32, s.map.ckptStripes.toNat)  -- MAP_CKPT_STRIPES
  | 0x0094 => some (32, s.map.scanSamples.toNat)  -- MAP_SCAN_SAMPLES
  | 0x00a0 => some (64, s.map.ckptInterval.toNat)  -- MAP_CKPT_INTERVAL
  | 0x00a8 => some (64, s.map.wbAge.toNat)  -- MAP_WB_AGE
  | 0x00b0 => some (64, s.map.foldAge.toNat)  -- MAP_FOLD_AGE
  | 0x00b8 => some (64, s.map.hintAge.toNat)  -- MAP_HINT_AGE
  | _ => none

/-- Width and read value of the register at offset `o` of window 0x0A. -/
def readStr (s : State) (o : Nat) : Option (Nat × Nat) :=
  match o with
  | 0x0000 => some (32, (inFlightCount s) % 2 ^ 8 * 2 ^ 16 + s.str.status.replay_src.toNat * 2 ^ 4 + s.str.status.stays_lost.toNat * 2 ^ 3 + s.str.status.stay_repair.toNat * 2 ^ 2 + s.str.status.shape.toNat)  -- STR_STATUS
  | 0x0008 => some (64, s.str.serial.toNat)  -- STR_SERIAL
  | 0x0010 => some (32, s.str.failCount.closed.toNat * 2 ^ 16 + s.str.failCount.abandoned.toNat)  -- STR_FAIL_COUNT
  | 0x0014 => some (32, s.str.stayStatus.die1.toNat * 2 ^ 16 + s.str.stayStatus.die0.toNat)  -- STAY_STATUS
  | 0x0018 => some (32, s.str.stayGen.toNat)  -- STAY_GEN
  | 0x001c => some (32, (s.shroud.held.length) % 2 ^ 19)  -- SHR_STATUS
  | 0x0020 => some (32, (divUp s.shroud.records.length 64) % 2 ^ 11 * 2 ^ 16 + (occupancyWith s 0) % 2 ^ 11)  -- SHR_OCCUPANCY
  | 0x0080 => some (32, s.str.cfg.shroud_mib.toNat * 2 ^ 16 + s.str.cfg.inflight_max.toNat)  -- STR_CFG
  | 0x0088 => some (64, s.str.padAge.toNat)  -- STR_PAD_AGE
  | 0x0090 => some (64, s.str.stayFlushAge.toNat)  -- STAY_FLUSH_AGE
  | _ => none

/-- Width and read value of the register at offset `o` of window 0x0B. -/
def readRcl (s : State) (o : Nat) : Option (Nat × Nat) :=
  match o with
  | 0x0000 => some (32, s.rcl.status.last_class.toNat * 2 ^ 20 + s.rcl.status.counts_ready.toNat * 2 ^ 9 + s.rcl.status.ro_spares.toNat * 2 ^ 8 + s.rcl.status.spare_warn.toNat * 2 ^ 7 + (s.reclaim.victims.any fun v => v.cls == 3).toNat * 2 ^ 6 + s.rcl.status.idle.toNat * 2 ^ 5 + s.rcl.status.dtwin.toNat * 2 ^ 4 + s.rcl.status.plm_enabled.toNat * 2 ^ 3 + s.rcl.status.level.toNat)  -- RCL_STATUS
  | 0x0004 => some (32, (freeCount s) % 2 ^ 23)  -- RCL_FREE
  | 0x0008 => some (64, s.rcl.spares.initial.toNat * 2 ^ 32 + s.rcl.spares.spares.toNat)  -- RCL_SPARES
  | 0x0010 => some (64, s.rcl.needs.n_user.toNat * 2 ^ 32 + s.rcl.needs.n_meta.toNat * 2 ^ 16 + s.rcl.needs.n_spill.toNat)  -- RCL_NEEDS
  | 0x0018 => some (32, s.rcl.reserve.toNat)  -- RCL_RESERVE
  | 0x0020 => some (64, s.rcl.peStats.pe_max.toNat * 2 ^ 48 + s.rcl.peStats.pe_min.toNat * 2 ^ 32 + s.rcl.peStats.pe_mean.toNat * 2 ^ 16 + s.rcl.peStats.pct_used.toNat)  -- RCL_PE_STATS
  | 0x0028 => some (32, s.rcl.retired.erase_fail.toNat * 2 ^ 16 + s.rcl.retired.program_fail.toNat)  -- RCL_RETIRED
  | 0x0030 => some (64, s.rcl.copied.toNat)  -- RCL_COPIED
  | 0x0038 => some (32, (throttleRatio s) % 2 ^ 16 * 2 ^ 16 + s.rcl.throttle.stalls.toNat)  -- RCL_THROTTLE
  | 0x0080 => some (32, s.rcl.cfg.w_wear.toNat * 2 ^ 16 + s.rcl.cfg.w_age.toNat * 2 ^ 4 + s.rcl.cfg.plm_permit.toNat * 2 ^ 2 + s.rcl.cfg.wl_enable.toNat * 2 ^ 1)  -- RCL_CFG
  | 0x0084 => some (32, s.rcl.bgStart.toNat)  -- RCL_BG_START
  | 0x0088 => some (32, s.rcl.fgStart.toNat)  -- RCL_FG_START
  | 0x008c => some (32, s.rcl.fgFloor.toNat)  -- RCL_FG_FLOOR
  | 0x0090 => some (32, s.rcl.peRated.toNat)  -- RCL_PE_RATED
  | 0x0094 => some (32, s.rcl.wlSpread.toNat)  -- RCL_WL_SPREAD
  | 0x0098 => some (32, s.rcl.lsMargin.toNat)  -- RCL_LS_MARGIN
  | 0x009c => some (32, s.rcl.spareWarn.toNat)  -- RCL_SPARE_WARN
  | 0x00a0 => some (32, s.rcl.rdLimit.toNat)  -- RCL_RD_LIMIT
  | 0x00c0 => some (64, s.rcl.idleDelay.toNat)  -- RCL_IDLE_DELAY
  | 0x00c8 => some (64, s.rcl.ageCap.toNat)  -- RCL_AGE_CAP
  | 0x00d0 => some (64, s.rcl.retainAge.toNat)  -- RCL_RETAIN_AGE
  | 0x00d8 => some (64, s.rcl.dtwinTmax.toNat)  -- RCL_DTWIN_TMAX
  | 0x00e0 => some (64, s.rcl.ndwinTmin.toNat)  -- RCL_NDWIN_TMIN
  | _ => none

/-- Width and read value of the register at offset `o` of window 0x0C. -/
def readCh (s : State) (o : Nat) : Option (Nat × Nat) :=
  if 0x1000 ≤ o ∧ o < 0x1c00 ∧ (o - 0x1000) % 0x40 = 0 then
    let k := (o - 0x1000) / 0x40
    some (32, ((usableOn s k).length) % 2 ^ 8 * 2 ^ 24 + (s.ch.chnStatus.look ({}) k).found.toNat * 2 ^ 16 + (s.ch.chnStatus.look ({}) k).failed.toNat * 2 ^ 12 + (s.ch.chnStatus.look ({}) k).training.toNat * 2 ^ 11 + (s.ch.chnStatus.look ({}) k).degraded.toNat * 2 ^ 10 + (s.ch.chnStatus.look ({}) k).rate.toNat * 2 ^ 4 + (s.ch.chnStatus.look ({}) k).mode.toNat)
  else
  if 0x1004 ≤ o ∧ o < 0x1c04 ∧ (o - 0x1004) % 0x40 = 0 then
    let k := (o - 0x1004) / 0x40
    some (32, (s.ch.chnErr.look ({}) k).train_fail.toNat * 2 ^ 16 + (s.ch.chnErr.look ({}) k).timeouts.toNat)
  else
  if 0x1008 ≤ o ∧ o < 0x1c08 ∧ (o - 0x1008) % 0x40 = 0 then
    let k := (o - 0x1008) / 0x40
    some (32, (s.ch.chnCeFound.look (0) k).toNat)
  else
  if 0x100c ≤ o ∧ o < 0x1c0c ∧ (o - 0x100c) % 0x40 = 0 then
    let k := (o - 0x100c) / 0x40
    some (32, (usableMask s k) % 2 ^ 32)
  else
  match o with
  | 0x0000 => some (64, s.ch.failed.toNat)  -- CH_FAILED
  | 0x0008 => some (64, s.ch.degraded.toNat)  -- CH_DEGRADED
  | 0x0010 => some (64, s.ch.ldpcDecoded.toNat)  -- LDPC_DECODED
  | 0x0018 => some (64, s.ch.ldpcRetried.toNat)  -- LDPC_RETRIED
  | 0x0020 => some (64, s.ch.ldpcSoft.toNat)  -- LDPC_SOFT
  | 0x0028 => some (64, s.ch.ldpcUncorr.toNat)  -- LDPC_UNCORR
  | 0x0030 => some (64, s.ch.suspends.erase.toNat * 2 ^ 32 + s.ch.suspends.program.toNat)  -- CH_SUSPENDS
  | 0x0080 => some (32, s.ch.cfg.target_rate.toNat * 2 ^ 16 + s.ch.cfg.drive.toNat * 2 ^ 10 + s.ch.cfg.odt.toNat * 2 ^ 8 + s.ch.cfg.nv_ddr3_fallback.toNat)  -- CH_CFG
  | 0x0084 => some (32, s.ch.suspCfg.susp_reads_max.toNat * 2 ^ 24 + s.ch.suspCfg.erase_susp_max.toNat * 2 ^ 16 + s.ch.suspCfg.prog_susp_max.toNat * 2 ^ 8)  -- CH_SUSP_CFG
  | 0x0088 => some (32, s.ch.ldpcCfg.code.toNat * 2 ^ 26 + s.ch.ldpcCfg.iter_max.toNat * 2 ^ 18 + s.ch.ldpcCfg.soft_delta.toNat * 2 ^ 8 + s.ch.ldpcCfg.retry_max.toNat * 2 ^ 1 + s.ch.ldpcCfg.soft_enable.toNat)  -- LDPC_CFG
  | 0x008c => some (32, s.ch.refreshCfg.refresh_bits.toNat * 2 ^ 16 + s.ch.refreshCfg.refresh_level.toNat * 2 ^ 8 + s.ch.refreshCfg.erased_zeros.toNat)  -- CH_REFRESH_CFG
  | 0x0090 => some (32, s.ch.retrain.toNat)  -- CH_RETRAIN
  | 0x0098 => some (64, s.ch.retrainInterval.toNat)  -- CH_RETRAIN_INTERVAL
  | 0x00a0 => some (64, s.ch.eraseMinRun.toNat)  -- CH_ERASE_MIN_RUN
  | 0x00a8 => some (64, s.ch.progMinRun.toNat)  -- CH_PROG_MIN_RUN
  | 0x00b0 => some (64, s.ch.suspHoldMax.toNat)  -- CH_SUSP_HOLD_MAX
  | _ => none

/-- Width and read value of the register at offset `o` of window 0x0D. -/
def readRed (s : State) (o : Nat) : Option (Nat × Nat) :=
  match o with
  | 0x0000 => some (32, s.red.status.no_page.toNat * 2 ^ 11 + s.red.status.target_refused.toNat * 2 ^ 10 + s.red.status.fatal_shape.toNat * 2 ^ 9 + s.red.status.fallback_shape.toNat * 2 ^ 8 + s.red.status.from_shape.toNat * 2 ^ 6 + reshapeState s * 2 ^ 4 + (rebuildWaits s && !rebuildMode s).toNat * 2 ^ 1 + (rebuildWaits s).toNat)  -- RED_STATUS
  | 0x0004 => some (32, (diesFailed s) % 2 ^ 11 * 2 ^ 16 + (diesBecalmed s) % 2 ^ 11)  -- RED_DIE_COUNTS
  | 0x0008 => some (32, s.red.dieSelect.toNat)  -- RED_DIE_SELECT
  | 0x000c => some (32, ((min 255 (windowTimeouts s s.red.dieSelect.toNat))) % 2 ^ 8 * 2 ^ 24 + (s.die s.red.dieSelect.toNat).becalmed.toNat * 2 ^ 8 + ((s.die s.red.dieSelect.toNat).cause) % 2 ^ 4 * 2 ^ 4 + (shown s .media (dieStateShown s)) % 2 ^ 4)  -- RED_DIE_STATE
  | 0x0010 => some (32, s.red.rebuildDie.toNat)  -- RED_REBUILD_DIE
  | 0x0018 => some (64, s.red.rebuildProgress.total.toNat * 2 ^ 32 + s.red.rebuildProgress.walked.toNat)  -- RED_REBUILD_PROGRESS
  | 0x0020 => some (64, s.red.lost.stripes.toNat * 2 ^ 32 + s.red.lost.units.toNat)  -- RED_LOST
  | 0x0028 => some (64, s.red.recon.toNat)  -- RED_RECON
  | 0x0030 => some (32, s.red.becalmEvents.timeouts.toNat * 2 ^ 16 + s.red.becalmEvents.entries.toNat)  -- RED_BECALM_EVENTS
  | 0x0080 => some (32, s.red.cfg.target_shape.toNat * 2 ^ 24 + s.red.cfg.return_enable.toNat * 2 ^ 22 + s.red.cfg.rebuild_share.toNat * 2 ^ 12 + s.red.cfg.calm_reads.toNat * 2 ^ 8 + s.red.cfg.fail_count.toNat)  -- RED_CFG
  | 0x0084 => some (32, s.red.cfg2.die_retire_max.toNat * 2 ^ 16 + s.red.cfg2.rebuild_depth.toNat)  -- RED_CFG2
  | 0x0088 => some (64, s.red.readTimeout.toNat)  -- RED_READ_TIMEOUT
  | 0x0090 => some (64, s.red.window.toNat)  -- RED_WINDOW
  | 0x0098 => some (64, s.red.probeInterval.toNat)  -- RED_PROBE_INTERVAL
  | _ => none

/-- Width and read value of the register at offset `o` of window 0x0E. -/
def readThm (s : State) (o : Nat) : Option (Nat × Nat) :=
  match o with
  | 0x0000 => some (32, s.thm.status.tt_over.toNat * 2 ^ 20 + s.thm.status.hottest.toNat * 2 ^ 16 + s.thm.status.diode_valid.toNat * 2 ^ 8 + s.thm.status.ext_valid.toNat * 2 ^ 7 + s.thm.status.model_degraded.toNat * 2 ^ 6 + s.thm.status.running.toNat * 2 ^ 5 + s.thm.status.throttling.toNat * 2 ^ 4 + s.thm.status.clock_level.toNat * 2 ^ 2 + s.thm.status.level.toNat)  -- THM_STATUS
  | 0x0004 => some (32, s.thm.composite.max.toNat * 2 ^ 16 + s.thm.composite.composite.toNat)  -- THM_COMPOSITE
  | 0x0008 => some (32, s.thm.nodeSelect.toNat)  -- THM_NODE_SELECT
  | 0x000c => some (32, (nodeReported s) % 2 ^ 16 * 2 ^ 16 + (nodeReading s) % 2 ^ 16)  -- THM_NODE
  | 0x0010 => some (32, (nodeCorrection s) % 2 ^ 16)  -- THM_NODE_CAL
  | 0x0014 => some (32, (((thermalCap s).getD 0xFFFFF)) % 2 ^ 20)  -- THM_CAP
  | 0x0018 => some (64, s.thm.oscComp.t0.toNat * 2 ^ 48 + s.thm.oscComp.a2.toNat * 2 ^ 32 + s.thm.oscComp.a1.toNat * 2 ^ 16 + s.thm.oscComp.comp.toNat)  -- THM_OSC_COMP
  | 0x0080 => some (32, s.thm.thresh.halt.toNat * 2 ^ 24 + s.thm.thresh.throttle.toNat * 2 ^ 16 + s.thm.thresh.warn.toNat * 2 ^ 8 + s.thm.thresh.hyst.toNat)  -- THM_THRESH
  | 0x0084 => some (32, s.thm.cfg.k_x.toNat * 2 ^ 24 + s.thm.cfg.k_c.toNat * 2 ^ 16 + s.thm.cfg.k_b.toNat * 2 ^ 8 + s.thm.cfg.ext_pair.toNat * 2 ^ 4 + s.thm.cfg.method_b.toNat * 2 ^ 1 + s.thm.cfg.method_a.toNat)  -- THM_CFG
  | 0x0088 => some (32, s.thm.cfg2.toNat)  -- THM_CFG2
  | 0x008c => some (32, s.thm.cfg3.c_max.toNat * 2 ^ 8 + s.thm.cfg3.diode_limit.toNat)  -- THM_CFG3
  | 0x0090 => some (64, s.thm.step.toNat)  -- THM_STEP
  | 0x0098 => some (64, s.thm.calInterval.toNat)  -- THM_CAL_INTERVAL
  | 0x00a0 => some (64, s.thm.throttlePeriod.toNat)  -- THM_THROTTLE_PERIOD
  | _ => none

/-- Width and read value of the register at offset `o` of window 0x0F. -/
def readPsm (s : State) (o : Nat) : Option (Nat × Nat) :=
  if 0x0044 ≤ o ∧ o < 0x0070 ∧ (o - 0x0040) % 0x4 = 0 then
    let k := (o - 0x0040) / 0x4
    some (32, (s.psm.refusals.look ({}) k).expired.toNat * 2 ^ 16 + (s.psm.refusals.look ({}) k).refused.toNat)
  else
  match o with
  | 0x0000 => some (32, ((match s.power_states.handshake with | some x => x.target | none => 0)) % 2 ^ 4 * 2 ^ 16 + s.power_states.handshake.isSome.toNat * 2 ^ 15 + s.psm.status.patrol_phase.toNat * 2 ^ 13 + s.psm.status.refusal_unanch.toNat * 2 ^ 12 + s.psm.status.req1.toNat * 2 ^ 9 + s.psm.status.req0.toNat * 2 ^ 6 + s.psm.status.last_op.toNat * 2 ^ 3 + s.psm.status.in_force.toNat)  -- PSM_STATUS
  | 0x0004 => some (32, s.psm.lastRefusal.refusers.toNat * 2 ^ 16 + s.psm.lastRefusal.target.toNat * 2 ^ 12 + s.psm.lastRefusal.reason.toNat * 2 ^ 8 + s.psm.lastRefusal.block.toNat)  -- PSM_LAST_REFUSAL
  | 0x0008 => some (64, s.psm.lastRefusalStamp.toNat)  -- PSM_LAST_REFUSAL_STAMP
  | 0x0010 => some (64, s.psm.patrolStats.samples.toNat * 2 ^ 32 + s.psm.patrolStats.reports.toNat * 2 ^ 16 + s.psm.patrolStats.uncorr.toNat)  -- PSM_PATROL_STATS
  | 0x0018 => some (32, s.psm.patrolCursor.die.toNat * 2 ^ 12 + s.psm.patrolCursor.block.toNat)  -- PSM_PATROL_CURSOR
  | 0x001c => some (32, s.psm.transitions.entries.toNat * 2 ^ 16 + s.psm.transitions.io_returns.toNat)  -- PSM_TRANSITIONS
  | 0x0080 => some (32, s.psm.capPs1.toNat)  -- PSM_CAP_PS1
  | 0x0084 => some (32, s.psm.capPs2.toNat)  -- PSM_CAP_PS2
  | 0x0088 => some (32, s.psm.capPs3.toNat)  -- PSM_CAP_PS3
  | 0x008c => some (32, s.psm.capPs4.toNat)  -- PSM_CAP_PS4
  | 0x0090 => some (32, s.psm.patrolCfg.patrol_enable.toNat * 2 ^ 24 + s.psm.patrolCfg.patrol_delta.toNat * 2 ^ 16 + s.psm.patrolCfg.patrol_reads.toNat)  -- PSM_PATROL_CFG
  | 0x00a0 => some (64, s.psm.handshakeTimeout.toNat)  -- PSM_HANDSHAKE_TIMEOUT
  | 0x00a8 => some (64, s.psm.patrolPeriod.toNat)  -- PSM_PATROL_PERIOD
  | _ => none

/-- Width and read value of the register at offset `o` of window 0x10. -/
def readSec (s : State) (o : Nat) : Option (Nat × Nat) :=
  match o with
  | 0x0000 => some (32, (rangesEnabled s) % 2 ^ 8 * 2 ^ 16 + s.security.session.isSome.toNat * 2 ^ 5 + s.sec.status.nonce_prefetch.toNat * 2 ^ 4 + s.sec.status.sec_store_lost.toNat * 2 ^ 3 + (anyLocked s).toNat * 2 ^ 2 + (decide (0 < rangesEnabled s)).toNat * 2 ^ 1 + (s.security.store.manufactured && !s.yard).toNat)  -- SEC_STATUS
  | 0x0008 => some (64, s.sec.nonceNext.toNat)  -- SEC_NONCE_NEXT
  | 0x0010 => some (64, s.sec.nonceLimit.toNat)  -- SEC_NONCE_LIMIT
  | 0x0018 => some (64, s.sec.gcmCounts.sealed.toNat * 2 ^ 32 + s.sec.gcmCounts.opened.toNat)  -- SEC_GCM_COUNTS
  | 0x0020 => some (32, s.sec.gcmFail.toNat)  -- SEC_GCM_FAIL
  | 0x0028 => some (64, s.sec.xtsUnits.toNat)  -- SEC_XTS_UNITS
  | 0x0030 => some (32, ((min 0xFFFF s.security.digest_waiting.length)) % 2 ^ 16 * 2 ^ 16 + (contextsBusy s) % 2 ^ 16)  -- DIG_STATUS
  | 0x0034 => some (32, s.sec.flagFaults.sig.toNat * 2 ^ 20 + s.sec.flagFaults.gcm.toNat * 2 ^ 10 + s.sec.flagFaults.digest.toNat)  -- SEC_FLAG_FAULTS
  | 0x0038 => some (32, s.sec.sigCount.rejected.toNat * 2 ^ 16 + s.sec.sigCount.verified.toNat)  -- SIG_COUNT
  | 0x0080 => some (32, s.sec.cfg.pin_try_limit.toNat * 2 ^ 16 + s.sec.cfg.range_max.toNat * 2 ^ 8 + s.sec.cfg.opal_enable.toNat)  -- SEC_CFG
  | _ => none

/-- Width and read value of the register at offset `o` of window 0x11. -/
def readMem (s : State) (o : Nat) : Option (Nat × Nat) :=
  if 0x0040 ≤ o ∧ o < 0x0060 ∧ (o - 0x0040) % 0x8 = 0 then
    let k := (o - 0x0040) / 0x8
    some (64, (s.mem.scrSummary.look ({}) k).uncorrectable.toNat * 2 ^ 56 + (s.mem.scrSummary.look ({}) k).corrected.toNat * 2 ^ 40 + (s.mem.scrSummary.look ({}) k).read.toNat)
  else
  if 0x0060 ≤ o ∧ o < 0x0080 ∧ (o - 0x0060) % 0x8 = 0 then
    let k := (o - 0x0060) / 0x8
    some (64, (s.mem.scrPassStamp.look (0) k).toNat)
  else
  match o with
  | 0x0000 => some (64, s.mem.eccCount.dram_ue.toNat * 2 ^ 48 + s.mem.eccCount.dram_ce.toNat * 2 ^ 32 + s.mem.eccCount.sram_ue.toNat * 2 ^ 24 + s.mem.eccCount.sram_ce.toNat * 2 ^ 8)  -- MEM_ECC_COUNT
  | 0x0008 => some (64, s.mem.lastUe.memory.toNat * 2 ^ 60 + s.mem.lastUe.requester.toNat * 2 ^ 56 + s.mem.lastUe.stamp_unanch.toNat * 2 ^ 55 + s.mem.lastUe.address.toNat)  -- MEM_LAST_UE
  | 0x0010 => some (64, s.mem.lastUeStamp.toNat)  -- MEM_LAST_UE_STAMP
  | 0x0018 => some (32, s.mem.narrow.narrow.toNat * 2 ^ 16 + s.mem.narrow.cmb_partial.toNat)  -- MEM_NARROW
  | 0x0020 => some (32, s.mem.scrStatus.pass_unanch.toNat * 2 ^ 8 + s.mem.scrStatus.overrun.toNat * 2 ^ 4 + (scrubActive s) % 2 ^ 4)  -- SCR_STATUS
  | 0x0080 => some (32, s.mem.scrCfg.ce_warn.toNat * 2 ^ 16)  -- SCR_CFG
  | 0x0088 => some (64, s.mem.scrPeriodDram.toNat)  -- SCR_PERIOD_DRAM
  | 0x0090 => some (64, s.mem.scrPeriodSram.toNat)  -- SCR_PERIOD_SRAM
  | _ => none

/-- Width and read value of the register at offset `o` of window 0x12. -/
def readTsl (s : State) (o : Nat) : Option (Nat × Nat) :=
  match o with
  | 0x0000 => some (32, s.teasel.shift.isSome.toNat * 2 ^ 16 + s.tsl.status.rebuild.toNat)  -- TSL_STATUS
  | 0x0004 => some (32, (tslCount s 8 12) % 2 ^ 16 * 2 ^ 16 + (tslCount s 0 8) % 2 ^ 16)  -- TSL_OCCUPANCY0
  | 0x0008 => some (32, (tslCount s 14 16) % 2 ^ 16 * 2 ^ 16 + (tslCount s 12 14) % 2 ^ 16)  -- TSL_OCCUPANCY1
  | 0x0010 => some (64, s.tsl.searches.toNat)  -- TSL_SEARCHES
  | 0x0018 => some (64, s.tsl.hits.toNat)  -- TSL_HITS
  | 0x0020 => some (32, s.tsl.shifts.max_moves.toNat * 2 ^ 16 + s.tsl.shifts.count.toNat)  -- TSL_SHIFTS
  | 0x0024 => some (32, s.tsl.err.rebuilds.toNat * 2 ^ 16 + s.tsl.err.refused.toNat)  -- TSL_ERR
  | 0x0028 => some (32, s.tsl.probeAddr.toNat)  -- TSL_PROBE_ADDR
  | 0x0030 => some (64, s.tsl.probeHi.toNat)  -- TSL_PROBE_HI
  | 0x0038 => some (64, s.tsl.probeLo.toNat)  -- TSL_PROBE_LO
  | 0x0080 => some (32, s.tsl.cfg.toNat)  -- TSL_CFG
  | _ => none

/-- Width and read value of the register at offset `o` of window 0x13. -/
def readKk (s : State) (o : Nat) : Option (Nat × Nat) :=
  match o with
  | 0x0000 => some (32, s.kk.status.lost.toNat * 2 ^ 16 + s.kk.status.joined.toNat * 2 ^ 12 + (shown s .keaka s.kk.cfg.layout.toNat) % 2 ^ 2 * 2 ^ 10 + (shown s .keaka s.position) % 2 ^ 2 * 2 ^ 8 + (shown s .keaka (!s.yard).toNat) * 2 ^ 7 + s.kk.status.ident_mismatch.toNat * 2 ^ 6)  -- KK_STATUS
  | 0x0004 => some (32, s.kk.linkStatus0.width.toNat * 2 ^ 12 + s.kk.linkStatus0.state.toNat * 2 ^ 8 + s.kk.linkStatus0.peer.toNat * 2 ^ 6 + s.kk.linkStatus0.present.toNat * 2 ^ 5 + s.kk.linkStatus0.degraded.toNat * 2 ^ 4)  -- KK_LINK_STATUS0
  | 0x0008 => some (32, s.kk.linkStatus1.width.toNat * 2 ^ 12 + s.kk.linkStatus1.state.toNat * 2 ^ 8 + s.kk.linkStatus1.peer.toNat * 2 ^ 6 + s.kk.linkStatus1.present.toNat * 2 ^ 5 + s.kk.linkStatus1.degraded.toNat * 2 ^ 4)  -- KK_LINK_STATUS1
  | 0x0010 => some (32, s.kk.retry0.retrains.toNat * 2 ^ 16 + s.kk.retry0.replays.toNat)  -- KK_RETRY0
  | 0x0014 => some (32, s.kk.retry1.retrains.toNat * 2 ^ 16 + s.kk.retry1.replays.toNat)  -- KK_RETRY1
  | 0x0018 => some (32, s.kk.frameErr.length.toNat * 2 ^ 16 + s.kk.frameErr.crc.toNat)  -- KK_FRAME_ERR
  | 0x0020 => some (32, s.kk.time.delay.toNat * 2 ^ 16 + s.kk.time.offset.toNat)  -- KK_TIME
  | 0x0080 => some (32, s.kk.cfg.layout.toNat * 2 ^ 10 + s.kk.cfg.count.toNat * 2 ^ 8)  -- KK_CFG
  | 0x0084 => some (32, s.kk.topo.pos3.toNat * 2 ^ 16 + s.kk.topo.pos2.toNat * 2 ^ 8 + s.kk.topo.pos1.toNat)  -- KK_TOPO
  | 0x0088 => some (64, s.kk.joinTimeout.toNat)  -- KK_JOIN_TIMEOUT
  | 0x0090 => some (64, s.kk.linkTimeout.toNat)  -- KK_LINK_TIMEOUT
  | _ => none

/-- Width and read value of the register at offset `o` of window 0x14. -/
def readEvt (s : State) (o : Nat) : Option (Nat × Nat) :=
  if 0x0100 ≤ o ∧ o < 0x0180 ∧ (o - 0x0100) % 0x4 = 0 then
    let k := (o - 0x0100) / 0x4
    some (32, (s.evt.enable.look (evtEnableDefault k) k).toNat)
  else
  if 0x0180 ≤ o ∧ o < 0x0200 ∧ (o - 0x0180) % 0x4 = 0 then
    let k := (o - 0x0180) / 0x4
    some (32, (s.evt.route.look (0) k).toNat)
  else
  match o with
  | 0x0000 => some (32, s.evt.status.fatal.toNat * 2 ^ 7 + ((min 3 s.events.held.length)) % 2 ^ 2 * 2 ^ 5 + s.events.slot1.isSome.toNat * 2 ^ 4 + s.events.slot0.isSome.toNat * 2 ^ 3 + (slotStamp s.events.slot1).unanch.toNat * 2 ^ 1 + (slotStamp s.events.slot0).unanch.toNat)  -- EVT_STATUS
  | 0x0004 => some (32, s.evt.ringSeq.toNat)  -- EVT_RING_SEQ
  | 0x0008 => some (32, s.evt.hostSeq.toNat)  -- EVT_HOST_SEQ
  | 0x000c => some (32, s.evt.overflow.toNat)  -- EVT_OVERFLOW
  | 0x0010 => some (32, s.evt.irq.armed.toNat * 2 ^ 31 + s.evt.irq.port.toNat * 2 ^ 30 + s.evt.irq.vector.toNat)  -- EVT_IRQ
  | 0x0018 => some (64, ((slotStamp s.events.slot0).stamp.toNat) % 2 ^ 64)  -- ERR_SLOT0_STAMP
  | 0x0020 => some (64, ((slotStamp s.events.slot1).stamp.toNat) % 2 ^ 64)  -- ERR_SLOT1_STAMP
  | 0x0028 => some (32, s.evt.errCounts.nested.toNat * 2 ^ 16 + s.evt.errCounts.escalated.toNat * 2 ^ 8 + s.evt.errCounts.fatal.toNat)  -- ERR_COUNTS
  | _ => none

/-- A write of `v` to the register at offset `o` of window 0x01, by field type (R22). -/
def writeCamp (v : Nat) (o : Nat) (s : State) : State :=
  match o with
  | 0x0004 => { s with camp.status.offset_rejected := s.camp.status.offset_rejected && !v.testBit 15, camp.status.preseed_overflow := s.camp.status.preseed_overflow && !v.testBit 13 }  -- CAMP_STATUS
  | _ => s

/-- A write of `v` to the register at offset `o` of window 0x02, by field type (R22). -/
def writePad (v : Nat) (o : Nat) (s : State) : State :=
  match o with
  | 0x0000 => { s with pad.strapStatus.strap_changed := s.pad.strapStatus.strap_changed && !v.testBit 13 }  -- PAD_STRAP_STATUS
  | _ => s

/-- A write of `v` to the register at offset `o` of window 0x03, by field type (R22). -/
def writePwr (v : Nat) (o : Nat) (s : State) : State :=
  match o with
  | 0x0000 => { s with pwr.status.shroud_lost := s.pwr.status.shroud_lost && !v.testBit 17, pwr.status.vin_ov := s.pwr.status.vin_ov && !v.testBit 16 }  -- PWR_STATUS
  | 0x0014 => { s with pwr.ledger.floor_admit := s.pwr.ledger.floor_admit && !v.testBit 31 }  -- PWR_LEDGER
  | _ => s

/-- A write of `v` to the register at offset `o` of window 0x04, by field type (R22). -/
def writeRst (v : Nat) (o : Nat) (s : State) : State :=
  match o with
  | 0x0000 => { s with rst.cause := s.rst.cause &&& ~~~(BitVec.ofNat 16 (v / 2 ^ 0)) }  -- RST_CAUSE
  | 0x0028 => { s with rst.wdtStatus.stage1 := s.rst.wdtStatus.stage1 && !v.testBit 7 }  -- RST_WDT_STATUS
  | _ => s

/-- A write of `v` to the register at offset `o` of window 0x05, by field type (R22). -/
def writeBa (v : Nat) (o : Nat) (s : State) : State :=
  match o with
  | 0x0000 => { s with ba.status.epoch_advanced := s.ba.status.epoch_advanced && !v.testBit 7, ba.status.ba_fail := s.ba.status.ba_fail && !v.testBit 5 }  -- BA_STATUS
  | _ => s

/-- A write of `v` to the register at offset `o` of window 0x06, by field type (R22). -/
def writeMan (v : Nat) (o : Nat) (s : State) : State :=
  match o with
  | 0x0000 => { s with man.status.mirror_fail := s.man.status.mirror_fail && !v.testBit 10 }  -- MAN_STATUS
  | _ => s

/-- A write of `v` to the register at offset `o` of window 0x07, by field type (R22). -/
def writePcie (v : Nat) (o : Nat) (s : State) : State :=
  match o with
  | 0x0020 => { s with pcie.msixExt := v.testBit 0 }  -- PCIE_MSIX_EXT
  | 0x0028 => { s with pcie.cmbFence.win_err := s.pcie.cmbFence.win_err && !v.testBit 31 }  -- PCIE_CMB_FENCE
  | _ => s

/-- A write of `v` to the register at offset `o` of window 0x0A, by field type (R22). -/
def writeStr (v : Nat) (o : Nat) (s : State) : State :=
  match o with
  | 0x0000 => { s with str.status.stays_lost := s.str.status.stays_lost && !v.testBit 3 }  -- STR_STATUS
  | _ => s

/-- A write of `v` to the register at offset `o` of window 0x0D, by field type (R22). -/
def writeRed (v : Nat) (o : Nat) (s : State) : State :=
  match o with
  | 0x0000 => { s with red.status.no_page := s.red.status.no_page && !v.testBit 11, red.status.target_refused := s.red.status.target_refused && !v.testBit 10 }  -- RED_STATUS
  | 0x0008 => { s with red.dieSelect := BitVec.ofNat 11 (v / 2 ^ 0) }  -- RED_DIE_SELECT
  | _ => s

/-- A write of `v` to the register at offset `o` of window 0x0E, by field type (R22). -/
def writeThm (v : Nat) (o : Nat) (s : State) : State :=
  match o with
  | 0x0008 => { s with thm.nodeSelect := BitVec.ofNat 4 (v / 2 ^ 0) }  -- THM_NODE_SELECT
  | _ => s

/-- A write of `v` to the register at offset `o` of window 0x11, by field type (R22). -/
def writeMem (v : Nat) (o : Nat) (s : State) : State :=
  match o with
  | 0x0020 => { s with mem.scrStatus.overrun := s.mem.scrStatus.overrun &&& ~~~(BitVec.ofNat 4 (v / 2 ^ 4)) }  -- SCR_STATUS
  | _ => s

/-- A write of `v` to the register at offset `o` of window 0x13, by field type (R22). -/
def writeKk (v : Nat) (o : Nat) (s : State) : State :=
  match o with
  | 0x0000 => { s with kk.status.ident_mismatch := s.kk.status.ident_mismatch && !v.testBit 6 }  -- KK_STATUS
  | _ => s

/-- A write of `v` to the register at offset `o` of window 0x14, by field type (R22). -/
def writeEvt (v : Nat) (o : Nat) (s : State) : State :=
  if 0x0100 ≤ o ∧ o < 0x0180 ∧ (o - 0x0100) % 0x4 = 0 then
    let k := (o - 0x0100) / 0x4
    { s with evt.enable := s.evt.enable.put k (BitVec.ofNat 32 (v / 2 ^ 0)) }
  else
  if 0x0180 ≤ o ∧ o < 0x0200 ∧ (o - 0x0180) % 0x4 = 0 then
    let k := (o - 0x0180) / 0x4
    { s with evt.route := s.evt.route.put k (BitVec.ofNat 32 (v / 2 ^ 0)) }
  else
  match o with
  | 0x0008 => { s with evt.hostSeq := BitVec.ofNat 32 (v / 2 ^ 0) }  -- EVT_HOST_SEQ
  | 0x0010 => { s with evt.irq.armed := v.testBit 31, evt.irq.port := v.testBit 30, evt.irq.vector := BitVec.ofNat 12 (v / 2 ^ 0) }  -- EVT_IRQ
  | _ => s

/-- Width and value of the register at window `w`, offset `o`. -/
def readReg (s : State) (w o : Nat) : Option (Nat × Nat) :=
  match w with
  | 0x00 => readMgmt s o
  | 0x01 => readCamp s o
  | 0x02 => readPad s o
  | 0x03 => readPwr s o
  | 0x04 => readRst s o
  | 0x05 => readBa s o
  | 0x06 => readMan s o
  | 0x07 => readPcie s o
  | 0x08 => readCmd s o
  | 0x09 => readMap s o
  | 0x0a => readStr s o
  | 0x0b => readRcl s o
  | 0x0c => readCh s o
  | 0x0d => readRed s o
  | 0x0e => readThm s o
  | 0x0f => readPsm s o
  | 0x10 => readSec s o
  | 0x11 => readMem s o
  | 0x12 => readTsl s o
  | 0x13 => readKk s o
  | 0x14 => readEvt s o
  | _ => none

/-- A write by field type, any window (R22). -/
def writeReg (w o v : Nat) (s : State) : State :=
  match w with
  | 0x01 => writeCamp v o s
  | 0x02 => writePad v o s
  | 0x03 => writePwr v o s
  | 0x04 => writeRst v o s
  | 0x05 => writeBa v o s
  | 0x06 => writeMan v o s
  | 0x07 => writePcie v o s
  | 0x0a => writeStr v o s
  | 0x0d => writeRed v o s
  | 0x0e => writeThm v o s
  | 0x11 => writeMem v o s
  | 0x13 => writeKk v o s
  | 0x14 => writeEvt v o s
  | _ => s

end Sys2Proof.Machine
end

