-- ==== Sys2Proof/Machine/Access.lean ====
section
/-!
DEFINITION. Access to the Waidar extension space: windows and offsets, reads with their latch, writes by field type
and size (R22 to R28, R268 to R270), for a host and for a core.
-/

namespace Sys2Proof.Machine

/-- Window and offset of a BAR0 address in the extension space (R267, R763). -/
def windowOf (a : Nat) : Option (Nat × Nat) :=
  if 0x100000 ≤ a ∧ a < 0x1000000 then some ((a - 0x100000) / 0x10000, (a - 0x100000) % 0x10000) else none

/-- The domain of a register: MGMT where it holds an RWM field, else that of its window's row (R764). -/
def regDomain (s : State) (w o : Nat) : Domain :=
  if (imageShape w o).isSome then .mgmt else windowDomain s w o

/-- The register at window `w` that covers offset `o`: its offset, width and value. -/
def regAt (s : State) (w o : Nat) : Option (Nat × Nat × Nat) :=
  match readReg s w o with
  | some (n, v) => some (o, n, v)
  | none =>
    if 4 ≤ o ∧ o % 8 = 4 then
      match readReg s w (o - 4) with
      | some (64, v) => some (o - 4, 64, v)
      | _ => none
    else none

/-- The 32-bit word at offset `o` (a multiple of 4) as a read returns it, and the latch it leaves: `none` where the
register's domain is held in reset (R28, R268, R269). Every 64-bit register latches its upper word (R98, R223, R256, R301
and their fellows). -/
def readWord (s : State) (w o : Nat) : Option (Nat × State) :=
  match regAt s w o with
  | none => some (0, s)
  | some (b, n, v) =>
    if s.isHeld (regDomain s w b) then none
    else if w = 0x01 ∧ o = 0x08 then some (issueRead s)
    else if n = 64 ∧ o = b then
      some (v % 2 ^ 32, { s with time.latched := s.time.latched.put (w * 0x10000 + b) (v / 2 ^ 32) })
    else if n = 64 then
      match s.time.latched.find (w * 0x10000 + b) with
      | some u => some (u, { s with time.latched := s.time.latched.drop (w * 0x10000 + b) })
      | none => some (v / 2 ^ 32, s)
    else some (v % 2 ^ 32, s)

/-- Fields of the event window whose writes have conditions (R742, R749, R762). -/
def fixEvent (before : State) (s : State) : State :=
  let irq := s.evt.irq
  let old := before.evt.irq
  let port := if irq.port && !s.ep.dual then old.port else irq.port
  let vector := if irq.vector.toNat < s.vectors port.toNat then irq.vector else old.vector
  { s with
    evt.irq.port := port
    evt.irq.vector := vector
    evt.enable := s.evt.enable.over fun g v =>
      let fix := if g = 0 ∨ g = 1 then 1 else if g = 18 then 8 else 0
      (v &&& evtEnableDefault g) ||| fix
    evt.route := s.evt.route.over fun g v => v &&& evtEnableDefault g }

/-- A write of a whole register by field type (R22); a register whose domain is held in reset discards it (R269).
Registers whose writes act beyond their own fields: CAMP_CTRL, CAMP_EPOCH_OFFSET, TSL_PROBE_ADDR and the CMB windows. -/
def writeWhole (w o v : Nat) (s : State) : State :=
  if s.isHeld (regDomain s w o) then s
  else if w = 0x01 ∧ o = 0x00 then (if v.testBit 8 then redialog s else s)
  else if w = 0x01 ∧ o = 0x10 then offsetWritten v s
  else if w = 0x12 ∧ o = 0x28 then tslProbe (BitVec.ofNat 16 v) s
  else if w = 0x07 ∧ 0x100 ≤ o ∧ o < 0x180 ∧ o % 8 = 0 then windowWritten ((o - 0x100) / 8) v s
  else if w = 0x14 then fixEvent s (writeReg w o v s) else writeReg w o v s

/-- A write of one 32-bit word: a 64-bit register takes its value when the upper word is written (R27). A write to a register
whose domain is held is discarded, whichever word it is (R269). DESIGN CHOICE (log entry 86): an upper word written with no
lower word before it takes 0 as its lower word; R27 and R98 are silent there. -/
def writeWord (w o v : Nat) (s : State) : State :=
  match regAt s w o with
  | none => s
  | some (b, n, _) =>
    if s.isHeld (regDomain s w b) then s
    else if n = 64 then
      let k := w * 0x10000 + b
      if o = b then { s with time.half_written := s.time.half_written.put k (v % 2 ^ 32) }
      else
        let low := s.time.half_written.look 0 k
        writeWhole w b (low + 2 ^ 32 * (v % 2 ^ 32)) { s with time.half_written := s.time.half_written.drop k }
    else writeWhole w b (v % 2 ^ 32) s

/-- A write of 4 or 8 bytes at a naturally aligned offset; any other write is discarded (R26, R27). -/
def writeAligned (w o bytes v : Nat) (s : State) : State :=
  if bytes = 4 ∧ o % 4 = 0 then writeWord w o v s
  else if bytes = 8 ∧ o % 8 = 0 then
    match regAt s w o with
    | some (_, 64, _) => writeWhole w o v s
    | _ => writeWord w (o + 4) (v / 2 ^ 32) (writeWord w o (v % 2 ^ 32) s)
  else s

/-- Reads of `n` words from offset `o` up. -/
def readWords (w o : Nat) : Nat → State → Option (List Nat × State)
  | 0, s => some ([], s)
  | n + 1, s => do
    let (v, s) ← readWord s w o
    let (l, s) ← readWords w (o + 4) n s
    some (v :: l, s)

/-- A read of the extension space: aligned reads of 4 or 8 bytes return their words, any other read the bytes of the
containing word (R26); `none` asks for Completer Abort (R269). -/
def readAligned (w o bytes : Nat) (s : State) : Option (Bytes × State) :=
  if bytes = 8 ∧ o % 8 = 0 then
    (readWords w o 2 s).map fun p => (p.1.flatMap (leBytes 4), p.2)
  else
    (readWord s w (o - o % 4)).map fun p => (((leBytes 4 p.1).drop (o % 4)).take (min bytes (4 - o % 4)), p.2)

end Sys2Proof.Machine
end

