-- ==== Sys2Proof/Machine/Registers.lean ====
section
/-!
DEFINITION. Commands on the registers themselves: a read of the lower word of a wide register and a write of a register,
by a host or by a core (R22, R26 to R28, R670).
-/

namespace Sys2Proof.Machine

/-- A read of the extension space is answered (R26, R28, R268, R269). -/
def answerRead (port w o bytes : Nat) (s : State) : State :=
  match readAligned w o bytes s with
  | some (b, s) => say (.readData port 0 b) s
  | none => refuseRead port true s

/-- WIDE_REGISTER_LOWER_READ (R28): the lower word of a 64-bit register at a BAR0 address is read and latches the
upper word. -/
def execWideRegisterLowerRead (port offset : Nat) (s : State) : Host.Outcome State Fault Refusal :=
  match windowOf offset with
  | some (w, o) =>
    .next (memoryRead port (answerRead port w o 4) s)
  | none => .next s

/-- A core's write narrower than the word or misaligned to it is refused with a bus error (R670). -/
def refuseNarrow (core : Nat) (s : State) : State :=
  raise (src 13 2) core [] { s with mem.narrow.narrow := satAdd s.mem.narrow.narrow 1 }

/-- REGISTER_WRITE (R22, R26, R27, R670): a write of `bytes` bytes at a BAR0 address, by a host or by a core. -/
def execRegisterWrite (agent : WriteAgent) (offset bytes value : Nat) (s : State) :
    Host.Outcome State Fault Refusal :=
  match windowOf offset with
  | none => .next s
  | some (w, o) =>
    match agent with
    | .host port => .next (memoryWrite port (writeAligned w o bytes value) s)
    | .core n =>
      if (bytes = 4 ∧ o % 4 = 0) ∨ (bytes = 8 ∧ o % 8 = 0) then .next (writeAligned w o bytes value s)
      else .next (refuseNarrow n s)

end Sys2Proof.Machine
end

