-- ==== Sys2Proof/Machine/Endpoint.lean ====
section
/-!
DEFINITION. The endpoint's commands (chapter 7): links, configuration, Bus Master Enable and Function Level Reset, the
BARs, read completions and the errors a port reports.
-/

namespace Sys2Proof.Machine

/-! ### Links and configuration (R257 to R260, R276, R283 to R286, R299) -/

/-- A port whose link carries requests. -/
def State.linked (s : State) (n : Nat) : Bool := s.ctrls.contains n && (s.portStatus n).link_up && !s.yard

/-- Widths to which a port trains (table "Link configurations"). -/
def trainedWidths (s : State) : List Nat := if s.ep.dual then [8, 4, 2, 1] else [16, 8, 4, 2, 1]

/-- The mode and the reset state let port `n` train: its domain is released, at Start step 3 or later (R218, R299). -/
def mayTrain (s : State) (n : Nat) : Bool :=
  s.ctrls.contains n && !s.yard && !s.isHeld (if n = 0 then .port0 else .port1)
    && (match s.mode with
      | .hold => false
      | .flush => false
      | .thermalHalt => false
      | .start => decide (3 ≤ s.reset_ctl.start_step)
      | _ => true)

/-- PCIE_LINK_UP (R257, R259): `speed` is the rate code, 1 to 6; 64.0 GT/s is reached only in Flit mode. -/
def execPcieLinkUp (port width speed : Nat) (flit : Bool) (s : State) : Host.Outcome State Fault Refusal :=
  if mayTrain s port && !(s.portStatus port).link_up && (trainedWidths s).contains width && decide (1 ≤ speed)
      && decide (speed ≤ 6) && (flit || speed != 6) then
    .next (onPortStatus port (fun p => { p with
      link_up := true, width := BitVec.ofNat 6 width, rate := BitVec.ofNat 4 speed, flit := flit }) s)
  else .next s

/-- HOT_RESET_OR_LINK_DOWN (R179, R262, R299). -/
def execHotResetOrLinkDown (port : Nat) (down : Bool) (s : State) : Host.Outcome State Fault Refusal :=
  if s.linked port then
    let s := if down then raise (src (6 + port) 3) 0 [] s else s
    .next (afterEnded (assertSource (0xA + port) s))
  else .next s

/-- Run what a configuration write does, unless a Function Level Reset answers it with Request Retry Status (R285); in
Flush, Hold and Thermal Halt no request is taken (R166, R299). -/
def configured (n : Nat) (f : State → State) (s : State) : State :=
  if !s.reachable n then s else if (s.port n).flr = 0 then f s else say (.configRetry n) s

/-- The controller stops as R284 says: CSTS.CFS, no fetching, its commands end with no completion. -/
def stopController (c : Nat) (s : State) : State := afterEnded (endCommands c (setCfs c s))

/-- BUS_MASTER_ENABLE_CLEAR (R281, R283, R284). -/
def execBusMasterEnableClear (port : Nat) (s : State) : Host.Outcome State Fault Refusal :=
  .next (configured port (fun s =>
    if (s.portStatus port).bme then
      let s := quarantineAll port (onPortStatus port (fun p => { p with bme := false }) s)
      if (s.ctrl port).en then stopController port s else s
    else s) s)

/-- BUS_MASTER_ENABLE_SET (R283). -/
def execBusMasterEnableSet (port : Nat) (s : State) : Host.Outcome State Fault Refusal :=
  .next (configured port (fun s => grantAll (sendPending port (onPortStatus port (fun p => { p with bme := true }) s))) s)

/-- INITIATE_FLR (R285): steps 1 to 4. -/
def execInitiateFlr (port : Nat) (s : State) : Host.Outcome State Fault Refusal :=
  .next (configured port (fun s =>
    let s := assertSource (0xC + port) s
    if s.reset_ctl.sequence.isSome then s
    else afterEnded (endCommands port (quarantineAll port (onPort port (fun p => { p with flr := 4 }) s)))) s)

/-- The port as step 5 leaves it: MSI-X disabled, every vector masked, nothing pending; configuration at its defaults
but for Max_Payload_Size, PTM, the AER status and the MSI-X addresses and data (R285, R286). -/
def flrPort (p : Port) : Port :=
  { mps := p.mps, aer_correctable := p.aer_correctable, aer_uncorrectable := p.aer_uncorrectable,
    msix_table := p.msix_table.over fun _ x => { x with masked := true }, flr := 0, tags := p.tags,
    quarantined := p.quarantined, reads_waiting := p.reads_waiting }

/-- FLR_COMPLETE (R285, R286): steps 5 and 6. -/
def execFlrComplete (port : Nat) (s : State) : Host.Outcome State Fault Refusal :=
  if (s.port port).flr = 0 then .next s
  else
    let s := onPort port flrPort (functionReset port s)
    let s := onPortStatus port (fun p => { p with bme := false, mse := false, d3hot := false }) s
    .next (afterEnded (refreshTagMode port s))

/-- D3HOT_ENTRY (R284, last row of R299): with commands outstanding, as Bus Master Enable cleared with CC.EN 1. -/
def execD3hotEntry (port : Nat) (s : State) : Host.Outcome State Fault Refusal :=
  .next (configured port (fun s =>
    let busy := (s.ctrl port).en && s.nvme.tracker.vals.any fun e => e.ctrl == port
    let s := onPortStatus port (fun p => { p with d3hot := true }) s
    if busy then stopController port (quarantineAll port s) else s) s)

/-- A base address with one DWORD written: the bits below the size stay 0 (R266). -/
def barWritten (size : Nat) (old : BitVec 64) (high : Bool) (v : Nat) : BitVec 64 :=
  let low := if high then old.toNat % 2 ^ 32 else v % 2 ^ 32
  let up := if high then v % 2 ^ 32 else old.toNat / 2 ^ 32
  BitVec.ofNat 64 ((up * 2 ^ 32 + low) / size * size)

/-- What a configuration write changes (R264, R266, R271, R276, R279, R280, R297). -/
def writeConfig (n : Nat) (f : ConfigField) (s : State) : State :=
  match f with
  | .mps b => if [128, 256, 512].contains b then onPort n (fun p => { p with mps := b }) s else s
  | .mrrs b => if [128, 256, 512, 1024, 2048, 4096].contains b then onPort n (fun p => { p with mrrs := b }) s else s
  | .extTag on => refreshTagMode n (onPort n (fun p => { p with tag_ext := on }) s)
  | .tag10 on => refreshTagMode n (onPort n (fun p => { p with tag10 := on }) s)
  | .tag14 on => refreshTagMode n (onPort n (fun p => { p with tag14 := on }) s)
  | .ptmEnable on => onPortStatus n (fun p => { p with ptm_enabled := on }) s
  | .ctoValue c => onPort n (fun p => { p with cto_value := c % 16 }) s
  | .ctoDisable on => onPort n (fun p => { p with cto_disable := on }) s
  | .msixEnable on => sendPending n (onPort n (fun p => { p with msix_enable := on }) s)
  | .msixMask on => sendPending n (onPort n (fun p => { p with msix_masked := on }) s)
  | .ltrEnable on => onPort n (fun p => { p with ltr_enable := on }) s
  | .memSpace on => onPortStatus n (fun p => { p with mse := on }) s
  | .bar 0 high v => onPort n (fun p => { p with bar0 := barWritten (2 ^ 24) p.bar0 high v }) s
  | .bar 2 high v => onPort n (fun p => { p with bar2 := barWritten (2 ^ 25) p.bar2 high v }) s
  | .bar 4 high v => onPort n (fun p => { p with bar4 := barWritten (2 ^ 16) p.bar4 high v }) s
  | .bar _ _ _ => s
  | .d0 => grantAll (onPortStatus n (fun p => { p with d3hot := false }) s)
  | .other => s

/-- CONFIG_WRITE (R276, R279). -/
def execConfigWrite (port : Nat) (field : ConfigField) (s : State) : Host.Outcome State Fault Refusal :=
  .next (configured port (writeConfig port field) s)

/-! ### BAR0 (R267 to R271, R292, R305) -/

/-- CAP (table "Controller register values"): MQES 0xFFFF, CQR 1, AMS 0b01, TO 0xF0, NSSRS 1, NVM Command Set, CMBS 1. -/
def capValue : Nat := 0xFFFF + 2 ^ 16 + 2 ^ 17 + 0xF0 * 2 ^ 24 + 2 ^ 36 + 2 ^ 37 + 2 ^ 57

/-- CSTS: RDY, CFS, SHST and NSSRO. -/
def cstsValue (k : Controller) : Nat := k.rdy.toNat + 2 * k.cfs.toNat + 4 * k.shst + 16 * k.nssro.toNat

/-- CMBLOC: BIR 0x2, offset 0, or 16 for controller 1 in x8+x8 (R292). -/
def cmblocValue (s : State) (c : Nat) : Nat := 2 + (if s.ep.dual && c == 1 then 16 * 2 ^ 12 else 0)

/-- CMBSZ: SQS, LISTS, RDS and WDS 1, SZU 1 MiB, SZ 32 or 16; 0 while cmb_enable is 0 (R292). -/
def cmbszValue (s : State) : Nat :=
  if s.pcie.cfg.cmb_enable then 1 + 4 + 8 + 16 + 2 * 2 ^ 8 + (if s.ep.dual then 16 else 32) * 2 ^ 12 else 0

/-- A 32-bit word of the NVMe registers; what the device does not implement reads 0 (R267, R305). -/
def nvmeWord (s : State) (c o : Nat) : Nat :=
  let k := s.ctrl c
  match o with
  | 0x00 => capValue % 2 ^ 32
  | 0x04 => capValue / 2 ^ 32
  | 0x08 => 0x00020000
  | 0x14 => k.cc
  | 0x1C => cstsValue k
  | 0x24 => k.aqa
  | 0x28 => k.asq % 2 ^ 32
  | 0x2C => k.asq / 2 ^ 32
  | 0x30 => k.acq % 2 ^ 32
  | 0x34 => k.acq / 2 ^ 32
  | 0x38 => if s.pcie.cfg.cmb_enable then cmblocValue s c else 0
  | 0x3C => cmbszValue s
  | 0x50 => k.cmbmsc % 2 ^ 32
  | 0x54 => k.cmbmsc / 2 ^ 32
  | _ => 0

/-- The outcome's next state. -/
def settled (o : Host.Outcome State Fault Refusal) (s : State) : State := match o with | .next t => t | _ => s

/-- CC is written: enable, reset, or a shutdown notification (R305, R308, R309). -/
def ccWritten (c v : Nat) (s : State) : State :=
  let k := s.ctrl c
  if !k.en then
    if v.testBit 0 then enableController c (BitVec.ofNat 32 v) s else onCtrl c (fun k => { k with cc := v }) s
  else if !v.testBit 0 then settled (execControllerReset c s) s
  else
    match v / 2 ^ 14 % 4 with
    | 1 => settled (execShutdownNormal c s) s
    | 2 => settled (execShutdownAbrupt c s) s
    | _ => onCtrl c (fun k => { k with cc := v }) s

/-- A word with its low or high half replaced. -/
def halfSet (old v : Nat) (high : Bool) : Nat := if high then old % 2 ^ 32 + v * 2 ^ 32 else old / 2 ^ 32 * 2 ^ 32 + v

/-- A 32-bit word of the NVMe registers or doorbells is written (R267, R306, R315). -/
def nvmeWrite (c o v : Nat) (s : State) : State :=
  match o with
  | 0x14 => ccWritten c v s
  | 0x1C => if v.testBit 4 then onCtrl c (fun k => { k with nssro := false }) s else s
  | 0x20 => settled (execNvmSubsystemReset c (BitVec.ofNat 32 v) s) s
  | 0x24 => onCtrl c (fun k => { k with aqa := v }) s
  | 0x28 => onCtrl c (fun k => { k with asq := halfSet k.asq v false }) s
  | 0x2C => onCtrl c (fun k => { k with asq := halfSet k.asq v true }) s
  | 0x30 => onCtrl c (fun k => { k with acq := halfSet k.acq v false }) s
  | 0x34 => onCtrl c (fun k => { k with acq := halfSet k.acq v true }) s
  | 0x50 => onCtrl c (fun k => { k with cmbmsc := halfSet k.cmbmsc v false }) s
  | 0x54 => onCtrl c (fun k => { k with cmbmsc := halfSet k.cmbmsc v true }) s
  | _ =>
    if 0x1000 ≤ o ∧ o < 0x5008 ∧ (s.ctrl c).rdy then
      if o % 8 = 0 then tailWritten c ((o - 0x1000) / 8) v s
      else if o % 8 = 4 then headWritten c ((o - 0x1000) / 8) v s
      else s
    else s

/-- A write of 4 or 8 bytes below the extension space. -/
def nvmeWrites (c o bytes v : Nat) (s : State) : State :=
  if bytes = 4 ∧ o % 4 = 0 then nvmeWrite c o (v % 2 ^ 32) s
  else if bytes = 8 ∧ o % 8 = 0 then nvmeWrite c (o + 4) (v / 2 ^ 32 % 2 ^ 32) (nvmeWrite c o (v % 2 ^ 32) s)
  else s

/-- Bytes of a read below the extension space. -/
def nvmeBytes (s : State) (c o bytes : Nat) : Bytes :=
  ((((List.range 3).flatMap fun i => leBytes 4 (nvmeWord s c (o - o % 4 + 4 * i))).drop (o % 4)).take (min bytes 8))

/-- BAR0_ACCESS (R26 to R28, R267 to R271). -/
def execBar0Access (port offset bytes : Nat) (data : Option Nat) (s : State) : Host.Outcome State Fault Refusal :=
  match data with
  | some v => .next (memoryWrite port (fun s => match windowOf offset with
      | some (w, o) => writeAligned w o bytes v s
      | none => nvmeWrites port offset bytes v s) s)
  | none => .next (memoryRead port (fun s => match windowOf offset with
      | some (w, o) => answerRead port w o bytes s
      | none => say (.readData port 0 (nvmeBytes s port offset bytes)) s) s)

/-! ### BAR2 and BAR4 (R287 to R290, R294) -/

/-- CMB_READ (R287, R289). -/
def execCmbRead (port offset len : Nat) (s : State) : Host.Outcome State Fault Refusal :=
  .next (memoryRead port (cmbRequest (offset / 2 ^ 21) (.read port offset len)) s)

/-- CMB_WRITE (R287, R289, R672). -/
def execCmbWrite (port offset : Nat) (data : Bytes) (enables : List Bool) (s : State) :
    Host.Outcome State Fault Refusal :=
  .next (memoryWrite port (cmbRequest (offset / 2 ^ 21) (.write port offset data enables)) s)

/-- CMB_WINDOW_WRITE (R288 to R290). -/
def execCmbWindowWrite (slot : Nat) (value : BitVec 64) (s : State) : Host.Outcome State Fault Refusal :=
  if 16 ≤ slot ∨ s.isHeld (if (s.window slot).port then .port1 else .port0) then .next s
  else .next (windowWritten slot value.toNat s)

/-- CMB_FENCE_END (R289, R290). -/
def execCmbFenceEnd (slot : Nat) (s : State) : Host.Outcome State Fault Refusal := .next (endFence slot s)

/-- A 32-bit word of BAR4: the MSI-X table and the PBA; 0 elsewhere (R294). -/
def msixWord (s : State) (n o : Nat) : Nat :=
  let e := (s.port n).msix_table.look {} (o / 16)
  if o / 16 < s.vectors n then
    match o % 16 with
    | 0 => e.address.toNat % 2 ^ 32
    | 4 => e.address.toNat / 2 ^ 32
    | 8 => e.data.toNat
    | _ => e.masked.toNat
  else if 0x9000 ≤ o then
    bitsOf ((List.range 32).map fun i => (s.port n).pba.contains ((o - 0x9000) * 8 + i))
  else 0

/-- A 32-bit word of an MSI-X entry is written; the PBA and what lies outside the table discard writes (R294, R297). -/
def msixWrite (n o v : Nat) (s : State) : State :=
  if o / 16 < s.vectors n then
    let e := (s.port n).msix_table.look {} (o / 16)
    let e := match o % 16 with
      | 0 => { e with address := BitVec.ofNat 64 (halfSet e.address.toNat v false / 4 * 4) }
      | 4 => { e with address := BitVec.ofNat 64 (halfSet e.address.toNat v true) }
      | 8 => { e with data := BitVec.ofNat 32 v }
      | _ => { e with masked := v.testBit 0 }
    sendPending n (onPort n (fun p => { p with msix_table := p.msix_table.put (o / 16) e }) s)
  else s

/-- MSIX_TABLE_ACCESS (R294): reads and writes of 4 or 8 bytes; any other write is discarded. -/
def execMsixTableAccess (port offset bytes : Nat) (data : Option Nat) (s : State) : Host.Outcome State Fault Refusal :=
  match data with
  | some v => .next (memoryWrite port (fun s =>
      if bytes = 4 ∧ offset % 4 = 0 then msixWrite port offset (v % 2 ^ 32) s
      else if bytes = 8 ∧ offset % 8 = 0 then
        msixWrite port (offset + 4) (v / 2 ^ 32 % 2 ^ 32) (msixWrite port offset (v % 2 ^ 32) s)
      else s) s)
  | none => .next (memoryRead port (fun s =>
      let words := (List.range 3).flatMap fun i => leBytes 4 (msixWord s port (offset - offset % 4 + 4 * i))
      say (.readData port 0 ((words.drop (offset % 4)).take (min bytes 8))) s) s)

/-! ### Completions of device reads (R278 to R282) -/

/-- The command of an ended request aborts with Data Transfer Error (R282). -/
def failRead (r : ReadRequest) (s : State) : State :=
  match r.purpose with
  | .data t _ => afterEnded (failEntry t Status.dataTransfer 0 s)
  | .dropped => grantAll s

/-- Data of a consistent completion arrives (R278). -/
def readArrived (n g : Nat) (r : ReadRequest) (b : Bytes) (s : State) : State :=
  let s := match r.purpose with
    | .data t o => placeData t (o + r.position) b s
    | .dropped => s
  if r.remaining = b.length then
    let s := grantAll (dropRead n g s)
    match r.purpose with
    | .data t _ => dataArrived t s
    | .dropped => s
  else
    onPort n (fun p => { p with tags := p.tags.put g { r with position := r.position + b.length, remaining := r.remaining - b.length } }) s

/-- A completion for a quarantined tag is discarded and counted; it ends its request when it is the last or carries an
error (R281). -/
def lateCompletion (n g left : Nat) (ends : Bool) (b : Bytes) (s : State) : State :=
  let s := { s with pcie.lateCpl := satAdd s.pcie.lateCpl 1 }
  if ends || decide (left ≤ b.length) then
    grantAll (disarm .quarantine (tagIdx n g) (onPort n (fun p => { p with quarantined := p.quarantined.drop g }) s))
  else onPort n (fun p => { p with quarantined := p.quarantined.put g (left - b.length) }) s

/-- READ_COMPLETION_RECEIVED (R278, R281, R282); one that arrives in Flush is discarded (R166). -/
def execReadCompletionReceived (port tag : Nat) (outcome : CplOutcome) (data : Bytes) (s : State) :
    Host.Outcome State Fault Refusal :=
  if !s.reachable port then .next s
  else match (s.port port).tags.find tag with
    | some r =>
      let wrong := uncorrectable port "Malformed TLP" s
      match outcome with
      | .success =>
        if data.length = 0 ∨ r.remaining < data.length then .next (failRead r (quarantine port tag wrong))
        else .next (readArrived port tag r data s)
      | .unsupported => .next (failRead r (raise (src (6 + port) 1) 0 [] (dropRead port tag s)))
      | .abort => .next (failRead r (raise (src (6 + port) 1) 0 [] (dropRead port tag s)))
      | .poisoned => .next (failRead r (uncorrectable port "Poisoned TLP Received" (dropRead port tag s)))
      | .inconsistent => .next (failRead r (quarantine port tag wrong))
    | none => match (s.port port).quarantined.find tag with
      | some left => .next (lateCompletion port tag left (match outcome with
          | .unsupported => true
          | .abort => true
          | _ => false) data s)
      | none => .next (uncorrectable port "Unexpected Completion" s)

/-- COMPLETION_TIMEOUT (R280, R282). -/
def execCompletionTimeout (port tag : Nat) (s : State) : Host.Outcome State Fault Refusal :=
  if s.due .tagTimeout (tagIdx port tag) then
    match (s.port port).tags.find tag with
    | some r =>
      let s := if (s.port port).cto_disable then s else uncorrectable port "Completion Timeout" s
      .next (failRead r (quarantine port tag s))
    | none => .next (disarm .tagTimeout (tagIdx port tag) s)
  else .next s

/-- TAG_QUARANTINE_EXPIRY (R281). -/
def execTagQuarantineExpiry (port tag : Nat) (s : State) : Host.Outcome State Fault Refusal :=
  if s.due .quarantine (tagIdx port tag) then
    .next (grantAll (disarm .quarantine (tagIdx port tag) (onPort port (fun p => { p with quarantined := p.quarantined.drop tag }) s)))
  else .next s

/-! ### Errors (R298) -/

/-- POISONED_WRITE_RECEIVED (R298): the write is discarded, the target unchanged. -/
def execPoisonedWriteReceived (port bar : Nat) (bytes : Bytes) (s : State) : Host.Outcome State Fault Refusal :=
  if s.reachable port ∧ (bar = 0 ∨ bar = 2 ∨ bar = 4) ∧ bytes ≠ [] then .next (uncorrectable port "Poisoned TLP Received" s)
  else .next s

/-- MALFORMED_TLP_RECEIVED (R298). -/
def execMalformedTlpReceived (port : Nat) (s : State) : Host.Outcome State Fault Refusal :=
  if s.linked port then .next (uncorrectable port "Malformed TLP" s) else .next s

/-- Bit of the correctable error status that a condition sets, as the PCI Express Base Specification numbers them. -/
def LinkError.bit (e : LinkError) : Nat :=
  match e with
  | .receiver => 0 | .badTlp => 6 | .badDllp => 7 | .replayRollover => 8 | .replayTimeout => 12 | .internal => 14

/-- LINK_CORRECTABLE_ERROR (R298): counted. -/
def execLinkCorrectableError (port : Nat) (kind : LinkError) (s : State) : Host.Outcome State Fault Refusal :=
  if s.linked port then
    .next { onPort port (fun p => { p with aer_correctable := p.aer_correctable ||| 2 ^ kind.bit }) s with
      pcie.errCount.correctable := satAdd s.pcie.errCount.correctable 1 }
  else .next s

/-- ENDPOINT_INTERNAL_ERROR (R298, R53): CSTS.CFS on the port's controller. -/
def execEndpointInternalError (port : Nat) (s : State) : Host.Outcome State Fault Refusal :=
  if s.linked port then .next (setCfs port (uncorrectable port "Uncorrectable Internal Error" s)) else .next s

end Sys2Proof.Machine
end

