-- ==== Sys2Proof/Machine/Features.lean ====
section
/-!
DEFINITION. Features (R354): Get Features and every Set Features but Power Management (R311, R316, R329, R474 to R477, R591,
R751, R304).
-/

namespace Sys2Proof.Machine

/-- Feature identifiers of the table "Features supported". -/
def supportedFeatures : List Nat :=
  [0x01, 0x02, 0x04, 0x07, 0x08, 0x09, 0x0A, 0x0B, 0x0E, 0x13, 0x14, 0x81, 0x82, 0x83]

/-- Feature identifier of a command. -/
def Sqe.fid (q : Sqe) : Nat := q.cdw10.toNat % 256

/-- A save is asked for; no feature is saveable (R354). -/
def Sqe.save (q : Sqe) : Bool := q.cdw10.getLsbD 31

/-- Run a Set Features of one identifier: with a save it ends as not saveable. -/
def runFeature (t fid : Nat) (f : Entry → State → State) (s : State) : Host.Outcome State Fault Refusal :=
  .next (match fetchedEntry t true 0x09 s with
    | some e => if e.sqe.fid ≠ fid then s else if e.sqe.save then finishEntry t Status.notSaveable 0 s else f e s
    | none => s)

/-- End with a status where a condition holds, else go on and succeed with `dw0`. -/
def featureDone (t : Nat) (bad : Bool) (status dw0 : Nat) (f : State → State) (s : State) : State :=
  if bad then finishEntry t status 0 s else finishEntry t 0 dw0 (f s)

/-- SET_FEATURES_ARBITRATION (R316). -/
def execSetFeaturesArbitration (entry : Nat) (s : State) : Host.Outcome State Fault Refusal :=
  runFeature entry 0x01 (fun e s => featureDone entry false 0 0 (onCtrl e.ctrl fun k => { k with
    arb_burst := e.sqe.cdw11.toNat % 8
    weights := e.sqe.cdw11.toNat / 256 }) s) s

/-- SET_FEATURES_TEMPERATURE_THRESHOLD (R591): the comparisons are made again. -/
def execSetFeaturesTemperatureThreshold (entry : Nat) (s : State) : Host.Outcome State Fault Refusal :=
  runFeature entry 0x04 (fun e s =>
    let v : Int := e.sqe.cdw11.toNat % 2 ^ 16
    let sel := e.sqe.cdw11.toNat / 2 ^ 16 % 16
    let th := e.sqe.cdw11.toNat / 2 ^ 20 % 4
    featureDone entry (decide (8 < sel) || decide (1 < th)) Status.invalidField 0 (fun s =>
      noteHealth (onCtrl e.ctrl (fun k =>
        if th = 0 then { k with temp_over := k.temp_over.put sel v } else { k with temp_under := k.temp_under.put sel v }) s)) s) s

/-- SET_FEATURES_NUMBER_OF_QUEUES (R311). PRESUMED (log entry 81): 65,535 is no count a host may ask for. -/
def execSetFeaturesNumberOfQueues (entry : Nat) (s : State) : Host.Outcome State Fault Refusal :=
  runFeature entry 0x07 (fun e s =>
    let sq := e.sqe.cdw11.toNat % 2 ^ 16
    let cq := e.sqe.cdw11.toNat / 2 ^ 16
    if (s.ctrl e.ctrl).granted.isSome then finishEntry entry Status.sequenceError 0 s
    else if sq = 65535 ∨ cq = 65535 then finishEntry entry Status.invalidField 0 s
    else
      let a := min (sq + 1) (queueLimit s)
      let b := min (cq + 1) (queueLimit s)
      finishEntry entry 0 (a - 1 + 2 ^ 16 * (b - 1)) (onCtrl e.ctrl (fun k => { k with granted := some (a, b) }) s)) s

/-- SET_FEATURES_INTERRUPT_COALESCING (R354). -/
def execSetFeaturesInterruptCoalescing (entry : Nat) (s : State) : Host.Outcome State Fault Refusal :=
  runFeature entry 0x08 (fun e s => featureDone entry false 0 0 (onCtrl e.ctrl fun k => { k with
    coalesce_thr := e.sqe.cdw11.toNat % 256
    coalesce_time := e.sqe.cdw11.toNat / 256 % 256 }) s) s

/-- SET_FEATURES_INTERRUPT_VECTOR_CONFIG (R354): bit 16 takes a vector out of coalescing. -/
def execSetFeaturesInterruptVectorConfig (entry : Nat) (s : State) : Host.Outcome State Fault Refusal :=
  runFeature entry 0x09 (fun e s =>
    let v := e.sqe.cdw11.toNat % 2 ^ 16
    featureDone entry (decide (s.vectors e.ctrl ≤ v)) Status.invalidField 0 (onCtrl e.ctrl fun k => { k with
      vector_cd := (k.vector_cd.filter fun x => x != v) ++ (if e.sqe.cdw11.getLsbD 16 then [v] else []) }) s) s

/-- SET_FEATURES_WRITE_ATOMICITY: DN is kept and has no effect (R329). -/
def execSetFeaturesWriteAtomicity (entry : Nat) (s : State) : Host.Outcome State Fault Refusal :=
  runFeature entry 0x0A (fun e s => featureDone entry false 0 0 (onCtrl e.ctrl fun k => { k with atomicity := e.sqe.cdw11.toNat % 2 }) s) s

/-- Event enables that may be set: bits 0 to 4, 8 and 12 (R751). -/
def asyncBits : Nat := 0x111F

/-- SET_FEATURES_ASYNC_EVENT_CONFIG (R751). -/
def execSetFeaturesAsyncEventConfig (entry : Nat) (s : State) : Host.Outcome State Fault Refusal :=
  runFeature entry 0x0B (fun e s =>
    featureDone entry (e.sqe.cdw11.toNat &&& asyncBits != e.sqe.cdw11.toNat) Status.invalidField 0
      (onCtrl e.ctrl fun k => { k with async_config := e.sqe.cdw11.toNat }) s) s

/-! ### Predictable Latency (R474 to R477) -/

/-- A window is entered. -/
def enterWindow (dt : Bool) (s : State) : State :=
  let h := s.run
  let w := writesTypical s
  let s := { s with rcl.status.dtwin := dt, reclaim.window_entry := h, reclaim.dtwin_writes := w }
  if dt then arm .dtwin 0 s.rcl.dtwinTmax.toNat s else disarm .dtwin 0 s

/-- SET_FEATURES_PLM_CONFIG (R474): enabling enters the non-deterministic window, disabling ends both. -/
def execSetFeaturesPlmConfig (entry : Nat) (data : Bytes) (s : State) : Host.Outcome State Fault Refusal :=
  runFeature entry 0x13 (fun e s =>
    let on := e.sqe.cdw12.getLsbD 0
    featureDone entry (e.sqe.cdw11.toNat % 2 ^ 16 != 1 || (on && !s.rcl.cfg.plm_permit)) Status.invalidField 0 (fun s =>
      let was := s.rcl.status.plm_enabled
      let s := { s with rcl.status.plm_enabled := on, reclaim.plm_enable := field data 0 2 }
      if on ∧ !was then enterWindow false s
      else if !on then disarm .dtwin 0 { s with rcl.status.dtwin := false } else s) s) s

/-- SET_FEATURES_PLM_WINDOW (R474, R476). -/
def execSetFeaturesPlmWindow (entry : Nat) (s : State) : Host.Outcome State Fault Refusal :=
  runFeature entry 0x14 (fun e s =>
    let w := e.sqe.cdw12.toNat % 8
    if e.sqe.cdw11.toNat % 2 ^ 16 ≠ 1 ∨ (w ≠ 1 ∧ w ≠ 2) then finishEntry entry Status.invalidField 0 s
    else if !s.rcl.status.plm_enabled then finishEntry entry Status.sequenceError 0 s
    else if (w = 1) = s.rcl.status.dtwin then finishEntry entry 0 0 s
    else if w = 2 then finishEntry entry 0 0 (enterWindow false s)
    else if s.reclaim.window_entry + s.rcl.ndwinTmin.toNat ≤ s.run ∧ s.rcl.bgStart.toNat ≤ freeCount s then
      finishEntry entry 0 0 (enterWindow true s)
    else finishEntry entry Status.sequenceError 0 s) s

/-! ### Host identifier and reservations (R304) -/

/-- SET_FEATURES_HOST_IDENTIFIER: 128 bits only; a value of 0 names no host. -/
def execSetFeaturesHostIdentifier (entry : Nat) (data : Bytes) (s : State) : Host.Outcome State Fault Refusal :=
  runFeature entry 0x81 (fun e s =>
    let v := field data 0 16
    featureDone entry (!e.sqe.cdw11.getLsbD 0) Status.invalidField 0
      (onCtrl e.ctrl fun k => { k with host_id := if v = 0 then none else some v }) s) s

/-- SET_FEATURES_RESERVATION_NOTIF_MASK. -/
def execSetFeaturesReservationNotifMask (entry : Nat) (s : State) : Host.Outcome State Fault Refusal :=
  runFeature entry 0x82 (fun e s =>
    let l := if e.sqe.nsid = 0xFFFFFFFF then s.nvme.namespaces.map Prod.fst else [e.sqe.ns]
    let st := if e.sqe.nsid = 0xFFFFFFFF then 0 else nsidStatus s e
    featureDone entry (st != 0) st 0 (onCtrl e.ctrl fun k => { k with
      resv_mask := l.foldl (fun m i => m.put i (e.sqe.cdw11.toNat % 16)) k.resv_mask }) s) s

/-- SET_FEATURES_RESERVATION_PERSISTENCE: PTPL cannot be set (R354). -/
def execSetFeaturesReservationPersistence (entry : Nat) (s : State) : Host.Outcome State Fault Refusal :=
  runFeature entry 0x83 (fun e s =>
    let st := if e.sqe.nsid = 0xFFFFFFFF then 0 else nsidStatus s e
    let st := firstStatus [failIf (e.sqe.cdw11.getLsbD 0) Status.notChangeable, st]
    finishEntry entry st 0 s) s

/-- SET_FEATURES_UNSUPPORTED: the Timestamp cannot be set; any identifier not in the table is an Invalid Field, as is
Volatile Write Cache (R353, R354). -/
def execSetFeaturesUnsupported (entry : Nat) (s : State) : Host.Outcome State Fault Refusal :=
  runEntry entry true 0x09 (fun e s =>
    if e.sqe.fid = 0x0E then finishEntry entry Status.notChangeable 0 s
    else if supportedFeatures.contains e.sqe.fid then s
    else finishEntry entry Status.invalidField 0 s) s

/-! ### Get Features -/

/-- Timestamp of H (table "Features supported"): milliseconds, Synch in bit 0 and origin 0 in the next bits of byte 6. -/
def timestampData (s : State) : Bytes :=
  let ms := s.h / 2 ^ 32 * 1000 + s.h % 2 ^ 32 * 1000 / 2 ^ 32
  leBytes 6 ms ++ [if s.camp.status.anchored then 0 else 1, 0]

/-- Dword 0 and data of a feature, current or default. -/
def featureValue (s : State) (e : Entry) (default_ : Bool) : Nat × Bytes :=
  let k := if default_ then ({} : Controller) else s.ctrl e.ctrl
  let n := e.sqe.cdw11.toNat / 2 ^ 16 % 16
  match e.sqe.fid with
  | 0x01 => (k.arb_burst + 256 * k.weights, [])
  | 0x02 => (if default_ then 0 else requested s e.ctrl, [])
  | 0x04 =>
    let above : Int := s.thm.thresh.warn.toNat + 273
    ((if e.sqe.cdw11.toNat / 2 ^ 20 % 4 = 0 then k.temp_over.look above n else k.temp_under.look 0 n).toNat, [])
  | 0x07 =>
    let g := k.granted.getD (queueLimit s, queueLimit s)
    (g.1 - 1 + 2 ^ 16 * (g.2 - 1), [])
  | 0x08 => (k.coalesce_thr + 256 * k.coalesce_time, [])
  | 0x09 =>
    let v := e.sqe.cdw11.toNat % 2 ^ 16
    (v + 2 ^ 16 * (k.vector_cd.contains v).toNat, [])
  | 0x0A => (k.atomicity, [])
  | 0x0B => (k.async_config, [])
  | 0x0E => (0, timestampData s)
  | 0x13 => (if default_ then 0 else s.rcl.status.plm_enabled.toNat,
      padTo 512 (if default_ then [] else leBytes 2 s.reclaim.plm_enable))
  | 0x14 => (if default_ ∨ !s.rcl.status.plm_enabled then 0 else if s.rcl.status.dtwin then 1 else 2, [])
  | 0x81 => (0, leBytes 16 (k.host_id.getD 0))
  | 0x82 => (k.resv_mask.look 0 e.sqe.ns, [])
  | _ => (0, [])

/-- Capabilities of a feature (SEL 3): changeable in bit 2, namespace specific in bit 1, saveable never. -/
def featureCaps (fid : Nat) : Nat := (if fid = 0x0E then 0 else 4) + (if fid = 0x82 ∨ fid = 0x83 then 2 else 0)

/-- Checks of a Get Features beyond its identifier. -/
def getFeatureStatus (s : State) (e : Entry) : Nat :=
  let v := e.sqe.cdw11.toNat
  match e.sqe.fid with
  | 0x04 => failIf (decide (8 < v / 2 ^ 16 % 16) || decide (1 < v / 2 ^ 20 % 4)) Status.invalidField
  | 0x09 => failIf (decide (s.vectors e.ctrl ≤ v % 2 ^ 16)) Status.invalidField
  | 0x13 => failIf (v % 2 ^ 16 != 1) Status.invalidField
  | 0x14 => failIf (v % 2 ^ 16 != 1) Status.invalidField
  | 0x81 => failIf (v % 2 != 1) Status.invalidField
  | 0x82 => nsidStatus s e
  | 0x83 => nsidStatus s e
  | _ => 0

/-- GET_FEATURES (R354): no value is saved, so SEL 1 and SEL 2 return the default. -/
def execGetFeatures (entry : Nat) (s : State) : Host.Outcome State Fault Refusal :=
  runEntry entry true 0x0A (fun e s =>
    let sel := e.sqe.cdw10.toNat / 256 % 8
    let st := firstStatus [failIf (!supportedFeatures.contains e.sqe.fid || decide (3 < sel)) Status.invalidField, getFeatureStatus s e]
    if st ≠ 0 then finishEntry entry st 0 s
    else if sel = 3 then finishEntry entry 0 (featureCaps e.sqe.fid) s
    else
      let v := featureValue s e (sel != 0)
      onEntry entry (fun e => { e with dw0 := v.1 }) (answer entry e v.2 s)) s

end Sys2Proof.Machine
end

