-- ==== Sys2Proof/Machine/PowerStates.lean ====
section
/-!
DEFINITION. Power states (chapter 15): the entry handshake and its participants, refusals, commits, the return from
Patrol, and the Patrol cycle (R605 to R626).
-/

namespace Sys2Proof.Machine

/-! ### Participants (table "Handshake participants") -/

/-- Positions whose parent is this device (R705). -/
def children (s : State) : List Nat :=
  ((List.range (deviceCount s)).filter fun p => decide (0 < p)).filter fun p => (parentOf s p).1 == s.position && p != s.position

/-- A stripe of the copy stream is not committed and applied. -/
def copiesOpen (s : State) : Bool :=
  !s.shroud.copies.isEmpty || s.shroud.stripes.vals.any fun st =>
    st.copyStream && !st.applied && st.state != .abandoned && st.state != .lost

/-- A copy of a unit on a failed die, which a rebuild makes, is not committed and applied (R548). -/
def rebuildOpen (s : State) : Bool :=
  let from_ := fun (u : UnitSource) => match u with
    | .copy _ _ a => s.dieDown (puaDie a)
    | _ => false
  s.shroud.copies.any from_ || s.shroud.stripes.vals.any fun st =>
    !st.applied && st.state != .abandoned && st.state != .lost && st.units.any from_

/-- A boot-array request writes a journal record. -/
def BaRequest.isRecord (r : BaRequest) : Bool := match r.purpose with | .record _ => true | _ => false

/-- The clock level that a handshake to a Reduced state asks for. -/
def levelFor' (s : State) (target : Nat) : Nat := max (stateLevel target) s.thermal.loop_level

/-- A participant's delay condition holds. -/
def delays (s : State) (target code : Nat) : Bool :=
  match code with
  | 0x01 => s.nvme.tracker.vals.any fun e => e.sqid != 0
  | 0x02 => (s.shroud.held.any fun u => !u.applied) || (s.shroud.records.any fun m => !m.applied) || s.engine.current.isSome
  | 0x03 => !s.shroud.held.isEmpty || !s.shroud.records.isEmpty || s.str.status.stay_repair
  | 0x04 => copiesOpen s
  | 0x05 => s.redun.recons.vals.any (fun r => r.use.forRebuild) || rebuildOpen s || !s.redun.rescuing.isEmpty
  | 0x06 => s.manifest.install.isSome
  | 0x07 => s.boot.queue.any BaRequest.isRecord || (match s.boot.current with | some r => r.isRecord | none => false)
  | 0x08 => s.media.channels.vals.any fun c => c.training == some true
  | 0x09 => !s.ep.fences.isEmpty
  | 0x0A => s.thermal.level_effective != levelFor' s target
  | 0x0B => !s.keaka.power_waiting.isEmpty
  | _ => false

/-- A participant's refusal condition holds. -/
def refuses (s : State) (target code : Nat) : Bool :=
  target == 4 && (match code with
    | 0x03 => s.str.status.stays_lost
    | 0x04 => levelFor s == 3 || s.reclaim.blocks.vals.any fun b => b.queued == some 0
    | 0x07 => s.boot.update.isSome
    | _ => false)

/-- Participants asked for a target. -/
def participants (s : State) (target : Nat) : List Nat :=
  let own := if target = 4 then [0x01, 0x02, 0x03, 0x04, 0x05, 0x06, 0x07, 0x08, 0x09]
    else [0x07, 0x08] ++ (if 2 ≤ target ∨ levelFor' s target ≠ levelInForce s then [0x0A] else [])
  own ++ (if (children s).isEmpty then [] else [0x0B])

/-! ### Ends of a handshake (R609 to R613) -/

/-- The Read-Only condition recorded while a handshake or return ran takes effect (R56). -/
def settleReadOnly (s : State) : State :=
  match s.mode with
  | .run => if s.mgmt.modeStatus.ro_cause = 0 then s else goReadOnly s
  | .reduced => if s.mgmt.modeStatus.ro_cause = 0 then s else goReadOnly s
  | .patrol => if s.mgmt.modeStatus.ro_cause = 0 then s else goReadOnly s
  | _ => s

/-- Answer the parent whose request frame this device serves (R735): code and reason, 0 for accept. -/
def answerParent (code reason : Nat) (s : State) : State :=
  match s.keaka.parent_request with
  | some tag => sendFrame 0x31 (parentOf s s.position).1 tag [code, reason] { s with keaka.parent_request := none }
  | none => s

/-- A link that is up runs on lane 0 only (R736). -/
def narrowLink (n : Nat) (s : State) : State :=
  onLinkStatus n (fun x => if x.state = 2 then { x with state := 4, width := 1 } else x) s

/-- Sleep in Patrol begins; the first cycle comes one period later, and a later entry finds the period counted from the
last cycle, which has fired if it passed meanwhile (R92, R622, R625). -/
def beginPatrol (s : State) : State :=
  let s := each [0, 1] narrowLink { s with psm.status.patrol_phase := 1 }
  if s.psm.patrolCfg.patrol_enable then armOnce .patrolPeriod 0 s.psm.patrolPeriod.toNat s else s

/-- Commit (R610). A change from one Reduced state to another is a transition that completes at step 3, as its row of the
table "Completion of transitions" says; the table's last row reads the other way (DESIGN CHOICE, log entry 87). -/
def commitHandshake (h : Handshake) (s : State) : State :=
  let s := disarm .handshake 0 { s with power_states.handshake := none }
  let s := applyState h.target (noteOperational h.ctrl h.target (setRequested h.ctrl h.target s))
  let s := match s.mode with
    | .run => setMode (if h.target = 4 then .patrol else operational h.target) s
    | .reduced => setMode (if h.target = 4 then .patrol else operational h.target) s
    | _ => s
  let s := sendLtr h.target { s with psm.transitions.entries := satAdd s.psm.transitions.entries 1 }
  let s := raise (src 16 1) 0 [] (answerParent 0 0 (completePower h.entry s))
  let s := if h.target = 4 then beginPatrol s else s
  let s := settleReadOnly s
  match s.power_states.held_doorbell with
  | some c => ioDoorbell c { s with power_states.held_doorbell := none }
  | none => s

/-- Count a refusal of a block. -/
def countRefusal (reason : Nat) (code : Nat) (s : State) : State :=
  let r := s.psm.refusals.look {} code
  let r := if reason = 2 then { r with expired := satAdd r.expired 1 } else { r with refused := satAdd r.refused 1 }
  { s with psm.refusals := s.psm.refusals.put code r }

/-- Refusal by some blocks with a reason (R609, R611, R612); `shown` is the code and reason that the completion names. -/
def refuseHandshake (h : Handshake) (codes : List Nat) (reason : Nat) (s : State) : State :=
  let low := codes.foldl min (codes.headD 0)
  let s := disarm .handshake 0 { s with power_states.handshake := none, power_states.held_doorbell := none, keaka.power_waiting := [] }
  let s := each codes (countRefusal reason) s
  let s := { s with psm.lastRefusal := {
    refusers := BitVec.ofNat 16 (total (codes.eraseDups.map fun n => 2 ^ n))
    target := BitVec.ofNat 4 h.target
    reason := BitVec.ofNat 4 reason
    block := BitVec.ofNat 8 low } }
  let s := raise (src 16 0) reason [BitVec.ofNat 8 low, BitVec.ofNat 8 h.target] (request .refusal s)
  let s := answerParent low reason s
  let s := match h.entry with
    | some t => finishEntry t Status.sequenceError (low + 256 * reason) s
    | none => s
  settleReadOnly s

/-- A handshake begins (R608). -/
def beginHandshake (target ctrl : Nat) (entry : Option Nat) (s : State) : State :=
  let h : Handshake := { target := target, ctrl := ctrl, entry := entry, waiting := participants s target }
  let s := { s with power_states.handshake := some h, keaka.power_waiting := children s }
  let s := each (children s) (fun p => sendFrame 0x30 p 0 [target, 0]) s
  let s := match entry with | some t => onEntry t (fun e => { e with state := .overlap }) s | none => s
  arm .handshake 0 s.psm.handshakeTimeout.toNat s

/-- A participant has accepted; the last one commits. -/
def participantAccepts (code : Nat) (h : Handshake) (s : State) : State :=
  let h := { h with waiting := h.waiting.filter fun n => n != code }
  if h.waiting.isEmpty then commitHandshake h s else { s with power_states.handshake := some h }

/-! ### Rows -/

/-- SET_FEATURES_POWER_MANAGEMENT (R605, R606, R613, R615): while a return runs it waits for its end. -/
def execSetFeaturesPowerManagement (entry : Nat) (s : State) : Host.Outcome State Fault Refusal :=
  runFeature entry 0x02 (fun e s =>
    let ps := e.sqe.cdw11.toNat % 32
    let now := s.psm.status.in_force.toNat
    let next := stateByRequests (setRequested e.ctrl ps s)
    if 4 < ps ∨ e.sqe.cdw11.toNat / 32 % 8 ≠ 0 then finishEntry entry Status.invalidField 0 s
    else if s.power_states.handshake.isSome then finishEntry entry Status.sequenceError 0x300 s
    else if s.reset_ctl.sequence.isSome then s
    else if ps = requested s e.ctrl then finishEntry entry 0 0 s
    else if s.power_states.returning.isSome then s
    else if next = now then finishEntry entry 0 0 (noteOperational e.ctrl ps (setRequested e.ctrl ps s))
    else if now = 4 ∨ next = 0 then
      beginReturn next (some entry) (noteOperational e.ctrl ps (setRequested e.ctrl ps (onEntry entry (fun e => { e with state := .overlap }) s)))
    else beginHandshake next e.ctrl (some entry) s) s

/-- HANDSHAKE_REPLY (R608): a participant accepts once its delay condition has ended, or refuses while its refusal
condition holds. The yards' answer comes in their reply frames. -/
def execHandshakeReply (code : Nat) (refuse : Bool) (s : State) : Host.Outcome State Fault Refusal :=
  .next (match s.power_states.handshake with
    | none => s
    | some h =>
      if !h.waiting.contains code || code == 0x0B then s
      else if refuse then
        (if refuses s h.target code then refuseHandshake h (h.waiting.filter (refuses s h.target)) 1 s else s)
      else if refuses s h.target code || delays s h.target code then s
      else participantAccepts code h s)

/-- HANDSHAKE_TIMEOUT (R609). -/
def execHandshakeTimeout (s : State) : Host.Outcome State Fault Refusal :=
  .next (match s.power_states.handshake with
    | some h =>
      let late := h.waiting.filter (delays s h.target)
      if s.due .handshake 0 && !late.isEmpty then refuseHandshake h late 2 s else s
    | none => s)

/-! ### Return from Patrol (R617, R618) -/

/-- Put the cursor at a block. -/
def setCursor (k : Nat) (s : State) : State :=
  { s with psm.patrolCursor := { die := BitVec.ofNat 11 (k / 4096), block := BitVec.ofNat 12 (k % 4096) } }

/-- A patrol read has not been issued to its die. -/
def unissued (o : NandOp) : Bool := o.owner.isPatrol && (o.state == .waiting || o.state == .admitted)

/-- Patrol reads not yet issued are cancelled and stay at the cursor (R618, R623). -/
def cancelPatrol (s : State) : State :=
  let mine := s.media.ops.filter fun p => unissued p.2
  let late := s.power_states.samples.filter fun x => mine.any fun p => blockKey p.2.die p.2.block == x.block
  let s := match late with | x :: _ => setCursor x.block s | [] => s
  each (mine.map Prod.fst) leaveOp { s with power_states.samples := s.power_states.samples.filter fun x => !late.contains x }

/-- Step 6: the mode, cap and level of the new state; fetch goes on and the completion posts. Patrol reads still at their dies
end with the cycle (R618). -/
def endReturn (r : PatrolReturn) (s : State) : State :=
  let s := applyState r.target { s with power_states.returning := none, psm.status.patrol_phase := 0 }
  let s := match s.mode with
    | .patrol => setMode (operational r.target) s
    | _ => s
  let s := raise (src 16 2) 0 [] (completePower r.entry (sendLtr r.target (each [0, 1] wideLink s)))
  let reports := s.power_states.reports
  let s := each reports (queueBlock 2) { s with power_states.reports := [] }
  settleMedia (settleReadOnly s)

/-- PATROL_RETURN_STEP (table "Return from Patrol"): step 2 tells yards, step 4 makes the retrain test and ends only when no
channel trains. -/
def execPatrolReturnStep (s : State) : Host.Outcome State Fault Refusal :=
  .next (match s.power_states.returning with
    | none => s
    | some r =>
      let next := { s with power_states.returning := some { r with step := r.step + 1 } }
      match r.step with
      | 1 => each (children s) (fun p => sendFrame 0x30 p 0 [r.target, 1]) (cancelPatrol next)
      | 3 => each ((List.range 48).filter (retrainDue s)) beginBusTraining next
      | 4 => if s.media.channels.vals.any fun c => c.training.isSome then s else next
      | 5 => endReturn r s
      | _ => next)

/-! ### The Patrol cycle (R622 to R625) -/

/-- Closed blocks of usable dies from the cursor on, in order, wrapping. -/
def patrolOrder (s : State) : List Nat :=
  let l := ((s.reclaim.blocks.filter fun p => p.2.state == .closed && s.usable (p.1 / 4096)).map Prod.fst)
  let c := blockKey s.psm.patrolCursor.die.toNat s.psm.patrolCursor.block.toNat
  (l.filter fun k => decide (c ≤ k)) ++ l.filter fun k => decide (k < c)

/-- Page that a visit reads: first, middle or last programmed (R623). -/
def patrolPage (s : State) (k : Nat) : Nat :=
  let n := (s.blockAt k).next_page
  match (s.power_states.counts.look (0, 0) k).2 with
  | 0 => 0
  | 1 => n / 2
  | _ => n - 1

/-- Issue the patrol read of a block. -/
def patrolRead (stamp k : Nat) (s : State) : State :=
  let page := patrolPage s k
  let s := onBlock k (fun b => { b with inflight := b.inflight + 1 }) s
  addOp { kind := .read, owner := .patrol, die := k / 4096, block := k % 4096, page := page, pending := [0, 1, 2, 3], stamp := stamp }
    { s with power_states.samples := s.power_states.samples ++ [{ block := k, page := page }] }

/-- PATROL_WAKE (R622, steps 1 to 4): the cycle takes its stamp and issues its reads. -/
def execPatrolWake (s : State) : Host.Outcome State Fault Refusal :=
  .next (if s.due .patrolPeriod 0 && s.psm.status.in_force == 4 && s.power_states.returning.isNone && s.psm.patrolCfg.patrol_enable
      && s.power_states.cycle.isNone && s.serving then
    let (st, s) := takeStamp (arm .patrolPeriod 0 s.psm.patrolPeriod.toNat s)
    let s := arm .patrolQuarter 0 (s.psm.patrolPeriod.toNat / 4)
      { s with power_states.cycle := some st.stamp.toNat, power_states.samples := [], psm.status.patrol_phase := 2 }
    let l := (patrolOrder s).take s.psm.patrolCfg.patrol_reads.toNat
    let s := match (patrolOrder s)[l.length]?, l with
      | some k, _ => setCursor k s
      | none, k :: _ => setCursor k s
      | none, [] => s
    each l (patrolRead st.stamp.toNat) s
  else s)

/-- Compare one sample (R624). -/
def compareSample (x : PatrolSample) (s : State) : State :=
  let old := s.power_states.counts.look (0, 0) x.block
  let now := min 255 x.corrected
  let report := x.uncorrectable || x.refresh || decide (old.1 + s.psm.patrolCfg.patrol_delta.toNat ≤ now)
  let s := { s with
    power_states.counts := s.power_states.counts.put x.block (now, (old.2 + 1) % 3)
    psm.patrolStats.samples := satAdd s.psm.patrolStats.samples 1
    psm.patrolStats.uncorr := if x.uncorrectable then satAdd s.psm.patrolStats.uncorr 1 else s.psm.patrolStats.uncorr }
  let s := if x.uncorrectable then raise (channelSource (x.block / 4096 / 32)) 0 [] s else s
  if report && !s.media.reported.contains x.block then
    reportRefresh x.block { s with psm.patrolStats.reports := satAdd s.psm.patrolStats.reports 1 }
  else s

/-- PATROL_SAMPLE_END (steps 4 to 6): every read has ended, or a quarter of the period has passed; results are compared,
reads left unissued stay at the cursor, and the device sleeps. -/
def execPatrolSampleEnd (s : State) : Host.Outcome State Fault Refusal :=
  .next (if s.power_states.cycle.isSome && (s.power_states.samples.all PatrolSample.done || s.due .patrolQuarter 0) then
    let s := each (s.power_states.samples.filter PatrolSample.done) compareSample (cancelPatrol { s with psm.status.patrol_phase := 3 })
    disarm .patrolQuarter 0 { s with
      power_states.cycle := none, power_states.samples := []
      psm.status.patrol_phase := if s.psm.status.in_force = 4 then 1 else 0 }
  else s)

end Sys2Proof.Machine
end

