-- ==== Sys2Proof/Machine/Thermal.lean ====
section
/-!
DEFINITION. The thermal model, its calibration, the throttle loop and Thermal Halt (chapter 14; R49 to R51, R219).
-/

namespace Sys2Proof.Machine

/-! ### Nodes and levels (R566 to R569, R578) -/

/-- The composite temperature M. -/
def State.m (s : State) : Int := (composite s).1

/-- A threshold in whole °C, in units of 2^-32 °C. -/
def degrees (n : Nat) : Int := (n : Int) * 2 ^ 32

/-- Exit level of Warning, and the level below which an L4 ends Thermal Halt: warn less hyst (R578, R585). -/
def warnExit (s : State) : Int := degrees s.thm.thresh.warn.toNat - degrees s.thm.thresh.hyst.toNat

/-- A Thermal Halt, or the entry to one, is in force. -/
def halting (s : State) : Bool :=
  s.thermal.entry.isSome || (match s.mode with | .thermalHalt => true | _ => false)

/-- Field level of THM_STATUS (table "Thermal levels"). -/
def showLevel (s : State) : State :=
  { s with thm.status.level := if halting s then 3 else if s.thm.status.throttling then 2 else if s.thermal.warned then 1 else 0 }

/-- Charge that the ledger has admitted for the channels of a pair (R171). -/
def pairCharge (s : State) (p : Nat) : Nat :=
  total ((s.media.ops.vals.filter fun o => diePair o.die == p).map (heldCharge s))

/-- While the model runs, the charges of the pairs are summed for the mean of its step (table "Thermal model nodes"). -/
def noteCharge (s : State) : State :=
  if s.thm.status.running then
    { s with
      thermal.pair_sum := (List.range 8).map fun p => s.thermal.pair_sum.getD p 0 + pairCharge s p
      thermal.pair_cycles := s.thermal.pair_cycles + 1 }
  else s

/-- One oscillator cycle (R59, R60, R566). -/
def tick (s : State) : State := noteCharge (oscillate s)

/-- New temperature of a node after one step (R568), for a power of `p.1 / p.2` mW; divisions round toward minus infinity. -/
def nodeStep (s : State) (i : Nat) (p : Nat × Nat) : Int :=
  let n := s.thermal.params.getD i ⟨0, 0, 1⟩
  let t := s.thermal.temps.getD i 0
  let target := s.thermal.board + ((n.theta * 2 ^ 24 * p.1 : Nat) : Int) / (1000 * p.2 : Nat) + s.thermal.corr.getD i 0
  t + (target - t) * s.thm.step.toNat / (n.tau * 2 ^ 16)

/-- Power input of node `i` (table "Thermal model nodes"): of a die node as measured; of a pair the mean of its admitted charge
over the step, and 0 in Thermal Halt (R567, R584). -/
def nodePower (s : State) (power : List Nat) (i : Nat) : Nat × Nat :=
  if i < 6 then (power.getD i 0, 1)
  else match s.mode with
    | .thermalHalt => (0, 1)
    | _ => if s.thermal.pair_cycles = 0 then (pairCharge s (i - 6), 1) else (s.thermal.pair_sum.getD (i - 6) 0, s.thermal.pair_cycles)

/-- Greatest of two readings, an absent one least. -/
def maxOf (a : Option Int) (b : Int) : Int := match a with | some x => max x b | none => b

/-- M as registers and lifetime extremes show it (R569, R593, R599). -/
def showComposite (s : State) : State :=
  let (m, node) := composite s
  let r := m / 2 ^ 24
  let lower := match s.health.counts.min_composite with | some x => decide (r < x.1) | none => true
  let upper := match s.health.counts.max_composite with | some x => decide (x.1 < r) | none => true
  let pairs := s.thermal.temps.drop 6
  let most := fun (i : Nat) => maxOf (s.health.counts.pair_max.find i) (pairs.getD i 0 / 2 ^ 24)
  let s := { s with
    thm.status.hottest := BitVec.ofNat 4 node
    thm.composite.composite := BitVec.ofInt 16 r
    thm.composite.max := if s.thm.composite.max.toInt < r then BitVec.ofInt 16 r else s.thm.composite.max
    health.counts.pair_max := (List.range 8).map fun i => (i, most i) }
  let s := if lower then request (.extreme false r) { s with health.counts.min_composite := some (r, {}) } else s
  if upper then request (.extreme true r) { s with health.counts.max_composite := some (r, {}) } else s

/-! ### Starting the model (R573, R574) -/

/-- The reading of a source, unless open or shorted. -/
def DiodeReading.read (d : DiodeReading) : Option Int := match d with | .value t => some t | .fault => none

/-- Die readings, six. -/
def dieReadings (diodes : List DiodeReading) : List (Option Int) :=
  (List.range 6).map fun i => (diodes.getD i .fault).read

/-- Payload of a sensor event: the last valid reading, 0x8000 where there is none (R775). -/
def lastReading (s : State) (k : Nat) : Bytes :=
  match s.thermal.readings.find k with
  | some t => leBytes 2 (BitVec.ofInt 16 t).toNat
  | none => leBytes 2 0x8000

/-- A source is excluded: a sensor-fault event (R132, R571). -/
def excludeSource (k : Nat) (s : State) : State :=
  if s.thermal.excluded.has k then { s with thermal.excluded := s.thermal.excluded.put k 0 }
  else raise (src 3 6) k (lastReading s k) { s with
    thermal.excluded := s.thermal.excluded.put k 0
    health.counts.sensor_faults := s.health.counts.sensor_faults + 1 }

/-- Sources in use, as THM_STATUS shows them. -/
def showSources (s : State) : State :=
  { s with
    thm.status.diode_valid := BitVec.ofNat 6 (bitsOf ((List.range 6).map fun i => !s.thermal.excluded.has i))
    thm.status.ext_valid := !s.thermal.excluded.has 6 }

/-- The model starts from readings (R573, R574). -/
def startModel (diodes : List DiodeReading) (ext : DiodeReading) (s : State) : State :=
  let die := dieReadings diodes
  let all := die ++ [ext.read]
  let good := die.filterMap id
  let s := each (List.range 7) (fun k s => match all.getD k none with
    | some t => { s with
        thermal.excluded := s.thermal.excluded.drop k
        thermal.readings := s.thermal.readings.put k t }
    | none => excludeSource k s) s
  let most := good.foldl max (good.headD 0)
  let least := good.foldl min (good.headD 0)
  let board := if good = [] then degrees s.thm.thresh.warn.toNat else least * 2 ^ 24
  let dieTemp := fun (i : Nat) => if good = [] then board else (die.getD i none).getD most * 2 ^ 24
  let pairTemp := if good = [] then board else match ext.read with | some t => t * 2 ^ 24 | none => board
  let s := showSources { s with
    thermal.params := if s.thermal.params.isEmpty then defaultNodes else s.thermal.params
    thermal.board := board
    thermal.corr := List.replicate 14 0
    thermal.temps := (List.range 6).map dieTemp ++ List.replicate 8 pairTemp
    thm.status.running := true
    thm.status.model_degraded := good.isEmpty }
  showComposite s

/-- The model starts at step 6 of Start, with its timers (R568, R571, R578). -/
def beginModel (diodes : List DiodeReading) (ext : DiodeReading) (s : State) : State :=
  let s := startModel diodes ext s
  arm .thermalStep 0 s.thm.step.toNat (arm .thermalCal 0 s.thm.calInterval.toNat (arm .throttle 0 s.thm.throttlePeriod.toNat s))

/-! ### Thermal Halt (R49, R50, R219, R583) -/

/-- What a Thermal Halt ends with the flash and the link: NVEN low, pairs off, the links held in Detect (R49 steps 6 and
7, R156). -/
def haltOff (s : State) : State :=
  let s := each (List.range 8) (driveNven · false) s
  let s := onPortStatus 1 (fun _ => {}) (onPortStatus 0 (fun _ => {}) s)
  showLevel { s with
    power.pairs := []
    power.next_pair := none
    media.ops := []
    nvme.act_led := false }

/-- Tell the masthead that this yard has stopped (R739). -/
def tellStopped (s : State) : State := if s.yard then sendFrame 0x38 0 0 [5] s else s

/-- The request belongs to an install. -/
def BaRequest.ofInstall (q : BaRequest) : Bool := match q.purpose with | .install _ => true | _ => false

/-- The request belongs to a firmware update. -/
def BaRequest.ofUpdate (q : BaRequest) : Bool := match q.purpose with | .update _ => true | _ => false

/-- Requests of the boot array that end before they are done: no further pulse of them begins (R255). -/
def cutArray (own : BaRequest → Bool) (s : State) : State :=
  { s with
    boot.queue := s.boot.queue.filter fun q => !own q
    boot.current := match s.boot.current with
      | some q => if own q then (if s.boot.pulsing then some { q with
            ops := q.ops.take (s.boot.done + 1), purpose := if q.ofInstall then .abandoned else q.purpose } else none) else some q
      | none => none }

/-- A Thermal Halt entry ends an install and an update (R255, R215). -/
def stopArray (s : State) : State :=
  let s := cutArray (fun q => q.ofInstall || q.ofUpdate) s
  let s := match s.manifest.install with
    | some i => endAdmin i.path Status.internalError 0 { s with manifest.install := none, man.installStatus.step := 0 }
    | none => s
  match s.boot.update with
  | some u => endAdmin u.path Status.internalError 0 (showSlot u.slotB { s with boot.update := none })
  | none => s

/-- The Set Features of a power-state change in progress ends with no completion (R55, R614). -/
def abandonPower (s : State) : State :=
  let drop := fun (t : Option Nat) (s : State) => match t with | some t => endEntry t s | none => s
  let s := drop (s.power_states.handshake.bind Handshake.entry) s
  let s := drop (s.power_states.returning.bind PatrolReturn.entry) s
  { s with
    power_states.handshake := none
    power_states.returning := none
    power_states.held_doorbell := none }

/-- Commands outstanding complete with Internal Error; Asynchronous Event Requests stay (R49 step 2). -/
def failOutstanding (s : State) : State :=
  let aer := s.nvme.ctrl0.aer_requests ++ s.nvme.ctrl1.aer_requests
  each ((s.nvme.tracker.filter fun p => p.2.state != .done && !aer.contains p.1).map Prod.fst)
    (fun t => failEntry t Status.internalError 0) s

/-- Steps 1 to 4 of Thermal Halt entry (R49). -/
def beginHalt (s : State) : State :=
  let s := stopArray (abandonPower { s with
    nvme.ctrl0.fetch_stopped := true
    nvme.ctrl1.fetch_stopped := true })
  let s := failOutstanding s
  let s := each (s.enabledCtrls.filter fun c => (s.ctrl c).async_config.testBit 1) (fun c => postAsync c ⟨1, 1, 2⟩) s
  let s := abandonSeals (haltMedia { s with
    thermal.entry := some .persisting
    thermal.entry_at := s.run
    psm.status.patrol_phase := 0
    power_states.cycle := none })
  let s := beginSpill .thermalHalt true s
  showLevel (if s.shroud.spill.isSome then s else haltPersisted s)

/-- Start ends at the halt threshold (R219): with no floor in this run, what is held is released with no stamp, and the
record has none; the mode changes when the record is written. -/
def haltStart (r : HaltRecord) (s : State) : State :=
  let s := { haltMedia s with reset_ctl.start_step := 0, thermal.entry := some .record, thermal.entry_at := s.run }
  if s.camp.status.floor_seeded then request (.record 2 r.bytes) s else askRecord 2 ⟨0, true⟩ r.bytes (releaseHeld s)

/-- M has reached the halt threshold (R583): the threshold stamp, the event, and what the mode gives (R46, R49, R52,
R54, R219). -/
def thresholdReached (s : State) : State :=
  let (m, node) := composite s
  let seeded := s.camp.status.floor_seeded
  let (st, s) := takeStamp s
  let s := if !s.sourceOn (src 3 5) then s
    else if seeded then deliver (.event { source := src 3 5 }) st s else raise (src 3 5) 0 [] s
  let r : HaltRecord := { th_stamp := st, composite := m / 2 ^ 24, node := node, mode := s.mode.code,
                          power_state := s.psm.status.in_force.toNat, halt := s.thm.thresh.halt.toNat }
  let s := { s with thermal.halt := some r }
  let enter := if s.reset_ctl.sequence.isSome then s else beginHalt s
  match s.mode with
  | .run => enter
  | .reduced => enter
  | .patrol => enter
  | .readOnly => enter
  | .start => if s.reset_ctl.sequence.isSome || s.shroud.spill.isSome then s else haltStart r s
  | _ => s

/-- Completions that can still be posted are posted before the link goes (R49 step 2). -/
def postRest (s : State) : State :=
  let done := (s.nvme.tracker.filter fun p => p.2.state == .done).map Prod.fst
  each done (fun t s => match s.nvme.tracker.find t with
    | some e => match postable s e with
      | some (q, c) => post t e q c s
      | none => s
    | none => s) s

/-- THERMAL_HALT_ENTRY_COMPLETE (R49 steps 5 to 7, R50, R219), once the record is written: a reset that waited is handled
now. -/
def execThermalHaltEntryComplete (s : State) : Host.Outcome State Fault Refusal :=
  match s.thermal.entry, s.thermal.halt with
  | some .record, some _ =>
    if recordPending [2] s then .next s
    else
    let start := match s.mode with | .start => true | _ => false
    let s := { s with health.counts.halt_entries := s.health.counts.halt_entries + 1 }
    let s := if start then s else writeHealthPage (postRest s)
    let s := setMode .thermalHalt { s with thermal.entry := none, thermal.halt := none }
    let s := tellStopped (haltOff s)
    match s.reset_ctl.deferred with
    | some a => if levelOf s a.code = 5 then .next (assertL5 a false s) else .next (actL4 a s)
    | none => .next s
  | _, _ => .next s

/-! ### The model's step (R568, R578) -/

/-- Warning entry and exit (R578, R596). -/
def testWarning (s : State) : State :=
  if !s.thermal.warned && decide (degrees s.thm.thresh.warn.toNat ≤ s.m) then
    raise (src 3 0) 0 [] { s with thermal.warned := true }
  else if s.thermal.warned && decide (s.m < warnExit s) then
    raise (src 3 1) 0 [] { s with thermal.warned := false }
  else s

/-- THERMAL_MODEL_STEP (R568, R578, R583, R584). -/
def execThermalModelStep (power : List Nat) (s : State) : Host.Outcome State Fault Refusal :=
  if s.due .thermalStep 0 && s.thm.status.running then
    let temps := (List.range 14).map fun i => nodeStep s i (nodePower s power i)
    let was := sensorTemp s 0
    let s := showComposite (arm .thermalStep 0 s.thm.step.toNat { s with
      thermal.temps := temps, thermal.pair_sum := [], thermal.pair_cycles := 0 })
    let s := if sensorTemp s 0 = was then s else noteMiAll Mi.temperature s
    if (match s.mode with | .thermalHalt => true | _ => false) then .next (noteHealth s)
    else
      let s := noteHealth (testWarning s)
      if decide (degrees s.thm.thresh.halt.toNat ≤ s.m) && s.thermal.halt.isNone then .next (showLevel (thresholdReached s))
      else .next (showLevel s)
  else .next s

/-! ### Calibration (R571, R572, R576, R594) -/

/-- A reading lies within diode_limit of node `i` (R571). -/
def withinLimit (s : State) (i : Nat) (t : Int) : Bool :=
  decide ((t * 2 ^ 24 - s.thermal.temps.getD i 0).natAbs ≤ s.thm.cfg3.diode_limit.toNat * 2 ^ 32)

/-- Node that source `k` calibrates. -/
def sourceNode (s : State) (k : Nat) : Nat := if k = 6 then 6 + s.thm.cfg.ext_pair.toNat else k

/-- A reading of source `k` at a calibration: excluded at an invalid one, used again after four valid (R571). -/
def takeReading (k : Nat) (d : DiodeReading) (s : State) : State :=
  match d with
  | .fault => excludeSource k s
  | .value t =>
    if !withinLimit s (sourceNode s k) t then excludeSource k s
    else
      let s := { s with thermal.readings := s.thermal.readings.put k t }
      match s.thermal.excluded.find k with
      | none => s
      | some n =>
        if 3 ≤ n then raise (src 3 7) k (lastReading s k) { s with thermal.excluded := s.thermal.excluded.drop k }
        else { s with thermal.excluded := s.thermal.excluded.put k (n + 1) }

/-- A value held between two bounds of c_max °C. -/
def clampC (s : State) (v : Int) : Int := clampInt (-(degrees s.thm.cfg3.c_max.toNat)) (degrees s.thm.cfg3.c_max.toNat) v

/-- The die diodes correct the board and the die nodes (R572). -/
def calibrateDie (s : State) : State :=
  let used := (List.range 6).filter fun i => !s.thermal.excluded.has i
  if used = [] then s
  else
    let e := fun (i : Nat) => s.thermal.readings.look 0 i * 2 ^ 24 - s.thermal.temps.getD i 0
    let mean := (used.map e).foldl (· + ·) 0 / (used.length : Int)
    let c := fun (i : Nat) =>
      let old := s.thermal.corr.getD i 0
      if used.contains i then clampC s (old + (e i - mean) * s.thm.cfg.k_c.toNat / 256) else old
    { s with
      thermal.board := s.thermal.board + mean * s.thm.cfg.k_b.toNat / 256
      thermal.corr := (List.range 14).map c
      thm.status.model_degraded := false }

/-- The external sensor corrects the pair nodes (R572). -/
def calibrateExt (s : State) : State :=
  if s.thermal.excluded.has 6 then s
  else
    let x := s.thermal.readings.look 0 6 * 2 ^ 24 - s.thermal.temps.getD (6 + s.thm.cfg.ext_pair.toNat) 0
    let c := fun (i : Nat) =>
      let old := s.thermal.corr.getD i 0
      if 6 ≤ i then clampC s (old + x * s.thm.cfg.k_x.toNat / 256) else old
    { s with thermal.corr := (List.range 14).map c }

/-- Histogram bin of M (R593). -/
def tempBin (m : Int) : Nat :=
  let t := m / 2 ^ 32
  if t < 20 then 0 else if 90 ≤ t then 15 else (t.toNat - 15) / 5

/-- Temperature times counted at a calibration, 2^30 motes each (R589, R594). -/
def countTimes (s : State) : State :=
  let m := s.m
  let add := fun (b : Bool) (n : Nat) => if b then n + 2 ^ 30 else n
  let h := s.health.counts
  let bin := tempBin m
  { s with health.counts := { h with
      histogram := h.histogram.put bin (h.histogram.look 0 bin + 2 ^ 30)
      throttle_motes := add s.thm.status.throttling h.throttle_motes
      slowed_motes := add (decide (1 ≤ levelInForce s)) h.slowed_motes
      warn_motes := add (decide (degrees s.thm.thresh.warn.toNat ≤ m)) h.warn_motes
      critical_motes := add (decide (degrees s.thm.thresh.halt.toNat ≤ m)) h.critical_motes } }

/-- comp(t) is evaluated, and the rate follows it while Campion is unanchored (R575, R576, THM_OSC_COMP). -/
def compensate (s : State) : State :=
  let c := compAt s
  refreshRate { s with
    thermal.comp_now := c
    thm.oscComp.comp := BitVec.ofInt 16 (c / 2 ^ 32 / 8) }

/-- THERMAL_CALIBRATION (R571 to R576, R594): where every die diode is excluded the model starts again (R574). -/
def execThermalCalibration (diodes : List DiodeReading) (ext : DiodeReading) (s : State) :
    Host.Outcome State Fault Refusal :=
  if s.due .thermalCal 0 && s.thm.status.running then
    let s := arm .thermalCal 0 s.thm.calInterval.toNat s
    let s := each (List.range 6) (fun k => takeReading k (diodes.getD k .fault)) s
    let s := takeReading 6 ext s
    let none_ := (List.range 6).all fun i => s.thermal.excluded.has i
    let s := if none_ && !s.thm.status.model_degraded then raise (src 3 8) 0 [] (startModel diodes ext s)
      else calibrateExt (calibrateDie s)
    .next (noteHealth (countTimes (compensate (showSources s))))
  else .next s

/-! ### The throttle loop (R579 to R581) -/

/-- The clock level of the loop changes (R579, R596). -/
def setLoopLevel (n : Nat) (s : State) : State :=
  let old := s.thermal.loop_level
  raise (src 3 4) n (leBytes 4 old) (refreshLevel { s with thermal.loop_level := n })

/-- The loop's answer to M at or above the throttle threshold (R580). -/
def throttleUp (s : State) : State :=
  let s := if s.thm.status.throttling then s
    else raise (src 3 2) 0 [] { s with
      thermal.cap := min s.pwr.driveCapMw.toNat (capInForce s).1
      thm.status.throttling := true
      health.counts.throttle_entries := s.health.counts.throttle_entries + 1 }
  let least := s.thm.cfg2.toNat
  if s.thm.cfg.method_a ∧ least < s.thermal.cap then { s with thermal.cap := max least (s.thermal.cap * 7 / 8) }
  else if s.thm.cfg.method_b ∧ s.thermal.loop_level < 2 then setLoopLevel (s.thermal.loop_level + 1) s
  else s

/-- The loop's answer to M below the throttle threshold less hyst (R580). -/
def throttleDown (s : State) : State :=
  let s := if 0 < s.thermal.loop_level then setLoopLevel (s.thermal.loop_level - 1) s
    else if s.thm.cfg.method_a then { s with thermal.cap := s.thermal.cap * 9 / 8 }
    else s
  if s.thermal.loop_level = 0 ∧ (s.thm.cfg.method_a = false ∨ s.pwr.driveCapMw.toNat ≤ s.thermal.cap) then
    raise (src 3 3) 0 [] { s with thm.status.throttling := false }
  else s

/-- THROTTLE_TEST (R580, R581): frozen in Flush and not evaluated in Thermal Halt, where its firing is kept (R92). -/
def execThrottleTest (s : State) : Host.Outcome State Fault Refusal :=
  if s.due .throttle 0 && s.thm.status.running then
    match s.mode with
    | .flush => .next s
    | .thermalHalt => .next s
    | _ =>
      let s := arm .throttle 0 s.thm.throttlePeriod.toNat s
      let t := degrees s.thm.thresh.throttle.toNat
      if t ≤ s.m then .next (showLevel (throttleUp s))
      else if s.thm.status.throttling && decide (s.m < t - degrees s.thm.thresh.hyst.toNat) then .next (showLevel (throttleDown s))
      else .next s
  else .next s

/-- CLOCK_LEVEL_EFFECTIVE (R579, R607): the clocks run at the level in force, or at the level that a handshake in
progress asks for. -/
def execClockLevelEffective (s : State) : Host.Outcome State Fault Refusal :=
  match s.power_states.handshake with
  | some h => .next { s with thermal.level_effective := if h.target < 4 then levelFor' s h.target else levelInForce s }
  | none => .next { s with thermal.level_effective := levelInForce s }

end Sys2Proof.Machine
end

