-- ==== Sys2Proof/Machine/Engines.lean ====
section
/-!
DEFINITION. The cipher, digest and signature engines (R636 to R649), the handler's slots (R757), and the scrubber with
what an uncorrectable word leads to (R673 to R681).
-/

namespace Sys2Proof.Machine

/-! ### Engines -/

/-- A flag fault: its event, its error, its count (R639, R648, R649). -/
def flagFault (s : State) : State := takeError { source := src 15 0, kind := 8 } [] s

/-- A flag pair says yes: 1 and 0. Any other pair is a failure (R639, R648). -/
def pairHolds (a n : Bool) : Bool := a && !n

/-- A lane ends its message, and the oldest that waits takes it (R637). -/
def freeLane (lane : Nat) (s : State) : State :=
  match s.security.gcm_waiting with
  | [] => { s with security.lanes := s.security.lanes.drop lane }
  | m :: rest => { s with
      security.lanes := s.security.lanes.put lane m
      security.gcm_waiting := rest }

/-- A message has been sealed: it takes a nonce, and a journal record goes to the Array Service Routine (R638, R642,
R197). -/
def messageSealed (lane : Nat) (m : GcmMessage) (s : State) : State :=
  let (n, s) := takeNonce lane s
  match m.record with
  | some r => watchNonces (askArray (.record { r with nonce := n }) [] s)
  | none => watchNonces s

/-- A message has been opened (R638, R639). -/
def messageOpened (a n : Bool) (s : State) : State :=
  let s := { s with sec.gcmCounts.opened := satAdd s.sec.gcmCounts.opened 1 }
  let s := if pairHolds a n then s else { s with sec.gcmFail := satAdd s.sec.gcmFail 1 }
  if a = n then flagFault { s with sec.flagFaults.gcm := satAdd s.sec.flagFaults.gcm 1 } else s

/-- GCM_MESSAGE_DONE (R637 to R639, R642). -/
def execGcmMessageDone (lane : Nat) (auth auth_n : Bool) (s : State) : Host.Outcome State Fault Refusal :=
  match s.security.lanes.find lane with
  | none => .next s
  | some m =>
    if m.sealing && !nonceLeft s then .next s
    else
    let s := freeLane lane s
    .next (if m.sealing then messageSealed lane m s else messageOpened auth auth_n s)

/-- A check of a use has failed: an install or an update in progress ends with it (R211, R234, R248). -/
def checkFailed (u : EngineUse) (s : State) : State :=
  let install := endInstall 0x13 (cutArray BaRequest.ofInstall s)
  let update := match s.boot.update with
    | some x => if x.step ≤ 4 then failUpdate x 2 Status.invalidImage (cutArray BaRequest.ofUpdate s) else s
    | none => s
  match u with
  | .manifestDigest => install
  | .manifestSignature => install
  | .firmwareDigest => update
  | .firmwareSlot => update
  | _ => s

/-- A use whose digest is compared with an expected value (R648); the others only compute one. -/
def EngineUse.compares (u : EngineUse) : Bool :=
  match u with
  | .manifestDigest => true
  | .firmwareDigest => true
  | .pinCheck => true
  | _ => false

/-- A context is freed; the oldest user that waits takes one of 0 to 13 (R646). -/
def freeDigest (c : Nat) (s : State) : State :=
  let s := { s with security.contexts := s.security.contexts.drop c }
  match s.security.digest_waiting with
  | [] => s
  | u :: rest => if c < 14 then askDigest u.1 u.2 { s with security.digest_waiting := rest } else s

/-- DIGEST_DONE (R645 to R648). -/
def execDigestDone (context : Nat) (same same_n : Bool) (s : State) : Host.Outcome State Fault Refusal :=
  match s.security.contexts.find context with
  | none => .next s
  | some u =>
    let s := freeDigest context s
    if !u.compares then .next s
    else
      let s := if same = same_n then flagFault { s with sec.flagFaults.digest := satAdd s.sec.flagFaults.digest 1 } else s
      .next (if pairHolds same same_n then s else checkFailed u s)

/-- SIGNATURE_VERIFY_DONE (R649). -/
def execSignatureVerifyDone (valid valid_n : Bool) (s : State) : Host.Outcome State Fault Refusal :=
  match s.security.checker with
  | [] => .next s
  | u :: rest =>
    let s := { s with security.checker := rest }
    if pairHolds valid valid_n then .next { s with sec.sigCount.verified := satAdd s.sec.sigCount.verified 1 }
    else
      let s := { s with sec.sigCount.rejected := satAdd s.sec.sigCount.rejected 1 }
      let s := if valid = valid_n then flagFault { s with sec.flagFaults.sig := satAdd s.sec.flagFaults.sig 1 } else s
      .next (checkFailed u.2 s)

/-- ERROR_HANDLING_END (R757 to R759): slot 1 moves to slot 0 with its flags, and the oldest held error to slot 1. -/
def execErrorHandlingEnd (s : State) : Host.Outcome State Fault Refusal :=
  .next { s with
    events.slot0 := s.events.slot1
    events.slot1 := s.events.held.head?
    events.held := s.events.held.drop 1 }

/-! ### The scrubber (R678 to R681) -/

/-- Bytes of a code word of a range (table "Code words"). -/
def scrubWord (range : Nat) : Nat := if range = 1 then 32 else if range = 2 then 4 else 64

/-- Bytes of a range: addressable DRAM, general SRAM, CMB SRAM, the valid map with the check lines (R664, R678). -/
def scrubBytes (range : Nat) : Nat :=
  match range with
  | 0 => 60 * 2 ^ 30
  | 1 => Config.generalSramBytes
  | 2 => 2 ^ 25
  | _ => 4 * 2 ^ 30

/-- Memory code of a range, as MEM_LAST_UE names it. -/
def scrubMemory (range : Nat) : Nat := if range = 1 then 2 else if range = 2 then 3 else 1

/-- Byte address in its memory of an address of a range; range 3 follows addressable DRAM. -/
def scrubAddress (range a : Nat) : Nat := if range = 3 then 60 * 2 ^ 30 + a else a

/-- Timer and period of a range. -/
def scrubTimer (range : Nat) : TimerKind := if range = 1 ∨ range = 2 then .scrubSram else .scrubDram

/-- Period of a range. -/
def scrubPeriod (s : State) (range : Nat) : Nat :=
  if range = 1 ∨ range = 2 then s.mem.scrPeriodSram.toNat else s.mem.scrPeriodDram.toNat

/-- The scrubber works on a range in this mode (table "Scrubbing by mode"). -/
def scrubs (s : State) (range : Nat) : Bool :=
  let dram := range == 0 || range == 3
  match s.mode with
  | .hold => false
  | .flush => false
  | .start => decide ((if dram then 7 else 6) ≤ s.reset_ctl.start_step)
  | .patrol => !(dram && s.psm.status.patrol_phase == 1)
  | .readOnly => !(dram && s.psm.status.patrol_phase == 1)
  | _ => true

/-- A pass of a range begins; the period counts from here (R679). -/
def beginPass (range : Nat) (s : State) : State :=
  arm (scrubTimer range) range (scrubPeriod s range)
    (request (.scrubStart range) { s with memory.passes := s.memory.passes.put range {} })

/-- SCRUB_PASS_START (R679): a pass that has not ended continues, and the next waits for it. -/
def execScrubPassStart (range : Nat) (s : State) : Host.Outcome State Fault Refusal :=
  if range < 4 ∧ s.due (scrubTimer range) range ∧ scrubs s range then
    if s.memory.passes.has range then
      .next (disarm (scrubTimer range) range { s with
        mem.scrStatus.overrun := setBit s.mem.scrStatus.overrun range true
        memory.due := if s.memory.due.contains range then s.memory.due else s.memory.due ++ [range] })
    else .next (beginPass range s)
  else .next s

/-- A pass ends: summary, stamp, events (R681). -/
def endPass (range : Nat) (p : ScrubPass) (s : State) : State :=
  let (st, s) := takeStamp s
  let s := { s with
    memory.passes := s.memory.passes.drop range
    memory.corrected_in_pass := s.memory.corrected_in_pass.filter fun w => w.1 != range
    mem.scrSummary := s.mem.scrSummary.put range
      { uncorrectable := sat 8 p.uncorrectable, corrected := sat 16 p.corrected, read := sat 40 p.words } }
  let s := deliver (.scrubPass range) st s
  let s := raise (src 13 3) range (leBytes 8 p.start.stamp.toNat ++ leBytes 8 st.stamp.toNat) s
  let s := if s.mem.scrCfg.ce_warn.toNat ≤ p.corrected then raise (src 13 4) range [] s else s
  if s.memory.due.contains range then beginPass range { s with memory.due := s.memory.due.filter fun x => x != range } else s

/-- Count a corrected or an uncorrectable read of a memory (R674, R675). -/
def countEcc (memory : Nat) (ue : Bool) (s : State) : State :=
  if memory = 1 then
    (if ue then { s with mem.eccCount.dram_ue := satAdd s.mem.eccCount.dram_ue 1 }
     else { s with mem.eccCount.dram_ce := satAdd s.mem.eccCount.dram_ce 1 })
  else if ue then { s with mem.eccCount.sram_ue := satAdd s.mem.eccCount.sram_ue 1 }
  else { s with mem.eccCount.sram_ce := satAdd s.mem.eccCount.sram_ce 1 }

/-- A word is corrected; one corrected again in the pass is reported (R674). -/
def wordCorrected (range a : Nat) (s : State) : State :=
  let s := countEcc (scrubMemory range) false s
  if s.memory.corrected_in_pass.contains (range, a) then raise (src 13 0) 0 (leBytes 8 (scrubAddress range a)) s
  else { s with memory.corrected_in_pass := s.memory.corrected_in_pass ++ [(range, a)] }

/-! ### Uncorrectable words (R675 to R677) -/

/-- The write buffer still holds a newer accepted unit or record of the unit (R676). -/
def newerHeld (s : State) (u : HeldUnit) : Bool :=
  (s.shroud.held.any fun v => v.unit == u.unit && decide (u.stamp.stamp.toNat < v.stamp.stamp.toNat))
    || s.shroud.records.any fun m => decide (m.first ≤ u.unit) && decide (u.unit < m.first + m.count)
        && decide (u.stamp.stamp.toNat < m.stamp.stamp.toNat)

/-- A unit of a stripe being built whose host data is lost holds nothing. -/
def dropSource (u : HeldUnit) (s : State) : State :=
  let gone : UnitSource := .host u.unit u.stamp
  let f := fun (x : UnitSource) => if x = gone then UnitSource.empty else x
  match u.serial with
  | some n => onStripe n (fun st => { st with units := st.units.map f }) s
  | none => s

/-- A held host unit is lost: a record of kind 0x05 stands in its place (R676). -/
def loseHeld (i : Nat) (s : State) : State :=
  match s.shroud.held[i]? with
  | none => s
  | some u =>
    if u.applied then s
    else
      let first := match s.shroud.slices.find u.slice with | some d => d.first | none => u.ns_unit
      let s := dropSource u { s with shroud.held := s.shroud.held.eraseIdx i }
      let s := releaseSliceUnits u.slice [u.ns_unit - first] s
      let m : MapRecord := { kind := 5, stamp := u.stamp, ns_index := u.ns_index, ordinal := 1, first := u.unit, count := 1 }
      let s := if newerHeld s u then (placeRecord m s).2 else holdMapRecord m s
      shroudLost 1 s

/-- A frame staged for a copy is discarded, and its source is read again. -/
def rereadCopy (i : Nat) (s : State) : State :=
  match s.shroud.copies[i]? with
  | some (.copy g st a) => readCopy st.stamp.toNat g a { s with shroud.copies := s.shroud.copies.eraseIdx i }
  | _ => s

/-- A clean page of the map cache is read again (R376). -/
def rereadPage (page : Nat) (s : State) : State :=
  if (s.engine.cache.look {} page).dirty then s
  else readPage s.nextStamp page { s with engine.cache := s.engine.cache.drop page }

/-- A local rebuild of a reef (R677): its entries come back from the newest checkpoint and the summaries after it; where a
needed stripe is lost, they are marked unreadable with cause 0x03. -/
def rebuildReef (reef : Nat) (s : State) : State :=
  let from0 := match s.engine.complete.head? with | some c => c.scan_from | none => 0
  if (s.shroud.stripes.vals.any fun st => st.state == .lost && decide (from0 ≤ st.open_stamp.stamp.toNat)) then
    raise (src 9 0) 0 [] (markRange (16 * reef) 16 3 s)
  else s

/-- What an uncorrectable word leads to, by the requester's row in the table "Uncorrectable outcomes by requester"; `subject`
is what the word held: a tracker entry (rows 2 to 4 and 11), a key slot with a tracker entry above bit 8 (row 5), a place
among the held units (row 6), among the copies (row 7), a map page (row 8) or a reef (row 9). -/
def wordLost (row subject : Nat) (s : State) : State :=
  let fail := fun (t : Nat) (s : State) => afterEnded (failEntry t Status.dataTransfer 0 s)
  match row with
  | 2 => fail subject s
  | 3 => fail subject s
  | 4 => fail subject s
  | 5 =>
    let s := raise (src 15 1) (subject % 256) [] s
    if 256 ≤ subject then fail (subject / 256 - 1) s else s
  | 6 => loseHeld subject s
  | 7 => rereadCopy subject s
  | 8 => rereadPage subject s
  | 9 => rebuildReef subject s
  | 10 => each s.enabledCtrls setCfs s
  | 11 => fail subject s
  | _ => s

/-- The command that an uncorrectable word ends. -/
def endedByWord (row subject : Nat) : Option Nat :=
  if row = 2 ∨ row = 3 ∨ row = 4 ∨ row = 11 then some subject
  else if row = 5 ∧ 256 ≤ subject then some (subject / 256 - 1)
  else none

/-- Serial of the stripe of a held unit whose frame is lost. -/
def lostSerial (row subject : Nat) (s : State) : List Nat :=
  if row = 6 then ((s.shroud.held[subject]?).bind HeldUnit.serial).toList else []

/-- An uncorrectable word is found (R675). -/
def wordUncorrectable (range a row subject : Nat) (s : State) : State :=
  let mem := scrubMemory range
  let adr := scrubAddress range a
  let s := countEcc mem true { s with
    mem.lastUe := { memory := BitVec.ofNat 4 mem, requester := BitVec.ofNat 4 row, address := BitVec.ofNat 40 adr }
    memory.bad_words := if mem = 3 && !s.memory.bad_words.contains (3, adr) then s.memory.bad_words ++ [(3, adr)]
                        else s.memory.bad_words }
  let s := request .memoryUe s
  let l := lostSerial row subject s
  let d : ErrorDraft := { source := src 13 1, kind := 4, serial := l.headD 0 }
  let s := match endedByWord row subject with
    | some t => takeCommandError d l t Status.dataTransfer s
    | none => takeError d l s
  settleMedia (wordLost row subject s)

/-- SCRUB_WORD_READ (R678, R674, R675): the next word of a pass, in ascending address order; `valid` is its valid bit, which for CMB SRAM the state holds. A word
at or beyond the end of the range says that no further word is left. -/
def execScrubWordRead (range address : Nat) (valid : Bool) (outcome : EccOutcome) (s : State) :
    Host.Outcome State Fault Refusal :=
  match s.memory.passes.find range with
  | none => .next s
  | some p =>
    if !scrubs s range || decide (address < p.position) || decide (address % scrubWord range ≠ 0) then .next s
    else if scrubBytes range ≤ address then .next (endPass range p s)
    else
      let p := { p with position := address + scrubWord range }
      let keep := fun (p : ScrubPass) (s : State) =>
        if scrubBytes range ≤ p.position then endPass range p s else { s with memory.passes := s.memory.passes.put range p }
      if !(if range = 2 then s.memory.cmb_valid.contains (address / 4) else valid) then .next (keep p s)
      else
        let p := { p with words := p.words + 1 }
        match outcome with
        | .clean => .next (keep p s)
        | .corrected => .next (keep { p with corrected := p.corrected + 1 } (wordCorrected range address s))
        | .uncorrectable row subject =>
          .next (keep { p with uncorrectable := p.uncorrectable + 1 } (wordUncorrectable range address row subject s))

end Sys2Proof.Machine
end

