-- ==== Sys2Proof/Machine/Firmware.lean ====
section
/-!
DEFINITION. Firmware download and commit, manifest transfer and install from the host (R247 to R252, R349 to R351, R355,
R356, R728, R729).
-/

namespace Sys2Proof.Machine

/-- Bytes that CDW10 asks to transfer, a dword count from 0. -/
def Sqe.transferBytes (q : Sqe) : Nat := 4 * (q.cdw10.toNat + 1)

/-- Byte offset of a transfer, a dword offset in CDW11. -/
def Sqe.transferOffset (q : Sqe) : Nat := 4 * q.cdw11.toNat

/-! ### Firmware (R349 to R351) -/

/-- FIRMWARE_IMAGE_DOWNLOAD (R349): a piece that reaches as far as any before it counts as the last. -/
def execFirmwareImageDownload (entry : Nat) (data : Bytes) (s : State) : Host.Outcome State Fault Refusal :=
  runEntry entry true 0x11 (fun e s =>
    let n := e.sqe.transferBytes
    let o := e.sqe.transferOffset
    let odd := o % 4096 ≠ 0 ∨ n % 4096 ≠ 0
    if 2 ^ 24 < o + n ∨ (odd ∧ o + n < s.boot.fw_length) then finishEntry entry Status.invalidField 0 s
    else finishEntry entry 0 0 { s with
      boot.fw_staging := Cells.writes s.boot.fw_staging o (padTo n data)
      boot.fw_length := max s.boot.fw_length (o + n) }) s

/-- Header of a staged image, and the image after it (table "Firmware slot header"). -/
def stagedHeader (m : List (Nat × Byte)) : Bytes := Cells.reads m 0 4096

/-- Image bytes of a staged image. -/
def stagedImage (m : List (Nat × Byte)) : List (Nat × Byte) :=
  (m.filter fun p => decide (4096 ≤ p.1)).map fun p => (p.1 - 4096, p.2)

/-- The slot that a commit names, `true` for B; none for a slot that does not exist. -/
def slotNamed (s : State) (fs : Nat) : Option Bool :=
  match fs with
  | 0 => some !s.ba.status.active_slot
  | 1 => some false
  | 2 => some true
  | _ => none

/-- A commit is in progress on this device or across the cascade (R351). -/
def commitBusy (s : State) : Bool := s.boot.update.isSome || s.keaka.admin.any fun a => a.body.headD 0 == 4

/-- A commit on this device (table "Firmware Commit actions"): the slot is written, or selected for the next boot. -/
def commitFirmware (path : AdminPath) (action fs : Nat) (staged : List (Nat × Byte)) (s : State) : State :=
  match slotNamed s fs with
  | none => endAdmin path Status.invalidSlot 0 s
  | some b =>
    let booted := b == s.ba.status.active_slot
    let update : FwUpdate := { slotB := b, step := 0, activate := action == 1, path := path,
                               header := stagedHeader staged, image := stagedImage staged }
    if action ≤ 1 then
      if booted then endAdmin path Status.invalidSlot 0 s
      else if !imageValid s update.header update.image then endAdmin path Status.invalidImage 0 s
      else beginUpdate update s
    else if booted || slotValid s b then
      request (.record 4 (nextBoot s b)) { s with boot.update := some { update with step := 8, header := (s.slot b).header } }
    else endAdmin path Status.invalidImage 0 s

/-- A Firmware Commit of the host: every yard takes part after the masthead (R728); the staged image goes with it. -/
def hostCommit (t action : Nat) (e : Entry) (s : State) : State :=
  let fs := e.sqe.cdw10.toNat % 8
  let staged := s.boot.fw_staging
  if commitBusy s then finishEntry t Status.sequenceError 0 s
  else if 2 < fs then finishEntry t Status.invalidSlot 0 s
  else
    let body := [4, action, fs] ++ (Cells.reads staged 0 s.boot.fw_length).map BitVec.toNat
    let s := onEntry t (fun e => { e with state := .overlap }) (involveYards t (yardsJoined s) body s)
    let s := commitFirmware (.host t) action fs staged s
    if action ≤ 1 && s.boot.update.isSome then { s with boot.fw_staging := [], boot.fw_length := 0 } else s

/-- Run a Firmware Commit row: its commit action is the row's, or for the row of action 0 one that is refused. -/
def runCommit (t action : Nat) (s : State) : Host.Outcome State Fault Refusal :=
  .next (match fetchedEntry t true 0x10 s with
    | some e =>
      let ca := e.sqe.cdw10.toNat / 8 % 8
      if ca = action then hostCommit t action e s
      else if action = 0 ∧ 2 < ca then finishEntry t Status.invalidField 0 s
      else s
    | none => s)

/-- FIRMWARE_COMMIT_WRITE (R350), commit action 0b000; a command with an action that the table refuses ends here too. -/
def execFirmwareCommitWrite (entry : Nat) (s : State) : Host.Outcome State Fault Refusal := runCommit entry 0 s

/-- FIRMWARE_COMMIT_WRITE_ACTIVATE (R350), commit action 0b001. -/
def execFirmwareCommitWriteActivate (entry : Nat) (s : State) : Host.Outcome State Fault Refusal := runCommit entry 1 s

/-- FIRMWARE_COMMIT_ACTIVATE (R350), commit action 0b010. -/
def execFirmwareCommitActivate (entry : Nat) (s : State) : Host.Outcome State Fault Refusal := runCommit entry 2 s

/-! ### Manifests (R355, R356, R729) -/

/-- Bytes of the manifest staging buffer (R248). -/
def stagingBytes : Nat := 983040

/-- A transfer into the staging buffer: its status and result, and the state (R355). -/
def stageManifest (q : Sqe) (data : Bytes) (s : State) : Nat × Nat × State :=
  let n := q.transferBytes
  let o := q.transferOffset
  if stagingBytes < o + n then (Status.invalidField, 0, s)
  else if stagingBusy s then (Status.installFailed, 0x11, s)
  else (0, 0, { s with
    manifest.staging := Cells.writes s.manifest.staging o (padTo n data)
    manifest.staged := max s.manifest.staged (o + n) })

/-- MANIFEST_TRANSFER (R355). -/
def execManifestTransfer (entry : Nat) (data : Bytes) (s : State) : Host.Outcome State Fault Refusal :=
  runEntry entry true 0xC1 (fun e s =>
    match stageManifest e.sqe data s with
    | (st, dw0, s) => finishEntry entry st dw0 s) s

/-- The yard whose serial number an image names (R729). -/
def yardNamed (s : State) (img : Bytes) : Option Nat :=
  if s.yard || imgSerial img == Config.deviceSerial || ((imgSerial img).all fun b => b == 0) then none
  else (yardsJoined s).find? fun p => imgSerial img == Config.yardSerial p

/-- Install the staged image (R356): on the device its target_serial names, which is a yard when one joined has that serial
number (R729); the mode, the busy test and the length come first. -/
def installStaged (path : AdminPath) (sideband : Bool) (key : Nat) (s : State) : State :=
  let img := Cells.reads s.manifest.staging 0 s.manifest.staged
  match yardNamed s img with
  | some p =>
    if installMode s sideband && !stagingBusy s && decide (imgTotal img ≤ img.length) then
      let body := 3 :: (img.take (imgTotal img)).map BitVec.toNat
      sendFrame 0x28 p key body { s with
        keaka.admin := s.keaka.admin ++ [{ entry := key, waiting := [], asked := some p, body := body }] }
    else installManifest path sideband img s
  | none => installManifest path sideband img s

/-- MANIFEST_INSTALL (R356). -/
def execManifestInstall (entry : Nat) (s : State) : Host.Outcome State Fault Refusal :=
  runEntry entry true 0xC4 (fun _ s =>
    installStaged (.host entry) false entry (onEntry entry (fun e => { e with state := .overlap }) s)) s

end Sys2Proof.Machine
end

