-- ==== Sys2Proof/Machine/Replay.lean ====
section
/-!
DEFINITION. What Start finds of the run before: the stamp floor (R85, R721), the Shroud's replay (R442, R448, R449), the
checkpoint and the stamp scan (R397 to R401), and the records of step 12 (R183, R220, R242, R447, R586).
-/

namespace Sys2Proof.Machine

/-! ### Spill images and the floor (R85, R446) -/

/-- Spill images that step 11 finds: those whose reservation record verifies, their sets not yet given up. -/
def liveImages (s : State) : List SpillImage := s.shroud.images.filter fun i => i.valid && !i.released

/-- The image of greatest image stamp. -/
def newestImage (s : State) : Option SpillImage :=
  (liveImages s).foldl (fun best i => match best with
    | some b => if b.image_stamp.stamp.toNat < i.image_stamp.stamp.toNat then some i else best
    | none => some i) none

/-- Newest stamp in either stay or in the latest checkpoint. -/
def newestStayStamp (s : State) : Nat :=
  let stay := (s.shroud.journal.filter fun r => r.durable0 || r.durable1).map fun r => r.stamp.stamp.toNat
  let red := match s.redun.page with | some p => p.stamp.stamp.toNat | none => 0
  let ck := s.engine.complete.map fun c => c.complete_stamp.stamp.toNat
  (stay ++ ck ++ [red, s.health.page_stamp.stamp.toNat, s.security.store_stamp.stamp.toNat]).foldl max 0

/-- Sources of the stamp floor with their codes, in code order; greatest floor of a yard last (R85). -/
def floorSources (s : State) : List (Nat × Nat) :=
  [(0, 2 ^ 32)]
    ++ (if s.reset_ctl.retention.reservation = 0 then [] else [(1, s.reset_ctl.retention.reservation)])
    ++ (match newestImage s with | some i => [(2, i.reserve)] | none => [])
    ++ (if s.engine.formatted then [(3, newestStayStamp s + s.camp.reserveSpan.toNat)] else [])
    ++ (if s.yard then [] else s.keaka.yards.vals.filterMap fun y => y.floor.map fun f => (4, f))

/-- The floor and its source: the greatest value, the lower code where two are equal. -/
def floorFound (s : State) : Nat × Nat :=
  (floorSources s).foldl (fun best p => if best.2 < p.2 then p else best) (0, 0)

/-! ### Records of step 12 -/

/-- Deferred causes and stamp that the newest image's end marker carries and no reset-cause record holds yet (R447). -/
def markerCauses (s : State) : Nat × Stamped :=
  match (newestImage s).bind SpillImage.marker with
  | none => (0, {})
  | some m =>
    let held := (journalRecords s).any fun r => r.type == 1 &&
      (if m.def_stamp.stamp = 0 then decide (m.stamp.stamp.toNat < r.stamp.stamp.toNat)
       else field r.payload 16 8 == m.def_stamp.stamp.toNat)
    if held then (0, {}) else (m.def_causes, m.def_stamp)

/-- A record of step 12 with a stamp of this Start. -/
def writeStamped (type : Nat) (body : Bytes) (s : State) : State := request (.record type body) s

/-- The reset-cause record (R183, R185, table "Journal payloads owned by this chapter"). -/
def writeCause (s : State) : State :=
  let l := s.rst.last
  let mk := markerCauses s
  let def_stamp : Stamped := match s.reset_ctl.deferred with | some d => d.stamp | none => mk.2
  let causes := s.reset_ctl.since_record.toNat ||| s.reset_ctl.deferred_causes.toNat ||| mk.1
  let deferred := l.deferred || decide (s.reset_ctl.deferred_causes ≠ 0) || def_stamp.stamp != 0
  let body := leBytes 2 causes ++ leBytes 1 (l.level.toNat + 8 * deferred.toNat + 16 * l.mode_at.toNat)
    ++ leBytes 5 (l.stamp_unanch.toNat + 2 * def_stamp.unanch.toNat)
    ++ leBytes 8 s.rst.lastStamp.toNat ++ leBytes 8 def_stamp.stamp.toNat
  writeStamped 1 body s

/-- The Start-failure record held by R220. -/
def writeHeldFailure (s : State) : State :=
  match s.reset_ctl.retention.start_failure with
  | some (code, step) => writeStamped 5 (leBytes 1 code ++ leBytes 1 step) s
  | none => s

/-- Newest firmware-update-result record of a slot. -/
def newestResult (s : State) (b : Bool) : Option JournalRecord :=
  ((journalRecords s).filter fun r => r.type == 6 && field r.payload 0 1 == b.toNat).foldl
    (fun best r => match best with | some x => if x.seq < r.seq then some r else best | none => some r) none

/-- The firmware-update-result record of R215: an update that was interrupted. -/
def writeInterrupted (b : Bool) (s : State) : State :=
  match newestResult s b with
  | some r => if field r.payload 1 1 = 4 ∧ !slotValid s b then writeStamped 6 (updateResult b 3 (field r.payload 4 4)) s else s
  | none => s

/-- The manifest records of R242. -/
def writeManifestRecords (s : State) : State :=
  let b := s.man.status.applied_copy
  let now := manifestRecord s 0 b s.manifest.in_force s.man.floor.toNat
  let differs := match newestRecord s 8 with
    | some r => decide (field r.payload 1 1 ≠ field now 1 1) || decide (field r.payload 4 8 ≠ field now 4 8)
        || (r.payload.drop 20) != now.drop 20
    | none => true
  let s := if differs then writeStamped 8 now s else s
  each ([false, true].filter fun c => !flagSet s (copyFlagSector c)) (fun c s =>
    writeStamped 8 (manifestRecord s 2 c (copyImage s c) s.man.floor.toNat) s) s

/-- A pending Thermal Halt record of the newest image, written with deferred = 1 unless the journal holds its th_stamp
(R51, R447). -/
def writePendingHalt (s : State) : State :=
  match (newestImage s).bind SpillImage.th_payload with
  | none => s
  | some p =>
    if (journalRecords s).any fun r => r.type == 2 && field r.payload 0 8 == field p 0 8 then s
    else
      let flags := field p 12 1 / 2 * 2 + 1
      writeStamped 2 (p.take 12 ++ leBytes 1 flags ++ p.drop 13) s

/-- The cleared record (R586, R587): th_clear gives cause 1, a Start after source 0x0 or 0x1 cause 2. -/
def writeCleared (s : State) : State :=
  let l := unclearedHalts s
  let n := l.length + s.reset_ctl.retention.th_held.length
  let body := fun (cause : Nat) (m : Int) (st : Stamped) =>
    leBytes 4 ((l.map JournalRecord.seq).foldl max 0) ++ leBytes 1 cause ++ leBytes 1 (min n 255)
      ++ leBytes 2 (BitVec.ofInt 16 m).toNat ++ leBytes 8 st.stamp.toNat ++ leBytes 1 st.unanch.toNat
  if n = 0 then s
  else match s.reset_ctl.retention.th_clear with
    | some (m, st) => writeStamped 3 (body 1 m st) s
    | none =>
      if s.rst.last.source.toNat ≤ 1 then
        let (st, s) := takeStamp s
        writeStamped 3 (body 2 ((composite s).1 / 2 ^ 24) st) s
      else s

/-- Every record of step 12, in its order (R218): the pending Thermal Halt record comes last, so that no cleared record of
this Start clears it. -/
def writeStartRecords (s : State) : State :=
  let s := writeHeldFailure (writeCause s)
  let s := writeManifestRecords (writeInterrupted true (writeInterrupted false s))
  writePendingHalt (writeCleared s)

/-! ### Replay (R442, R448, R449) -/

/-- A stripe is committed or closed. -/
def Stripe.ended (st : Stripe) : Bool := st.state == .committed || st.state == .closed

/-- The journal of an image joins what the stays hold; a stripe whose commit record it carries is committed again. -/
def mergeJournal (l : List StayRecord) (s : State) : State :=
  let new := l.filter fun r => !s.shroud.journal.any fun x => x.seq == r.seq
  let s := { s with
    shroud.journal := (sortOn StayRecord.seq (s.shroud.journal ++ new))
    shroud.journal_seq := (new.map StayRecord.seq).foldl max s.shroud.journal_seq }
  each (new.filter fun r => r.type == 1 || r.type == 2) (fun r s =>
    onStripe r.serial (fun st => { st with state := if r.type = 1 then .committed else .closed }) s) s

/-- The unit lies in a committed or closed stripe, on a member that did not fail. -/
def placedUnit (s : State) (u : HeldUnit) : Bool :=
  match u.serial.bind s.stripe with
  | some st => st.ended && (List.range st.units.length).any fun i =>
      st.units.getD i .empty == .host u.unit u.stamp && liveUnit s st i
  | none => false

/-- The record is in the summary of a committed or closed stripe. -/
def placedRecord (s : State) (m : MapRecord) : Bool :=
  match m.serial.bind s.stripe with
  | some st => st.ended
  | none => false

/-- Every held unit is entered again, with a slice of its own and its entry in banks 0 to 7; what is assigned to no
committed stripe is a held change (R449 steps 2 and 3). -/
def reenter (s : State) : State :=
  let l := s.shroud.held
  let again := fun (p : Nat × HeldUnit) => { p.2 with
    slice := p.1, applied := false, serial := if placedUnit s p.2 then p.2.serial else none }
  let s := { s with
    teasel.entries := s.teasel.entries.filter fun p => decide (32768 ≤ p.1)
    teasel.inserts := []
    teasel.shift := none
    shroud.held := ((List.range l.length).zip l).map again
    shroud.slices := ((List.range l.length).zip l).map fun p =>
      (p.1, { ns_index := p.2.ns_index, first := p.2.ns_unit, units := 1, stamp := p.2.cmd })
    shroud.records := ((List.range s.shroud.records.length).zip s.shroud.records).map fun p =>
      { p.2 with slot := p.1, applied := false, serial := if placedRecord s p.2 then p.2.serial else none } }
  rebuildWriteBuffer s

/-- Held units that did not survive: each is unreadable until written again (R169). -/
def loseUnits (units : List Nat) (s : State) : State :=
  each units (fun g s => markUnreadable g 1 s) { s with shroud.held := s.shroud.held.filter fun u => !units.contains u.unit }

/-- Blocks with a member of a stripe that is neither committed nor abandoned (R442). -/
def handleCut (bad : List Nat) (s : State) : State :=
  let cut := s.shroud.stripes.filter fun p => p.2.inFlight
  let s := { s with shroud.stripes := s.shroud.stripes.over fun _ st =>
    if st.inFlight then { st with state := .abandoned } else st }
  each ((cut.flatMap fun p => p.2.members.map fun m => blockKey m.die m.block).eraseDups) (fun k s =>
    match (s.blockAt k).state with
    | .retired => s
    | _ => if bad.contains k then retireBlock true k s else queueBlock 1 k s) s

/-- last_flush and PWR_FLUSH_LAST from the image replayed (R773). -/
def showFlush (i : SpillImage) (n : Nat) (s : State) : State :=
  let code := match i.marker with | none => 2 | some m => if m.start_spill then 3 else 1
  let duration := match i.marker with
    | none => 0xFFFFFFFF
    | some m => m.stamp.stamp.toNat - i.image_stamp.stamp.toNat
  { s with
    pwr.status.last_flush := BitVec.ofNat 2 code
    pwr.flushLast := { duration := sat 32 duration, mib := sat 11 (divUp n 256) }
    str.status.replay_src := if i.marker.isSome then 2 else 3
    health.counts.flush_complete := s.health.counts.flush_complete + (if i.marker.isSome then 1 else 0)
    health.counts.flush_incomplete := s.health.counts.flush_incomplete + (if i.marker.isSome then 0 else 1) }

/-- Replay from an image: the units whose records verify; those its index names without one are lost, and their LBAs are
unreadable where no newer version verifies (R169, R448). -/
def replayImage (i : SpillImage) (bad : List Nat) (s : State) : State :=
  let good := i.units.filter fun u => !bad.contains u.unit
  let lost := i.index.filter fun u => !good.any fun v => v.unit == u.unit && v.stamp == u.stamp
  let gone := (lost.filter fun u => !good.any fun v => v.unit == u.unit && decide (u.stamp.stamp.toNat < v.stamp.stamp.toNat)).map HeldUnit.unit
  let s := mergeJournal i.journal { s with shroud.held := good, shroud.records := i.records }
  let s := showFlush i good.length s
  let s := loseUnits gone s
  if i.marker.isNone || !lost.isEmpty then shroudLost lost.length s else s

/-- A spill set other than the one replayed is erased (R449 step 5). -/
def eraseSet (k : Nat) (s : State) : State :=
  each (s.shroud.sets.look [] k) (fun b => onBlock b fun x => if x.state = .spill then { x with pe := x.pe + 1 } else x) s

/-- Step 13 of Start (R448, R449). -/
def replayShroud (bad cutBlocks : List Nat) (s : State) : State :=
  let dram := s.reset_ctl.dram_kept && s.shroud.clean_sr
  let img := newestImage s
  let failed := s.reset_ctl.dram_kept && !dram || s.reset_ctl.shroud_gone
  let s := { s with reset_ctl.shroud_gone := false }
  let s := if dram then
      let gone := bad.filter fun g => s.shroud.held.any fun u => u.unit == g
      let s := loseUnits gone { s with str.status.replay_src := 1 }
      if gone.isEmpty then s else shroudLost gone.length s
    else
      let s := { s with shroud.held := [], shroud.records := [] }
      match img with
      | some i =>
        let s := replayImage i bad s
        if failed && !s.pwr.status.shroud_lost then shroudLost 0 s else s
      | none => if failed || (!s.nvme.clean && s.engine.formatted) then shroudLost 0 s else s
  let keep := fun (i : SpillImage) => !dram && (match img with | some x => x.set == i.set && x.image_stamp == i.image_stamp | none => false)
  let s := reenter (handleCut cutBlocks s)
  let s := each ([0, 1].filter fun k => !s.shroud.images.any fun i => keep i && i.set == k) eraseSet s
  let s := match img with
    | some i => if keep i then appendBuilt 6 (i.set + 2) s else s
    | none => s
  let s := { s with
    shroud.images := s.shroud.images.filter keep
    shroud.pages := []
    reclaim.blocks := s.reclaim.blocks.over fun _ b => if b.state = .erasing then { b with state := .released } else b }
  each ((s.shroud.journal.filter fun r => !r.durable).map StayRecord.seq) pageRecord s

/-! ### Checkpoint and stamp scan (R397 to R401) -/

/-- A change the scan finds. -/
inductive ScanChange where
  /-- Unit index of a stripe that holds a host unit, a copy or a map unit. -/
  | placed (serial index : Nat)
  | record (m : MapRecord)
  | heldUnit (u : HeldUnit)
  | heldRecord (m : MapRecord)
  deriving DecidableEq, Repr

/-- A change with its key, its order among equals, and the open stamp of its stripe. -/
structure Scanned where
  key : Nat
  order : Nat
  opened : Nat
  change : ScanChange
  deriving DecidableEq, Repr

/-- Changes of one stripe. -/
def stripeChanges (s : State) (serial : Nat) (st : Stripe) : List Scanned :=
  let o := st.open_stamp.stamp.toNat
  let unit := fun (i : Nat) => match st.units.getD i .empty with
    | .host _ k => some { key := k.stamp.toNat, order := 1, opened := o, change := .placed serial i }
    | .copy _ _ _ => some { key := o, order := 2, opened := o, change := .placed serial i }
    | .mapPage _ k => some { key := k.stamp.toNat, order := 2, opened := o, change := .placed serial i }
    | _ => none
  ((List.range st.units.length).filter (liveUnit s st)).filterMap unit
    ++ st.records.map fun m => { key := m.stamp.stamp.toNat, order := 1, opened := o, change := .record m }

/-- Held changes (R398). -/
def heldChanges (s : State) : List Scanned :=
  ((s.shroud.held.filter fun u => u.serial.isNone).map fun u =>
      { key := u.stamp.stamp.toNat, order := 0, opened := 0, change := .heldUnit u })
    ++ (s.shroud.records.filter fun m => m.serial.isNone).map fun m =>
      { key := m.stamp.stamp.toNat, order := 0, opened := 0, change := .heldRecord m }

/-- The change list in order: key, held before host, host before copy, then the stripe's open stamp. -/
def changeList (s : State) (stripes : List (Nat × Stripe)) : List Scanned :=
  sortOn (fun c : Scanned => (c.key * 4 + c.order) * 2 ^ 64 + c.opened)
    (stripes.flatMap (fun p => stripeChanges s p.1 p.2) ++ heldChanges s)

/-- Units a host, record or held change covers: first unit and count. -/
def Scanned.covers (s : State) (c : Scanned) : Option (Nat × Nat) :=
  let of_ := fun (m : MapRecord) => if m.kind = 3 then none else some (m.first, m.count)
  match c.change with
  | .placed serial i => match s.stripe serial with
    | some st => match st.units.getD i .empty with
      | .host g _ => some (g, 1)
      | _ => none
    | none => none
  | .record m => of_ m
  | .heldUnit u => some (u.unit, 1)
  | .heldRecord m => of_ m

/-- A range less another. -/
def rangeLess (r c : Nat × Nat) : List (Nat × Nat) :=
  let stop := r.1 + r.2
  let lo := max r.1 c.1
  let hi := min stop (c.1 + c.2)
  if hi ≤ lo then [r] else ([(r.1, lo - r.1), (hi, stop - hi)].filter fun p => decide (0 < p.2))

/-- What is left of a range after every cover. -/
def rangeLeft (r : Nat × Nat) (l : List (Nat × Nat)) : List (Nat × Nat) :=
  l.foldl (fun rs c => rs.flatMap fun x => rangeLess x c) [r]

/-- Held changes lose the units that a later change of the list covers (R398). -/
def dropSuperseded (s : State) : List Scanned → State → State
  | [], t => t
  | c :: rest, t =>
    let later := rest.filterMap (Scanned.covers s)
    let t := match c.change with
      | .heldUnit u => if later.any (fun r => decide (r.1 ≤ u.unit) && decide (u.unit < r.1 + r.2)) then
          releaseSliceUnits u.slice [0] { t with shroud.held := t.shroud.held.filter fun x => !(x.unit == u.unit && x.stamp == u.stamp) }
        else t
      | .heldRecord m => if m.kind = 3 then t else
          let left := rangeLeft (m.first, m.count) later
          if left = [(m.first, m.count)] then t
          else each left (fun r => holdMapRecord { m with first := r.1, count := r.2 })
            (leaveRecord m { t with shroud.records := t.shroud.records.filter fun x => x != m })
      | _ => t
    dropSuperseded s rest t

/-- An entry from its 40 bits; a fine pointer is read elsewhere. -/
def locOfBits (v : Nat) : Loc :=
  match v / 2 ^ 38 % 4 with
  | 1 => .flash (v % 2 ^ 38)
  | 3 => .unreadable (v % 256)
  | _ => .unmapped

/-- The newest written copy of a map page, in bytes; none for a page never written (R375). -/
def pageOnFlash (s : State) (page : Nat) : Bytes :=
  match s.engine.directory.find page with
  | some a => (s.reclaim.flash.look {} a).frame.data
  | none => []

/-- A reef as the map pages on flash have it (R374). -/
def pagedReef (s : State) (r : Nat) : Reef :=
  let v := field (pageOnFlash s (reefPage r)) (96 + 5 * (r % 800)) 5
  if v / 2 ^ 38 % 4 = 2 then
    let i := v % 2 ^ 38
    .fine i ((List.range 16).map fun k => locOfBits (field (pageOnFlash s (finePage i)) (96 + 80 * (i % 50) + 5 * k) 5))
  else .coarse (locOfBits v)

/-- The table that the map pages on flash hold. -/
def pagedTable (s : State) : Tab Reef :=
  ((s.engine.directory.filter fun p => p.1 % 2 == 0).flatMap fun p => (List.range 800).map fun i => 800 * (p.1 / 2) + i).filterMap fun r =>
    match pagedReef s r with
    | .coarse .unmapped => none
    | x => some (r, x)

/-- The horizon of the page that holds a unit's entry (R374, R398). -/
def pageHorizon (s : State) (g : Nat) : Nat :=
  let page := match s.engine.table.find (g / 16) with
    | some (.fine i _) => finePage i
    | _ => reefPage (g / 16)
  field (pageOnFlash s page) 16 8

/-- A record's range cut at reefs. -/
def MapRecord.byReef (m : MapRecord) : List MapRecord :=
  (List.range ((m.first + m.count - 1) / 16 - m.first / 16 + 1)).map fun i =>
    let lo := max m.first (16 * (m.first / 16 + i))
    { m with first := lo, count := min (m.first + m.count) (16 * (m.first / 16 + i) + 16) - lo }

/-- Apply one change of the scan above horizon `h`, in paged mode that of the page that holds the entry (R398). -/
def applyScanned (h : Nat) (c : Scanned) (s : State) : State :=
  let h := fun (g : Nat) => if s.map.cfg.paged then pageHorizon s g else h
  match c.change with
  | .placed serial i => match s.stripe serial with
    | none => s
    | some st =>
      let a := unitAddress s st i
      match st.units.getD i .empty with
      | .host g k => if k.stamp.toNat ≤ h g then s else
          raiseHorizon k (setUnit g (.flash a) { s with map.scanChanges.applied := satAdd s.map.scanChanges.applied 1 })
      | .copy g _ src => if entryOf s g = .flash src then
          setUnit g (.flash a) { s with map.scanChanges.applied := satAdd s.map.scanChanges.applied 1 } else s
      | _ => s
  | .record m =>
    let l := (if s.map.cfg.paged && m.kind != 3 then m.byReef else [m]).filter fun x => decide (h x.first < m.stamp.stamp.toNat)
    if l.isEmpty then s
    else each l applyRecord { s with map.scanChanges.applied := satAdd s.map.scanChanges.applied 1 }
  | _ => s

/-- The newest page of every map-page unit of a committed stripe (R377). -/
def rebuildDirectory (s : State) : State :=
  let pages := (s.shroud.stripes.filter fun p => p.2.ended).flatMap fun p =>
    ((List.range p.2.units.length).filter (liveUnit s p.2)).filterMap fun i => match p.2.units.getD i .empty with
      | .mapPage page k => some (k.stamp.toNat, page, unitAddress s p.2 i)
      | _ => none
  { s with engine.directory := (sortOn Prod.fst pages).foldl (fun t p => t.put p.2.1 p.2.2) [] }

/-- The chunk directory from a checkpoint's and the assignment and release records after it, in key order (R400). -/
def rebuildChunks (base : Tab (Nat × Nat)) (s : State) : State :=
  let l := ((s.shroud.stripes.filter fun p => p.2.ended).flatMap fun p => p.2.records) ++ s.shroud.records
  let l := sortOn (fun m : MapRecord => m.stamp.stamp.toNat) (l.filter fun m => m.kind == 3 || m.kind == 4)
  { s with engine.chunks := l.foldl (fun t m =>
      if m.kind = 3 then t.put (m.first / chunkUnits) (m.ns_index, m.ordinal) else t.drop (m.first / chunkUnits)) base }

/-- What stripes hold is applied, and the units and records in them (R378). -/
def markApplied (s : State) : State :=
  each (s.shroud.records.filter fun m => m.serial.isSome) leaveRecord { s with
    shroud.stripes := s.shroud.stripes.over fun _ st => if st.ended then { st with applied := true } else st
    shroud.held := s.shroud.held.map fun u => if u.serial.isSome then { u with applied := true } else u
    shroud.records := s.shroud.records.map fun m => if m.serial.isSome then { m with applied := true } else m }

/-- Each block's pe from its die's newest snapshot; after an unclean end 1 more where its first page is newer (R458). -/
def loadWear (unclean : Bool) (s : State) : State :=
  let newer := fun (k : Nat) => s.shroud.stripes.vals.any fun st =>
    decide ((s.reclaim.wear_stamp.look {} (k / 4096)).stamp.toNat < st.open_stamp.stamp.toNat)
      && st.members.any fun m => blockKey m.die m.block == k && m.page == 0
  { s with reclaim.blocks := s.reclaim.blocks.over fun k b =>
    if b.state = .retired then b
    else { b with pe := s.reclaim.wear_pe.look 0 k + (if unclean && newer k then 1 else 0) } }

/-- A stripe whose summary cannot be had is lost: its rescue begins when flash reads do (R401). -/
def loseSummary (serial : Nat) (s : State) : State :=
  match s.stripe serial with
  | none => s
  | some st =>
    let s := onStripe serial (fun st => { st with state := .lost }) s
    fatalCondition { s with redun.rescuing := s.redun.rescuing ++ [{ serial := serial, stamp := st.open_stamp }] }

/-- The stamp scan from a checkpoint, or over every committed stripe onto an empty table (R398, R401). -/
def stampScan (c : Option Checkpoint) (lost : List Nat) (s : State) : State :=
  let s := each lost loseSummary s
  let from_ := match c with | some c => c.scan_from | none => 0
  let h := match c with | some c => c.horizon | none => 0
  let l := s.shroud.stripes.filter fun p => p.2.ended && decide (from_ ≤ p.2.open_stamp.stamp.toNat)
  let s := { s with engine.scanned := true, map.scanChanges := { stripes := sat 32 l.length, applied := 0 } }
  let changes := changeList s l
  dropSuperseded s changes (each changes (applyScanned h) s)

/-- A disagreement the checks of the scan find (R401). -/
def scanMismatch (s : State) : State :=
  let s := takeError { source := src 9 1, kind := 0xA } [] { s with map.status.scan_mismatch := true }
  fatalCondition s

/-- A stamp that the scan finds exceeds the floor that this Start seeded (table "Stamp scan checks and outcomes"). -/
def stampAbove (s : State) : Bool :=
  s.camp.status.floor_seeded &&
    ((changeList s s.shroud.stripes).any fun c => decide (s.camp.floor.toNat < c.key) || decide (s.camp.floor.toNat < c.opened))

/-- Step 14 of Start (R398 to R401). -/
def loadTable (r : StartReport) (s : State) : State :=
  if !s.engine.formatted then { s with map.status.last_end := 0 }
  else
    let good := s.engine.complete.filter fun c => !r.badCheckpoints.contains c.begin_stamp.stamp.toNat
    let c := if s.engine.full_scan then none else good.head?
    let fallback := decide (good.head? ≠ s.engine.complete.head?)
    let clean := s.nvme.clean && !fallback && c.isSome
    let chunks := match c with | some c => c.chunks | none => []
    let s := rebuildDirectory s
    let s := (rebuildChunks chunks { s with
      engine.table := if s.map.cfg.paged then pagedTable s else match c with | some c => c.table | none => []
      engine.horizon := match c with | some c => { stamp := BitVec.ofNat 64 c.horizon, unanch := c.horizon_unanch } | none => {}
      map.status.ckpt_fallback := fallback
      map.ckptStamp := match c with | some c => c.begin_stamp.stamp | none => 0
      map.ckptHorizon := match c with | some c => BitVec.ofNat 64 c.horizon | none => 0
      map.status.ckpt_unanch := match c with | some c => c.begin_stamp.unanch | none => false
      map.status.horizon_unanch := match c with | some c => c.horizon_unanch | none => false
      map.status.last_end := if clean then 1 else if c.isSome then 2 else 3 })
    let s := loadWear (!clean) s
    if clean then markApplied s
    else
      let s := if fallback then raise (src 9 2) 0 [] s else s
      let above := stampAbove s
      let s := markApplied (stampScan c r.lostSummaries { s with health.counts.unsafe_shutdowns := s.health.counts.unsafe_shutdowns + 1 })
      if r.mismatch || above then scanMismatch s else s

end Sys2Proof.Machine
end

