-- ==== Sys2Proof/Machine/Cascade.lean ====
section
/-!
DEFINITION. Failures of Start and of a cascade (R220, R716, R731, R732, R739): Start failures, links that go down, lost
yards.
-/

namespace Sys2Proof.Machine

/-- Registers that hold RWM fields, by window and offset. -/
def imageRegisters : List (Nat × Nat) :=
  ((List.range 19).flatMap fun w => (List.range 256).map fun i => (w + 1, 4 * i)).filter fun p => (imageShape p.1 p.2).isSome

/-- Every RWM field and structure at its reset value, with no copy in force (R241). -/
def defaultsOnly (s : State) : State :=
  let s := each imageRegisters (fun p => setImage p.1 p.2 ((readReg State.reset p.1 p.2).getD (32, 0)).2) s
  { s with
    shroud.shapes := [], media.geometry := [], media.ce_map := [], media.offset_tables := [], media.retry_tables := []
    thermal.params := if s.thermal.temps.isEmpty then [] else s.thermal.params
    man.status.defaults_only := true
    man.appliedGen := 0
    manifest.applied := false
    manifest.in_force := [] }

/-- Start fails: start_fail and its event; a Start-failure record when step 11 has completed, else the code and step are
held in the retention register, and what waits for a stamp is released without one (R65, R220).  After start_fail 0x02 or
0x03 no manifest is in force (R241).  A failure held there already, of an earlier Start that no record holds yet, gives way
to this one: the spec does not say which is kept (DESIGN CHOICE, log entry 96). -/
def failStart (code : Nat) (s : State) : State :=
  let step := s.reset_ctl.start_step
  let s := if code = 2 ∨ code = 3 then defaultsOnly s else s
  let s := raise (src 0 4) code [] { s with mgmt.modeStatus.start_fail := BitVec.ofNat 8 code }
  if 11 < step then request (.record 5 (leBytes 1 code ++ leBytes 1 step)) s
  else releaseHeld { s with reset_ctl.retention.start_failure := some (code, step) }

/-- A command has a slice not wholly held, a unit not returned, or a record not held, on a lost yard (R732). -/
def waitsOnLost (s : State) (e : Entry) : Bool :=
  let lost := fun (p : Nat) => s.kk.status.lost.getLsbD p
  (e.slices.any fun x => lost x.position && !x.pieces.all Piece.held)
    || (e.remote_left.any fun u => lost (deviceOf s e.sqe.ns u)) || e.yards_wait.any lost

/-- A yard's part of an admin operation has ended (R728, R729): the next yard follows, or the command ends; an install that
a sideband port asked for is answered there. -/
def forwardEnded (key status dw0 : Nat) (s : State) : State :=
  if 2 ^ 18 ≤ key then
    endAdmin (.sideband (key - 2 ^ 18)) status dw0 { s with keaka.admin := s.keaka.admin.filter fun x => x.entry != key }
  else match s.nvme.tracker.find key with
    | none => { s with keaka.admin := s.keaka.admin.filter fun x => x.entry != key }
    | some e =>
      if e.sqe.opcode = 0x0D ∨ e.sqe.opcode = 0x80 then
        cascadeNext key (onCascade key (fun a => { a with status := if a.status = 0 then status else a.status }) s)
      else adminDone key status dw0 s

/-- An admin operation that a lost yard was running ends there: an install with result 0x13 (R739). -/
def failForwarded (s : State) : State :=
  let mine := s.keaka.admin.filter fun a => match a.asked with | some p => s.kk.status.lost.getLsbD p | none => false
  each mine (fun a => if a.body.headD 0 = 3 then forwardEnded a.entry Status.installFailed 0x13
    else forwardEnded a.entry Status.internalError 0) s

/-- A power-state handshake that waits for yards is refused, code 0x0B, reason 0x1 (R739). -/
def refuseForYards (s : State) : State :=
  match s.power_states.handshake with
  | some h => if h.waiting.contains 0x0B then refuseHandshake h [0x0B] 1 s else s
  | none => s

/-- The masthead loses every yard whose path uses link `l` (R731, R732): KLn_RST# low and held, commands that wait on them
complete with Namespace Not Ready, and what the loss means for a device with or without a table. -/
def loseBranch (l : Nat) (s : State) : State :=
  let gone := [1, 2, 3].filter fun p => topoPresent s p && linkToward s 4 p == l && !s.kk.status.lost.getLsbD p
  if gone.isEmpty then s
  else
    let s := each gone (fun p s => raise (src 17 3) 0 [] { s with
      kk.status.lost := setBit s.kk.status.lost p true
      kk.status.joined := setBit s.kk.status.joined p false }) s
    let s := onLinkStatus l (fun x => { x with state := 0, width := 0, degraded := false })
      (onLink l (fun x => { x with rst_low := true, step := 0, replay := [] }) s)
    let s := each ((s.nvme.tracker.filter fun p => p.2.state != .done && waitsOnLost s p.2).map Prod.fst)
      (fun t => failEntry t Status.notReady 0) s
    let s := refuseForYards (failForwarded s)
    let start := match s.mode with | .start => true | _ => false
    let s := if s.engine.formatted then fatalCondition s
      else if start && s.mgmt.modeStatus.start_fail == 0 then failStart 3 s else s
    noteHealth (settleMedia (wakeAll s))

/-- A yard is lost. -/
def loseYard (p : Nat) (s : State) : State := if s.yard then s else loseBranch (linkToward s 4 p) s

/-- A link is down (R716, R717): on the masthead the yards on its path are lost. -/
def linkDown (l : Nat) (s : State) : State :=
  let s := disarm .kkAck l (disarm .kkHeartbeat l (disarm .kkLink l s))
  let s := onLinkStatus l (fun x => { x with state := 0, width := 0, degraded := false }) s
  let s := { s with keaka.forwards := if l = 0 then waitingReports s else s.keaka.forwards }
  let s := onLink l (fun x => { x with step := 0, replay := [], resends := 0 }) s
  let s := raise (src 17 2) 0 [] s
  if s.yard then s else loseBranch l s

end Sys2Proof.Machine
end

