-- ==== Sys2Proof/Machine/Reservations.lean ====
section
/-!
DEFINITION. Reservation Register, Report, Acquire and Release (R304), as the NVM Express Base Specification 2.0 defines
them, with 128-bit host identifiers and no persistence through power loss.
-/

namespace Sys2Proof.Machine

/-- Host Identifier Inconsistent Format. -/
def Status.hostIdFormat : Nat := 0x018

/-- Command Aborted due to Preempt and Abort. -/
def Status.preempted : Nat := 0x01B

/-- Begin a reservation command: the NSID, and a host identifier that is set. -/
def runReservation (t opcode : Nat) (f : Entry → Namespace → Nat → State → State) (s : State) : Host.Outcome State Fault Refusal :=
  runEntry t false opcode (fun e s =>
    let st := firstStatus [failIf (e.sqe.fuse != 0) Status.invalidField, nsidStatus s e]
    if st ≠ 0 then finishEntry t st 0 s
    else match s.nspace e.sqe.ns, (s.ctrl e.ctrl).host_id with
      | some n, some h => f e n h s
      | _, _ => finishEntry t Status.invalidField 0 s) s

/-- Put a reservation in a namespace; the command succeeds. -/
def setReservationOf (t : Nat) (e : Entry) (r : Reservation) (s : State) : State :=
  finishEntry t 0 0 (onNamespace e.sqe.ns (fun n => { n with reservation := r }) s)

/-- The reservation without those registrants that a test picks; one whose holder goes, or whose last registrant goes,
is released. -/
def Reservation.without (f : Registrant → Bool) (r : Reservation) : Reservation :=
  let left := r.registrants.filter fun x => !f x
  let lost := if 5 ≤ r.type then left.isEmpty else !(left.any fun x => some x.host_id == r.holder)
  if lost then { r with registrants := left, type := 0, holder := none } else { r with registrants := left }

/-- RESERVATION_REGISTER (R304). -/
def execReservationRegister (entry : Nat) (data : Bytes) (s : State) : Host.Outcome State Fault Refusal :=
  runReservation entry 0x0D (fun e n h s =>
    let v := e.sqe.cdw10.toNat
    let crkey := field data 0 8
    let nrkey := field data 8 8
    let ignore := v.testBit 3
    let r := n.reservation
    let mine := r.registrants.find? fun x => x.host_id == h
    let put := fun (key : Nat) => { r with
      generation := (r.generation + 1) % 2 ^ 32
      registrants := (r.registrants.filter fun x => x.host_id != h) ++ [{ host_id := h, key := key, ctrl := e.ctrl }] }
    if v / 2 ^ 30 ≠ 0 then finishEntry entry Status.invalidField 0 s
    else match v % 8, mine with
      | 0, none => setReservationOf entry e (put nrkey) s
      | 0, some x => if x.key = nrkey then finishEntry entry 0 0 s else finishEntry entry Status.reservationConflict 0 s
      | 1, some x =>
        if ignore ∨ x.key = crkey then
          let r := r.without fun y => y.host_id == h
          setReservationOf entry e { r with generation := (r.generation + 1) % 2 ^ 32 } s
        else finishEntry entry Status.reservationConflict 0 s
      | 1, none => finishEntry entry Status.reservationConflict 0 s
      | 2, some x => if ignore ∨ x.key = crkey then setReservationOf entry e (put nrkey) s else finishEntry entry Status.reservationConflict 0 s
      | 2, none => if ignore then setReservationOf entry e (put nrkey) s else finishEntry entry Status.reservationConflict 0 s
      | _, _ => finishEntry entry Status.invalidField 0 s) s

/-- The host holds the reservation. -/
def Reservation.heldBy (r : Reservation) (h : Nat) : Bool :=
  r.type != 0 && (if 5 ≤ r.type then r.registrants.any fun x => x.host_id == h else r.holder == some h)

/-- Commands of preempted hosts on a namespace are aborted. -/
def abortPreempted (nsid : BitVec 32) (gone : List Registrant) (s : State) : State :=
  let l := s.nvme.tracker.filter fun p => p.2.sqid != 0 && p.2.sqe.nsid == nsid && p.2.state != .done
    && gone.any fun x => some x.host_id == (s.ctrl p.2.ctrl).host_id
  wakeAll (each (l.map Prod.fst) (fun t => failEntry t Status.preempted 0) s)

/-- A preempt by a registered host: registrants with the key go; where the holder is among them, or the key is 0 under
an all-registrants type, the host takes the reservation. -/
def preempt (t : Nat) (e : Entry) (n : Namespace) (h prkey type : Nat) (abort : Bool) (s : State) : State :=
  let r := n.reservation
  let all := decide (5 ≤ r.type) && prkey == 0
  let gone := r.registrants.filter fun x => x.host_id != h && (all || x.key == prkey)
  let takes := all || (r.type != 0 && decide (r.type < 5) && r.registrants.any fun x => some x.host_id == r.holder && x.key == prkey)
  if prkey = 0 ∧ !all then finishEntry t Status.invalidField 0 s
  else if gone.isEmpty ∧ !takes then finishEntry t Status.reservationConflict 0 s
  else
    let left := r.registrants.filter fun x => !gone.contains x
    let r := { r with registrants := left, generation := (r.generation + 1) % 2 ^ 32 }
    let r := if takes then { r with type := type, holder := some h } else r
    let s := setReservationOf t e r s
    if abort then abortPreempted e.sqe.nsid gone s else s

/-- RESERVATION_ACQUIRE (R304). -/
def execReservationAcquire (entry : Nat) (data : Bytes) (s : State) : Host.Outcome State Fault Refusal :=
  runReservation entry 0x11 (fun e n h s =>
    let v := e.sqe.cdw10.toNat
    let type := v / 256 % 256
    let r := n.reservation
    if v.testBit 3 ∨ type = 0 ∨ 6 < type then finishEntry entry Status.invalidField 0 s
    else match r.registrants.find? fun x => x.host_id == h with
      | none => finishEntry entry Status.reservationConflict 0 s
      | some x =>
        if x.key ≠ field data 0 8 then finishEntry entry Status.reservationConflict 0 s
        else match v % 8 with
          | 0 =>
            if r.type = 0 then setReservationOf entry e { r with type := type, holder := some h } s
            else if r.heldBy h ∧ r.type = type then finishEntry entry 0 0 s
            else finishEntry entry Status.reservationConflict 0 s
          | 1 => preempt entry e n h (field data 8 8) type false s
          | 2 => preempt entry e n h (field data 8 8) type true s
          | _ => finishEntry entry Status.invalidField 0 s) s

/-- RESERVATION_RELEASE (R304). -/
def execReservationRelease (entry : Nat) (data : Bytes) (s : State) : Host.Outcome State Fault Refusal :=
  runReservation entry 0x15 (fun e n h s =>
    let v := e.sqe.cdw10.toNat
    let r := n.reservation
    if v.testBit 3 then finishEntry entry Status.invalidField 0 s
    else match r.registrants.find? fun x => x.host_id == h with
      | none => finishEntry entry Status.reservationConflict 0 s
      | some x =>
        if x.key ≠ field data 0 8 then finishEntry entry Status.reservationConflict 0 s
        else match v % 8 with
          | 0 =>
            if !r.heldBy h then finishEntry entry 0 0 s
            else if v / 256 % 256 ≠ r.type then finishEntry entry Status.invalidField 0 s
            else setReservationOf entry e { r with type := 0, holder := none } s
          | 1 => setReservationOf entry e { generation := (r.generation + 1) % 2 ^ 32 } s
          | _ => finishEntry entry Status.invalidField 0 s) s

/-- The Reservation Status extended data structure. -/
def reservationStatus (r : Reservation) : Bytes :=
  padTo 64 (leBytes 4 r.generation ++ leBytes 1 r.type ++ leBytes 2 r.registrants.length)
    ++ r.registrants.flatMap fun x =>
      padTo 64 (leBytes 2 (cntlid x.ctrl) ++ leBytes 1 (r.heldBy x.host_id).toNat ++ List.replicate 5 0 ++ leBytes 8 x.key ++ leBytes 16 x.host_id)

/-- RESERVATION_REPORT (R304): the extended structure only. -/
def execReservationReport (entry : Nat) (s : State) : Host.Outcome State Fault Refusal :=
  runEntry entry false 0x0E (fun e s =>
    let n := 4 * (e.sqe.cdw10.toNat + 1)
    let st := firstStatus [failIf (e.sqe.fuse != 0) Status.invalidField, nsidStatus s e,
      failIf (!e.sqe.cdw11.getLsbD 0) Status.hostIdFormat, failIf (decide (mdtsBytes < n)) Status.invalidField]
    if st ≠ 0 then finishEntry entry st 0 s
    else match s.nspace e.sqe.ns with
      | some x => answer entry e (padTo n ((reservationStatus x.reservation).take n)) s
      | none => s) s

end Sys2Proof.Machine
end

