-- ==== Sys2Proof/Machine/Logs.lean ====
section
/-!
DEFINITION. Log pages and Identify (R340, R348, R477, R589, R593, R601, R738, R745, R751 to R755).  A byte that a standard
defines and the spec gives no value for is free (Config.unstatedByte).
-/

namespace Sys2Proof.Machine

/-- Bytes placed over a base at their offsets. -/
def overlay (base : Bytes) (l : List (Nat × Bytes)) : Bytes :=
  l.foldl (fun b p => b.take p.1 ++ p.2 ++ b.drop (p.1 + p.2.length)) base

/-- `n` bytes of a structure, none of them stated. -/
def unstated (id n : Nat) : Bytes := (List.range n).map (Config.unstatedByte id)

/-- A count in `n` bytes that saturates. -/
def satBytes (n v : Nat) : Bytes := leBytes n (min v (2 ^ (8 * n) - 1))

/-- A signed value in two bytes. -/
def intBytes (v : Int) : Bytes := leBytes 2 (BitVec.ofInt 16 v).toNat

/-! ### Health logs (R589, R593, R738) -/

/-- The flags byte of the Waidar health log. -/
def healthFlags (s : State) (st : Stamped) : Nat :=
  let un := fun (x : Option (Int × Stamped)) => match x with | some p => p.2.unanch | none => false
  bitsOf [s.health.counts.rel_latched, s.thm.status.model_degraded, thRecord s, s.rcl.status.spare_warn, st.unanch,
    un s.health.counts.max_composite, un s.health.counts.min_composite]

/-- The Waidar health log of this device, built at a stamp (table "Waidar health log"). -/
def healthLog (s : State) (st : Stamped) : Bytes :=
  let c := s.health.counts
  let value := fun (x : Option (Int × Stamped)) => match x with | some p => intBytes p.1 | none => intBytes (-2 ^ 15)
  let stamp := fun (x : Option (Int × Stamped)) => match x with | some p => p.2.stamp.toNat | none => 0
  leBytes 2 1 ++ leBytes 2 512 ++ leBytes 4 0 ++ leBytes 8 st.stamp.toNat
    ++ leBytes 4 s.rcl.spares.spares.toNat ++ leBytes 4 s.rcl.spares.initial.toNat ++ leBytes 4 s.rcl.reserve.toNat
    ++ leBytes 2 s.rcl.peStats.pe_max.toNat ++ leBytes 2 s.rcl.peStats.pe_min.toNat ++ leBytes 2 s.rcl.peStats.pe_mean.toNat
    ++ leBytes 1 s.rcl.peStats.pct_used.toNat ++ leBytes 1 (spareNow s) ++ leBytes 1 (healthFlags s st) ++ leBytes 3 0
    ++ satBytes 4 c.program_retired ++ satBytes 4 c.erase_retired
    ++ satBytes 2 (diesFailed s) ++ satBytes 2 (diesBecalmed s) ++ satBytes 4 c.becalm_entries
    ++ satBytes 8 c.stripes_lost ++ satBytes 8 c.units_unreadable
    ++ satBytes 8 c.cw_retried ++ satBytes 8 c.cw_soft ++ satBytes 8 c.cw_uncorr ++ satBytes 8 c.stale_reads
    ++ satBytes 4 c.flush_complete ++ satBytes 4 c.flush_incomplete ++ satBytes 4 c.shroud_lost_count
    ++ satBytes 4 c.throttle_entries ++ satBytes 4 c.halt_entries ++ satBytes 4 c.sensor_faults
    ++ satBytes 8 (c.throttle_motes / 2 ^ 32) ++ satBytes 8 (c.slowed_motes / 2 ^ 32)
    ++ value c.max_composite ++ value c.min_composite
    ++ leBytes 8 (stamp c.max_composite) ++ leBytes 8 (stamp c.min_composite) ++ leBytes 28 0
    ++ ((List.range 16).flatMap fun i => satBytes 8 (c.histogram.look 0 i / 2 ^ 32))
    ++ ((List.range 8).flatMap fun i => intBytes ((c.pair_max.find i).getD (-2 ^ 15))) ++ leBytes 176 0

/-- Critical Warning and composite temperature that a yard's log brings after its Waidar health log. -/
def logTail (s : State) : Bytes :=
  leBytes 1 (criticalWarning s) ++ leBytes 2 ((sensorTemp s 0).getD 0).toNat

/-- Logs received from yards, by position. -/
def yardLogs (s : State) : List (Nat × Bytes) :=
  (s.keaka.yards.filter fun p => !p.2.log.isEmpty).map fun p => (p.1, p.2.log)

/-- Log identifier 0xC1 (R738). -/
def cascadeLog (s : State) (own : Bytes) : Bytes :=
  own ++ [1, 2, 3].flatMap fun p => padTo 512 ((((yardLogs s).find? fun x => x.1 == p).map fun x => x.2.take 512).getD [])

/-- The SMART / Health Information log (table "SMART field sources"); in a cascade four fields gather every device's (R738). -/
def smartLog (s : State) : Bytes :=
  let c := s.health.counts
  let l := (yardLogs s).map Prod.snd
  let warning := l.foldl (fun n b => n ||| field b 512 1) (criticalWarning s)
  let hot := l.foldl (fun n b => max n (field b 513 2)) ((sensorTemp s 0).getD 0).toNat
  let spare := l.foldl (fun n b => min n (field b 35 1)) (spareNow s)
  let used := l.foldl (fun n b => max n (field b 34 1)) s.rcl.peStats.pct_used.toNat
  let minute := 60 * 2 ^ 32
  padTo 512 (leBytes 1 warning ++ leBytes 2 hot ++ leBytes 1 spare ++ leBytes 1 s.rcl.spareWarn.toNat ++ leBytes 1 used ++ leBytes 26 0
    ++ leBytes 16 c.data_units_read ++ leBytes 16 c.data_units_written ++ leBytes 16 c.host_reads ++ leBytes 16 c.host_writes
    ++ leBytes 16 (c.busy_motes / minute) ++ leBytes 16 c.power_cycles ++ leBytes 16 (c.power_on_cycles / (400000000 * 3600))
    ++ leBytes 16 c.unsafe_shutdowns ++ leBytes 16 c.media_errors ++ leBytes 16 s.nvme.error_count
    ++ satBytes 4 (c.warn_motes / minute) ++ satBytes 4 (c.critical_motes / minute)
    ++ ((List.range 8).flatMap fun i => leBytes 2 ((sensorTemp s (i + 1)).getD 0).toNat))

/-- The health page as it is written now (R595): the Waidar health log, then the SMART counters as that log orders them. -/
def healthPageBytes (s : State) : Bytes :=
  let st := s.health.page_stamp
  withCrc 28 (fitTo 4096 (leBytes 6 0x5A47484C5448 ++ leBytes 2 st.unanch.toNat ++ leBytes 8 st.stamp.toNat
    ++ leBytes 4 s.health.page_seq ++ leBytes 44 0 ++ healthLog s st ++ (smartLog s).drop 32))

/-! ### Error and event logs (R743, R745, R753 to R755) -/

/-- An Error Information entry; entries of slots not written are zeros. -/
def errorBytes (i : Nat) (e : ErrorEntry) : Bytes :=
  let d := e.draft
  leBytes 8 e.error_count ++ leBytes 2 d.sqid ++ leBytes 2 d.cid ++ leBytes 2 (2 * d.status)
    ++ [Config.unstatedByte 1 (2 * i), Config.unstatedByte 1 (2 * i + 1)] ++ leBytes 8 d.slba ++ leBytes 4 d.nsid ++ [0xC3] ++ leBytes 35 0

/-- An error detail entry (table "Error detail entry"). -/
def detailBytes (e : ErrorEntry) : Bytes :=
  let d := e.draft
  let flags := bitsOf [e.stamp.unanch, d.nested, d.escalated, d.fatal, d.forwarded] + 32 * (d.position % 4)
    + (if d.first.stamp = 0 then 0 else 128 * d.first.unanch.toNat)
  leBytes 8 e.error_count ++ leBytes 8 e.stamp.stamp.toNat ++ leBytes 8 d.first.stamp.toNat ++ leBytes 8 d.serial
    ++ leBytes 2 d.source ++ leBytes 1 flags ++ leBytes 1 d.kind ++ leBytes 4 e.event_seq ++ leBytes 24 0

/-- An entry of the event ring (table "Event entry"). -/
def eventBytes (e : EventEntry) : Bytes :=
  let d := e.draft
  leBytes 8 e.stamp.stamp.toNat ++ leBytes 2 (d.source + 1024 * (d.pay_unanch % 4))
    ++ leBytes 1 (bitsOf [e.stamp.unanch, d.forwarded] + 4 * (d.position % 4)) ++ leBytes 1 d.detail ++ leBytes 4 e.seq
    ++ padTo 16 d.payload

/-- The event ring, in slot order. -/
def ringLog (s : State) : Bytes :=
  (List.range 4096).flatMap fun k => match s.events.ring.find k with | some e => eventBytes e | none => leBytes 32 0

/-- Entries of a controller's error log, newest first, as bytes. -/
def entriesLog (f : Nat → ErrorEntry → Bytes) (l : List ErrorEntry) : Bytes :=
  padTo 16384 (l.zipIdx.flatMap fun p => f p.2 p.1)

/-! ### Predictable Latency, effects and namespace logs -/

/-- DTWIN Writes Typical and the rest of the Predictable Latency Per NVM Set log (R477). -/
def plmLog (s : State) : Bytes :=
  let window := if !s.rcl.status.plm_enabled then 0 else if s.rcl.status.dtwin then 1 else 2
  let ms := fun (up : Bool) (m : Nat) => if up then divUp (m * 1000) (2 ^ 32) else m * 1000 / 2 ^ 32
  overlay (leBytes 512 0)
    [(0, leBytes 1 window), (2, leBytes 2 s.reclaim.plm_events),
     (32, unstated 0x0A 8), (40, leBytes 8 s.reclaim.dtwin_writes), (128, unstated 0x0B 24),
     (48, leBytes 8 (ms false s.rcl.dtwinTmax.toNat) ++ leBytes 8 (ms true s.rcl.ndwinTmin.toNat) ++ leBytes 8 (ms true s.rcl.ndwinTmin.toNat))]

/-- Opcodes of the table "Supported commands". -/
def adminOpcodes : List Nat :=
  [0x00, 0x01, 0x02, 0x04, 0x05, 0x06, 0x08, 0x09, 0x0A, 0x0C, 0x0D, 0x10, 0x11, 0x15, 0x1D, 0x1E, 0x80, 0x81, 0x82, 0xC0, 0xC1, 0xC4]

/-- I/O opcodes of the table "Supported commands". -/
def ioOpcodes : List Nat := [0x00, 0x01, 0x02, 0x05, 0x08, 0x09, 0x0C, 0x0D, 0x0E, 0x11, 0x15]

/-- Effects of an admin command, as the standard defines them: 2 logical block content, 4 namespace capability, 8 namespace
inventory, 16 controller capability change. -/
def adminEffects (op : Nat) : Nat :=
  if op = 0x80 then 1 + 2 + 4
  else if op = 0x81 then 1 + 2
  else if op = 0x0D ∨ op = 0x15 then 1 + 8
  else if op = 0x10 ∨ op = 0xC4 then 1 + 16
  else 1

/-- Effects of an I/O command: writes, Write Zeroes and Dataset Management change logical blocks. -/
def ioEffects (op : Nat) : Nat := if op = 0x01 ∨ op = 0x08 ∨ op = 0x09 then 1 + 2 else 1

/-- The commands supported and effects log (R348); which commands an implementation wants submitted alone is free. -/
def effectsLog : Bytes :=
  let entry := fun (base : Nat) (l : List Nat) (effects : Nat → Nat) (k : Nat) =>
    if l.contains k then [BitVec.ofNat 8 (effects k), 0, Config.unstatedByte 5 (base + k) &&& 7, 0] else leBytes 4 0
  padTo 4096 ((List.range 256).flatMap (entry 0 adminOpcodes adminEffects) ++ (List.range 256).flatMap (entry 256 ioOpcodes ioEffects))

/-- The changed namespace list. -/
def changedLog (s : State) (c : Nat) : Bytes :=
  padTo 4096 ((sortOn id (s.ctrl c).ns_changed).flatMap fun n => leBytes 4 (n + 1))

/-! ### Get Log Page -/

/-- Log identifier. -/
def Sqe.lid (q : Sqe) : Nat := q.cdw10.toNat % 256

/-- Bytes that a Get Log Page asks for. -/
def Sqe.logBytes (q : Sqe) : Nat := 4 * (q.cdw10.toNat / 2 ^ 16 + 2 ^ 16 * (q.cdw11.toNat % 2 ^ 16) + 1)

/-- Offset in the log. -/
def Sqe.logOffset (q : Sqe) : Nat := q.cdw12.toNat + 2 ^ 32 * q.cdw13.toNat

/-- The asynchronous event is retained although its log is read. -/
def Sqe.retain (q : Sqe) : Bool := q.cdw10.getLsbD 15

/-- Log identifiers supported. -/
def supportedLogs : List Nat := [0x01, 0x02, 0x04, 0x05, 0x0A, 0x0B, 0xC0, 0xC1, 0xC2, 0xC3]

/-- Length of a log. -/
def logLength (lid : Nat) : Nat :=
  match lid with
  | 0x01 => 16384 | 0x02 => 512 | 0x04 => 4096 | 0x05 => 4096 | 0x0A => 512 | 0x0B => 10
  | 0xC0 => 512 | 0xC1 => 2048 | 0xC2 => 131072 | 0xC3 => 16384
  | _ => 0

/-- Content of a log on a controller; the Waidar health logs take a stamp (R593). -/
def logContent (c lid : Nat) (s : State) : Bytes × State :=
  match lid with
  | 0x01 => (entriesLog errorBytes (s.ctrl c).error_log, s)
  | 0x02 => (smartLog s, s)
  | 0x04 => (changedLog s c, s)
  | 0x05 => (effectsLog, s)
  | 0x0A => (plmLog s, s)
  | 0x0B => (leBytes 8 (if s.reclaim.plm_events = 0 then 0 else 1) ++ leBytes 2 (if s.reclaim.plm_events = 0 then 0 else 1), s)
  | 0xC0 => let (st, s) := takeStamp s; (healthLog s st, s)
  | 0xC1 => let (st, s) := takeStamp s; (cascadeLog s (healthLog s st), s)
  | 0xC2 => (ringLog s, s)
  | 0xC3 => (entriesLog (fun _ e => detailBytes e) (s.ctrl c).error_log, s)
  | _ => ([], s)

/-- Status of a Get Log Page (R589, R593, R474). -/
def logStatus (q : Sqe) : Nat :=
  let subsystem := q.lid = 0x02 ∨ q.lid = 0xC0
  firstStatus [failIf (!supportedLogs.contains q.lid) Status.invalidLog,
    failIf (decide (subsystem ∧ q.nsid ≠ 0 ∧ q.nsid ≠ 0xFFFFFFFF)) Status.invalidField,
    failIf (q.lid == 0x0A && q.cdw11.toNat / 2 ^ 16 != 1) Status.invalidField,
    failIf (decide (mdtsBytes < q.logBytes) || decide (logLength q.lid < q.logOffset) || q.logOffset % 4 != 0) Status.invalidField]

/-- Asynchronous events that a log read answers. -/
def AsyncEvent.answeredBy (lid : Nat) (e : AsyncEvent) : Bool := e.log == lid

/-- Event type whose mask a read of a log ends (table "Asynchronous event mapping"). -/
def typeOfLog (lid : Nat) : Option Nat :=
  match lid with
  | 0x01 => some 0 | 0x02 => some 1 | 0x04 => some 2 | 0x0B => some 2 | 0xC2 => some 7
  | _ => none

/-- What a read of a log changes: the event mask (R752), the lists that a read clears, and halts whose entry has been
returned (R340). -/
def noteLogRead (c : Nat) (q : Sqe) (s : State) : State :=
  let lo := q.logOffset
  let hi := q.logOffset + q.logBytes
  let shown := ((s.ctrl c).error_log.zipIdx.filter fun p => decide (lo ≤ 64 * p.2) && decide (64 * p.2 + 64 ≤ hi)).map fun p => p.1.error_count
  let mark := fun (x : SubQueue) => match x.halt_entry with
    | some n => if shown.contains n then { x with halt_read := true } else x
    | none => x
  let s := if q.lid = 0x01 then onCtrl c (fun k => { k with sqs := k.sqs.over fun _ x => mark x }) s else s
  if q.retain then s
  else
    let s := onCtrl c (fun k => { k with
      aer_masked := k.aer_masked.filter fun t => some t != typeOfLog q.lid
      aer_pending := k.aer_pending.filter fun e => !e.answeredBy q.lid
      ns_changed := if q.lid = 0x04 then [] else k.ns_changed }) s
    if q.lid = 0x0B ∨ q.lid = 0x0A then { s with reclaim.plm_events := 0 } else s

/-- Bytes that a Get Log Page returns, and what it changes.  Bytes past the end of the log are not stated. -/
def readLog (c : Nat) (q : Sqe) (s : State) : Bytes × State :=
  let (b, s) := logContent c q.lid s
  let part := (b.drop q.logOffset).take q.logBytes
  let more := (List.range (q.logBytes - part.length)).map fun i => Config.unstatedByte q.lid (q.logOffset + part.length + i)
  (part ++ more, noteLogRead c q s)

/-- GET_LOG_PAGE (R348). -/
def execGetLogPage (entry : Nat) (s : State) : Host.Outcome State Fault Refusal :=
  runEntry entry true 0x02 (fun e s =>
    let st := logStatus e.sqe
    if st ≠ 0 then finishEntry entry st 0 s
    else
      let (b, s) := readLog e.ctrl e.sqe s
      answer entry e b s) s

/-! ### Identify -/

/-- Figure of a power state in mW beyond its cap (R602). -/
def deviceFigure (ps : Nat) : Nat := if ps ≤ 1 then 55000 else if ps = 2 then 42000 else if ps = 3 then 30000 else 6000

/-- MP of a power state in units of 0.01 W (R602). -/
def maxPower (s : State) (ps : Nat) : Nat :=
  (deviceFigure ps + (match stateCap s ps with
    | some c => min c s.pwr.driveCapMw.toNat
    | none => s.pwr.driveCapMw.toNat)) / 10

/-- A power state descriptor (table "Power states"). -/
def powerDescriptor (s : State) (ps : Nat) : Bytes :=
  let entry := if ps = 0 then 0 else if ps = 4 then divUp (s.psm.handshakeTimeout.toNat * 1000000) (2 ^ 32) else 1000
  let exit := if ps = 0 then 0 else if ps = 4 then 20000 else 1000
  leBytes 2 (maxPower s ps) ++ leBytes 1 0 ++ leBytes 1 (if ps = 4 then 2 else 0) ++ leBytes 4 entry ++ leBytes 4 exit
    ++ [BitVec.ofNat 8 ps, BitVec.ofNat 8 ps, BitVec.ofNat 8 ps, BitVec.ofNat 8 ps] ++ leBytes 16 0

/-- The bits of OACS and of ONCS for the commands of R348. -/
def oacs : Nat := 0x4F
def oncs : Nat := 0xED

/-- ASCII in a field of `n` bytes, padded with spaces. -/
def asciiField (n : Nat) (b : Bytes) : Bytes := b.take n ++ List.replicate (n - b.length) 0x20

/-- Bytes of the user capacity that no namespace holds. -/
def unallocated (s : State) : Nat := userCapacity s - total (s.nvme.namespaces.vals.map fun m => m.nsze * lbaData m.lbaf)

/-- Identify Controller (R263, R302, R303, R304, R308, R321, R323, R329, R344, R347, R348, R349, R352, R353, R474, R582, R601,
R751, R753).  What the device does not support reports 0, as the standard defines (R30); recommended burst, OUI, RTD3R, the
vendor command formats, MAXCMD, the firmware granularity, the SGL threshold and the vendor bytes are an implementation's. -/
def identifyController (s : State) (c : Nat) : Bytes :=
  overlay (leBytes 4096 0)
    [(0, leBytes 2 Config.vendorId.toNat ++ leBytes 2 Config.subsystemVendorId.toNat ++ asciiField 20 Config.deviceSerial
        ++ asciiField 40 Config.modelNumber ++ asciiField 8 (Config.firmwareRevision s.boot.running) ++ unstated 0x101 4),
     (76, leBytes 1 (if s.ep.dual then 3 else 0)), (77, leBytes 1 12 ++ leBytes 2 (cntlid c) ++ leBytes 4 0x20000 ++ unstated 0x102 4),
     (88, leBytes 4 8000000 ++ leBytes 4 (2 ^ 8 + 2 ^ 12)), (96, leBytes 4 0x25), (111, [1]), (253, [1, 0, 1]),
     (256, leBytes 2 oacs ++ [7, 7, 4, 6, 255, 4, Config.unstatedByte 0x105 0 &&& 1, 0]),
     (266, leBytes 2 (s.thm.thresh.warn.toNat + 273) ++ leBytes 2 (s.thm.thresh.halt.toNat + 273)),
     (280, leBytes 16 (userCapacity s) ++ leBytes 16 (unallocated s)), (319, [Config.unstatedByte 0x106 0]),
     (338, leBytes 2 1), (512, [0x66, 0x44] ++ unstated 0x107 2),
     (516, leBytes 4 s.cmd.cfg.ns_limit.toNat ++ leBytes 2 oncs ++ leBytes 2 0 ++ [6, 0] ++ leBytes 2 127 ++ leBytes 2 127
        ++ [Config.unstatedByte 0x108 0 &&& 1]),
     (536, [2, Config.unstatedByte 0x109 0, 0, 0]), (768, padTo 256 (Config.subsystemNqn.take 256)),
     (2048, (List.range 5).flatMap (powerDescriptor s)), (3072, unstated 0x10A 1024)]

/-- An LBA format: metadata, data size as a power of two, and performance (table "LBA formats"). -/
def formatDescriptor (i : Nat) : Bytes :=
  leBytes 2 (lbaMeta i) ++ [if i = 3 then 9 else 12, if i = 2 then 1 else if i = 3 then 2 else 0]

/-- Identify Namespace (R303, R304, R329, R333, R344, R345, R474); the capabilities common to every namespace for the broadcast
value.  NUSE, the preferred granularities, NGUID, EUI64 and the vendor bytes are an implementation's; EUI64 is not reported. -/
def identifyNamespace (s : State) (ns : Nat) (n : Namespace) : Bytes :=
  let atomic := leBytes 2 (if n.lbaf = 3 then 1023 else 127)
  overlay (leBytes 4096 0)
    [(0, leBytes 8 n.nsze ++ leBytes 8 n.nsze ++ unstated (0x1000 + 16 * ns) 8),
     (24, [2, 3, BitVec.ofNat 8 (n.lbaf + 16 * n.extended.toNat), 3, 0, 0]),
     (30, [BitVec.ofNat 8 s.ep.dual.toNat, 0xFE, 0, 9]),
     (34, atomic ++ atomic ++ leBytes 2 0 ++ leBytes 2 0 ++ leBytes 2 0 ++ atomic), (48, leBytes 16 (n.nsze * lbaData n.lbaf)),
     (100, leBytes 2 1), (104, unstated (0x1001 + 16 * ns) 16), (128, (List.range 4).flatMap formatDescriptor),
     (384, unstated (0x1002 + 16 * ns) 3712)]

/-- The namespace identification descriptors: the NGUID. -/
def identifyDescriptors (ns : Nat) : Bytes := padTo 4096 ([2, 16, 0, 0] ++ unstated (0x1001 + 16 * ns) 16)

/-- The NVM Set list: one set that holds every namespace (R474); its typical figures are an implementation's. -/
def nvmSetList (s : State) (lowest : Nat) : Bytes :=
  if lowest ≤ 1 then overlay (leBytes 4096 0)
    [(0, [1]), (128, leBytes 2 1 ++ leBytes 6 0 ++ unstated 0x104 8 ++ leBytes 16 (userCapacity s) ++ leBytes 16 (unallocated s))]
  else leBytes 4096 0

/-- A list of namespace identifiers above one, in order. -/
def nsidList (s : State) (above : Nat) (f : Namespace → Bool) : Bytes :=
  padTo 4096 ((s.nvme.namespaces.filter fun p => f p.2 && decide (above < p.1 + 1)).flatMap fun p => leBytes 4 (p.1 + 1))

/-- A controller list from an identifier up. -/
def controllerList (s : State) (lowest : Nat) (f : Nat → Bool) : Bytes :=
  let l := s.ctrls.filter fun c => f c && decide (lowest ≤ cntlid c)
  padTo 4096 (leBytes 2 l.length ++ l.flatMap fun c => leBytes 2 (cntlid c))

/-- Identify: status and data (R348), by CNS. -/
def identifyData (s : State) (c : Nat) (q : Sqe) : Nat × Bytes :=
  let cns := q.cdw10.toNat % 256
  let lowest := q.cdw10.toNat / 2 ^ 16
  let nsid := q.nsid.toNat
  let named := if nsid = 0 ∨ s.cmd.cfg.ns_limit.toNat < nsid then none else some (s.nspace q.ns)
  let mine := fun (n : Namespace) => n.attachedTo c
  match cns with
  | 0x00 =>
    if nsid = 0xFFFFFFFF then (0, overlay (identifyNamespace s 0xFFFFFFFE { nsze := 0 }) [(0, leBytes 24 0), (48, leBytes 16 0), (104, leBytes 16 0)])
    else match named with
      | none => (Status.invalidNamespace, [])
      | some (some n) => (0, if mine n then identifyNamespace s q.ns n else leBytes 4096 0)
      | some none => (0, leBytes 4096 0)
  | 0x01 => (0, identifyController s c)
  | 0x02 => if 0xFFFFFFFE ≤ nsid then (Status.invalidNamespace, []) else (0, nsidList s nsid mine)
  | 0x03 => match named with
    | some (some n) => if mine n then (0, identifyDescriptors q.ns) else (Status.invalidNamespace, [])
    | _ => (Status.invalidNamespace, [])
  | 0x04 => (0, nvmSetList s (q.cdw11.toNat % 2 ^ 16))
  | 0x10 => if 0xFFFFFFFE ≤ nsid then (Status.invalidNamespace, []) else (0, nsidList s nsid fun _ => true)
  | 0x11 => match named with
    | none => (Status.invalidNamespace, [])
    | some (some n) => (0, identifyNamespace s q.ns n)
    | some none => (0, leBytes 4096 0)
  | 0x12 => match named with
    | some (some n) => (0, controllerList s lowest n.attachedTo)
    | _ => (Status.invalidNamespace, [])
  | 0x13 => (0, controllerList s lowest fun _ => true)
  | _ => (Status.invalidField, [])

/-- IDENTIFY (R348). -/
def execIdentify (entry : Nat) (s : State) : Host.Outcome State Fault Refusal :=
  runEntry entry true 0x06 (fun e s =>
    match identifyData s e.ctrl e.sqe with
    | (0, b) => answer entry e b s
    | (st, _) => finishEntry entry st 0 s) s

end Sys2Proof.Machine
end

