-- ==== Sys2Proof/Machine/Keaka.lean ====
section
/-!
DEFINITION. Keaka links and frames (chapter 19): training and retraining, the order of frames, time, floors, slices and
reads of yards, records, admin operations, power states and reports.
-/

namespace Sys2Proof.Machine

/-! ### Links (R711 to R717) -/

/-- What a link takes once it is up (step 6): frames not yet acked are sent again, and its timers run. -/
def linkRaised (l : Nat) (s : State) : State :=
  let patrol := decide (s.mode = .patrol)
  let s := onLinkStatus l (fun x => { x with
    state := if patrol then 4 else 2, width := if patrol then 1 else BitVec.ofNat 4 (s.link l).trained }) s
  let s := onLink l (fun x => { x with step := 6, resends := 0 }) s
  let s := each (s.link l).replay (fun f => say (.frame l f.type f.dst f.seq f.tag f.body)) s
  let s := if (s.link l).replay.isEmpty then s else arm .kkAck l (2 ^ 22) s
  let s := arm .kkLink l s.kk.linkTimeout.toNat (arm .kkHeartbeat l (2 ^ 20) s)
  let peer := (s.linkStatus l).peer.toNat
  let s := if s.yard then s else { s with kk.status.joined := setBit s.kk.status.joined peer true }
  if s.yard && l == 0 then
    let late := s.keaka.forwards
    each late (fun f => sendOnLink 0 f) { s with keaka.forwards := [] }
  else s

/-- What Ident frames carry (table "Keaka frame types"). -/
def identBody (s : State) : List Nat :=
  [(!s.yard).toNat, s.position, imgCascadeId s.manifest.in_force, s.kk.cfg.count.toNat, s.kk.cfg.layout.toNat,
   s.kk.topo.pos1.toNat + 16 * s.kk.topo.pos2.toNat + 256 * s.kk.topo.pos3.toNat, 1, s.mgmt.modeStatus.start_fail.toNat,
   (floorFound s).2]

/-- A retrain begins: its event and count, and training goes back to step 2 (R716). -/
def beginRetrain (l : Nat) (s : State) : State :=
  let peer := (s.linkStatus l).peer.toNat
  let s := onLinkStatus l (fun x => { x with state := 3 }) s
  let s := onLink l (fun x => { x with step := 2, resends := 0 }) s
  let s := { s with keaka.yards := s.keaka.yards.put peer { s.keaka.yards.look {} peer with ident_ok := false } }
  let s := if l = 0 then { s with kk.retry0.retrains := satAdd s.kk.retry0.retrains 1 }
           else { s with kk.retry1.retrains := satAdd s.kk.retry1.retrains 1 }
  raise (src 17 1) 0 [] (disarm .kkAck l (disarm .kkLink l (disarm .kkHeartbeat l s)))

/-- Step 4 of training chooses a width, or fails: a retrain that fails takes the link down, and a first training tries
again (R712, R716). -/
def widthChosen (l width : Nat) (s : State) : State :=
  if width = 8 ∨ width = 4 ∨ width = 2 then
    let s := onLinkStatus l (fun x => { x with width := BitVec.ofNat 4 width, degraded := decide (width < 8) })
      (onLink l (fun x => { x with step := 4, trained := width }) s)
    if width < 8 then raise (src 17 0) 0 [] s else s
  else if (s.linkStatus l).state = 3 then linkDown l s
  else onLink l (fun x => { x with step := 2 }) s

/-- KEAKA_LINK_TRAINING_STEP (table "Link training"): the next step of a link in training. -/
def execKeakaLinkTrainingStep (link width : Nat) (s : State) : Host.Outcome State Fault Refusal :=
  .next (if 2 ≤ link || s.isHeld .keaka || !((s.linkStatus link).state == 1 || (s.linkStatus link).state == 3) then s
    else
      let peer := (s.linkStatus link).peer.toNat
      match (s.link link).step with
      | 1 => if s.pads.present.getLsbD link then onLink link (fun x => { x with step := 2 }) s else s
      | 2 => onLink link (fun x => { x with step := 3 }) s
      | 3 => widthChosen link width s
      | 4 => say (.frame link 0x01 peer 0 0 (identBody s)) (onLink link (fun x => { x with step := 5 }) s)
      | 5 => if (s.keaka.yards.look {} peer).ident_ok then linkRaised link s else s
      | _ => s)

/-- Frames that an acknowledgement covers leave the replay buffer (R715). -/
def acked (l ack : Nat) (s : State) : State :=
  let left := (s.link l).replay.filter fun f => decide (2 ^ 15 ≤ (ack + 2 ^ 16 - f.seq) % 2 ^ 16)
  if left.length = (s.link l).replay.length then s
  else
    let s := onLink l (fun x => { x with replay := left, resends := 0 }) s
    if left.isEmpty then
      let s := disarm .kkAck l s
      match s.mode with
      | .patrol => narrowLink l s
      | _ => s
    else arm .kkAck l (2 ^ 22) s

/-- A NAK that names the sequence number expected (R715). -/
def sendNak (l : Nat) (s : State) : State :=
  sendOnLink l { type := 0x02, src := s.position, dst := (s.linkStatus l).peer.toNat, body := [(s.link l).rx_seq] } s

/-- A frame in order is accepted: the ack it carries is taken, and the link's timeout starts again (R713, R717). -/
def acceptFrame (l : Nat) (h : KkHeader) (s : State) : State :=
  acked l h.ack (arm .kkLink l s.kk.linkTimeout.toNat (onLink l (fun x => { x with rx_seq := (x.rx_seq + 1) % 2 ^ 16 }) s))

/-- A frame arrives: out of order it is dropped with a NAK (R715); for another position it goes on its way unchanged (R706);
else it has its effect. -/
def receiveFrame (l : Nat) (h : KkHeader) (type : Nat) (body : List Nat) (f : State → State) (s : State) :
    Host.Outcome State Fault Refusal :=
  .next (if 2 ≤ l || !s.linkUp l then s
    else if h.seq ≠ (s.link l).rx_seq then sendNak l s
    else
      let s := acceptFrame l h s
      if h.dst = s.position then f s
      else sendOnLink (linkToward s 4 h.dst) { type := type, src := h.src, dst := h.dst, tag := h.tag, body := body } s)

/-- FRAME_RECEIVE_ERROR (R715). -/
def execFrameReceiveError (link : Nat) (kind : FrameError) (s : State) : Host.Outcome State Fault Refusal :=
  .next (if 2 ≤ link || !s.linkUp link then s
    else sendNak link (match kind with
      | .crc => { s with kk.frameErr.crc := satAdd s.kk.frameErr.crc 1 }
      | .length => { s with kk.frameErr.length := satAdd s.kk.frameErr.length 1 }
      | .sequence => s))

/-- Frames from a sequence number on are sent again, in order; the eighth resend retrains the link (R715, R716). -/
def resendFrom (l n : Nat) (s : State) : State :=
  let again := (s.link l).replay.filter fun f => decide ((f.seq + 2 ^ 16 - n) % 2 ^ 16 < 2 ^ 15)
  if again.isEmpty then s
  else
    let s := each again (fun f => say (.frame l f.type f.dst f.seq f.tag f.body)) s
    let s := if l = 0 then { s with kk.retry0.replays := satAdd s.kk.retry0.replays again.length }
             else { s with kk.retry1.replays := satAdd s.kk.retry1.replays again.length }
    let s := onLink l (fun x => { x with resends := x.resends + 1 }) s
    if 8 ≤ (s.link l).resends then beginRetrain l s else s

/-- LINK_CONTROL (R715, R717): a NAK resends; a credit update only acknowledges. -/
def execLinkControl (link : Nat) (frame : KkHeader) (nak : Option Nat) (s : State) : Host.Outcome State Fault Refusal :=
  receiveFrame link frame 0x02 (match nak with | some n => [n] | none => []) (fun s => match nak with
    | some n => resendFrom link n s
    | none => s) s

/-- HEARTBEAT (R717). -/
def execHeartbeat (link : Nat) (frame : KkHeader) (s : State) : Host.Outcome State Fault Refusal :=
  receiveFrame link frame 0x3F [] id s

/-- KEAKA_HEARTBEAT_SEND (R717). -/
def execKeakaHeartbeatSend (link : Nat) (s : State) : Host.Outcome State Fault Refusal :=
  .next (if s.due .kkHeartbeat link && s.linkUp link then
    sendOnLink link { type := 0x3F, src := s.position, dst := (s.linkStatus link).peer.toNat } s
  else s)

/-- KEAKA_ACK_TIMEOUT (R716). -/
def execKeakaAckTimeout (link : Nat) (s : State) : Host.Outcome State Fault Refusal :=
  .next (if s.due .kkAck link && s.linkUp link && !(s.link link).replay.isEmpty then beginRetrain link s else s)

/-- KEAKA_LANE_LOCK_LOSS (R716). -/
def execKeakaLaneLockLoss (link : Nat) (s : State) : Host.Outcome State Fault Refusal :=
  .next (if link < 2 && s.linkUp link then beginRetrain link s else s)

/-- KEAKA_LINK_TIMEOUT (R717). -/
def execKeakaLinkTimeout (link : Nat) (s : State) : Host.Outcome State Fault Refusal :=
  .next (if s.due .kkLink link && s.linkUp link then linkDown link s else s)

/-- KEAKA_JOIN_TIMEOUT (R731): yards that have not joined are lost. -/
def execKeakaJoinTimeout (s : State) : Host.Outcome State Fault Refusal :=
  .next (if s.due .kkJoin 0 && !s.yard then
    each [1, 2, 3] (fun p s =>
      if topoPresent s p && !s.kk.status.joined.getLsbD p && !s.kk.status.lost.getLsbD p then loseYard p s else s)
      (disarm .kkJoin 0 s)
  else s)

/-! ### Ident frames (R714) -/

/-- An Ident frame agrees with this device. -/
def identAgrees (s : State) (i : KkIdent) (position : Nat) : Bool :=
  [i.cascade_id, i.count, i.layout, i.topo, i.version] == ((identBody s).drop 2).take 5
    && i.position == position && i.masthead == (i.position == 0)

/-- Ident frames disagree (R714): on a device that has started the link goes down. -/
def identMismatch (l : Nat) (s : State) : State :=
  let s := raise (src 17 4) 0 [] { s with kk.status.ident_mismatch := true, man.status.reject_reason := 0x0F }
  match s.mode with
  | .start => if s.mgmt.modeStatus.start_fail = 0 then failStart 3 s else s
  | _ => linkDown l s

/-- An Ident frame has its effect. -/
def takeIdent (l : Nat) (h : KkHeader) (i : KkIdent) (s : State) : State :=
  let peer := (s.linkStatus l).peer.toNat
  let direct := h.src == peer
  if !identAgrees s i (if direct then peer else h.src) then identMismatch l s
  else if !s.yard && i.start_fail != 0 then loseYard i.position s
  else
    let s := { s with keaka.yards := s.keaka.yards.put i.position { s.keaka.yards.look {} i.position with ident_ok := true } }
    if s.yard then
      if l ≠ 0 ∧ direct then
        sendOnLink 0 { type := 0x01, src := i.position, dst := 0, body := [i.masthead.toNat, i.position, i.cascade_id, i.count,
          i.layout, i.topo, i.version, i.start_fail, i.floor] } s
      else s
    else if direct then s
    else { s with kk.status.joined := setBit s.kk.status.joined i.position true }

/-- IDENT (R714): exchanged in training, before frames are numbered in order; a child's Ident goes on to the masthead. -/
def execIdentFrame (link : Nat) (frame : KkHeader) (ident : KkIdent) (s : State) : Host.Outcome State Fault Refusal :=
  if link < 2 ∧ !s.linkUp link then
    .next (if ((s.linkStatus link).state == 1 || (s.linkStatus link).state == 3) && decide (4 ≤ (s.link link).step)
      && frame.src == (s.linkStatus link).peer.toNat then takeIdent link frame ident s else s)
  else receiveFrame link frame 0x01 [ident.masthead.toNat, ident.position, ident.cascade_id, ident.count, ident.layout, ident.topo,
    ident.version, ident.start_fail, ident.floor] (takeIdent link frame ident) s

/-! ### Time and floors (R718 to R721) -/

/-- TIME_REQUEST (R718, R719): answered with t1, t2, t3, the anchored flag and the masthead's step count. -/
def execTimeRequest (link : Nat) (frame : KkHeader) (t1 : Nat) (s : State) : Host.Outcome State Fault Refusal :=
  receiveFrame link frame 0x03 [t1] (fun s =>
    let steps := if s.yard then s.keaka.step_count.getD 0 else s.keaka.steps
    sendOnLink link { type := 0x04, src := s.position, dst := frame.src, tag := frame.tag,
                      body := [t1, s.h, s.h, s.camp.status.anchored.toNat, steps] } s) s

/-- A good time response: the target by R718, and a step with cause 0x6 where the masthead has stepped (R719). -/
def takeTime (r : KkTime) (s : State) : State :=
  let delay : Int := (((s.h : Int) - r.t1) - ((r.t3 : Int) - r.t2)) / 2
  let target := ((r.t3 : Int) + delay).toNat
  let d := clampInt (-32767) 32767 ((target : Int) - s.h)
  let forced := match s.keaka.step_count with
    | some n => if n ≠ r.steps then some 6 else none
    | none => none
  goodDialog target 3 r.anchored forced { s with
    keaka.request := none
    keaka.step_count := some r.steps
    kk.time.delay := sat 16 delay.toNat
    kk.time.offset := BitVec.ofInt 16 d }

/-- TIME_RESPONSE (R718): good when it answers the open request within 2^22 motes. -/
def execTimeResponse (link : Nat) (frame : KkHeader) (response : KkTime) (s : State) : Host.Outcome State Fault Refusal :=
  receiveFrame link frame 0x04 [response.t1, response.t2, response.t3, response.anchored.toNat, response.steps] (fun s =>
    match s.keaka.request with
    | some t => if s.yard && t == response.t1 && decide (s.h ≤ t + 2 ^ 22) then takeTime response s else s
    | none => s) s

/-- YARD_TIME_DIALOG_INTERVAL (R93, R718): a yard asks its parent for the time once an interval, and sends its health log
with it. -/
def execYardTimeDialogInterval (s : State) : Host.Outcome State Fault Refusal :=
  .next (if s.yard && s.due .yardDialog 0 && s.camp.status.floor_seeded then
    let s := arm .yardDialog 0 s.camp.ptmInterval.toNat s
    if !s.linkUp 0 then startYardDialog s
    else
      let (st, s) := takeStamp s
      let log := (healthLog s st ++ logTail s).map BitVec.toNat
      startYardDialog (sendFrame 0x38 0 0 (4 :: log) s)
  else s)

/-- FLOOR_REPORT (R721). -/
def execFloorReport (link : Nat) (frame : KkHeader) (stamp : Nat) (s : State) : Host.Outcome State Fault Refusal :=
  receiveFrame link frame 0x05 [stamp] (fun s =>
    if s.yard then s
    else { s with keaka.yards := s.keaka.yards.put frame.src { s.keaka.yards.look {} frame.src with floor := some stamp } }) s

/-- FLOOR_SET (R721): taken as F at step 11. -/
def execFloorSet (link : Nat) (frame : KkHeader) (stamp : Nat) (s : State) : Host.Outcome State Fault Refusal :=
  receiveFrame link frame 0x06 [stamp] (fun s => if s.yard then { s with keaka.floor_set := some stamp } else s) s

/-! ### Slices and reads of a yard (R722 to R727) -/

/-- Tracker index and slice of a tag (table "Keaka frame header"). -/
def tagEntry (tag : Nat) : Nat := tag % 2 ^ 18
def tagSlice (tag : Nat) : Nat := tag / 2 ^ 18 % 32

/-- A yard refuses a slice in Read-Only and below its write-buffer floor (R723). -/
def sliceRefusal (s : State) : Nat :=
  firstStatus [protectedStatus s, failIf s.pwr.status.below_floor Status.notReady]

/-- SLICE_OPEN (R722, R723). -/
def execSliceOpen (link : Nat) (frame : KkHeader) (slice : KkSlice) (s : State) : Host.Outcome State Fault Refusal :=
  receiveFrame link frame 0x10 [slice.ns_index, slice.first, slice.units, slice.stamp.stamp.toNat, slice.stamp.unanch.toNat,
    slice.halt.toNat] (fun s =>
    if !s.yard then s
    else if sliceRefusal s ≠ 0 then sendFrame 0x12 0 frame.tag [1, sliceRefusal s] s
    else
      let y : YardSlice := { tag := frame.tag, ns_index := slice.ns_index, first := slice.first, units := slice.units,
                             stamp := slice.stamp, halt := slice.halt }
      { s with keaka.slices := s.keaka.slices ++ [y] }) s

/-- WRITE_DATA (R722): a unit of a slice, in ciphertext. -/
def execWriteData (link : Nat) (frame : KkHeader) (ns_unit : Nat) (data : Frame) (s : State) : Host.Outcome State Fault Refusal :=
  receiveFrame link frame 0x11 (ns_unit :: data.body) (fun s =>
    onYardSlice frame.tag (fun y => { y with received := y.received.put ns_unit data }) s) s

/-- A yard that has no slice, unit or record of a command left to answer for is no longer waited for. -/
def yardDone (t p : Nat) (s : State) : State :=
  match s.nvme.tracker.find t with
  | none => s
  | some e =>
    let slices := e.slices.any fun x => x.position == p && !x.pieces.all Piece.held
    let units := e.remote_left.any fun u => deviceOf s e.sqe.ns u == p
    if slices || units then s else onEntry t (fun e => { e with yards_wait := e.yards_wait.filter fun q => q != p }) s

/-- A piece on a yard is held: the command is complete when every piece is (R722). -/
def pieceHeldAway (tag j p : Nat) (s : State) : State :=
  let t := tagEntry tag
  match s.nvme.tracker.find t with
  | none => s
  | some e =>
    if e.state = .done then s
    else
      let s := onEntry t (fun e => { e with effect := true }) s
      settleMedia (wakeAll (writeEnd t (yardDone t p (markHeld t (tagSlice tag) j s))))

/-- SLICE_STATUS (R722, R723, R728): a piece held, or a refusal, or for a command without host data its records held. -/
def execSliceStatus (link : Nat) (frame : KkHeader) (status : KkStatus) (s : State) : Host.Outcome State Fault Refusal :=
  receiveFrame link frame 0x12 (match status with | .held j => [0, j] | .refused st => [1, st]) (fun s =>
    if s.yard then s
    else match s.nvme.tracker.find (tagEntry frame.tag), status with
      | some _, .refused st => wakeAll (failEntry (tagEntry frame.tag) st 0 s)
      | some e, .held j =>
        if e.sqe.opcode = 0x01 ∧ e.sqid ≠ 0 then pieceHeldAway frame.tag j frame.src s
        else wakeAll (yardAnswered (tagEntry frame.tag) frame.src s)
      | none, _ => s) s

/-- RELEASE (R726): pieces of a slice on a halt-on-error queue may become held; a frame that names none releases every piece
of its command. -/
def execReleaseFrame (link : Nat) (frame : KkHeader) (pieces : List Nat) (s : State) : Host.Outcome State Fault Refusal :=
  receiveFrame link frame 0x13 pieces (fun s =>
    { s with keaka.slices := s.keaka.slices.map fun y =>
        if pieces = [] then (if tagEntry y.tag = tagEntry frame.tag then { y with released := true } else y)
        else if y.tag = frame.tag then { y with permitted := y.permitted ++ pieces } else y }) s

/-- Offsets in a yard's slice of the units of its pieces that are not held. -/
def YardSlice.unheld (s : State) (y : YardSlice) : List Nat :=
  let first := unitOfDevice s y.first
  ((y.pieces s).zipIdx.filter fun p => !y.held.contains p.2).flatMap fun p =>
    (List.range p.1.2).map fun k => p.1.1 + k - first

/-- ABORT_FRAME (R726, R734): the pieces not held and the reads of a command end. -/
def execAbortFrame (link : Nat) (frame : KkHeader) (s : State) : Host.Outcome State Fault Refusal :=
  receiveFrame link frame 0x14 [] (fun s =>
    if !s.yard then s
    else
      let mine := fun (y : YardSlice) => tagEntry y.tag == tagEntry frame.tag
      let s := each (s.keaka.slices.filter mine) (fun y s => if y.admitted then releaseSliceUnits y.desc (y.unheld s) s else s) s
      wakeAll { s with
        keaka.slices := s.keaka.slices.filter fun y => !mine y
        nvme.tracker := s.nvme.tracker.drop (tagEntry frame.tag) }) s

/-- READ_REQUEST (R725, R727): the yard resolves and reads the units, ordered by the admission stamp. -/
def execReadRequest (link : Nat) (frame : KkHeader) (slice : KkSlice) (s : State) : Host.Outcome State Fault Refusal :=
  receiveFrame link frame 0x18 [slice.ns_index, slice.first, slice.units, slice.stamp.stamp.toNat, slice.stamp.unanch.toNat] (fun s =>
    if !s.yard then s
    else
      let t := tagEntry frame.tag
      let units := (List.range slice.units).map fun k => unitOfDevice s (slice.first + k)
      let q : Sqe := { opcode := 0x02, nsid := BitVec.ofNat 32 (slice.ns_index + 1) }
      let e : Entry := (s.nvme.tracker.find t).getD { ctrl := 0, sqid := 1, state := .overlap, admitted := slice.stamp, sqe := q }
      pumpReads t { s with nvme.tracker := s.nvme.tracker.put t { e with unread := e.unread ++ units } }) s

/-- A unit that a yard returned: decrypted on the masthead; one with no data reads as zeros. -/
def unitReturned (t unit p : Nat) (f : Frame) (s : State) : State :=
  match s.nvme.tracker.find t with
  | none => s
  | some e => match commandSpace s e with
    | none => s
    | some n =>
      if e.state = .done ∨ !e.remote_left.contains unit then s
      else
        let s := yardDone t p (onEntry t (fun e => { e with remote_left := e.remote_left.filter fun u => u != unit }) s)
        if s.sec.status.sec_store_lost then unitFailed t unit Status.unrecoveredRead s
        else if f.data.isEmpty then dataArrived t (unitRead t (2 ^ 64) unit [] s)
        else dataArrived t (unitRead t (2 ^ 64) unit (openUnit s e.sqe.ns unit n.lbaf f) (countXts 1 s))

/-- READ_DATA (R725). -/
def execReadData (link : Nat) (frame : KkHeader) (ns_unit : Nat) (data : Frame) (s : State) : Host.Outcome State Fault Refusal :=
  receiveFrame link frame 0x19 (ns_unit :: data.body) (fun s =>
    if s.yard then s else wakeAll (unitReturned (tagEntry frame.tag) ns_unit frame.src data s)) s

/-- READ_STATUS (R725): a status from any device completes the command with that status. -/
def execReadStatus (link : Nat) (frame : KkHeader) (status : Nat) (s : State) : Host.Outcome State Fault Refusal :=
  receiveFrame link frame 0x1A [status] (fun s =>
    let t := tagEntry frame.tag
    match s.nvme.tracker.find t with
    | none => s
    | some e =>
      if s.yard || status == 0 then s
      else match e.remote_left.filter fun u => deviceOf s e.sqe.ns u == frame.src with
        | u :: _ => wakeAll (dataArrived t (unitFailed t u status s))
        | [] => s) s

/-! ### Records and admin operations (R728, R729) -/

/-- RECORD (R728): held for every run of units it covers here, under its stamp; while the Shroud has no room the frame waits
for credit (R717). -/
def execRecordFrame (link : Nat) (frame : KkHeader) (record : MapRecord) (s : State) : Host.Outcome State Fault Refusal :=
  let runs := chunkRuns s record.ns_index (record.first, record.count)
  if s.yard && recordRoom s < runs.length then .next s
  else receiveFrame link frame 0x20 [record.kind, record.ns_index, record.first, record.count, record.stamp.stamp.toNat,
      record.stamp.unanch.toNat] (fun s =>
    if !s.yard then s
    else
      let s := each runs (fun r => holdChange record.kind record.ns_index record.ordinal r.1 r.2 record.stamp) s
      settleMedia (sendFrame 0x12 0 frame.tag [0, 0] s)) s

/-- What an admin forward frame carries. -/
def KkAdmin.body (op : KkAdmin) : List Nat :=
  match op with
  | .namespaceCreate nsid lbaf ordinals => [0, nsid, lbaf] ++ ordinals
  | .namespaceDelete nsid => [1, nsid]
  | .format nsid lbaf ses => [2, nsid, lbaf, ses]
  | .manifestInstall image => 3 :: image.map BitVec.toNat
  | .firmwareCommit action fs image => [4, action, fs] ++ image.map BitVec.toNat

/-- A forwarded operation on a yard. -/
def runForwarded (tag : Nat) (op : KkAdmin) (s : State) : State :=
  match op with
  | .firmwareCommit action fs image =>
    if commitBusy s then endAdmin (.cascade tag) Status.sequenceError 0 s
    else commitFirmware (.cascade tag) action fs (Cells.writes [] 0 image) s
  | .manifestInstall image => installManifest (.cascade tag) false image s
  | op => sendFrame 0x29 0 tag [0, 0] (settleMedia (yardNamespace op s))

/-- ADMIN_FORWARD (R728, R729). -/
def execAdminForward (link : Nat) (frame : KkHeader) (op : KkAdmin) (s : State) : Host.Outcome State Fault Refusal :=
  receiveFrame link frame 0x28 op.body (fun s => if s.yard then runForwarded frame.tag op s else s) s

/-- ADMIN_RESULT (R728, R729): from the yard that was asked. -/
def execAdminResult (link : Nat) (frame : KkHeader) (status dw0 : Nat) (s : State) : Host.Outcome State Fault Refusal :=
  receiveFrame link frame 0x29 [status, dw0] (fun s =>
    if s.keaka.admin.any fun a => a.entry == frame.tag && a.asked == some frame.src then forwardEnded frame.tag status dw0 s
    else s) s

/-! ### Power states and reports (R733, R735, R737, R760) -/

/-- POWER_STATE_REQUEST (R735): the yard's own handshake or return; a return is never refused. -/
def execPowerStateRequest (link : Nat) (frame : KkHeader) (target : Nat) (returning : Bool) (s : State) :
    Host.Outcome State Fault Refusal :=
  receiveFrame link frame 0x30 [target, returning.toNat] (fun s =>
    if !s.yard || !s.serving || s.power_states.returning.isSome then s
    else if returning || target == 0 then beginReturn target none (setRequested 0 target s)
    else if s.power_states.handshake.isSome then s
    else beginHandshake target 0 none { s with keaka.parent_request := some frame.tag }) s

/-- POWER_STATE_REPLY (R735): when every child has accepted, participant 0x0B does; a refusal refuses for it. -/
def execPowerStateReply (link : Nat) (frame : KkHeader) (refusal : Option (Nat × Nat)) (s : State) : Host.Outcome State Fault Refusal :=
  receiveFrame link frame 0x31 (match refusal with | some r => [r.1, r.2] | none => [0, 0]) (fun s =>
    match s.power_states.handshake, refusal with
    | some h, some r => if h.waiting.contains 0x0B then refuseHandshake h [0x0B] r.2 s else s
    | some h, none =>
      let left := s.keaka.power_waiting.filter fun p => p != frame.src
      let s := { s with keaka.power_waiting := left }
      if left.isEmpty && h.waiting.contains 0x0B then participantAccepts 0x0B h s else s
    | none, _ => s) s

/-- What a report carries, as its frame holds it. -/
def KkReport.body (r : KkReport) : List Nat :=
  match r with
  | .event st e => e.body st
  | .error st e => e.body st
  | .readOnly cause => [2, cause]
  | .started => [3]
  | .log b => 4 :: b.map BitVec.toNat
  | .stopped => [5]

/-- A yard's link toward its child is down: the yards beyond it are lost (R716, R731). -/
def childrenLost (p : Nat) (s : State) : State :=
  each ([1, 2, 3].filter fun q => topoPresent s q && (parentOf s q).1 == p) loseYard s

/-- A report of the yard at position `p` has its effect on the masthead. -/
def takeReport (p : Nat) (r : KkReport) (s : State) : State :=
  let yard := s.keaka.yards.look {} p
  match r with
  | .event st e =>
    let s := enterEvent { e with forwarded := true, position := p } st s
    if e.source = src 17 2 then childrenLost p s else s
  | .error st e =>
    let s := deliverError { e with forwarded := true, position := p, target := 2 } none st s
    if e.fatal then loseYard p s else s
  | .readOnly cause =>
    let s := { s with keaka.yards := s.keaka.yards.put p { yard with ro_cause := yard.ro_cause ||| cause } }
    match s.mode with
    | .start => s
    | _ => enterReadOnly cause s
  | .started => { s with keaka.yards := s.keaka.yards.put p { yard with started := true } }
  | .log b => { s with keaka.yards := s.keaka.yards.put p { yard with log := b } }
  | .stopped => loseYard p s

/-- EVENT_FORWARD (R733, R737, R738, R760). -/
def execEventForward (link : Nat) (frame : KkHeader) (report : KkReport) (s : State) : Host.Outcome State Fault Refusal :=
  receiveFrame link frame 0x38 report.body (fun s => if s.yard then s else takeReport frame.src report s) s

end Sys2Proof.Machine
end

