-- ==== Sys2Proof/Machine/Sideband.lean ====
section
/-!
DEFINITION. NVMe-MI on the sideband ports and in band (R57, R129, R130, R597, R598).  Encodings are those of the NVMe-MI 1.2
standard (PRESUMED, log entry 49); what only an implementation gives is free (Config.unstatedByte).
-/

namespace Sys2Proof.Machine

/-- Response status codes of the standard. -/
def Mi.invalidOpcode : Nat := 3
def Mi.invalidParameter : Nat := 4

/-- A sideband port answers in every mode except Hold (R129). -/
def sidebandOn (s : State) (port : Nat) : Bool :=
  decide (port < 2) && (match s.mode with | .hold => false | _ => true)

/-- Run a request of a sideband port. -/
def runSideband (port : Nat) (f : State → State) (s : State) : Host.Outcome State Fault Refusal :=
  .next (if sidebandOn s port then f s else s)

/-- Drive Not Ready (table "Basic management values"). -/
def driveNotReady (s : State) : Bool :=
  !s.health.ready_seen || (match s.mode with | .thermalHalt => true | .flush => true | _ => false)

/-- Drive Functional. -/
def driveFunctional (s : State) : Bool :=
  (s.mgmt.modeStatus.start_fail == 0) && !(s.ctrls.any fun c => (s.ctrl c).cfs) && decide (s.mode ≠ .thermalHalt)

/-- Composite temperature in one byte: two's complement from -60 to 126 °C, held at either end; 0x80 for no data. -/
def miTemperature (s : State) : Byte :=
  match sensorTemp s 0 with
  | none => 0x80
  | some k =>
    let c := k - 273
    if 127 ≤ c then 0x7F else if c ≤ -60 then 0xC4 else BitVec.ofInt 8 c

/-- SMART Warnings: bits of the Critical Warning, inverted. -/
def miWarnings (s : State) : Byte := ~~~(BitVec.ofNat 8 (criticalWarning s))

/-- Subsystem status: Drive Functional, Reset Not Required (no fatal status), and the links of ports 0 and 1. -/
def miStatus (s : State) : Byte :=
  BitVec.ofNat 8 (32 * (driveFunctional s).toNat + 16 * (!(s.ctrls.any fun c => (s.ctrl c).cfs)).toNat
      + 8 * s.pcie.portStatus0.link_up.toNat + 4 * s.pcie.portStatus1.link_up.toNat)

/-- Status flags of the basic management command: that status with Drive Not Ready; whether the bus arbitration was won is
not the device's to say. -/
def miFlags (s : State) : Byte :=
  (Config.unstatedByte 0x300 0 &&& 0x80) ||| BitVec.ofNat 8 (64 * (driveNotReady s).toNat) ||| miStatus s

/-- BASIC_MANAGEMENT_READ (R597): status flags, SMART warnings, temperature, drive life used. -/
def execBasicManagementRead (port : Nat) (s : State) : Host.Outcome State Fault Refusal :=
  runSideband port (fun s => say (.miResponse port 0
    [miFlags s, miWarnings s, miTemperature s, BitVec.ofNat 8 s.rcl.peStats.pct_used.toNat]) s) s

/-- MCTP endpoint address of a sideband port, 7 bits: 0x1D, or what the manifest in force sets, from 0x08 to 0x77 (R129). -/
def mctpAddress (s : State) (port : Nat) : Nat :=
  if s.manifest.in_force = [] ∨ s.man.status.defaults_only then 0x1D
  else match Config.manifestMctp s.manifest.in_force port with
    | some a => if 8 ≤ a ∧ a ≤ 0x77 then a else 0x1D
    | none => 0x1D

/-- NVM Subsystem Information: the two sideband ports and the PCIe ports, and version 1.2. -/
def miSubsystem (s : State) : Bytes := padTo 32 [BitVec.ofNat 8 (if s.ep.dual then 3 else 2), 1, 2, Config.unstatedByte 0x200 3]

/-- Port Information: 0 and 1 the sideband ports, at up to 1 MHz and with the basic management command, then the PCIe
ports; none where there is no such port. -/
def miPort (s : State) (id : Nat) : Option Bytes :=
  if id < 2 then some (padTo 32 ([2, 0] ++ leBytes 2 64 ++ leBytes 4 0 ++ [0, 0, BitVec.ofNat 8 (2 * mctpAddress s id), 3, 1]))
  else if id < 2 + s.ctrls.length then
    some (padTo 32 ([1, 0] ++ leBytes 2 64 ++ leBytes 4 0 ++ [2] ++ (List.range 4).map (fun i => Config.unstatedByte 0x201 (16 * id + i))
      ++ [BitVec.ofNat 8 (id - 2)]))
  else none

/-- Controller Information: the PCIe port, the routing identifier, which the bus owner sets, and the identity of the function
(R263); none where there is no such controller. -/
def miController (s : State) (id : Nat) : Option Bytes :=
  (controllerNamed s id).map fun c => padTo 32 ([BitVec.ofNat 8 (2 + c)] ++ leBytes 4 0
    ++ (List.range 3).map (fun i => Config.unstatedByte 0x203 (16 * c + i)) ++ leBytes 2 Config.vendorId.toNat ++ leBytes 2 0x4800
    ++ leBytes 2 Config.subsystemVendorId.toNat ++ leBytes 2 Config.subsystemId.toNat)

/-- A data structure of NVMe-MI: subsystem, port, controller list from an identifier up, controller, the optional commands
(Manifest Transfer and Install, tunnelled), the commands that use a Management Endpoint Buffer (none), and, at a vendor's
type, MGMT_MODE_STATUS and MGMT_MODE_STAMP (R57). -/
def miStructure (s : State) (type id : Nat) : Option Bytes :=
  match type with
  | 0 => some (miSubsystem s)
  | 1 => miPort s id
  | 2 =>
    let l := s.ctrls.filter fun c => decide (id ≤ cntlid c)
    some (leBytes 2 l.length ++ l.flatMap fun c => leBytes 2 (cntlid c))
  | 3 => miController s id
  | 4 => some (leBytes 2 2 ++ [0x10, 0xC1, 0x10, 0xC4])
  | 5 => some (leBytes 2 0)
  | 256 => some (leBytes 4 ((readMgmt s 0x10).getD (0, 0)).2 ++ leBytes 8 ((readMgmt s 0x18).getD (0, 0)).2)
  | _ => none

/-- Status and bytes of a read of a data structure. -/
def miRead (s : State) (type id : Nat) : Nat × Bytes :=
  match miStructure s type id with
  | some b => (0, b)
  | none => (Mi.invalidParameter, [])

/-- READ_NVME_MI_DATA_STRUCTURE (R57, R598). -/
def execReadNvmeMiDataStructure (port : Nat) (kind : MiSelector) (s : State) : Host.Outcome State Fault Refusal :=
  runSideband port (fun s => say (.miResponse port (miRead s kind.type kind.id).1 (miRead s kind.type kind.id).2) s) s

/-- A configuration value of a path, by the standard's identifiers: 1 the bus frequency, by default 100 kHz; 2 the health status
change, which reads 0; 3 the transmission unit, 64 bytes. -/
def miConfigGet (s : State) (path id : Nat) : Nat × Bytes :=
  match id with
  | 1 => (0, leBytes 4 (s.pads.mi_config.look 1 (256 * path + 1)))
  | 2 => (0, leBytes 4 0)
  | 3 => (0, leBytes 4 (s.pads.mi_config.look 64 (256 * path + 3)))
  | _ => (Mi.invalidParameter, [])

/-- Set a configuration value of a path: a frequency of R129, or the one transmission unit; a health status change clears the
named flags of the composite status of that path. -/
def miConfigSet (path id value : Nat) (s : State) : Nat × State :=
  let put := fun (s : State) => { s with pads.mi_config := s.pads.mi_config.put (256 * path + id) value }
  match id with
  | 1 => if 1 ≤ value ∧ value ≤ 3 then (0, put s) else (Mi.invalidParameter, s)
  | 2 =>
    let had := s.pads.mi_composite.look 0 path
    (0, { s with pads.mi_composite := s.pads.mi_composite.put path (had - (had &&& value)) })
  | 3 => if value = 64 then (0, put s) else (Mi.invalidParameter, s)
  | _ => (Mi.invalidParameter, s)

/-- CONFIGURATION_GET (R598). -/
def execConfigurationGet (port id : Nat) (s : State) : Host.Outcome State Fault Refusal :=
  runSideband port (fun s => say (.miResponse port (miConfigGet s port id).1 (miConfigGet s port id).2) s) s

/-- CONFIGURATION_SET (R598). -/
def execConfigurationSet (port id value : Nat) (s : State) : Host.Outcome State Fault Refusal :=
  runSideband port (fun s => match miConfigSet port id value s with
    | (st, s) => say (.miResponse port st []) s) s

/-- The subsystem's health: status flags, SMART warnings, temperature, drive life used, and the composite controller status of
the path. -/
def subsystemHealth (s : State) (path : Nat) : Bytes :=
  [miStatus s, miWarnings s, miTemperature s, BitVec.ofNat 8 s.rcl.peStats.pct_used.toNat]
    ++ leBytes 2 (s.pads.mi_composite.look 0 path) ++ leBytes 2 0

/-- A poll that clears the composite status of a path. -/
def clearComposite (clear : Bool) (path : Nat) (s : State) : State :=
  if clear then { s with pads.mi_composite := s.pads.mi_composite.put path 0 } else s

/-- SUBSYSTEM_HEALTH_STATUS_POLL (R598). -/
def execSubsystemHealthStatusPoll (port : Nat) (clear : Bool) (s : State) : Host.Outcome State Fault Refusal :=
  runSideband port (fun s => say (.miResponse port 0 (subsystemHealth s port)) (clearComposite clear port s)) s

/-- A controller's health: identifier, status, temperature, drive life used, spare, critical warning, and its changes for a
path. -/
def controllerHealth (s : State) (c path : Nat) : Bytes :=
  let k := s.ctrl c
  let changed := k.mi_changed.look 0 path
  leBytes 2 (cntlid c)
    ++ leBytes 2 (bitsOf [k.rdy, k.cfs] + 4 * (k.shst % 4) + 16 * k.nssro.toNat + (changed &&& (Mi.ceco ||| Mi.nac ||| Mi.fa)))
    ++ leBytes 2 ((sensorTemp s 0).getD 0).toNat ++ leBytes 1 s.rcl.peStats.pct_used.toNat ++ leBytes 1 (spareNow s)
    ++ leBytes 1 (criticalWarning s) ++ leBytes 2 changed ++ leBytes 5 0

/-- A poll that clears the changes of a controller for a path. -/
def clearChanged (clear : Bool) (c path : Nat) (s : State) : State :=
  if clear then onCtrl c (fun k => { k with mi_changed := k.mi_changed.put path 0 }) s else s

/-- CONTROLLER_HEALTH_STATUS_POLL (R598). -/
def execControllerHealthStatusPoll (port ctrl : Nat) (clear : Bool) (s : State) : Host.Outcome State Fault Refusal :=
  runSideband port (fun s =>
    if s.ctrls.contains ctrl then say (.miResponse port 0 (controllerHealth s ctrl port)) (clearChanged clear ctrl port s)
    else say (.miResponse port Mi.invalidParameter []) s) s

/-- NVME_MI_INVALID_OPCODE (R598). -/
def execNvmeMiInvalidOpcode (port _opcode : Nat) (s : State) : Host.Outcome State Fault Refusal :=
  runSideband port (say (.miResponse port Mi.invalidOpcode [])) s

/-! ### Tunnelled admin commands (R598) -/

/-- The mode lets a tunnelled command run (table "NVMe-MI commands by mode"). -/
def tunnelMode (s : State) (q : Sqe) : Bool :=
  match s.mode with
  | .run => true
  | .reduced => true
  | .patrol => true
  | .readOnly => true
  | .start => (q.opcode == 0xC1 || q.opcode == 0xC4) && installMode s true
  | .hold => false
  | _ => q.opcode == 0x02 && (q.lid == 0x02 || q.lid == 0xC0)

/-- A tunnelled Get Features on controller 0. -/
def tunnelFeature (port : Nat) (q : Sqe) (s : State) : State :=
  let e : Entry := { ctrl := 0, sqid := 0, sqe := q, admitted := {} }
  let sel := q.cdw10.toNat / 256 % 8
  let st := firstStatus [failIf (!supportedFeatures.contains q.fid || decide (3 < sel)) Status.invalidField, getFeatureStatus s e]
  if st ≠ 0 then say (.miResponse port st (leBytes 4 0)) s
  else if sel = 3 then say (.miResponse port 0 (leBytes 4 (featureCaps q.fid))) s
  else
    let v := featureValue s e (sel != 0)
    say (.miResponse port 0 (leBytes 4 v.1 ++ v.2)) s

/-- A tunnelled command: the response holds its status, Dword 0 and data. -/
def tunnelled (port : Nat) (q : Sqe) (data : Bytes) (s : State) : State :=
  let refuse := fun (st : Nat) => say (.miResponse port st (leBytes 4 0)) s
  match q.opcode.toNat with
  | 0x02 =>
    if logStatus q ≠ 0 then refuse (logStatus q)
    else
      let (b, s) := readLog 0 q s
      say (.miResponse port 0 (leBytes 4 0 ++ b)) s
  | 0x06 => match identifyData s 0 q with
    | (0, b) => say (.miResponse port 0 (leBytes 4 0 ++ b)) s
    | (st, _) => refuse st
  | 0x0A => tunnelFeature port q s
  | 0xC1 => match stageManifest q data s with
    | (st, dw0, s) => say (.miResponse port st (leBytes 4 dw0)) s
  | 0xC4 => installStaged (.sideband port) true (2 ^ 18 + port) s
  | _ => refuse Status.invalidOpcode

/-- TUNNELLED_ADMIN_COMMAND (R598). -/
def execTunnelledAdminCommand (port : Nat) (sqe : Sqe) (data : Bytes) (s : State) : Host.Outcome State Fault Refusal :=
  runSideband port (fun s =>
    if tunnelMode s sqe then tunnelled port sqe data s
    else if sqe.opcode == 0xC4 then installStaged (.sideband port) true (2 ^ 18 + port) s
    else say (.miResponse port Status.invalidOpcode (leBytes 4 0)) s) s

/-! ### In band (R348) -/

/-- NVME_MI_SEND (R348): Configuration Set carries an operation of the sideband ports; Dword 0 holds the response
status. -/
def execNvmeMiSend (entry : Nat) (_data : Bytes) (s : State) : Host.Outcome State Fault Refusal :=
  runEntry entry true 0x1D (fun e s =>
    match e.sqe.cdw11.toNat % 256 with
    | 4 => match miConfigSet 2 (e.sqe.cdw12.toNat % 256) e.sqe.cdw13.toNat s with
      | (st, s) => finishEntry entry 0 st s
    | _ => finishEntry entry 0 Mi.invalidOpcode s) s

/-- An in-band response: its data goes to the host, its status into Dword 0. -/
def miAnswer (t : Nat) (e : Entry) (st : Nat) (b : Bytes) (s : State) : State :=
  onEntry t (fun e => { e with dw0 := st }) (answer t e b s)

/-- NVME_MI_RECEIVE (R348): the operations of the sideband ports that return data. -/
def execNvmeMiReceive (entry : Nat) (s : State) : Host.Outcome State Fault Refusal :=
  runEntry entry true 0x1E (fun e s =>
    let v := e.sqe.cdw12.toNat
    let clear := e.sqe.cdw13.getLsbD 31
    match e.sqe.cdw11.toNat % 256 with
    | 0 =>
      let r := miRead s (v / 2 ^ 24) (if v / 2 ^ 24 = 1 then v / 2 ^ 16 % 256 else v % 2 ^ 16)
      miAnswer entry e r.1 r.2 s
    | 1 => miAnswer entry e 0 (subsystemHealth s 2) (clearComposite clear 2 s)
    | 2 =>
      match controllerNamed s (v % 2 ^ 16) with
      | some c => miAnswer entry e 0 (controllerHealth s c 2) (clearChanged clear c 2 s)
      | none => miAnswer entry e Mi.invalidParameter [] s
    | 3 => miAnswer entry e (miConfigGet s 2 (v % 256)).1 (miConfigGet s 2 (v % 256)).2 s
    | _ => miAnswer entry e Mi.invalidOpcode [] s) s

end Sys2Proof.Machine
end

