-- ==== Sys2Proof/Machine/Start.lean ====
section
/-!
DEFINITION. Start (R46, R218 to R221): the release that ends Hold, the seventeen steps, Start failures, and rail faults
(R149).
-/

namespace Sys2Proof.Machine

/-- Start runs: it has not failed, and no Flush image is being written. -/
def State.starting (s : State) : Bool :=
  (match s.mode with | .start => true | _ => false) && s.mgmt.modeStatus.start_fail == 0 && s.shroud.spill.isNone
    && s.reset_ctl.sequence.isNone && s.thermal.entry.isNone

/-- Start goes on to a step. -/
def goStep (n : Nat) (s : State) : State := { s with reset_ctl.start_step := n, reset_ctl.step_begun := false }

/-! ### The release that ends Hold (R46, R158, R218 step 1) -/

/-- HOLD_RESET_RELEASE: the mode becomes Start, and time 0 is now; H starts at 0 with the rate of R576 (R769), and the
transition makes the first stamp request of the run (R64). -/
def execHoldResetRelease (s : State) : Host.Outcome State Fault Refusal :=
  let hold := match s.mode with | .hold => true | _ => false
  if hold && !s.power.por && !s.power.dark && !s.pad.strapStatus.test_en && !s.pad.strapStatus.pwrdis_live then
    let s := releaseDomain .mgmt { s with
      time.hq := 0
      time.moved := s.time.moved - s.h
      reset_ctl.start_step := 1
      reset_ctl.start_time := 0
      reset_ctl.wdt_stage1 := []
      power.dram_rails := false }
    let early := s.time.preseed
    let s := setMode .start { s with time.preseed := [] }
    let s := { s with time.preseed := s.time.preseed ++ early }
    let s := refreshRate { s with thermal.comp_now := compAt s }
    let s := arm .allowance 0 (2 ^ 20) (arm .charge 0 s.pwr.chargeTimeout.toNat s)
    .next (refreshCharger (if s.power.measured then armOnce .bankTest 0 s.pwr.bankTestInterval.toNat s else s))
  else .next s

/-! ### Steps 2 to 8 -/

/-- Step 3: the PORT domains are released and link training begins, in the configuration strapped; it asks for a stamp
(R122, R258). -/
def stepPorts (s : State) : State :=
  if s.yard then goStep 4 s
  else if s.isHeld .port0 || s.isHeld .port1 then s
  else goStep 4 (request .firstTraining { s with ep.dual := s.pad.strapStatus.dualport })

/-- A request of one of these purposes waits for the routine or is with it. -/
def arrayBusy (is : BaPurpose → Bool) (s : State) : Bool :=
  s.boot.queue.any (fun q => is q.purpose) || s.boot.current.any fun q => is q.purpose

/-- Sectors of the journal and nonce regions with an unfinished erase (R200, R201). -/
def unfinished (s : State) : List Nat :=
  ((s.boot.flags.filter fun p => !p.2 && decide (560 ≤ p.1) && decide (p.1 ≤ 647)).map Prod.fst).filter fun k =>
    !s.boot.retired.contains k

/-- Step 4: unfinished erases of the journal and nonce regions are completed (R201); then the journal has been read. -/
def stepJournal (s : State) : State :=
  if arrayBusy (fun p => match p with | .sectorErase _ => true | _ => false) s then s
  else if unfinished s = [] then goStep 5 (showJournal s)
  else each (unfinished s) (fun k => askArray (.sectorErase k) [.erase k, .flagErase k]) s

/-- Greatest valid N of either copy of the nonce reservation (R208). -/
def greatestNonce (s : State) : Option Nat :=
  match s.boot.nonce_a.greatest, s.boot.nonce_b.greatest with
  | some a, some b => some (max a.2 b.2)
  | some a, none => some a.2
  | none, some b => some b.2
  | none, none => none

/-- The reservation of N + 2^20 is asked for; the counters from N on are handed out once it has verified (R208). -/
def askNonces (n : Nat) (s : State) : State :=
  askArray (.nonceBlock (n + 2 ^ 20)) [] { s with sec.nonceNext := BitVec.ofNat 64 n, reset_ctl.step_begun := true }

/-- Step 5: the nonce block (R208, R209). -/
def stepNonce (s : State) : State :=
  if s.sec.nonceLimit ≠ 0 then goStep 6 s
  else if arrayBusy (fun p => match p with | .nonceBlock _ => true | _ => false) s then s
  else if s.reset_ctl.step_begun then askNonces s.sec.nonceNext.toNat s
  else match greatestNonce s with
    | some n => askNonces n s
    | none =>
      let e := s.ba.status.nonce_epoch.toNat + 1
      if e = 64 then failStart 1 s
      else askNonces (e * 2 ^ 58) (raise (src 5 4) 0 [] { s with
        ba.status.nonce_epoch := BitVec.ofNat 6 e
        ba.status.epoch_advanced := true
        boot.epoch_steps := s.boot.epoch_steps + 1 })

/-- The slot that Start boots, and whether it is a fallback (R212, R213). -/
def bootSlot (s : State) : Option (Bool × Bool) :=
  let named := (newestRecord s 4).map fun r => field r.payload 0 1 == 1
  let higher := if slotValid s false ∧ slotValid s true then
      decide (hdrGeneration (s.slot false).header < hdrGeneration (s.slot true).header)
    else slotValid s true
  let first := named.getD higher
  if slotValid s first then some (first, false) else if slotValid s (!first) then some (!first, true) else none

/-- A slot whose copy in instruction memory fails its verification twice counts as not valid for this Start (R213). -/
def failLoad (b : Bool) (s : State) : State :=
  showSlot b (if b then { s with boot.load_failed_b := true } else { s with boot.load_failed_a := true })

/-- The selected image is copied into instruction memory and verified there, a second time where that fails, and the other
slot is tried where both fail (R212, R213). -/
def loadSlot (r : StartReport) (s : State) : Option (Bool × Bool) × State :=
  let good := fun (b : Bool) => (if b then r.loadB.1 || r.loadB.2 else r.loadA.1 || r.loadA.2)
  match bootSlot s with
  | none => (none, s)
  | some (b, fallback) =>
    if good b then (some (b, fallback), { s with boot.running := (s.slot b).image })
    else
      let s := failLoad b s
      if slotValid s (!b) && good (!b) then (some (!b, true), { s with boot.running := (s.slot (!b)).image })
      else (none, if slotValid s (!b) then failLoad (!b) s else s)

/-- Step 6: firmware, the core loops, watchdogs and the thermal model (R193, R212, R213, R218). -/
def stepFirmware (r : StartReport) (s : State) : State :=
  match loadSlot r (showSlot true (showSlot false s)) with
  | (none, s) => failStart 1 s
  | (some (b, fallback), s) =>
    let s := if s.boot.last_image = [] ∨ s.boot.last_image = (s.slot b).image then s else noteMiAll Mi.fa s
    let s := { s with ba.status.active_slot := b, ba.status.fallback := fallback, boot.last_image := (s.slot b).image }
    let s := if fallback then raise (src 5 1) 0 [] s else s
    let cores := r.unlocked.filter fun d => match d with | .mgmt => true | .media => true | .cmd => true | _ => false
    let s := each cores (fun d s => arm .pllRetry d.num (2 ^ 20) (arm .pllLimit d.num (2 ^ 26) s))
      { s with reset_ctl.core_loops := cores.isEmpty }
    let s := beginModel r.diodes r.ext (goStep 7 s)
    let s := arm .scrubSram 1 0 (arm .scrubSram 2 0 { s with reset_ctl.wdt_start := s.reset_ctl.cycles })
    if decide (degrees s.thm.thresh.halt.toNat ≤ s.m) then thresholdReached s else s

/-- Step 7: DRAM, and the Shroud header where it was kept (R427). -/
def stepDram (r : StartReport) (s : State) : State :=
  if s.isHeld .dram then s
  else if !r.ok then failStart 4 s
  else
    let s := { s with shroud.clean_sr := s.shroud.clean_sr && r.header, shroud.start_gen := s.shroud.start_gen + 1 }
    goStep 8 (arm .scrubDram 0 0 (arm .scrubDram 3 0 s))

/-- A yard link toward a child, or the masthead's toward a yard, by KK_TOPO. -/
def childOn (s : State) (l : Nat) : Option Nat :=
  [1, 2, 3].find? fun p => topoPresent s p && parentOf s p == (s.position, l)

/-- Links begin to train (R712): KLn_RST# is driven high where it is an output (R181, R218 step 9), with R731's join timeout on the masthead. -/
def beginLinks (s : State) : State :=
  let begin_ := fun (l peer : Nat) (s : State) => onLinkStatus l (fun x => { x with
    state := 1, peer := BitVec.ofNat 2 peer, present := s.pads.present.getLsbD l })
    (onLink l (fun x => { x with step := 1, rst_low := false }) s)
  let s := each (if s.yard then [1] else [0, 1]) (fun l s =>
    let s := onLink l (fun x => { x with rst_low := false }) s
    match childOn s l with | some p => begin_ l p s | none => s) s
  let s := if s.yard then begin_ 0 (parentOf s s.position).1 s else s
  if s.yard || s.kk.cfg.count == 0 then s else arm .kkJoin 0 s.kk.joinTimeout.toNat s

/-- R258: two ports as strapped where the manifest permits one only; the event carries the stamp of the first training
(R122). -/
def dropDualPort (s : State) : State :=
  if s.ep.dual && !s.pcie.cfg.dual_permit && !s.yard then
    let s := assertSource 0xB (assertSource 0xA s)
    { s with ep.dual := false, ep.dropped_dual := true }
  else s

/-- Step 8: the manifest, and what follows from its parameters. -/
def stepManifest (s : State) : State :=
  match selectManifest s with
  | (0, s) =>
    let s := armAt .charge 0 (s.reset_ctl.start_time + s.pwr.chargeTimeout.toNat) (dropDualPort s)
    goStep 9 (beginLinks (refreshLevel s))
  | (code, s) => failStart code s

/-! ### Steps 9 to 12 -/

/-- Yards that have joined or are lost make step 9 complete on the masthead; on a yard its link 0 is up (R218, R731). -/
def linksReady (s : State) : Bool :=
  if s.yard then s.linkUp 0
  else (List.range s.kk.cfg.count.toNat).all fun i =>
    s.kk.status.joined.getLsbD (i + 1) || s.kk.status.lost.getLsbD (i + 1)

/-- Step 9 ends: the first populated pair is enabled (R152). -/
def stepLinks (s : State) : State :=
  if linksReady s then
    let s := disarm .kkJoin 0 (goStep 10 s)
    match (List.range 8).find? s.populated with
    | some p => startPair p s
    | none => s
  else s

/-- Every populated pair has been discovered or has failed. -/
def pairsReady (s : State) : Bool :=
  ((List.range 8).filter s.populated).all fun p =>
    decide ((s.pair p).phase = .discovered) || s.pwr.pairStatus.failed.getLsbD p

/-- Step 10. -/
def stepPairs (s : State) : State := if !s.isHeld .media && pairsReady s then goStep 11 s else s

/-- The redundancy page in force, or none on a device that holds a table (R546). -/
def loadRedPage (s : State) : State :=
  match s.redun.page with
  | some p => { s with
      str.status.shape := BitVec.ofNat 2 p.in_force
      red.status.from_shape := BitVec.ofNat 2 p.source
      red.status.reshape := BitVec.ofNat 2 p.reshape }
  | none =>
    if s.engine.formatted then raise (src 12 8) 0 [] { s with
      red.status.no_page := true
      redun.dies := s.redun.dies.over fun _ d => { d with state := 0, cause := 0 }
      str.status.shape := 0, red.status.from_shape := 0, red.status.reshape := 0 }
    else s

/-- The security store: its locks as LockOnReset gives them (R650, R656), and its try counts as stored, of which one that blocks its
C_PIN begins at 0 again (R659, log entry 108). -/
def loadStore (ok : Bool) (s : State) : State :=
  if s.yard then s
  else if s.engine.formatted && (!ok || s.security.durable.isNone) then
    fatalCondition { s with sec.status.sec_store_lost := true }
  else { s with
    security.store.ranges := s.security.store.ranges.over fun _ r =>
      if r.lock_on_reset then { r with read_locked := r.read_enabled, write_locked := r.write_enabled } else r
    security.store.pins := s.security.store.pins.over fun _ p =>
      if p.try_limit ≠ 0 ∧ p.try_limit ≤ p.tries then { p with tries := 0 } else p }

/-- What step 11 loads once the floor is seeded. -/
def loadPages (r : StartReport) (s : State) : State :=
  let cold := decide (s.rst.last.source.toNat ≤ 1)
  let c := s.health.page.getD {}
  let s := { s with
    health.counts := { c with power_cycles := c.power_cycles + (if cold then 1 else 0) }
    str.serial := BitVec.ofNat 64 s.shroud.serial
    str.stayGen := BitVec.ofNat 32 s.shroud.pair_gen
    rcl.spares.initial := sat 32 s.reclaim.initial }
  let s := match s.shroud.stay0 with | some x => setStay false x s | none => s
  let s := match s.shroud.stay1 with | some x => setStay true x s | none => s
  loadStore r.storeOk (loadRedPage s)

/-- Seed the floor and go on; the time dialogs begin (R69, R85, R93). -/
def seedStart (f code : Nat) (r : StartReport) (s : State) : State :=
  let s := seedFloor f code s
  let s := if s.yard then arm .yardDialog 0 0 s else arm .ptmInterval 0 0 s
  goStep 12 (loadPages r s)

/-- Floors of every joined yard have come (R721). -/
def floorsReady (s : State) : Bool :=
  [1, 2, 3].all fun p => !s.kk.status.joined.getLsbD p || s.kk.status.lost.getLsbD p || (s.keaka.yards.look {} p).floor.isSome

/-- Step 11 (R85, R96, R721): a yard reports its floor and waits for the floor set; the masthead waits for the reports and
sends the greatest.  The table "floor_src" gives code 0b100 to the masthead only; a yard whose F differs from its own floor
shows it too (DESIGN CHOICE, log entry 89). -/
def stepFloor (r : StartReport) (s : State) : State :=
  let (code, f) := floorFound s
  if s.yard then
    match s.keaka.floor_set with
    | some g => seedStart g (if g = f then code else 4) r s
    | none =>
      if (s.keaka.yards.look {} s.position).floor.isSome then s
      else sendFrame 0x05 0 0 [f] { s with keaka.yards := s.keaka.yards.put s.position { floor := some f } }
  else if floorsReady s then
    let yards := [1, 2, 3].filter fun p => s.kk.status.joined.getLsbD p && !s.kk.status.lost.getLsbD p
    seedStart f code r (each yards (fun p => sendFrame 0x06 p 0 [f]) s)
  else s

/-- Step 12 (R586, R588): the records are written, and then an uncleared Thermal Halt record ends Start in Thermal Halt. -/
def stepRecords (s : State) : State :=
  if !s.reset_ctl.step_begun then { writeStartRecords s with reset_ctl.step_begun := true }
  else if recordPending [1, 2, 3, 5, 6, 8] s then s
  else if thRecord s then tellStopped (haltOff (setMode .thermalHalt (goStep 0 s))) else goStep 13 s

/-! ### Steps 13 to 17 -/

/-- Step 15: spares, fatal media conditions, failed pairs, and the causes yards have reported (R733). -/
def stepEvaluate (s : State) : State :=
  let s := recount s
  let s := if fatalMedia s then fatalCondition s else s
  let causes := s.keaka.yards.vals.foldl (fun n y => n ||| y.ro_cause) 0
  goStep 16 { s with mgmt.modeStatus.ro_cause := s.mgmt.modeStatus.ro_cause ||| BitVec.ofNat 2 causes }

/-- Step 16 (R164). -/
def stepAllowance (s : State) : State :=
  if decide (bufferFloor s ≤ s.pwr.shroudAllow.toNat) || s.power.charge_expired then goStep 17 s else s

/-- Every joined yard has reported its own step 17 (R733). -/
def yardsStarted (s : State) : Bool :=
  [1, 2, 3].all fun p => !s.kk.status.joined.getLsbD p || s.kk.status.lost.getLsbD p || (s.keaka.yards.look {} p).started

/-- The fused minimum rises when an image with raise_min first reaches Run and the other slot allows it (R216). -/
def raiseMinimum (s : State) : State :=
  let b := s.ba.status.active_slot
  let h := (s.slot b).header
  let v := hdrSecVersion h
  let other := (s.slot (!b)).header
  let allowed := (slotValid s (!b) && decide (v ≤ hdrSecVersion other)) || (s.slot (!b)).image == (s.slot b).image
  let first := !(if b then s.boot.ran_b else s.boot.ran_a)
  let s := if b then { s with boot.ran_b := true } else { s with boot.ran_a := true }
  if first && hdrRaiseMin h && allowed && decide (minVersion s < v) then { s with boot.min_version := some v } else s

/-- The other copy is written with an image that raises the floor (R245). -/
def mirrorManifest (s : State) : State :=
  if s.man.status.floor_pending && s.manifest.install.isNone then
    beginInstall .own (!s.man.status.applied_copy) s.manifest.in_force s
  else s

/-- A reshape to the target shape begins; while one that a reset interrupted goes on, another target is held (R558, R560,
R561). -/
def startShape (s : State) : State :=
  let t := s.red.cfg.target_shape.toNat
  if t = s.shapeNow ∨ !s.engine.formatted then s
  else if s.red.status.reshape = 0 then tryReshape t true s
  else { s with redun.page := s.redun.page.map fun p => { p with pending := some t } }

/-- The rail fault that an earlier Start did not report (R148). -/
def reportRail (s : State) : State :=
  let c := s.reset_ctl.retention.rail_fault
  if c = 0 then s
  else raise (src 2 1) 0 [] { s with pwr.status.rail_fault := BitVec.ofNat 4 c, reset_ctl.retention.rail_fault := 0 }

/-- Step 17: the mode becomes Run or Read-Only, and what waits for it begins (R164, R218, R306, R394, R553). -/
def stepComplete (s : State) : State :=
  let run := s.mgmt.modeStatus.ro_cause == 0
  let s := { setMode (if run then .run else .readOnly) s with reset_ctl.start_step := 0, reset_ctl.dram_kept := false }
  let s := reportRail (makeReady 1 (makeReady 0 s))
  let s := arm .idle 0 s.rcl.idleDelay.toNat (armOnce .checkpoint 0 s.map.ckptInterval.toNat s)
  let s := if run then raiseMinimum s else s
  let s := startShape (mirrorManifest s)
  let s := if run && s.engine.scanned then checkpointTrigger s else s
  let s := each s.redun.rescuing (fun r => startRescue r.stamp.stamp.toNat r.serial) s
  let s := if s.yard then sendFrame 0x38 0 0 [3] s else s
  let s := if s.engine.formatted then fillSets s else s
  settleMedia (noteHealth (refreshFloor s))

/-- START_STEP_COMPLETE (R218): the operation of the step in progress has completed; a step whose condition does not hold
goes on. -/
def execStartStepComplete (report : StartReport) (s : State) : Host.Outcome State Fault Refusal :=
  if !s.starting then .next s
  else .next (match s.reset_ctl.start_step with
    | 1 => goStep 2 s
    | 2 => goStep 3 (deriveKeys s)
    | 3 => stepPorts s
    | 4 => stepJournal s
    | 5 => stepNonce s
    | 6 => stepFirmware report s
    | 7 => stepDram report s
    | 8 => stepManifest s
    | 9 => stepLinks s
    | 10 => stepPairs s
    | 11 => stepFloor report s
    | 12 => stepRecords s
    | 13 => goStep 14 (replayShroud report.badUnits report.badBlocks s)
    | 14 => goStep 15 (loadTable report s)
    | 15 => stepEvaluate s
    | 16 => stepAllowance s
    | 17 => if yardsStarted s && !s.isHeld .cmd then stepComplete s else s
    | _ => s)

/-! ### Rail faults (R149, R170) -/

/-- Every link goes down with VSER (R149). -/
def dropLinks (s : State) : State :=
  let s := each (s.ctrls.filter s.linked) (fun n s => assertSource (0xA + n) s) s
  each ([0, 1].filter fun l => (s.linkStatus l).state != 0) linkDown s

/-- RAIL_FAULT (R149, R170): VSER takes the links down; another rail outside Hold asserts power-on reset at once, with the
Shroud kept while VD1, VD2H, VD2L and VDQ stay good; in Flush and in a Thermal Halt entry the reset is deferred. -/
def execRailFault (rail : Nat) (s : State) : Host.Outcome State Fault Refusal :=
  let hold := match s.mode with | .hold => true | _ => false
  let flush := match s.mode with | .flush => true | _ => false
  if s.power.dark || hold || decide (rail = 0) || decide (11 < rail) then .next s
  else if rail = 7 then
    .next (raise (src 2 1) 0 [] (dropLinks { s with pwr.status.rail_fault := 7 }))
  else
    let s := { s with reset_ctl.retention.rail_fault := rail }
    if flush || s.shroud.spill.isSome || s.thermal.entry.isSome then
      let (st, s) := takeStamp (recordSource 2 s)
      .next (deferReset { code := 2, stamp := st, mode_at := s.mode } s)
    else
      let had := keepsDram s.mode s
      let good := decide (rail < 3) || decide (6 < rail)
      let (st, s) := takeStamp s
      let s := assertL5 { code := 2, stamp := st, mode_at := s.mode } (had && good) s
      .next { s with reset_ctl.shroud_gone := s.reset_ctl.shroud_gone || (had && !good) }

end Sys2Proof.Machine
end

