-- ==== Sys2Proof/Machine/Pins.lean ====
section
/-!
DEFINITION. The balls (chapter 3): the signal, group, direction and reset domain of each of the 2,304 balls (R101 to
R106, R177), the boundary-scan register over them (R133), and the level each output shows in a state (R108 to R114,
R119, R127 to R129, R134, R156, R181).
-/

namespace Sys2Proof.Machine

/-! ### What lies at a ball (R102 to R106) -/

/-- The ball groups (table "Ball groups"). -/
inductive BallGroup where
  | flash | pcieLane | refclk | pcieSideband | keakaLane | keakaSideband | vin | huBank | nandPower | sideband | connector
  | strap | scan | thermal | vauxOut | dnc | ground
  deriving DecidableEq, Repr

/-- The signals of the package; the comments of the table "Ball groups" give their directions. -/
inductive Signal where
  | dq (c i : Nat) | dqs (c : Nat) (complement : Bool) | re (c : Nat) (complement : Bool) | we (c : Nat) | ale (c : Nat)
  | cle (c : Nat) | ce (c i : Nat) | rb (c : Nat) | wp (c : Nat)
  | pet (n : Nat) (negative : Bool) | per (n : Nat) (negative : Bool) | refclk (n : Nat) (negative : Bool)
  | klRx (m n : Nat) (negative : Bool) | klTx (m n : Nat) (negative : Bool)
  | perst (n : Nat) | clkreq (n : Nat) | klRst (n : Nat) | klPres (n : Nat) | vin | huBank | nven (p : Nat) | npg (p : Nat)
  | scl (n : Nat) | sda (n : Nat) | alert (n : Nat) | pwrdis | dualportEn | actLed | fault | mast | cascPos (n : Nat) | testEn
  | tck | tms | tdi | tdo | trst | td (negative : Bool) | vauxOut | dnc | gnd
  deriving DecidableEq, Repr

/-- Signal of channel `c` at row offset `r` and column offset `k` of its block (table "Channel block layout"). -/
def channelSignal (c r k : Nat) : Signal :=
  match r with
  | 0 => .dq c k
  | 1 => .dq c (4 + k)
  | 2 => if k < 2 then .dqs c (k == 1) else .re c (k == 3)
  | 3 => match k with | 0 => .gnd | 1 => .we c | 2 => .ale c | _ => .cle c
  | 4 => .ce c k
  | 5 => .ce c (4 + k)
  | _ => match k with | 0 => .rb c | 1 => .wp c | _ => .gnd

/-- Row and column of the ball at offsets `r`, `k` of channel `c` (R103). -/
def channelBall (c r k : Nat) : Nat × Nat :=
  let m := c % 24 / 12
  let q := c % 24 % 12
  (if c / 24 = 0 then 7 * m + r + 1 else 48 - 7 * m - r, 4 * q + k + 1)

/-- Signal of a ball of rows 24 to 26, columns 13 to 36 (table "Centre-row balls"). -/
def centreSignal (row col : Nat) : Signal :=
  let k := col - 13
  match row with
  | 24 =>
    if k < 8 then .nven k else if k < 16 then .npg (k - 8) else if k < 18 then .perst (k - 16)
    else if k < 20 then .clkreq (k - 18) else [Signal.pwrdis, .dualportEn, .actLed, .fault].getD (k - 20) .gnd
  | 25 => [Signal.scl 0, .sda 0, .alert 0, .scl 1, .sda 1, .alert 1, .mast, .cascPos 1, .cascPos 0, .testEn, .tck, .tms, .tdi,
      .tdo, .trst, .klRst 0, .klPres 0, .klRst 1, .klPres 1, .vauxOut, .vauxOut, .vauxOut, .vauxOut, .dnc].getD k .gnd
  | _ => if k = 11 then .td false else if k = 12 then .td true else .dnc

/-- Signal of a ball of rows 15 to 34 (R102, R104 to R106). -/
def middleSignal (row col : Nat) : Signal :=
  let centre := decide (13 ≤ col) && decide (col ≤ 36)
  if centre && (decide (row ≤ 17) || decide (33 ≤ row)) then .vin
  else if centre && decide (24 ≤ row) && decide (row ≤ 26) then centreSignal row col
  else if row = 32 ∧ 17 ≤ col ∧ col ≤ 32 then .huBank
  else if row ≤ 30 ∧ (col = 2 ∨ col = 3) then .pet (row - 15) (col == 3)
  else if row ≤ 30 ∧ (col = 6 ∨ col = 7) then .per (row - 15) (col == 7)
  else if row = 32 ∧ (col = 2 ∨ col = 3) then .refclk 0 (col == 3)
  else if row = 32 ∧ (col = 6 ∨ col = 7) then .refclk 1 (col == 7)
  else if (row ≤ 22 ∨ 25 ≤ row ∧ row ≤ 32) ∧ (col = 42 ∨ col = 43) then .klRx ((row - 15) / 10) ((row - 15) % 10) (col == 43)
  else if (row ≤ 22 ∨ 25 ≤ row ∧ row ≤ 32) ∧ (col = 46 ∨ col = 47) then .klTx ((row - 15) / 10) ((row - 15) % 10) (col == 47)
  else .gnd

/-- Signal of the ball at a row and a column, each from 1 to 48 (R101 to R106). -/
def ballSignal (row col : Nat) : Signal :=
  if row ≤ 14 then channelSignal (12 * ((row - 1) / 7) + (col - 1) / 4) ((row - 1) % 7) ((col - 1) % 4)
  else if 35 ≤ row then channelSignal (24 + 12 * ((48 - row) / 7) + (col - 1) / 4) ((48 - row) % 7) ((col - 1) % 4)
  else middleSignal row col

/-- The one group of a ball (R102): the flash-channel blocks hold their ground balls too. -/
def ballGroup (row col : Nat) : BallGroup :=
  if row ≤ 14 ∨ 35 ≤ row then .flash
  else match middleSignal row col with
    | .pet _ _ => .pcieLane
    | .per _ _ => .pcieLane
    | .refclk _ _ => .refclk
    | .perst _ => .pcieSideband
    | .clkreq _ => .pcieSideband
    | .klRx _ _ _ => .keakaLane
    | .klTx _ _ _ => .keakaLane
    | .klRst _ => .keakaSideband
    | .klPres _ => .keakaSideband
    | .vin => .vin
    | .huBank => .huBank
    | .nven _ => .nandPower
    | .npg _ => .nandPower
    | .scl _ => .sideband
    | .sda _ => .sideband
    | .alert _ => .sideband
    | .pwrdis => .connector
    | .dualportEn => .connector
    | .actLed => .connector
    | .fault => .connector
    | .mast => .strap
    | .cascPos _ => .strap
    | .testEn => .strap
    | .tck => .scan
    | .tms => .scan
    | .tdi => .scan
    | .tdo => .scan
    | .trst => .scan
    | .td _ => .thermal
    | .vauxOut => .vauxOut
    | .dnc => .dnc
    | _ => .ground

/-- Balls of a group (table "Ball groups", column Count). -/
def groupCount (g : BallGroup) : Nat :=
  match g with
  | .flash => 1344 | .pcieLane => 64 | .refclk => 4 | .pcieSideband => 4 | .keakaLane => 64 | .keakaSideband => 4 | .vin => 120
  | .huBank => 16 | .nandPower => 16 | .sideband => 6 | .connector => 4 | .strap => 4 | .scan => 5 | .thermal => 2 | .vauxOut => 4
  | .dnc => 23 | .ground => 620

/-- PCIe port of a lane in x8+x8 operation (R104). -/
def lanePort (n : Nat) : Nat := n / 8

/-- Which way a ball carries its signal (table "Ball groups"). -/
inductive BallDirection where
  | input | output | bidirectional | openDrain | differential | power | analog | none
  deriving DecidableEq, Repr

/-- Direction of a signal on a device of this role: KL0_RST# is an input on a yard (R119). -/
def direction (s : State) (x : Signal) : BallDirection :=
  match x with
  | .dq _ _ => .bidirectional
  | .dqs _ _ => .bidirectional
  | .re _ _ => .output
  | .we _ => .output
  | .ale _ => .output
  | .cle _ => .output
  | .ce _ _ => .output
  | .wp _ => .output
  | .rb _ => .input
  | .pet _ _ => .differential
  | .per _ _ => .differential
  | .refclk _ _ => .differential
  | .klRx _ _ _ => .differential
  | .klTx _ _ _ => .differential
  | .perst _ => .input
  | .clkreq _ => .openDrain
  | .klRst n => if s.yard && n == 0 then .input else .output
  | .klPres _ => .input
  | .vin => .power
  | .huBank => .power
  | .nven _ => .output
  | .npg _ => .input
  | .scl _ => .openDrain
  | .sda _ => .openDrain
  | .alert _ => .openDrain
  | .pwrdis => .input
  | .dualportEn => .input
  | .actLed => .openDrain
  | .fault => .openDrain
  | .mast => .input
  | .cascPos _ => .input
  | .testEn => .input
  | .tck => .input
  | .tms => .input
  | .tdi => .input
  | .tdo => .output
  | .trst => .input
  | .td _ => .analog
  | .vauxOut => .power
  | .dnc => .none
  | .gnd => .power

/-- Reset domain of a ball (R177): flash-channel and NVEN balls are in MEDIA, KLn balls in KEAKA, the strap and presence
latches in RET.  The table names no domain for the other low-speed balls: those of a PCIe port are taken to be in its PORT,
the boundary-scan port in AO, the rest in MGMT (DEDUCED, log entry 97). -/
def ballDomain (x : Signal) : Domain :=
  match x with
  | .dq _ _ => .media
  | .dqs _ _ => .media
  | .re _ _ => .media
  | .we _ => .media
  | .ale _ => .media
  | .cle _ => .media
  | .ce _ _ => .media
  | .wp _ => .media
  | .rb _ => .media
  | .nven _ => .media
  | .npg _ => .media
  | .pet n _ => if n < 8 then .port0 else .port1
  | .per n _ => if n < 8 then .port0 else .port1
  | .refclk n _ => if n = 0 then .port0 else .port1
  | .perst n => if n = 0 then .port0 else .port1
  | .clkreq n => if n = 0 then .port0 else .port1
  | .klRx _ _ _ => .keaka
  | .klTx _ _ _ => .keaka
  | .klRst _ => .keaka
  | .klPres _ => .ret
  | .mast => .ret
  | .cascPos _ => .ret
  | .testEn => .ret
  | .dualportEn => .ret
  | .tck => .ao
  | .tms => .ao
  | .tdi => .ao
  | .tdo => .ao
  | .trst => .ao
  | .vin => .ao
  | .huBank => .ao
  | .vauxOut => .ao
  | _ => .mgmt

/-- Number of a ball, the bit by which a boundary-scan value names it. -/
def ballIndex (row col : Nat) : Nat := 48 * (row - 1) + (col - 1)

/-- The boundary-scan register has a cell for the ball: flash-channel signals and 3.3 V signals, but not the port's own
five balls, which IEEE 1149.1 gives no cell (R133). -/
def hasCell (row col : Nat) : Bool :=
  match ballGroup row col with
  | .flash => ballSignal row col != .gnd
  | .pcieSideband => true
  | .keakaSideband => true
  | .nandPower => true
  | .sideband => true
  | .connector => true
  | .strap => true
  | _ => false

/-- Levels as the boundary-scan register captures them: only its cells (R133, R135). -/
def cellsOf (levels : Nat) : Nat :=
  ((List.range 2304).filter fun i => hasCell (i / 48 + 1) (i % 48 + 1) && levels.testBit i).foldl (fun n i => n + 2 ^ i) 0

/-! ### Levels -/

/-- What a ball shows. -/
inductive PadLevel where
  | highZ | low | high
  deriving DecidableEq, Repr

/-- The state a fuse code sets at release; 0b11 is treated as 0b00 (R109). -/
def padOfCode (c : BitVec 2) : PadLevel := if c = 1 then .low else if c = 2 then .high else .highZ

/-- The balls of a domain are high-impedance: a reset that reaches it is asserted, or VIN is absent (R108, R112). -/
def released (s : State) (d : Domain) : Bool := s.power.dark || s.isHeld d

/-- ACT_LED# (R109, R127): its owner enables it where it is driven, and where the mode says it is high-impedance. -/
def actLedBall (s : State) : PadLevel :=
  if released s .mgmt then .highZ
  else match s.mode with
    | .hold => .highZ
    | .start => .highZ
    | .flush => .highZ
    | .thermalHalt => .highZ
    | _ => if s.nvme.act_led then .low else padOfCode s.pad.resetMap.led_fault

/-- FAULT# (R109, R128). -/
def faultBall (s : State) : PadLevel :=
  if released s .mgmt then .highZ
  else match s.mode with
    | .hold => .highZ
    | .readOnly => .low
    | .thermalHalt => .low
    | _ => if s.mgmt.modeStatus.start_fail ≠ 0 ∨ s.nvme.ctrl0.cfs ∨ s.nvme.ctrl1.cfs then .low
           else padOfCode s.pad.resetMap.led_fault

/-- NVEN of pair `p` (R109, R151, R156): high-impedance in Hold. -/
def nvenBall (s : State) (p : Nat) : PadLevel :=
  if released s .media then .highZ
  else match s.mode with
    | .hold => .highZ
    | _ => if s.pwr.pairStatus.nven.getLsbD p then .high else padOfCode s.pad.resetMap.nven

/-- The outputs of channel `c` may leave high-impedance: NPG of its pair has been high for 2^20 motes (R110, R111). -/
def channelDriven (s : State) (c : Nat) : Bool :=
  let x := s.pair (c / 6)
  !released s .media && s.pwr.pairStatus.npg.getLsbD (c / 6) && (x.phase == .settled || x.phase == .discovered)

/-- An output of channel `c` until its sequencer drives it: its fuse code (R109, R110). -/
def channelOutput (s : State) (c : Nat) (code : BitVec 2) : PadLevel := if channelDriven s c then padOfCode code else .highZ

/-- KLn_RST#: an output on the masthead, and of link 1 on a yard, where KL0_RST# is an input (R119, R181). -/
def keakaResetBall (s : State) (n : Nat) : PadLevel :=
  if released s .keaka || (s.yard && n == 0) then .highZ
  else if (s.link n).rst_low then padOfCode s.pad.resetMap.kl_rst else .high

/-- The level that a reset domain and its owner give an output; none for a ball that is not a logic output. -/
def ownLevel (s : State) (x : Signal) : Option PadLevel :=
  match x with
  | .dq c _ => some (channelOutput s c s.pad.resetMap.ch_other)
  | .dqs c _ => some (channelOutput s c s.pad.resetMap.ch_other)
  | .re c _ => some (channelOutput s c s.pad.resetMap.ch_other)
  | .we c => some (channelOutput s c s.pad.resetMap.ch_other)
  | .ale c => some (channelOutput s c s.pad.resetMap.ch_other)
  | .cle c => some (channelOutput s c s.pad.resetMap.ch_other)
  | .ce c _ => some (channelOutput s c s.pad.resetMap.ch_ce)
  | .wp c => some (channelOutput s c s.pad.resetMap.ch_wp)
  | .nven p => some (nvenBall s p)
  | .clkreq n => some (if released s (ballDomain x) || s.yard && decide (n < 2) then .highZ else padOfCode s.pad.resetMap.clkreq)
  | .klRst n => some (keakaResetBall s n)
  | .scl _ => some .highZ
  | .sda _ => some .highZ
  | .alert _ => some .highZ
  | .actLed => some (actLedBall s)
  | .fault => some (faultBall s)
  | .tdo => some (if released s .ao then .highZ else padOfCode s.pad.resetMap.tdo)
  | _ => none

/-- The instructions of the boundary-scan port. -/
inductive TapInstr where
  | extest | idcode | samplePreload | clamp | highz | bypass
  deriving DecidableEq, Repr

/-- The instruction an opcode selects (table "Boundary-scan instructions"); outside test mode only BYPASS, IDCODE and
SAMPLE/PRELOAD are offered, and every other opcode decodes as BYPASS (R121, R134). -/
def tapDecode (test : Bool) (ir : BitVec 8) : TapInstr :=
  if ir = 0x01 then .idcode
  else if ir = 0x02 then .samplePreload
  else if !test then .bypass
  else if ir = 0x00 then .extest
  else if ir = 0x04 then .clamp
  else if ir = 0x05 then .highz
  else .bypass

/-- The instruction in force at the boundary-scan port. -/
def State.tap (s : State) : TapInstr := tapDecode s.pad.strapStatus.test_en s.pads.ir

/-- What an output ball shows: its own level, or what the boundary-scan port drives under EXTEST and CLAMP, or
high-impedance under HIGHZ, as IEEE 1149.1 defines them (R108, R109, R112, R133, R134). -/
def ballLevel (s : State) (row col : Nat) : Option PadLevel :=
  let own := ownLevel s (ballSignal row col)
  let cell := if s.pads.scan_drive.testBit (ballIndex row col) then
      (if s.pads.scan_level.testBit (ballIndex row col) then .high else .low) else PadLevel.highZ
  if !hasCell row col || s.power.dark then own
  else match s.tap with
    | .extest => own.map fun _ => cell
    | .clamp => own.map fun _ => cell
    | .highz => own.map fun _ => .highZ
    | _ => own

/-- VAUX_OUT is powered (R114). -/
def vauxOut (s : State) : Bool := s.power.vaux

end Sys2Proof.Machine
end

