-- ==== Sys2Proof/Machine/TestPort.lean ====
section
/-!
DEFINITION. The boundary-scan port (R121, R133 to R135) and ACT_LED# (R127).
-/

namespace Sys2Proof.Machine

/-- Load the instruction register with an opcode (R134); the one-bit bypass register captures 0. -/
def loadInstruction (opcode : BitVec 8) (s : State) : State :=
  if s.power.dark then s
  else
    let s := { s with pads.ir := opcode }
    match s.tap with
    | .bypass => { s with pads.scan := 0 }
    | .clamp => { s with pads.scan := 0 }
    | .highz => { s with pads.scan := 0 }
    | _ => s

/-- Value that the TAP shifts out under IDCODE (R140). -/
def idcodeValue (s : State) : Nat := ((readReg s 0x02 0x8).getD (32, 0)).2

/-- TAP_RESET (R134): TRST# low, or five TCK cycles with TMS high, selects IDCODE. -/
def execTapReset (s : State) : Host.Outcome State Fault Refusal := .next (loadInstruction 0x01 s)

/-- EXTEST (R121, R134): in test mode the preloaded cells drive their balls. -/
def execExtest (s : State) : Host.Outcome State Fault Refusal := .next (loadInstruction 0x00 s)

/-- IDCODE (R134, R140): the value of PAD_IDCODE is captured and shifted out. -/
def execIdcode (s : State) : Host.Outcome State Fault Refusal :=
  if s.power.dark then .next s
  else .next (say (.scanOut (idcodeValue s)) { loadInstruction 0x01 s with pads.scan := idcodeValue s })

/-- SAMPLE/PRELOAD (R133, R135): the levels at the balls are captured in the boundary-scan register and shifted out while
the values for its cells are shifted in; in any mode, and nothing else changes. -/
def execSamplePreload (scan : ScanShift) (s : State) : Host.Outcome State Fault Refusal :=
  if s.power.dark then .next s
  else .next (say (.scanOut (cellsOf scan.levels)) { loadInstruction 0x02 s with
    pads.scan := cellsOf scan.levels
    pads.scan_level := scan.level
    pads.scan_drive := scan.drive })

/-- CLAMP (R121, R134): in test mode the preloaded cells hold their balls. -/
def execClampTap (s : State) : Host.Outcome State Fault Refusal := .next (loadInstruction 0x04 s)

/-- HIGHZ (R121, R134): in test mode every output with a cell is high-impedance. -/
def execHighz (s : State) : Host.Outcome State Fault Refusal := .next (loadInstruction 0x05 s)

/-- BYPASS (R134). -/
def execBypass (s : State) : Host.Outcome State Fault Refusal := .next (loadInstruction 0xFF s)

/-- ACT_LED_TIMEOUT (R127). -/
def execActLedTimeout (s : State) : Host.Outcome State Fault Refusal :=
  if s.due .actLed 0 then .next { disarm .actLed 0 s with nvme.act_led := false } else .next s

end Sys2Proof.Machine
end

