-- ==== Sys2Proof/Machine/Dispatch.lean ====
section
/-!
DEFINITION. What each command does: one arm per constructor of Instr, each one call of its meaning.
-/

namespace Sys2Proof.Machine

def exec (i : Instr) (s : State) : Host.Outcome State Fault Refusal :=
  match i with
  | .coldPowerOn => Sys2Proof.Machine.execColdPowerOn s
  | .railPowerUpStep => Sys2Proof.Machine.execRailPowerUpStep s
  | .railPowerGoodTimeout rail => Sys2Proof.Machine.execRailPowerGoodTimeout rail s
  | .railRetryTimer => Sys2Proof.Machine.execRailRetryTimer s
  | .powerOnResetRelease balls => Sys2Proof.Machine.execPowerOnResetRelease balls s
  | .strapChangeDetected levels => Sys2Proof.Machine.execStrapChangeDetected levels s
  | .vinFallDark => Sys2Proof.Machine.execVinFallDark s
  | .vinOvervoltage => Sys2Proof.Machine.execVinOvervoltage s
  | .powerLossDetected => Sys2Proof.Machine.execPowerLossDetected s
  | .pwrdisAssert => Sys2Proof.Machine.execPwrdisAssert s
  | .pwrdisDeassert => Sys2Proof.Machine.execPwrdisDeassert s
  | .spillRecordWritten ok => Sys2Proof.Machine.execSpillRecordWritten ok s
  | .flushEnd => Sys2Proof.Machine.execFlushEnd s
  | .bankBelowVmin => Sys2Proof.Machine.execBankBelowVmin s
  | .vinReturnInFlush => Sys2Proof.Machine.execVinReturnInFlush s
  | .vinReturnInHold => Sys2Proof.Machine.execVinReturnInHold s
  | .railFault rail => Sys2Proof.Machine.execRailFault rail s
  | .pairEnableStagger => Sys2Proof.Machine.execPairEnableStagger s
  | .npgSettled pair => Sys2Proof.Machine.execNpgSettled pair s
  | .npgTimeout pair => Sys2Proof.Machine.execNpgTimeout pair s
  | .npgLoss pair => Sys2Proof.Machine.execNpgLoss pair s
  | .pairRetryTimer pair => Sys2Proof.Machine.execPairRetryTimer pair s
  | .bankTargetReached => Sys2Proof.Machine.execBankTargetReached s
  | .bankChargeRestart => Sys2Proof.Machine.execBankChargeRestart s
  | .bankOvervoltage => Sys2Proof.Machine.execBankOvervoltage s
  | .bankTestInterval => Sys2Proof.Machine.execBankTestInterval s
  | .bankMeasureDone v1 v2 => Sys2Proof.Machine.execBankMeasureDone v1 v2 s
  | .allowanceUpdate bank_mv vin_mv => Sys2Proof.Machine.execAllowanceUpdate bank_mv vin_mv s
  | .chargeTimeout => Sys2Proof.Machine.execChargeTimeout s
  | .ledgerAdmit => Sys2Proof.Machine.execLedgerAdmit s
  | .starvationCeilingReached arbiter => Sys2Proof.Machine.execStarvationCeilingReached arbiter s
  | .holdResetRelease => Sys2Proof.Machine.execHoldResetRelease s
  | .domainRelease d => Sys2Proof.Machine.execDomainRelease d s
  | .clockNotReady d => Sys2Proof.Machine.execClockNotReady d s
  | .clockLoss d => Sys2Proof.Machine.execClockLoss d s
  | .pllLockRetry d locked => Sys2Proof.Machine.execPllLockRetry d locked s
  | .startStepComplete report => Sys2Proof.Machine.execStartStepComplete report s
  | .perst0Assert => Sys2Proof.Machine.execPerst0Assert s
  | .perst1Assert => Sys2Proof.Machine.execPerst1Assert s
  | .nvmSubsystemReset ctrl value => Sys2Proof.Machine.execNvmSubsystemReset ctrl value s
  | .kl0RstAssert => Sys2Proof.Machine.execKl0RstAssert s
  | .l4ReachAsserted => Sys2Proof.Machine.execL4ReachAsserted s
  | .watchdogStage1 core => Sys2Proof.Machine.execWatchdogStage1 core s
  | .watchdogStage2 core => Sys2Proof.Machine.execWatchdogStage2 core s
  | .bootArrayRequest => Sys2Proof.Machine.execBootArrayRequest s
  | .bootArrayPulseDone verified => Sys2Proof.Machine.execBootArrayPulseDone verified s
  | .recoveryImage image => Sys2Proof.Machine.execRecoveryImage image s
  | .ptmDialogInterval => Sys2Proof.Machine.execPtmDialogInterval s
  | .ptmResponse times => Sys2Proof.Machine.execPtmResponse times s
  | .ptmResponseTimeout => Sys2Proof.Machine.execPtmResponseTimeout s
  | .holdoverExpiry => Sys2Proof.Machine.execHoldoverExpiry s
  | .clampEnd => Sys2Proof.Machine.execClampEnd s
  | .reservationWriteDone => Sys2Proof.Machine.execReservationWriteDone s
  | .campIssueRead port => Sys2Proof.Machine.execCampIssueRead port s
  | .campRedialog => Sys2Proof.Machine.execCampRedialog s
  | .campEpochOffsetWrite value => Sys2Proof.Machine.execCampEpochOffsetWrite value s
  | .wideRegisterLowerRead port offset => Sys2Proof.Machine.execWideRegisterLowerRead port offset s
  | .registerWrite agent offset bytes value => Sys2Proof.Machine.execRegisterWrite agent offset bytes value s
  | .actLedTimeout => Sys2Proof.Machine.execActLedTimeout s
  | .tapReset => Sys2Proof.Machine.execTapReset s
  | .extest => Sys2Proof.Machine.execExtest s
  | .idcode => Sys2Proof.Machine.execIdcode s
  | .samplePreload scan => Sys2Proof.Machine.execSamplePreload scan s
  | .clampTap => Sys2Proof.Machine.execClampTap s
  | .highz => Sys2Proof.Machine.execHighz s
  | .bypass => Sys2Proof.Machine.execBypass s
  | .basicManagementRead port => Sys2Proof.Machine.execBasicManagementRead port s
  | .readNvmeMiDataStructure port kind => Sys2Proof.Machine.execReadNvmeMiDataStructure port kind s
  | .configurationGet port id => Sys2Proof.Machine.execConfigurationGet port id s
  | .configurationSet port id value => Sys2Proof.Machine.execConfigurationSet port id value s
  | .subsystemHealthStatusPoll port clear => Sys2Proof.Machine.execSubsystemHealthStatusPoll port clear s
  | .controllerHealthStatusPoll port ctrl clear => Sys2Proof.Machine.execControllerHealthStatusPoll port ctrl clear s
  | .tunnelledAdminCommand port sqe data => Sys2Proof.Machine.execTunnelledAdminCommand port sqe data s
  | .nvmeMiSubsystemReset port => Sys2Proof.Machine.execNvmeMiSubsystemReset port s
  | .nvmeMiInvalidOpcode port opcode => Sys2Proof.Machine.execNvmeMiInvalidOpcode port opcode s
  | .manifestTransfer entry data => Sys2Proof.Machine.execManifestTransfer entry data s
  | .manifestInstall entry => Sys2Proof.Machine.execManifestInstall entry s
  | .hotResetOrLinkDown port down => Sys2Proof.Machine.execHotResetOrLinkDown port down s
  | .busMasterEnableClear port => Sys2Proof.Machine.execBusMasterEnableClear port s
  | .busMasterEnableSet port => Sys2Proof.Machine.execBusMasterEnableSet port s
  | .initiateFlr port => Sys2Proof.Machine.execInitiateFlr port s
  | .flrComplete port => Sys2Proof.Machine.execFlrComplete port s
  | .d3hotEntry port => Sys2Proof.Machine.execD3hotEntry port s
  | .configWrite port field => Sys2Proof.Machine.execConfigWrite port field s
  | .bar0Access port offset bytes data => Sys2Proof.Machine.execBar0Access port offset bytes data s
  | .cmbRead port offset len => Sys2Proof.Machine.execCmbRead port offset len s
  | .cmbWrite port offset data enables => Sys2Proof.Machine.execCmbWrite port offset data enables s
  | .msixTableAccess port offset bytes data => Sys2Proof.Machine.execMsixTableAccess port offset bytes data s
  | .cmbWindowWrite slot value => Sys2Proof.Machine.execCmbWindowWrite slot value s
  | .cmbFenceEnd slot => Sys2Proof.Machine.execCmbFenceEnd slot s
  | .readCompletionReceived port tag outcome data => Sys2Proof.Machine.execReadCompletionReceived port tag outcome data s
  | .completionTimeout port tag => Sys2Proof.Machine.execCompletionTimeout port tag s
  | .tagQuarantineExpiry port tag => Sys2Proof.Machine.execTagQuarantineExpiry port tag s
  | .poisonedWriteReceived port bar bytes => Sys2Proof.Machine.execPoisonedWriteReceived port bar bytes s
  | .malformedTlpReceived port => Sys2Proof.Machine.execMalformedTlpReceived port s
  | .linkCorrectableError port kind => Sys2Proof.Machine.execLinkCorrectableError port kind s
  | .endpointInternalError port => Sys2Proof.Machine.execEndpointInternalError port s
  | .sqTailDoorbell ctrl sqid tail => Sys2Proof.Machine.execSqTailDoorbell ctrl sqid tail s
  | .cqHeadDoorbell ctrl cqid head => Sys2Proof.Machine.execCqHeadDoorbell ctrl cqid head s
  | .controllerEnable ctrl cc => Sys2Proof.Machine.execControllerEnable ctrl cc s
  | .controllerReset ctrl => Sys2Proof.Machine.execControllerReset ctrl s
  | .shutdownNormal ctrl => Sys2Proof.Machine.execShutdownNormal ctrl s
  | .shutdownAbrupt ctrl => Sys2Proof.Machine.execShutdownAbrupt ctrl s
  | .sqEntryFetch ctrl sqid fetched => Sys2Proof.Machine.execSqEntryFetch ctrl sqid fetched s
  | .sliceAdmit entry => Sys2Proof.Machine.execSliceAdmit entry s
  | .pieceHeld entry slice piece => Sys2Proof.Machine.execPieceHeld entry slice piece s
  | .commandComplete entry => Sys2Proof.Machine.execCommandComplete entry s
  | .createIoCompletionQueue entry => Sys2Proof.Machine.execCreateIoCompletionQueue entry s
  | .createIoSubmissionQueue entry => Sys2Proof.Machine.execCreateIoSubmissionQueue entry s
  | .deleteIoSubmissionQueue entry => Sys2Proof.Machine.execDeleteIoSubmissionQueue entry s
  | .deleteIoCompletionQueue entry => Sys2Proof.Machine.execDeleteIoCompletionQueue entry s
  | .getLogPage entry => Sys2Proof.Machine.execGetLogPage entry s
  | .identify entry => Sys2Proof.Machine.execIdentify entry s
  | .abortCommand entry => Sys2Proof.Machine.execAbortCommand entry s
  | .getFeatures entry => Sys2Proof.Machine.execGetFeatures entry s
  | .setFeaturesArbitration entry => Sys2Proof.Machine.execSetFeaturesArbitration entry s
  | .setFeaturesPowerManagement entry => Sys2Proof.Machine.execSetFeaturesPowerManagement entry s
  | .setFeaturesTemperatureThreshold entry => Sys2Proof.Machine.execSetFeaturesTemperatureThreshold entry s
  | .setFeaturesNumberOfQueues entry => Sys2Proof.Machine.execSetFeaturesNumberOfQueues entry s
  | .setFeaturesInterruptCoalescing entry => Sys2Proof.Machine.execSetFeaturesInterruptCoalescing entry s
  | .setFeaturesInterruptVectorConfig entry => Sys2Proof.Machine.execSetFeaturesInterruptVectorConfig entry s
  | .setFeaturesWriteAtomicity entry => Sys2Proof.Machine.execSetFeaturesWriteAtomicity entry s
  | .setFeaturesAsyncEventConfig entry => Sys2Proof.Machine.execSetFeaturesAsyncEventConfig entry s
  | .setFeaturesPlmConfig entry data => Sys2Proof.Machine.execSetFeaturesPlmConfig entry data s
  | .setFeaturesPlmWindow entry => Sys2Proof.Machine.execSetFeaturesPlmWindow entry s
  | .setFeaturesHostIdentifier entry data => Sys2Proof.Machine.execSetFeaturesHostIdentifier entry data s
  | .setFeaturesReservationNotifMask entry => Sys2Proof.Machine.execSetFeaturesReservationNotifMask entry s
  | .setFeaturesReservationPersistence entry => Sys2Proof.Machine.execSetFeaturesReservationPersistence entry s
  | .setFeaturesUnsupported entry => Sys2Proof.Machine.execSetFeaturesUnsupported entry s
  | .asynchronousEventRequest entry => Sys2Proof.Machine.execAsynchronousEventRequest entry s
  | .namespaceCreate entry data => Sys2Proof.Machine.execNamespaceCreate entry data s
  | .namespaceDelete entry => Sys2Proof.Machine.execNamespaceDelete entry s
  | .namespaceAttachment entry data => Sys2Proof.Machine.execNamespaceAttachment entry data s
  | .firmwareImageDownload entry data => Sys2Proof.Machine.execFirmwareImageDownload entry data s
  | .firmwareCommitWrite entry => Sys2Proof.Machine.execFirmwareCommitWrite entry s
  | .firmwareCommitWriteActivate entry => Sys2Proof.Machine.execFirmwareCommitWriteActivate entry s
  | .firmwareCommitActivate entry => Sys2Proof.Machine.execFirmwareCommitActivate entry s
  | .nvmeMiSend entry data => Sys2Proof.Machine.execNvmeMiSend entry data s
  | .nvmeMiReceive entry => Sys2Proof.Machine.execNvmeMiReceive entry s
  | .formatNvm entry => Sys2Proof.Machine.execFormatNvm entry s
  | .securityReceive entry => Sys2Proof.Machine.execSecurityReceive entry s
  | .opalSetLock entry range readLock writeLock => Sys2Proof.Machine.execOpalSetLock entry range readLock writeLock s
  | .opalSetRange entry range change => Sys2Proof.Machine.execOpalSetRange entry range change s
  | .opalGenkey entry range => Sys2Proof.Machine.execOpalGenkey entry range s
  | .opalRevert entry => Sys2Proof.Machine.execOpalRevert entry s
  | .opalAuthenticate entry authority pin => Sys2Proof.Machine.execOpalAuthenticate entry authority pin s
  | .tperReset entry => Sys2Proof.Machine.execTperReset entry s
  | .resumeQueue entry => Sys2Proof.Machine.execResumeQueue entry s
  | .invalidCommandOpcode entry => Sys2Proof.Machine.execInvalidCommandOpcode entry s
  | .ioFlush entry => Sys2Proof.Machine.execIoFlush entry s
  | .ioWrite entry ptr => Sys2Proof.Machine.execIoWrite entry ptr s
  | .ioRead entry ptr => Sys2Proof.Machine.execIoRead entry ptr s
  | .ioCompare entry ptr => Sys2Proof.Machine.execIoCompare entry ptr s
  | .ioWriteZeroes entry => Sys2Proof.Machine.execIoWriteZeroes entry s
  | .datasetManagement entry data => Sys2Proof.Machine.execDatasetManagement entry data s
  | .ioVerify entry => Sys2Proof.Machine.execIoVerify entry s
  | .reservationRegister entry data => Sys2Proof.Machine.execReservationRegister entry data s
  | .reservationReport entry => Sys2Proof.Machine.execReservationReport entry s
  | .reservationAcquire entry data => Sys2Proof.Machine.execReservationAcquire entry data s
  | .reservationRelease entry data => Sys2Proof.Machine.execReservationRelease entry data s
  | .stripePadAge => Sys2Proof.Machine.execStripePadAge s
  | .programComplete op ok => Sys2Proof.Machine.execProgramComplete op ok s
  | .stripeApply serial => Sys2Proof.Machine.execStripeApply serial s
  | .stayPageFlushAge => Sys2Proof.Machine.execStayPageFlushAge s
  | .stayPageDurable => Sys2Proof.Machine.execStayPageDurable s
  | .stayRepairDone => Sys2Proof.Machine.execStayRepairDone s
  | .mapPageArrival page => Sys2Proof.Machine.execMapPageArrival page s
  | .mapPageWritebackAge page => Sys2Proof.Machine.execMapPageWritebackAge page s
  | .checkpointInterval => Sys2Proof.Machine.execCheckpointInterval s
  | .checkpointComplete => Sys2Proof.Machine.execCheckpointComplete s
  | .foldAge reef => Sys2Proof.Machine.execFoldAge reef s
  | .streamEnd stream => Sys2Proof.Machine.execStreamEnd stream s
  | .countsReady => Sys2Proof.Machine.execCountsReady s
  | .reclaimVictimSelect => Sys2Proof.Machine.execReclaimVictimSelect s
  | .eraseIssue block => Sys2Proof.Machine.execEraseIssue block s
  | .eraseComplete op ok => Sys2Proof.Machine.execEraseComplete op ok s
  | .idleDetect => Sys2Proof.Machine.execIdleDetect s
  | .dtwinTimeout => Sys2Proof.Machine.execDtwinTimeout s
  | .channelRetrain channel => Sys2Proof.Machine.execChannelRetrain channel s
  | .channelTrainingDone channel ok => Sys2Proof.Machine.execChannelTrainingDone channel ok s
  | .discoveryComplete pair found => Sys2Proof.Machine.execDiscoveryComplete pair found s
  | .sequencerGrant channel => Sys2Proof.Machine.execSequencerGrant channel s
  | .readSenseComplete op frames => Sys2Proof.Machine.execReadSenseComplete op frames s
  | .hardDecodeComplete op results => Sys2Proof.Machine.execHardDecodeComplete op results s
  | .softDecodeComplete op results => Sys2Proof.Machine.execSoftDecodeComplete op results s
  | .suspendComplete die => Sys2Proof.Machine.execSuspendComplete die s
  | .suspendResume die => Sys2Proof.Machine.execSuspendResume die s
  | .dieOpTimeout op => Sys2Proof.Machine.execDieOpTimeout op s
  | .lunResetReady die => Sys2Proof.Machine.execLunResetReady die s
  | .lunResetTimeout die => Sys2Proof.Machine.execLunResetTimeout die s
  | .becalmedReadTimeout op => Sys2Proof.Machine.execBecalmedReadTimeout op s
  | .probeInterval die => Sys2Proof.Machine.execProbeInterval die s
  | .rebuildStripeVisit => Sys2Proof.Machine.execRebuildStripeVisit s
  | .reshapeCutover => Sys2Proof.Machine.execReshapeCutover s
  | .thermalModelStep power => Sys2Proof.Machine.execThermalModelStep power s
  | .thermalCalibration diodes ext => Sys2Proof.Machine.execThermalCalibration diodes ext s
  | .throttleTest => Sys2Proof.Machine.execThrottleTest s
  | .clockLevelEffective => Sys2Proof.Machine.execClockLevelEffective s
  | .thermalHaltEntryComplete => Sys2Proof.Machine.execThermalHaltEntryComplete s
  | .handshakeReply code refuse => Sys2Proof.Machine.execHandshakeReply code refuse s
  | .handshakeTimeout => Sys2Proof.Machine.execHandshakeTimeout s
  | .patrolReturnStep => Sys2Proof.Machine.execPatrolReturnStep s
  | .patrolWake => Sys2Proof.Machine.execPatrolWake s
  | .patrolSampleEnd => Sys2Proof.Machine.execPatrolSampleEnd s
  | .gcmMessageDone lane auth auth_n => Sys2Proof.Machine.execGcmMessageDone lane auth auth_n s
  | .digestDone context same same_n => Sys2Proof.Machine.execDigestDone context same same_n s
  | .signatureVerifyDone valid valid_n => Sys2Proof.Machine.execSignatureVerifyDone valid valid_n s
  | .scrubPassStart range => Sys2Proof.Machine.execScrubPassStart range s
  | .scrubWordRead range address valid outcome => Sys2Proof.Machine.execScrubWordRead range address valid outcome s
  | .teaselSearch search error => Sys2Proof.Machine.execTeaselSearch search error s
  | .teaselSearchInsert entry => Sys2Proof.Machine.execTeaselSearchInsert entry s
  | .teaselOrderedInsert entry => Sys2Proof.Machine.execTeaselOrderedInsert entry s
  | .teaselFreeSlotInsert group entry => Sys2Proof.Machine.execTeaselFreeSlotInsert group entry s
  | .teaselRingInsert entry => Sys2Proof.Machine.execTeaselRingInsert entry s
  | .teaselRemoveByAddress address => Sys2Proof.Machine.execTeaselRemoveByAddress address s
  | .teaselRemoveByMatch search => Sys2Proof.Machine.execTeaselRemoveByMatch search s
  | .teaselShiftMove => Sys2Proof.Machine.execTeaselShiftMove s
  | .teaselProbe address => Sys2Proof.Machine.execTeaselProbe address s
  | .keakaLinkTrainingStep link width => Sys2Proof.Machine.execKeakaLinkTrainingStep link width s
  | .frameReceiveError link kind => Sys2Proof.Machine.execFrameReceiveError link kind s
  | .identFrame link frame ident => Sys2Proof.Machine.execIdentFrame link frame ident s
  | .linkControl link frame nak => Sys2Proof.Machine.execLinkControl link frame nak s
  | .timeRequest link frame t1 => Sys2Proof.Machine.execTimeRequest link frame t1 s
  | .timeResponse link frame response => Sys2Proof.Machine.execTimeResponse link frame response s
  | .yardTimeDialogInterval => Sys2Proof.Machine.execYardTimeDialogInterval s
  | .floorReport link frame stamp => Sys2Proof.Machine.execFloorReport link frame stamp s
  | .floorSet link frame stamp => Sys2Proof.Machine.execFloorSet link frame stamp s
  | .sliceOpen link frame slice => Sys2Proof.Machine.execSliceOpen link frame slice s
  | .writeData link frame ns_unit data => Sys2Proof.Machine.execWriteData link frame ns_unit data s
  | .sliceStatus link frame status => Sys2Proof.Machine.execSliceStatus link frame status s
  | .releaseFrame link frame pieces => Sys2Proof.Machine.execReleaseFrame link frame pieces s
  | .abortFrame link frame => Sys2Proof.Machine.execAbortFrame link frame s
  | .readRequest link frame slice => Sys2Proof.Machine.execReadRequest link frame slice s
  | .readData link frame ns_unit data => Sys2Proof.Machine.execReadData link frame ns_unit data s
  | .readStatus link frame status => Sys2Proof.Machine.execReadStatus link frame status s
  | .recordFrame link frame record => Sys2Proof.Machine.execRecordFrame link frame record s
  | .adminForward link frame op => Sys2Proof.Machine.execAdminForward link frame op s
  | .adminResult link frame status dw0 => Sys2Proof.Machine.execAdminResult link frame status dw0 s
  | .powerStateRequest link frame target back => Sys2Proof.Machine.execPowerStateRequest link frame target back s
  | .powerStateReply link frame refusal => Sys2Proof.Machine.execPowerStateReply link frame refusal s
  | .eventForward link frame report => Sys2Proof.Machine.execEventForward link frame report s
  | .heartbeat link frame => Sys2Proof.Machine.execHeartbeat link frame s
  | .keakaHeartbeatSend link => Sys2Proof.Machine.execKeakaHeartbeatSend link s
  | .keakaAckTimeout link => Sys2Proof.Machine.execKeakaAckTimeout link s
  | .keakaLaneLockLoss link => Sys2Proof.Machine.execKeakaLaneLockLoss link s
  | .keakaLinkTimeout link => Sys2Proof.Machine.execKeakaLinkTimeout link s
  | .keakaJoinTimeout => Sys2Proof.Machine.execKeakaJoinTimeout s
  | .errorHandlingEnd => Sys2Proof.Machine.execErrorHandlingEnd s
  | .coalescingTimer ctrl cqid => Sys2Proof.Machine.execCoalescingTimer ctrl cqid s
  | .pcieLinkUp port width speed flit => Sys2Proof.Machine.execPcieLinkUp port width speed flit s
  | .securitySend entry call => Sys2Proof.Machine.execSecuritySend entry call s

end Sys2Proof.Machine
end

