-- ==== Sys2Proof/Safety.lean ====
section
/-!
DEFINITION. What counts as a sound state and a safe step: memory in its canonical form (R666), the event ring, the
error handler and the error logs within what chapter 20 gives them, and a step that goes on.
-/

namespace Sys2Proof.Machine

/-- Every byte memory has its canonical form: addresses strictly rising, no zero byte listed. -/
def State.memoryWf (s : State) : Bool :=
  Cells.wf s.ep.cmb && Cells.wf s.manifest.staging && Cells.wf s.boot.fw_staging && Cells.wf s.security.datastore

/-- Every entry of the event ring lies in the slot of its sequence number (R745). -/
def State.ringWf (s : State) : Bool := s.events.ring.all fun p => p.2.seq % 4096 == p.1

/-- Slot 1 of the error handler is used only behind slot 0, and errors are held only behind slot 1 (R757 to R759). -/
def State.handlerWf (s : State) : Bool :=
  (s.events.slot0.isSome || s.events.slot1.isNone) && (s.events.slot1.isSome || s.events.held.isEmpty)

/-- No Error Information log holds more than 256 entries (R753). -/
def State.errorLogsWf (s : State) : Bool :=
  decide (s.nvme.ctrl0.error_log.length ≤ 256) && decide (s.nvme.ctrl1.error_log.length ≤ 256)

/-- The invariant of every step, for a state whose queue is `q`. -/
def Sound (q : List Instr) (s : State) : Prop :=
  s.pending = q ∧ s.memoryWf = true ∧ s.ringWf = true ∧ s.handlerWf = true ∧ s.errorLogsWf = true

/-- The state without what the recording of events and the sending of messages changes: the stamp issue and its reservation
(R62 to R65, R83), the event ring, its armed interrupt and its counts (R745 to R750), outstanding Asynchronous Event
Requests and the in-flight entries they hold (R752), pending interrupt bits (R283), messages sent, and what a yard's report
leaves on its links (R713, R737). -/
def State.unrecorded (s : State) : State :=
  { s with
    time.last := 0
    time.preseed := []
    time.waiting := []
    time.reserving := none
    timers := s.timers.filter fun t => !(t.kind == .kkAck || t.kind == .kkHeartbeat)
    camp.reserve := 0
    camp.status.preseed_overflow := false
    reset_ctl.retention.reservation := 0
    shroud.header_reserve := 0
    evt.ringSeq := 0
    evt.overflow := 0
    evt.irq.armed := false
    events.ring := []
    nvme.ctrl0.aer_requests := []
    nvme.ctrl0.aer_masked := []
    nvme.ctrl0.aer_pending := []
    nvme.ctrl1.aer_requests := []
    nvme.ctrl1.aer_masked := []
    nvme.ctrl1.aer_pending := []
    nvme.tracker := []
    ep.port0.pba := []
    ep.port1.pba := []
    keaka.link0.tx_seq := 0
    keaka.link0.replay := []
    keaka.link1.tx_seq := 0
    keaka.link1.replay := []
    out := [] }

/-- `t` is `s` but for what the recording of events and the sending of messages changes. -/
def Recorded (s t : State) : Prop := t.unrecorded = s.unrecorded

/-- A step that goes on: neither a fault nor a refusal. -/
def goesOn (o : Host.Outcome State Fault Refusal) : Prop := ∃ t, o = .next t

/-- An L4 of source `code` has begun its assertion steps from `s` (R183, R186): its bit of RST_CAUSE is set, it governs,
fetching has stopped, a handshake or return is abandoned, and the bound of 2^23 motes runs. -/
def BeginsL4 (code : Nat) (s : State) (o : Host.Outcome State Fault Refusal) : Prop :=
  ∃ t, o = .next t ∧ t.rst.cause = setBit s.rst.cause code true ∧
    t.rst.last.source = BitVec.ofNat 4 code ∧ t.rst.last.level = 4 ∧ t.rst.last.mode_at = BitVec.ofNat 4 s.mode.code ∧
    (∃ st : Stamped, t.reset_ctl.sequence = some { code := code, stamp := st, mode_at := s.mode } ∧ t.rst.lastStamp = st.stamp ∧
      t.rst.last.stamp_unanch = st.unanch) ∧
    t.nvme.ctrl0.fetch_stopped = true ∧ t.nvme.ctrl1.fetch_stopped = true ∧
    t.power_states.handshake = none ∧ t.power_states.returning = none ∧
    t.timer .l4Bound 0 = some ⟨.l4Bound, 0, s.h + 2 ^ 23⟩ ∧ t.mode = s.mode

end Sys2Proof.Machine
end

