-- ==== Sys2Proof/Certificates/Slice0/Obligations.lean ====
section
/-! DEFINITION. The statements about the block, chapter by chapter, for the provers. -/

open Sys2Proof Sys2Proof.Machine

/-! ### Chapter 2, Campion -/

/-- R62, R76: each stamp issued takes max(H, L + 1), L takes that value, and its anchor flag is 1 exactly while Campion is
unanchored. The reservation covers the stamp (R83), and issue changes nothing but what `Recorded` leaves out. -/
def Obligations.StampsRiseUnderReservation : Prop :=
  ∀ s : State, s.nextStamp + s.camp.reserveSpan.toNat < 2 ^ 64 →
    (issueNow s).1.stamp.toNat = max s.h (s.time.last + 1) ∧
    (issueNow s).2.time.last = max s.h (s.time.last + 1) ∧
    s.time.last < (issueNow s).2.time.last ∧
    (issueNow s).1.unanch = !s.camp.status.anchored ∧
    (issueNow s).1.stamp.toNat ≤ (issueNow s).2.camp.reserve.toNat ∧
    ((issueNow s).2.camp.reserve = s.camp.reserve ∨
      (issueNow s).2.reset_ctl.retention.reservation = (issueNow s).2.camp.reserve.toNat ∧
      (issueNow s).2.shroud.header_reserve = (issueNow s).2.camp.reserve.toNat) ∧
    Recorded s (issueNow s).2

/-- Frame of a source that asserts (R743 to R750): only what the recording of an event changes is changed, and a source that
is not enabled changes nothing. -/
def Obligations.RaisedEventOnlyRecords : Prop :=
  (∀ (n d : Nat) (b : Bytes) (s : State), Recorded s (raise n d b s)) ∧
  (∀ (n d : Nat) (b : Bytes) (s : State), s.sourceOn n = false → raise n d b s = s) ∧
  (∀ (n d : Nat) (b : Bytes) (s : State), (raise n d b s).mode = s.mode ∧ (raise n d b s).pending = s.pending ∧
    (raise n d b s).time.hq = s.time.hq ∧ (raise n d b s).nvme.namespaces = s.nvme.namespaces ∧
    (raise n d b s).shroud.stripes = s.shroud.stripes ∧ (raise n d b s).engine = s.engine)

/-- R59, R60: one oscillator cycle, which is what a step on an empty queue does (log entry 4), adds rate_adj's rate to H in
every mode but Hold, and counts the cycle for the watchdogs and the power-on hours; in Hold H stands. Beyond that only the
charges of the pairs are noted for the mean of the thermal step, and only while the model runs. -/
def Obligations.IdleCycleAdvancesTime : Prop :=
  ∀ s : State, s.pending = [] →
    (s.mode ≠ .hold → ∃ t, step s = .next t ∧ t.time = { s.time with hq := s.time.hq + rateOf s.camp.rateAdj.toInt } ∧
      t = { s with
        time := t.time
        reset_ctl.cycles := s.reset_ctl.cycles + 1
        health.counts.power_on_cycles := s.health.counts.power_on_cycles + 1
        thermal := t.thermal } ∧
      t.thermal = { s.thermal with pair_sum := t.thermal.pair_sum, pair_cycles := t.thermal.pair_cycles }) ∧
    (s.mode = .hold → ∃ t, step s = .next t ∧ t = { s with thermal := t.thermal } ∧
      t.thermal = { s.thermal with pair_sum := t.thermal.pair_sum, pair_cycles := t.thermal.pair_cycles }) ∧
    (s.thm.status.running = false → s.mode = .hold → step s = .next s)

/-- R69, R75, R98: the dialog interval, redialog, the timeout of a dialog and the end of holdover; a dialog that is still open
when another is attempted has failed and is counted. -/
def Obligations.DialogTimersAct : Prop :=
  (∀ (s : State) (n : Nat), s.due .ptmInterval 0 = true → dialogPort s = some n →
    exec .ptmDialogInterval s = .next (say (.ptmRequest n) (arm .ptmResponse 0 (2 ^ 22)
      { failDialog (arm .ptmInterval 0 s.camp.ptmInterval.toNat s) with time.dialog := some n, time.dialog_sent := s.run }))) ∧
  (∀ s : State, s.due .ptmInterval 0 = true → dialogPort s = none →
    exec .ptmDialogInterval s = .next (arm .ptmInterval 0 s.camp.ptmInterval.toNat s)) ∧
  (∀ (s : State) (n : Nat), s.isHeld .mgmt = false → s.yard = false → dialogPort s = some n →
    exec .campRedialog s = .next (say (.ptmRequest n) (arm .ptmResponse 0 (2 ^ 22)
      { failDialog (arm .ptmInterval 0 s.camp.ptmInterval.toNat s) with time.dialog := some n, time.dialog_sent := s.run }))) ∧
  (∀ s : State, s.isHeld .mgmt = false → s.yard = false → dialogPort s = none →
    exec .campRedialog s = .next (arm .ptmInterval 0 s.camp.ptmInterval.toNat s)) ∧
  (∀ s : State, s.isHeld .mgmt = false → s.yard = true →
    exec .campRedialog s = .next (startYardDialog (arm .yardDialog 0 s.camp.ptmInterval.toNat s))) ∧
  (∀ s : State, s.isHeld .mgmt = true → exec .campRedialog s = .next s) ∧
  (∀ (s : State) (n : Nat), s.time.dialog = some n → s.due .ptmResponse 0 = true →
    exec .ptmResponseTimeout s = .next (disarm .ptmResponse 0 { s with
      time.dialog := none
      camp.syncStats.fail_count := satAdd s.camp.syncStats.fail_count 1
      camp.status.holdover := s.camp.status.anchored })) ∧
  (∀ s : State, s.due .holdover 0 = true → s.camp.status.anchored = true →
    exec .holdoverExpiry s = .next (raise (src 1 1) 0 [] (disarm .holdover 0 { s with
      camp.status.anchored := false
      camp.status.holdover := false
      camp.rateAdj := BitVec.ofInt 32 (unanchoredRate s) })))

/-- R69 to R71, R75: every response to an open dialog that comes within 2^22 motes of the request makes the dialog good,
whatever its two timestamps. The target is the master time at the receipt, moved by the epoch offset. A dialog of the same source
whose offset is within CAMP_STEP_THRESH slews and leaves H; one beyond it, or of another source than the last, steps H to the
target. Either way its offset, count and source are recorded, the dialog is closed and Campion is anchored. -/
def Obligations.GoodDialogSlewsOrSteps : Prop :=
  ∀ (s : State) (n t2 t3 : Nat), s.time.dialog = some n → s.run ≤ s.time.dialog_sent + 2 ^ 22 →
    ∃ t, exec (.ptmResponse ⟨t2, t3⟩) s = .next t ∧
      t.time.dialog = none ∧ t.time.anchor_last = some (n + 1) ∧ t.camp.status.anchored = true ∧
      t.camp.status.holdover = false ∧ t.camp.status.source = BitVec.ofNat 2 (n + 1) ∧
      t.camp.syncStats.good_count = s.camp.syncStats.good_count + 1 ∧
      t.camp.lastOffset = BitVec.ofInt 32 (clampInt (-(2 ^ 31 - 1)) (2 ^ 31 - 1)
        ((ptmTarget s (masterTime s t2 t3) : Int) - (s.h : Int))) ∧
      (((ptmTarget s (masterTime s t2 t3) : Int) - (s.h : Int)).natAbs ≤ s.camp.stepThresh.toNat →
        s.time.anchor_last = none ∨ s.time.anchor_last = some (n + 1) →
        t.time.hq = s.time.hq ∧ t.camp.stepLog = s.camp.stepLog) ∧
      (s.camp.stepThresh.toNat < ((ptmTarget s (masterTime s t2 t3) : Int) - (s.h : Int)).natAbs ∨
          (∃ p, s.time.anchor_last = some p ∧ p ≠ n + 1) →
        t.h = ptmTarget s (masterTime s t2 t3) ∧ t.camp.stepFrom = BitVec.ofNat 64 s.h ∧
        t.camp.stepTo = BitVec.ofNat 64 (ptmTarget s (masterTime s t2 t3)) ∧
        t.camp.stepLog.backward = decide (ptmTarget s (masterTime s t2 t3) < s.h) ∧
        t.camp.status.clamped = decide (ptmTarget s (masterTime s t2 t3) ≤ s.time.last)) ∧
      t.mode = s.mode ∧ t.pending = s.pending

/-- R28, R64, R73, R81, R83, R98: the end of clamping and of a reservation write, a read of CAMP_ISSUE before and after the
floor, and both ends of the test of a written epoch offset. -/
def Obligations.StampCommandsComplete : Prop :=
  (∀ s : State, s.camp.status.clamped = true → s.time.last < s.h →
    exec .clampEnd s = .next { s with camp.status.clamped := false }) ∧
  (∀ (s : State) (v : Nat), s.time.reserving = some v → exec .reservationWriteDone s = .next
    (each s.time.waiting issueTo (each s.time.handout (fun p s => deliver p.2 ⟨BitVec.ofNat 64 p.1, true⟩ (setLast p.1 s))
      (setReservation v { s with time.reserving := none, time.handout := [], time.waiting := [] })))) ∧
  (∀ s : State, s.time.reserving = none → exec .reservationWriteDone s = .next s) ∧
  (∀ (s : State) (p : Nat), s.reachable p = true → memoryOpen s p = true → s.isHeld .mgmt = false →
    s.camp.status.floor_seeded = false →
    exec (.campIssueRead p) s = .next (say (.readData p 0 [0, 0, 0, 0])
      { s with time.latched := s.time.latched.put 0x10008 0 })) ∧
  (∀ (s : State) (p : Nat), s.reachable p = true → memoryOpen s p = true → s.isHeld .mgmt = false →
    s.camp.status.floor_seeded = true → s.time.reserving = none →
    exec (.campIssueRead p) s = .next (say (.readData p 0 (leBytes 4 ((issueNow s).1.stamp.toNat % 2 ^ 32)))
      { (issueNow s).2 with
        camp.status.issue_unanch := (issueNow s).1.unanch
        time.latched := (issueNow s).2.time.latched.put 0x10008 ((issueNow s).1.stamp.toNat / 2 ^ 32) })) ∧
  (∀ (s : State) (v : BitVec 64), s.isHeld .mgmt = false → offsetTest s v.toNat < 0xFFFF000000000000 →
    exec (.campEpochOffsetWrite v) s = .next { s with camp.epochOffset := v, time.offset_written := true }) ∧
  (∀ (s : State) (v : BitVec 64), s.isHeld .mgmt = false → 0xFFFF000000000000 ≤ offsetTest s v.toNat →
    exec (.campEpochOffsetWrite v) s
      = .next (raise (src 1 3) 0 [] { s with camp.status.offset_rejected := true }))

/-! ### Chapters 3 and 4, straps, rails, power loss, NAND pairs and the bank -/

/-- R46, R115, R116, R121, R139, R144, R147, R148: rails come up step by step, a rail that is not good waits for the retry and is
kept for the report, and the release of power-on reset samples the straps after source 0x0 or 0x1; with TEST_EN sampled as 1 it stays asserted. -/
def Obligations.RailsAndPowerOnReset : Prop :=
  (∀ s : State, s.power.dark = true → ∃ t, exec .coldPowerOn s = .next t ∧ t.mode = .hold ∧ t.power.dark = false ∧
    t.power.por = true ∧ t.power.rail_step = 1 ∧ t.rst.cause = 1 ∧ t.rst.last.source = 0 ∧ t.shroud.held = [] ∧
    t.pending = s.pending) ∧
  (∀ s : State, railsRising s = true → s.power.rail_step < 6 →
    exec .railPowerUpStep s = .next { s with power.rail_step := s.power.rail_step + 1 }) ∧
  (∀ (s : State) (r : Nat), railsRising s = true → r ∈ stepRails (s.power.rail_step + 1) →
    exec (.railPowerGoodTimeout r) s = .next { loseDram s with
      power.rail_step := min 2 s.power.rail_step
      power.rail_failures := s.power.rail_failures + 1
      power.rail_wait := true
      reset_ctl.retention.rail_fault := r }) ∧
  (∀ s : State, s.power.rail_wait = true → s.power.rail_failures < 3 →
    exec .railRetryTimer s = .next { s with power.rail_wait := false }) ∧
  (∀ s : State, s.power.rail_wait = true → 3 ≤ s.power.rail_failures → exec .railRetryTimer s = .next s) ∧
  (∀ (s : State) (b : Balls), railsRising s = true → s.power.rail_step = 6 → s.pad.strapStatus.test_en = false →
    s.rst.last.source.toNat ≤ 1 → b.test_en = false →
    exec (.powerOnResetRelease b) s = .next (releaseDomain .ret (releaseDomain .ao { s with
      pad.strapStatus := { pwrdis_live := s.pad.strapStatus.pwrdis_live, strap_changed := false, live := b.levels,
                           dualport := b.dualport, test_en := false, casc_pos := b.casc_pos, mast := b.mast }
      pads.present := b.present
      pads.sampled := true
      power.por := false
      power.rail_step := 7
      power.rail_failures := 0 }))) ∧
  (∀ (s : State) (b : Balls), railsRising s = true → s.power.rail_step = 6 → s.pad.strapStatus.test_en = false →
    s.rst.last.source.toNat ≤ 1 → b.test_en = true →
    exec (.powerOnResetRelease b) s = .next { s with
      pad.strapStatus := { pwrdis_live := s.pad.strapStatus.pwrdis_live, strap_changed := false, live := b.levels,
                           dualport := b.dualport, test_en := true, casc_pos := b.casc_pos, mast := b.mast }
      pads.present := b.present
      pads.sampled := true }) ∧
  (∀ (s : State) (b : Balls), railsRising s = true → s.power.rail_step = 6 → s.pad.strapStatus.test_en = false →
    1 < s.rst.last.source.toNat →
    exec (.powerOnResetRelease b) s = .next (releaseDomain .ret (releaseDomain .ao { s with
      pad.strapStatus.live := b.levels
      power.por := false
      power.rail_step := 7
      power.rail_failures := 0 }))) ∧
  (∀ (s : State) (n : Nat), s.power.dark = false →
    n ≠ s.pad.strapStatus.mast.toNat + 2 * s.pad.strapStatus.casc_pos.toNat + 8 * s.pad.strapStatus.test_en.toNat
      + 16 * s.pad.strapStatus.dualport.toNat + 32 * s.pads.present.toNat → n < 128 →
    exec (.strapChangeDetected n) s = .next { s with
      pad.strapStatus.live := BitVec.ofNat 5 n
      pad.strapStatus.strap_changed := s.pad.strapStatus.strap_changed || s.pads.sampled }) ∧
  (∀ s : State, s.power.dark = false → s.mode ≠ .hold →
    exec .vinOvervoltage s = .next (raise (src 2 0) 0 [] { s with pwr.status.vin_ov := true }))

/-- R124, R142, R166: power loss in an operating mode enters Flush: the mode is Flush, the converter carries the load, the
charger is off, fetching has stopped, a handshake or return is abandoned, and nothing in the queue is lost. -/
def Obligations.PowerLossEntersFlush : Prop :=
  ∀ s : State, s.power.dark = false → s.mode = .run ∨ s.mode = .reduced ∨ s.mode = .patrol ∨ s.mode = .readOnly →
    (∃ t, exec .powerLossDetected s = .next t ∧ t.mode = .flush ∧ t.pwr.status.loss_detected = true ∧
      t.pwr.status.vin_good = false ∧ t.pwr.status.charging = false ∧ t.pwr.status.holdup_active = true ∧
      t.nvme.ctrl0.fetch_stopped = true ∧ t.nvme.ctrl1.fetch_stopped = true ∧ t.power_states.handshake = none ∧
      t.power_states.returning = none ∧ t.nvme.act_led = false ∧ t.thermal.entry = none ∧ t.pending = s.pending) ∧
    (∃ t, exec .pwrdisAssert s = .next t ∧ t.mode = .flush ∧ t.pad.strapStatus.pwrdis_live = true ∧
      t.pwr.status.loss_detected = true ∧ t.pwr.status.holdup_active = true)

/-- R52, R125, R141, R150, R166, R167, R170: what the spill image, the end of Flush, the fall of the bank, the return of VIN
and the fall of VIN leave. -/
def Obligations.FlushAndReturnOfPower : Prop :=
  (∀ (s : State) (x : Spill) (ok : Bool), s.shroud.spill = some x → x.stage = .units → x.bad = [] →
    15 < x.left.length → ∃ t z, exec (.spillRecordWritten ok) s = .next t ∧ t.shroud.spill = some z ∧ z.stage = .units ∧
      z.left = x.left.drop 15 ∧ z.image.units = (if ok then x.image.units ++ x.left.take 15 else x.image.units) ∧
      z.seq = x.seq + 1 ∧ z.cause = x.cause) ∧
  (∀ (s : State) (x : Spill) (st : Stamped) (u : State), s.mode = .flush → s.shroud.spill = some x → x.stage = .marker →
    x.cause = .flush → x.image.valid = true → takeStamp s = (st, u) → s.power.vin_returned = false →
    s.pad.strapStatus.pwrdis_live = false → s.pwr.status.vin_good = false →
    ∃ t, exec .flushEnd s = .next t ∧ t.mode = .hold ∧ t.power.dark = true ∧ t.power.por = true ∧ t.shroud.held = [] ∧
      t.shroud.spill = none ∧ t.pwr.status.holdup_active = false ∧ ∃ i ∈ t.shroud.images, i.set = x.image.set ∧ i.units = x.image.units ∧
        i.marker.map EndMarker.stamp = some st) ∧
  (∀ s : State, s.pwr.status.holdup_active = true → ∃ t, exec .bankBelowVmin s = .next t ∧ t.mode = .hold ∧
    t.power.dark = true ∧ t.shroud.held = [] ∧ t.shroud.spill = none ∧
    t.reset_ctl.shroud_gone = (s.power.dram_rails || s.reset_ctl.shroud_gone)) ∧
  (∀ s : State, s.mode = .flush → exec .vinReturnInFlush s
    = .next { s with power.vin := true, power.vin_returned := true, pwr.status.vin_good := true }) ∧
  (∀ s : State, s.power.dram_rails = true → ∃ t, exec .vinReturnInHold s = .next t ∧ t.mode = .hold ∧ t.power.por = true ∧
    t.power.rail_step = 2 ∧ t.rst.last.source = 2 ∧ t.rst.last.level = 5 ∧ t.reset_ctl.dram_kept = true ∧
    t.shroud.held = s.shroud.held ∧ t.reset_ctl.retention.rail_fault = 0 ∧ t.pwr.status.rail_fault = 0) ∧
  (∀ s : State, s.power.dark = false → s.pwr.status.loss_detected = true → s.pwr.status.holdup_active = false →
    ∃ t, exec .vinFallDark s = .next t ∧ t.mode = .hold ∧ t.power.dark = true ∧ t.power.por = true ∧ t.shroud.held = []) ∧
  (∀ s : State, s.power.dark = false → s.pwr.status.loss_detected = false →
    s.mode = .run ∨ s.mode = .reduced ∨ s.mode = .patrol ∨ s.mode = .readOnly →
    ∃ t, exec .vinFallDark s = .next t ∧ t.mode = .flush ∧ t.pwr.status.vin_good = false ∧
      t.pwr.status.loss_detected = true ∧ t.pwr.status.holdup_active = true ∧ t.power.vin = false) ∧
  (∀ s : State, s.mode = .hold → s.pad.strapStatus.pwrdis_live = true → s.power.vin = true → s.power.dark = false →
    ∃ t, exec .pwrdisDeassert s = .next t ∧ t.mode = .hold ∧ t.pad.strapStatus.pwrdis_live = false ∧ t.power.por = true ∧
      t.power.rail_step = 1 ∧ t.rst.cause = 2 ∧ t.rst.last.source = 1) ∧
  (∀ (s : State) (r : Nat), s.power.dark = false → s.mode = .run → 0 < r → r < 7 → s.shroud.spill = none →
    s.thermal.entry = none → ∃ t, exec (.railFault r) s = .next t ∧ t.mode = .hold ∧ t.power.por = true ∧
      t.reset_ctl.retention.rail_fault = r ∧ t.rst.last.source = 2 ∧ t.rst.last.level = 5 ∧
      t.reset_ctl.dram_kept = decide (r < 3) ∧ t.rst.cause = setBit s.rst.cause 2 true)

/-- R111, R152 to R155: the NAND power pairs: the next pair of the stagger is enabled, a settled pair has its discovery
begun, a pair past its bound fails, a lost pair is tried again. -/
def Obligations.PairsAreEnabledAndRetried : Prop :=
  (∀ (s : State) (p : Nat), s.power.next_pair = some p → s.due .pairStagger 0 = true → nextPair s p = none →
    ∃ t, exec .pairEnableStagger s = .next t ∧ (t.pair p).phase = .enabled ∧
      t.pwr.pairStatus.nven = setBit s.pwr.pairStatus.nven p true ∧ t.power.next_pair = none ∧
      t.timer .npgTimeout p = some ⟨.npgTimeout, p, s.h + (s.pwr.npgTimeout.toNat + 2 ^ 20)⟩) ∧
  (∀ (s : State) (p : Nat), (s.pair p).phase = .enabled → s.populated p = true → (s.pair p).retry = false →
    exec (.npgSettled p) s = .next (beginDiscovery p (disarm .npgTimeout p { s with
      power.pairs := s.power.pairs.put p { s.pair p with phase := .settled, retry := false }
      pwr.pairStatus.npg := setBit s.pwr.pairStatus.npg p true }))) ∧
  (∀ (s : State) (p : Nat), (s.pair p).phase = .enabled → s.due .npgTimeout p = true →
    exec (.npgTimeout p) s = .next (settleMedia (failPair p s))) ∧
  (∀ (s : State) (p : Nat), (s.pair p).phase = .settled → s.mode = .flush → s.shroud.spill = none →
    ∃ t, exec (.npgLoss p) s = .next t ∧ (t.pair p).phase = .lost ∧
      t.pwr.pairStatus.nven = setBit s.pwr.pairStatus.nven p false ∧
      t.pwr.pairStatus.npg = setBit s.pwr.pairStatus.npg p false) ∧
  (∀ (s : State) (p : Nat), (s.pair p).phase = .lost → s.due .pairRetry p = true →
    ∃ t, exec (.pairRetryTimer p) s = .next t ∧ (t.pair p).phase = .enabled ∧ (t.pair p).retry = true ∧
      t.pwr.pairStatus.nven = setBit s.pwr.pairStatus.nven p true ∧ t.timer .pairRetry p = none)

/-- R157 to R164: the charger, the measurement of the bank, the measured voltages and the wait for the allowance. -/
def Obligations.BankAndAllowanceAreKept : Prop :=
  (∀ s : State, s.pwr.status.charging = true → s.power.measured = true →
    exec .bankTargetReached s = .next { s with pwr.status.charging := false }) ∧
  (∀ s : State, s.power.dark = false → s.power.fault_over = false → s.power.fault_measure = false →
    s.pwr.status.bank_fault = false → chargerMay s = true →
    ∃ t, exec .bankChargeRestart s = .next t ∧ t.pwr.status.charging = true ∧ t.pwr.status.bank_fault = false ∧
      t.power.fault_over = false ∧ t.timers = s.timers) ∧
  (∀ s : State, s.power.dark = false → s.mode ≠ .hold → s.pwr.status.bank_fault = false →
    exec .bankOvervoltage s = .next (raise (src 2 2) 0 [] { s with
      power.fault_over := true
      pwr.status.charging := false
      pwr.status.bank_fault := true })) ∧
  (∀ s : State, s.due .bankTest 0 = true → s.pwr.status.bank_test = false → s.pwr.status.holdup_active = false →
    exec .bankTestInterval s = .next (arm .bankMeasure 0 (2 ^ 26) (arm .bankTest 0 s.pwr.bankTestInterval.toNat { s with
      power.measured := true
      pwr.status.bank_test := true
      pwr.status.charging := false }))) ∧
  (∀ (s : State) (v1 v2 : Nat), s.pwr.status.bank_test = true → s.due .bankMeasure 0 = true → v2 < v1 →
    781250 / (v1 - v2) ≤ 2 * s.pwr.bankUf.toNat → s.power.fault_over = false →
    ∃ t, exec (.bankMeasureDone v1 v2) s = .next t ∧ t.pwr.bankCap.cap_uf = sat 16 (781250 / (v1 - v2)) ∧
      t.pwr.bankCap.test_count = satAdd s.pwr.bankCap.test_count 1 ∧ t.pwr.status.bank_test = false ∧
      t.pwr.status.bank_fault = false ∧ t.timer .bankMeasure 0 = none) ∧
  (∀ (s : State) (b v : Nat), s.power.dark = false → s.mode = .hold → 2 ≤ s.power.rail_step →
    ∃ t, exec (.allowanceUpdate b v) s = .next t ∧ t.pwr.measure.bank_mv = sat 16 b ∧ t.pwr.measure.vin_mv = sat 16 v ∧
      t.pwr.status.vin_good = decide (lossThreshold s ≤ v) ∧ t.pwr.shroudAllow = BitVec.ofNat 11 (allowance s b) ∧ t.mode = .hold) ∧
  (∀ s : State, s.due .charge 0 = true →
    exec .chargeTimeout s = .next { disarm .charge 0 s with power.charge_expired := true })

/-! ### Chapter 5, resets, Start and the boot array -/

/-- R178, R179 and the table "Reset sources and shipped reach": the level of each source in the configuration in force, on a
device that is not a yard, and on a yard. -/
def Obligations.ShippedReachOfEachSource : Prop :=
  ∀ s : State,
    (∀ c, c < 3 → levelOf s c = 5) ∧
    (s.yard = false →
      levelOf s 3 = (if s.ep.dual then 3 else 4) ∧ levelOf s 4 = (if s.ep.dual then 3 else 0) ∧ levelOf s 7 = 0 ∧
      levelOf s 0xA = 3 ∧ levelOf s 0xB = (if s.ep.dual then 3 else 0) ∧ levelOf s 0xC = 2 ∧
      levelOf s 0xD = (if s.ep.dual then 2 else 0) ∧ levelOf s 0xE = 1 ∧ levelOf s 0xF = (if s.ep.dual then 1 else 0)) ∧
    (s.yard = true → levelOf s 3 = 0 ∧ levelOf s 4 = 0 ∧ levelOf s 7 = 4 ∧ (∀ c, 0xA ≤ c → levelOf s c = 0)) ∧
    levelOf s 5 = 4 ∧ levelOf s 6 = 4 ∧ levelOf s 8 = 4 ∧ levelOf s 9 = 4

/-- R179, R181, R183, R186, R192, R195: each command that asserts a source of level L4 in Run begins the assertion steps, and
PERST1# in x16 operation sets its bit of RST_CAUSE and resets nothing. -/
def Obligations.SourcesOfLevelFourBeginAssertion : Prop :=
  ∀ s : State, s.mode = .run → s.reset_ctl.sequence = none → s.thermal.entry = none → s.shroud.spill = none →
    (s.yard = false → s.ep.dual = false → BeginsL4 3 s (exec .perst0Assert s)) ∧
    (s.yard = false → s.ep.dual = false → ∃ t, exec .perst1Assert s = .next t ∧
      t.rst.cause = setBit s.rst.cause 4 true ∧ t.reset_ctl.sequence = none ∧ t.mode = .run ∧ t.ep.dual = false) ∧
    (s.yard = true → BeginsL4 7 s (exec .kl0RstAssert s)) ∧
    (∀ c, s.reachable c = true → memoryOpen s c = true → BeginsL4 5 s (exec (.nvmSubsystemReset c 0x4E564D65) s)) ∧
    (∀ p, p < 2 → BeginsL4 6 s (exec (.nvmeMiSubsystemReset p) s)) ∧
    (∀ d, d ≠ .ret → d ≠ .ao → d ≠ .port0 → d ≠ .port1 → s.isHeld d = false → BeginsL4 9 s (exec (.clockLoss d) s)) ∧
    (∀ d n, (d = .port0 ∧ n = 0) ∨ (d = .port1 ∧ n = 1) → s.isHeld d = false →
      exec (.clockLoss d) s = .next (actL3 n (raise (src 0 1) 0 [] (recordSource 9 { s with
        reset_ctl.clock_good := setBit s.reset_ctl.clock_good d.num false })))) ∧
    (∀ d, s.isHeld d = true → exec (.clockLoss d) s = .next s) ∧
    (∀ d, s.due .pllRetry d.num = true → s.due .pllLimit d.num = true → BeginsL4 9 s (exec (.pllLockRetry d false) s)) ∧
    (∀ c n, s.reset_ctl.wdt_stage1.find c = some n → s.timedOut n = true → BeginsL4 8 s (exec (.watchdogStage2 c) s))

/-- R178, R186, R190, R191, R193, R195: the reach of an L4 asserts at the safe point, domains are released, a clock that is
not ready is counted, a core loop is tried again and the first stage of a watchdog reports. -/
def Obligations.ResetsAssertAndDomainsRelease : Prop :=
  (∀ (s : State) (q : Arrival), s.reset_ctl.sequence = some q → q.mode_at = .run → s.boot.pulsing = false →
    s.media.ops = [] → ∃ t, exec .l4ReachAsserted s = .next t ∧ t.mode = .hold ∧ t.reset_ctl.held = 0x7FC ∧
      t.reset_ctl.dram_kept = true ∧ t.shroud.held = s.shroud.held ∧ t.shroud.records = s.shroud.records ∧
      t.rst.cause = s.rst.cause ∧ t.rst.last = s.rst.last ∧ t.nvme.tracker = [] ∧ t.nvme.ctrl0.sqs = [] ∧
      t.nvme.ctrl0.cqs = [] ∧ t.nvme.ctrl1.sqs = [] ∧ t.nvme.ctrl1.cqs = [] ∧ t.media.ops = [] ∧
      t.shroud.images = s.shroud.images ∧ t.boot.slot_a = s.boot.slot_a ∧ t.pwr.status = s.pwr.status ∧
      t.pending = s.pending) ∧
  (∀ (s : State) (d : Domain), s.mode ≠ .hold → s.reset_ctl.sequence = none → windowPassed d s = true → d ≠ .mgmt →
    ∃ t, exec (.domainRelease d) s = .next t ∧ t.isHeld d = false ∧ t.reset_ctl.clock_good.getLsbD d.num = true ∧
      (d = .port0 → t.isHeld .ctrl0 = false) ∧ (d = .port1 → t.isHeld .ctrl1 = false) ∧
      (∀ e, e ≠ d → (d = .port0 → e ≠ .ctrl0) → (d = .port1 → e ≠ .ctrl1) → t.isHeld e = s.isHeld e) ∧ t.mode = s.mode) ∧
  (∀ (s : State) (d : Domain), windowPassed d s = false → exec (.domainRelease d) s = .next s) ∧
  (∀ (s : State) (d : Domain), s.isHeld d = true →
    exec (.clockNotReady d) s = .next (raise (src 0 2) d.clock [] { s with
      reset_ctl.clock_good := setBit s.reset_ctl.clock_good d.num false
      reset_ctl.not_ready := s.reset_ctl.not_ready.put d.num s.run
      rst.clkStatus.not_ready_count := satAdd s.rst.clkStatus.not_ready_count 1 })) ∧
  (∀ (s : State) (d : Domain), s.due .pllRetry d.num = true → s.due .pllLimit d.num = false →
    exec (.pllLockRetry d false) s = .next (arm .pllRetry d.num (2 ^ 20) s)) ∧
  (∀ (s : State) (d : Domain), s.due .pllRetry d.num = true →
    exec (.pllLockRetry d true) s = .next { disarm .pllLimit d.num (disarm .pllRetry d.num s) with
      reset_ctl.core_loops :=
        !(disarm .pllLimit d.num (disarm .pllRetry d.num s)).timers.any fun t => t.kind == .pllRetry }) ∧
  (∀ (s : State) (c : Nat), s.mode = .run → c < 44 → s.timedOut (s.reset_ctl.wdt_stage1.look s.reset_ctl.wdt_start c) = true →
    exec (.watchdogStage1 c) s = .next (takeError { source := src 0 3, kind := 7, detail := c } [] { s with
      reset_ctl.wdt_stage1 := s.reset_ctl.wdt_stage1.put c s.reset_ctl.cycles
      rst.wdtStatus := { stage1_count := satAdd s.rst.wdtStatus.stage1_count 1, stage1 := true, core := BitVec.ofNat 6 c } }))

/-- R46, R164, R218, R769: the release that ends Hold begins Start with H at 0, and a Start step goes on only when what it
waits for is there. -/
def Obligations.StartRunsItsSteps : Prop :=
  (∀ s : State, s.mode = .hold → s.power.por = false → s.power.dark = false → s.pad.strapStatus.test_en = false →
    s.pad.strapStatus.pwrdis_live = false → ∃ t, exec .holdResetRelease s = .next t ∧ t.mode = .start ∧
      t.prevMode = .hold ∧ t.time.hq = 0 ∧ t.reset_ctl.start_step = 1 ∧
      (∀ c, c < 16 → 4 ≤ levelOf s c → t.reset_ctl.asserted.getLsbD c = false) ∧
      t.isHeld .mgmt = false ∧ t.power.dram_rails = false ∧ (t.timer .allowance 0).isSome ∧
      t.shroud.held = s.shroud.held) ∧
  (∀ (s : State) (r : StartReport), s.starting = true → s.reset_ctl.start_step = 1 →
    exec (.startStepComplete r) s = .next { s with reset_ctl.start_step := 2, reset_ctl.step_begun := false }) ∧
  (∀ (s : State) (r : StartReport), s.starting = true → s.reset_ctl.start_step = 2 →
    exec (.startStepComplete r) s = .next { deriveKeys s with reset_ctl.start_step := 3, reset_ctl.step_begun := false }) ∧
  (∀ (s : State) (r : StartReport), s.starting = true → s.reset_ctl.start_step = 3 → s.yard = false →
    s.isHeld .port0 = false → s.isHeld .port1 = false → ∃ t, exec (.startStepComplete r) s = .next t ∧
      t.ep.dual = s.pad.strapStatus.dualport ∧ t.reset_ctl.start_step = 4 ∧ t.mode = s.mode) ∧
  (∀ (s : State) (r : StartReport), s.starting = true → s.reset_ctl.start_step = 3 → s.yard = false →
    s.isHeld .port0 = true ∨ s.isHeld .port1 = true → exec (.startStepComplete r) s = .next s) ∧
  (∀ (s : State) (r : StartReport), s.starting = true → s.reset_ctl.start_step = 16 →
    bufferFloor s ≤ s.pwr.shroudAllow.toNat ∨ s.power.charge_expired = true →
    exec (.startStepComplete r) s = .next { s with reset_ctl.start_step := 17, reset_ctl.step_begun := false }) ∧
  (∀ (s : State) (r : StartReport), s.starting = true → s.reset_ctl.start_step = 16 →
    s.pwr.shroudAllow.toNat < bufferFloor s → s.power.charge_expired = false →
    exec (.startStepComplete r) s = .next s)

/-- R197 to R199, R217: the Array Service Routine takes the oldest request, pulses until it verifies or the limit of 12
program or 40 erase pulses, and a recovery image is taken once in a Start that failed with code 0x01. -/
def Obligations.ArrayServiceRoutinePulses : Prop :=
  (∀ (s : State) (q : BaRequest), arrayStopped s = false → s.boot.current = none →
    leastOn BaRequest.admitted (s.boot.queue.filter (mayTake s)) = some q → q.ops ≠ [] →
    exec .bootArrayRequest s = .next { s with
      boot.queue := s.boot.queue.erase q
      boot.current := some q
      boot.pulsing := true
      boot.pulses := 0 }) ∧
  (∀ (s : State) (q : BaRequest) (o : BaOp) (rest : List BaOp), s.boot.current = some q → s.boot.pulsing = true →
    q.ops.drop s.boot.done = o :: rest → s.boot.pulses + 1 < (if o.isErase then 40 else 12) →
    exec (.bootArrayPulseDone false) s = .next { pulseGiven o s with
      boot.pulses := s.boot.pulses + 1
      boot.pulsing := !arrayStopped s }) ∧
  (∀ (s : State) (q : BaRequest) (o : BaOp) (rest : List BaOp), s.boot.current = some q → s.boot.pulsing = true →
    q.ops.drop s.boot.done = o :: rest → (if o.isErase then 40 else 12) ≤ s.boot.pulses + 1 →
    exec (.bootArrayPulseDone false) s = .next (requestFailed q (opFailed o (endRequest (pulseGiven o s))))) ∧
  (∀ (s : State) (q : BaRequest) (o p : BaOp) (rest : List BaOp), s.boot.current = some q → s.boot.pulsing = true →
    q.ops.drop s.boot.done = o :: p :: rest → q.purpose ≠ .abandoned →
    exec (.bootArrayPulseDone true) s = .next { opVerified o (pulseGiven o s) with
      boot.done := (opVerified o (pulseGiven o s)).boot.done + 1
      boot.pulses := 0
      boot.pulsing := !arrayStopped (opVerified o (pulseGiven o s)) }) ∧
  (∀ (s : State) (q : BaRequest) (o : BaOp), s.boot.current = some q → s.boot.pulsing = true →
    q.ops.drop s.boot.done = [o] → q.purpose ≠ .abandoned →
    exec (.bootArrayPulseDone true) s = .next (watchNonces (requestDone q (endRequest (opVerified o (pulseGiven o s)))))) ∧
  (∀ (s : State) (i : FwImage), s.mode = .start → s.mgmt.modeStatus.start_fail = 1 → s.reset_ctl.recovered = false →
    s.boot.update = none → i.authentic = true → ∃ t, exec (.recoveryImage i) s = .next t ∧
      t.boot.update.map FwUpdate.header = some i.header ∧ t.boot.update.map FwUpdate.slotB = some false ∧
      t.mode = .start)

/-! ### Registers, the test port, the sideband and the manifest (R22 to R28, R134, R135, chapter 6, R597, R598) -/

/-- R22, R26 to R28, R269, R670: a write of 1 clears the bits of an RW1C register, an RW register takes the value, an RO
register keeps its own, a 64-bit register takes its value at the upper of two 4-byte writes, a register held in reset
discards the write, a narrow write of a core is refused and counted, and a lower-word read latches the upper word. -/
def Obligations.RegisterAccessesFollowTypes : Prop :=
  (∀ (s : State) (n v : Nat), s.isHeld .ret = false →
    exec (.registerWrite (.core n) 0x140000 4 v) s
      = .next { s with rst.cause := s.rst.cause &&& ~~~BitVec.ofNat 16 (v % 2 ^ 32) }) ∧
  (∀ (s : State) (n v : Nat), s.isHeld .media = false →
    exec (.registerWrite (.core n) 0x1D0008 4 v) s = .next { s with red.dieSelect := BitVec.ofNat 11 (v % 2 ^ 32) }) ∧
  (∀ (s : State) (n v : Nat), exec (.registerWrite (.core n) 0x110018 8 v) s = .next s) ∧
  (∀ (s : State) (n v : Nat), s.isHeld .media = true → exec (.registerWrite (.core n) 0x1D0008 4 v) s = .next s) ∧
  (∀ (s : State) (n v : Nat), s.isHeld .mgmt = false →
    exec (.registerWrite (.core n) 0x110010 4 v) s
      = .next { s with time.half_written := s.time.half_written.put 0x10010 (v % 2 ^ 32) }) ∧
  (∀ (s : State) (n v low : Nat), s.isHeld .mgmt = false → s.time.half_written.find 0x10010 = some low →
    exec (.registerWrite (.core n) 0x110014 4 v) s = .next (offsetWritten (low + 2 ^ 32 * (v % 2 ^ 32))
      { s with time.half_written := s.time.half_written.drop 0x10010 })) ∧
  (∀ (s : State) (n o v bytes : Nat), 0x100000 ≤ o → o < 0x1000000 → bytes < 4 →
    exec (.registerWrite (.core n) o bytes v) s
      = .next (raise (src 13 2) n [] { s with mem.narrow.narrow := satAdd s.mem.narrow.narrow 1 })) ∧
  (∀ (s : State) (p v : Nat), s.reachable p = true → memoryOpen s p = true → s.isHeld .media = false →
    exec (.registerWrite (.host p) 0x1D0008 4 v) s = .next { s with red.dieSelect := BitVec.ofNat 11 (v % 2 ^ 32) }) ∧
  (∀ (s : State) (p : Nat), s.reachable p = true → memoryOpen s p = true → s.isHeld .mgmt = false →
    exec (.wideRegisterLowerRead p 0x110018) s = .next (say (.readData p 0 (leBytes 4 (s.camp.floor.toNat % 2 ^ 32)))
      { s with time.latched := s.time.latched.put 0x10018 (s.camp.floor.toNat / 2 ^ 32) }))

/-- R121, R127, R133 to R135, R140: each instruction of the test port is loaded under its opcode; EXTEST, CLAMP and HIGHZ act
in test mode only, and are BYPASS outside it; IDCODE and SAMPLE/PRELOAD shift out the device's code and the captured levels,
and disturb nothing but the scan registers; ACT_LED# goes off at its time. -/
def Obligations.TestPortSelectsInstructions : Prop :=
  (∀ s : State, s.power.dark = false → ∃ t, exec .tapReset s = .next t ∧ t = { s with pads.ir := 0x01 } ∧ t.tap = .idcode) ∧
  (∀ s : State, s.power.dark = false → s.pad.strapStatus.test_en = true →
    (∃ t, exec .extest s = .next t ∧ t = { s with pads.ir := 0x00 } ∧ t.tap = .extest) ∧
    (∃ t, exec .clampTap s = .next t ∧ t = { s with pads.ir := 0x04, pads.scan := 0 } ∧ t.tap = .clamp) ∧
    (∃ t, exec .highz s = .next t ∧ t = { s with pads.ir := 0x05, pads.scan := 0 } ∧ t.tap = .highz)) ∧
  (∀ s : State, s.power.dark = false → s.pad.strapStatus.test_en = false →
    (∃ t, exec .extest s = .next t ∧ t = { s with pads.ir := 0x00, pads.scan := 0 } ∧ t.tap = .bypass) ∧
    (∃ t, exec .clampTap s = .next t ∧ t = { s with pads.ir := 0x04, pads.scan := 0 } ∧ t.tap = .bypass) ∧
    (∃ t, exec .highz s = .next t ∧ t = { s with pads.ir := 0x05, pads.scan := 0 } ∧ t.tap = .bypass)) ∧
  (∀ s : State, s.power.dark = false → ∃ t, exec .bypass s = .next t ∧ t = { s with pads.ir := 0xFF, pads.scan := 0 } ∧
    t.tap = .bypass) ∧
  (∀ s : State, s.power.dark = false → exec .idcode s
    = .next (say (.scanOut (idcodeValue s)) { s with pads.ir := 0x01, pads.scan := idcodeValue s })) ∧
  (∀ (s : State) (n level drive : Nat), s.power.dark = false → exec (.samplePreload ⟨n, level, drive⟩) s
    = .next (say (.scanOut (cellsOf n)) { s with
        pads.ir := 0x02
        pads.scan := cellsOf n
        pads.scan_level := level
        pads.scan_drive := drive })) ∧
  (∀ s : State, s.power.dark = true → exec .extest s = .next s ∧ exec .idcode s = .next s) ∧
  (∀ s : State, s.due .actLed 0 = true → exec .actLedTimeout s = .next { disarm .actLed 0 s with nvme.act_led := false })

/-- R57, R129, R597, R598: what each operation of a sideband port answers in every mode but Hold, and that it answers nothing
in Hold. -/
def Obligations.SidebandPortsAnswer : Prop :=
  ∀ (s : State) (p : Nat), p < 2 →
    (s.mode = .hold → ∀ op, exec (.basicManagementRead p) s = .next s ∧ exec (.nvmeMiInvalidOpcode p op) s = .next s) ∧
    (s.mode ≠ .hold →
      exec (.basicManagementRead p) s = .next (say (.miResponse p 0
        [miFlags s, miWarnings s, miTemperature s, BitVec.ofNat 8 s.rcl.peStats.pct_used.toNat]) s) ∧
      exec (.readNvmeMiDataStructure p ⟨2, 0⟩) s = .next (say (.miResponse p 0
        (leBytes 2 s.ctrls.length ++ s.ctrls.flatMap fun c => leBytes 2 (cntlid c))) s) ∧
      (∀ k i, 5 < k → k ≠ 256 → exec (.readNvmeMiDataStructure p ⟨k, i⟩) s = .next (say (.miResponse p 4 []) s)) ∧
      (∀ i, exec (.readNvmeMiDataStructure p ⟨256, i⟩) s = .next (say (.miResponse p 0
        (leBytes 4 ((readMgmt s 0x10).getD (0, 0)).2 ++ leBytes 8 ((readMgmt s 0x18).getD (0, 0)).2)) s)) ∧
      (∀ v, 1 ≤ v → v ≤ 3 → exec (.configurationSet p 1 v) s
        = .next (say (.miResponse p 0 []) { s with pads.mi_config := s.pads.mi_config.put (256 * p + 1) v })) ∧
      (∀ v, v = 0 ∨ 3 < v → exec (.configurationSet p 1 v) s = .next (say (.miResponse p 4 []) s)) ∧
      (∀ i v, i = 0 ∨ 3 < i → exec (.configurationSet p i v) s = .next (say (.miResponse p 4 []) s)) ∧
      exec (.configurationGet p 1) s = .next (say (.miResponse p 0 (leBytes 4 (s.pads.mi_config.look 1 (256 * p + 1)))) s) ∧
      (∀ i, i = 0 ∨ 3 < i → exec (.configurationGet p i) s = .next (say (.miResponse p 4 []) s)) ∧
      exec (.subsystemHealthStatusPoll p false) s = .next (say (.miResponse p 0 (subsystemHealth s p)) s) ∧
      exec (.subsystemHealthStatusPoll p true) s = .next (say (.miResponse p 0 (subsystemHealth s p))
        { s with pads.mi_composite := s.pads.mi_composite.put p 0 }) ∧
      (∀ c, c ∈ s.ctrls → exec (.controllerHealthStatusPoll p c false) s
        = .next (say (.miResponse p 0 (controllerHealth s c p)) s)) ∧
      (∀ c, c ∈ s.ctrls → exec (.controllerHealthStatusPoll p c true) s
        = .next (say (.miResponse p 0 (controllerHealth s c p))
            (onCtrl c (fun k => { k with mi_changed := k.mi_changed.put p 0 }) s))) ∧
      (∀ c b, c ∉ s.ctrls → exec (.controllerHealthStatusPoll p c b) s = .next (say (.miResponse p 4 []) s)) ∧
      (∀ op, exec (.nvmeMiInvalidOpcode p op) s = .next (say (.miResponse p 3 []) s)) ∧
      (∀ q d b, s.mode = .run → q.opcode = 0x06 → identifyData s 0 q = (0, b) →
        exec (.tunnelledAdminCommand p q d) s = .next (say (.miResponse p 0 (leBytes 4 0 ++ b)) s)) ∧
      (∀ q d, s.mode = .run → q.opcode = 0x80 →
        exec (.tunnelledAdminCommand p q d) s = .next (say (.miResponse p Status.invalidOpcode (leBytes 4 0)) s)))

/-- R248, R348, R355, R356: NVMe-MI in band, and the transfer and install of a manifest. -/
def Obligations.ManifestAndInBandManagement : Prop :=
  (∀ (s : State) (t : Nat) (e : Entry) (d : Bytes), fetchedEntry t true 0xC1 s = some e →
    e.sqe.transferOffset + e.sqe.transferBytes ≤ 983040 → stagingBusy s = false →
    exec (.manifestTransfer t d) s = .next (finishEntry t 0 0 { s with
      manifest.staging := Cells.writes s.manifest.staging e.sqe.transferOffset (padTo e.sqe.transferBytes d)
      manifest.staged := max s.manifest.staged (e.sqe.transferOffset + e.sqe.transferBytes) })) ∧
  (∀ (s : State) (t : Nat) (e : Entry) (d : Bytes), fetchedEntry t true 0xC1 s = some e →
    983040 < e.sqe.transferOffset + e.sqe.transferBytes →
    exec (.manifestTransfer t d) s = .next (finishEntry t Status.invalidField 0 s)) ∧
  (∀ (s : State) (t : Nat) (e : Entry), fetchedEntry t true 0xC4 s = some e → s.kk.status.joined = 0 →
    exec (.manifestInstall t) s = .next (installManifest (.host t) false
      (Cells.reads s.manifest.staging 0 s.manifest.staged) (onEntry t (fun e => { e with state := .overlap }) s))) ∧
  (∀ (s : State) (t : Nat) (e : Entry) (d : Bytes), fetchedEntry t true 0x1D s = some e →
    e.sqe.cdw11.toNat % 256 = 4 → e.sqe.cdw12.toNat % 256 = 1 → 1 ≤ e.sqe.cdw13.toNat → e.sqe.cdw13.toNat ≤ 3 →
    exec (.nvmeMiSend t d) s = .next (finishEntry t 0 0
      { s with pads.mi_config := s.pads.mi_config.put 513 e.sqe.cdw13.toNat })) ∧
  (∀ (s : State) (t : Nat) (e : Entry) (d : Bytes), fetchedEntry t true 0x1D s = some e →
    e.sqe.cdw11.toNat % 256 ≠ 4 → exec (.nvmeMiSend t d) s = .next (finishEntry t 0 3 s)) ∧
  (∀ (s : State) (t : Nat) (e : Entry), fetchedEntry t true 0x1E s = some e →
    e.sqe.cdw11.toNat % 256 = 3 → e.sqe.cdw12.toNat % 256 = 1 →
    exec (.nvmeMiReceive t) s = .next (onEntry t (fun e => { e with dw0 := 0 })
      (answer t e (leBytes 4 (s.pads.mi_config.look 1 513)) s))) ∧
  (∀ (s : State) (t : Nat) (e : Entry), fetchedEntry t true 0x1E s = some e →
    e.sqe.cdw11.toNat % 256 = 1 → e.sqe.cdw13.getLsbD 31 = false →
    exec (.nvmeMiReceive t) s = .next (onEntry t (fun e => { e with dw0 := 0 }) (answer t e (subsystemHealth s 2) s)))

/-! ### Chapter 7, the endpoint and the controller memory buffer -/

/-- R259, R276, R283 to R286, R299: links come up as trained, a reset of a link asserts its source, Bus Master Enable and
D3hot stop and start requests, and while a Function Level Reset runs a configuration request is answered with Retry. -/
def Obligations.LinksAndConfigurationTakeEffect : Prop :=
  ∀ (s : State) (p : Nat),
    (∀ w v, mayTrain s p = true → (s.portStatus p).link_up = false → w ∈ trainedWidths s → 1 ≤ v → v < 6 →
      exec (.pcieLinkUp p w v false) s = .next (onPortStatus p (fun x => { x with
        link_up := true, width := BitVec.ofNat 6 w, rate := BitVec.ofNat 4 v, flit := false }) s)) ∧
    (s.linked p = true →
      exec (.hotResetOrLinkDown p false) s = .next (afterEnded (assertSource (0xA + p) s)) ∧
      exec (.hotResetOrLinkDown p true) s = .next (afterEnded (assertSource (0xA + p) (raise (src (6 + p) 3) 0 [] s)))) ∧
    (s.reachable p = true → (s.port p).flr = 0 →
      exec (.busMasterEnableSet p) s
        = .next (grantAll (sendPending p (onPortStatus p (fun x => { x with bme := true }) s))) ∧
      ((s.portStatus p).bme = true → (s.ctrl p).en = false → exec (.busMasterEnableClear p) s
        = .next (quarantineAll p (onPortStatus p (fun x => { x with bme := false }) s))) ∧
      ((s.portStatus p).bme = true → (s.ctrl p).en = true → exec (.busMasterEnableClear p) s
        = .next (stopController p (quarantineAll p (onPortStatus p (fun x => { x with bme := false }) s)))) ∧
      (s.reset_ctl.sequence = none → exec (.initiateFlr p) s = .next (afterEnded (endCommands p (quarantineAll p
        (onPort p (fun x => { x with flr := 4 }) (assertSource (0xC + p) s)))))) ∧
      ((s.ctrl p).en = false →
        exec (.d3hotEntry p) s = .next (onPortStatus p (fun x => { x with d3hot := true }) s)) ∧
      (∀ b, b = 128 ∨ b = 256 ∨ b = 512 →
        exec (.configWrite p (.mps b)) s = .next (onPort p (fun x => { x with mps := b }) s)) ∧
      (∀ b, exec (.configWrite p (.memSpace b)) s = .next (onPortStatus p (fun x => { x with mse := b }) s))) ∧
    (s.reachable p = true → (s.port p).flr ≠ 0 → ∀ f,
      exec (.configWrite p f) s = .next (say (.configRetry p) s) ∧
      exec (.initiateFlr p) s = .next (say (.configRetry p) s) ∧
      exec (.d3hotEntry p) s = .next (say (.configRetry p) s) ∧
      exec (.busMasterEnableSet p) s = .next (say (.configRetry p) s) ∧
      exec (.busMasterEnableClear p) s = .next (say (.configRetry p) s)) ∧
    ((s.port p).flr ≠ 0 → exec (.flrComplete p) s = .next (afterEnded (refreshTagMode p (onPortStatus p
      (fun x => { x with bme := false, mse := false, d3hot := false }) (onPort p flrPort (functionReset p s))))))

/-- R267, R271, R287, R294, R297, R672: requests to the BARs of a function whose memory space is enabled are served, and
refused with Unsupported Request where it is not or where no window maps the address. -/
def Obligations.MemoryRequestsAreServed : Prop :=
  ∀ (s : State) (p : Nat), s.reachable p = true →
    (memoryOpen s p = true →
      exec (.bar0Access p 8 4 none) s = .next (say (.readData p 0 [0x00, 0x00, 0x02, 0x00]) s) ∧
      (∀ v, exec (.bar0Access p 0x24 4 (some v)) s = .next (onCtrl p (fun k => { k with aqa := v % 2 ^ 32 }) s)) ∧
      (∀ o n a, s.ep.fences.has (o / 2 ^ 21) = false → cmbResolve s p o false = some a →
        exec (.cmbRead p o n) s = .next (say (.readData p (if cmbBad s a n then 3 else 0) (Cells.reads s.ep.cmb a n)) s)) ∧
      (∀ o n, s.ep.fences.has (o / 2 ^ 21) = false → cmbResolve s p o false = none →
        exec (.cmbRead p o n) s = .next (uncorrectable p "Unsupported Request" (say (.readData p 1 []) s))) ∧
      (∀ o b l a, s.ep.fences.has (o / 2 ^ 21) = false → cmbResolve s p o true = some a →
        partialDw (l.length / 4 + 1) l = false →
        exec (.cmbWrite p o b l) s = .next (writeEnabled a b l s)) ∧
      (∀ o b l a, s.ep.fences.has (o / 2 ^ 21) = false → cmbResolve s p o true = some a →
        partialDw (l.length / 4 + 1) l = true →
        exec (.cmbWrite p o b l) s = .next (uncorrectable p "Unsupported Request"
          { s with mem.narrow.cmb_partial := satAdd s.mem.narrow.cmb_partial 1 })) ∧
      (∀ v k e, v < s.vectors p → e = (s.port p).msix_table.look {} v →
        exec (.msixTableAccess p (16 * v + 8) 4 (some k)) s = .next (sendPending p (onPort p (fun x =>
          { x with msix_table := x.msix_table.put v { e with data := BitVec.ofNat 32 (k % 2 ^ 32) } }) s)))) ∧
    (memoryOpen s p = false →
      (∀ o n, exec (.bar0Access p o n none) s = .next (uncorrectable p "Unsupported Request" (say (.readData p 1 []) s)) ∧
        exec (.cmbRead p o n) s = .next (uncorrectable p "Unsupported Request" (say (.readData p 1 []) s)) ∧
        exec (.msixTableAccess p o n none) s = .next (uncorrectable p "Unsupported Request" (say (.readData p 1 []) s))) ∧
      ((s.port p).flr < 2 → ∀ o b l, exec (.cmbWrite p o b l) s = .next (uncorrectable p "Unsupported Request" s)))

/-- R287 and the table "CMB access resolution": the SRAM address of a BAR2 access is the window's base of 64 KiB units plus
the offset in its 2 MiB slot, where the window is enabled for the port and the direction and the offset lies within its
length; every other access resolves to nothing. -/
def Obligations.CmbAccessResolution : Prop :=
  ∀ (s : State) (p o : Nat) (w : Bool),
    (s.pcie.cfg.cmb_enable = true ∧ o < 2 ^ 25 ∧ (s.window (o / 2 ^ 21)).enable = true ∧
      ((s.window (o / 2 ^ 21)).port = true ↔ p = 1) ∧ o % 2 ^ 21 < (s.window (o / 2 ^ 21)).len.toNat * 65536 ∧
      (if w then (s.window (o / 2 ^ 21)).host_write = true else (s.window (o / 2 ^ 21)).host_read = true) →
      cmbResolve s p o w = some ((s.window (o / 2 ^ 21)).base.toNat * 65536 + o % 2 ^ 21)) ∧
    (¬(s.pcie.cfg.cmb_enable = true ∧ o < 2 ^ 25 ∧ (s.window (o / 2 ^ 21)).enable = true ∧
      ((s.window (o / 2 ^ 21)).port = true ↔ p = 1) ∧ o % 2 ^ 21 < (s.window (o / 2 ^ 21)).len.toNat * 65536 ∧
      (if w then (s.window (o / 2 ^ 21)).host_write = true else (s.window (o / 2 ^ 21)).host_read = true)) →
      cmbResolve s p o w = none)

/-- R667, R672, R673: a byte of CMB SRAM written with its enable reads back and its word is valid, every other byte keeps its
value, and nothing but the SRAM, its valid bits and the record of uncorrectable words changes. -/
def Obligations.CmbWritesReadBack : Prop :=
  ∀ (s : State) (a x : Nat) (b : Bytes) (l : List Bool), l.length = b.length →
    (a ≤ x → x < a + b.length → l[x - a]? = some true →
      some (Cells.read (writeEnabled a b l s).ep.cmb x) = b[x - a]? ∧ x / 4 ∈ (writeEnabled a b l s).memory.cmb_valid) ∧
    (x < a ∨ a + b.length ≤ x ∨ l[x - a]? = some false →
      Cells.read (writeEnabled a b l s).ep.cmb x = Cells.read s.ep.cmb x) ∧
    (∃ c w v, writeEnabled a b l s = { s with ep.cmb := c, memory.bad_words := w, memory.cmb_valid := v })

/-- R288 to R290: a write of PCIE_CMB_WINk that fails its checks sets win_err and changes no mapping; a good one opens a
fence, behind which requests of the slot wait, and the end of the fence makes the mapping current. -/
def Obligations.CmbWindowsChangeBehindFences : Prop :=
  ∀ (s : State) (k : Nat) (v : BitVec 64), k < 16 →
    s.isHeld (if (s.window k).port then .port1 else .port0) = false →
    (windowBad s (windowFields v.toNat) = true →
      exec (.cmbWindowWrite k v) s = .next { s with pcie.cmbFence.win_err := true }) ∧
    (windowBad s (windowFields v.toNat) = false → s.ep.fences.has k = false → windowFields v.toNat ≠ s.window k →
      exec (.cmbWindowWrite k v) s = .next { s with ep.fences := s.ep.fences.put k (windowFields v.toNat) }) ∧
    (∀ w, s.ep.fences.find k = some w → s.ep.cmb_waiting.find k = none →
      ∃ t, exec (.cmbFenceEnd k) s = .next t ∧ t.window k = w ∧ t.ep.fences.has k = false ∧
        (∀ j, j ≠ k → t.pcie.cmbWin.find j = s.pcie.cmbWin.find j) ∧ t.ep.cmb = s.ep.cmb)

/-- R280 to R282, R298: completions of device reads and the errors a port reports. -/
def Obligations.DeviceReadsAndPortErrors : Prop :=
  ∀ (s : State) (p : Nat),
    (s.reachable p = true →
      (∀ g r b, (s.port p).tags.find g = some r → 0 < b.length → b.length < r.remaining → r.purpose = .dropped →
        exec (.readCompletionReceived p g .success b) s = .next (onPort p (fun x => { x with
          tags := x.tags.put g { r with position := r.position + b.length, remaining := r.remaining - b.length } }) s)) ∧
      (∀ g o b, (s.port p).tags.find g = none → (s.port p).quarantined.find g = none →
        exec (.readCompletionReceived p g o b) s = .next (uncorrectable p "Unexpected Completion" s)) ∧
      (∀ g r b, (s.port p).tags.find g = some r → exec (.readCompletionReceived p g .poisoned b) s
        = .next (failRead r (uncorrectable p "Poisoned TLP Received" (dropRead p g s)))) ∧
      (∀ n b, (n = 0 ∨ n = 2 ∨ n = 4) → b ≠ [] →
        exec (.poisonedWriteReceived p n b) s = .next (uncorrectable p "Poisoned TLP Received" s))) ∧
    (s.linked p = true →
      exec (.malformedTlpReceived p) s = .next (uncorrectable p "Malformed TLP" s) ∧
      (∀ k, exec (.linkCorrectableError p k) s = .next { onPort p (fun x => { x with
        aer_correctable := x.aer_correctable ||| 2 ^ k.bit }) s with
        pcie.errCount.correctable := satAdd s.pcie.errCount.correctable 1 }) ∧
      (∃ t, exec (.endpointInternalError p) s = .next t ∧ (t.ctrl p).cfs = true ∧ (t.ctrl p).fetch_stopped = true ∧
        t.pcie.errCount.uncorrectable = satAdd s.pcie.errCount.uncorrectable 1)) ∧
    (∀ g r, s.due .tagTimeout (tagIdx p g) = true → (s.port p).tags.find g = some r → (s.port p).cto_disable = false →
      exec (.completionTimeout p g) s
        = .next (failRead r (quarantine p g (uncorrectable p "Completion Timeout" s)))) ∧
    (∀ g, s.due .quarantine (tagIdx p g) = true → exec (.tagQuarantineExpiry p g) s
      = .next (grantAll (disarm .quarantine (tagIdx p g)
        (onPort p (fun x => { x with quarantined := x.quarantined.drop g }) s))))

/-! ### Chapter 8, command processing -/

/-- R305, R306, R308, R309, R315, R317: enabling, resetting and shutting down a controller, and its doorbells. -/
def Obligations.ControllersAndDoorbells : Prop :=
  ∀ (s : State) (c : Nat), s.reachable c = true → memoryOpen s c = true →
    (∀ cc : BitVec 32, (s.ctrl c).en = false → cc.getLsbD 0 = true →
      ∃ t, exec (.controllerEnable c cc) s = .next t ∧ (t.ctrl c).en = true ∧ (t.ctrl c).cc = cc.toNat ∧
        (t.ctrl c).sqs = [(0, { size := adminSize (s.ctrl c) false, cqid := 0 })] ∧
        (t.ctrl c).cqs = [(0, { size := adminSize (s.ctrl c) true, ien := true })] ∧
        (t.ctrl c).cfs = ((s.ctrl c).cfs
          || !(ccGood cc && decide (2 ≤ adminSize (s.ctrl c) false) && decide (2 ≤ adminSize (s.ctrl c) true))) ∧
        ((t.ctrl c).cfs = false → s.serving = true → (t.ctrl c).rdy = true)) ∧
    ((s.ctrl c).en = true → exec (.controllerReset c) s = .next (afterEnded (assertSource (0xE + c)
      (each (s.ctrl c).cqs (fun p => disarm .coalesce (coalesceIdx c p.1)) s)))) ∧
    ((s.ctrl c).en = true → s.serving = true → (s.ctrl c).shst = 0 →
      exec (.shutdownNormal c) s = .next (driveShutdown
        (noteMi c Mi.shst { onCtrl c (fun k => { k with shst := 1, cc := noticeOf 1 k.cc, fetch_stopped := true }) s with
          nvme.shutting := some c }))) ∧
    ((s.ctrl c).en = true → s.serving = true → (s.ctrl c).shst ≠ 2 → (∀ d, (s.ctrl d).shst ≠ 1) → ∃ t u,
      exec (.shutdownAbrupt c) s = .next (afterEnded t) ∧
      u = endCommands c (onCtrl c (fun k => { k with fetch_stopped := true }) s) ∧
      (t.ctrl c).shst = 2 ∧ t.nvme.tracker = u.nvme.tracker ∧ t.shroud = u.shroud) ∧
    ((s.ctrl c).rdy = true →
      (∀ i v, (s.ctrl c).sqs.find i = none → exec (.sqTailDoorbell c i v) s = .next (postAsync c ⟨0, 0, 1⟩ s)) ∧
      (∀ i v q, (s.ctrl c).sqs.find i = some q → q.size ≤ v →
        exec (.sqTailDoorbell c i v) s = .next (postAsync c ⟨0, 1, 1⟩ s)) ∧
      (∀ i v q, (s.ctrl c).sqs.find i = some q → v < q.size → v ≠ q.tail →
        exec (.sqTailDoorbell c i v) s = .next (if i = 0 ∨ v = q.head
          then onSq c i (fun q => { q with tail := v, doorbells := q.doorbells ++ [(v, (takeStamp s).1)] }) (takeStamp s).2
          else ioDoorbell c
            (onSq c i (fun q => { q with tail := v, doorbells := q.doorbells ++ [(v, (takeStamp s).1)] }) (takeStamp s).2))) ∧
      (∀ i v, (s.ctrl c).cqs.find i = none → exec (.cqHeadDoorbell c i v) s = .next (postAsync c ⟨0, 0, 1⟩ s)) ∧
      (∀ i v q, (s.ctrl c).cqs.find i = some q → q.size ≤ v →
        exec (.cqHeadDoorbell c i v) s = .next (postAsync c ⟨0, 1, 1⟩ s)) ∧
      (∀ i v q, (s.ctrl c).cqs.find i = some q → v < q.size →
        exec (.cqHeadDoorbell c i v) s = .next (onCq c i (fun q => { q with head := v }) s)))

/-- R273, R319, R324, R326 to R328, R354: fetch of an entry, admission of a slice, a piece becoming held, completion and
the coalescing timer. -/
def Obligations.CommandsAreFetchedAdmittedAndCompleted : Prop :=
  ∀ (s : State),
    (∀ c i q e, (s.ctrl c).sqs.find i = some q → mayFetch s c i = true → myTurn s c i = true →
      (exec (.sqEntryFetch c i none) s = .next (setCfs c s)) ∧
      ∃ t n x, exec (.sqEntryFetch c i (some e)) s = .next t ∧ t.nvme.tracker.find n = some x ∧
        x.ctrl = c ∧ x.sqid = i ∧ x.sqe = e ∧ x.state = .fetched ∧ x.slices = [] ∧
        ((t.ctrl c).sqs.find i).map SubQueue.head = some ((q.head + 1) % q.size) ∧
        t.rcl.status.idle = false ∧ t.timer .idle 0 = some ⟨.idle, 0, t.h + s.rcl.idleDelay.toNat⟩) ∧
    (∀ n e q c, s.nvme.tracker.find n = some e → postable s e = some (q, c) →
      exec (.commandComplete n) s = .next (afterCommand (post n e q c s))) ∧
    (∀ n e, s.nvme.tracker.find n = some e → postable s e = none → exec (.commandComplete n) s = .next s) ∧
    (∀ c i q, s.due .coalesce (coalesceIdx c i) = true → (s.ctrl c).cqs.find i = some q →
      exec (.coalescingTimer c i) s = .next (raiseMsix c q.vector (onCq c i (fun q => { q with uncoalesced := 0 })
        (disarm .coalesce (coalesceIdx c i) s)))) ∧
    (∀ n e m i x, s.yard = false → s.serving = true → s.nvme.tracker.find n = some e → commandSpace s e = some m →
      nextSlice e = some (i, x) → e.waits = true → mayAdmit s e = true →
      granted s n e.admitted.stamp.toNat
        (fun t => match s.nvme.tracker.find t with | some e => mayAdmit s e | none => false) = true →
      (e.unstarted = true → writeLocked s e.sqe.ns e.sqe.slba e.sqe.blocks m.lbaf = false) →
      onLostYard s e.sqe.ns [x.span.1] = false →
      exec (.sliceAdmit n) s = .next (if e.unstarted = true then enterOverlap n (admitNext n i x m e { s with nvme.ceiling := none })
        else admitNext n i x m e { s with nvme.ceiling := none })) ∧
    (∀ n e m i j x p, s.yard = false → s.serving = true → s.nvme.tracker.find n = some e → commandSpace s e = some m →
      e.slices[i]? = some x → x.pieces[j]? = some p → e.state ≠ .done → x.admitted = true → x.position = s.position →
      p.held = false → unitsHere s n m e (p.unit, p.units) = true → blocked s m e (p.unit, p.units) = false →
      haltPermits s e = true → lowerHeld s e i j = true → e.broken = none →
      exec (.pieceHeld n i j) s = .next (settleMedia (wakeAll (writeEnd n (markHeld n i j (onEntry n (fun e => { e with effect := true })
        (holdUnits e.sqe.ns x.desc e.admitted.stamp.toNat
          (((List.range p.units).map fun k => p.unit + k).map fun u => (u, writtenFrame s m e u)) (countXts p.units s)))))))) ∧
    (∀ g j y r, s.yard = true → s.serving = true → s.keaka.slices.find? (fun y => y.tag == g) = some y →
      (y.pieces s)[j]? = some r → y.admitted = true → y.held.contains j = false → y.halt = false →
      (((List.range r.2).map fun k => r.1 + k).all y.received.has) = true → yardBlocked s g y.ns_index r = false →
      yardLowerHeld s g j y = true → ∃ t, exec (.pieceHeld g 0 j) s = .next (settleMedia (wakeAll (sendFrame 0x12 0 g [0, j]
          { t with keaka.slices := t.keaka.slices.filter fun y => !(y.tag == g && y.held.length == (y.pieces t).length) }))) ∧
        t = onYardSlice g (fun y => { y with held := y.held ++ [j] }) (holdUnits y.ns_index y.desc y.stamp.stamp.toNat
          (((List.range r.2).map fun k => r.1 + k).map fun u => (u, y.received.look {} u)) s))

/-- R311 to R315, R337 to R341, R348, R352, R752: creation and deletion of queues, Abort, Asynchronous Event Request,
Resume Queue and opcodes that are not supported. -/
def Obligations.QueueCommandsComplete : Prop :=
  ∀ (s : State) (n : Nat) (e : Entry),
    (fetchedEntry n true 0x05 s = some e →
      (createCqStatus s e ≠ 0 → exec (.createIoCompletionQueue n) s = .next (finishEntry n (createCqStatus s e) 0 s)) ∧
      (createCqStatus s e = 0 → exec (.createIoCompletionQueue n) s = .next (finishEntry n 0 0
        (onCtrl e.ctrl (fun k => { k with cqs := k.cqs.put (e.sqe.cdw10.toNat % 2 ^ 16) {
          size := e.sqe.cdw10.toNat / 2 ^ 16 + 1, ien := e.sqe.cdw11.getLsbD 1, vector := e.sqe.cdw11.toNat / 2 ^ 16,
          stamped := e.sqe.cdw13.getLsbD 0, ring := e.sqe.cdw14.toNat + 2 ^ 32 * e.sqe.cdw15.toNat } })
          (fixAllocation e.ctrl s))))) ∧
    (fetchedEntry n true 0x01 s = some e →
      (createSqStatus s e ≠ 0 → exec (.createIoSubmissionQueue n) s = .next (finishEntry n (createSqStatus s e) 0 s)) ∧
      (createSqStatus s e = 0 → exec (.createIoSubmissionQueue n) s = .next (finishEntry n 0 0
        (onCtrl e.ctrl (fun k => { k with sqs := k.sqs.put (e.sqe.cdw10.toNat % 2 ^ 16) {
          size := e.sqe.cdw10.toNat / 2 ^ 16 + 1, cqid := e.sqe.cdw11.toNat / 2 ^ 16, prio := e.sqe.cdw11.toNat / 2 % 4,
          halt_attr := e.sqe.cdw13.getLsbD 0 } }) (fixAllocation e.ctrl s))))) ∧
    (∀ i q, fetchedEntry n true 0x00 s = some e → i = e.sqe.cdw10.toNat % 2 ^ 16 → i ≠ 0 →
      (s.ctrl e.ctrl).sqs.find i = some q → q.closing = false →
      exec (.deleteIoSubmissionQueue n) s = .next (afterCommand
        (each (((onEntry n (fun e => { e with state := .overlap }) (onSq e.ctrl i (fun q => { q with closing := true }) s)).nvme.tracker.filter
          fun p => p.2.ctrl == e.ctrl && p.2.sqid == i).map Prod.fst) (fun t => failEntry t Status.abortedSqDeletion 0)
          (onEntry n (fun e => { e with state := .overlap }) (onSq e.ctrl i (fun q => { q with closing := true }) s))))) ∧
    (∀ i, fetchedEntry n true 0x04 s = some e → i = e.sqe.cdw10.toNat % 2 ^ 16 → i ≠ 0 → (s.ctrl e.ctrl).cqs.has i = true →
      ((s.ctrl e.ctrl).sqs.vals.any (fun q => q.cqid == i) = true →
        exec (.deleteIoCompletionQueue n) s = .next (finishEntry n Status.invalidQueueDeletion 0 s)) ∧
      ((s.ctrl e.ctrl).sqs.vals.any (fun q => q.cqid == i) = false →
        exec (.deleteIoCompletionQueue n) s = .next (finishEntry n 0 0 (disarm .coalesce (coalesceIdx e.ctrl i)
          (onCtrl e.ctrl (fun k => { k with cqs := k.cqs.drop i }) s))))) ∧
    (fetchedEntry n true 0x08 s = some e →
      (s.nvme.tracker.filter fun p => p.2.ctrl == e.ctrl && p.2.sqid == 0 && p.2.sqe.opcode == 0x08).length ≤ 8 →
      ((∀ p ∈ s.nvme.tracker, p.1 = n ∨ p.2.ctrl ≠ e.ctrl ∨ p.2.sqid ≠ e.sqe.cdw10.toNat % 2 ^ 16
        ∨ p.2.sqe.cid.toNat ≠ e.sqe.cdw10.toNat / 2 ^ 16 ∨ abortable p.2 = false) →
        exec (.abortCommand n) s = .next (finishEntry n 0 1 s)) ∧
      (∀ p, s.nvme.tracker.find? (fun p => p.1 != n && p.2.ctrl == e.ctrl && p.2.sqid == e.sqe.cdw10.toNat % 2 ^ 16
        && p.2.sqe.cid.toNat == e.sqe.cdw10.toNat / 2 ^ 16) = some p → abortable p.2 = true →
        exec (.abortCommand n) s = .next (wakeAll (finishEntry n 0 0 (failEntry p.1 Status.abortRequested 0
          (onCtrl e.ctrl (fun k => { k with aer_requests := k.aer_requests.filter fun t => t != p.1 }) s)))))) ∧
    (fetchedEntry n true 0x0C s = some e →
      (8 ≤ (s.ctrl e.ctrl).aer_requests.length →
        exec (.asynchronousEventRequest n) s = .next (finishEntry n Status.aerLimit 0 s)) ∧
      ((s.ctrl e.ctrl).aer_requests.length < 8 → (s.ctrl e.ctrl).aer_pending = [] →
        exec (.asynchronousEventRequest n) s = .next (onEntry n (fun e => { e with state := .overlap })
          (onCtrl e.ctrl (fun k => { k with aer_requests := k.aer_requests ++ [n] }) s)))) ∧
    (∀ i q, fetchedEntry n true 0xC0 s = some e → i = e.sqe.cdw10.toNat % 2 ^ 16 → i ≠ 0 →
      (s.ctrl e.ctrl).sqs.find i = some q →
      (q.halted = false → exec (.resumeQueue n) s = .next (finishEntry n Status.queueNotHalted 0 s)) ∧
      (q.halted = true → q.halt_read = true → exec (.resumeQueue n) s = .next (finishEntry n 0 0
        (onSq e.ctrl i (fun q => { q with halted := false, halt_entry := none, halt_read := false }) s))) ∧
      (∀ k, q.halted = true → q.halt_read = false → q.halt_entry = some k →
        ((s.ctrl e.ctrl).error_log.any fun x => x.error_count == k) = true →
        exec (.resumeQueue n) s = .next (finishEntry n Status.entryNotRead 0 s))) ∧
    (s.nvme.tracker.find n = some e → e.state = .fetched → dispatches s e = true → s.serving = true → s.yard = false →
      (supportedOpcodes (e.sqid == 0)).contains e.sqe.opcode.toNat = false →
      exec (.invalidCommandOpcode n) s = .next (finishEntry n Status.invalidOpcode 0 s))

/-- R304, R311, R316, R329, R353, R354, R474, R476, R591, R751: every Set Features but Power Management, for a command that
names its identifier: what it sets, what it refuses and with what status; a save is refused as no feature is saveable; and the
value that a Get Features returns. -/
def Obligations.FeaturesAreSetAndRead : Prop :=
  (∀ (s : State) (n : Nat) (e : Entry) (b : Bytes), fetchedEntry n true 0x09 s = some e → e.sqe.save = true →
    (e.sqe.fid = 0x01 → exec (.setFeaturesArbitration n) s = .next (finishEntry n Status.notSaveable 0 s)) ∧
    (e.sqe.fid = 0x04 → exec (.setFeaturesTemperatureThreshold n) s = .next (finishEntry n Status.notSaveable 0 s)) ∧
    (e.sqe.fid = 0x07 → exec (.setFeaturesNumberOfQueues n) s = .next (finishEntry n Status.notSaveable 0 s)) ∧
    (e.sqe.fid = 0x08 → exec (.setFeaturesInterruptCoalescing n) s = .next (finishEntry n Status.notSaveable 0 s)) ∧
    (e.sqe.fid = 0x09 → exec (.setFeaturesInterruptVectorConfig n) s = .next (finishEntry n Status.notSaveable 0 s)) ∧
    (e.sqe.fid = 0x0A → exec (.setFeaturesWriteAtomicity n) s = .next (finishEntry n Status.notSaveable 0 s)) ∧
    (e.sqe.fid = 0x0B → exec (.setFeaturesAsyncEventConfig n) s = .next (finishEntry n Status.notSaveable 0 s)) ∧
    (e.sqe.fid = 0x13 → exec (.setFeaturesPlmConfig n b) s = .next (finishEntry n Status.notSaveable 0 s)) ∧
    (e.sqe.fid = 0x14 → exec (.setFeaturesPlmWindow n) s = .next (finishEntry n Status.notSaveable 0 s)) ∧
    (e.sqe.fid = 0x81 → exec (.setFeaturesHostIdentifier n b) s = .next (finishEntry n Status.notSaveable 0 s)) ∧
    (e.sqe.fid = 0x82 → exec (.setFeaturesReservationNotifMask n) s = .next (finishEntry n Status.notSaveable 0 s)) ∧
    (e.sqe.fid = 0x83 → exec (.setFeaturesReservationPersistence n) s = .next (finishEntry n Status.notSaveable 0 s))) ∧
  (∀ (s : State) (n : Nat) (e : Entry), fetchedEntry n true 0x09 s = some e →
    (e.sqe.fid = 0x0E → exec (.setFeaturesUnsupported n) s = .next (finishEntry n Status.notChangeable 0 s)) ∧
    (supportedFeatures.contains e.sqe.fid = false →
      exec (.setFeaturesUnsupported n) s = .next (finishEntry n Status.invalidField 0 s))) ∧
  (∀ (s : State) (n : Nat) (e : Entry), fetchedEntry n true 0x09 s = some e → e.sqe.save = false → e.sqe.fid = 0x01 →
    exec (.setFeaturesArbitration n) s = .next (finishEntry n 0 0 (onCtrl e.ctrl (fun k => { k with
      arb_burst := e.sqe.cdw11.toNat % 8, weights := e.sqe.cdw11.toNat / 256 }) s))) ∧
  (∀ (s : State) (n : Nat) (e : Entry) (i : Nat), fetchedEntry n true 0x09 s = some e → e.sqe.save = false → e.sqe.fid = 0x04 →
    i = e.sqe.cdw11.toNat / 2 ^ 16 % 16 →
    (i ≤ 8 → e.sqe.cdw11.toNat / 2 ^ 20 % 4 = 0 → exec (.setFeaturesTemperatureThreshold n) s
      = .next (finishEntry n 0 0 (noteHealth (onCtrl e.ctrl (fun k => { k with
          temp_over := k.temp_over.put i (e.sqe.cdw11.toNat % 2 ^ 16 : Nat) }) s)))) ∧
    (i ≤ 8 → e.sqe.cdw11.toNat / 2 ^ 20 % 4 = 1 → exec (.setFeaturesTemperatureThreshold n) s
      = .next (finishEntry n 0 0 (noteHealth (onCtrl e.ctrl (fun k => { k with
          temp_under := k.temp_under.put i (e.sqe.cdw11.toNat % 2 ^ 16 : Nat) }) s)))) ∧
    (8 < i ∨ 1 < e.sqe.cdw11.toNat / 2 ^ 20 % 4 →
      exec (.setFeaturesTemperatureThreshold n) s = .next (finishEntry n Status.invalidField 0 s))) ∧
  (∀ (s : State) (n : Nat) (e : Entry) (a c : Nat), fetchedEntry n true 0x09 s = some e → e.sqe.save = false →
    e.sqe.fid = 0x07 → a = e.sqe.cdw11.toNat % 2 ^ 16 → c = e.sqe.cdw11.toNat / 2 ^ 16 →
    ((s.ctrl e.ctrl).granted.isSome = true →
      exec (.setFeaturesNumberOfQueues n) s = .next (finishEntry n Status.sequenceError 0 s)) ∧
    ((s.ctrl e.ctrl).granted = none → a = 65535 ∨ c = 65535 →
      exec (.setFeaturesNumberOfQueues n) s = .next (finishEntry n Status.invalidField 0 s)) ∧
    ((s.ctrl e.ctrl).granted = none → a ≠ 65535 → c ≠ 65535 → exec (.setFeaturesNumberOfQueues n) s = .next (finishEntry n 0
      (min (a + 1) (queueLimit s) - 1 + 2 ^ 16 * (min (c + 1) (queueLimit s) - 1))
      (onCtrl e.ctrl (fun k => { k with granted := some (min (a + 1) (queueLimit s), min (c + 1) (queueLimit s)) }) s)))) ∧
  (∀ (s : State) (n : Nat) (e : Entry), fetchedEntry n true 0x09 s = some e → e.sqe.save = false → e.sqe.fid = 0x08 →
    exec (.setFeaturesInterruptCoalescing n) s = .next (finishEntry n 0 0 (onCtrl e.ctrl (fun k => { k with
      coalesce_thr := e.sqe.cdw11.toNat % 256, coalesce_time := e.sqe.cdw11.toNat / 256 % 256 }) s))) ∧
  (∀ (s : State) (n : Nat) (e : Entry) (v : Nat), fetchedEntry n true 0x09 s = some e → e.sqe.save = false →
    e.sqe.fid = 0x09 → v = e.sqe.cdw11.toNat % 2 ^ 16 →
    (v < s.vectors e.ctrl → exec (.setFeaturesInterruptVectorConfig n) s = .next (finishEntry n 0 0 (onCtrl e.ctrl (fun k =>
      { k with vector_cd := (k.vector_cd.filter fun x => x != v) ++ (if e.sqe.cdw11.getLsbD 16 then [v] else []) }) s))) ∧
    (s.vectors e.ctrl ≤ v → exec (.setFeaturesInterruptVectorConfig n) s = .next (finishEntry n Status.invalidField 0 s))) ∧
  (∀ (s : State) (n : Nat) (e : Entry), fetchedEntry n true 0x09 s = some e → e.sqe.save = false → e.sqe.fid = 0x0A →
    exec (.setFeaturesWriteAtomicity n) s = .next (finishEntry n 0 0
      (onCtrl e.ctrl (fun k => { k with atomicity := e.sqe.cdw11.toNat % 2 }) s))) ∧
  (∀ (s : State) (n : Nat) (e : Entry), fetchedEntry n true 0x09 s = some e → e.sqe.save = false → e.sqe.fid = 0x0B →
    (e.sqe.cdw11.toNat &&& 0x111F = e.sqe.cdw11.toNat → exec (.setFeaturesAsyncEventConfig n) s
      = .next (finishEntry n 0 0 (onCtrl e.ctrl (fun k => { k with async_config := e.sqe.cdw11.toNat }) s))) ∧
    (e.sqe.cdw11.toNat &&& 0x111F ≠ e.sqe.cdw11.toNat →
      exec (.setFeaturesAsyncEventConfig n) s = .next (finishEntry n Status.invalidField 0 s))) ∧
  (∀ (s : State) (n : Nat) (e : Entry) (b : Bytes), fetchedEntry n true 0x09 s = some e → e.sqe.save = false →
    e.sqe.fid = 0x13 →
    (e.sqe.cdw11.toNat % 2 ^ 16 = 1 → e.sqe.cdw12.getLsbD 0 = false →
      exec (.setFeaturesPlmConfig n b) s = .next (finishEntry n 0 0 (disarm .dtwin 0 { s with
        rcl.status.plm_enabled := false, rcl.status.dtwin := false, reclaim.plm_enable := field b 0 2 }))) ∧
    (e.sqe.cdw11.toNat % 2 ^ 16 = 1 → e.sqe.cdw12.getLsbD 0 = true → s.rcl.cfg.plm_permit = true →
      s.rcl.status.plm_enabled = false → exec (.setFeaturesPlmConfig n b) s = .next (finishEntry n 0 0 (enterWindow false
        { s with rcl.status.plm_enabled := true, reclaim.plm_enable := field b 0 2 }))) ∧
    (e.sqe.cdw11.toNat % 2 ^ 16 = 1 → e.sqe.cdw12.getLsbD 0 = true → s.rcl.cfg.plm_permit = true →
      s.rcl.status.plm_enabled = true → exec (.setFeaturesPlmConfig n b) s = .next (finishEntry n 0 0
        { s with rcl.status.plm_enabled := true, reclaim.plm_enable := field b 0 2 })) ∧
    (e.sqe.cdw11.toNat % 2 ^ 16 ≠ 1 ∨ (e.sqe.cdw12.getLsbD 0 = true ∧ s.rcl.cfg.plm_permit = false) →
      exec (.setFeaturesPlmConfig n b) s = .next (finishEntry n Status.invalidField 0 s))) ∧
  (∀ (s : State) (n : Nat) (e : Entry) (w : Nat), fetchedEntry n true 0x09 s = some e → e.sqe.save = false →
    e.sqe.fid = 0x14 → w = e.sqe.cdw12.toNat % 8 →
    (e.sqe.cdw11.toNat % 2 ^ 16 ≠ 1 ∨ (w ≠ 1 ∧ w ≠ 2) →
      exec (.setFeaturesPlmWindow n) s = .next (finishEntry n Status.invalidField 0 s)) ∧
    (e.sqe.cdw11.toNat % 2 ^ 16 = 1 → w = 1 ∨ w = 2 → s.rcl.status.plm_enabled = false →
      exec (.setFeaturesPlmWindow n) s = .next (finishEntry n Status.sequenceError 0 s)) ∧
    (e.sqe.cdw11.toNat % 2 ^ 16 = 1 → s.rcl.status.plm_enabled = true →
      (w = 1 ∧ s.rcl.status.dtwin = true ∨ w = 2 ∧ s.rcl.status.dtwin = false →
        exec (.setFeaturesPlmWindow n) s = .next (finishEntry n 0 0 s)) ∧
      (w = 2 → s.rcl.status.dtwin = true →
        exec (.setFeaturesPlmWindow n) s = .next (finishEntry n 0 0 (enterWindow false s))) ∧
      (w = 1 → s.rcl.status.dtwin = false →
        s.reclaim.window_entry + s.rcl.ndwinTmin.toNat ≤ s.run ∧ s.rcl.bgStart.toNat ≤ freeCount s →
        exec (.setFeaturesPlmWindow n) s = .next (finishEntry n 0 0 (enterWindow true s))) ∧
      (w = 1 → s.rcl.status.dtwin = false →
        ¬(s.reclaim.window_entry + s.rcl.ndwinTmin.toNat ≤ s.run ∧ s.rcl.bgStart.toNat ≤ freeCount s) →
        exec (.setFeaturesPlmWindow n) s = .next (finishEntry n Status.sequenceError 0 s)))) ∧
  (∀ (s : State) (n : Nat) (e : Entry) (b : Bytes), fetchedEntry n true 0x09 s = some e → e.sqe.save = false →
    e.sqe.fid = 0x81 →
    (e.sqe.cdw11.getLsbD 0 = true → exec (.setFeaturesHostIdentifier n b) s = .next (finishEntry n 0 0
      (onCtrl e.ctrl (fun k => { k with host_id := if field b 0 16 = 0 then none else some (field b 0 16) }) s))) ∧
    (e.sqe.cdw11.getLsbD 0 = false →
      exec (.setFeaturesHostIdentifier n b) s = .next (finishEntry n Status.invalidField 0 s))) ∧
  (∀ (s : State) (n : Nat) (e : Entry), fetchedEntry n true 0x09 s = some e → e.sqe.save = false → e.sqe.fid = 0x82 →
    (e.sqe.nsid ≠ 0xFFFFFFFF → nsidStatus s e = 0 → exec (.setFeaturesReservationNotifMask n) s
      = .next (finishEntry n 0 0 (onCtrl e.ctrl (fun k => { k with
          resv_mask := k.resv_mask.put e.sqe.ns (e.sqe.cdw11.toNat % 16) }) s))) ∧
    (e.sqe.nsid ≠ 0xFFFFFFFF → nsidStatus s e ≠ 0 →
      exec (.setFeaturesReservationNotifMask n) s = .next (finishEntry n (nsidStatus s e) 0 s)) ∧
    (e.sqe.nsid = 0xFFFFFFFF → exec (.setFeaturesReservationNotifMask n) s
      = .next (finishEntry n 0 0 (onCtrl e.ctrl (fun k => { k with
          resv_mask := (s.nvme.namespaces.map Prod.fst).foldl (fun m i => m.put i (e.sqe.cdw11.toNat % 16)) k.resv_mask }) s)))) ∧
  (∀ (s : State) (n : Nat) (e : Entry), fetchedEntry n true 0x09 s = some e → e.sqe.save = false → e.sqe.fid = 0x83 →
    (e.sqe.cdw11.getLsbD 0 = true →
      exec (.setFeaturesReservationPersistence n) s = .next (finishEntry n Status.notChangeable 0 s)) ∧
    (e.sqe.cdw11.getLsbD 0 = false → e.sqe.nsid = 0xFFFFFFFF ∨ nsidStatus s e = 0 →
      exec (.setFeaturesReservationPersistence n) s = .next (finishEntry n 0 0 s)) ∧
    (e.sqe.cdw11.getLsbD 0 = false → e.sqe.nsid ≠ 0xFFFFFFFF → nsidStatus s e ≠ 0 →
      exec (.setFeaturesReservationPersistence n) s = .next (finishEntry n (nsidStatus s e) 0 s))) ∧
  (∀ (s : State) (n : Nat) (e : Entry), fetchedEntry n true 0x0A s = some e → supportedFeatures.contains e.sqe.fid = true →
    e.sqe.cdw10.toNat / 256 % 8 = 0 → getFeatureStatus s e = 0 → exec (.getFeatures n) s
      = .next (onEntry n (fun x => { x with dw0 := (featureValue s e false).1 }) (answer n e (featureValue s e false).2 s)))

/-- R602, R605, R606, R613, R615, R616: Set Features of Power Management in every case: a state or hint that does not exist, a
handshake in progress, the state already requested, a request that leaves the state in force as it is, a return, and a
handshake; while a return runs, or an L4 asserts, the command waits. -/
def Obligations.PowerManagementIsSet : Prop :=
  ∀ (s : State) (n p : Nat) (e : Entry), fetchedEntry n true 0x09 s = some e → e.sqe.save = false → e.sqe.fid = 0x02 →
    p = e.sqe.cdw11.toNat % 32 →
    (4 < p ∨ e.sqe.cdw11.toNat / 32 % 8 ≠ 0 →
      exec (.setFeaturesPowerManagement n) s = .next (finishEntry n Status.invalidField 0 s)) ∧
    (p ≤ 4 → e.sqe.cdw11.toNat / 32 % 8 = 0 →
      (s.power_states.handshake.isSome = true →
        exec (.setFeaturesPowerManagement n) s = .next (finishEntry n Status.sequenceError 0x300 s)) ∧
      (s.power_states.handshake = none → s.reset_ctl.sequence.isSome = true →
        exec (.setFeaturesPowerManagement n) s = .next s) ∧
      (s.power_states.handshake = none → s.reset_ctl.sequence = none → p = requested s e.ctrl →
        exec (.setFeaturesPowerManagement n) s = .next (finishEntry n 0 0 s)) ∧
      (s.power_states.handshake = none → s.reset_ctl.sequence = none → p ≠ requested s e.ctrl →
        s.power_states.returning.isSome = true → exec (.setFeaturesPowerManagement n) s = .next s) ∧
      (s.power_states.handshake = none → s.reset_ctl.sequence = none → p ≠ requested s e.ctrl →
        s.power_states.returning = none →
        (stateByRequests (setRequested e.ctrl p s) = s.psm.status.in_force.toNat → exec (.setFeaturesPowerManagement n) s
          = .next (finishEntry n 0 0 (noteOperational e.ctrl p (setRequested e.ctrl p s)))) ∧
        (stateByRequests (setRequested e.ctrl p s) ≠ s.psm.status.in_force.toNat →
          s.psm.status.in_force = 4 ∨ stateByRequests (setRequested e.ctrl p s) = 0 → exec (.setFeaturesPowerManagement n) s
          = .next (beginReturn (stateByRequests (setRequested e.ctrl p s)) (some n) (noteOperational e.ctrl p
              (setRequested e.ctrl p (onEntry n (fun e => { e with state := .overlap }) s))))) ∧
        (stateByRequests (setRequested e.ctrl p s) ≠ s.psm.status.in_force.toNat →
          s.psm.status.in_force ≠ 4 → stateByRequests (setRequested e.ctrl p s) ≠ 0 → exec (.setFeaturesPowerManagement n) s
          = .next (beginHandshake (stateByRequests (setRequested e.ctrl p s)) e.ctrl (some n) s))))

/-- R311, R354, R348, R589, R593, R651, R751: commands that return data: Get Features, Get Log Page, Identify, the management
commands of the endpoint and Security Receive. -/
def Obligations.DataReturnsToTheHost : Prop :=
  ∀ (s : State) (n : Nat) (e : Entry) (b : Bytes),
    (fetchedEntry n true 0x0A s = some e →
      (∀ k, e.sqe.cdw10.toNat / 256 % 8 = k → k < 3 → supportedFeatures.contains e.sqe.fid = true → getFeatureStatus s e = 0 →
        exec (.getFeatures n) s = .next (onEntry n (fun x => { x with dw0 := (featureValue s e (k != 0)).1 })
          (answer n e (featureValue s e (k != 0)).2 s))) ∧
      (supportedFeatures.contains e.sqe.fid = true → e.sqe.cdw10.toNat / 256 % 8 = 3 → getFeatureStatus s e = 0 →
        exec (.getFeatures n) s = .next (finishEntry n 0 (featureCaps e.sqe.fid) s)) ∧
      (supportedFeatures.contains e.sqe.fid = false →
        exec (.getFeatures n) s = .next (finishEntry n Status.invalidField 0 s))) ∧
    (fetchedEntry n true 0x02 s = some e →
      (logStatus e.sqe = 0 → exec (.getLogPage n) s
        = .next (answer n e (readLog e.ctrl e.sqe s).1 (readLog e.ctrl e.sqe s).2)) ∧
      (logStatus e.sqe ≠ 0 → exec (.getLogPage n) s = .next (finishEntry n (logStatus e.sqe) 0 s)) ∧
      (supportedLogs.contains e.sqe.lid = false → logStatus e.sqe = Status.invalidLog)) ∧
    (fetchedEntry n true 0x06 s = some e →
      (∀ d, identifyData s e.ctrl e.sqe = (0, d) → exec (.identify n) s = .next (answer n e d s)) ∧
      (∀ st d, identifyData s e.ctrl e.sqe = (st, d) → st ≠ 0 → exec (.identify n) s = .next (finishEntry n st 0 s))) ∧
    (fetchedEntry n true 0x1D s = some e → e.sqe.cdw11.toNat % 256 = 4 → exec (.nvmeMiSend n b) s
      = .next (finishEntry n 0 (miConfigSet 2 (e.sqe.cdw12.toNat % 256) e.sqe.cdw13.toNat s).1
          (miConfigSet 2 (e.sqe.cdw12.toNat % 256) e.sqe.cdw13.toNat s).2)) ∧
    (fetchedEntry n true 0x1E s = some e → e.sqe.cdw11.toNat % 256 = 3 → exec (.nvmeMiReceive n) s
      = .next (miAnswer n e (miConfigGet s 2 (e.sqe.cdw12.toNat % 256)).1 (miConfigGet s 2 (e.sqe.cdw12.toNat % 256)).2 s)) ∧
    (fetchedEntry n true 0x82 s = some e →
      (2 ^ 24 < e.sqe.cdw11.toNat → exec (.securityReceive n) s = .next (finishEntry n Status.invalidField 0 s)) ∧
      (e.sqe.cdw11.toNat ≤ 2 ^ 24 → e.sqe.secp = 0 → exec (.securityReceive n) s
        = .next (answer n e (padTo e.sqe.cdw11.toNat ((discovery s).take e.sqe.cdw11.toNat)) s)) ∧
      (e.sqe.cdw11.toNat ≤ 2 ^ 24 → opalAddressed s e.sqe = true → exec (.securityReceive n) s
        = .next (answer n e (padTo e.sqe.cdw11.toNat (s.security.response.take e.sqe.cdw11.toNat)) s)) ∧
      (e.sqe.cdw11.toNat ≤ 2 ^ 24 → e.sqe.secp ≠ 0 → opalAddressed s e.sqe = false →
        exec (.securityReceive n) s = .next (finishEntry n Status.invalidField 0 s)))

/-- R214, R349 to R351: the download of a firmware image and its commits, in which the joined yards take part. -/
def Obligations.FirmwareIsStagedAndCommitted : Prop :=
  ∀ (s : State) (n : Nat) (e : Entry) (b : Bytes),
    (∀ o l, fetchedEntry n true 0x11 s = some e → o = 4 * e.sqe.cdw11.toNat → l = 4 * (e.sqe.cdw10.toNat + 1) →
      (o + l ≤ 2 ^ 24 → (o % 4096 = 0 ∧ l % 4096 = 0 ∨ s.boot.fw_length ≤ o + l) →
        exec (.firmwareImageDownload n b) s = .next (finishEntry n 0 0 { s with
          boot.fw_staging := Cells.writes s.boot.fw_staging o (padTo l b)
          boot.fw_length := max s.boot.fw_length (o + l) })) ∧
      (2 ^ 24 < o + l → exec (.firmwareImageDownload n b) s = .next (finishEntry n Status.invalidField 0 s))) ∧
    (∀ a fs, fetchedEntry n true 0x10 s = some e → a = e.sqe.cdw10.toNat / 8 % 8 → fs = e.sqe.cdw10.toNat % 8 →
      (commitBusy s = true →
        (a = 0 → exec (.firmwareCommitWrite n) s = .next (finishEntry n Status.sequenceError 0 s)) ∧
        (a = 1 → exec (.firmwareCommitWriteActivate n) s = .next (finishEntry n Status.sequenceError 0 s)) ∧
        (a = 2 → exec (.firmwareCommitActivate n) s = .next (finishEntry n Status.sequenceError 0 s))) ∧
      (commitBusy s = false → 2 < fs →
        (a = 0 → exec (.firmwareCommitWrite n) s = .next (finishEntry n Status.invalidSlot 0 s)) ∧
        (a = 1 → exec (.firmwareCommitWriteActivate n) s = .next (finishEntry n Status.invalidSlot 0 s)) ∧
        (a = 2 → exec (.firmwareCommitActivate n) s = .next (finishEntry n Status.invalidSlot 0 s))) ∧
      (∀ t, commitBusy s = false → fs ≤ 2 →
        t = commitFirmware (.host n) a fs s.boot.fw_staging (onEntry n (fun e => { e with state := .overlap })
          (involveYards n (yardsJoined s) ([4, a, fs] ++ (Cells.reads s.boot.fw_staging 0 s.boot.fw_length).map BitVec.toNat) s)) →
        (a = 2 → exec (.firmwareCommitActivate n) s = .next t) ∧
        (a = 0 → exec (.firmwareCommitWrite n) s
          = .next (if t.boot.update.isSome then { t with boot.fw_staging := [], boot.fw_length := 0 } else t)) ∧
        (a = 1 → exec (.firmwareCommitWriteActivate n) s
          = .next (if t.boot.update.isSome then { t with boot.fw_staging := [], boot.fw_length := 0 } else t))))

/-- R44, R304, R321, R325, R329 to R332, R348, R353, R381, R654: a data command that passes every check begins, with its
range in its in-flight entry; a write to a protected device, and a range beyond the namespace, end with their status. -/
def Obligations.DataCommandsBegin : Prop :=
  ∀ (s t : State) (n : Nat) (e x : Entry) (m : Namespace) (p : DataPtr) (b : Bytes),
    s.nspace e.sqe.ns = some m → nsidStatus s e = 0 → e.sqe.fuse = 0 → s.security.genkey = none →
    x = { e with ranges := oneRange e } → t = { s with nvme.tracker := s.nvme.tracker.put n x } →
    (fetchedEntry n false 0x00 s = some e → e.sqe.nsid ≠ 0xFFFFFFFF → exec (.ioFlush n) s = .next (finishEntry n 0 0 s)) ∧
    (fetchedEntry n false 0x01 s = some e → m.nsze < e.sqe.slba + e.sqe.blocks →
      exec (.ioWrite n p) s = .next (finishEntry n Status.lbaRange 0 s)) ∧
    (e.sqe.slba + e.sqe.blocks ≤ m.nsze → transferLength m e.sqe.blocks ≤ 2 ^ 24 →
      (fetchedEntry n false 0x01 s = some e → s.mode = .readOnly →
        exec (.ioWrite n p) s = .next (finishEntry n Status.writeProtected 0 s)) ∧
      (fetchedEntry n false 0x01 s = some e → s.mode ≠ .readOnly → s.pwr.status.below_floor = false →
        conflict s m e.ctrl true = false → pointerStatus p (transferLength m e.sqe.blocks) false = 0 →
        ∃ u, exec (.ioWrite n p) s = .next u ∧ u.shroud = s.shroud ∧ u.nvme.tracker.find n
          = some { x with state := .admitting, ptr := p, slices := slicesOf s m e }) ∧
      (fetchedEntry n false 0x02 s = some e → conflict s m e.ctrl false = false →
        readLocked s e.sqe.ns e.sqe.slba e.sqe.blocks m.lbaf = false →
        pointerStatus p (transferLength m e.sqe.blocks) true = 0 →
        exec (.ioRead n p) s = .next (pumpReads n
          (onEntry n (fun y => { y with state := .overlap, ptr := p, unread := allUnits m x })
            (each (touchedUnits m x) (fun r => noteStream x.sqe.ns r.1 r.2) t)))) ∧
      (fetchedEntry n false 0x0C s = some e → conflict s m e.ctrl false = false →
        readLocked s e.sqe.ns e.sqe.slba e.sqe.blocks m.lbaf = false →
        exec (.ioVerify n) s
          = .next (pumpReads n (onEntry n (fun y => { y with state := .overlap, unread := allUnits m x }) t))) ∧
      (fetchedEntry n false 0x05 s = some e → conflict s m e.ctrl false = false →
        readLocked s e.sqe.ns e.sqe.slba e.sqe.blocks m.lbaf = false →
        pointerStatus p (transferLength m e.sqe.blocks) false = 0 →
        exec (.ioCompare n p) s = .next (compareArrived n (pumpReads n
          (fetchData n (transferLength m x.sqe.blocks) (separateBytes m x.sqe.blocks) 0 (transferBytes m x.sqe.blocks)
            (onEntry n (fun y => { y with state := .transferring, ptr := p, unread := allUnits m x }) t))))) ∧
      (fetchedEntry n false 0x08 s = some e → s.mode ≠ .readOnly → conflict s m e.ctrl true = false →
        writeLocked s e.sqe.ns e.sqe.slba e.sqe.blocks m.lbaf = false →
        exec (.ioWriteZeroes n) s = .next (beginChange n m x t))) ∧
    (fetchedEntry n false 0x09 s = some e → e.sqe.cdw11.getLsbD 2 = false →
      exec (.datasetManagement n b) s = .next (finishEntry n 0 0 s)) ∧
    (fetchedEntry n false 0x09 s = some e → e.sqe.cdw11.getLsbD 2 = true → dsmRanges b e ≠ [] →
      rangeStatus m (dsmRanges b e) = 0 → s.mode ≠ .readOnly → conflict s m e.ctrl true = false →
      (∀ r ∈ dsmRanges b e, writeLocked s e.sqe.ns r.1 r.2 m.lbaf = false) →
      exec (.datasetManagement n b) s = .next (beginChange n m { e with ranges := dsmRanges b e }
        { s with nvme.tracker := s.nvme.tracker.put n { e with ranges := dsmRanges b e } }))

/-- R304: the reservation commands of a controller whose host has an identifier, each action with its result. -/
def Obligations.ReservationsAreHeld : Prop :=
  ∀ (s : State) (n h k : Nat) (e : Entry) (m : Namespace) (b : Bytes) (r : Reservation),
    s.nspace e.sqe.ns = some m → nsidStatus s e = 0 → e.sqe.fuse = 0 → (s.ctrl e.ctrl).host_id = some h →
    r = { m.reservation with generation := (m.reservation.generation + 1) % 2 ^ 32 } →
    (fetchedEntry n false 0x0D s = some e → e.sqe.cdw10.toNat < 2 ^ 30 →
      (e.sqe.cdw10.toNat % 8 = 0 → (∀ x ∈ m.reservation.registrants, x.host_id ≠ h) →
        exec (.reservationRegister n b) s = .next (setReservationOf n e { r with
          registrants := m.reservation.registrants ++ [{ host_id := h, key := field b 8 8, ctrl := e.ctrl }] } s)) ∧
      (∀ x, m.reservation.registrants.find? (fun x => x.host_id == h) = some x →
        (e.sqe.cdw10.toNat % 8 = 0 → x.key = field b 8 8 →
          exec (.reservationRegister n b) s = .next (finishEntry n 0 0 s)) ∧
        (e.sqe.cdw10.toNat % 8 = 0 → x.key ≠ field b 8 8 →
          exec (.reservationRegister n b) s = .next (finishEntry n Status.reservationConflict 0 s)) ∧
        (e.sqe.cdw10.toNat % 8 = 1 → x.key = field b 0 8 ∨ e.sqe.cdw10.toNat.testBit 3 = true →
          exec (.reservationRegister n b) s = .next (setReservationOf n e { (m.reservation.without fun y => y.host_id == h)
            with generation := (m.reservation.generation + 1) % 2 ^ 32 } s)) ∧
        (e.sqe.cdw10.toNat % 8 = 2 → x.key = field b 0 8 ∨ e.sqe.cdw10.toNat.testBit 3 = true →
          exec (.reservationRegister n b) s = .next (setReservationOf n e { r with
            registrants := (m.reservation.registrants.filter fun y => y.host_id != h)
              ++ [{ host_id := h, key := field b 8 8, ctrl := e.ctrl }] } s)))) ∧
    (∀ x, m.reservation.registrants.find? (fun x => x.host_id == h) = some x → x.key = field b 0 8 →
      e.sqe.cdw10.toNat.testBit 3 = false → e.sqe.cdw10.toNat / 256 % 256 = k →
      (fetchedEntry n false 0x11 s = some e → 1 ≤ k → k ≤ 6 →
        (e.sqe.cdw10.toNat % 8 = 0 →
          (m.reservation.type = 0 → exec (.reservationAcquire n b) s
            = .next (setReservationOf n e { m.reservation with type := k, holder := some h } s)) ∧
          (m.reservation.type = k → m.reservation.heldBy h = true →
            exec (.reservationAcquire n b) s = .next (finishEntry n 0 0 s)) ∧
          (m.reservation.type ≠ 0 → m.reservation.heldBy h = false →
            exec (.reservationAcquire n b) s = .next (finishEntry n Status.reservationConflict 0 s))) ∧
        (e.sqe.cdw10.toNat % 8 = 1 → exec (.reservationAcquire n b) s = .next (preempt n e m h (field b 8 8) k false s)) ∧
        (e.sqe.cdw10.toNat % 8 = 2 → exec (.reservationAcquire n b) s = .next (preempt n e m h (field b 8 8) k true s))) ∧
      (fetchedEntry n false 0x15 s = some e →
        (e.sqe.cdw10.toNat % 8 = 0 →
          (m.reservation.heldBy h = true → k = m.reservation.type → exec (.reservationRelease n b) s
            = .next (setReservationOf n e { m.reservation with type := 0, holder := none } s)) ∧
          (m.reservation.heldBy h = false → exec (.reservationRelease n b) s = .next (finishEntry n 0 0 s))) ∧
        (e.sqe.cdw10.toNat % 8 = 1 → exec (.reservationRelease n b) s
          = .next (setReservationOf n e { r with type := 0, holder := none, registrants := [] } s)))) ∧
    (fetchedEntry n false 0x0E s = some e → e.sqe.cdw11.getLsbD 0 = true → 4 * (e.sqe.cdw10.toNat + 1) ≤ 2 ^ 24 →
      exec (.reservationReport n) s = .next (answer n e (padTo (4 * (e.sqe.cdw10.toNat + 1))
        ((reservationStatus m.reservation).take (4 * (e.sqe.cdw10.toNat + 1)))) s))

/-- R345 to R347, R361 to R363, R654: namespaces are created, attached, deleted and formatted. -/
def Obligations.NamespacesAreManaged : Prop :=
  ∀ (s : State) (n : Nat) (e : Entry) (b : Bytes),
    (adminEntry n 0x0D s = some e → e.state = .fetched → askingYards s n = false →
      (e.sqe.cdw10.toNat % 16 = 0 →
        (createStatus s e b ≠ 0 → exec (.namespaceCreate n b) s = .next (finishEntry n (createStatus s e b) 0 s)) ∧
        (createStatus s e b = 0 → place s (newNamespace b) = none →
          exec (.namespaceCreate n b) s = .next (finishEntry n Status.insufficientCapacity 0 s)) ∧
        (∀ m k, createStatus s e b = 0 → place s (newNamespace b) = some m →
          k = (firstFormat s).nvme.namespaces.fresh 0 1024 → exec (.namespaceCreate n b) s
            = .next (createStep n k m { firstFormat s with nvme.namespaces := (firstFormat s).nvme.namespaces.put k m }))) ∧
      (e.sqe.cdw10.toNat % 16 = 1 → allocatedStatus s e = 0 → (∀ p ∈ namespacesNamed s e, p.2.closing = none) →
        ((namespacesNamed s e).any (fun p => namespaceLocked s p.1 p.2) = true →
          exec (.namespaceDelete n) s = .next (finishEntry n Status.accessDenied 0 s)) ∧
        ((namespacesNamed s e).any (fun p => namespaceLocked s p.1 p.2) = false →
          exec (.namespaceDelete n) s = .next (deleteStep n e (closeNamespaces n (namespacesNamed s e) s))))) ∧
    (adminEntry n 0x80 s = some e → e.state = .fetched → allocatedStatus s e = 0 → e.sqe.cdw10.toNat / 32 % 8 = 0 →
      formatLbaf e ≤ 3 → (∀ p ∈ s.nvme.namespaces, p.2.closing = none ∧ namespaceLocked s p.1 p.2 = false) →
      (formatSes e ≤ 2 → s.mode ≠ .readOnly → exec (.formatNvm n) s = .next (formatStep n e
        (closeNamespaces n (if formatSes e = 0 then namespacesNamed s e else s.nvme.namespaces) s))) ∧
      (formatSes e ≤ 2 → s.mode = .readOnly → exec (.formatNvm n) s = .next (finishEntry n Status.writeProtected 0 s)) ∧
      (2 < formatSes e → exec (.formatNvm n) s = .next (finishEntry n Status.invalidField 0 s))) ∧
    (∀ m c, fetchedEntry n true 0x15 s = some e → s.nspace e.sqe.ns = some m → e.sqe.nsid ≠ 0 → m.closing = none →
      s.ctrls.contains c = true → field b 0 2 = 1 → field b 2 2 = c + 1 →
      (e.sqe.cdw10.toNat % 16 = 0 →
        (m.attachedTo c = true → exec (.namespaceAttachment n b) s = .next (finishEntry n Status.alreadyAttached 0 s)) ∧
        (m.attachedTo c = false →
          exec (.namespaceAttachment n b) s = .next (finishEntry n 0 0 (setAttached e.sqe.ns c true s)))) ∧
      (e.sqe.cdw10.toNat % 16 = 1 →
        (m.attachedTo c = false → exec (.namespaceAttachment n b) s = .next (finishEntry n Status.notAttached 0 s)) ∧
        (m.attachedTo c = true →
          exec (.namespaceAttachment n b) s = .next (finishEntry n 0 0 (setAttached e.sqe.ns c false s)))))

/-- R650 to R659: the methods of the Opal subset, for commands of protocol 0x01 or 0x02 while Opal is enabled. -/
def Obligations.OpalMethodsRespond : Prop :=
  ∀ (s : State) (n k : Nat) (e : Entry), adminEntry n 0x81 s = some e → opalAddressed s e.sqe = true →
    (e.sqe.secp = 1 →
      (sessionAdmin s e.ctrl 1 = true →
        (∀ r w, k ≤ s.sec.cfg.range_max.toNat → exec (.opalSetLock n k r w) s = .next (changeStore n (OpalStore.setRange k fun x =>
          { x with read_locked := r.getD x.read_locked, write_locked := w.getD x.write_locked }) s)) ∧
        (∀ c : RangeSet, rangeInvalid s k (c.apply (s.range k)) = false →
          exec (.opalSetRange n k c) s = .next (changeStore n (OpalStore.setRange k c.apply) s)) ∧
        (∀ c : RangeSet, rangeInvalid s k (c.apply (s.range k)) = true →
          exec (.opalSetRange n k c) s = .next (respond n Tcg.invalidParameter s)) ∧
        (k ≤ s.sec.cfg.range_max.toNat → exec (.opalGenkey n k) s = .next (beginGenKey n [k] false s)) ∧
        exec (.opalRevert n) s = .next (beginGenKey n (List.range 65) true s)) ∧
      (sessionAdmin s e.ctrl 1 = false →
        (∀ r w, exec (.opalSetLock n k r w) s = .next (respond n Tcg.notAuthorized s)) ∧
        (∀ c, exec (.opalSetRange n k c) s = .next (respond n Tcg.notAuthorized s)) ∧
        exec (.opalGenkey n k) s = .next (respond n Tcg.notAuthorized s) ∧
        (sessionAdmin s e.ctrl 0 = false → exec (.opalRevert n) s = .next (respond n Tcg.notAuthorized s))) ∧
      (∀ x a p, s.security.session = some x → x.ctrl = e.ctrl → x.authorities = [] →
        exec (.opalAuthenticate n a p) s = .next (respond n (checkPin e.admitted.stamp.toNat a p s).1
          { (checkPin e.admitted.stamp.toNat a p s).2 with security.session := some (if (checkPin e.admitted.stamp.toNat a p s).1 = Tcg.success then { x with authorities := [a] } else x) })) ∧
      (∀ a p, s.security.session = none → exec (.opalAuthenticate n a p) s = .next (respond n Tcg.notAuthorized s)) ∧
      (∀ sp a p, exec (.securitySend n (.startSession sp a p)) s = .next (startSession n e sp a p s)) ∧
      (exec (.securitySend n .endSession) s = .next (respond n Tcg.success (closeSession e.ctrl s))) ∧
      (sessionAdmin s e.ctrl 0 = true →
        exec (.securitySend n .activate) s = .next (changeStore n (fun x => { x with manufactured := true }) s))) ∧
    (e.sqe.secp = 2 →
      exec (.tperReset n) s = .next (finishEntry n 0 0 { s with security.session := none }) ∧
      exec (.securitySend n .stackReset) s
        = .next (finishEntry n 0 0 { s with security.session := none, security.response := [] }))

/-! ### Chapters 9 to 11, mapping, write path and reclaim -/

/-- R370, R376 to R379, R388, R391, R394, R397, R424, R425, R432, R434: stripes are padded and applied, stay pages become
durable, and the translation tier follows its timers. -/
def Obligations.TranslationTierAdvances : Prop :=
  ∀ (s : State),
    (∀ n, s.due .stripePad 0 = true → s.builds = true → s.shroud.filling_host = some n →
      exec .stripePadAge s = .next (settleMedia (padStripe n (disarm .stripePad 0 s)))) ∧
    (∀ n, s.works = true → exec (.stripeApply n) s = .next (driveShutdown (settleMedia (applyStripe n s)))) ∧
    (s.due .stayFlush 0 = true → s.mediaOn = true →
      exec .stayPageFlushAge s = .next (issueStayPage (disarm .stayFlush 0 s))) ∧
    (∀ g, s.shroud.pages.find? (fun p => p.issued && p.done0 && p.done1) = some g → exec .stayPageDurable s
      = .next (driveShutdown (settleMedia
          (releaseDurable { s with shroud.pages := s.shroud.pages.filter fun p => p != g })))) ∧
    (∀ d, s.shroud.repairing = some d → ∃ t, exec .stayRepairDone s
        = .next (settleMedia (releaseDurable (writeRedPage (issueStayPage (appendBuilt 7 t.str.stayGen.toNat t))))) ∧
      t.shroud.repairing = none ∧ t.str.status.stay_repair = false ∧ t.shroud.pair_gen = s.shroud.pair_gen + 1 ∧
      t.str.stayGen = BitVec.ofNat 32 (s.shroud.pair_gen + 1) ∧
      (t.shroud.stay0.map Stay.die = some d ∨ t.shroud.stay1.map Stay.die = some d) ∧
      t.shroud.journal.map StayRecord.seq = s.shroud.journal.map StayRecord.seq) ∧
    (∀ p c, s.engine.cache.find p = some c → c.waiting = true →
      (∀ o ∈ s.media.ops, o.2.owner ≠ .mapPage p) → (∀ r ∈ s.redun.recons, r.2.use ≠ .mapPage p) →
      ∃ t u, t = { s with engine.cache := s.engine.cache.put p { c with waiting := false } } ∧
        u = each (t.engine.specs.filter fun x => (missing t x.unit).isEmpty) settleSpec t ∧
        exec (.mapPageArrival p) s = .next (settleMedia (each u.nvme.tracker (fun x s =>
          if x.2.state = .overlap then s else readUnits x.1 (waitingUnits s x.1 x.2) s) u))) ∧
    (∀ p c, s.due .mapWriteback p = true → s.works = true → s.engine.cache.find p = some c →
      (c.dirty = true →
        exec (.mapPageWritebackAge p) s = .next (settleMedia (writeBack p (disarm .mapWriteback p s)))) ∧
      (c.dirty = false → exec (.mapPageWritebackAge p) s = .next (disarm .mapWriteback p s))) ∧
    (s.due .checkpoint 0 = true → s.works = true →
      exec .checkpointInterval s = .next (settleMedia (checkpointTrigger (disarm .checkpoint 0 s)))) ∧
    (∀ c, s.engine.current = some c → c.units_left = 0 → checkpointOpen s c.begin_stamp.stamp.toNat = false →
      ∃ t, exec .checkpointComplete s
          = .next (driveShutdown (settleMedia (releaseDurable (if t.engine.queued then checkpointTrigger t else t)))) ∧
        t.engine.current = none ∧ t.engine.queued = s.engine.queued ∧ t.map.status.ckpt_busy = false ∧
        t.map.ckptStamp = c.begin_stamp.stamp ∧ t.map.ckptHorizon = BitVec.ofNat 64 c.horizon ∧
        t.engine.complete = (c :: s.engine.complete).take 2) ∧
    (∀ r a b, s.due .fold r = true → (s.mode = .run ∨ s.mode = .reduced) → s.map.cfg.fold_enable = true →
      s.engine.table.find r = some (.fine a b) →
      (∀ x ∈ reefEntries s r, ∃ a, x = .flash a) →
      exec (.foldAge r) s = .next (each (List.range 16) (fun i s' => match (reefEntries s r).getD i .unmapped with
        | .flash a => readCopy s.nextStamp (16 * r + i) a s'
        | _ => s') { disarm .fold r s with engine.folding := s.engine.folding ++ [r] })) ∧
    (∀ n, s.due .stream n = true →
      exec (.streamEnd n) s = .next { disarm .stream n s with engine.streams := s.engine.streams.drop n })

/-- R456, R460, R464, R468, R475, R548: counts become ready, victims are chosen, released blocks are erased, the device
becomes idle, a window ends, a failed die's stripes are walked. -/
def Obligations.ReclaimAdvances : Prop :=
  ∀ (s : State),
    ((s.mode = .run ∨ s.mode = .reduced ∨ s.mode = .patrol ∨ s.mode = .readOnly) → s.rcl.status.counts_ready = false →
      exec .countsReady s = .next (settleMedia (sweepGroups { rebuildCounts s with rcl.status.counts_ready := true }))) ∧
    (s.works = true → s.reclaim.victims.length < 2 →
      (nextVictim s = none → exec .reclaimVictimSelect s = .next s) ∧
      (∀ k g, nextVictim s = some (k, g) → ∃ t, exec .reclaimVictimSelect s = .next (settleMedia (sweepGroups t)) ∧
        (s.map.cfg.paged = false → t.reclaim.victims = s.reclaim.victims ++ [{ blocks := g, cls := k, chosen := (takeStamp s).1 }] ∧
        t.rcl.status.last_class = BitVec.ofNat 4 k))) ∧
    (∀ k, s.works = true → (s.blockAt k).state = .released → 16 ≤ k % 4096 → unreferenced s k = true →
      s.rcl.status.dtwin = false → exec (.eraseIssue k) s = .next (addOp
        { kind := .erase, owner := .erase, die := k / 4096, block := k % 4096, stamp := (s.blockAt k).release_stamp }
        (onBlock k (fun b => { b with state := .erasing }) s))) ∧
    (∀ k, s.rcl.status.dtwin = true → exec (.eraseIssue k) s = .next s) ∧
    (∀ i o, s.op i = some o → o.kind = .erase → (o.state = .running ∨ o.state = .suspending) → o.overdue = false →
      exec (.eraseComplete i true) s
        = .next (settleMedia (peStats (eraseDone (blockKey o.die o.block) (freeLun i o.die (dropOp i s))))) ∧
      exec (.eraseComplete i false) s
        = .next (settleMedia (peStats (eraseFailed (blockKey o.die o.block) (freeLun i o.die (dropOp i s)))))) ∧
    (s.due .idle 0 = true → outstanding s 0 = false → outstanding s 1 = false →
      exec .idleDetect s = .next { disarm .idle 0 s with rcl.status.idle := true }) ∧
    (s.due .dtwin 0 = true → exec .dtwinTimeout s = .next (leaveWindow plmMaximum (disarm .dtwin 0 s))) ∧
    (∀ d k, (s.mode = .run ∨ s.mode = .reduced) → s.redun.walk = some (d, k) → (s.die d).state = 3 →
      rebuilding s < s.red.cfg2.rebuild_depth.toNat →
      (∀ n x, (stripesOn s d).find? (fun p => decide (k < p.1)) = some (n, x) → ∃ t, t.redun.walk = some (d, n) ∧
        exec .rebuildStripeVisit s = .next (settleMedia (each (rebuildWanted t x)
          (fun w => beginRecon (takeStamp s).1.stamp.toNat w.1 w.2) t))) ∧
      ((stripesOn s d).find? (fun p => decide (k < p.1)) = none → rebuilding s = 0 →
        exec .rebuildStripeVisit s = .next (settleMedia (endWalk d s)))) ∧
    (∀ i, s.redun.cutover = some i → ∃ t, exec .reshapeCutover s = .next (settleMedia (recount t)) ∧
      t.redun.cutover = none ∧ t.str.status.shape = BitVec.ofNat 2 i ∧ t.red.status.reshape = 1 ∧
      t.red.status.from_shape = BitVec.ofNat 2 s.shapeNow)

/-! ### Chapters 12 and 13, flash channels and die redundancy -/

/-- R38, R173, R174, R318, R500, R501, R508, R509, R512, R518 to R521, R525: the ledger and the sequencers grant, channels
train, dies are discovered, and operations complete, are decoded and are suspended. -/
def Obligations.ChannelsServeOperations : Prop :=
  ∀ (s : State),
    exec .ledgerAdmit s = .next (ledgerPass s) ∧
    (∀ c, exec (.sequencerGrant c) s = .next (sequencerGrant c s)) ∧
    (∀ i l o, ledgerQueue s = i :: l → s.op i = some o → starved s o.stamp = true → s.media.ceiling = none → s.mediaOn = true →
      exec (.starvationCeilingReached .ledger) s = .next (ledgerPass (ceilingGrant { s with media.ceiling := some i }))) ∧
    (∀ t v l, waitingSlices s = (t, v) :: l → starved s v = true → s.nvme.ceiling = none →
      exec (.starvationCeilingReached .writeBuffer) s = .next (ceilingGrant { s with nvme.ceiling := some t })) ∧
    (∀ c i o, oldestEligible s c = some i → s.op i = some o → starved s o.stamp = true → s.mediaOn = true →
      exec (.starvationCeilingReached (.sequencer c)) s = .next (grantOp i (ceilingGrant s))) ∧
    (∀ c, s.mediaOn = true → mediaSleeps s = false → transferQueued s c = false → retrainDue s c = true →
      exec (.channelRetrain c) s = .next (disarm .retrain c (onChannelStatus c (fun r => { r with training := true })
        (onChannel c (fun x => { x with training := some true }) s)))) ∧
    (∀ c b e, (s.media.channels.look {} c).training = some b →
      e = onChannelErr c (fun r => { r with train_fail := satAdd r.train_fail 1 }) s →
      exec (.channelTrainingDone c true) s = .next (settleMedia (trained c s)) ∧
      (∀ m x, nextRate e c (e.ch.chnStatus.look {} c).mode.toNat (e.ch.chnStatus.look {} c).rate.toNat = some (m, x) →
        exec (.channelTrainingDone c false) s
          = .next (onChannelStatus c (fun r => { r with mode := BitVec.ofNat 4 m, rate := BitVec.ofNat 4 x }) e)) ∧
      (nextRate e c (e.ch.chnStatus.look {} c).mode.toNat (e.ch.chnStatus.look {} c).rate.toNat = none →
        exec (.channelTrainingDone c false) s = .next (settleMedia (failChannel c e)))) ∧
    (∀ p found mine chans dies lost, (s.power.pairs.look {} p).phase = .settled → p < 8 →
      (∀ i, i < 6 → (s.media.channels.look {} (6 * p + i)).training = none) →
      mine = (found.filter fun f => diePair f.die == p && f.id == (s.geo f.die).id) →
      chans = (List.range 6).map (fun i => 6 * p + i) → dies = chans.flatMap (declaredOn s) →
      lost = (dies.filter fun d => !mine.any fun f => f.die == d) →
      ∃ t u, exec (.discoveryComplete p found) s = .next (settleMedia (each (dies.filter fun d => mine.any fun f => f.die == d)
          returnDie (dropMissing lost (each lost (fun d => missingDie d mine) u)))) ∧
        t = each chans (fun c => showChannel c (mine.filter fun f => s.declared f.die)) { s with
          power.pairs := s.power.pairs.put p { s.power.pairs.look {} p with phase := .discovered, found := true }
          media.found := s.media.found
            ++ (mine.map DiscoveredDie.die).filter fun d => s.declared d && !s.media.found.contains d } ∧
        u = each ((found.filter fun f => diePair f.die == p && !s.declared f.die).map fun f => f.die / 4).eraseDups
          (fun ce => raise (channelSource (ce / 8)) 3 (leBytes 4 (ce % 8 + 16 * lunsOn found ce))) t) ∧
    (∀ i o, s.op i = some o → o.kind = .program → (o.state = .running ∨ o.state = .suspending) → ∀ b,
      (o.overdue = false → exec (.programComplete i b) s = .next (settleMedia (programReported o b (freeLun i o.die (dropOp i s))))) ∧
      (o.overdue = true → exec (.programComplete i b) s = .next (settleMedia (freeLun i o.die (dropOp i s))))) ∧
    (∀ i o f, s.op i = some o → o.kind = .read → o.state = .running → (s.lun o.die).running = some i →
      exec (.readSenseComplete i f) s = .next (settleMedia
        (each (i :: (s.media.ops.filter fun p => p.2.merged == some i).map Prod.fst) (senseOp f)
          (countSense (blockKey o.die o.block) (onLun o.die (fun l => { l with running := none }) s))))) ∧
    (∀ i o r rest, s.op i = some o → o.state = .decoding → o.soft = false → o.decoder = true → o.pending ≠ [] →
      rest = (o.pending.filter fun p => !r.any fun x => x.ok && x.position == p) →
      ∃ t x, t.op i = some x ∧ x.pending = rest ∧ x.decoder = false ∧
        (o.unconfirmed = true → exec (.hardDecodeComplete i r) s = .next (grantDecoders t)) ∧
        (o.unconfirmed = false → rest = [] → exec (.hardDecodeComplete i r) s = .next (settleMedia (readEnded i t))) ∧
        (o.unconfirmed = false → rest ≠ [] → exec (.hardDecodeComplete i r) s = .next (settleMedia (nextSense i t)))) ∧
    (∀ i o r, s.op i = some o → o.state = .decoding → o.soft = true → o.decoder = true →
      ∃ t x, exec (.softDecodeComplete i r) s = .next (settleMedia (giveUp i t)) ∧ t.op i = some x ∧
        (∀ y, y ∈ x.pending ↔ y ∈ o.pending ∧ ∀ z ∈ r, z.ok = true → z.position ≠ y)) ∧
    (∀ d j o, (s.lun d).running = some j → s.op j = some o → o.state = .suspending →
      exec (.suspendComplete d) s = .next (sequencerGrant (dieChannel d) (arm .suspHold d s.ch.suspHoldMax.toNat
        (onLun d (fun l => { l with running := none, suspended := some j, susp_reads := 0 })
          (onOp j (fun o => { o with state := .suspended }) s))))) ∧
    (∀ d j o, (s.lun d).suspended = some j → (s.lun d).running = none → s.op j = some o → o.state = .suspended →
      (resumeDue s d = true ∨ ∀ p ∈ s.media.ops, p.2.die = d → p.2.kind = .read → eligible s p.2 = false) →
      exec (.suspendResume d) s = .next (disarm .suspHold d (onOp j (fun o => { o with state := .resuming }) s)))

/-- R507, R537, R539, R541, R776: operations that pass their limits, resets of a LUN, becalmed dies and their probes. -/
def Obligations.TimeoutsOfDiesAct : Prop :=
  ∀ (s : State),
    (∀ i o, s.op i = some o →
      (o.state = .suspending → (s.geo o.die).t_susp_max < s.run - o.run_from → exec (.dieOpTimeout i) s
        = .next (timeoutOutcome o.die (onOp i (fun x => { x with state := .running, run_from := s.run }) s))) ∧
      (o.state = .running → 2 * longest s o + 2 ^ 26 < o.ran + (s.run - o.run_from) → (s.lun o.die).reset = false →
        exec (.dieOpTimeout i) s = .next (timeoutOutcome o.die
          (arm .dieReset o.die (2 ^ 23) (onLun o.die (fun l => { l with reset := true }) s)))) ∧
      (o.state = .running → 2 * longest s o < o.ran + (s.run - o.run_from) →
        o.ran + (s.run - o.run_from) ≤ 2 * longest s o + 2 ^ 26 →
        (o.kind = .read → o.resensed = false →
          exec (.dieOpTimeout i) s = .next (timeoutOutcome o.die (onOp i (fun x => { x with resensed := true, run_from := s.run })
            (countSense (blockKey o.die o.block) s)))) ∧
        (o.kind = .program → o.overdue = false → exec (.dieOpTimeout i) s = .next (settleMedia (timeoutOutcome o.die
          (programReported o false (onOp i (fun x => { x with overdue := true }) s))))) ∧
        (o.kind = .erase → o.overdue = false → exec (.dieOpTimeout i) s = .next (settleMedia (timeoutOutcome o.die
          (eraseFailed (blockKey o.die o.block) (onOp i (fun x => { x with overdue := true }) s))))))) ∧
    (∀ d, (s.lun d).reset = true →
      ((s.lun d).running = none → exec (.lunResetReady d) s
        = .next (disarm .dieReset d (onLun d (fun l => { l with reset := false, running := none }) s))) ∧
      (∀ i, (s.lun d).running = some i → exec (.lunResetReady d) s = .next (settleMedia (endAtReset i
        (disarm .dieReset d (onLun d (fun l => { l with reset := false, running := none }) s))))) ∧
      (s.due .dieReset d = true →
        ((s.lun d).running = none → exec (.lunResetTimeout d) s
          = .next (settleMedia (failDie d 2 (disarm .dieReset d (onLun d (fun _ => {}) s))))) ∧
        (∀ i, (s.lun d).running = some i → exec (.lunResetTimeout d) s
          = .next (settleMedia (failDie d 2 (endAtReset i (disarm .dieReset d (onLun d (fun _ => {}) s)))))))) ∧
    (∀ i o f, s.op i = some o → o.kind = .read → o.timed = false → o.first = some f →
      (f + s.red.readTimeout.toNat ≤ o.wait_from.getD s.run → ∃ t, exec (.becalmedReadTimeout i) s = .next (settleMedia
          (if (reconstructFor o t).red.cfg.fail_count.toNat ≤ windowTimeouts (reconstructFor o t) o.die
            then failDie o.die 3 (reconstructFor o t) else reconstructFor o t)) ∧
        (t.die o.die).timeouts = (s.die o.die).timeouts ++ [s.run] ∧
        (t.die o.die).becalmed = ((s.die o.die).becalmed || (s.die o.die).state == 0) ∧
        t.red.becalmEvents.timeouts = satAdd s.red.becalmEvents.timeouts 1) ∧
      (o.wait_from.getD s.run < f + s.red.readTimeout.toNat → exec (.becalmedReadTimeout i) s = .next s)) ∧
    (∀ d, s.due .probe d = true → (s.die d).becalmed = true → (s.die d).state = 0 → s.mode ≠ .patrol →
      ∃ t, exec (.probeInterval d) s = .next t ∧ t.timer .probe d = some ⟨.probe, d, t.h + s.red.probeInterval.toNat⟩ ∧
        t.media.op_next = s.media.op_next + 1 ∧ (t.media.ops.find s.media.op_next).map NandOp.owner = some .probe)

/-! ### Chapters 14 and 15, temperature and power states -/

/-- R568, R572 to R576, R578 to R581, R583, R49, R50: each step of the thermal loop while the model runs, and the end of an
entry into Thermal Halt. -/
def Obligations.ThermalLoopActs : Prop :=
  ∀ (s : State),
    (∀ l t u v, s.due .thermalStep 0 = true → s.thm.status.running = true →
      t = showComposite (arm .thermalStep 0 s.thm.step.toNat { s with
        thermal.temps := (List.range 14).map fun i => nodeStep s i (nodePower s l i)
        thermal.pair_sum := [], thermal.pair_cycles := 0 }) →
      u = (if sensorTemp t 0 = sensorTemp s 0 then t else noteMiAll Mi.temperature t) → v = noteHealth (testWarning u) →
      (s.mode = .thermalHalt → exec (.thermalModelStep l) s = .next (noteHealth u)) ∧
      (s.mode ≠ .thermalHalt →
        (v.m < degrees v.thm.thresh.halt.toNat ∨ v.thermal.halt ≠ none → exec (.thermalModelStep l) s = .next (showLevel v)) ∧
        (degrees v.thm.thresh.halt.toNat ≤ v.m → v.thermal.halt = none →
          exec (.thermalModelStep l) s = .next (showLevel (thresholdReached v))))) ∧
    (∀ l x, s.thm.status.running = false → exec (.thermalModelStep l) s = .next s ∧
      exec (.thermalCalibration [] x) s = .next s ∧ exec .throttleTest s = .next s) ∧
    (∀ l x t, s.due .thermalCal 0 = true → s.thm.status.running = true →
      t = takeReading 6 x (each (List.range 6) (fun k => takeReading k (l.getD k .fault))
        (arm .thermalCal 0 s.thm.calInterval.toNat s)) →
      ((∃ i, i < 6 ∧ t.thermal.excluded.has i = false) ∨ t.thm.status.model_degraded = true →
        exec (.thermalCalibration l x) s
          = .next (noteHealth (countTimes (compensate (showSources (calibrateExt (calibrateDie t))))))) ∧
      ((∀ i, i < 6 → t.thermal.excluded.has i = true) → t.thm.status.model_degraded = false →
        exec (.thermalCalibration l x) s
          = .next (noteHealth (countTimes (compensate (showSources (raise (src 3 8) 0 [] (startModel l x t)))))))) ∧
    (s.due .throttle 0 = true → s.thm.status.running = true →
      (s.mode = .flush ∨ s.mode = .thermalHalt → exec .throttleTest s = .next s) ∧
      (∀ t, s.mode ≠ .flush → s.mode ≠ .thermalHalt → t = arm .throttle 0 s.thm.throttlePeriod.toNat s →
        (degrees s.thm.thresh.throttle.toNat ≤ s.m → exec .throttleTest s = .next (showLevel (throttleUp t))) ∧
        (s.m < degrees s.thm.thresh.throttle.toNat → s.thm.status.throttling = false → exec .throttleTest s = .next t) ∧
        (s.thm.status.throttling = true → s.m < degrees s.thm.thresh.throttle.toNat - degrees s.thm.thresh.hyst.toNat →
          exec .throttleTest s = .next (showLevel (throttleDown t))))) ∧
    (s.power_states.handshake = none →
      exec .clockLevelEffective s = .next { s with thermal.level_effective := levelInForce s }) ∧
    (∀ h, s.power_states.handshake = some h → exec .clockLevelEffective s
      = .next { s with thermal.level_effective := if h.target < 4 then levelFor' s h.target else levelInForce s }) ∧
    (∀ r u t, s.thermal.entry = some .record → s.thermal.halt = some r → recordPending [2] s = false →
      (s.mode = .start → u = { s with health.counts.halt_entries := s.health.counts.halt_entries + 1 }) →
      (s.mode ≠ .start →
        u = writeHealthPage (postRest { s with health.counts.halt_entries := s.health.counts.halt_entries + 1 })) →
      t = tellStopped (haltOff (setMode .thermalHalt { u with thermal.entry := none, thermal.halt := none })) →
      (t.reset_ctl.deferred = none → exec .thermalHaltEntryComplete s = .next t) ∧
      (∀ a, t.reset_ctl.deferred = some a →
        (levelOf t a.code = 5 → exec .thermalHaltEntryComplete s = .next (assertL5 a false t)) ∧
        (levelOf t a.code ≠ 5 → exec .thermalHaltEntryComplete s = .next (actL4 a t))))

/-- R580, table "Throttle control": while throttling, a test at or above the throttle threshold lowers the cap by one eighth to
no less than its minimum with Method A, and raises the clock level by Method B only where Method A is off or at its minimum. -/
def Obligations.ThrottleRaisesCapThenLevel : Prop :=
  ∀ (s : State), s.thm.status.throttling = true →
    (s.thm.cfg.method_a = true → s.thm.cfg2.toNat < s.thermal.cap →
      (throttleUp s).thermal.cap = max s.thm.cfg2.toNat (s.thermal.cap * 7 / 8) ∧
      (throttleUp s).thermal.loop_level = s.thermal.loop_level) ∧
    ((s.thm.cfg.method_a = false ∨ s.thermal.cap ≤ s.thm.cfg2.toNat) → s.thm.cfg.method_b = true → s.thermal.loop_level < 2 →
      (throttleUp s).thermal.cap = s.thermal.cap ∧ (throttleUp s).thermal.loop_level = s.thermal.loop_level + 1) ∧
    (throttleUp s).thm.status.throttling = true

/-- R608, R609, R613, R620, R622, R625: participants answer a handshake, a handshake times out, a return from Patrol goes
through its steps, and the Patrol cycle wakes and ends. -/
def Obligations.HandshakesAndPatrolAdvance : Prop :=
  ∀ (s : State),
    (∀ h c, s.power_states.handshake = some h → h.waiting.contains c = true → c ≠ 0x0B →
      (refuses s h.target c = false → delays s h.target c = false →
        exec (.handshakeReply c false) s = .next (participantAccepts c h s)) ∧
      (delays s h.target c = true ∨ refuses s h.target c = true → exec (.handshakeReply c false) s = .next s) ∧
      (refuses s h.target c = true →
        exec (.handshakeReply c true) s = .next (refuseHandshake h (h.waiting.filter (refuses s h.target)) 1 s))) ∧
    (∀ h, s.power_states.handshake = some h → s.due .handshake 0 = true → h.waiting.filter (delays s h.target) ≠ [] →
      exec .handshakeTimeout s = .next (refuseHandshake h (h.waiting.filter (delays s h.target)) 2 s)) ∧
    (∀ r t, s.power_states.returning = some r → t = { s with power_states.returning := some { r with step := r.step + 1 } } →
      (r.step = 1 → exec .patrolReturnStep s
        = .next (each (children s) (fun p => sendFrame 0x30 p 0 [r.target, 1]) (cancelPatrol t))) ∧
      (r.step = 2 → exec .patrolReturnStep s = .next t) ∧
      (r.step = 3 → exec .patrolReturnStep s = .next (each ((List.range 48).filter (retrainDue s)) beginBusTraining t)) ∧
      (r.step = 4 → (∀ c ∈ s.media.channels, c.2.training = none) → exec .patrolReturnStep s = .next t) ∧
      (∀ c ∈ s.media.channels, r.step = 4 → c.2.training ≠ none → exec .patrolReturnStep s = .next s) ∧
      (r.step = 5 → exec .patrolReturnStep s = .next (endReturn r s))) ∧
    (s.due .patrolPeriod 0 = true → s.psm.status.in_force = 4 → s.power_states.returning = none →
      s.psm.patrolCfg.patrol_enable = true → s.power_states.cycle = none → s.serving = true →
      ∃ t, exec .patrolWake s = .next t ∧ t.psm.status.patrol_phase = 2 ∧ t.power_states.cycle
        = some (takeStamp (arm .patrolPeriod 0 s.psm.patrolPeriod.toNat s)).1.stamp.toNat) ∧
    (∀ u, s.power_states.cycle ≠ none → (∀ x ∈ s.power_states.samples, x.done = true) ∨ s.due .patrolQuarter 0 = true →
      u = each (s.power_states.samples.filter PatrolSample.done) compareSample
        (cancelPatrol { s with psm.status.patrol_phase := 3 }) →
      exec .patrolSampleEnd s = .next (disarm .patrolQuarter 0 { u with
        power_states.cycle := none, power_states.samples := []
        psm.status.patrol_phase := if u.psm.status.in_force = 4 then 1 else 0 }))

/-! ### Chapters 16 and 17, engines and scrubbing -/

/-- R637 to R639, R645 to R649, R674, R675, R678 to R681: cipher lanes, digest contexts, the signature checker and the
scrubber finish what they hold. -/
def Obligations.EnginesFinish : Prop :=
  ∀ (s : State),
    (∀ l m a b, s.security.lanes.find l = some m →
      (m.sealing = true → nonceLeft s = true → exec (.gcmMessageDone l a b) s = .next (messageSealed l m (freeLane l s))) ∧
      (m.sealing = true → nonceLeft s = false → exec (.gcmMessageDone l a b) s = .next s) ∧
      (m.sealing = false → exec (.gcmMessageDone l a b) s = .next (messageOpened a b (freeLane l s)))) ∧
    (∀ c u, s.security.contexts.find c = some u →
      (u.compares = false → ∀ a b, exec (.digestDone c a b) s = .next (freeDigest c s)) ∧
      (u.compares = true → exec (.digestDone c true false) s = .next (freeDigest c s) ∧
        exec (.digestDone c false true) s = .next (checkFailed u (freeDigest c s)) ∧
        ∀ a t, t = freeDigest c s → exec (.digestDone c a a) s = .next (checkFailed u (flagFault
          { t with sec.flagFaults.digest := satAdd t.sec.flagFaults.digest 1 })))) ∧
    (∀ u r t, s.security.checker = u :: r → t = { s with security.checker := r } →
      exec (.signatureVerifyDone true false) s = .next { t with
        sec.sigCount.verified := satAdd t.sec.sigCount.verified 1 } ∧
      exec (.signatureVerifyDone false true) s = .next (checkFailed u.2 { t with
        sec.sigCount.rejected := satAdd t.sec.sigCount.rejected 1 }) ∧
      ∀ a, exec (.signatureVerifyDone a a) s = .next (checkFailed u.2 (flagFault { t with
        sec.sigCount.rejected := satAdd t.sec.sigCount.rejected 1
        sec.flagFaults.sig := satAdd t.sec.flagFaults.sig 1 }))) ∧
    (∀ r, r < 4 → s.due (scrubTimer r) r = true → scrubs s r = true →
      (s.memory.passes.has r = false → exec (.scrubPassStart r) s = .next (beginPass r s)) ∧
      (s.memory.passes.has r = true → ∃ t, exec (.scrubPassStart r) s = .next t ∧
        t.mem.scrStatus.overrun = setBit s.mem.scrStatus.overrun r true ∧ t.memory.due.contains r = true)) ∧
    (∀ r a p v o f, s.memory.passes.find r = some p → scrubs s r = true → p.position ≤ a → a % scrubWord r = 0 →
      f = (fun (p : ScrubPass) (s : State) => if scrubBytes r ≤ p.position then endPass r p s
        else { s with memory.passes := s.memory.passes.put r p }) →
      (scrubBytes r ≤ a → exec (.scrubWordRead r a v o) s = .next (endPass r p s)) ∧
      (a < scrubBytes r →
        ((r ≠ 2 → v = false) → (r = 2 → s.memory.cmb_valid.contains (a / 4) = false) →
          exec (.scrubWordRead r a v o) s = .next (f { p with position := a + scrubWord r } s)) ∧
        ((r ≠ 2 → v = true) → (r = 2 → s.memory.cmb_valid.contains (a / 4) = true) →
          exec (.scrubWordRead r a v .clean) s = .next (f { p with position := a + scrubWord r, words := p.words + 1 } s) ∧
          exec (.scrubWordRead r a v .corrected) s = .next (f
            { p with position := a + scrubWord r, words := p.words + 1, corrected := p.corrected + 1 } (wordCorrected r a s)) ∧
          ∀ x y, exec (.scrubWordRead r a v (.uncorrectable x y)) s = .next (f
            { p with position := a + scrubWord r, words := p.words + 1, uncorrectable := p.uncorrectable + 1 }
            (wordUncorrectable r a x y s)))))

/-! ### Chapter 18, Teasel -/

/-- R687 to R698, R702: searches, inserts, removals, a move of a block shift and the probe. -/
def Obligations.TeaselCommandsAct : Prop :=
  ∀ (s : State) (q : TslSearch) (e : TslEntry), s.teaselOn = true →
    (1 ≤ q.n → q.n ≤ 4096 → exec (.teaselSearch q none) s = .next { s with
      teasel.result := tslSearch s q
      tsl.searches := s.tsl.searches + 1
      tsl.hits := if (tslSearch s q).hit then s.tsl.hits + 1 else s.tsl.hits }) ∧
    (∀ a t, 1 ≤ q.n → q.n ≤ 4096 → a < 65536 → q.banks.getLsbD (a / 4096) = true → t = tslRebuild a s →
      exec (.teaselSearch q (some a)) s = .next { t with
        teasel.result := tslSearch t q
        tsl.searches := t.tsl.searches + 1
        tsl.hits := if (tslSearch t q).hit then t.tsl.hits + 1 else t.tsl.hits }) ∧
    (e.inSpace = true →
      exec (.teaselSearchInsert e) s = .next (tslSearchInsert e s).2 ∧
      exec (.teaselOrderedInsert e) s = .next (tslOrdered e s) ∧
      (∀ a, tslFree s 32768 16384 = some a → exec (.teaselFreeSlotInsert .overlap e) s = .next (tslWrite a e s)) ∧
      (∀ a, tslFree s 49152 8192 = some a → exec (.teaselFreeSlotInsert .stripes e) s = .next (tslWrite a e s)) ∧
      (tslFree s 32768 16384 = none → exec (.teaselFreeSlotInsert .overlap e) s
        = .next { s with tsl.err.refused := satAdd s.tsl.err.refused 1 }) ∧
      (tslFree s 49152 8192 = none → exec (.teaselFreeSlotInsert .stripes e) s
        = .next { s with tsl.err.refused := satAdd s.tsl.err.refused 1 }) ∧
      (∃ t, exec (.teaselRingInsert e) s = .next t ∧ t.tslAt (57344 + s.teasel.ring) = { e with valid := true } ∧
        t.teasel.ring = (s.teasel.ring + 1) % 8192)) ∧
    (∀ a, 32768 ≤ a → a < 57344 → ∃ t, exec (.teaselRemoveByAddress a) s = .next t ∧
      (∀ x, s.teasel.entries.find a = some x → t.tslAt a = { x with valid := false }) ∧
      (∀ b, b ≠ a → t.tslAt b = s.tslAt b)) ∧
    (exec (.teaselRemoveByMatch q) s = .next (tslRemove { q with banks := q.banks &&& 0xC0FF } s)) ∧
    (exec .teaselShiftMove s = .next (tslMove s)) ∧
    (∀ a, s.isHeld .cmd = false → exec (.teaselProbe a) s = .next { s with
      tsl.probeAddr := a, tsl.probeHi := (s.tslAt a.toNat).hi, tsl.probeLo := (s.tslAt a.toNat).payload })

/-! ### Chapters 19 and 20, the Keaka cascade and error handling -/

/-- R712 to R717, R731, R739: links train, retrain and go down, frames are refused by their number, heartbeats and time
requests are sent, and yards that do not join are lost. -/
def Obligations.KeakaLinksTrainAndFail : Prop :=
  ∀ (s : State) (n : Nat), n < 2 →
    (∀ w, s.isHeld .keaka = false → ((s.linkStatus n).state = 1 ∨ (s.linkStatus n).state = 3) →
      ((s.link n).step = 1 → s.pads.present.getLsbD n = true →
        exec (.keakaLinkTrainingStep n w) s = .next (onLink n (fun x => { x with step := 2 }) s)) ∧
      ((s.link n).step = 2 → exec (.keakaLinkTrainingStep n w) s = .next (onLink n (fun x => { x with step := 3 }) s)) ∧
      ((s.link n).step = 3 → exec (.keakaLinkTrainingStep n w) s = .next (widthChosen n w s)) ∧
      ((s.link n).step = 4 → exec (.keakaLinkTrainingStep n w) s
        = .next (say (.frame n 0x01 (s.linkStatus n).peer.toNat 0 0 (identBody s)) (onLink n (fun x => { x with step := 5 }) s))) ∧
      ((s.link n).step = 5 → (s.keaka.yards.look {} (s.linkStatus n).peer.toNat).ident_ok = true →
        exec (.keakaLinkTrainingStep n w) s = .next (linkRaised n s))) ∧
    (∀ f i, s.linkUp n = false → ((s.linkStatus n).state = 1 ∨ (s.linkStatus n).state = 3) → 4 ≤ (s.link n).step →
      f.src = (s.linkStatus n).peer.toNat → exec (.identFrame n f i) s = .next (takeIdent n f i s)) ∧
    (s.linkUp n = true →
      exec (.frameReceiveError n .crc) s
        = .next (sendNak n { s with kk.frameErr.crc := satAdd s.kk.frameErr.crc 1 }) ∧
      exec (.frameReceiveError n .length) s
        = .next (sendNak n { s with kk.frameErr.length := satAdd s.kk.frameErr.length 1 }) ∧
      exec (.frameReceiveError n .sequence) s = .next (sendNak n s) ∧
      (s.due .kkHeartbeat n = true → exec (.keakaHeartbeatSend n) s
        = .next (sendOnLink n { type := 0x3F, src := s.position, dst := (s.linkStatus n).peer.toNat } s)) ∧
      (s.due .kkAck n = true → (s.link n).replay ≠ [] → exec (.keakaAckTimeout n) s = .next (beginRetrain n s)) ∧
      exec (.keakaLaneLockLoss n) s = .next (beginRetrain n s) ∧
      (s.due .kkLink n = true → exec (.keakaLinkTimeout n) s = .next (linkDown n s)) ∧
      (∀ f, f.seq ≠ (s.link n).rx_seq → exec (.heartbeat n f) s = .next (sendNak n s))) ∧
    (s.due .kkJoin 0 = true → s.yard = false → exec .keakaJoinTimeout s = .next (each [1, 2, 3] (fun p s =>
      if topoPresent s p && !s.kk.status.joined.getLsbD p && !s.kk.status.lost.getLsbD p then loseYard p s else s)
      (disarm .kkJoin 0 s))) ∧
    (∀ t, s.yard = true → s.due .yardDialog 0 = true → s.camp.status.floor_seeded = true →
      t = arm .yardDialog 0 s.camp.ptmInterval.toNat s →
      (s.linkUp 0 = false → exec .yardTimeDialogInterval s = .next (startYardDialog t)) ∧
      (∀ st u, s.linkUp 0 = true → takeStamp t = (st, u) → exec .yardTimeDialogInterval s
        = .next (startYardDialog (sendFrame 0x38 0 0 (4 :: (healthLog u st ++ logTail u).map BitVec.toNat) u))))

/-- R706, R713, R715, R717: a frame in order for this position is accepted and has its effect; a heartbeat for another
position goes on its way.  `t` is the state once the frame's acknowledgement has been taken. -/
def Obligations.KeakaFramesTakeEffect : Prop :=
  ∀ (s t : State) (n : Nat) (h : KkHeader), n < 2 → s.linkUp n = true → h.seq = (s.link n).rx_seq → t = acceptFrame n h s →
    (h.dst ≠ s.position → exec (.heartbeat n h) s = .next (sendOnLink (linkToward t 4 h.dst)
      { type := 0x3F, src := h.src, dst := h.dst, tag := h.tag, body := [] } t)) ∧
    (h.dst = s.position →
      exec (.heartbeat n h) s = .next t ∧
      exec (.linkControl n h none) s = .next t ∧
      (∀ k, exec (.linkControl n h (some k)) s = .next (resendFrom n k t)) ∧
      (∀ i, exec (.identFrame n h i) s = .next (takeIdent n h i t)) ∧
      (∀ k b, b = [k, t.h, t.h, t.camp.status.anchored.toNat, if t.yard then t.keaka.step_count.getD 0 else t.keaka.steps] →
        exec (.timeRequest n h k) s
          = .next (sendOnLink n { type := 0x04, src := t.position, dst := h.src, tag := h.tag, body := b } t)) ∧
      (∀ r, t.yard = true → t.keaka.request = some r.t1 → t.h ≤ r.t1 + 2 ^ 22 →
        exec (.timeResponse n h r) s = .next (takeTime r t)) ∧
      (∀ k, t.yard = true → exec (.floorSet n h k) s = .next { t with keaka.floor_set := some k }) ∧
      (∀ k, t.yard = false → exec (.floorReport n h k) s = .next { t with
        keaka.yards := t.keaka.yards.put h.src { t.keaka.yards.look {} h.src with floor := some k } }) ∧
      (∀ x, t.yard = true → sliceRefusal t ≠ 0 →
        exec (.sliceOpen n h x) s = .next (sendFrame 0x12 0 h.tag [1, sliceRefusal t] t)) ∧
      (∀ x, t.yard = true → sliceRefusal t = 0 → exec (.sliceOpen n h x) s = .next { t with
        keaka.slices := t.keaka.slices ++ [{ tag := h.tag, ns_index := x.ns_index, first := x.first, units := x.units, stamp := x.stamp, halt := x.halt }] }) ∧
      (∀ u f, exec (.writeData n h u f) s = .next (onYardSlice h.tag (fun y => { y with received := y.received.put u f }) t)) ∧
      (∀ e st, t.yard = false → t.nvme.tracker.find (tagEntry h.tag) = some e →
        exec (.sliceStatus n h (.refused st)) s = .next (wakeAll (failEntry (tagEntry h.tag) st 0 t))) ∧
      (∀ e j, t.yard = false → t.nvme.tracker.find (tagEntry h.tag) = some e → e.sqe.opcode = 0x01 → e.sqid ≠ 0 →
        exec (.sliceStatus n h (.held j)) s = .next (pieceHeldAway h.tag j h.src t)) ∧
      (∀ e j, t.yard = false → t.nvme.tracker.find (tagEntry h.tag) = some e → (e.sqe.opcode ≠ 0x01 ∨ e.sqid = 0) →
        exec (.sliceStatus n h (.held j)) s = .next (wakeAll (yardAnswered (tagEntry h.tag) h.src t))) ∧
      exec (.releaseFrame n h []) s = .next { t with
        keaka.slices := t.keaka.slices.map fun y => if tagEntry y.tag = tagEntry h.tag then { y with released := true } else y } ∧
      (∀ l, l ≠ [] → exec (.releaseFrame n h l) s = .next { t with
        keaka.slices := t.keaka.slices.map fun y => if y.tag = h.tag then { y with permitted := y.permitted ++ l } else y }) ∧
      (∀ u, t.yard = true → u = each (t.keaka.slices.filter fun y => tagEntry y.tag == tagEntry h.tag)
          (fun y s => if y.admitted then releaseSliceUnits y.desc (y.unheld s) s else s) t →
        exec (.abortFrame n h) s = .next (wakeAll { u with
          keaka.slices := u.keaka.slices.filter fun y => !(tagEntry y.tag == tagEntry h.tag)
          nvme.tracker := u.nvme.tracker.drop (tagEntry h.tag) })) ∧
      (∀ x e, t.yard = true → e = (t.nvme.tracker.find (tagEntry h.tag)).getD
          { ctrl := 0, sqid := 1, state := .overlap, admitted := x.stamp
            sqe := { opcode := 0x02, nsid := BitVec.ofNat 32 (x.ns_index + 1) } } →
        exec (.readRequest n h x) s = .next (pumpReads (tagEntry h.tag) { t with
          nvme.tracker := t.nvme.tracker.put (tagEntry h.tag)
            { e with unread := e.unread ++ (List.range x.units).map fun k => unitOfDevice t (x.first + k) } })) ∧
      (∀ u f, t.yard = false →
        exec (.readData n h u f) s = .next (wakeAll (unitReturned (tagEntry h.tag) u h.src f t))) ∧
      (∀ st e u l, t.yard = false → st ≠ 0 → t.nvme.tracker.find (tagEntry h.tag) = some e →
        e.remote_left.filter (fun u => deviceOf t e.sqe.ns u == h.src) = u :: l → exec (.readStatus n h st) s
          = .next (wakeAll (dataArrived (tagEntry h.tag) (unitFailed (tagEntry h.tag) u st t)))) ∧
      (∀ r, s.yard = true → t.yard = true → (chunkRuns s r.ns_index (r.first, r.count)).length ≤ recordRoom s →
        exec (.recordFrame n h r) s = .next (settleMedia (sendFrame 0x12 0 h.tag [0, 0]
          (each (chunkRuns s r.ns_index (r.first, r.count))
            (fun x => holdChange r.kind r.ns_index r.ordinal x.1 x.2 r.stamp) t)))) ∧
      (∀ op, t.yard = true → exec (.adminForward n h op) s = .next (runForwarded h.tag op t)) ∧
      (∀ st d, (t.keaka.admin.any fun a => a.entry == h.tag && a.asked == some h.src) = true →
        exec (.adminResult n h st d) s = .next (forwardEnded h.tag st d t)) ∧
      (∀ p b, t.yard = true → t.serving = true → t.power_states.returning = none →
        (b = true ∨ p = 0 → exec (.powerStateRequest n h p b) s = .next (beginReturn p none (setRequested 0 p t))) ∧
        (p ≠ 0 → t.power_states.handshake = none → exec (.powerStateRequest n h p false) s
          = .next (beginHandshake p 0 none { t with keaka.parent_request := some h.tag }))) ∧
      (∀ x a b, t.power_states.handshake = some x → x.waiting.contains 0x0B = true →
        exec (.powerStateReply n h (some (a, b))) s = .next (refuseHandshake x [0x0B] b t)) ∧
      (∀ x u, t.power_states.handshake = some x → x.waiting.contains 0x0B = true →
        u = { t with keaka.power_waiting := t.keaka.power_waiting.filter fun p => p != h.src } →
        (u.keaka.power_waiting = [] → exec (.powerStateReply n h none) s = .next (participantAccepts 0x0B x u)) ∧
        (u.keaka.power_waiting ≠ [] → exec (.powerStateReply n h none) s = .next u)) ∧
      (∀ r, t.yard = false → exec (.eventForward n h r) s = .next (takeReport h.src r t)))

/-! ### The whole machine -/

/-- A step with a command at the front of the queue is that command's effect on the state with the rest of the queue, and with
an empty queue a step is one oscillator cycle (the model's choice, log entry 4). -/
def Obligations.StepRunsTheFrontCommand : Prop :=
  ∀ (s : State) (c : Instr) (l : List Instr),
    step { s with pending := c :: l } = exec c { s with pending := l } ∧
    (s.pending = [] → step s = .next (tick s)) ∧
    (∀ t, step { s with pending := c :: l } = .next t → exec c { s with pending := l } = .next t)

/-- Headline: every step keeps what the spec gives the stored state (memory in the model's canonical form; the event ring of
R745, the handler's slots of R757 to R759, the error logs of R753) and takes exactly its one command from the queue. -/
def Obligations.EveryStepKeepsTheStateSound : Prop :=
  ∀ (s t : State), Sound s.pending s → step s = .next t → Sound s.pending.tail t

/-- The state after reset is sound, and holds no command (tier 1 companion of `EveryStepKeepsTheStateSound`). -/
def Obligations.ResetStateIsSound : Prop :=
  Sound [] State.reset

/-- R11: no command stops the block: what is not allowed in a state is turned away and the block goes on. -/
def Obligations.EveryCommandGoesOn : Prop :=
  ∀ (c : Instr) (s : State), goesOn (exec c s) ∧ goesOn (step { s with pending := c :: s.pending })

/-- The device right after power is applied: in Hold with power-on reset asserted and every reset domain held, H and L at 0,
the floor not seeded, no command, namespace or event, PS0 in force, and neither controller enabled, ready or granted queues.
What R24, R46, R73 and the register tables do not give of it is the model's choice (log entry 1). -/
def Obligations.ResetLeavesTheStatedValues : Prop :=
  State.reset.mode = .hold ∧ State.reset.pending = [] ∧ State.reset.power.por = true ∧
  (∀ d : Domain, State.reset.isHeld d = true) ∧
  State.reset.time.hq = 0 ∧ State.reset.time.last = 0 ∧ State.reset.camp.status.floor_seeded = false ∧
  State.reset.nvme.tracker = [] ∧ State.reset.nvme.namespaces = [] ∧ State.reset.events.ring = [] ∧
  State.reset.teasel.ring = 0 ∧ State.reset.psm.status.in_force = 0 ∧ State.reset.psm.status.req0 = 0 ∧
  (∀ c, (State.reset.ctrl c).en = false ∧ (State.reset.ctrl c).rdy = false ∧ (State.reset.ctrl c).granted = none)

/-- R311: the first Set Features Number of Queues after a Controller Reset fixes the allocation; requests above the limit are
granted at the limit, the granted values are returned 0-based; a later one completes with Command Sequence Error; creating a
queue before the allocation is fixed grants the limit. A request of 65,535 is an invalid field (log entry 81). -/
def Obligations.QueueAllocationIsFixedOnce : Prop :=
  ∀ (s : State) (n : Nat) (e : Entry) (a c : Nat),
    (∀ k b, (resetController b k).granted = none) ∧
    (∀ u st d x, u.nvme.tracker.find n = some x → finishEntry n st d u = markDone n st d (noteDetected n st u) ∧
      (markDone n st d u).nvme.tracker.find n = some { x with status := st, dw0 := d, state := .done }) ∧
    (fetchedEntry n true 0x09 s = some e → e.sqe.fid = 0x07 → e.sqe.save = false →
      a = e.sqe.cdw11.toNat % 2 ^ 16 → c = e.sqe.cdw11.toNat / 2 ^ 16 →
      ((s.ctrl e.ctrl).granted = none → a = 65535 ∨ c = 65535 →
        exec (.setFeaturesNumberOfQueues n) s = .next (finishEntry n Status.invalidField 0 s)) ∧
      ((s.ctrl e.ctrl).granted = none → a ≠ 65535 → c ≠ 65535 → ∃ t u, exec (.setFeaturesNumberOfQueues n) s = .next t ∧
        (t.ctrl e.ctrl).granted = some (min (a + 1) (queueLimit s), min (c + 1) (queueLimit s)) ∧
        t = finishEntry n 0 ((min (a + 1) (queueLimit s) - 1) + 2 ^ 16 * (min (c + 1) (queueLimit s) - 1)) u ∧
        u = onCtrl e.ctrl (fun k => { k with granted := some (min (a + 1) (queueLimit s), min (c + 1) (queueLimit s)) }) s) ∧
      ((s.ctrl e.ctrl).granted ≠ none → ∃ t, exec (.setFeaturesNumberOfQueues n) s = .next t ∧
        (t.ctrl e.ctrl).granted = (s.ctrl e.ctrl).granted ∧ t = finishEntry n Status.sequenceError 0 s)) ∧
    ((s.ctrl e.ctrl).granted = none →
      (fetchedEntry n true 0x05 s = some e → createCqStatus s e = 0 → ∃ t, exec (.createIoCompletionQueue n) s = .next t ∧
        (t.ctrl e.ctrl).granted = some (queueLimit s, queueLimit s)) ∧
      (fetchedEntry n true 0x01 s = some e → createSqStatus s e = 0 → ∃ t, exec (.createIoSubmissionQueue n) s = .next t ∧
        (t.ctrl e.ctrl).granted = some (queueLimit s, queueLimit s)))

/-- R745, R746, R748, R749: an entry takes the slot of its sequence number and no other slot changes; one overwritten before
the host has read it raises EVT_OVERFLOW; a disabled source writes nothing, and three sources are always enabled. -/
def Obligations.EventRingTakesEntries : Prop :=
  ∀ (s : State) (e : EventDraft) (st : Stamped) (q : Nat), q = (s.evt.ringSeq.toNat + 1) % 2 ^ 32 →
    ((ringWrite e st s).evt.ringSeq.toNat = q ∧
      (∃ x, (ringWrite e st s).events.ring.find (q % 4096) = some x ∧ x.seq = q ∧ x.stamp = st ∧
        x.draft.source = e.source ∧ x.draft.detail = e.detail ∧ x.draft.payload = e.payload) ∧
      (∀ k, k ≠ q % 4096 → (ringWrite e st s).events.ring.find k = s.events.ring.find k) ∧
      (∀ o, s.events.ring.find (q % 4096) = some o →
        (s.evt.hostSeq.toNat < o.seq → (ringWrite e st s).evt.overflow = satAdd s.evt.overflow 1) ∧
        (o.seq ≤ s.evt.hostSeq.toNat → (ringWrite e st s).evt.overflow = s.evt.overflow)) ∧
      (s.events.ring.find (q % 4096) = none → (ringWrite e st s).evt.overflow = s.evt.overflow)) ∧
    (∀ n d b, s.sourceOn n = false → raise n d b s = s) ∧
    (s.sourceOn 0 = true ∧ s.sourceOn 32 = true ∧ s.sourceOn 579 = true)

/-- R757 to R759: the first error takes slot 0, one behind it slot 1, and one behind both is held and raises fatal status with
CSTS.CFS on every enabled controller; at the end of a handling slot 1 moves to slot 0 and the oldest held error to slot 1. -/
def Obligations.ErrorHandlerTakesAndEndsErrors : Prop :=
  ∀ (s : State) (e : ErrorDraft) (l : List Nat),
    exec .errorHandlingEnd s = .next { s with
      events.slot0 := s.events.slot1, events.slot1 := s.events.held.head?, events.held := s.events.held.drop 1 } ∧
    (s.handlerOn = true →
      (∀ z, s.events.slot0 = some z → s.events.slot1 = none →
        (takeError e l s).events.slot1.map HandlerError.source = some e.source ∧
        (takeError e l s).events.slot0.map HandlerError.source = some z.source) ∧
      (s.events.slot0 = none → ((takeError e l s).events.slot0.map HandlerError.source) = some e.source ∧
        (takeError e l s).evt.status.fatal = s.evt.status.fatal) ∧
      (∀ z w, s.events.slot0 = some z → s.events.slot1 = some w →
        (takeError e l s).evt.status.fatal = true ∧
        (takeError e l s).events.held.map HandlerError.source = s.events.held.map HandlerError.source ++ [e.source] ∧
        (takeError e l s).events.slot0.map HandlerError.source = some z.source ∧
        (takeError e l s).events.slot1.map HandlerError.source = some w.source ∧
        (∀ c ∈ s.enabledCtrls, ((takeError e l s).ctrl c).cfs = true)))

/-- R753, R755: an error information entry goes in front of its controller's log, which keeps its newest 256, and the lifetime
Error Count rises by one. -/
def Obligations.ErrorLogKeepsTheNewest : Prop :=
  ∀ (s : State) (d : ErrorDraft) (h : Option Nat) (st : Stamped), d.target = 0 →
    ∃ x, (deliverError d h st s).nvme.ctrl0.error_log = (x :: s.nvme.ctrl0.error_log).take 256 ∧
      x.error_count = s.nvme.error_count + 1 ∧ x.stamp = st ∧ x.draft.source = d.source ∧
      (deliverError d h st s).nvme.error_count = s.nvme.error_count + 1 ∧
      (deliverError d h st s).nvme.ctrl1.error_log = s.nvme.ctrl1.error_log

/-- R689, table "Search results": a search hits when some valid entry of its banks meets its range and filter; it returns,
among those of the highest prio, the one at the lowest address, and counts at most 15. -/
def Obligations.TeaselSearchFindsTheFirst : Prop :=
  ∀ (s : State) (q : TslSearch), Tab.ok s.teasel.entries = true →
    ((tslSearch s q).hit = true ↔ ∃ a e, s.teasel.entries.find a = some e ∧ tslMatches q a e = true) ∧
    ((tslSearch s q).hit = true →
      s.teasel.entries.find (tslSearch s q).address = some (tslSearch s q).first ∧
      tslMatches q (tslSearch s q).address (tslSearch s q).first = true ∧
      (∀ a e, s.teasel.entries.find a = some e → tslMatches q a e = true →
        e.prio ≤ (tslSearch s q).first.prio ∧
        (e.prio = (tslSearch s q).first.prio → (tslSearch s q).address ≤ a)) ∧
      (tslSearch s q).count = min 15 (s.teasel.entries.filter fun p => tslMatches q p.1 p.2).length) ∧
    (∀ d i a b c x y, (sliceEntry d i).prio = 0 ∧ (recordEntry a b c x).prio = 0 ∧ (overlapEntry a b c x y).prio = 0 ∧
      (memberEntry a b c x).prio = 0 ∧ (hintEntry a b).prio = 0)

/-- R694: a free-slot insert takes the lowest address of its group that holds no valid entry; a ring insert takes the address
at the pointer and leaves at most one valid hint with its key. -/
def Obligations.TeaselInsertsTakeTheirAddress : Prop :=
  ∀ (s : State) (e : TslEntry) (g : TslGroup) (lo n : Nat), (lo, n) = groupSpan g →
    (∀ a, (tslFreeSlot g e s).1 = some a →
      lo ≤ a ∧ a < lo + n ∧ (s.tslAt a).valid = false ∧ (∀ b, lo ≤ b → b < a → (s.tslAt b).valid = true) ∧
      (tslFreeSlot g e s).2.tslAt a = { e with valid := true } ∧
      (∀ b, b ≠ a → (tslFreeSlot g e s).2.tslAt b = s.tslAt b)) ∧
    ((tslFreeSlot g e s).1 = none → ∀ b, lo ≤ b → b < lo + n → (s.tslAt b).valid = true) ∧
    ((tslRing e s).teasel.ring = (s.teasel.ring + 1) % 8192 ∧
      (tslRing e s).tslAt (57344 + s.teasel.ring) = { e with valid := true }) ∧
    (s.teasel.ring < 8192 → ∀ a x, 57344 ≤ a → (tslRing e s).teasel.entries.find a = some x → x.valid = true →
      x.key = e.key → a = 57344 + s.teasel.ring)

/-- R108, R109, R127, R128: while a reset that reaches their domain is asserted ACT_LED# and FAULT# are high-impedance;
otherwise FAULT# is low in Read-Only and Thermal Halt and wherever a controller has failed or Start has, ACT_LED# is low after a
completed I/O command but in Start, Flush and Thermal Halt, and elsewhere both take the level of their fuse code, which on
shipped parts is high-impedance. -/
def Obligations.FaultBallFollowsTheState : Prop :=
  ∀ (s : State),
    (released s .mgmt = true → faultBall s = .highZ ∧ actLedBall s = .highZ) ∧
    (s.mode = .hold → faultBall s = .highZ ∧ actLedBall s = .highZ) ∧
    (s.mode = .start ∨ s.mode = .flush ∨ s.mode = .thermalHalt → actLedBall s = .highZ) ∧
    (released s .mgmt = false → s.mode ≠ .hold →
      (s.mode = .readOnly ∨ s.mode = .thermalHalt ∨ s.mgmt.modeStatus.start_fail ≠ 0 ∨
        s.nvme.ctrl0.cfs = true ∨ s.nvme.ctrl1.cfs = true → faultBall s = .low) ∧
      (s.mode ≠ .readOnly → s.mode ≠ .thermalHalt → s.mgmt.modeStatus.start_fail = 0 → s.nvme.ctrl0.cfs = false →
        s.nvme.ctrl1.cfs = false → faultBall s = padOfCode s.pad.resetMap.led_fault) ∧
      (s.mode ≠ .start → s.mode ≠ .flush → s.mode ≠ .thermalHalt →
        (s.nvme.act_led = true → actLedBall s = .low) ∧
        (s.nvme.act_led = false → actLedBall s = padOfCode s.pad.resetMap.led_fault))) ∧
    padOfCode State.reset.pad.resetMap.led_fault = .highZ ∧ padOfCode 1 = .low ∧ padOfCode 2 = .high ∧ padOfCode 3 = .highZ
end

