-- ==== Sys2Proof/Laws/Memory.lean ====
section
/-!
SUPPORT. Laws of tables and byte memories: a read after a write, and the canonical form.
-/

namespace Sys2Proof.Machine

/-! ### Tables -/

/-- Indexes rise strictly, as a property of the list. -/
theorem Tab.ok_iff {α : Type} (t : Tab α) : Tab.ok t = true ↔ t.Pairwise fun a b => a.1 < b.1 := by
  induction t with
  | nil => simp [Tab.ok]
  | cons p t ih =>
    cases t with
    | nil => simp [Tab.ok]
    | cons r t =>
      obtain ⟨i, u⟩ := p
      obtain ⟨j, v⟩ := r
      simp only [Tab.ok, Bool.and_eq_true, decide_eq_true_eq, ih, List.pairwise_cons]
      constructor
      · rintro ⟨h, h2, h3⟩
        refine ⟨?_, h2, h3⟩
        intro b hb
        rcases List.mem_cons.mp hb with rfl | hb
        · exact h
        · exact Nat.lt_trans h (h2 b hb)
      · rintro ⟨h, h2, h3⟩
        exact ⟨h (j, v) (List.mem_cons_self ..), h2, h3⟩

/-- Every entry after a write was there, or is the one written. -/
theorem Tab.mem_put {α : Type} {t : Tab α} {k : Nat} {v : α} {p : Nat × α} (h : p ∈ Tab.put t k v) :
    p = (k, v) ∨ p ∈ t := by
  induction t with
  | nil => simpa [Tab.put] using h
  | cons q t ih =>
    obtain ⟨j, u⟩ := q
    unfold Tab.put at h
    split at h
    · simpa using h
    · split at h
      · rcases List.mem_cons.mp h with h | h
        · exact .inl h
        · exact .inr (List.mem_cons_of_mem _ h)
      · rcases List.mem_cons.mp h with h | h
        · exact .inr (h ▸ List.mem_cons_self ..)
        · rcases ih h with h | h
          · exact .inl h
          · exact .inr (List.mem_cons_of_mem _ h)

/-- Every entry after a removal was there. -/
theorem Tab.mem_drop {α : Type} {t : Tab α} {k : Nat} {p : Nat × α} (h : p ∈ Tab.drop t k) : p ∈ t := by
  induction t with
  | nil => simp [Tab.drop] at h
  | cons q t ih =>
    obtain ⟨j, u⟩ := q
    unfold Tab.drop at h
    split at h
    · exact List.mem_cons_of_mem _ (ih h)
    · rcases List.mem_cons.mp h with h | h
      · exact h ▸ List.mem_cons_self ..
      · exact List.mem_cons_of_mem _ (ih h)

/-- A write keeps the indexes rising. -/
theorem Tab.ok_put {α : Type} {t : Tab α} {k : Nat} {v : α} (h : Tab.ok t = true) : Tab.ok (Tab.put t k v) = true := by
  rw [Tab.ok_iff] at h ⊢
  induction t with
  | nil => simp [Tab.put]
  | cons q t ih =>
    obtain ⟨j, u⟩ := q
    simp only [List.pairwise_cons] at h
    unfold Tab.put
    split
    · rename_i hk
      simp only [List.pairwise_cons]
      refine ⟨?_, h.1, h.2⟩
      intro b hb
      rcases List.mem_cons.mp hb with rfl | hb
      · exact hk
      · exact Nat.lt_trans hk (h.1 b hb)
    · split
      · rename_i _ hk
        subst hk
        simp only [List.pairwise_cons]
        exact ⟨h.1, h.2⟩
      · simp only [List.pairwise_cons]
        refine ⟨?_, ih h.2⟩
        intro b hb
        rcases Tab.mem_put hb with rfl | hb
        · show j < k
          omega
        · exact h.1 b hb

/-- A removal keeps the indexes rising. -/
theorem Tab.ok_drop {α : Type} {t : Tab α} {k : Nat} (h : Tab.ok t = true) : Tab.ok (Tab.drop t k) = true := by
  rw [Tab.ok_iff] at h ⊢
  induction t with
  | nil => simp [Tab.drop]
  | cons q t ih =>
    obtain ⟨j, u⟩ := q
    simp only [List.pairwise_cons] at h
    unfold Tab.drop
    split
    · exact ih h.2
    · simp only [List.pairwise_cons]
      exact ⟨fun b hb => h.1 b (Tab.mem_drop hb), ih h.2⟩

/-! ### Byte memories -/

/-- A write keeps the canonical form. -/
theorem Cells.write_wf {m : List (Nat × Byte)} {a : Nat} {b : Byte} (h : Cells.wf m = true) :
    Cells.wf (Cells.write m a b) = true := by
  simp only [Cells.wf, Bool.and_eq_true, List.all_eq_true] at h ⊢
  unfold Cells.write
  split
  · exact ⟨Tab.ok_drop h.1, fun p hp => h.2 p (Tab.mem_drop hp)⟩
  · rename_i hb
    refine ⟨Tab.ok_put h.1, fun p hp => ?_⟩
    rcases Tab.mem_put hp with rfl | hp
    · simpa using hb
    · exact h.2 p hp

/-- Writes of bytes in turn keep the canonical form. -/
theorem Cells.writes_wf {m : List (Nat × Byte)} {a : Nat} {l : Bytes} (h : Cells.wf m = true) :
    Cells.wf (Cells.writes m a l) = true := by
  induction l generalizing m a with
  | nil => exact h
  | cons b l ih => exact ih (Cells.write_wf h)

/-- The empty memory has the form. -/
theorem Cells.wf_nil : Cells.wf [] = true := by decide

/-- What a table holds after an entry is put, at every index. -/
theorem Tab.find_put {α : Type} (t : Tab α) (k : Nat) (v : α) (j : Nat) :
    Tab.find (Tab.put t k v) j = if k = j then some v else Tab.find t j := by
  induction t with
  | nil => simp [Tab.put, Tab.find]
  | cons p t ih =>
    obtain ⟨i, u⟩ := p
    unfold Tab.put
    split
    · simp [Tab.find]
    · split
      · rename_i h
        subst h
        simp only [Tab.find]
        split <;> rfl
      · simp only [Tab.find, ih]
        by_cases hk : k = j
        · subst hk
          rw [if_neg (by omega), if_pos rfl, if_pos rfl]
        · simp [hk]

/-- What a table holds after an entry is dropped, at every index. -/
theorem Tab.find_drop {α : Type} (t : Tab α) (k j : Nat) :
    Tab.find (Tab.drop t k) j = if k = j then none else Tab.find t j := by
  induction t with
  | nil => simp [Tab.drop, Tab.find]
  | cons p t ih =>
    obtain ⟨i, u⟩ := p
    unfold Tab.drop
    split
    · rename_i h
      subst h
      rw [ih]
      by_cases hk : i = j <;> simp [hk, Tab.find]
    · rename_i h
      simp only [Tab.find, ih]
      by_cases hk : k = j
      · subst hk
        simp [h]
      · simp [hk]

theorem Tab.look_put {α : Type} (t : Tab α) (d : α) (k : Nat) (v : α) (j : Nat) :
    Tab.look (Tab.put t k v) d j = if k = j then v else Tab.look t d j := by
  simp only [Tab.look, Tab.find_put]
  split <;> rfl

end Sys2Proof.Machine
end

