-- ==== Sys2Proof/Laws/Record.lean ====
section
/-!
SUPPORT. What recording an event changes: `raise` and the operations under it differ from the state they start from only
in what `Recorded` leaves out.
-/

namespace Sys2Proof.Machine

theorem Recorded.refl (s : State) : Recorded s s := rfl

theorem Recorded.trans {s t u : State} (h : Recorded s t) (k : Recorded t u) : Recorded s u := Eq.trans k h

theorem Recorded.ite {c : Prop} [Decidable c] {s t u : State} (h : Recorded s t) (k : Recorded s u) :
    Recorded s (if c then t else u) := by
  split <;> assumption

theorem each_recorded {α : Type} {f : α → State → State} (hf : ∀ a s, Recorded s (f a s)) (l : List α) (s : State) :
    Recorded s (each l f s) := by
  unfold each
  induction l generalizing s with
  | nil => exact .refl s
  | cons a l ih => exact (hf a s).trans (ih (f a s))

theorem say_recorded (m : HostMsg) (s : State) : Recorded s (say m s) := rfl

theorem setReservation_recorded (v : Nat) (s : State) : Recorded s (setReservation v s) := rfl

theorem setLast_recorded (v : Nat) (s : State) : Recorded s (setLast v s) := rfl

theorem issueNow_recorded (s : State) : Recorded s (issueNow s).2 := by
  unfold issueNow
  dsimp only
  split <;> rfl

theorem onEntry_recorded (t : Nat) (f : Entry → Entry) (s : State) : Recorded s (onEntry t f s) := by
  unfold onEntry
  split <;> rfl

theorem markDone_recorded (t status dw0 : Nat) (s : State) : Recorded s (markDone t status dw0 s) :=
  onEntry_recorded ..

/-- A change of a controller that only its outstanding requests show. -/
theorem onCtrl_recorded (c : Nat) (r : Controller → List Nat) (m : Controller → List Nat)
    (p : Controller → List AsyncEvent) (s : State) :
    Recorded s (onCtrl c (fun k => { k with aer_requests := r k, aer_masked := m k, aer_pending := p k }) s) := by
  unfold onCtrl
  split <;> rfl

theorem postAsync_recorded (c : Nat) (e : AsyncEvent) (s : State) : Recorded s (postAsync c e s) := by
  unfold postAsync
  dsimp only
  split
  · exact .refl s
  · split
    · exact (onCtrl_recorded c _ _ (·.aer_pending) s).trans (markDone_recorded ..)
    · split
      · exact .refl s
      · exact onCtrl_recorded c (·.aer_requests) (·.aer_masked) _ s

theorem postAsyncAll_recorded (e : AsyncEvent) (s : State) : Recorded s (postAsyncAll e s) :=
  each_recorded (fun c s => postAsync_recorded c e s) _ s

theorem raiseMsix_recorded (n v : Nat) (s : State) : Recorded s (raiseMsix n v s) := by
  unfold raiseMsix
  split
  · rfl
  · unfold onPort
    split <;> dsimp only <;> split <;> rfl

theorem ringWrite_recorded (e : EventDraft) (st : Stamped) (s : State) : Recorded s (ringWrite e st s) := rfl

theorem routeEvent_recorded (n : Nat) (s : State) : Recorded s (routeEvent n s) := by
  unfold routeEvent
  dsimp only
  split
  · refine (postAsyncAll_recorded ⟨7, 0, 0xC2⟩ s).trans ?_
    generalize postAsyncAll ⟨7, 0, 0xC2⟩ s = t
    split
    · exact Recorded.trans (s := t) (t := { t with evt.irq.armed := false }) rfl (raiseMsix_recorded ..)
    · rfl
  · rfl

theorem armAt_recorded {k : TimerKind} (hk : k = .kkAck ∨ k = .kkHeartbeat) (i d : Nat) (s : State) :
    Recorded s (armAt k i d s) := by
  have h : ((⟨k, i, d⟩ :: s.timers.filter fun t => !(t.kind == k && t.idx == i)).filter
      fun t => !(t.kind == .kkAck || t.kind == .kkHeartbeat))
      = s.timers.filter fun t => !(t.kind == .kkAck || t.kind == .kkHeartbeat) := by
    rw [List.filter_cons_of_neg (by rcases hk with rfl | rfl <;> simp), List.filter_filter]
    congr 1
    funext t
    rcases hk with rfl | rfl <;> cases t.kind <;> simp
  unfold Recorded State.unrecorded armAt
  rw [h]

theorem armOnce_recorded {k : TimerKind} (hk : k = .kkAck ∨ k = .kkHeartbeat) (i n : Nat) (s : State) :
    Recorded s (armOnce k i n s) := by
  unfold armOnce
  exact .ite (.refl s) (armAt_recorded hk ..)

theorem onLink_recorded (n : Nat) (q : KkLink → Nat) (r : KkLink → List KkFrame) (s : State) :
    Recorded s (onLink n (fun x => { x with tx_seq := q x, replay := r x }) s) := by
  unfold onLink
  split <;> rfl

theorem sendOnLink_recorded (n : Nat) (f : KkFrame) (h : ¬(f.type = 0x11 ∨ f.type = 0x19)) (s : State) :
    Recorded s (sendOnLink n f s) := by
  unfold sendOnLink
  extract_lets +onlyGivenNames g s1
  have e : s1 = s := if_neg h
  rw [e]
  extract_lets +onlyGivenNames up s2 s3 s4
  have h2 : Recorded s s2 := onLink_recorded ..
  have h3 : Recorded s s3 := .ite (h2.trans (say_recorded ..)) h2
  exact (h3.trans (armOnce_recorded (.inl rfl) ..)).trans (armAt_recorded (.inr rfl) ..)

theorem forwardEvent_recorded (e : EventDraft) (st : Stamped) (s : State) : Recorded s (forwardEvent e st s) := by
  unfold forwardEvent sendFrame
  split
  · exact sendOnLink_recorded _ _ (by decide : ¬((0x38 : Nat) = 0x11 ∨ (0x38 : Nat) = 0x19)) s
  · rfl

theorem enterEvent_recorded (e : EventDraft) (st : Stamped) (s : State) : Recorded s (enterEvent e st s) := by
  unfold enterEvent
  dsimp only
  split
  · refine (ringWrite_recorded e st s).trans ((routeEvent_recorded e.source _).trans ?_)
    split
    · rfl
    · exact forwardEvent_recorded ..
  · rfl

/-- What the request of a stamp for an event changes. -/
theorem request_recorded (e : EventDraft) (s : State) : Recorded s (request (.event e) s) := by
  unfold request issueTo
  split
  · exact enterEvent_recorded ..
  · split
    · split
      · exact Recorded.trans (s := s) (t := { s with camp.status.preseed_overflow := true }) rfl (enterEvent_recorded ..)
      · rfl
    · split
      · rfl
      · split
        · exact (issueNow_recorded s).trans (enterEvent_recorded ..)
        · rfl

theorem requestFirst_recorded (e : EventDraft) (s : State) : Recorded s (requestFirst (.event e) s) := by
  unfold requestFirst
  split
  · rfl
  · exact request_recorded ..

/-- What a source that asserts changes. -/
theorem raise_recorded (n d : Nat) (b : Bytes) (s : State) : Recorded s (raise n d b s) := by
  unfold raise
  exact .ite (request_recorded ..) (.refl s)

/-- A field of the state that recording leaves out of no state is kept. -/
theorem Recorded.keeps {α : Type} {f : State → α} (hf : ∀ s, f s.unrecorded = f s) {s t : State} (h : Recorded s t) :
    f t = f s := by
  rw [← hf t, ← hf s, h]

/-! ### Stamps handed to what waits for them -/

/-- The state without what the delivery of stamps changes: beyond the recording of events, the stamps of modes, memory
errors, refusals, scrub passes, redundancy pages, extremes of temperature and records, and the error log with the handler's stamps. -/
def State.undelivered (s : State) : State :=
  { s.unrecorded with
    time.handout := []
    mgmt.modeStamp := 0
    mgmt.modeStatus.unanchored := false
    mem.lastUeStamp := 0
    mem.lastUe.stamp_unanch := false
    psm.lastRefusalStamp := 0
    psm.status.refusal_unanch := false
    mem.scrPassStamp := []
    mem.scrStatus.pass_unanch := 0
    boot.record_seq := 0
    security.lanes := []
    security.gcm_waiting := []
    nvme.error_count := 0
    nvme.ctrl0.error_log := []
    nvme.ctrl1.error_log := []
    redun.page := none
    redun.page_held := none
    health.counts.max_composite := none
    health.counts.min_composite := none
    memory.passes := []
    events := {} }

/-- `t` is `s` but for what the delivery of stamps changes. -/
def Delivered (s t : State) : Prop := t.undelivered = s.undelivered

theorem Delivered.refl (s : State) : Delivered s s := rfl

theorem Delivered.trans {s t u : State} (h : Delivered s t) (k : Delivered t u) : Delivered s u := Eq.trans k h

theorem Delivered.ite {c : Prop} [Decidable c] {s t u : State} (h : Delivered s t) (k : Delivered s u) :
    Delivered s (if c then t else u) := by
  split <;> assumption

theorem Recorded.delivered {s t : State} (h : Recorded s t) : Delivered s t := by
  unfold Delivered State.undelivered
  rw [h]

/-- A field that delivery leaves alone is kept. -/
theorem Delivered.keeps {α : Type} {f : State → α} (hf : ∀ s, f s.undelivered = f s) {s t : State} (h : Delivered s t) :
    f t = f s := by
  rw [← hf t, ← hf s, h]

theorem each_delivered {α : Type} {f : α → State → State} (hf : ∀ a s, Delivered s (f a s)) (l : List α) (s : State) :
    Delivered s (each l f s) := by
  unfold each
  induction l generalizing s with
  | nil => exact .refl s
  | cons a l ih => exact (hf a s).trans (ih (f a s))

theorem onCtrl_log_delivered (c : Nat) (l : Controller → List ErrorEntry) (s : State) :
    Delivered s (onCtrl c (fun k => { k with error_log := l k }) s) := by
  unfold onCtrl
  split <;> rfl

theorem deliverError_delivered (d : ErrorDraft) (h : Option Nat) (st : Stamped) (s : State) :
    Delivered s (deliverError d h st s) := by
  unfold deliverError
  extract_lets +onlyGivenNames count on r s1 seq first s2 e goal s3
  have h1 : Delivered s s1 :=
    .ite ((ringWrite_recorded ..).trans (routeEvent_recorded ..)).delivered (.refl s)
  have h2 : Delivered s1 s2 := by
    refine .ite (Recorded.delivered ?_) (.refl _)
    exact sendOnLink_recorded _ _ (by decide : ¬((0x38 : Nat) = 0x11 ∨ (0x38 : Nat) = 0x19)) _
  have h3 : Delivered s2 s3 := each_delivered (fun c t => onCtrl_log_delivered c _ t) _ _
  exact ((h1.trans h2).trans h3).trans rfl

theorem askLane_delivered (m : GcmMessage) (s : State) : Delivered s (askLane m s) := by
  unfold askLane
  split <;> rfl

theorem deliver_delivered (u : StampUse) (st : Stamped) (s : State) : Delivered s (deliver u st s) := by
  unfold deliver
  split
  · exact (enterEvent_recorded ..).delivered
  · refine Delivered.trans ?_ (enterEvent_recorded ..).delivered
    split <;> rfl
  · exact deliverError_delivered ..
  · rfl
  · rfl
  · exact .ite (enterEvent_recorded ..).delivered (.refl _)
  · split <;> rfl
  · dsimp only
    split <;> rfl
  · split <;> rfl
  · rfl
  · exact Delivered.trans (by rfl) (askLane_delivered ..)

theorem issueTo_delivered (u : StampUse) (s : State) : Delivered s (issueTo u s) := by
  unfold issueTo
  exact (issueNow_recorded s).delivered.trans (deliver_delivered ..)

/-- What the completion of a reservation write changes. -/
theorem settle_delivered (s : State) : Delivered s (settle s) := by
  unfold settle
  split
  · exact .refl s
  · extract_lets +onlyGivenNames o w x s1 s2
    have h1 : Delivered s s1 := rfl
    have h2 : Delivered s1 s2 := by
      refine each_delivered (fun p t => ?_) _ _
      exact (setLast_recorded p.1 t).delivered.trans (deliver_delivered ..)
    exact (h1.trans h2).trans (each_delivered issueTo_delivered _ _)

/-- What the taking of a stamp changes. -/
theorem takeStamp_delivered (s : State) : Delivered s (takeStamp s).2 := by
  unfold takeStamp
  split
  · exact (settle_delivered s).trans (issueNow_recorded _).delivered
  · rfl

/-- What any request of a stamp changes. -/
theorem request_delivered (u : StampUse) (s : State) : Delivered s (request u s) := by
  unfold request
  split
  · exact deliver_delivered ..
  · split
    · split
      · exact Delivered.trans (s := s) (t := { s with camp.status.preseed_overflow := true }) rfl (deliver_delivered ..)
      · rfl
    · split
      · rfl
      · split
        · exact issueTo_delivered ..
        · rfl

/-- What a transition of mode changes beyond the mode. -/
theorem setMode_delivered (m : Mode) (s : State) :
    Delivered { s with mode := m, prevMode := s.mode } (setMode m s) :=
  Delivered.trans (t := { s with mode := m, prevMode := s.mode, mgmt.modeStamp := 0, mgmt.modeStatus.unanchored := false })
    rfl (request_delivered ..)

end Sys2Proof.Machine
end

