-- ==== Sys2Proof/Laws/Sound.lean ====
section
/-!
SUPPORT. How soundness of a state passes through the forms a meaning is written in: record updates, conditionals,
operations over a list, outcomes.
-/

namespace Sys2Proof.Machine

/-- Soundness sees only the queue, the byte memories, the ring, the handler and the error logs. -/
theorem Sound.congr {q : List Instr} {s t : State} (h : Sound q s) (h0 : t.pending = s.pending)
    (h1 : t.ep.cmb = s.ep.cmb) (h2 : t.manifest.staging = s.manifest.staging)
    (h3 : t.boot.fw_staging = s.boot.fw_staging) (h4 : t.security.datastore = s.security.datastore)
    (h5 : t.events.ring = s.events.ring) (h6 : t.events.slot0 = s.events.slot0) (h7 : t.events.slot1 = s.events.slot1)
    (h8 : t.events.held = s.events.held) (h9 : t.nvme.ctrl0.error_log = s.nvme.ctrl0.error_log)
    (h10 : t.nvme.ctrl1.error_log = s.nvme.ctrl1.error_log) : Sound q t := by
  obtain ⟨a, b, c, d, e⟩ := h
  refine ⟨h0.trans a, ?_, ?_, ?_, ?_⟩
  · simpa only [State.memoryWf, h1, h2, h3, h4] using b
  · simpa only [State.ringWf, h5] using c
  · simpa only [State.handlerWf, h6, h7, h8] using d
  · simpa only [State.errorLogsWf, h9, h10] using e

/-- Soundness of a record update, by what it sees of each component. -/
theorem Sound.update {q : List Instr} {s : State} {x_mode : Mode} {x_prevMode : Mode} {x_mgmt : MgmtRegs} {x_camp : CampRegs} {x_pad : PadRegs} {x_pwr : PwrRegs} {x_rst : RstRegs} {x_ba : BaRegs} {x_man : ManRegs} {x_pcie : PcieRegs} {x_cmd : CmdRegs} {x_map : MapRegs} {x_str : StrRegs} {x_rcl : RclRegs} {x_ch : ChRegs} {x_red : RedRegs} {x_thm : ThmRegs} {x_psm : PsmRegs} {x_sec : SecRegs} {x_mem : MemRegs} {x_tsl : TslRegs} {x_kk : KkRegs} {x_evt : EvtRegs} {x_time : Campion} {x_timers : List Timer} {x_reset_ctl : ResetCtl} {x_power : Power} {x_boot : BootArray} {x_manifest : ManifestState} {x_ep : Endpoint} {x_nvme : Nvme} {x_engine : MapEngine} {x_shroud : StripeBuilder} {x_reclaim : Reclaim} {x_media : Media} {x_redun : Redundancy} {x_thermal : Thermal} {x_health : Health} {x_power_states : PowerStates} {x_security : Security} {x_memory : MemoryIntegrity} {x_teasel : Teasel} {x_keaka : Keaka} {x_events : Events} {x_pads : Pads} {x_out : List HostMsg} (h : Sound q s)
    (h1 : x_ep.cmb = s.ep.cmb) (h2 : x_manifest.staging = s.manifest.staging)
    (h3 : x_boot.fw_staging = s.boot.fw_staging) (h4 : x_security.datastore = s.security.datastore)
    (h5 : x_events.ring = s.events.ring) (h6 : x_events.slot0 = s.events.slot0) (h7 : x_events.slot1 = s.events.slot1)
    (h8 : x_events.held = s.events.held) (h9 : x_nvme.ctrl0.error_log = s.nvme.ctrl0.error_log)
    (h10 : x_nvme.ctrl1.error_log = s.nvme.ctrl1.error_log) :
    Sound q (State.mk s.pending x_mode x_prevMode x_mgmt x_camp x_pad x_pwr x_rst x_ba x_man x_pcie x_cmd x_map x_str x_rcl x_ch x_red x_thm x_psm x_sec x_mem x_tsl x_kk x_evt x_time x_timers x_reset_ctl x_power x_boot x_manifest x_ep x_nvme x_engine x_shroud x_reclaim x_media x_redun x_thermal x_health x_power_states x_security x_memory x_teasel x_keaka x_events x_pads x_out) :=
  Sound.congr h rfl h1 h2 h3 h4 h5 h6 h7 h8 h9 h10

/-- A property of every entry survives a write whose entry has it. -/
theorem Tab.all_put {α : Type} {t : Tab α} {k : Nat} {v : α} {f : Nat × α → Bool} (h : t.all f = true)
    (hv : f (k, v) = true) : (Tab.put t k v).all f = true := by
  induction t with
  | nil => simp [Tab.put, hv]
  | cons p t ih =>
    obtain ⟨j, u⟩ := p
    simp only [List.all_cons, Bool.and_eq_true] at h
    unfold Tab.put
    split
    · simp [List.all_cons, hv, h.1, h.2]
    · split
      · simp [List.all_cons, hv, h.2]
      · simp [List.all_cons, h.1, ih h.2]

/-- A conditional is sound when both branches are. -/
theorem Sound.ite {q : List Instr} {c : Prop} [Decidable c] {s t : State} (hs : Sound q s) (ht : Sound q t) :
    Sound q (if c then s else t) := by
  split <;> assumption

theorem Sound.ite_snd {q : List Instr} {α : Type} {c : Prop} [Decidable c] {a b : α × State} (ha : Sound q a.2)
    (hb : Sound q b.2) : Sound q (if c then a else b).2 := by
  split <;> assumption

theorem Sound.ite_snd2 {q : List Instr} {α β : Type} {c : Prop} [Decidable c] {a b : α × β × State}
    (ha : Sound q a.2.2) (hb : Sound q b.2.2) : Sound q (if c then a else b).2.2 := by
  split <;> assumption

/-- An operation that keeps soundness keeps it over a list. -/
theorem each_sound {q : List Instr} {α : Type} {l : List α} {f : α → State → State} {s : State}
    (hf : ∀ a t, Sound q t → Sound q (f a t)) (h : Sound q s) : Sound q (each l f s) := by
  unfold each
  induction l generalizing s with
  | nil => exact h
  | cons a l ih => exact ih (hf a s h)

/-- What a meaning answers keeps soundness. -/
structure SoundOut (q : List Instr) (o : Host.Outcome State Fault Refusal) : Prop where
  holds : ∀ t, o = .next t → Sound q t

theorem SoundOut.next {q : List Instr} {t : State} (h : Sound q t) : SoundOut q (.next t) := by
  refine ⟨fun u e => ?_⟩
  cases e
  exact h

theorem SoundOut.ite {q : List Instr} {c : Prop} [Decidable c] {a b : Host.Outcome State Fault Refusal}
    (ha : SoundOut q a) (hb : SoundOut q b) : SoundOut q (if c then a else b) := by
  split <;> assumption

end Sys2Proof.Machine
end

