-- ==== Sys2Proof/Laws/SoundOps.lean ====
section
/-!
SUPPORT. Soundness through the operations of Machine/Ops.lean.
-/

set_option linter.all false

namespace Sys2Proof.Machine

theorem disarm_sound {qq : List Instr} {k : TimerKind} {i : Nat} {s : State}  (h_s : Sound qq s) : Sound qq (disarm k i s) := by
  unfold disarm
  repeat' first
    | with_reducible assumption
    | with_reducible rfl
    | with_reducible apply Sound.ite
    | with_reducible apply each_sound
    | intro _
    | (with_reducible apply Sound.update; first | with_reducible assumption)
    | (extract_lets +onlyGivenNames x; refine (?_ : Sound qq x → _) ?_; intro _; clear_value x; rotate_left; subst x; rotate_left)
    | (extract_lets +onlyGivenNames x; subst x)
    | split
    | dsimp -zeta only


theorem armAt_sound {qq : List Instr} {k : TimerKind} {i : Nat} {deadline : Nat} {s : State}  (h_s : Sound qq s) : Sound qq (armAt k i deadline s) := by
  unfold armAt
  repeat' first
    | with_reducible assumption
    | with_reducible rfl
    | with_reducible apply Sound.ite
    | with_reducible apply each_sound
    | intro _
    | (with_reducible apply Sound.update; first | with_reducible assumption)
    | (extract_lets +onlyGivenNames x; refine (?_ : Sound qq x → _) ?_; intro _; clear_value x; rotate_left; subst x; rotate_left)
    | (extract_lets +onlyGivenNames x; subst x)
    | split
    | dsimp -zeta only


theorem arm_sound {qq : List Instr} {k : TimerKind} {i : Nat} {n : Nat} {s : State}  (h_s : Sound qq s) : Sound qq (arm k i n s) := by
  unfold arm
  repeat' first
    | with_reducible assumption
    | with_reducible rfl
    | with_reducible apply Sound.ite
    | with_reducible apply each_sound
    | with_reducible apply armAt_sound
    | intro _
    | (with_reducible apply Sound.update; first | with_reducible assumption | with_reducible apply armAt_sound)
    | (extract_lets +onlyGivenNames x; refine (?_ : Sound qq x → _) ?_; intro _; clear_value x; rotate_left; subst x; rotate_left)
    | (extract_lets +onlyGivenNames x; subst x)
    | split
    | dsimp -zeta only


theorem armOnce_sound {qq : List Instr} {k : TimerKind} {i : Nat} {n : Nat} {s : State}  (h_s : Sound qq s) : Sound qq (armOnce k i n s) := by
  unfold armOnce
  repeat' first
    | with_reducible assumption
    | with_reducible rfl
    | with_reducible apply Sound.ite
    | with_reducible apply each_sound
    | with_reducible apply arm_sound
    | intro _
    | (with_reducible apply Sound.update; first | with_reducible assumption | with_reducible apply arm_sound)
    | (extract_lets +onlyGivenNames x; refine (?_ : Sound qq x → _) ?_; intro _; clear_value x; rotate_left; subst x; rotate_left)
    | (extract_lets +onlyGivenNames x; subst x)
    | split
    | dsimp -zeta only


theorem disarmAll_sound {qq : List Instr} {k : TimerKind} {s : State}  (h_s : Sound qq s) : Sound qq (disarmAll k s) := by
  unfold disarmAll
  repeat' first
    | with_reducible assumption
    | with_reducible rfl
    | with_reducible apply Sound.ite
    | with_reducible apply each_sound
    | intro _
    | (with_reducible apply Sound.update; first | with_reducible assumption)
    | (extract_lets +onlyGivenNames x; refine (?_ : Sound qq x → _) ?_; intro _; clear_value x; rotate_left; subst x; rotate_left)
    | (extract_lets +onlyGivenNames x; subst x)
    | split
    | dsimp -zeta only


theorem shiftTimers_sound {qq : List Instr} {d : Int} {s : State}  (h_s : Sound qq s) : Sound qq (shiftTimers d s) := by
  unfold shiftTimers
  repeat' first
    | with_reducible assumption
    | with_reducible rfl
    | with_reducible apply Sound.ite
    | with_reducible apply each_sound
    | intro _
    | (with_reducible apply Sound.update; first | with_reducible assumption)
    | (extract_lets +onlyGivenNames x; refine (?_ : Sound qq x → _) ?_; intro _; clear_value x; rotate_left; subst x; rotate_left)
    | (extract_lets +onlyGivenNames x; subst x)
    | split
    | dsimp -zeta only


theorem onCtrl_sound_of {q : List Instr} {c : Nat} {f : Controller → Controller} {s : State}
    (hf : ∀ k : Controller, k.error_log.length ≤ 256 → (f k).error_log.length ≤ 256) (h : Sound q s) :
    Sound q (onCtrl c f s) := by
  obtain ⟨a, b, r, d, e⟩ := h
  unfold onCtrl
  simp only [State.errorLogsWf, Bool.and_eq_true, decide_eq_true_eq] at e
  split
  · refine ⟨a, b, r, d, ?_⟩
    simp only [State.errorLogsWf, Bool.and_eq_true, decide_eq_true_eq]
    exact ⟨hf _ e.1, e.2⟩
  · refine ⟨a, b, r, d, ?_⟩
    simp only [State.errorLogsWf, Bool.and_eq_true, decide_eq_true_eq]
    exact ⟨e.1, hf _ e.2⟩

theorem onCtrl_sound {q : List Instr} {c : Nat} {f : Controller → Controller} {s : State}
    (hf : ∀ k : Controller, (f k).error_log = k.error_log) (h : Sound q s) : Sound q (onCtrl c f s) :=
  onCtrl_sound_of (fun k hk => by rw [hf k]; exact hk) h

theorem onPort_sound {q : List Instr} {n : Nat} {f : Port → Port} {s : State} (h : Sound q s) :
    Sound q (onPort n f s) := by
  unfold onPort
  split <;> exact Sound.congr h rfl rfl rfl rfl rfl rfl rfl rfl rfl rfl rfl

theorem onPortStatus_sound {qq : List Instr} {n : Nat} {f : PciePortStatus0Reg → PciePortStatus0Reg} {s : State}  (h_s : Sound qq s) : Sound qq (onPortStatus n f s) := by
  unfold onPortStatus
  repeat' first
    | with_reducible assumption
    | with_reducible rfl
    | with_reducible apply Sound.ite
    | with_reducible apply each_sound
    | intro _
    | (with_reducible apply Sound.update; first | with_reducible assumption)
    | (extract_lets +onlyGivenNames x; refine (?_ : Sound qq x → _) ?_; intro _; clear_value x; rotate_left; subst x; rotate_left)
    | (extract_lets +onlyGivenNames x; subst x)
    | split
    | dsimp -zeta only


theorem say_sound {qq : List Instr} {m : HostMsg} {s : State}  (h_s : Sound qq s) : Sound qq (say m s) := by
  unfold say
  repeat' first
    | with_reducible assumption
    | with_reducible rfl
    | with_reducible apply Sound.ite
    | with_reducible apply each_sound
    | intro _
    | (with_reducible apply Sound.update; first | with_reducible assumption)
    | (extract_lets +onlyGivenNames x; refine (?_ : Sound qq x → _) ?_; intro _; clear_value x; rotate_left; subst x; rotate_left)
    | (extract_lets +onlyGivenNames x; subst x)
    | split
    | dsimp -zeta only


theorem raiseMsix_sound {qq : List Instr} {n : Nat} {v : Nat} {s : State}  (h_s : Sound qq s) : Sound qq (raiseMsix n v s) := by
  unfold raiseMsix
  repeat' first
    | with_reducible assumption
    | with_reducible rfl
    | with_reducible apply Sound.ite
    | with_reducible apply each_sound
    | with_reducible apply say_sound
    | with_reducible apply onPort_sound
    | intro _
    | (with_reducible apply Sound.update; first | with_reducible assumption | with_reducible apply say_sound | with_reducible apply onPort_sound)
    | (extract_lets +onlyGivenNames x; refine (?_ : Sound qq x → _) ?_; intro _; clear_value x; rotate_left; subst x; rotate_left)
    | (extract_lets +onlyGivenNames x; subst x)
    | split
    | dsimp -zeta only


theorem sendPending_sound {qq : List Instr} {n : Nat} {s : State}  (h_s : Sound qq s) : Sound qq (sendPending n s) := by
  unfold sendPending
  repeat' first
    | with_reducible assumption
    | with_reducible rfl
    | with_reducible apply Sound.ite
    | with_reducible apply each_sound
    | with_reducible apply onPort_sound
    | intro _
    | (with_reducible apply Sound.update; first | with_reducible assumption | with_reducible apply onPort_sound)
    | (extract_lets +onlyGivenNames x; refine (?_ : Sound qq x → _) ?_; intro _; clear_value x; rotate_left; subst x; rotate_left)
    | (extract_lets +onlyGivenNames x; subst x)
    | split
    | dsimp -zeta only


-- each_sound stands in Laws/Sound.lean

end Sys2Proof.Machine
end

