-- ==== Sys2Proof/Laws/SoundStamps.lean ====
section
/-!
SUPPORT. Soundness through the operations of Machine/Stamps.lean.
-/

set_option linter.all false

namespace Sys2Proof.Machine

theorem onLink_sound {qq : List Instr} {n : Nat} {f : KkLink → KkLink} {s : State}  (h_s : Sound qq s) : Sound qq (onLink n f s) := by
  unfold onLink
  repeat' first
    | with_reducible assumption
    | with_reducible rfl
    | with_reducible apply Sound.ite
    | with_reducible apply each_sound
    | intro _
    | (with_reducible apply Sound.update; first | with_reducible assumption)
    | (extract_lets +onlyGivenNames x; refine (?_ : Sound qq x → _) ?_; intro _; clear_value x; rotate_left; subst x; rotate_left)
    | (extract_lets +onlyGivenNames x; subst x)
    | split
    | dsimp -zeta only


theorem onLinkStatus_sound {qq : List Instr} {n : Nat} {f : KkLinkStatus0Reg → KkLinkStatus0Reg} {s : State}  (h_s : Sound qq s) : Sound qq (onLinkStatus n f s) := by
  unfold onLinkStatus
  repeat' first
    | with_reducible assumption
    | with_reducible rfl
    | with_reducible apply Sound.ite
    | with_reducible apply each_sound
    | intro _
    | (with_reducible apply Sound.update; first | with_reducible assumption)
    | (extract_lets +onlyGivenNames x; refine (?_ : Sound qq x → _) ?_; intro _; clear_value x; rotate_left; subst x; rotate_left)
    | (extract_lets +onlyGivenNames x; subst x)
    | split
    | dsimp -zeta only


theorem wideLink_sound {qq : List Instr} {n : Nat} {s : State}  (h_s : Sound qq s) : Sound qq (wideLink n s) := by
  unfold wideLink
  repeat' first
    | with_reducible assumption
    | with_reducible rfl
    | with_reducible apply Sound.ite
    | with_reducible apply each_sound
    | with_reducible apply onLinkStatus_sound
    | with_reducible apply trained_sound
    | intro _
    | (with_reducible apply Sound.update; first | with_reducible assumption | with_reducible apply onLinkStatus_sound | with_reducible apply trained_sound)
    | (extract_lets +onlyGivenNames x; refine (?_ : Sound qq x → _) ?_; intro _; clear_value x; rotate_left; subst x; rotate_left)
    | (extract_lets +onlyGivenNames x; subst x)
    | split
    | dsimp -zeta only


theorem sendOnLink_sound {qq : List Instr} {n : Nat} {f : KkFrame} {s : State}  (h_s : Sound qq s) : Sound qq (sendOnLink n f s) := by
  unfold sendOnLink
  repeat' first
    | with_reducible assumption
    | with_reducible rfl
    | with_reducible apply Sound.ite
    | with_reducible apply each_sound
    | with_reducible apply wideLink_sound
    | with_reducible apply onLink_sound
    | with_reducible apply say_sound
    | with_reducible apply armOnce_sound
    | with_reducible apply arm_sound
    | intro _
    | (with_reducible apply Sound.update; first | with_reducible assumption | with_reducible apply wideLink_sound | with_reducible apply onLink_sound | with_reducible apply say_sound | with_reducible apply armOnce_sound | with_reducible apply arm_sound)
    | (extract_lets +onlyGivenNames x; refine (?_ : Sound qq x → _) ?_; intro _; clear_value x; rotate_left; subst x; rotate_left)
    | (extract_lets +onlyGivenNames x; subst x)
    | split
    | dsimp -zeta only


theorem sendFrame_sound {qq : List Instr} {type : Nat} {dst : Nat} {tag : Nat} {body : List Nat} {s : State}  (h_s : Sound qq s) : Sound qq (sendFrame type dst tag body s) := by
  unfold sendFrame
  repeat' first
    | with_reducible assumption
    | with_reducible rfl
    | with_reducible apply Sound.ite
    | with_reducible apply each_sound
    | with_reducible apply sendOnLink_sound
    | intro _
    | (with_reducible apply Sound.update; first | with_reducible assumption | with_reducible apply sendOnLink_sound)
    | (extract_lets +onlyGivenNames x; refine (?_ : Sound qq x → _) ?_; intro _; clear_value x; rotate_left; subst x; rotate_left)
    | (extract_lets +onlyGivenNames x; subst x)
    | split
    | dsimp -zeta only


theorem onEntry_sound {qq : List Instr} {t : Nat} {f : Entry → Entry} {s : State}  (h_s : Sound qq s) : Sound qq (onEntry t f s) := by
  unfold onEntry
  repeat' first
    | with_reducible assumption
    | with_reducible rfl
    | with_reducible apply Sound.ite
    | with_reducible apply each_sound
    | intro _
    | (with_reducible apply Sound.update; first | with_reducible assumption)
    | (extract_lets +onlyGivenNames x; refine (?_ : Sound qq x → _) ?_; intro _; clear_value x; rotate_left; subst x; rotate_left)
    | (extract_lets +onlyGivenNames x; subst x)
    | split
    | dsimp -zeta only


theorem markDone_sound {qq : List Instr} {t : Nat} {status : Nat} {dw0 : Nat} {s : State}  (h_s : Sound qq s) : Sound qq (markDone t status dw0 s) := by
  unfold markDone
  repeat' first
    | with_reducible assumption
    | with_reducible rfl
    | with_reducible apply Sound.ite
    | with_reducible apply each_sound
    | with_reducible apply onEntry_sound
    | intro _
    | (with_reducible apply Sound.update; first | with_reducible assumption | with_reducible apply onEntry_sound)
    | (extract_lets +onlyGivenNames x; refine (?_ : Sound qq x → _) ?_; intro _; clear_value x; rotate_left; subst x; rotate_left)
    | (extract_lets +onlyGivenNames x; subst x)
    | split
    | dsimp -zeta only


theorem noteMi_sound {qq : List Instr} {c : Nat} {flags : Nat} {s : State}  (h_s : Sound qq s) : Sound qq (noteMi c flags s) := by
  unfold noteMi
  repeat' first
    | with_reducible assumption
    | with_reducible rfl
    | with_reducible apply Sound.ite
    | with_reducible apply each_sound
    | with_reducible apply onCtrl_sound
    | intro _
    | (with_reducible apply Sound.update; first | with_reducible assumption | with_reducible apply onCtrl_sound)
    | (extract_lets +onlyGivenNames x; refine (?_ : Sound qq x → _) ?_; intro _; clear_value x; rotate_left; subst x; rotate_left)
    | (extract_lets +onlyGivenNames x; subst x)
    | split
    | dsimp -zeta only


theorem noteMiAll_sound {qq : List Instr} {flags : Nat} {s : State}  (h_s : Sound qq s) : Sound qq (noteMiAll flags s) := by
  unfold noteMiAll
  repeat' first
    | with_reducible assumption
    | with_reducible rfl
    | with_reducible apply Sound.ite
    | with_reducible apply each_sound
    | with_reducible apply each_sound
    | with_reducible apply noteMi_sound
    | intro _
    | (with_reducible apply Sound.update; first | with_reducible assumption | with_reducible apply each_sound | with_reducible apply noteMi_sound)
    | (extract_lets +onlyGivenNames x; refine (?_ : Sound qq x → _) ?_; intro _; clear_value x; rotate_left; subst x; rotate_left)
    | (extract_lets +onlyGivenNames x; subst x)
    | split
    | dsimp -zeta only


theorem postAsync_sound {qq : List Instr} {c : Nat} {e : AsyncEvent} {s : State}  (h_s : Sound qq s) : Sound qq (postAsync c e s) := by
  unfold postAsync
  repeat' first
    | with_reducible assumption
    | with_reducible rfl
    | with_reducible apply Sound.ite
    | with_reducible apply each_sound
    | with_reducible apply onCtrl_sound
    | with_reducible apply markDone_sound
    | intro _
    | (with_reducible apply Sound.update; first | with_reducible assumption | with_reducible apply onCtrl_sound | with_reducible apply markDone_sound)
    | (extract_lets +onlyGivenNames x; refine (?_ : Sound qq x → _) ?_; intro _; clear_value x; rotate_left; subst x; rotate_left)
    | (extract_lets +onlyGivenNames x; subst x)
    | split
    | dsimp -zeta only


theorem postAsyncAll_sound {qq : List Instr} {e : AsyncEvent} {s : State}  (h_s : Sound qq s) : Sound qq (postAsyncAll e s) := by
  unfold postAsyncAll
  repeat' first
    | with_reducible assumption
    | with_reducible rfl
    | with_reducible apply Sound.ite
    | with_reducible apply each_sound
    | with_reducible apply each_sound
    | with_reducible apply postAsync_sound
    | intro _
    | (with_reducible apply Sound.update; first | with_reducible assumption | with_reducible apply each_sound | with_reducible apply postAsync_sound)
    | (extract_lets +onlyGivenNames x; refine (?_ : Sound qq x → _) ?_; intro _; clear_value x; rotate_left; subst x; rotate_left)
    | (extract_lets +onlyGivenNames x; subst x)
    | split
    | dsimp -zeta only


theorem ringWrite_sound {qq : List Instr} {e : EventDraft} {st : Stamped} {s : State}  (h_s : Sound qq s) : Sound qq (ringWrite e st s) := by
  obtain ⟨a, b, r, d, l⟩ := h_s
  refine ⟨a, b, ?_, d, l⟩
  unfold ringWrite
  extract_lets +onlyGivenNames m e' w
  simp only [State.ringWf] at r ⊢
  exact Tab.all_put r (by simp)

theorem routeEvent_sound {qq : List Instr} {n : Nat} {s : State}  (h_s : Sound qq s) : Sound qq (routeEvent n s) := by
  unfold routeEvent
  repeat' first
    | with_reducible assumption
    | with_reducible rfl
    | with_reducible apply Sound.ite
    | with_reducible apply each_sound
    | with_reducible apply postAsyncAll_sound
    | with_reducible apply raiseMsix_sound
    | intro _
    | (with_reducible apply Sound.update; first | with_reducible assumption | with_reducible apply postAsyncAll_sound | with_reducible apply raiseMsix_sound)
    | (extract_lets +onlyGivenNames x; refine (?_ : Sound qq x → _) ?_; intro _; clear_value x; rotate_left; subst x; rotate_left)
    | (extract_lets +onlyGivenNames x; subst x)
    | split
    | dsimp -zeta only


theorem forwardEvent_sound {qq : List Instr} {e : EventDraft} {st : Stamped} {s : State}  (h_s : Sound qq s) : Sound qq (forwardEvent e st s) := by
  unfold forwardEvent
  repeat' first
    | with_reducible assumption
    | with_reducible rfl
    | with_reducible apply Sound.ite
    | with_reducible apply each_sound
    | with_reducible apply sendFrame_sound
    | intro _
    | (with_reducible apply Sound.update; first | with_reducible assumption | with_reducible apply sendFrame_sound)
    | (extract_lets +onlyGivenNames x; refine (?_ : Sound qq x → _) ?_; intro _; clear_value x; rotate_left; subst x; rotate_left)
    | (extract_lets +onlyGivenNames x; subst x)
    | split
    | dsimp -zeta only


theorem enterEvent_sound {qq : List Instr} {e : EventDraft} {st : Stamped} {s : State}  (h_s : Sound qq s) : Sound qq (enterEvent e st s) := by
  unfold enterEvent
  repeat' first
    | with_reducible assumption
    | with_reducible rfl
    | with_reducible apply Sound.ite
    | with_reducible apply each_sound
    | with_reducible apply routeEvent_sound
    | with_reducible apply ringWrite_sound
    | with_reducible apply forwardEvent_sound
    | intro _
    | (with_reducible apply Sound.update; first | with_reducible assumption | with_reducible apply routeEvent_sound | with_reducible apply ringWrite_sound | with_reducible apply forwardEvent_sound)
    | (extract_lets +onlyGivenNames x; refine (?_ : Sound qq x → _) ?_; intro _; clear_value x; rotate_left; subst x; rotate_left)
    | (extract_lets +onlyGivenNames x; subst x)
    | split
    | dsimp -zeta only


theorem deliverError_sound {qq : List Instr} {d : ErrorDraft} {handled : Option Nat} {st : Stamped} {s : State}  (h_s : Sound qq s) : Sound qq (deliverError d handled st s) := by
  unfold deliverError
  extract_lets +onlyGivenNames count on r
  extract_lets +onlyGivenNames s1
  have h1 : Sound qq s1 := by
    subst s1
    with_reducible apply Sound.ite
    · exact routeEvent_sound (ringWrite_sound h_s)
    · exact h_s
  clear_value s1
  extract_lets +onlyGivenNames sq first
  extract_lets +onlyGivenNames s2
  have h2 : Sound qq s2 := by
    subst s2
    with_reducible apply Sound.ite
    · exact sendFrame_sound h1
    · exact h1
  clear_value s2
  extract_lets +onlyGivenNames e goal s3 fill
  have h3 : Sound qq s3 := by
    subst s3
    apply each_sound _ h2
    intro c t ht
    apply onCtrl_sound_of _ ht
    intro k _
    simp only [List.length_take]
    omega
  clear_value s3
  obtain ⟨a, b, r3, d3, l3⟩ := h3
  refine ⟨a, b, r3, ?_, l3⟩
  simp only [State.handlerWf] at d3 ⊢
  cases h0 : s3.events.slot0 <;> cases h1 : s3.events.slot1 <;> cases h2 : s3.events.held <;>
    simp_all

theorem askLane_sound {qq : List Instr} {m : GcmMessage} {s : State}  (h_s : Sound qq s) : Sound qq (askLane m s) := by
  unfold askLane
  repeat' first
    | with_reducible assumption
    | with_reducible rfl
    | with_reducible apply Sound.ite
    | with_reducible apply each_sound
    | intro _
    | (with_reducible apply Sound.update; first | with_reducible assumption)
    | (extract_lets +onlyGivenNames x; refine (?_ : Sound qq x → _) ?_; intro _; clear_value x; rotate_left; subst x; rotate_left)
    | (extract_lets +onlyGivenNames x; subst x)
    | split
    | dsimp -zeta only


theorem deliver_sound {qq : List Instr} {u : StampUse} {st : Stamped} {s : State}  (h_s : Sound qq s) : Sound qq (deliver u st s) := by
  unfold deliver
  repeat' first
    | with_reducible assumption
    | with_reducible rfl
    | with_reducible apply Sound.ite
    | with_reducible apply each_sound
    | with_reducible apply enterEvent_sound
    | with_reducible apply deliverError_sound
    | with_reducible apply askLane_sound
    | intro _
    | (with_reducible apply Sound.update; first | with_reducible assumption | with_reducible apply enterEvent_sound | with_reducible apply deliverError_sound | with_reducible apply askLane_sound)
    | (extract_lets +onlyGivenNames x; refine (?_ : Sound qq x → _) ?_; intro _; clear_value x; rotate_left; subst x; rotate_left)
    | (extract_lets +onlyGivenNames x; subst x)
    | split
    | dsimp -zeta only


theorem setReservation_sound {qq : List Instr} {v : Nat} {s : State}  (h_s : Sound qq s) : Sound qq (setReservation v s) := by
  unfold setReservation
  repeat' first
    | with_reducible assumption
    | with_reducible rfl
    | with_reducible apply Sound.ite
    | with_reducible apply each_sound
    | intro _
    | (with_reducible apply Sound.update; first | with_reducible assumption)
    | (extract_lets +onlyGivenNames x; refine (?_ : Sound qq x → _) ?_; intro _; clear_value x; rotate_left; subst x; rotate_left)
    | (extract_lets +onlyGivenNames x; subst x)
    | split
    | dsimp -zeta only


theorem setLast_sound {qq : List Instr} {v : Nat} {s : State}  (h_s : Sound qq s) : Sound qq (setLast v s) := by
  unfold setLast
  repeat' first
    | with_reducible assumption
    | with_reducible rfl
    | with_reducible apply Sound.ite
    | with_reducible apply each_sound
    | intro _
    | (with_reducible apply Sound.update; first | with_reducible assumption)
    | (extract_lets +onlyGivenNames x; refine (?_ : Sound qq x → _) ?_; intro _; clear_value x; rotate_left; subst x; rotate_left)
    | (extract_lets +onlyGivenNames x; subst x)
    | split
    | dsimp -zeta only


theorem issueNow_snd {qq : List Instr} {s : State}   (h_s : Sound qq s) : Sound qq (issueNow s).2 := by
  unfold issueNow
  repeat' first
    | with_reducible assumption
    | with_reducible rfl
    | with_reducible apply Sound.ite
    | with_reducible apply Sound.ite_snd
    | with_reducible apply each_sound
    | with_reducible apply setReservation_sound
    | with_reducible apply setLast_sound
    | intro _
    | (with_reducible apply Sound.update; first | with_reducible assumption | with_reducible apply setReservation_sound | with_reducible apply setLast_sound)
    | (extract_lets +onlyGivenNames x; refine (?_ : Sound qq x → _) ?_; intro _; clear_value x; rotate_left; subst x; rotate_left)
    | (extract_lets +onlyGivenNames x; subst x)
    | split
    | dsimp -zeta only

theorem issueNow_sound {qq : List Instr} {s : State} {r0 : Stamped} {tt : State} (eqn : issueNow s = (r0, tt))  (h_s : Sound qq s) : Sound qq tt := by
  have h := issueNow_snd (qq := qq) (s := s) h_s
  rw [eqn] at h
  exact h

theorem issueTo_sound {qq : List Instr} {u : StampUse} {s : State}  (h_s : Sound qq s) : Sound qq (issueTo u s) := by
  unfold issueTo
  repeat' first
    | with_reducible assumption
    | with_reducible rfl
    | with_reducible apply Sound.ite
    | with_reducible apply each_sound
    | with_reducible apply issueNow_snd
    | (with_reducible refine issueNow_sound (by assumption) ?_)
    | with_reducible apply deliver_sound
    | intro _
    | (with_reducible apply Sound.update; first | with_reducible assumption | with_reducible apply issueNow_snd | (with_reducible refine issueNow_sound (by assumption) ?_) | with_reducible apply deliver_sound)
    | (extract_lets +onlyGivenNames x; refine (?_ : Sound qq x → _) ?_; intro _; clear_value x; rotate_left; subst x; rotate_left)
    | (extract_lets +onlyGivenNames x; subst x)
    | split
    | dsimp -zeta only


theorem settle_sound {qq : List Instr} {s : State}  (h_s : Sound qq s) : Sound qq (settle s) := by
  unfold settle
  repeat' first
    | with_reducible assumption
    | with_reducible rfl
    | with_reducible apply Sound.ite
    | with_reducible apply each_sound
    | with_reducible apply setReservation_sound
    | with_reducible apply each_sound
    | with_reducible apply deliver_sound
    | with_reducible apply setLast_sound
    | with_reducible apply issueTo_sound
    | intro _
    | (with_reducible apply Sound.update; first | with_reducible assumption | with_reducible apply setReservation_sound | with_reducible apply each_sound | with_reducible apply deliver_sound | with_reducible apply setLast_sound | with_reducible apply issueTo_sound)
    | (extract_lets +onlyGivenNames x; refine (?_ : Sound qq x → _) ?_; intro _; clear_value x; rotate_left; subst x; rotate_left)
    | (extract_lets +onlyGivenNames x; subst x)
    | split
    | dsimp -zeta only


theorem takeStamp_sound {qq : List Instr} {s : State} {r0 : Stamped} {tt : State} (eqn : takeStamp s = (r0, tt))  (h_s : Sound qq s) : Sound qq tt := by
  unfold takeStamp at eqn
  split at eqn
  · exact issueNow_sound eqn (settle_sound h_s)
  · cases eqn; exact h_s

theorem takeStamp_snd {q : List Instr} {s : State} (h_s : Sound q s) : Sound q (takeStamp s).2 := takeStamp_sound rfl h_s

theorem noteDetected_sound {qq : List Instr} {t : Nat} {status : Nat} {s : State}  (h_s : Sound qq s) : Sound qq (noteDetected t status s) := by
  unfold noteDetected
  repeat' first
    | with_reducible assumption
    | with_reducible rfl
    | with_reducible apply Sound.ite
    | with_reducible apply each_sound
    | with_reducible apply takeStamp_snd
    | (with_reducible refine takeStamp_sound (by assumption) ?_)
    | with_reducible apply onEntry_sound
    | intro _
    | (with_reducible apply Sound.update; first | with_reducible assumption | with_reducible apply takeStamp_snd | (with_reducible refine takeStamp_sound (by assumption) ?_) | with_reducible apply onEntry_sound)
    | (extract_lets +onlyGivenNames x; refine (?_ : Sound qq x → _) ?_; intro _; clear_value x; rotate_left; subst x; rotate_left)
    | (extract_lets +onlyGivenNames x; subst x)
    | split
    | dsimp -zeta only


theorem finishEntry_sound {qq : List Instr} {t : Nat} {status : Nat} {dw0 : Nat} {s : State}  (h_s : Sound qq s) : Sound qq (finishEntry t status dw0 s) := by
  unfold finishEntry
  repeat' first
    | with_reducible assumption
    | with_reducible rfl
    | with_reducible apply Sound.ite
    | with_reducible apply each_sound
    | with_reducible apply markDone_sound
    | with_reducible apply noteDetected_sound
    | intro _
    | (with_reducible apply Sound.update; first | with_reducible assumption | with_reducible apply markDone_sound | with_reducible apply noteDetected_sound)
    | (extract_lets +onlyGivenNames x; refine (?_ : Sound qq x → _) ?_; intro _; clear_value x; rotate_left; subst x; rotate_left)
    | (extract_lets +onlyGivenNames x; subst x)
    | split
    | dsimp -zeta only


theorem request_sound {qq : List Instr} {u : StampUse} {s : State}  (h_s : Sound qq s) : Sound qq (request u s) := by
  unfold request
  repeat' first
    | with_reducible assumption
    | with_reducible rfl
    | with_reducible apply Sound.ite
    | with_reducible apply each_sound
    | with_reducible apply deliver_sound
    | with_reducible apply issueTo_sound
    | intro _
    | (with_reducible apply Sound.update; first | with_reducible assumption | with_reducible apply deliver_sound | with_reducible apply issueTo_sound)
    | (extract_lets +onlyGivenNames x; refine (?_ : Sound qq x → _) ?_; intro _; clear_value x; rotate_left; subst x; rotate_left)
    | (extract_lets +onlyGivenNames x; subst x)
    | split
    | dsimp -zeta only


theorem requestFirst_sound {qq : List Instr} {u : StampUse} {s : State}  (h_s : Sound qq s) : Sound qq (requestFirst u s) := by
  unfold requestFirst
  repeat' first
    | with_reducible assumption
    | with_reducible rfl
    | with_reducible apply Sound.ite
    | with_reducible apply each_sound
    | with_reducible apply request_sound
    | intro _
    | (with_reducible apply Sound.update; first | with_reducible assumption | with_reducible apply request_sound)
    | (extract_lets +onlyGivenNames x; refine (?_ : Sound qq x → _) ?_; intro _; clear_value x; rotate_left; subst x; rotate_left)
    | (extract_lets +onlyGivenNames x; subst x)
    | split
    | dsimp -zeta only


theorem raise_sound {qq : List Instr} {source : Nat} {detail : Nat} {payload : Bytes} {s : State}  (h_s : Sound qq s) : Sound qq (raise source detail payload s) := by
  unfold raise
  repeat' first
    | with_reducible assumption
    | with_reducible rfl
    | with_reducible apply Sound.ite
    | with_reducible apply each_sound
    | with_reducible apply request_sound
    | intro _
    | (with_reducible apply Sound.update; first | with_reducible assumption | with_reducible apply request_sound)
    | (extract_lets +onlyGivenNames x; refine (?_ : Sound qq x → _) ?_; intro _; clear_value x; rotate_left; subst x; rotate_left)
    | (extract_lets +onlyGivenNames x; subst x)
    | split
    | dsimp -zeta only


theorem setMode_sound {qq : List Instr} {m : Mode} {s : State}  (h_s : Sound qq s) : Sound qq (setMode m s) := by
  unfold setMode
  repeat' first
    | with_reducible assumption
    | with_reducible rfl
    | with_reducible apply Sound.ite
    | with_reducible apply each_sound
    | with_reducible apply request_sound
    | intro _
    | (with_reducible apply Sound.update; first | with_reducible assumption | with_reducible apply request_sound)
    | (extract_lets +onlyGivenNames x; refine (?_ : Sound qq x → _) ?_; intro _; clear_value x; rotate_left; subst x; rotate_left)
    | (extract_lets +onlyGivenNames x; subst x)
    | split
    | dsimp -zeta only


theorem setCfs_sound {qq : List Instr} {c : Nat} {s : State}  (h_s : Sound qq s) : Sound qq (setCfs c s) := by
  unfold setCfs
  repeat' first
    | with_reducible assumption
    | with_reducible rfl
    | with_reducible apply Sound.ite
    | with_reducible apply each_sound
    | with_reducible apply noteMi_sound
    | with_reducible apply onCtrl_sound
    | intro _
    | (with_reducible apply Sound.update; first | with_reducible assumption | with_reducible apply noteMi_sound | with_reducible apply onCtrl_sound)
    | (extract_lets +onlyGivenNames x; refine (?_ : Sound qq x → _) ?_; intro _; clear_value x; rotate_left; subst x; rotate_left)
    | (extract_lets +onlyGivenNames x; subst x)
    | split
    | dsimp -zeta only


theorem markEscalated_sound {qq : List Instr} {count : Nat} {s : State}  (h_s : Sound qq s) : Sound qq (markEscalated count s) := by
  unfold markEscalated
  apply each_sound _ h_s
  intro a t h
  apply onCtrl_sound_of _ h
  intro k hk
  simpa using hk

theorem countFatal_sound {qq : List Instr} {e : ErrorDraft} {s : State}  (h_s : Sound qq s) : Sound qq (countFatal e s) := by
  unfold countFatal
  repeat' first
    | with_reducible assumption
    | with_reducible rfl
    | with_reducible apply Sound.ite
    | with_reducible apply each_sound
    | intro _
    | (with_reducible apply Sound.update; first | with_reducible assumption)
    | (extract_lets +onlyGivenNames x; refine (?_ : Sound qq x → _) ?_; intro _; clear_value x; rotate_left; subst x; rotate_left)
    | (extract_lets +onlyGivenNames x; subst x)
    | split
    | dsimp -zeta only


theorem firstError_sound {qq : List Instr} {e : ErrorDraft} {h : HandlerError} {s : State}  (h_s : Sound qq s) : Sound qq (firstError e h s) := by
  obtain ⟨a, b, r, d, l⟩ := h_s
  refine raise_sound (request_sound (countFatal_sound ⟨a, b, r, ?_, l⟩))
  simp only [State.handlerWf, Bool.and_eq_true] at d ⊢
  exact ⟨rfl, d.2⟩

theorem escalateError_sound {qq : List Instr} {z : HandlerError} {shared : List Nat} {s : State}  (h_s : Sound qq s) : Sound qq (escalateError z shared s) := by
  obtain ⟨a, b, r, d, l⟩ := h_s
  refine raise_sound (markEscalated_sound ⟨a, b, r, ?_, l⟩)
  simp only [State.handlerWf, Bool.and_eq_true] at d ⊢
  exact ⟨rfl, d.2⟩

theorem nestedError_sound {q : List Instr} {e : ErrorDraft} {h z : HandlerError} {s : State}
    (hz : s.events.slot0.isSome = true) (h_s : Sound q s) : Sound q (nestedError e h z s) := by
  obtain ⟨a, b, r, d, l⟩ := h_s
  have h1 : ∀ w n, Sound q { s with events.slot1 := some w, evt.errCounts.nested := n } := by
    intro w n
    refine ⟨a, b, r, ?_, l⟩
    simp only [State.handlerWf, Bool.and_eq_true]
    exact ⟨by simp [hz], rfl⟩
  unfold nestedError
  extract_lets +onlyGivenNames shared esc
  with_reducible apply Sound.ite
  · exact escalateError_sound (raise_sound (request_sound (countFatal_sound (h1 _ _))))
  · exact raise_sound (request_sound (countFatal_sound (h1 _ _)))

theorem heldError_sound {q : List Instr} {e : ErrorDraft} {h z : HandlerError} {s : State}
    (hz : s.events.slot0.isSome = true) (hy : s.events.slot1.isSome = true) (h_s : Sound q s) :
    Sound q (heldError e h z s) := by
  obtain ⟨a, b, r, d, l⟩ := h_s
  have h1 : ∀ w f n, Sound q { s with events.held := w, evt.status.fatal := f, evt.errCounts.fatal := n } := by
    intro w f n
    refine ⟨a, b, r, ?_, l⟩
    simp only [State.handlerWf, Bool.and_eq_true]
    exact ⟨by simp [hz], by simp [hy]⟩
  unfold heldError
  exact raise_sound (request_sound (postAsyncAll_sound (each_sound (fun _ _ h => setCfs_sound h) (h1 _ _ _))))

theorem takeError_sound {qq : List Instr} {e : ErrorDraft} {serials : List Nat} {s : State}  (h_s : Sound qq s) : Sound qq (takeError e serials s) := by
  unfold takeError
  have h1 : ∀ n, Sound qq { s with events.next_id := n } := fun n => Sound.congr h_s rfl rfl rfl rfl rfl rfl rfl rfl rfl rfl rfl
  split
  · split
    · exact h_s
    · exact raise_sound h_s
  · split
    · exact firstError_sound (h1 _)
    · rename_i z e0 e1
      exact nestedError_sound (by simp [e0]) (h1 _)
    · rename_i z y e0 e1
      exact heldError_sound (by simp [e0]) (by simp [e1]) (h1 _)

end Sys2Proof.Machine
end

