-- ==== Sys2Proof/Laws/SoundRegImage.lean ====
section
/-!
SUPPORT. Soundness through the operations of Machine/RegImage.lean.
-/

set_option linter.all false

namespace Sys2Proof.Machine

theorem setImageCamp_sound {qq : List Instr} {v : Nat} {o : Nat} {s : State}  (h_s : Sound qq s) : Sound qq (setImageCamp v o s) := by
  unfold setImageCamp
  repeat' first
    | with_reducible assumption
    | with_reducible rfl
    | with_reducible apply Sound.ite
    | with_reducible apply each_sound
    | intro _
    | (with_reducible apply Sound.update; first | with_reducible assumption)
    | (extract_lets +onlyGivenNames x; refine (?_ : Sound qq x → _) ?_; intro _; clear_value x; rotate_left; subst x; rotate_left)
    | (extract_lets +onlyGivenNames x; subst x)
    | split
    | dsimp -zeta only


theorem setImagePwr_sound {qq : List Instr} {v : Nat} {o : Nat} {s : State}  (h_s : Sound qq s) : Sound qq (setImagePwr v o s) := by
  unfold setImagePwr
  repeat' first
    | with_reducible assumption
    | with_reducible rfl
    | with_reducible apply Sound.ite
    | with_reducible apply each_sound
    | intro _
    | (with_reducible apply Sound.update; first | with_reducible assumption)
    | (extract_lets +onlyGivenNames x; refine (?_ : Sound qq x → _) ?_; intro _; clear_value x; rotate_left; subst x; rotate_left)
    | (extract_lets +onlyGivenNames x; subst x)
    | split
    | dsimp -zeta only


theorem setImageRst_sound {qq : List Instr} {v : Nat} {o : Nat} {s : State}  (h_s : Sound qq s) : Sound qq (setImageRst v o s) := by
  unfold setImageRst
  repeat' first
    | with_reducible assumption
    | with_reducible rfl
    | with_reducible apply Sound.ite
    | with_reducible apply each_sound
    | intro _
    | (with_reducible apply Sound.update; first | with_reducible assumption)
    | (extract_lets +onlyGivenNames x; refine (?_ : Sound qq x → _) ?_; intro _; clear_value x; rotate_left; subst x; rotate_left)
    | (extract_lets +onlyGivenNames x; subst x)
    | split
    | dsimp -zeta only


theorem setImagePcie_sound {qq : List Instr} {v : Nat} {o : Nat} {s : State}  (h_s : Sound qq s) : Sound qq (setImagePcie v o s) := by
  unfold setImagePcie
  repeat' first
    | with_reducible assumption
    | with_reducible rfl
    | with_reducible apply Sound.ite
    | with_reducible apply each_sound
    | intro _
    | (with_reducible apply Sound.update; first | with_reducible assumption)
    | (extract_lets +onlyGivenNames x; refine (?_ : Sound qq x → _) ?_; intro _; clear_value x; rotate_left; subst x; rotate_left)
    | (extract_lets +onlyGivenNames x; subst x)
    | split
    | dsimp -zeta only


theorem setImageCmd_sound {qq : List Instr} {v : Nat} {o : Nat} {s : State}  (h_s : Sound qq s) : Sound qq (setImageCmd v o s) := by
  unfold setImageCmd
  repeat' first
    | with_reducible assumption
    | with_reducible rfl
    | with_reducible apply Sound.ite
    | with_reducible apply each_sound
    | intro _
    | (with_reducible apply Sound.update; first | with_reducible assumption)
    | (extract_lets +onlyGivenNames x; refine (?_ : Sound qq x → _) ?_; intro _; clear_value x; rotate_left; subst x; rotate_left)
    | (extract_lets +onlyGivenNames x; subst x)
    | split
    | dsimp -zeta only


theorem setImageMap_sound {qq : List Instr} {v : Nat} {o : Nat} {s : State}  (h_s : Sound qq s) : Sound qq (setImageMap v o s) := by
  unfold setImageMap
  repeat' first
    | with_reducible assumption
    | with_reducible rfl
    | with_reducible apply Sound.ite
    | with_reducible apply each_sound
    | intro _
    | (with_reducible apply Sound.update; first | with_reducible assumption)
    | (extract_lets +onlyGivenNames x; refine (?_ : Sound qq x → _) ?_; intro _; clear_value x; rotate_left; subst x; rotate_left)
    | (extract_lets +onlyGivenNames x; subst x)
    | split
    | dsimp -zeta only


theorem setImageStr_sound {qq : List Instr} {v : Nat} {o : Nat} {s : State}  (h_s : Sound qq s) : Sound qq (setImageStr v o s) := by
  unfold setImageStr
  repeat' first
    | with_reducible assumption
    | with_reducible rfl
    | with_reducible apply Sound.ite
    | with_reducible apply each_sound
    | intro _
    | (with_reducible apply Sound.update; first | with_reducible assumption)
    | (extract_lets +onlyGivenNames x; refine (?_ : Sound qq x → _) ?_; intro _; clear_value x; rotate_left; subst x; rotate_left)
    | (extract_lets +onlyGivenNames x; subst x)
    | split
    | dsimp -zeta only


theorem setImageRcl_sound {qq : List Instr} {v : Nat} {o : Nat} {s : State}  (h_s : Sound qq s) : Sound qq (setImageRcl v o s) := by
  unfold setImageRcl
  repeat' first
    | with_reducible assumption
    | with_reducible rfl
    | with_reducible apply Sound.ite
    | with_reducible apply each_sound
    | intro _
    | (with_reducible apply Sound.update; first | with_reducible assumption)
    | (extract_lets +onlyGivenNames x; refine (?_ : Sound qq x → _) ?_; intro _; clear_value x; rotate_left; subst x; rotate_left)
    | (extract_lets +onlyGivenNames x; subst x)
    | split
    | dsimp -zeta only


theorem setImageCh_sound {qq : List Instr} {v : Nat} {o : Nat} {s : State}  (h_s : Sound qq s) : Sound qq (setImageCh v o s) := by
  unfold setImageCh
  repeat' first
    | with_reducible assumption
    | with_reducible rfl
    | with_reducible apply Sound.ite
    | with_reducible apply each_sound
    | intro _
    | (with_reducible apply Sound.update; first | with_reducible assumption)
    | (extract_lets +onlyGivenNames x; refine (?_ : Sound qq x → _) ?_; intro _; clear_value x; rotate_left; subst x; rotate_left)
    | (extract_lets +onlyGivenNames x; subst x)
    | split
    | dsimp -zeta only


theorem setImageRed_sound {qq : List Instr} {v : Nat} {o : Nat} {s : State}  (h_s : Sound qq s) : Sound qq (setImageRed v o s) := by
  unfold setImageRed
  repeat' first
    | with_reducible assumption
    | with_reducible rfl
    | with_reducible apply Sound.ite
    | with_reducible apply each_sound
    | intro _
    | (with_reducible apply Sound.update; first | with_reducible assumption)
    | (extract_lets +onlyGivenNames x; refine (?_ : Sound qq x → _) ?_; intro _; clear_value x; rotate_left; subst x; rotate_left)
    | (extract_lets +onlyGivenNames x; subst x)
    | split
    | dsimp -zeta only


theorem setImageThm_sound {qq : List Instr} {v : Nat} {o : Nat} {s : State}  (h_s : Sound qq s) : Sound qq (setImageThm v o s) := by
  unfold setImageThm
  repeat' first
    | with_reducible assumption
    | with_reducible rfl
    | with_reducible apply Sound.ite
    | with_reducible apply each_sound
    | intro _
    | (with_reducible apply Sound.update; first | with_reducible assumption)
    | (extract_lets +onlyGivenNames x; refine (?_ : Sound qq x → _) ?_; intro _; clear_value x; rotate_left; subst x; rotate_left)
    | (extract_lets +onlyGivenNames x; subst x)
    | split
    | dsimp -zeta only


theorem setImagePsm_sound {qq : List Instr} {v : Nat} {o : Nat} {s : State}  (h_s : Sound qq s) : Sound qq (setImagePsm v o s) := by
  unfold setImagePsm
  repeat' first
    | with_reducible assumption
    | with_reducible rfl
    | with_reducible apply Sound.ite
    | with_reducible apply each_sound
    | intro _
    | (with_reducible apply Sound.update; first | with_reducible assumption)
    | (extract_lets +onlyGivenNames x; refine (?_ : Sound qq x → _) ?_; intro _; clear_value x; rotate_left; subst x; rotate_left)
    | (extract_lets +onlyGivenNames x; subst x)
    | split
    | dsimp -zeta only


theorem setImageSec_sound {qq : List Instr} {v : Nat} {o : Nat} {s : State}  (h_s : Sound qq s) : Sound qq (setImageSec v o s) := by
  unfold setImageSec
  repeat' first
    | with_reducible assumption
    | with_reducible rfl
    | with_reducible apply Sound.ite
    | with_reducible apply each_sound
    | intro _
    | (with_reducible apply Sound.update; first | with_reducible assumption)
    | (extract_lets +onlyGivenNames x; refine (?_ : Sound qq x → _) ?_; intro _; clear_value x; rotate_left; subst x; rotate_left)
    | (extract_lets +onlyGivenNames x; subst x)
    | split
    | dsimp -zeta only


theorem setImageMem_sound {qq : List Instr} {v : Nat} {o : Nat} {s : State}  (h_s : Sound qq s) : Sound qq (setImageMem v o s) := by
  unfold setImageMem
  repeat' first
    | with_reducible assumption
    | with_reducible rfl
    | with_reducible apply Sound.ite
    | with_reducible apply each_sound
    | intro _
    | (with_reducible apply Sound.update; first | with_reducible assumption)
    | (extract_lets +onlyGivenNames x; refine (?_ : Sound qq x → _) ?_; intro _; clear_value x; rotate_left; subst x; rotate_left)
    | (extract_lets +onlyGivenNames x; subst x)
    | split
    | dsimp -zeta only


theorem setImageTsl_sound {qq : List Instr} {v : Nat} {o : Nat} {s : State}  (h_s : Sound qq s) : Sound qq (setImageTsl v o s) := by
  unfold setImageTsl
  repeat' first
    | with_reducible assumption
    | with_reducible rfl
    | with_reducible apply Sound.ite
    | with_reducible apply each_sound
    | intro _
    | (with_reducible apply Sound.update; first | with_reducible assumption)
    | (extract_lets +onlyGivenNames x; refine (?_ : Sound qq x → _) ?_; intro _; clear_value x; rotate_left; subst x; rotate_left)
    | (extract_lets +onlyGivenNames x; subst x)
    | split
    | dsimp -zeta only


theorem setImageKk_sound {qq : List Instr} {v : Nat} {o : Nat} {s : State}  (h_s : Sound qq s) : Sound qq (setImageKk v o s) := by
  unfold setImageKk
  repeat' first
    | with_reducible assumption
    | with_reducible rfl
    | with_reducible apply Sound.ite
    | with_reducible apply each_sound
    | intro _
    | (with_reducible apply Sound.update; first | with_reducible assumption)
    | (extract_lets +onlyGivenNames x; refine (?_ : Sound qq x → _) ?_; intro _; clear_value x; rotate_left; subst x; rotate_left)
    | (extract_lets +onlyGivenNames x; subst x)
    | split
    | dsimp -zeta only


theorem setImage_sound {qq : List Instr} {w : Nat} {o : Nat} {v : Nat} {s : State}  (h_s : Sound qq s) : Sound qq (setImage w o v s) := by
  unfold setImage
  repeat' first
    | with_reducible assumption
    | with_reducible rfl
    | with_reducible apply Sound.ite
    | with_reducible apply each_sound
    | with_reducible apply setImageCamp_sound
    | with_reducible apply setImagePwr_sound
    | with_reducible apply setImageRst_sound
    | with_reducible apply setImagePcie_sound
    | with_reducible apply setImageCmd_sound
    | with_reducible apply setImageMap_sound
    | with_reducible apply setImageStr_sound
    | with_reducible apply setImageRcl_sound
    | with_reducible apply setImageCh_sound
    | with_reducible apply setImageRed_sound
    | with_reducible apply setImageThm_sound
    | with_reducible apply setImagePsm_sound
    | with_reducible apply setImageSec_sound
    | with_reducible apply setImageMem_sound
    | with_reducible apply setImageTsl_sound
    | with_reducible apply setImageKk_sound
    | intro _
    | (with_reducible apply Sound.update; first | with_reducible assumption | with_reducible apply setImageCamp_sound | with_reducible apply setImagePwr_sound | with_reducible apply setImageRst_sound | with_reducible apply setImagePcie_sound | with_reducible apply setImageCmd_sound | with_reducible apply setImageMap_sound | with_reducible apply setImageStr_sound | with_reducible apply setImageRcl_sound | with_reducible apply setImageCh_sound | with_reducible apply setImageRed_sound | with_reducible apply setImageThm_sound | with_reducible apply setImagePsm_sound | with_reducible apply setImageSec_sound | with_reducible apply setImageMem_sound | with_reducible apply setImageTsl_sound | with_reducible apply setImageKk_sound)
    | (extract_lets +onlyGivenNames x; refine (?_ : Sound qq x → _) ?_; intro _; clear_value x; rotate_left; subst x; rotate_left)
    | (extract_lets +onlyGivenNames x; subst x)
    | split
    | dsimp -zeta only


end Sys2Proof.Machine
end

