-- ==== Sys2Proof/Laws/SoundCmb.lean ====
section
/-!
SUPPORT. Soundness through the operations of Machine/Cmb.lean.
-/

set_option linter.all false

namespace Sys2Proof.Machine

theorem uncorrectable_sound {qq : List Instr} {n : Nat} {aer : String} {s : State}  (h_s : Sound qq s) : Sound qq (uncorrectable n aer s) := by
  unfold uncorrectable
  repeat' first
    | with_reducible assumption
    | with_reducible rfl
    | with_reducible apply Sound.ite
    | with_reducible apply each_sound
    | with_reducible apply raise_sound
    | with_reducible apply onPort_sound
    | intro _
    | (with_reducible apply Sound.update; first | with_reducible assumption | with_reducible apply raise_sound | with_reducible apply onPort_sound)
    | (extract_lets +onlyGivenNames x; refine (?_ : Sound qq x → _) ?_; intro _; clear_value x; rotate_left; subst x; rotate_left)
    | (extract_lets +onlyGivenNames x; subst x)
    | split
    | dsimp -zeta only


theorem refuseRead_sound {qq : List Instr} {n : Nat} {abort : Bool} {s : State}  (h_s : Sound qq s) : Sound qq (refuseRead n abort s) := by
  unfold refuseRead
  repeat' first
    | with_reducible assumption
    | with_reducible rfl
    | with_reducible apply Sound.ite
    | with_reducible apply each_sound
    | with_reducible apply uncorrectable_sound
    | with_reducible apply say_sound
    | intro _
    | (with_reducible apply Sound.update; first | with_reducible assumption | with_reducible apply uncorrectable_sound | with_reducible apply say_sound)
    | (extract_lets +onlyGivenNames x; refine (?_ : Sound qq x → _) ?_; intro _; clear_value x; rotate_left; subst x; rotate_left)
    | (extract_lets +onlyGivenNames x; subst x)
    | split
    | dsimp -zeta only


theorem refuseWrite_sound {qq : List Instr} {n : Nat} {s : State}  (h_s : Sound qq s) : Sound qq (refuseWrite n s) := by
  unfold refuseWrite
  repeat' first
    | with_reducible assumption
    | with_reducible rfl
    | with_reducible apply Sound.ite
    | with_reducible apply each_sound
    | with_reducible apply uncorrectable_sound
    | intro _
    | (with_reducible apply Sound.update; first | with_reducible assumption | with_reducible apply uncorrectable_sound)
    | (extract_lets +onlyGivenNames x; refine (?_ : Sound qq x → _) ?_; intro _; clear_value x; rotate_left; subst x; rotate_left)
    | (extract_lets +onlyGivenNames x; subst x)
    | split
    | dsimp -zeta only


theorem memoryWrite_sound {qq : List Instr} {n : Nat} {f : State → State} {s : State} (hf : ∀ a0, Sound qq a0 → Sound qq (f a0)) (h_s : Sound qq s) : Sound qq (memoryWrite n f s) := by
  unfold memoryWrite
  repeat' first
    | with_reducible assumption
    | with_reducible rfl
    | with_reducible apply Sound.ite
    | with_reducible apply each_sound
    | with_reducible apply refuseWrite_sound
    | with_reducible apply hf
    | intro _
    | (with_reducible apply Sound.update; first | with_reducible assumption | with_reducible apply refuseWrite_sound | with_reducible apply hf)
    | (extract_lets +onlyGivenNames x; refine (?_ : Sound qq x → _) ?_; intro _; clear_value x; rotate_left; subst x; rotate_left)
    | (extract_lets +onlyGivenNames x; subst x)
    | split
    | dsimp -zeta only


theorem memoryRead_sound {qq : List Instr} {n : Nat} {f : State → State} {s : State} (hf : ∀ a0, Sound qq a0 → Sound qq (f a0)) (h_s : Sound qq s) : Sound qq (memoryRead n f s) := by
  unfold memoryRead
  repeat' first
    | with_reducible assumption
    | with_reducible rfl
    | with_reducible apply Sound.ite
    | with_reducible apply each_sound
    | with_reducible apply refuseRead_sound
    | with_reducible apply hf
    | intro _
    | (with_reducible apply Sound.update; first | with_reducible assumption | with_reducible apply refuseRead_sound | with_reducible apply hf)
    | (extract_lets +onlyGivenNames x; refine (?_ : Sound qq x → _) ?_; intro _; clear_value x; rotate_left; subst x; rotate_left)
    | (extract_lets +onlyGivenNames x; subst x)
    | split
    | dsimp -zeta only


theorem markCmbValid_sound {qq : List Instr} {word : Nat} {s : State}  (h_s : Sound qq s) : Sound qq (markCmbValid word s) := by
  unfold markCmbValid
  repeat' first
    | with_reducible assumption
    | with_reducible rfl
    | with_reducible apply Sound.ite
    | with_reducible apply each_sound
    | intro _
    | (with_reducible apply Sound.update; first | with_reducible assumption)
    | (extract_lets +onlyGivenNames x; refine (?_ : Sound qq x → _) ?_; intro _; clear_value x; rotate_left; subst x; rotate_left)
    | (extract_lets +onlyGivenNames x; subst x)
    | split
    | dsimp -zeta only


theorem Sound.cmb {q : List Instr} {s : State} {m : List (Nat × Byte)} {w : List (Nat × Nat)} (h : Sound q s)
    (hm : Cells.wf m = true) : Sound q { s with ep.cmb := m, memory.bad_words := w } := by
  obtain ⟨a, b, c, d, e⟩ := h
  refine ⟨a, ?_, c, d, e⟩
  simp only [State.memoryWf, Bool.and_eq_true] at b ⊢
  exact ⟨⟨⟨hm, b.1.1.2⟩, b.1.2⟩, b.2⟩

theorem Sound.cmb_wf {q : List Instr} {s : State} (h : Sound q s) : Cells.wf s.ep.cmb = true := by
  have b := h.2.1
  simp only [State.memoryWf, Bool.and_eq_true] at b
  exact b.1.1.1

theorem writeEnabled_sound {q : List Instr} {a : Nat} {b : Bytes} {l : List Bool} {s : State} (h : Sound q s) :
    Sound q (writeEnabled a b l s) := by
  induction b generalizing a l s with
  | nil => unfold writeEnabled; exact h
  | cons x t ih =>
    cases l with
    | nil => unfold writeEnabled; exact h
    | cons y l =>
      unfold writeEnabled
      apply ih
      with_reducible apply Sound.ite
      · exact markCmbValid_sound (Sound.cmb h (Cells.write_wf h.cmb_wf))
      · exact h

theorem writeCmb_sound {qq : List Instr} {a : Nat} {b : Bytes} {s : State}  (h_s : Sound qq s) : Sound qq (writeCmb a b s) := by
  unfold writeCmb
  repeat' first
    | with_reducible assumption
    | with_reducible rfl
    | with_reducible apply Sound.ite
    | with_reducible apply each_sound
    | with_reducible apply writeEnabled_sound
    | intro _
    | (with_reducible apply Sound.update; first | with_reducible assumption | with_reducible apply writeEnabled_sound)
    | (extract_lets +onlyGivenNames x; refine (?_ : Sound qq x → _) ?_; intro _; clear_value x; rotate_left; subst x; rotate_left)
    | (extract_lets +onlyGivenNames x; subst x)
    | split
    | dsimp -zeta only


theorem serveRead_sound {qq : List Instr} {port : Nat} {offset : Nat} {len : Nat} {s : State}  (h_s : Sound qq s) : Sound qq (serveRead port offset len s) := by
  unfold serveRead
  repeat' first
    | with_reducible assumption
    | with_reducible rfl
    | with_reducible apply Sound.ite
    | with_reducible apply each_sound
    | with_reducible apply refuseRead_sound
    | with_reducible apply say_sound
    | intro _
    | (with_reducible apply Sound.update; first | with_reducible assumption | with_reducible apply refuseRead_sound | with_reducible apply say_sound)
    | (extract_lets +onlyGivenNames x; refine (?_ : Sound qq x → _) ?_; intro _; clear_value x; rotate_left; subst x; rotate_left)
    | (extract_lets +onlyGivenNames x; subst x)
    | split
    | dsimp -zeta only


theorem serveWrite_sound {qq : List Instr} {port : Nat} {offset : Nat} {data : Bytes} {enables : List Bool} {s : State}  (h_s : Sound qq s) : Sound qq (serveWrite port offset data enables s) := by
  unfold serveWrite
  repeat' first
    | with_reducible assumption
    | with_reducible rfl
    | with_reducible apply Sound.ite
    | with_reducible apply each_sound
    | with_reducible apply refuseWrite_sound
    | with_reducible apply writeEnabled_sound
    | intro _
    | (with_reducible apply Sound.update; first | with_reducible assumption | with_reducible apply refuseWrite_sound | with_reducible apply writeEnabled_sound)
    | (extract_lets +onlyGivenNames x; refine (?_ : Sound qq x → _) ?_; intro _; clear_value x; rotate_left; subst x; rotate_left)
    | (extract_lets +onlyGivenNames x; subst x)
    | split
    | dsimp -zeta only


theorem serveWaiting_sound {q : List Instr} {k : Nat} {l : List CmbRequest} {s : State} (h : Sound q s) :
    Sound q (serveWaiting k l s) := by
  induction l generalizing s with
  | nil => exact h
  | cons r l ih =>
    cases r with
    | read p o n => exact ih (serveRead_sound h)
    | write p o b e => exact ih (serveWrite_sound h)
    | remap w => exact Sound.congr h rfl rfl rfl rfl rfl rfl rfl rfl rfl rfl rfl

theorem endFence_sound {qq : List Instr} {k : Nat} {s : State}  (h_s : Sound qq s) : Sound qq (endFence k s) := by
  unfold endFence
  repeat' first
    | with_reducible assumption
    | with_reducible rfl
    | with_reducible apply Sound.ite
    | with_reducible apply each_sound
    | with_reducible apply serveWaiting_sound
    | intro _
    | (with_reducible apply Sound.update; first | with_reducible assumption | with_reducible apply serveWaiting_sound)
    | (extract_lets +onlyGivenNames x; refine (?_ : Sound qq x → _) ?_; intro _; clear_value x; rotate_left; subst x; rotate_left)
    | (extract_lets +onlyGivenNames x; subst x)
    | split
    | dsimp -zeta only


theorem cmbRequest_sound {qq : List Instr} {k : Nat} {r : CmbRequest} {s : State}  (h_s : Sound qq s) : Sound qq (cmbRequest k r s) := by
  unfold cmbRequest
  repeat' first
    | with_reducible assumption
    | with_reducible rfl
    | with_reducible apply Sound.ite
    | with_reducible apply each_sound
    | with_reducible apply serveWaiting_sound
    | intro _
    | (with_reducible apply Sound.update; first | with_reducible assumption | with_reducible apply serveWaiting_sound)
    | (extract_lets +onlyGivenNames x; refine (?_ : Sound qq x → _) ?_; intro _; clear_value x; rotate_left; subst x; rotate_left)
    | (extract_lets +onlyGivenNames x; subst x)
    | split
    | dsimp -zeta only


theorem windowWritten_sound {qq : List Instr} {k : Nat} {v : Nat} {s : State}  (h_s : Sound qq s) : Sound qq (windowWritten k v s) := by
  unfold windowWritten
  repeat' first
    | with_reducible assumption
    | with_reducible rfl
    | with_reducible apply Sound.ite
    | with_reducible apply each_sound
    | with_reducible apply cmbRequest_sound
    | intro _
    | (with_reducible apply Sound.update; first | with_reducible assumption | with_reducible apply cmbRequest_sound)
    | (extract_lets +onlyGivenNames x; refine (?_ : Sound qq x → _) ?_; intro _; clear_value x; rotate_left; subst x; rotate_left)
    | (extract_lets +onlyGivenNames x; subst x)
    | split
    | dsimp -zeta only


theorem retireFences_sound {q : List Instr} {k n : Nat} {s : State} (h : Sound q s) :
    Sound q (retireFences k n s) := by
  induction n generalizing s with
  | zero => exact h
  | succ n ih =>
    unfold retireFences
    split
    · exact ih (endFence_sound h)
    · exact h

end Sys2Proof.Machine
end

