-- ==== Sys2Proof/Laws/SoundCampion.lean ====
section
/-!
SUPPORT. Soundness through the operations of Machine/Campion.lean.
-/

set_option linter.all false

namespace Sys2Proof.Machine

theorem oscillate_sound {qq : List Instr} {s : State}  (h_s : Sound qq s) : Sound qq (oscillate s) := by
  unfold oscillate
  repeat' first
    | with_reducible assumption
    | intro _
    | with_reducible rfl
    | with_reducible apply Sound.ite
    | with_reducible apply each_sound
    | (with_reducible apply Sound.update; first | with_reducible assumption)
    | (extract_lets +onlyGivenNames x; refine (?_ : Sound qq x → _) ?_; intro _; clear_value x; rotate_left; subst x; rotate_left)
    | (extract_lets +onlyGivenNames x; subst x)
    | split
    | dsimp -zeta only


theorem refreshRate_sound {qq : List Instr} {s : State}  (h_s : Sound qq s) : Sound qq (refreshRate s) := by
  unfold refreshRate
  repeat' first
    | with_reducible assumption
    | intro _
    | with_reducible rfl
    | with_reducible apply Sound.ite
    | with_reducible apply each_sound
    | (with_reducible apply Sound.update; first | with_reducible assumption)
    | (extract_lets +onlyGivenNames x; refine (?_ : Sound qq x → _) ?_; intro _; clear_value x; rotate_left; subst x; rotate_left)
    | (extract_lets +onlyGivenNames x; subst x)
    | split
    | dsimp -zeta only


theorem countFailed_sound {qq : List Instr} {s : State}  (h_s : Sound qq s) : Sound qq (countFailed s) := by
  unfold countFailed
  repeat' first
    | with_reducible assumption
    | intro _
    | with_reducible rfl
    | with_reducible apply Sound.ite
    | with_reducible apply each_sound
    | (with_reducible apply Sound.update; first | with_reducible assumption)
    | (extract_lets +onlyGivenNames x; refine (?_ : Sound qq x → _) ?_; intro _; clear_value x; rotate_left; subst x; rotate_left)
    | (extract_lets +onlyGivenNames x; subst x)
    | split
    | dsimp -zeta only


theorem failDialog_sound {qq : List Instr} {s : State}  (h_s : Sound qq s) : Sound qq (failDialog s) := by
  unfold failDialog
  repeat' first
    | with_reducible assumption
    | intro _
    | with_reducible rfl
    | with_reducible apply Sound.ite
    | with_reducible apply each_sound
    | with_reducible apply disarm_sound
    | with_reducible apply countFailed_sound
    | (with_reducible apply Sound.update; first | with_reducible assumption | with_reducible apply disarm_sound | with_reducible apply countFailed_sound)
    | (extract_lets +onlyGivenNames x; refine (?_ : Sound qq x → _) ?_; intro _; clear_value x; rotate_left; subst x; rotate_left)
    | (extract_lets +onlyGivenNames x; subst x)
    | split
    | dsimp -zeta only


theorem startDialog_sound {qq : List Instr} {s : State}  (h_s : Sound qq s) : Sound qq (startDialog s) := by
  unfold startDialog
  repeat' first
    | with_reducible assumption
    | intro _
    | with_reducible rfl
    | with_reducible apply Sound.ite
    | with_reducible apply each_sound
    | with_reducible apply say_sound
    | with_reducible apply arm_sound
    | with_reducible apply failDialog_sound
    | (with_reducible apply Sound.update; first | with_reducible assumption | with_reducible apply say_sound | with_reducible apply arm_sound | with_reducible apply failDialog_sound)
    | (extract_lets +onlyGivenNames x; refine (?_ : Sound qq x → _) ?_; intro _; clear_value x; rotate_left; subst x; rotate_left)
    | (extract_lets +onlyGivenNames x; subst x)
    | split
    | dsimp -zeta only


theorem stepTo_sound {qq : List Instr} {t : Nat} {cause : Nat} {s : State}  (h_s : Sound qq s) : Sound qq (stepTo t cause s) := by
  unfold stepTo
  repeat' first
    | with_reducible assumption
    | intro _
    | with_reducible rfl
    | with_reducible apply Sound.ite
    | with_reducible apply each_sound
    | with_reducible apply shiftTimers_sound
    | with_reducible apply requestFirst_sound
    | (with_reducible apply Sound.update; first | with_reducible assumption | with_reducible apply shiftTimers_sound | with_reducible apply requestFirst_sound)
    | (extract_lets +onlyGivenNames x; refine (?_ : Sound qq x → _) ?_; intro _; clear_value x; rotate_left; subst x; rotate_left)
    | (extract_lets +onlyGivenNames x; subst x)
    | split
    | dsimp -zeta only


theorem slew_sound {qq : List Instr} {d : Int} {interval : Nat} {s : State}  (h_s : Sound qq s) : Sound qq (slew d interval s) := by
  unfold slew
  repeat' first
    | with_reducible assumption
    | intro _
    | with_reducible rfl
    | with_reducible apply Sound.ite
    | with_reducible apply each_sound
    | (with_reducible apply Sound.update; first | with_reducible assumption)
    | (extract_lets +onlyGivenNames x; refine (?_ : Sound qq x → _) ?_; intro _; clear_value x; rotate_left; subst x; rotate_left)
    | (extract_lets +onlyGivenNames x; subst x)
    | split
    | dsimp -zeta only


theorem goodDialog_sound {qq : List Instr} {t : Nat} {source : Nat} {anchors : Bool} {forced : Option Nat} {s : State}  (h_s : Sound qq s) : Sound qq (goodDialog t source anchors forced s) := by
  unfold goodDialog
  repeat' first
    | with_reducible assumption
    | intro _
    | with_reducible rfl
    | with_reducible apply Sound.ite
    | with_reducible apply each_sound
    | with_reducible apply disarm_sound
    | with_reducible apply stepTo_sound
    | with_reducible apply slew_sound
    | with_reducible apply arm_sound
    | with_reducible apply raise_sound
    | (with_reducible apply Sound.update; first | with_reducible assumption | with_reducible apply disarm_sound | with_reducible apply stepTo_sound | with_reducible apply slew_sound | with_reducible apply arm_sound | with_reducible apply raise_sound)
    | (extract_lets +onlyGivenNames x; refine (?_ : Sound qq x → _) ?_; intro _; clear_value x; rotate_left; subst x; rotate_left)
    | (extract_lets +onlyGivenNames x; subst x)
    | split
    | dsimp -zeta only


theorem seedFloor_sound {qq : List Instr} {f : Nat} {code : Nat} {s : State}  (h_s : Sound qq s) : Sound qq (seedFloor f code s) := by
  unfold seedFloor
  repeat' first
    | with_reducible assumption
    | intro _
    | with_reducible rfl
    | with_reducible apply Sound.ite
    | with_reducible apply each_sound
    | with_reducible apply shiftTimers_sound
    | (with_reducible apply Sound.update; first | with_reducible assumption | with_reducible apply shiftTimers_sound)
    | (extract_lets +onlyGivenNames x; refine (?_ : Sound qq x → _) ?_; intro _; clear_value x; rotate_left; subst x; rotate_left)
    | (extract_lets +onlyGivenNames x; subst x)
    | split
    | dsimp -zeta only


theorem releaseHeld_sound {qq : List Instr} {s : State}  (h_s : Sound qq s) : Sound qq (releaseHeld s) := by
  unfold releaseHeld
  repeat' first
    | with_reducible assumption
    | intro _
    | with_reducible rfl
    | with_reducible apply Sound.ite
    | with_reducible apply each_sound
    | with_reducible apply each_sound
    | with_reducible apply deliver_sound
    | (with_reducible apply Sound.update; first | with_reducible assumption | with_reducible apply each_sound | with_reducible apply deliver_sound)
    | (extract_lets +onlyGivenNames x; refine (?_ : Sound qq x → _) ?_; intro _; clear_value x; rotate_left; subst x; rotate_left)
    | (extract_lets +onlyGivenNames x; subst x)
    | split
    | dsimp -zeta only


theorem execPtmDialogInterval_sound {qq : List Instr} {s : State}  (h_s : Sound qq s) : SoundOut qq (execPtmDialogInterval s) := by
  unfold execPtmDialogInterval
  repeat' first
    | with_reducible assumption
    | intro _
    | with_reducible rfl
    | with_reducible apply Sound.ite
    | with_reducible apply each_sound
    | with_reducible apply SoundOut.next
    | with_reducible apply SoundOut.ite
    | with_reducible apply startDialog_sound
    | with_reducible apply arm_sound
    | (with_reducible apply Sound.update; first | with_reducible assumption | with_reducible apply startDialog_sound | with_reducible apply arm_sound)
    | (extract_lets +onlyGivenNames x; refine (?_ : Sound qq x → _) ?_; intro _; clear_value x; rotate_left; subst x; rotate_left)
    | (extract_lets +onlyGivenNames x; subst x)
    | split
    | dsimp -zeta only


theorem execPtmResponse_sound {qq : List Instr} {times : PtmTimes} {s : State}  (h_s : Sound qq s) : SoundOut qq (execPtmResponse times s) := by
  unfold execPtmResponse
  repeat' first
    | with_reducible assumption
    | intro _
    | with_reducible rfl
    | with_reducible apply Sound.ite
    | with_reducible apply each_sound
    | with_reducible apply SoundOut.next
    | with_reducible apply SoundOut.ite
    | with_reducible apply goodDialog_sound
    | (with_reducible apply Sound.update; first | with_reducible assumption | with_reducible apply goodDialog_sound)
    | (extract_lets +onlyGivenNames x; refine (?_ : Sound qq x → _) ?_; intro _; clear_value x; rotate_left; subst x; rotate_left)
    | (extract_lets +onlyGivenNames x; subst x)
    | split
    | dsimp -zeta only


theorem execPtmResponseTimeout_sound {qq : List Instr} {s : State}  (h_s : Sound qq s) : SoundOut qq (execPtmResponseTimeout s) := by
  unfold execPtmResponseTimeout
  repeat' first
    | with_reducible assumption
    | intro _
    | with_reducible rfl
    | with_reducible apply Sound.ite
    | with_reducible apply each_sound
    | with_reducible apply SoundOut.next
    | with_reducible apply SoundOut.ite
    | with_reducible apply failDialog_sound
    | (with_reducible apply Sound.update; first | with_reducible assumption | with_reducible apply failDialog_sound)
    | (extract_lets +onlyGivenNames x; refine (?_ : Sound qq x → _) ?_; intro _; clear_value x; rotate_left; subst x; rotate_left)
    | (extract_lets +onlyGivenNames x; subst x)
    | split
    | dsimp -zeta only


theorem execHoldoverExpiry_sound {qq : List Instr} {s : State}  (h_s : Sound qq s) : SoundOut qq (execHoldoverExpiry s) := by
  unfold execHoldoverExpiry
  repeat' first
    | with_reducible assumption
    | intro _
    | with_reducible rfl
    | with_reducible apply Sound.ite
    | with_reducible apply each_sound
    | with_reducible apply SoundOut.next
    | with_reducible apply SoundOut.ite
    | with_reducible apply disarm_sound
    | with_reducible apply raise_sound
    | with_reducible apply refreshRate_sound
    | (with_reducible apply Sound.update; first | with_reducible assumption | with_reducible apply disarm_sound | with_reducible apply raise_sound | with_reducible apply refreshRate_sound)
    | (extract_lets +onlyGivenNames x; refine (?_ : Sound qq x → _) ?_; intro _; clear_value x; rotate_left; subst x; rotate_left)
    | (extract_lets +onlyGivenNames x; subst x)
    | split
    | dsimp -zeta only


theorem execClampEnd_sound {qq : List Instr} {s : State}  (h_s : Sound qq s) : SoundOut qq (execClampEnd s) := by
  unfold execClampEnd
  repeat' first
    | with_reducible assumption
    | intro _
    | with_reducible rfl
    | with_reducible apply Sound.ite
    | with_reducible apply each_sound
    | with_reducible apply SoundOut.next
    | with_reducible apply SoundOut.ite
    | (with_reducible apply Sound.update; first | with_reducible assumption)
    | (extract_lets +onlyGivenNames x; refine (?_ : Sound qq x → _) ?_; intro _; clear_value x; rotate_left; subst x; rotate_left)
    | (extract_lets +onlyGivenNames x; subst x)
    | split
    | dsimp -zeta only


theorem execReservationWriteDone_sound {qq : List Instr} {s : State}  (h_s : Sound qq s) : SoundOut qq (execReservationWriteDone s) := by
  unfold execReservationWriteDone
  repeat' first
    | with_reducible assumption
    | intro _
    | with_reducible rfl
    | with_reducible apply Sound.ite
    | with_reducible apply each_sound
    | with_reducible apply SoundOut.next
    | with_reducible apply SoundOut.ite
    | with_reducible apply settle_sound
    | (with_reducible apply Sound.update; first | with_reducible assumption | with_reducible apply settle_sound)
    | (extract_lets +onlyGivenNames x; refine (?_ : Sound qq x → _) ?_; intro _; clear_value x; rotate_left; subst x; rotate_left)
    | (extract_lets +onlyGivenNames x; subst x)
    | split
    | dsimp -zeta only


theorem issueRead_snd {qq : List Instr} {s : State}   (h_s : Sound qq s) : Sound qq (issueRead s).2 := by
  unfold issueRead
  repeat' first
    | with_reducible assumption
    | intro _
    | with_reducible rfl
    | with_reducible apply Sound.ite_snd
    | with_reducible apply Sound.ite
    | with_reducible apply each_sound
    | with_reducible apply takeStamp_snd
    | (with_reducible refine takeStamp_sound (by assumption) ?_)
    | (with_reducible apply Sound.update; first | with_reducible assumption | with_reducible apply takeStamp_snd | (with_reducible refine takeStamp_sound (by assumption) ?_))
    | (extract_lets +onlyGivenNames x; refine (?_ : Sound qq x → _) ?_; intro _; clear_value x; rotate_left; subst x; rotate_left)
    | (extract_lets +onlyGivenNames x; subst x)
    | split
    | dsimp -zeta only

theorem issueRead_sound {qq : List Instr} {s : State} {r0 : Nat} {tt : State} (eqn : issueRead s = (r0, tt))  (h_s : Sound qq s) : Sound qq tt := by
  have h := issueRead_snd (qq := qq) (s := s) h_s
  rw [eqn] at h
  exact h

theorem execCampIssueRead_sound {qq : List Instr} {port : Nat} {s : State} (h_s : Sound qq s) :
    SoundOut qq (execCampIssueRead port s) := by
  unfold execCampIssueRead
  refine SoundOut.next (memoryRead_sound (fun a ha => ?_) h_s)
  dsimp only
  exact Sound.ite (refuseRead_sound ha) (say_sound (issueRead_snd ha))

theorem startYardDialog_sound {qq : List Instr} {s : State}  (h_s : Sound qq s) : Sound qq (startYardDialog s) := by
  unfold startYardDialog
  repeat' first
    | with_reducible assumption
    | intro _
    | with_reducible rfl
    | with_reducible apply Sound.ite
    | with_reducible apply each_sound
    | with_reducible apply countFailed_sound
    | with_reducible apply sendFrame_sound
    | (with_reducible apply Sound.update; first | with_reducible assumption | with_reducible apply countFailed_sound | with_reducible apply sendFrame_sound)
    | (extract_lets +onlyGivenNames x; refine (?_ : Sound qq x → _) ?_; intro _; clear_value x; rotate_left; subst x; rotate_left)
    | (extract_lets +onlyGivenNames x; subst x)
    | split
    | dsimp -zeta only


theorem redialog_sound {qq : List Instr} {s : State}  (h_s : Sound qq s) : Sound qq (redialog s) := by
  unfold redialog
  repeat' first
    | with_reducible assumption
    | intro _
    | with_reducible rfl
    | with_reducible apply Sound.ite
    | with_reducible apply each_sound
    | with_reducible apply startYardDialog_sound
    | with_reducible apply arm_sound
    | with_reducible apply startDialog_sound
    | (with_reducible apply Sound.update; first | with_reducible assumption | with_reducible apply startYardDialog_sound | with_reducible apply arm_sound | with_reducible apply startDialog_sound)
    | (extract_lets +onlyGivenNames x; refine (?_ : Sound qq x → _) ?_; intro _; clear_value x; rotate_left; subst x; rotate_left)
    | (extract_lets +onlyGivenNames x; subst x)
    | split
    | dsimp -zeta only


theorem execCampRedialog_sound {qq : List Instr} {s : State}  (h_s : Sound qq s) : SoundOut qq (execCampRedialog s) := by
  unfold execCampRedialog
  repeat' first
    | with_reducible assumption
    | intro _
    | with_reducible rfl
    | with_reducible apply Sound.ite
    | with_reducible apply each_sound
    | with_reducible apply SoundOut.next
    | with_reducible apply SoundOut.ite
    | with_reducible apply redialog_sound
    | (with_reducible apply Sound.update; first | with_reducible assumption | with_reducible apply redialog_sound)
    | (extract_lets +onlyGivenNames x; refine (?_ : Sound qq x → _) ?_; intro _; clear_value x; rotate_left; subst x; rotate_left)
    | (extract_lets +onlyGivenNames x; subst x)
    | split
    | dsimp -zeta only


theorem offsetWritten_sound {qq : List Instr} {v : Nat} {s : State}  (h_s : Sound qq s) : Sound qq (offsetWritten v s) := by
  unfold offsetWritten
  repeat' first
    | with_reducible assumption
    | intro _
    | with_reducible rfl
    | with_reducible apply Sound.ite
    | with_reducible apply each_sound
    | with_reducible apply raise_sound
    | (with_reducible apply Sound.update; first | with_reducible assumption | with_reducible apply raise_sound)
    | (extract_lets +onlyGivenNames x; refine (?_ : Sound qq x → _) ?_; intro _; clear_value x; rotate_left; subst x; rotate_left)
    | (extract_lets +onlyGivenNames x; subst x)
    | split
    | dsimp -zeta only


theorem execCampEpochOffsetWrite_sound {qq : List Instr} {value : BitVec 64} {s : State}  (h_s : Sound qq s) : SoundOut qq (execCampEpochOffsetWrite value s) := by
  unfold execCampEpochOffsetWrite
  repeat' first
    | with_reducible assumption
    | intro _
    | with_reducible rfl
    | with_reducible apply Sound.ite
    | with_reducible apply each_sound
    | with_reducible apply SoundOut.next
    | with_reducible apply SoundOut.ite
    | with_reducible apply offsetWritten_sound
    | (with_reducible apply Sound.update; first | with_reducible assumption | with_reducible apply offsetWritten_sound)
    | (extract_lets +onlyGivenNames x; refine (?_ : Sound qq x → _) ?_; intro _; clear_value x; rotate_left; subst x; rotate_left)
    | (extract_lets +onlyGivenNames x; subst x)
    | split
    | dsimp -zeta only


end Sys2Proof.Machine
end

