-- ==== Sys2Proof/Laws/SoundTeasel.lean ====
section
/-!
SUPPORT. Soundness through the operations of Machine/Teasel.lean.
-/

set_option linter.all false

namespace Sys2Proof.Machine

theorem tslProbe_sound {qq : List Instr} {address : BitVec 16} {s : State}  (h_s : Sound qq s) : Sound qq (tslProbe address s) := by
  unfold tslProbe
  repeat' first
    | with_reducible assumption
    | intro _
    | with_reducible rfl
    | with_reducible apply Sound.ite
    | with_reducible apply each_sound
    | (with_reducible apply Sound.update; first | with_reducible assumption)
    | (extract_lets +onlyGivenNames x; refine (?_ : Sound qq x → _) ?_; intro _; clear_value x; rotate_left; subst x; rotate_left)
    | (extract_lets +onlyGivenNames x; subst x)
    | split
    | dsimp -zeta only


theorem tslWrite_sound {qq : List Instr} {a : Nat} {e : TslEntry} {s : State}  (h_s : Sound qq s) : Sound qq (tslWrite a e s) := by
  unfold tslWrite
  repeat' first
    | with_reducible assumption
    | intro _
    | with_reducible rfl
    | with_reducible apply Sound.ite
    | with_reducible apply each_sound
    | (with_reducible apply Sound.update; first | with_reducible assumption)
    | (extract_lets +onlyGivenNames x; refine (?_ : Sound qq x → _) ?_; intro _; clear_value x; rotate_left; subst x; rotate_left)
    | (extract_lets +onlyGivenNames x; subst x)
    | split
    | dsimp -zeta only


theorem tslClear_sound {qq : List Instr} {a : Nat} {s : State}  (h_s : Sound qq s) : Sound qq (tslClear a s) := by
  unfold tslClear
  repeat' first
    | with_reducible assumption
    | intro _
    | with_reducible rfl
    | with_reducible apply Sound.ite
    | with_reducible apply each_sound
    | (with_reducible apply Sound.update; first | with_reducible assumption)
    | (extract_lets +onlyGivenNames x; refine (?_ : Sound qq x → _) ?_; intro _; clear_value x; rotate_left; subst x; rotate_left)
    | (extract_lets +onlyGivenNames x; subst x)
    | split
    | dsimp -zeta only


theorem tslCounted_sound {qq : List Instr} {r : TslResult} {s : State}  (h_s : Sound qq s) : Sound qq (tslCounted r s) := by
  unfold tslCounted
  repeat' first
    | with_reducible assumption
    | intro _
    | with_reducible rfl
    | with_reducible apply Sound.ite
    | with_reducible apply each_sound
    | (with_reducible apply Sound.update; first | with_reducible assumption)
    | (extract_lets +onlyGivenNames x; refine (?_ : Sound qq x → _) ?_; intro _; clear_value x; rotate_left; subst x; rotate_left)
    | (extract_lets +onlyGivenNames x; subst x)
    | split
    | dsimp -zeta only


theorem tslRefused_sound {qq : List Instr} {s : State}  (h_s : Sound qq s) : Sound qq (tslRefused s) := by
  unfold tslRefused
  repeat' first
    | with_reducible assumption
    | intro _
    | with_reducible rfl
    | with_reducible apply Sound.ite
    | with_reducible apply each_sound
    | (with_reducible apply Sound.update; first | with_reducible assumption)
    | (extract_lets +onlyGivenNames x; refine (?_ : Sound qq x → _) ?_; intro _; clear_value x; rotate_left; subst x; rotate_left)
    | (extract_lets +onlyGivenNames x; subst x)
    | split
    | dsimp -zeta only


theorem tslFreeSlot_snd {qq : List Instr} {g : TslGroup} {e : TslEntry} {s : State}   (h_s : Sound qq s) : Sound qq (tslFreeSlot g e s).2 := by
  unfold tslFreeSlot
  repeat' first
    | with_reducible assumption
    | intro _
    | with_reducible rfl
    | with_reducible apply Sound.ite_snd
    | with_reducible apply Sound.ite
    | with_reducible apply each_sound
    | with_reducible apply tslWrite_sound
    | with_reducible apply tslRefused_sound
    | (with_reducible apply Sound.update; first | with_reducible assumption | with_reducible apply tslWrite_sound | with_reducible apply tslRefused_sound)
    | (extract_lets +onlyGivenNames x; refine (?_ : Sound qq x → _) ?_; intro _; clear_value x; rotate_left; subst x; rotate_left)
    | (extract_lets +onlyGivenNames x; subst x)
    | split
    | dsimp -zeta only

theorem tslFreeSlot_sound {qq : List Instr} {g : TslGroup} {e : TslEntry} {s : State} {r0 : Option Nat} {tt : State} (eqn : tslFreeSlot g e s = (r0, tt))  (h_s : Sound qq s) : Sound qq tt := by
  have h := tslFreeSlot_snd (qq := qq) (g := g) (e := e) (s := s) h_s
  rw [eqn] at h
  exact h

theorem tslSearchInsert_snd {qq : List Instr} {e : TslEntry} {s : State}   (h_s : Sound qq s) : Sound qq (tslSearchInsert e s).2 := by
  unfold tslSearchInsert
  repeat' first
    | with_reducible assumption
    | intro _
    | with_reducible rfl
    | with_reducible apply Sound.ite_snd
    | with_reducible apply Sound.ite
    | with_reducible apply each_sound
    | with_reducible apply tslCounted_sound
    | with_reducible apply tslFreeSlot_snd
    | (with_reducible refine tslFreeSlot_sound (by assumption) ?_)
    | (with_reducible apply Sound.update; first | with_reducible assumption | with_reducible apply tslCounted_sound | with_reducible apply tslFreeSlot_snd | (with_reducible refine tslFreeSlot_sound (by assumption) ?_))
    | (extract_lets +onlyGivenNames x; refine (?_ : Sound qq x → _) ?_; intro _; clear_value x; rotate_left; subst x; rotate_left)
    | (extract_lets +onlyGivenNames x; subst x)
    | split
    | dsimp -zeta only

theorem tslSearchInsert_sound {qq : List Instr} {e : TslEntry} {s : State} {r0 : Option Nat} {tt : State} (eqn : tslSearchInsert e s = (r0, tt))  (h_s : Sound qq s) : Sound qq tt := by
  have h := tslSearchInsert_snd (qq := qq) (e := e) (s := s) h_s
  rw [eqn] at h
  exact h

theorem tslRing_sound {qq : List Instr} {e : TslEntry} {s : State}  (h_s : Sound qq s) : Sound qq (tslRing e s) := by
  unfold tslRing
  repeat' first
    | with_reducible assumption
    | intro _
    | with_reducible rfl
    | with_reducible apply Sound.ite
    | with_reducible apply each_sound
    | with_reducible apply tslWrite_sound
    | (with_reducible apply Sound.update; first | with_reducible assumption | with_reducible apply tslWrite_sound)
    | (extract_lets +onlyGivenNames x; refine (?_ : Sound qq x → _) ?_; intro _; clear_value x; rotate_left; subst x; rotate_left)
    | (extract_lets +onlyGivenNames x; subst x)
    | split
    | dsimp -zeta only


theorem tslOrdered_sound {qq : List Instr} {e : TslEntry} {s : State}  (h_s : Sound qq s) : Sound qq (tslOrdered e s) := by
  unfold tslOrdered
  repeat' first
    | with_reducible assumption
    | intro _
    | with_reducible rfl
    | with_reducible apply Sound.ite
    | with_reducible apply each_sound
    | with_reducible apply tslWrite_sound
    | with_reducible apply tslRefused_sound
    | (with_reducible apply Sound.update; first | with_reducible assumption | with_reducible apply tslWrite_sound | with_reducible apply tslRefused_sound)
    | (extract_lets +onlyGivenNames x; refine (?_ : Sound qq x → _) ?_; intro _; clear_value x; rotate_left; subst x; rotate_left)
    | (extract_lets +onlyGivenNames x; subst x)
    | split
    | dsimp -zeta only


theorem tslServe_sound {q : List Instr} {n : Nat} {s : State} (h : Sound q s) : Sound q (tslServe n s) := by
  induction n generalizing s with
  | zero => exact h
  | succ n ih =>
    unfold tslServe
    split
    · exact h
    · split
      · exact h
      · exact ih (tslOrdered_sound (Sound.congr h rfl rfl rfl rfl rfl rfl rfl rfl rfl rfl rfl))

theorem tslMove_sound {qq : List Instr} {s : State}  (h_s : Sound qq s) : Sound qq (tslMove s) := by
  unfold tslMove
  repeat' first
    | with_reducible assumption
    | intro _
    | with_reducible rfl
    | with_reducible apply Sound.ite
    | with_reducible apply each_sound
    | with_reducible apply tslWrite_sound
    | with_reducible apply tslServe_sound
    | (with_reducible apply Sound.update; first | with_reducible assumption | with_reducible apply tslWrite_sound | with_reducible apply tslServe_sound)
    | (extract_lets +onlyGivenNames x; refine (?_ : Sound qq x → _) ?_; intro _; clear_value x; rotate_left; subst x; rotate_left)
    | (extract_lets +onlyGivenNames x; subst x)
    | split
    | dsimp -zeta only


theorem tslRemove_sound {qq : List Instr} {q : TslSearch} {s : State}  (h_s : Sound qq s) : Sound qq (tslRemove q s) := by
  unfold tslRemove
  repeat' first
    | with_reducible assumption
    | intro _
    | with_reducible rfl
    | with_reducible apply Sound.ite
    | with_reducible apply each_sound
    | (with_reducible apply Sound.update; first | with_reducible assumption)
    | (extract_lets +onlyGivenNames x; refine (?_ : Sound qq x → _) ?_; intro _; clear_value x; rotate_left; subst x; rotate_left)
    | (extract_lets +onlyGivenNames x; subst x)
    | split
    | dsimp -zeta only


theorem leaveRecord_sound {qq : List Instr} {m : MapRecord} {s : State}  (h_s : Sound qq s) : Sound qq (leaveRecord m s) := by
  unfold leaveRecord
  repeat' first
    | with_reducible assumption
    | intro _
    | with_reducible rfl
    | with_reducible apply Sound.ite
    | with_reducible apply each_sound
    | with_reducible apply tslRemove_sound
    | (with_reducible apply Sound.update; first | with_reducible assumption | with_reducible apply tslRemove_sound)
    | (extract_lets +onlyGivenNames x; refine (?_ : Sound qq x → _) ?_; intro _; clear_value x; rotate_left; subst x; rotate_left)
    | (extract_lets +onlyGivenNames x; subst x)
    | split
    | dsimp -zeta only


theorem rebuildWriteBuffer_sound {qq : List Instr} {s : State}  (h_s : Sound qq s) : Sound qq (rebuildWriteBuffer s) := by
  unfold rebuildWriteBuffer
  repeat' first
    | with_reducible assumption
    | intro _
    | with_reducible rfl
    | with_reducible apply Sound.ite
    | with_reducible apply each_sound
    | with_reducible apply each_sound
    | with_reducible apply tslOrdered_sound
    | (with_reducible apply Sound.update; first | with_reducible assumption | with_reducible apply each_sound | with_reducible apply tslOrdered_sound)
    | (extract_lets +onlyGivenNames x; refine (?_ : Sound qq x → _) ?_; intro _; clear_value x; rotate_left; subst x; rotate_left)
    | (extract_lets +onlyGivenNames x; subst x)
    | split
    | dsimp -zeta only


theorem rebuildOverlap_sound {qq : List Instr} {a : Nat} {saved : TslEntry} {s : State}  (h_s : Sound qq s) : Sound qq (rebuildOverlap a saved s) := by
  unfold rebuildOverlap
  repeat' first
    | with_reducible assumption
    | intro _
    | with_reducible rfl
    | with_reducible apply Sound.ite
    | with_reducible apply each_sound
    | with_reducible apply tslFreeSlot_snd
    | (with_reducible refine tslFreeSlot_sound (by assumption) ?_)
    | (with_reducible apply Sound.update; first | with_reducible assumption | with_reducible apply tslFreeSlot_snd | (with_reducible refine tslFreeSlot_sound (by assumption) ?_))
    | (extract_lets +onlyGivenNames x; refine (?_ : Sound qq x → _) ?_; intro _; clear_value x; rotate_left; subst x; rotate_left)
    | (extract_lets +onlyGivenNames x; subst x)
    | split
    | dsimp -zeta only


theorem rebuildStripes_sound {qq : List Instr} {s : State}  (h_s : Sound qq s) : Sound qq (rebuildStripes s) := by
  unfold rebuildStripes
  repeat' first
    | with_reducible assumption
    | intro _
    | with_reducible rfl
    | with_reducible apply Sound.ite
    | with_reducible apply each_sound
    | with_reducible apply each_sound
    | with_reducible apply tslFreeSlot_snd
    | (with_reducible refine tslFreeSlot_sound (by assumption) ?_)
    | (with_reducible apply Sound.update; first | with_reducible assumption | with_reducible apply each_sound | with_reducible apply tslFreeSlot_snd | (with_reducible refine tslFreeSlot_sound (by assumption) ?_))
    | (extract_lets +onlyGivenNames x; refine (?_ : Sound qq x → _) ?_; intro _; clear_value x; rotate_left; subst x; rotate_left)
    | (extract_lets +onlyGivenNames x; subst x)
    | split
    | dsimp -zeta only


theorem tslRebuild_sound {qq : List Instr} {address : Nat} {s : State}  (h_s : Sound qq s) : Sound qq (tslRebuild address s) := by
  unfold tslRebuild
  repeat' first
    | with_reducible assumption
    | intro _
    | with_reducible rfl
    | with_reducible apply Sound.ite
    | with_reducible apply each_sound
    | with_reducible apply tslClear_sound
    | with_reducible apply rebuildWriteBuffer_sound
    | with_reducible apply rebuildOverlap_sound
    | with_reducible apply rebuildStripes_sound
    | with_reducible apply raise_sound
    | with_reducible apply request_sound
    | (with_reducible apply Sound.update; first | with_reducible assumption | with_reducible apply tslClear_sound | with_reducible apply rebuildWriteBuffer_sound | with_reducible apply rebuildOverlap_sound | with_reducible apply rebuildStripes_sound | with_reducible apply raise_sound | with_reducible apply request_sound)
    | (extract_lets +onlyGivenNames x; refine (?_ : Sound qq x → _) ?_; intro _; clear_value x; rotate_left; subst x; rotate_left)
    | (extract_lets +onlyGivenNames x; subst x)
    | split
    | dsimp -zeta only


theorem execTeaselSearch_sound {qq : List Instr} {search : TslSearch} {error : Option Nat} {s : State}  (h_s : Sound qq s) : SoundOut qq (execTeaselSearch search error s) := by
  unfold execTeaselSearch
  repeat' first
    | with_reducible assumption
    | intro _
    | with_reducible rfl
    | with_reducible apply Sound.ite
    | with_reducible apply each_sound
    | with_reducible apply SoundOut.next
    | with_reducible apply SoundOut.ite
    | with_reducible apply tslRebuild_sound
    | with_reducible apply tslCounted_sound
    | (with_reducible apply Sound.update; first | with_reducible assumption | with_reducible apply tslRebuild_sound | with_reducible apply tslCounted_sound)
    | (extract_lets +onlyGivenNames x; refine (?_ : Sound qq x → _) ?_; intro _; clear_value x; rotate_left; subst x; rotate_left)
    | (extract_lets +onlyGivenNames x; subst x)
    | split
    | dsimp -zeta only


theorem execTeaselSearchInsert_sound {qq : List Instr} {entry : TslEntry} {s : State}  (h_s : Sound qq s) : SoundOut qq (execTeaselSearchInsert entry s) := by
  unfold execTeaselSearchInsert
  repeat' first
    | with_reducible assumption
    | intro _
    | with_reducible rfl
    | with_reducible apply Sound.ite
    | with_reducible apply each_sound
    | with_reducible apply SoundOut.next
    | with_reducible apply SoundOut.ite
    | with_reducible apply tslSearchInsert_snd
    | (with_reducible refine tslSearchInsert_sound (by assumption) ?_)
    | (with_reducible apply Sound.update; first | with_reducible assumption | with_reducible apply tslSearchInsert_snd | (with_reducible refine tslSearchInsert_sound (by assumption) ?_))
    | (extract_lets +onlyGivenNames x; refine (?_ : Sound qq x → _) ?_; intro _; clear_value x; rotate_left; subst x; rotate_left)
    | (extract_lets +onlyGivenNames x; subst x)
    | split
    | dsimp -zeta only


theorem execTeaselOrderedInsert_sound {qq : List Instr} {entry : TslEntry} {s : State}  (h_s : Sound qq s) : SoundOut qq (execTeaselOrderedInsert entry s) := by
  unfold execTeaselOrderedInsert
  repeat' first
    | with_reducible assumption
    | intro _
    | with_reducible rfl
    | with_reducible apply Sound.ite
    | with_reducible apply each_sound
    | with_reducible apply SoundOut.next
    | with_reducible apply SoundOut.ite
    | with_reducible apply tslOrdered_sound
    | (with_reducible apply Sound.update; first | with_reducible assumption | with_reducible apply tslOrdered_sound)
    | (extract_lets +onlyGivenNames x; refine (?_ : Sound qq x → _) ?_; intro _; clear_value x; rotate_left; subst x; rotate_left)
    | (extract_lets +onlyGivenNames x; subst x)
    | split
    | dsimp -zeta only


theorem execTeaselFreeSlotInsert_sound {qq : List Instr} {group : TslGroup} {entry : TslEntry} {s : State}  (h_s : Sound qq s) : SoundOut qq (execTeaselFreeSlotInsert group entry s) := by
  unfold execTeaselFreeSlotInsert
  repeat' first
    | with_reducible assumption
    | intro _
    | with_reducible rfl
    | with_reducible apply Sound.ite
    | with_reducible apply each_sound
    | with_reducible apply SoundOut.next
    | with_reducible apply SoundOut.ite
    | with_reducible apply tslFreeSlot_snd
    | (with_reducible refine tslFreeSlot_sound (by assumption) ?_)
    | (with_reducible apply Sound.update; first | with_reducible assumption | with_reducible apply tslFreeSlot_snd | (with_reducible refine tslFreeSlot_sound (by assumption) ?_))
    | (extract_lets +onlyGivenNames x; refine (?_ : Sound qq x → _) ?_; intro _; clear_value x; rotate_left; subst x; rotate_left)
    | (extract_lets +onlyGivenNames x; subst x)
    | split
    | dsimp -zeta only


theorem execTeaselRingInsert_sound {qq : List Instr} {entry : TslEntry} {s : State}  (h_s : Sound qq s) : SoundOut qq (execTeaselRingInsert entry s) := by
  unfold execTeaselRingInsert
  repeat' first
    | with_reducible assumption
    | intro _
    | with_reducible rfl
    | with_reducible apply Sound.ite
    | with_reducible apply each_sound
    | with_reducible apply SoundOut.next
    | with_reducible apply SoundOut.ite
    | with_reducible apply tslRing_sound
    | (with_reducible apply Sound.update; first | with_reducible assumption | with_reducible apply tslRing_sound)
    | (extract_lets +onlyGivenNames x; refine (?_ : Sound qq x → _) ?_; intro _; clear_value x; rotate_left; subst x; rotate_left)
    | (extract_lets +onlyGivenNames x; subst x)
    | split
    | dsimp -zeta only


theorem execTeaselRemoveByAddress_sound {qq : List Instr} {address : Nat} {s : State}  (h_s : Sound qq s) : SoundOut qq (execTeaselRemoveByAddress address s) := by
  unfold execTeaselRemoveByAddress
  repeat' first
    | with_reducible assumption
    | intro _
    | with_reducible rfl
    | with_reducible apply Sound.ite
    | with_reducible apply each_sound
    | with_reducible apply SoundOut.next
    | with_reducible apply SoundOut.ite
    | with_reducible apply tslClear_sound
    | (with_reducible apply Sound.update; first | with_reducible assumption | with_reducible apply tslClear_sound)
    | (extract_lets +onlyGivenNames x; refine (?_ : Sound qq x → _) ?_; intro _; clear_value x; rotate_left; subst x; rotate_left)
    | (extract_lets +onlyGivenNames x; subst x)
    | split
    | dsimp -zeta only


theorem execTeaselRemoveByMatch_sound {qq : List Instr} {search : TslSearch} {s : State}  (h_s : Sound qq s) : SoundOut qq (execTeaselRemoveByMatch search s) := by
  unfold execTeaselRemoveByMatch
  repeat' first
    | with_reducible assumption
    | intro _
    | with_reducible rfl
    | with_reducible apply Sound.ite
    | with_reducible apply each_sound
    | with_reducible apply SoundOut.next
    | with_reducible apply SoundOut.ite
    | with_reducible apply tslRemove_sound
    | (with_reducible apply Sound.update; first | with_reducible assumption | with_reducible apply tslRemove_sound)
    | (extract_lets +onlyGivenNames x; refine (?_ : Sound qq x → _) ?_; intro _; clear_value x; rotate_left; subst x; rotate_left)
    | (extract_lets +onlyGivenNames x; subst x)
    | split
    | dsimp -zeta only


theorem execTeaselShiftMove_sound {qq : List Instr} {s : State}  (h_s : Sound qq s) : SoundOut qq (execTeaselShiftMove s) := by
  unfold execTeaselShiftMove
  repeat' first
    | with_reducible assumption
    | intro _
    | with_reducible rfl
    | with_reducible apply Sound.ite
    | with_reducible apply each_sound
    | with_reducible apply SoundOut.next
    | with_reducible apply SoundOut.ite
    | with_reducible apply tslMove_sound
    | (with_reducible apply Sound.update; first | with_reducible assumption | with_reducible apply tslMove_sound)
    | (extract_lets +onlyGivenNames x; refine (?_ : Sound qq x → _) ?_; intro _; clear_value x; rotate_left; subst x; rotate_left)
    | (extract_lets +onlyGivenNames x; subst x)
    | split
    | dsimp -zeta only


theorem execTeaselProbe_sound {qq : List Instr} {address : BitVec 16} {s : State}  (h_s : Sound qq s) : SoundOut qq (execTeaselProbe address s) := by
  unfold execTeaselProbe
  repeat' first
    | with_reducible assumption
    | intro _
    | with_reducible rfl
    | with_reducible apply Sound.ite
    | with_reducible apply each_sound
    | with_reducible apply SoundOut.next
    | with_reducible apply SoundOut.ite
    | with_reducible apply tslProbe_sound
    | (with_reducible apply Sound.update; first | with_reducible assumption | with_reducible apply tslProbe_sound)
    | (extract_lets +onlyGivenNames x; refine (?_ : Sound qq x → _) ?_; intro _; clear_value x; rotate_left; subst x; rotate_left)
    | (extract_lets +onlyGivenNames x; subst x)
    | split
    | dsimp -zeta only


end Sys2Proof.Machine
end

