-- ==== Sys2Proof/Laws/SoundPowerOps.lean ====
section
/-!
SUPPORT. Soundness through the operations of Machine/PowerOps.lean.
-/

set_option linter.all false

namespace Sys2Proof.Machine

theorem refreshLevel_sound {qq : List Instr} {s : State}  (h_s : Sound qq s) : Sound qq (refreshLevel s) := by
  unfold refreshLevel
  repeat' first
    | with_reducible assumption
    | intro _
    | with_reducible rfl
    | with_reducible apply Sound.ite
    | with_reducible apply each_sound
    | (with_reducible apply Sound.update; first | with_reducible assumption)
    | (extract_lets +onlyGivenNames x; refine (?_ : Sound qq x → _) ?_; intro _; clear_value x; rotate_left; subst x; rotate_left)
    | (extract_lets +onlyGivenNames x; subst x)
    | split
    | dsimp -zeta only


theorem noteHealth_sound {qq : List Instr} {s : State}  (h_s : Sound qq s) : Sound qq (noteHealth s) := by
  unfold noteHealth
  repeat' first
    | with_reducible assumption
    | intro _
    | with_reducible rfl
    | with_reducible apply Sound.ite
    | with_reducible apply each_sound
    | with_reducible apply noteMiAll_sound
    | with_reducible apply raise_sound
    | with_reducible apply each_sound
    | with_reducible apply postAsync_sound
    | (with_reducible apply Sound.update; first | with_reducible assumption | with_reducible apply noteMiAll_sound | with_reducible apply raise_sound | with_reducible apply each_sound | with_reducible apply postAsync_sound)
    | (extract_lets +onlyGivenNames x; refine (?_ : Sound qq x → _) ?_; intro _; clear_value x; rotate_left; subst x; rotate_left)
    | (extract_lets +onlyGivenNames x; subst x)
    | split
    | dsimp -zeta only


theorem writeHealthPage_sound {qq : List Instr} {s : State}  (h_s : Sound qq s) : Sound qq (writeHealthPage s) := by
  unfold writeHealthPage
  repeat' first
    | with_reducible assumption
    | intro _
    | with_reducible rfl
    | with_reducible apply Sound.ite
    | with_reducible apply each_sound
    | with_reducible apply takeStamp_snd
    | (with_reducible refine takeStamp_sound (by assumption) ?_)
    | (with_reducible apply Sound.update; first | with_reducible assumption | with_reducible apply takeStamp_snd | (with_reducible refine takeStamp_sound (by assumption) ?_))
    | (extract_lets +onlyGivenNames x; refine (?_ : Sound qq x → _) ?_; intro _; clear_value x; rotate_left; subst x; rotate_left)
    | (extract_lets +onlyGivenNames x; subst x)
    | split
    | dsimp -zeta only


theorem takeNonce_snd {qq : List Instr} {lane : Nat} {s : State}   (h_s : Sound qq s) : Sound qq (takeNonce lane s).2 := by
  unfold takeNonce
  repeat' first
    | with_reducible assumption
    | intro _
    | with_reducible rfl
    | with_reducible apply Sound.ite_snd
    | with_reducible apply Sound.ite
    | with_reducible apply each_sound
    | (with_reducible apply Sound.update; first | with_reducible assumption)
    | (extract_lets +onlyGivenNames x; refine (?_ : Sound qq x → _) ?_; intro _; clear_value x; rotate_left; subst x; rotate_left)
    | (extract_lets +onlyGivenNames x; subst x)
    | split
    | dsimp -zeta only

theorem takeNonce_sound {qq : List Instr} {lane : Nat} {s : State} {r0 : Nat} {tt : State} (eqn : takeNonce lane s = (r0, tt))  (h_s : Sound qq s) : Sound qq tt := by
  have h := takeNonce_snd (qq := qq) (lane := lane) (s := s) h_s
  rw [eqn] at h
  exact h

theorem shroudLost_sound {qq : List Instr} {units : Nat} {s : State}  (h_s : Sound qq s) : Sound qq (shroudLost units s) := by
  unfold shroudLost
  repeat' first
    | with_reducible assumption
    | intro _
    | with_reducible rfl
    | with_reducible apply Sound.ite
    | with_reducible apply each_sound
    | with_reducible apply noteHealth_sound
    | with_reducible apply raise_sound
    | (with_reducible apply Sound.update; first | with_reducible assumption | with_reducible apply noteHealth_sound | with_reducible apply raise_sound)
    | (extract_lets +onlyGivenNames x; refine (?_ : Sound qq x → _) ?_; intro _; clear_value x; rotate_left; subst x; rotate_left)
    | (extract_lets +onlyGivenNames x; subst x)
    | split
    | dsimp -zeta only


theorem askDigest_sound {qq : List Instr} {stamp : Nat} {u : EngineUse} {s : State}  (h_s : Sound qq s) : Sound qq (askDigest stamp u s) := by
  unfold askDigest
  repeat' first
    | with_reducible assumption
    | intro _
    | with_reducible rfl
    | with_reducible apply Sound.ite
    | with_reducible apply each_sound
    | (with_reducible apply Sound.update; first | with_reducible assumption)
    | (extract_lets +onlyGivenNames x; refine (?_ : Sound qq x → _) ?_; intro _; clear_value x; rotate_left; subst x; rotate_left)
    | (extract_lets +onlyGivenNames x; subst x)
    | split
    | dsimp -zeta only


theorem askChecker_sound {qq : List Instr} {stamp : Nat} {u : EngineUse} {s : State}  (h_s : Sound qq s) : Sound qq (askChecker stamp u s) := by
  unfold askChecker
  repeat' first
    | with_reducible assumption
    | intro _
    | with_reducible rfl
    | with_reducible apply Sound.ite
    | with_reducible apply each_sound
    | (with_reducible apply Sound.update; first | with_reducible assumption)
    | (extract_lets +onlyGivenNames x; refine (?_ : Sound qq x → _) ?_; intro _; clear_value x; rotate_left; subst x; rotate_left)
    | (extract_lets +onlyGivenNames x; subst x)
    | split
    | dsimp -zeta only


theorem loadKeySlot_sound {qq : List Instr} {n : Nat} {key : Bytes} {s : State}  (h_s : Sound qq s) : Sound qq (loadKeySlot n key s) := by
  unfold loadKeySlot
  repeat' first
    | with_reducible assumption
    | intro _
    | with_reducible rfl
    | with_reducible apply Sound.ite
    | with_reducible apply each_sound
    | (with_reducible apply Sound.update; first | with_reducible assumption)
    | (extract_lets +onlyGivenNames x; refine (?_ : Sound qq x → _) ?_; intro _; clear_value x; rotate_left; subst x; rotate_left)
    | (extract_lets +onlyGivenNames x; subst x)
    | split
    | dsimp -zeta only


theorem deriveKeys_sound {qq : List Instr} {s : State}  (h_s : Sound qq s) : Sound qq (deriveKeys s) := by
  unfold deriveKeys
  repeat' first
    | with_reducible assumption
    | intro _
    | with_reducible rfl
    | with_reducible apply Sound.ite
    | with_reducible apply each_sound
    | with_reducible apply loadKeySlot_sound
    | (with_reducible apply Sound.update; first | with_reducible assumption | with_reducible apply loadKeySlot_sound)
    | (extract_lets +onlyGivenNames x; refine (?_ : Sound qq x → _) ?_; intro _; clear_value x; rotate_left; subst x; rotate_left)
    | (extract_lets +onlyGivenNames x; subst x)
    | split
    | dsimp -zeta only


theorem setRequested_sound {qq : List Instr} {c : Nat} {ps : Nat} {s : State}  (h_s : Sound qq s) : Sound qq (setRequested c ps s) := by
  unfold setRequested
  repeat' first
    | with_reducible assumption
    | intro _
    | with_reducible rfl
    | with_reducible apply Sound.ite
    | with_reducible apply each_sound
    | (with_reducible apply Sound.update; first | with_reducible assumption)
    | (extract_lets +onlyGivenNames x; refine (?_ : Sound qq x → _) ?_; intro _; clear_value x; rotate_left; subst x; rotate_left)
    | (extract_lets +onlyGivenNames x; subst x)
    | split
    | dsimp -zeta only


theorem sendLtr_sound {qq : List Instr} {ps : Nat} {s : State}  (h_s : Sound qq s) : Sound qq (sendLtr ps s) := by
  unfold sendLtr
  repeat' first
    | with_reducible assumption
    | intro _
    | with_reducible rfl
    | with_reducible apply Sound.ite
    | with_reducible apply each_sound
    | with_reducible apply each_sound
    | with_reducible apply say_sound
    | (with_reducible apply Sound.update; first | with_reducible assumption | with_reducible apply each_sound | with_reducible apply say_sound)
    | (extract_lets +onlyGivenNames x; refine (?_ : Sound qq x → _) ?_; intro _; clear_value x; rotate_left; subst x; rotate_left)
    | (extract_lets +onlyGivenNames x; subst x)
    | split
    | dsimp -zeta only


theorem applyState_sound {qq : List Instr} {ps : Nat} {s : State}  (h_s : Sound qq s) : Sound qq (applyState ps s) := by
  unfold applyState
  repeat' first
    | with_reducible assumption
    | intro _
    | with_reducible rfl
    | with_reducible apply Sound.ite
    | with_reducible apply each_sound
    | with_reducible apply refreshLevel_sound
    | (with_reducible apply Sound.update; first | with_reducible assumption | with_reducible apply refreshLevel_sound)
    | (extract_lets +onlyGivenNames x; refine (?_ : Sound qq x → _) ?_; intro _; clear_value x; rotate_left; subst x; rotate_left)
    | (extract_lets +onlyGivenNames x; subst x)
    | split
    | dsimp -zeta only


theorem completePower_sound {qq : List Instr} {entry : Option Nat} {s : State}  (h_s : Sound qq s) : Sound qq (completePower entry s) := by
  unfold completePower
  repeat' first
    | with_reducible assumption
    | intro _
    | with_reducible rfl
    | with_reducible apply Sound.ite
    | with_reducible apply each_sound
    | with_reducible apply finishEntry_sound
    | (with_reducible apply Sound.update; first | with_reducible assumption | with_reducible apply finishEntry_sound)
    | (extract_lets +onlyGivenNames x; refine (?_ : Sound qq x → _) ?_; intro _; clear_value x; rotate_left; subst x; rotate_left)
    | (extract_lets +onlyGivenNames x; subst x)
    | split
    | dsimp -zeta only


theorem beginReturn_sound {qq : List Instr} {ps : Nat} {entry : Option Nat} {s : State}  (h_s : Sound qq s) : Sound qq (beginReturn ps entry s) := by
  unfold beginReturn
  repeat' first
    | with_reducible assumption
    | intro _
    | with_reducible rfl
    | with_reducible apply Sound.ite
    | with_reducible apply each_sound
    | with_reducible apply applyState_sound
    | with_reducible apply setMode_sound
    | with_reducible apply completePower_sound
    | with_reducible apply raise_sound
    | with_reducible apply sendLtr_sound
    | (with_reducible apply Sound.update; first | with_reducible assumption | with_reducible apply applyState_sound | with_reducible apply setMode_sound | with_reducible apply completePower_sound | with_reducible apply raise_sound | with_reducible apply sendLtr_sound)
    | (extract_lets +onlyGivenNames x; refine (?_ : Sound qq x → _) ?_; intro _; clear_value x; rotate_left; subst x; rotate_left)
    | (extract_lets +onlyGivenNames x; subst x)
    | split
    | dsimp -zeta only


theorem noteOperational_sound {qq : List Instr} {c : Nat} {ps : Nat} {s : State}  (h_s : Sound qq s) : Sound qq (noteOperational c ps s) := by
  unfold noteOperational
  repeat' first
    | with_reducible assumption
    | intro _
    | with_reducible rfl
    | with_reducible apply Sound.ite
    | with_reducible apply each_sound
    | (with_reducible apply Sound.update; first | with_reducible assumption)
    | (extract_lets +onlyGivenNames x; refine (?_ : Sound qq x → _) ?_; intro _; clear_value x; rotate_left; subst x; rotate_left)
    | (extract_lets +onlyGivenNames x; subst x)
    | split
    | dsimp -zeta only


theorem dropRequest_sound {qq : List Instr} {c : Nat} {s : State}  (h_s : Sound qq s) : Sound qq (dropRequest c s) := by
  unfold dropRequest
  repeat' first
    | with_reducible assumption
    | intro _
    | with_reducible rfl
    | with_reducible apply Sound.ite
    | with_reducible apply each_sound
    | with_reducible apply noteOperational_sound
    | with_reducible apply setRequested_sound
    | with_reducible apply beginReturn_sound
    | (with_reducible apply Sound.update; first | with_reducible assumption | with_reducible apply noteOperational_sound | with_reducible apply setRequested_sound | with_reducible apply beginReturn_sound)
    | (extract_lets +onlyGivenNames x; refine (?_ : Sound qq x → _) ?_; intro _; clear_value x; rotate_left; subst x; rotate_left)
    | (extract_lets +onlyGivenNames x; subst x)
    | split
    | dsimp -zeta only


end Sys2Proof.Machine
end

