-- ==== Sys2Proof/Laws/SoundCommandOps.lean ====
section
/-!
SUPPORT. Soundness through the operations of Machine/CommandOps.lean.
-/

set_option linter.all false

namespace Sys2Proof.Machine

theorem releaseSliceUnits_sound {qq : List Instr} {d : Nat} {offsets : List Nat} {s : State}  (h_s : Sound qq s) : Sound qq (releaseSliceUnits d offsets s) := by
  unfold releaseSliceUnits
  repeat' first
    | with_reducible assumption
    | intro _
    | with_reducible rfl
    | with_reducible apply Sound.ite
    | with_reducible apply each_sound
    | with_reducible apply tslRemove_sound
    | (with_reducible apply Sound.update; first | with_reducible assumption | with_reducible apply tslRemove_sound)
    | (extract_lets +onlyGivenNames x; refine (?_ : Sound qq x → _) ?_; intro _; clear_value x; rotate_left; subst x; rotate_left)
    | (extract_lets +onlyGivenNames x; subst x)
    | split
    | dsimp -zeta only


theorem discardSlice_sound {qq : List Instr} {x : Slice} {s : State}  (h_s : Sound qq s) : Sound qq (discardSlice x s) := by
  unfold discardSlice
  repeat' first
    | with_reducible assumption
    | intro _
    | with_reducible rfl
    | with_reducible apply Sound.ite
    | with_reducible apply each_sound
    | with_reducible apply releaseSliceUnits_sound
    | (with_reducible apply Sound.update; first | with_reducible assumption | with_reducible apply releaseSliceUnits_sound)
    | (extract_lets +onlyGivenNames x; refine (?_ : Sound qq x → _) ?_; intro _; clear_value x; rotate_left; subst x; rotate_left)
    | (extract_lets +onlyGivenNames x; subst x)
    | split
    | dsimp -zeta only


theorem discardUnheld_sound {qq : List Instr} {e : Entry} {s : State}  (h_s : Sound qq s) : Sound qq (discardUnheld e s) := by
  unfold discardUnheld
  repeat' first
    | with_reducible assumption
    | intro _
    | with_reducible rfl
    | with_reducible apply Sound.ite
    | with_reducible apply each_sound
    | with_reducible apply each_sound
    | with_reducible apply discardSlice_sound
    | (with_reducible apply Sound.update; first | with_reducible assumption | with_reducible apply each_sound | with_reducible apply discardSlice_sound)
    | (extract_lets +onlyGivenNames x; refine (?_ : Sound qq x → _) ?_; intro _; clear_value x; rotate_left; subst x; rotate_left)
    | (extract_lets +onlyGivenNames x; subst x)
    | split
    | dsimp -zeta only


theorem dropOverlap_sound {qq : List Instr} {e : Entry} {s : State}  (h_s : Sound qq s) : Sound qq (dropOverlap e s) := by
  unfold dropOverlap
  repeat' first
    | with_reducible assumption
    | intro _
    | with_reducible rfl
    | with_reducible apply Sound.ite
    | with_reducible apply each_sound
    | with_reducible apply each_sound
    | with_reducible apply tslClear_sound
    | (with_reducible apply Sound.update; first | with_reducible assumption | with_reducible apply each_sound | with_reducible apply tslClear_sound)
    | (extract_lets +onlyGivenNames x; refine (?_ : Sound qq x → _) ?_; intro _; clear_value x; rotate_left; subst x; rotate_left)
    | (extract_lets +onlyGivenNames x; subst x)
    | split
    | dsimp -zeta only


theorem settleBusy_sound {qq : List Instr} {s : State}  (h_s : Sound qq s) : Sound qq (settleBusy s) := by
  unfold settleBusy
  repeat' first
    | with_reducible assumption
    | intro _
    | with_reducible rfl
    | with_reducible apply Sound.ite
    | with_reducible apply each_sound
    | (with_reducible apply Sound.update; first | with_reducible assumption)
    | (extract_lets +onlyGivenNames x; refine (?_ : Sound qq x → _) ?_; intro _; clear_value x; rotate_left; subst x; rotate_left)
    | (extract_lets +onlyGivenNames x; subst x)
    | split
    | dsimp -zeta only


theorem dropData_sound {qq : List Instr} {t : Nat} {s : State}  (h_s : Sound qq s) : Sound qq (dropData t s) := by
  unfold dropData
  repeat' first
    | with_reducible assumption
    | intro _
    | with_reducible rfl
    | with_reducible apply Sound.ite
    | with_reducible apply each_sound
    | with_reducible apply onPort_sound
    | (with_reducible apply Sound.update; first | with_reducible assumption | with_reducible apply onPort_sound)
    | (extract_lets +onlyGivenNames x; refine (?_ : Sound qq x → _) ?_; intro _; clear_value x; rotate_left; subst x; rotate_left)
    | (extract_lets +onlyGivenNames x; subst x)
    | split
    | dsimp -zeta only


theorem onBlock_sound {qq : List Instr} {k : Nat} {f : Block → Block} {s : State}  (h_s : Sound qq s) : Sound qq (onBlock k f s) := by
  unfold onBlock
  repeat' first
    | with_reducible assumption
    | intro _
    | with_reducible rfl
    | with_reducible apply Sound.ite
    | with_reducible apply each_sound
    | (with_reducible apply Sound.update; first | with_reducible assumption)
    | (extract_lets +onlyGivenNames x; refine (?_ : Sound qq x → _) ?_; intro _; clear_value x; rotate_left; subst x; rotate_left)
    | (extract_lets +onlyGivenNames x; subst x)
    | split
    | dsimp -zeta only


theorem onOp_sound {qq : List Instr} {i : Nat} {f : NandOp → NandOp} {s : State}  (h_s : Sound qq s) : Sound qq (onOp i f s) := by
  unfold onOp
  repeat' first
    | with_reducible assumption
    | intro _
    | with_reducible rfl
    | with_reducible apply Sound.ite
    | with_reducible apply each_sound
    | (with_reducible apply Sound.update; first | with_reducible assumption)
    | (extract_lets +onlyGivenNames x; refine (?_ : Sound qq x → _) ?_; intro _; clear_value x; rotate_left; subst x; rotate_left)
    | (extract_lets +onlyGivenNames x; subst x)
    | split
    | dsimp -zeta only


theorem dropOp_sound {qq : List Instr} {i : Nat} {s : State}  (h_s : Sound qq s) : Sound qq (dropOp i s) := by
  unfold dropOp
  repeat' first
    | with_reducible assumption
    | intro _
    | with_reducible rfl
    | with_reducible apply Sound.ite
    | with_reducible apply each_sound
    | (with_reducible apply Sound.update; first | with_reducible assumption)
    | (extract_lets +onlyGivenNames x; refine (?_ : Sound qq x → _) ?_; intro _; clear_value x; rotate_left; subst x; rotate_left)
    | (extract_lets +onlyGivenNames x; subst x)
    | split
    | dsimp -zeta only


theorem leaveOp_sound {qq : List Instr} {i : Nat} {s : State}  (h_s : Sound qq s) : Sound qq (leaveOp i s) := by
  unfold leaveOp
  repeat' first
    | with_reducible assumption
    | intro _
    | with_reducible rfl
    | with_reducible apply Sound.ite
    | with_reducible apply each_sound
    | with_reducible apply onBlock_sound
    | with_reducible apply dropOp_sound
    | (with_reducible apply Sound.update; first | with_reducible assumption | with_reducible apply onBlock_sound | with_reducible apply dropOp_sound)
    | (extract_lets +onlyGivenNames x; refine (?_ : Sound qq x → _) ?_; intro _; clear_value x; rotate_left; subst x; rotate_left)
    | (extract_lets +onlyGivenNames x; subst x)
    | split
    | dsimp -zeta only


theorem cancelOp_sound {qq : List Instr} {i : Nat} {s : State}  (h_s : Sound qq s) : Sound qq (cancelOp i s) := by
  unfold cancelOp
  repeat' first
    | with_reducible assumption
    | intro _
    | with_reducible rfl
    | with_reducible apply Sound.ite
    | with_reducible apply each_sound
    | with_reducible apply leaveOp_sound
    | with_reducible apply onOp_sound
    | (with_reducible apply Sound.update; first | with_reducible assumption | with_reducible apply leaveOp_sound | with_reducible apply onOp_sound)
    | (extract_lets +onlyGivenNames x; refine (?_ : Sound qq x → _) ?_; intro _; clear_value x; rotate_left; subst x; rotate_left)
    | (extract_lets +onlyGivenNames x; subst x)
    | split
    | dsimp -zeta only


theorem cancelReads_sound {qq : List Instr} {t : Nat} {s : State}  (h_s : Sound qq s) : Sound qq (cancelReads t s) := by
  unfold cancelReads
  repeat' first
    | with_reducible assumption
    | intro _
    | with_reducible rfl
    | with_reducible apply Sound.ite
    | with_reducible apply each_sound
    | with_reducible apply each_sound
    | with_reducible apply cancelOp_sound
    | (with_reducible apply Sound.update; first | with_reducible assumption | with_reducible apply each_sound | with_reducible apply cancelOp_sound)
    | (extract_lets +onlyGivenNames x; refine (?_ : Sound qq x → _) ?_; intro _; clear_value x; rotate_left; subst x; rotate_left)
    | (extract_lets +onlyGivenNames x; subst x)
    | split
    | dsimp -zeta only


theorem freeEntry_sound {qq : List Instr} {t : Nat} {s : State}  (h_s : Sound qq s) : Sound qq (freeEntry t s) := by
  unfold freeEntry
  repeat' first
    | with_reducible assumption
    | intro _
    | with_reducible rfl
    | with_reducible apply Sound.ite
    | with_reducible apply each_sound
    | with_reducible apply cancelReads_sound
    | with_reducible apply dropData_sound
    | with_reducible apply dropOverlap_sound
    | with_reducible apply settleBusy_sound
    | (with_reducible apply Sound.update; first | with_reducible assumption | with_reducible apply cancelReads_sound | with_reducible apply dropData_sound | with_reducible apply dropOverlap_sound | with_reducible apply settleBusy_sound)
    | (extract_lets +onlyGivenNames x; refine (?_ : Sound qq x → _) ?_; intro _; clear_value x; rotate_left; subst x; rotate_left)
    | (extract_lets +onlyGivenNames x; subst x)
    | split
    | dsimp -zeta only


theorem endEntry_sound {qq : List Instr} {t : Nat} {s : State}  (h_s : Sound qq s) : Sound qq (endEntry t s) := by
  unfold endEntry
  repeat' first
    | with_reducible assumption
    | intro _
    | with_reducible rfl
    | with_reducible apply Sound.ite
    | with_reducible apply each_sound
    | with_reducible apply freeEntry_sound
    | with_reducible apply discardUnheld_sound
    | (with_reducible apply Sound.update; first | with_reducible assumption | with_reducible apply freeEntry_sound | with_reducible apply discardUnheld_sound)
    | (extract_lets +onlyGivenNames x; refine (?_ : Sound qq x → _) ?_; intro _; clear_value x; rotate_left; subst x; rotate_left)
    | (extract_lets +onlyGivenNames x; subst x)
    | split
    | dsimp -zeta only


theorem abortOnYards_sound {qq : List Instr} {t : Nat} {s : State}  (h_s : Sound qq s) : Sound qq (abortOnYards t s) := by
  unfold abortOnYards
  repeat' first
    | with_reducible assumption
    | intro _
    | with_reducible rfl
    | with_reducible apply Sound.ite
    | with_reducible apply each_sound
    | with_reducible apply each_sound
    | with_reducible apply sendFrame_sound
    | (with_reducible apply Sound.update; first | with_reducible assumption | with_reducible apply each_sound | with_reducible apply sendFrame_sound)
    | (extract_lets +onlyGivenNames x; refine (?_ : Sound qq x → _) ?_; intro _; clear_value x; rotate_left; subst x; rotate_left)
    | (extract_lets +onlyGivenNames x; subst x)
    | split
    | dsimp -zeta only


theorem failEntry_sound {qq : List Instr} {t : Nat} {status : Nat} {dw0 : Nat} {s : State}  (h_s : Sound qq s) : Sound qq (failEntry t status dw0 s) := by
  unfold failEntry
  repeat' first
    | with_reducible assumption
    | intro _
    | with_reducible rfl
    | with_reducible apply Sound.ite
    | with_reducible apply each_sound
    | with_reducible apply discardUnheld_sound
    | with_reducible apply abortOnYards_sound
    | with_reducible apply onEntry_sound
    | with_reducible apply finishEntry_sound
    | with_reducible apply dropData_sound
    | (with_reducible apply Sound.update; first | with_reducible assumption | with_reducible apply discardUnheld_sound | with_reducible apply abortOnYards_sound | with_reducible apply onEntry_sound | with_reducible apply finishEntry_sound | with_reducible apply dropData_sound)
    | (extract_lets +onlyGivenNames x; refine (?_ : Sound qq x → _) ?_; intro _; clear_value x; rotate_left; subst x; rotate_left)
    | (extract_lets +onlyGivenNames x; subst x)
    | split
    | dsimp -zeta only


theorem takeCommandError_sound {qq : List Instr} {d : ErrorDraft} {serials : List Nat} {t : Nat} {status : Nat} {s : State}  (h_s : Sound qq s) : Sound qq (takeCommandError d serials t status s) := by
  unfold takeCommandError
  repeat' first
    | with_reducible assumption
    | intro _
    | with_reducible rfl
    | with_reducible apply Sound.ite
    | with_reducible apply each_sound
    | with_reducible apply onEntry_sound
    | with_reducible apply takeError_sound
    | (with_reducible apply Sound.update; first | with_reducible assumption | with_reducible apply onEntry_sound | with_reducible apply takeError_sound)
    | (extract_lets +onlyGivenNames x; refine (?_ : Sound qq x → _) ?_; intro _; clear_value x; rotate_left; subst x; rotate_left)
    | (extract_lets +onlyGivenNames x; subst x)
    | split
    | dsimp -zeta only


theorem refuseSlices_sound {qq : List Instr} {status : Nat} {s : State}  (h_s : Sound qq s) : Sound qq (refuseSlices status s) := by
  unfold refuseSlices
  repeat' first
    | with_reducible assumption
    | intro _
    | with_reducible rfl
    | with_reducible apply Sound.ite
    | with_reducible apply each_sound
    | with_reducible apply each_sound
    | with_reducible apply sendFrame_sound
    | (with_reducible apply Sound.update; first | with_reducible assumption | with_reducible apply each_sound | with_reducible apply sendFrame_sound)
    | (extract_lets +onlyGivenNames x; refine (?_ : Sound qq x → _) ?_; intro _; clear_value x; rotate_left; subst x; rotate_left)
    | (extract_lets +onlyGivenNames x; subst x)
    | split
    | dsimp -zeta only


theorem endWrites_sound {qq : List Instr} {status : Nat} {f : Entry → Bool} {s : State}  (h_s : Sound qq s) : Sound qq (endWrites status f s) := by
  unfold endWrites
  repeat' first
    | with_reducible assumption
    | intro _
    | with_reducible rfl
    | with_reducible apply Sound.ite
    | with_reducible apply each_sound
    | with_reducible apply refuseSlices_sound
    | with_reducible apply each_sound
    | with_reducible apply failEntry_sound
    | (with_reducible apply Sound.update; first | with_reducible assumption | with_reducible apply refuseSlices_sound | with_reducible apply each_sound | with_reducible apply failEntry_sound)
    | (extract_lets +onlyGivenNames x; refine (?_ : Sound qq x → _) ?_; intro _; clear_value x; rotate_left; subst x; rotate_left)
    | (extract_lets +onlyGivenNames x; subst x)
    | split
    | dsimp -zeta only


theorem endCommands_sound {qq : List Instr} {c : Nat} {s : State}  (h_s : Sound qq s) : Sound qq (endCommands c s) := by
  unfold endCommands
  repeat' first
    | with_reducible assumption
    | intro _
    | with_reducible rfl
    | with_reducible apply Sound.ite
    | with_reducible apply each_sound
    | with_reducible apply each_sound
    | with_reducible apply endEntry_sound
    | with_reducible apply abortOnYards_sound
    | with_reducible apply onCtrl_sound
    | (with_reducible apply Sound.update; first | with_reducible assumption | with_reducible apply each_sound | with_reducible apply endEntry_sound | with_reducible apply abortOnYards_sound | with_reducible apply onCtrl_sound)
    | (extract_lets +onlyGivenNames x; refine (?_ : Sound qq x → _) ?_; intro _; clear_value x; rotate_left; subst x; rotate_left)
    | (extract_lets +onlyGivenNames x; subst x)
    | split
    | dsimp -zeta only


theorem controllerReset_sound {q : List Instr} {c : Nat} {s : State} (h : Sound q s) : Sound q (controllerReset c s) := by
  unfold controllerReset
  exact dropRequest_sound (noteMi_sound (onCtrl_sound (fun _ => rfl) (endCommands_sound h)))

theorem closeSession_sound {qq : List Instr} {c : Nat} {s : State}  (h_s : Sound qq s) : Sound qq (closeSession c s) := by
  unfold closeSession
  repeat' first
    | with_reducible assumption
    | intro _
    | with_reducible rfl
    | with_reducible apply Sound.ite
    | with_reducible apply each_sound
    | (with_reducible apply Sound.update; first | with_reducible assumption)
    | (extract_lets +onlyGivenNames x; refine (?_ : Sound qq x → _) ?_; intro _; clear_value x; rotate_left; subst x; rotate_left)
    | (extract_lets +onlyGivenNames x; subst x)
    | split
    | dsimp -zeta only


theorem functionReset_sound {qq : List Instr} {c : Nat} {s : State}  (h_s : Sound qq s) : Sound qq (functionReset c s) := by
  unfold functionReset
  repeat' first
    | with_reducible assumption
    | intro _
    | with_reducible rfl
    | with_reducible apply Sound.ite
    | with_reducible apply each_sound
    | with_reducible apply closeSession_sound
    | with_reducible apply controllerReset_sound
    | with_reducible apply onCtrl_sound
    | (with_reducible apply Sound.update; first | with_reducible assumption | with_reducible apply closeSession_sound | with_reducible apply controllerReset_sound | with_reducible apply onCtrl_sound)
    | (extract_lets +onlyGivenNames x; refine (?_ : Sound qq x → _) ?_; intro _; clear_value x; rotate_left; subst x; rotate_left)
    | (extract_lets +onlyGivenNames x; subst x)
    | split
    | dsimp -zeta only


theorem refreshTagMode_sound {qq : List Instr} {n : Nat} {s : State}  (h_s : Sound qq s) : Sound qq (refreshTagMode n s) := by
  unfold refreshTagMode
  repeat' first
    | with_reducible assumption
    | intro _
    | with_reducible rfl
    | with_reducible apply Sound.ite
    | with_reducible apply each_sound
    | with_reducible apply onPortStatus_sound
    | (with_reducible apply Sound.update; first | with_reducible assumption | with_reducible apply onPortStatus_sound)
    | (extract_lets +onlyGivenNames x; refine (?_ : Sound qq x → _) ?_; intro _; clear_value x; rotate_left; subst x; rotate_left)
    | (extract_lets +onlyGivenNames x; subst x)
    | split
    | dsimp -zeta only


theorem dropRead_sound {qq : List Instr} {n : Nat} {g : Nat} {s : State}  (h_s : Sound qq s) : Sound qq (dropRead n g s) := by
  unfold dropRead
  repeat' first
    | with_reducible assumption
    | intro _
    | with_reducible rfl
    | with_reducible apply Sound.ite
    | with_reducible apply each_sound
    | with_reducible apply onPort_sound
    | with_reducible apply refreshTagMode_sound
    | with_reducible apply disarm_sound
    | (with_reducible apply Sound.update; first | with_reducible assumption | with_reducible apply onPort_sound | with_reducible apply refreshTagMode_sound | with_reducible apply disarm_sound)
    | (extract_lets +onlyGivenNames x; refine (?_ : Sound qq x → _) ?_; intro _; clear_value x; rotate_left; subst x; rotate_left)
    | (extract_lets +onlyGivenNames x; subst x)
    | split
    | dsimp -zeta only


theorem quarantine_sound {qq : List Instr} {n : Nat} {g : Nat} {s : State}  (h_s : Sound qq s) : Sound qq (quarantine n g s) := by
  unfold quarantine
  repeat' first
    | with_reducible assumption
    | intro _
    | with_reducible rfl
    | with_reducible apply Sound.ite
    | with_reducible apply each_sound
    | with_reducible apply onPort_sound
    | with_reducible apply dropRead_sound
    | with_reducible apply arm_sound
    | (with_reducible apply Sound.update; first | with_reducible assumption | with_reducible apply onPort_sound | with_reducible apply dropRead_sound | with_reducible apply arm_sound)
    | (extract_lets +onlyGivenNames x; refine (?_ : Sound qq x → _) ?_; intro _; clear_value x; rotate_left; subst x; rotate_left)
    | (extract_lets +onlyGivenNames x; subst x)
    | split
    | dsimp -zeta only


theorem quarantineAll_sound {qq : List Instr} {n : Nat} {s : State}  (h_s : Sound qq s) : Sound qq (quarantineAll n s) := by
  unfold quarantineAll
  repeat' first
    | with_reducible assumption
    | intro _
    | with_reducible rfl
    | with_reducible apply Sound.ite
    | with_reducible apply each_sound
    | with_reducible apply each_sound
    | with_reducible apply quarantine_sound
    | with_reducible apply onPort_sound
    | (with_reducible apply Sound.update; first | with_reducible assumption | with_reducible apply each_sound | with_reducible apply quarantine_sound | with_reducible apply onPort_sound)
    | (extract_lets +onlyGivenNames x; refine (?_ : Sound qq x → _) ?_; intro _; clear_value x; rotate_left; subst x; rotate_left)
    | (extract_lets +onlyGivenNames x; subst x)
    | split
    | dsimp -zeta only


theorem freeTags_sound {qq : List Instr} {n : Nat} {s : State}  (h_s : Sound qq s) : Sound qq (freeTags n s) := by
  unfold freeTags
  repeat' first
    | with_reducible assumption
    | intro _
    | with_reducible rfl
    | with_reducible apply Sound.ite
    | with_reducible apply each_sound
    | with_reducible apply each_sound
    | with_reducible apply dropRead_sound
    | with_reducible apply disarm_sound
    | with_reducible apply quarantine_sound
    | with_reducible apply onPort_sound
    | (with_reducible apply Sound.update; first | with_reducible assumption | with_reducible apply each_sound | with_reducible apply dropRead_sound | with_reducible apply disarm_sound | with_reducible apply quarantine_sound | with_reducible apply onPort_sound)
    | (extract_lets +onlyGivenNames x; refine (?_ : Sound qq x → _) ?_; intro _; clear_value x; rotate_left; subst x; rotate_left)
    | (extract_lets +onlyGivenNames x; subst x)
    | split
    | dsimp -zeta only


end Sys2Proof.Machine
end

