-- ==== Sys2Proof/Laws/SoundGeometry.lean ====
section
/-!
SUPPORT. Soundness through the operations of Machine/Geometry.lean.
-/

set_option linter.all false

namespace Sys2Proof.Machine

theorem onDie_sound {qq : List Instr} {d : Nat} {f : Die → Die} {s : State}  (h_s : Sound qq s) : Sound qq (onDie d f s) := by
  unfold onDie
  repeat' first
    | with_reducible assumption
    | intro _
    | with_reducible rfl
    | with_reducible apply Sound.ite
    | with_reducible apply each_sound
    | (with_reducible apply Sound.update; first | with_reducible assumption)
    | (extract_lets +onlyGivenNames x; refine (?_ : Sound qq x → _) ?_; intro _; clear_value x; rotate_left; subst x; rotate_left)
    | (extract_lets +onlyGivenNames x; subst x)
    | split
    | dsimp -zeta only


theorem addOp_sound {qq : List Instr} {o : NandOp} {s : State}  (h_s : Sound qq s) : Sound qq (addOp o s) := by
  unfold addOp
  repeat' first
    | with_reducible assumption
    | intro _
    | with_reducible rfl
    | with_reducible apply Sound.ite
    | with_reducible apply each_sound
    | (with_reducible apply Sound.update; first | with_reducible assumption)
    | (extract_lets +onlyGivenNames x; refine (?_ : Sound qq x → _) ?_; intro _; clear_value x; rotate_left; subst x; rotate_left)
    | (extract_lets +onlyGivenNames x; subst x)
    | split
    | dsimp -zeta only


theorem onLun_sound {qq : List Instr} {d : Nat} {f : Lun → Lun} {s : State}  (h_s : Sound qq s) : Sound qq (onLun d f s) := by
  unfold onLun
  repeat' first
    | with_reducible assumption
    | intro _
    | with_reducible rfl
    | with_reducible apply Sound.ite
    | with_reducible apply each_sound
    | (with_reducible apply Sound.update; first | with_reducible assumption)
    | (extract_lets +onlyGivenNames x; refine (?_ : Sound qq x → _) ?_; intro _; clear_value x; rotate_left; subst x; rotate_left)
    | (extract_lets +onlyGivenNames x; subst x)
    | split
    | dsimp -zeta only


theorem admitOp_sound {qq : List Instr} {i : Nat} {s : State}  (h_s : Sound qq s) : Sound qq (admitOp i s) := by
  unfold admitOp
  repeat' first
    | with_reducible assumption
    | intro _
    | with_reducible rfl
    | with_reducible apply Sound.ite
    | with_reducible apply each_sound
    | with_reducible apply onLun_sound
    | with_reducible apply onOp_sound
    | (with_reducible apply Sound.update; first | with_reducible assumption | with_reducible apply onLun_sound | with_reducible apply onOp_sound)
    | (extract_lets +onlyGivenNames x; refine (?_ : Sound qq x → _) ?_; intro _; clear_value x; rotate_left; subst x; rotate_left)
    | (extract_lets +onlyGivenNames x; subst x)
    | split
    | dsimp -zeta only


theorem tryAdmit_sound {qq : List Instr} {i : Nat} {s : State}  (h_s : Sound qq s) : Sound qq (tryAdmit i s) := by
  unfold tryAdmit
  repeat' first
    | with_reducible assumption
    | intro _
    | with_reducible rfl
    | with_reducible apply Sound.ite
    | with_reducible apply each_sound
    | with_reducible apply admitOp_sound
    | (with_reducible apply Sound.update; first | with_reducible assumption | with_reducible apply admitOp_sound)
    | (extract_lets +onlyGivenNames x; refine (?_ : Sound qq x → _) ?_; intro _; clear_value x; rotate_left; subst x; rotate_left)
    | (extract_lets +onlyGivenNames x; subst x)
    | split
    | dsimp -zeta only


theorem ledgerPass_sound {qq : List Instr} {s : State}  (h_s : Sound qq s) : Sound qq (ledgerPass s) := by
  unfold ledgerPass
  repeat' first
    | with_reducible assumption
    | intro _
    | with_reducible rfl
    | with_reducible apply Sound.ite
    | with_reducible apply each_sound
    | with_reducible apply tryAdmit_sound
    | with_reducible apply each_sound
    | (with_reducible apply Sound.update; first | with_reducible assumption | with_reducible apply tryAdmit_sound | with_reducible apply each_sound)
    | (extract_lets +onlyGivenNames x; refine (?_ : Sound qq x → _) ?_; intro _; clear_value x; rotate_left; subst x; rotate_left)
    | (extract_lets +onlyGivenNames x; subst x)
    | split
    | dsimp -zeta only


theorem grantFrom_sound {qq : List Instr} {n : Nat} {f : NandOp → Bool} {s : State}  (h_s : Sound qq s) : Sound qq (grantFrom n f s) := by
  unfold grantFrom
  repeat' first
    | with_reducible assumption
    | intro _
    | with_reducible rfl
    | with_reducible apply Sound.ite
    | with_reducible apply each_sound
    | with_reducible apply each_sound
    | with_reducible apply onOp_sound
    | (with_reducible apply Sound.update; first | with_reducible assumption | with_reducible apply each_sound | with_reducible apply onOp_sound)
    | (extract_lets +onlyGivenNames x; refine (?_ : Sound qq x → _) ?_; intro _; clear_value x; rotate_left; subst x; rotate_left)
    | (extract_lets +onlyGivenNames x; subst x)
    | split
    | dsimp -zeta only


theorem grantDecoders_sound {qq : List Instr} {s : State}  (h_s : Sound qq s) : Sound qq (grantDecoders s) := by
  unfold grantDecoders
  repeat' first
    | with_reducible assumption
    | intro _
    | with_reducible rfl
    | with_reducible apply Sound.ite
    | with_reducible apply each_sound
    | with_reducible apply grantFrom_sound
    | with_reducible apply each_sound
    | (with_reducible apply Sound.update; first | with_reducible assumption | with_reducible apply grantFrom_sound | with_reducible apply each_sound)
    | (extract_lets +onlyGivenNames x; refine (?_ : Sound qq x → _) ?_; intro _; clear_value x; rotate_left; subst x; rotate_left)
    | (extract_lets +onlyGivenNames x; subst x)
    | split
    | dsimp -zeta only


theorem haltMedia_sound {qq : List Instr} {s : State}  (h_s : Sound qq s) : Sound qq (haltMedia s) := by
  unfold haltMedia
  repeat' first
    | with_reducible assumption
    | intro _
    | with_reducible rfl
    | with_reducible apply Sound.ite
    | with_reducible apply each_sound
    | with_reducible apply each_sound
    | with_reducible apply onBlock_sound
    | (with_reducible apply Sound.update; first | with_reducible assumption | with_reducible apply each_sound | with_reducible apply onBlock_sound)
    | (extract_lets +onlyGivenNames x; refine (?_ : Sound qq x → _) ?_; intro _; clear_value x; rotate_left; subst x; rotate_left)
    | (extract_lets +onlyGivenNames x; subst x)
    | split
    | dsimp -zeta only


end Sys2Proof.Machine
end

