-- ==== Sys2Proof/Laws/SoundResets.lean ====
section
/-!
SUPPORT. Soundness through the operations of Machine/Resets.lean.
-/

set_option linter.all false

namespace Sys2Proof.Machine

theorem afterReset_sound {q : List Instr} {ret dram : Bool} {s : State} (h : Sound q s) :
    Sound q (afterReset ret dram s) := by
  obtain ⟨a, b, _, _, _⟩ := h
  simp only [State.memoryWf, Bool.and_eq_true] at b
  refine ⟨a, ?_, rfl, rfl, rfl⟩
  simp only [State.memoryWf, Bool.and_eq_true]
  exact ⟨⟨⟨rfl, rfl⟩, rfl⟩, b.2⟩

theorem recordSource_sound {qq : List Instr} {code : Nat} {s : State}  (h_s : Sound qq s) : Sound qq (recordSource code s) := by
  unfold recordSource
  repeat' first
    | with_reducible assumption
    | intro _
    | with_reducible rfl
    | with_reducible apply Sound.ite
    | with_reducible apply each_sound
    | (with_reducible apply Sound.update; first | with_reducible assumption)
    | (extract_lets +onlyGivenNames x; refine (?_ : Sound qq x → _) ?_; intro _; clear_value x; rotate_left; subst x; rotate_left)
    | (extract_lets +onlyGivenNames x; subst x)
    | split
    | dsimp -zeta only


theorem noteGoverning_sound {qq : List Instr} {a : Arrival} {level : Nat} {s : State}  (h_s : Sound qq s) : Sound qq (noteGoverning a level s) := by
  unfold noteGoverning
  repeat' first
    | with_reducible assumption
    | intro _
    | with_reducible rfl
    | with_reducible apply Sound.ite
    | with_reducible apply each_sound
    | (with_reducible apply Sound.update; first | with_reducible assumption)
    | (extract_lets +onlyGivenNames x; refine (?_ : Sound qq x → _) ?_; intro _; clear_value x; rotate_left; subst x; rotate_left)
    | (extract_lets +onlyGivenNames x; subst x)
    | split
    | dsimp -zeta only


theorem deferReset_sound {qq : List Instr} {a : Arrival} {s : State}  (h_s : Sound qq s) : Sound qq (deferReset a s) := by
  unfold deferReset
  repeat' first
    | with_reducible assumption
    | intro _
    | with_reducible rfl
    | with_reducible apply Sound.ite
    | with_reducible apply each_sound
    | (with_reducible apply Sound.update; first | with_reducible assumption)
    | (extract_lets +onlyGivenNames x; refine (?_ : Sound qq x → _) ?_; intro _; clear_value x; rotate_left; subst x; rotate_left)
    | (extract_lets +onlyGivenNames x; subst x)
    | split
    | dsimp -zeta only


theorem beginL4_sound {qq : List Instr} {a : Arrival} {s : State}  (h_s : Sound qq s) : Sound qq (beginL4 a s) := by
  unfold beginL4
  repeat' first
    | with_reducible assumption
    | intro _
    | with_reducible rfl
    | with_reducible apply Sound.ite
    | with_reducible apply each_sound
    | with_reducible apply arm_sound
    | with_reducible apply noteGoverning_sound
    | with_reducible apply haltMedia_sound
    | (with_reducible apply Sound.update; first | with_reducible assumption | with_reducible apply arm_sound | with_reducible apply noteGoverning_sound | with_reducible apply haltMedia_sound)
    | (extract_lets +onlyGivenNames x; refine (?_ : Sound qq x → _) ?_; intro _; clear_value x; rotate_left; subst x; rotate_left)
    | (extract_lets +onlyGivenNames x; subst x)
    | split
    | dsimp -zeta only


theorem resetFirst_sound {qq : List Instr} {s : State}  (h_s : Sound qq s) : Sound qq (resetFirst s) := by
  unfold resetFirst
  repeat' first
    | with_reducible assumption
    | intro _
    | with_reducible rfl
    | with_reducible apply Sound.ite
    | with_reducible apply each_sound
    | (with_reducible apply Sound.update; first | with_reducible assumption)
    | (extract_lets +onlyGivenNames x; refine (?_ : Sound qq x → _) ?_; intro _; clear_value x; rotate_left; subst x; rotate_left)
    | (extract_lets +onlyGivenNames x; subst x)
    | split
    | dsimp -zeta only


theorem actL4_sound {qq : List Instr} {a : Arrival} {s : State}  (h_s : Sound qq s) : Sound qq (actL4 a s) := by
  unfold actL4
  repeat' first
    | with_reducible assumption
    | intro _
    | with_reducible rfl
    | with_reducible apply Sound.ite
    | with_reducible apply each_sound
    | with_reducible apply resetFirst_sound
    | with_reducible apply deferReset_sound
    | with_reducible apply beginL4_sound
    | with_reducible apply noteGoverning_sound
    | (with_reducible apply Sound.update; first | with_reducible assumption | with_reducible apply resetFirst_sound | with_reducible apply deferReset_sound | with_reducible apply beginL4_sound | with_reducible apply noteGoverning_sound)
    | (extract_lets +onlyGivenNames x; refine (?_ : Sound qq x → _) ?_; intro _; clear_value x; rotate_left; subst x; rotate_left)
    | (extract_lets +onlyGivenNames x; subst x)
    | split
    | dsimp -zeta only


theorem resetPort_sound {qq : List Instr} {n : Nat} {s : State}  (h_s : Sound qq s) : Sound qq (resetPort n s) := by
  unfold resetPort
  repeat' first
    | with_reducible assumption
    | intro _
    | with_reducible rfl
    | with_reducible apply Sound.ite
    | with_reducible apply each_sound
    | with_reducible apply each_sound
    | with_reducible apply retireFences_sound
    | with_reducible apply functionReset_sound
    | with_reducible apply freeTags_sound
    | with_reducible apply onPort_sound
    | with_reducible apply onPortStatus_sound
    | with_reducible apply failDialog_sound
    | (with_reducible apply Sound.update; first | with_reducible assumption | with_reducible apply each_sound | with_reducible apply retireFences_sound | with_reducible apply functionReset_sound | with_reducible apply freeTags_sound | with_reducible apply onPort_sound | with_reducible apply onPortStatus_sound | with_reducible apply failDialog_sound)
    | (extract_lets +onlyGivenNames x; refine (?_ : Sound qq x → _) ?_; intro _; clear_value x; rotate_left; subst x; rotate_left)
    | (extract_lets +onlyGivenNames x; subst x)
    | split
    | dsimp -zeta only


theorem actL3_sound {qq : List Instr} {n : Nat} {s : State}  (h_s : Sound qq s) : Sound qq (actL3 n s) := by
  unfold actL3
  repeat' first
    | with_reducible assumption
    | intro _
    | with_reducible rfl
    | with_reducible apply Sound.ite
    | with_reducible apply each_sound
    | with_reducible apply resetPort_sound
    | (with_reducible apply Sound.update; first | with_reducible assumption | with_reducible apply resetPort_sound)
    | (extract_lets +onlyGivenNames x; refine (?_ : Sound qq x → _) ?_; intro _; clear_value x; rotate_left; subst x; rotate_left)
    | (extract_lets +onlyGivenNames x; subst x)
    | split
    | dsimp -zeta only


theorem assertSource_sound {qq : List Instr} {code : Nat} {s : State}  (h_s : Sound qq s) : Sound qq (assertSource code s) := by
  unfold assertSource
  repeat' first
    | with_reducible assumption
    | intro _
    | with_reducible rfl
    | with_reducible apply Sound.ite
    | with_reducible apply each_sound
    | with_reducible apply takeStamp_snd
    | (with_reducible refine takeStamp_sound (by assumption) ?_)
    | with_reducible apply raise_sound
    | with_reducible apply recordSource_sound
    | with_reducible apply actL4_sound
    | with_reducible apply actL3_sound
    | with_reducible apply controllerReset_sound
    | (with_reducible apply Sound.update; first | with_reducible assumption | with_reducible apply takeStamp_snd | (with_reducible refine takeStamp_sound (by assumption) ?_) | with_reducible apply raise_sound | with_reducible apply recordSource_sound | with_reducible apply actL4_sound | with_reducible apply actL3_sound | with_reducible apply controllerReset_sound)
    | (extract_lets +onlyGivenNames x; refine (?_ : Sound qq x → _) ?_; intro _; clear_value x; rotate_left; subst x; rotate_left)
    | (extract_lets +onlyGivenNames x; subst x)
    | split
    | dsimp -zeta only


theorem powerOn_sound {qq : List Instr} {code : Nat} {s : State}  (h_s : Sound qq s) : Sound qq (powerOn code s) := by
  unfold powerOn
  repeat' first
    | with_reducible assumption
    | intro _
    | with_reducible rfl
    | with_reducible apply Sound.ite
    | with_reducible apply each_sound
    | with_reducible apply afterReset_sound
    | (with_reducible apply Sound.update; first | with_reducible assumption | with_reducible apply afterReset_sound)
    | (extract_lets +onlyGivenNames x; refine (?_ : Sound qq x → _) ?_; intro _; clear_value x; rotate_left; subst x; rotate_left)
    | (extract_lets +onlyGivenNames x; subst x)
    | split
    | dsimp -zeta only


theorem assertL5_sound {qq : List Instr} {a : Arrival} {dram : Bool} {s : State}  (h_s : Sound qq s) : Sound qq (assertL5 a dram s) := by
  unfold assertL5
  repeat' first
    | with_reducible assumption
    | intro _
    | with_reducible rfl
    | with_reducible apply Sound.ite
    | with_reducible apply each_sound
    | with_reducible apply afterReset_sound
    | with_reducible apply recordSource_sound
    | with_reducible apply noteGoverning_sound
    | (with_reducible apply Sound.update; first | with_reducible assumption | with_reducible apply afterReset_sound | with_reducible apply recordSource_sound | with_reducible apply noteGoverning_sound)
    | (extract_lets +onlyGivenNames x; refine (?_ : Sound qq x → _) ?_; intro _; clear_value x; rotate_left; subst x; rotate_left)
    | (extract_lets +onlyGivenNames x; subst x)
    | split
    | dsimp -zeta only


theorem execL4ReachAsserted_sound {qq : List Instr} {s : State}  (h_s : Sound qq s) : SoundOut qq (execL4ReachAsserted s) := by
  unfold execL4ReachAsserted
  repeat' first
    | with_reducible assumption
    | intro _
    | with_reducible rfl
    | with_reducible apply Sound.ite
    | with_reducible apply each_sound
    | with_reducible apply SoundOut.next
    | with_reducible apply SoundOut.ite
    | with_reducible apply afterReset_sound
    | (with_reducible apply Sound.update; first | with_reducible assumption | with_reducible apply afterReset_sound)
    | (extract_lets +onlyGivenNames x; refine (?_ : Sound qq x → _) ?_; intro _; clear_value x; rotate_left; subst x; rotate_left)
    | (extract_lets +onlyGivenNames x; subst x)
    | split
    | dsimp -zeta only


theorem execPerst0Assert_sound {qq : List Instr} {s : State}  (h_s : Sound qq s) : SoundOut qq (execPerst0Assert s) := by
  unfold execPerst0Assert
  repeat' first
    | with_reducible assumption
    | intro _
    | with_reducible rfl
    | with_reducible apply Sound.ite
    | with_reducible apply each_sound
    | with_reducible apply SoundOut.next
    | with_reducible apply SoundOut.ite
    | with_reducible apply assertSource_sound
    | (with_reducible apply Sound.update; first | with_reducible assumption | with_reducible apply assertSource_sound)
    | (extract_lets +onlyGivenNames x; refine (?_ : Sound qq x → _) ?_; intro _; clear_value x; rotate_left; subst x; rotate_left)
    | (extract_lets +onlyGivenNames x; subst x)
    | split
    | dsimp -zeta only


theorem execPerst1Assert_sound {qq : List Instr} {s : State}  (h_s : Sound qq s) : SoundOut qq (execPerst1Assert s) := by
  unfold execPerst1Assert
  repeat' first
    | with_reducible assumption
    | intro _
    | with_reducible rfl
    | with_reducible apply Sound.ite
    | with_reducible apply each_sound
    | with_reducible apply SoundOut.next
    | with_reducible apply SoundOut.ite
    | with_reducible apply assertSource_sound
    | (with_reducible apply Sound.update; first | with_reducible assumption | with_reducible apply assertSource_sound)
    | (extract_lets +onlyGivenNames x; refine (?_ : Sound qq x → _) ?_; intro _; clear_value x; rotate_left; subst x; rotate_left)
    | (extract_lets +onlyGivenNames x; subst x)
    | split
    | dsimp -zeta only


theorem execNvmSubsystemReset_sound {qq : List Instr} {ctrl : Nat} {value : BitVec 32} {s : State}  (h_s : Sound qq s) : SoundOut qq (execNvmSubsystemReset ctrl value s) := by
  unfold execNvmSubsystemReset
  repeat' first
    | with_reducible assumption
    | intro _
    | with_reducible rfl
    | with_reducible apply Sound.ite
    | with_reducible apply each_sound
    | with_reducible apply SoundOut.next
    | with_reducible apply SoundOut.ite
    | with_reducible apply memoryWrite_sound
    | with_reducible apply assertSource_sound
    | (with_reducible apply Sound.update; first | with_reducible assumption | with_reducible apply memoryWrite_sound | with_reducible apply assertSource_sound)
    | (extract_lets +onlyGivenNames x; refine (?_ : Sound qq x → _) ?_; intro _; clear_value x; rotate_left; subst x; rotate_left)
    | (extract_lets +onlyGivenNames x; subst x)
    | split
    | dsimp -zeta only


theorem execKl0RstAssert_sound {qq : List Instr} {s : State}  (h_s : Sound qq s) : SoundOut qq (execKl0RstAssert s) := by
  unfold execKl0RstAssert
  repeat' first
    | with_reducible assumption
    | intro _
    | with_reducible rfl
    | with_reducible apply Sound.ite
    | with_reducible apply each_sound
    | with_reducible apply SoundOut.next
    | with_reducible apply SoundOut.ite
    | with_reducible apply assertSource_sound
    | (with_reducible apply Sound.update; first | with_reducible assumption | with_reducible apply assertSource_sound)
    | (extract_lets +onlyGivenNames x; refine (?_ : Sound qq x → _) ?_; intro _; clear_value x; rotate_left; subst x; rotate_left)
    | (extract_lets +onlyGivenNames x; subst x)
    | split
    | dsimp -zeta only


theorem execNvmeMiSubsystemReset_sound {qq : List Instr} {port : Nat} {s : State}  (h_s : Sound qq s) : SoundOut qq (execNvmeMiSubsystemReset port s) := by
  unfold execNvmeMiSubsystemReset
  repeat' first
    | with_reducible assumption
    | intro _
    | with_reducible rfl
    | with_reducible apply Sound.ite
    | with_reducible apply each_sound
    | with_reducible apply SoundOut.next
    | with_reducible apply SoundOut.ite
    | with_reducible apply assertSource_sound
    | with_reducible apply say_sound
    | (with_reducible apply Sound.update; first | with_reducible assumption | with_reducible apply assertSource_sound | with_reducible apply say_sound)
    | (extract_lets +onlyGivenNames x; refine (?_ : Sound qq x → _) ?_; intro _; clear_value x; rotate_left; subst x; rotate_left)
    | (extract_lets +onlyGivenNames x; subst x)
    | split
    | dsimp -zeta only


theorem releaseDomain_sound {qq : List Instr} {d : Domain} {s : State}  (h_s : Sound qq s) : Sound qq (releaseDomain d s) := by
  unfold releaseDomain
  repeat' first
    | with_reducible assumption
    | intro _
    | with_reducible rfl
    | with_reducible apply Sound.ite
    | with_reducible apply each_sound
    | (with_reducible apply Sound.update; first | with_reducible assumption)
    | (extract_lets +onlyGivenNames x; refine (?_ : Sound qq x → _) ?_; intro _; clear_value x; rotate_left; subst x; rotate_left)
    | (extract_lets +onlyGivenNames x; subst x)
    | split
    | dsimp -zeta only


theorem execDomainRelease_sound {qq : List Instr} {d : Domain} {s : State}  (h_s : Sound qq s) : SoundOut qq (execDomainRelease d s) := by
  unfold execDomainRelease
  repeat' first
    | with_reducible assumption
    | intro _
    | with_reducible rfl
    | with_reducible apply Sound.ite
    | with_reducible apply each_sound
    | with_reducible apply SoundOut.next
    | with_reducible apply SoundOut.ite
    | with_reducible apply releaseDomain_sound
    | (with_reducible apply Sound.update; first | with_reducible assumption | with_reducible apply releaseDomain_sound)
    | (extract_lets +onlyGivenNames x; refine (?_ : Sound qq x → _) ?_; intro _; clear_value x; rotate_left; subst x; rotate_left)
    | (extract_lets +onlyGivenNames x; subst x)
    | split
    | dsimp -zeta only


theorem execClockNotReady_sound {qq : List Instr} {d : Domain} {s : State}  (h_s : Sound qq s) : SoundOut qq (execClockNotReady d s) := by
  unfold execClockNotReady
  repeat' first
    | with_reducible assumption
    | intro _
    | with_reducible rfl
    | with_reducible apply Sound.ite
    | with_reducible apply each_sound
    | with_reducible apply SoundOut.next
    | with_reducible apply SoundOut.ite
    | with_reducible apply raise_sound
    | (with_reducible apply Sound.update; first | with_reducible assumption | with_reducible apply raise_sound)
    | (extract_lets +onlyGivenNames x; refine (?_ : Sound qq x → _) ?_; intro _; clear_value x; rotate_left; subst x; rotate_left)
    | (extract_lets +onlyGivenNames x; subst x)
    | split
    | dsimp -zeta only


theorem execClockLoss_sound {qq : List Instr} {d : Domain} {s : State}  (h_s : Sound qq s) : SoundOut qq (execClockLoss d s) := by
  unfold execClockLoss
  repeat' first
    | with_reducible assumption
    | intro _
    | with_reducible rfl
    | with_reducible apply Sound.ite
    | with_reducible apply each_sound
    | with_reducible apply SoundOut.next
    | with_reducible apply SoundOut.ite
    | with_reducible apply actL3_sound
    | with_reducible apply raise_sound
    | with_reducible apply recordSource_sound
    | with_reducible apply assertSource_sound
    | (with_reducible apply Sound.update; first | with_reducible assumption | with_reducible apply actL3_sound | with_reducible apply raise_sound | with_reducible apply recordSource_sound | with_reducible apply assertSource_sound)
    | (extract_lets +onlyGivenNames x; refine (?_ : Sound qq x → _) ?_; intro _; clear_value x; rotate_left; subst x; rotate_left)
    | (extract_lets +onlyGivenNames x; subst x)
    | split
    | dsimp -zeta only


theorem execPllLockRetry_sound {qq : List Instr} {d : Domain} {locked : Bool} {s : State}  (h_s : Sound qq s) : SoundOut qq (execPllLockRetry d locked s) := by
  unfold execPllLockRetry
  repeat' first
    | with_reducible assumption
    | intro _
    | with_reducible rfl
    | with_reducible apply Sound.ite
    | with_reducible apply each_sound
    | with_reducible apply SoundOut.next
    | with_reducible apply SoundOut.ite
    | with_reducible apply disarm_sound
    | with_reducible apply assertSource_sound
    | with_reducible apply arm_sound
    | (with_reducible apply Sound.update; first | with_reducible assumption | with_reducible apply disarm_sound | with_reducible apply assertSource_sound | with_reducible apply arm_sound)
    | (extract_lets +onlyGivenNames x; refine (?_ : Sound qq x → _) ?_; intro _; clear_value x; rotate_left; subst x; rotate_left)
    | (extract_lets +onlyGivenNames x; subst x)
    | split
    | dsimp -zeta only


theorem execWatchdogStage1_sound {qq : List Instr} {core : Nat} {s : State}  (h_s : Sound qq s) : SoundOut qq (execWatchdogStage1 core s) := by
  unfold execWatchdogStage1
  repeat' first
    | with_reducible assumption
    | intro _
    | with_reducible rfl
    | with_reducible apply Sound.ite
    | with_reducible apply each_sound
    | with_reducible apply SoundOut.next
    | with_reducible apply SoundOut.ite
    | with_reducible apply takeError_sound
    | (with_reducible apply Sound.update; first | with_reducible assumption | with_reducible apply takeError_sound)
    | (extract_lets +onlyGivenNames x; refine (?_ : Sound qq x → _) ?_; intro _; clear_value x; rotate_left; subst x; rotate_left)
    | (extract_lets +onlyGivenNames x; subst x)
    | split
    | dsimp -zeta only


theorem execWatchdogStage2_sound {qq : List Instr} {core : Nat} {s : State}  (h_s : Sound qq s) : SoundOut qq (execWatchdogStage2 core s) := by
  unfold execWatchdogStage2
  repeat' first
    | with_reducible assumption
    | intro _
    | with_reducible rfl
    | with_reducible apply Sound.ite
    | with_reducible apply each_sound
    | with_reducible apply SoundOut.next
    | with_reducible apply SoundOut.ite
    | with_reducible apply assertSource_sound
    | (with_reducible apply Sound.update; first | with_reducible assumption | with_reducible apply assertSource_sound)
    | (extract_lets +onlyGivenNames x; refine (?_ : Sound qq x → _) ?_; intro _; clear_value x; rotate_left; subst x; rotate_left)
    | (extract_lets +onlyGivenNames x; subst x)
    | split
    | dsimp -zeta only


end Sys2Proof.Machine
end

