-- ==== Sys2Proof/Laws/SoundMapOps.lean ====
section
/-!
SUPPORT. Soundness through the operations of Machine/MapOps.lean.
-/

set_option linter.all false

namespace Sys2Proof.Machine

theorem placeRecord_snd {qq : List Instr} {m : MapRecord} {s : State}   (h_s : Sound qq s) : Sound qq (placeRecord m s).2 := by
  unfold placeRecord
  repeat' first
    | with_reducible assumption
    | intro _
    | with_reducible rfl
    | with_reducible apply Sound.ite_snd
    | with_reducible apply Sound.ite
    | with_reducible apply each_sound
    | (with_reducible apply Sound.update; first | with_reducible assumption)
    | (extract_lets +onlyGivenNames x; refine (?_ : Sound qq x → _) ?_; intro _; clear_value x; rotate_left; subst x; rotate_left)
    | (extract_lets +onlyGivenNames x; subst x)
    | split
    | dsimp -zeta only

theorem placeRecord_sound {qq : List Instr} {m : MapRecord} {s : State} {r0 : MapRecord} {tt : State} (eqn : placeRecord m s = (r0, tt))  (h_s : Sound qq s) : Sound qq tt := by
  have h := placeRecord_snd (qq := qq) (m := m) (s := s) h_s
  rw [eqn] at h
  exact h

theorem holdMapRecord_sound {qq : List Instr} {m : MapRecord} {s : State}  (h_s : Sound qq s) : Sound qq (holdMapRecord m s) := by
  unfold holdMapRecord
  repeat' first
    | with_reducible assumption
    | intro _
    | with_reducible rfl
    | with_reducible apply Sound.ite
    | with_reducible apply each_sound
    | with_reducible apply placeRecord_snd
    | (with_reducible refine placeRecord_sound (by assumption) ?_)
    | with_reducible apply tslOrdered_sound
    | (with_reducible apply Sound.update; first | with_reducible assumption | with_reducible apply placeRecord_snd | (with_reducible refine placeRecord_sound (by assumption) ?_) | with_reducible apply tslOrdered_sound)
    | (extract_lets +onlyGivenNames x; refine (?_ : Sound qq x → _) ?_; intro _; clear_value x; rotate_left; subst x; rotate_left)
    | (extract_lets +onlyGivenNames x; subst x)
    | split
    | dsimp -zeta only


theorem hintPage_sound {qq : List Instr} {page : Nat} {s : State}  (h_s : Sound qq s) : Sound qq (hintPage page s) := by
  unfold hintPage
  repeat' first
    | with_reducible assumption
    | intro _
    | with_reducible rfl
    | with_reducible apply Sound.ite
    | with_reducible apply each_sound
    | with_reducible apply each_sound
    | with_reducible apply tslRing_sound
    | (with_reducible apply Sound.update; first | with_reducible assumption | with_reducible apply each_sound | with_reducible apply tslRing_sound)
    | (extract_lets +onlyGivenNames x; refine (?_ : Sound qq x → _) ?_; intro _; clear_value x; rotate_left; subst x; rotate_left)
    | (extract_lets +onlyGivenNames x; subst x)
    | split
    | dsimp -zeta only


theorem writeBack_sound {qq : List Instr} {page : Nat} {s : State}  (h_s : Sound qq s) : Sound qq (writeBack page s) := by
  unfold writeBack
  repeat' first
    | with_reducible assumption
    | intro _
    | with_reducible rfl
    | with_reducible apply Sound.ite
    | with_reducible apply each_sound
    | with_reducible apply takeStamp_snd
    | (with_reducible refine takeStamp_sound (by assumption) ?_)
    | with_reducible apply disarm_sound
    | (with_reducible apply Sound.update; first | with_reducible assumption | with_reducible apply takeStamp_snd | (with_reducible refine takeStamp_sound (by assumption) ?_) | with_reducible apply disarm_sound)
    | (extract_lets +onlyGivenNames x; refine (?_ : Sound qq x → _) ?_; intro _; clear_value x; rotate_left; subst x; rotate_left)
    | (extract_lets +onlyGivenNames x; subst x)
    | split
    | dsimp -zeta only


theorem evictOne_sound {qq : List Instr} {s : State}  (h_s : Sound qq s) : Sound qq (evictOne s) := by
  unfold evictOne
  repeat' first
    | with_reducible assumption
    | intro _
    | with_reducible rfl
    | with_reducible apply Sound.ite
    | with_reducible apply each_sound
    | with_reducible apply writeBack_sound
    | with_reducible apply hintPage_sound
    | (with_reducible apply Sound.update; first | with_reducible assumption | with_reducible apply writeBack_sound | with_reducible apply hintPage_sound)
    | (extract_lets +onlyGivenNames x; refine (?_ : Sound qq x → _) ?_; intro _; clear_value x; rotate_left; subst x; rotate_left)
    | (extract_lets +onlyGivenNames x; subst x)
    | split
    | dsimp -zeta only


theorem touchPage_sound {qq : List Instr} {page : Nat} {s : State}  (h_s : Sound qq s) : Sound qq (touchPage page s) := by
  unfold touchPage
  repeat' first
    | with_reducible assumption
    | intro _
    | with_reducible rfl
    | with_reducible apply Sound.ite
    | with_reducible apply each_sound
    | with_reducible apply evictOne_sound
    | (with_reducible apply Sound.update; first | with_reducible assumption | with_reducible apply evictOne_sound)
    | (extract_lets +onlyGivenNames x; refine (?_ : Sound qq x → _) ?_; intro _; clear_value x; rotate_left; subst x; rotate_left)
    | (extract_lets +onlyGivenNames x; subst x)
    | split
    | dsimp -zeta only


theorem dirtyPage_sound {qq : List Instr} {page : Nat} {s : State}  (h_s : Sound qq s) : Sound qq (dirtyPage page s) := by
  unfold dirtyPage
  repeat' first
    | with_reducible assumption
    | intro _
    | with_reducible rfl
    | with_reducible apply Sound.ite
    | with_reducible apply each_sound
    | with_reducible apply touchPage_sound
    | with_reducible apply arm_sound
    | (with_reducible apply Sound.update; first | with_reducible assumption | with_reducible apply touchPage_sound | with_reducible apply arm_sound)
    | (extract_lets +onlyGivenNames x; refine (?_ : Sound qq x → _) ?_; intro _; clear_value x; rotate_left; subst x; rotate_left)
    | (extract_lets +onlyGivenNames x; subst x)
    | split
    | dsimp -zeta only


theorem dropHint_sound {qq : List Instr} {r : Nat} {s : State}  (h_s : Sound qq s) : Sound qq (dropHint r s) := by
  unfold dropHint
  repeat' first
    | with_reducible assumption
    | intro _
    | with_reducible rfl
    | with_reducible apply Sound.ite
    | with_reducible apply each_sound
    | with_reducible apply tslRemove_sound
    | (with_reducible apply Sound.update; first | with_reducible assumption | with_reducible apply tslRemove_sound)
    | (extract_lets +onlyGivenNames x; refine (?_ : Sound qq x → _) ?_; intro _; clear_value x; rotate_left; subst x; rotate_left)
    | (extract_lets +onlyGivenNames x; subst x)
    | split
    | dsimp -zeta only


theorem moveValid_sound {qq : List Instr} {old : Loc} {new : Loc} {s : State}  (h_s : Sound qq s) : Sound qq (moveValid old new s) := by
  unfold moveValid
  repeat' first
    | with_reducible assumption
    | intro _
    | with_reducible rfl
    | with_reducible apply Sound.ite
    | with_reducible apply each_sound
    | with_reducible apply onBlock_sound
    | (with_reducible apply Sound.update; first | with_reducible assumption | with_reducible apply onBlock_sound)
    | (extract_lets +onlyGivenNames x; refine (?_ : Sound qq x → _) ?_; intro _; clear_value x; rotate_left; subst x; rotate_left)
    | (extract_lets +onlyGivenNames x; subst x)
    | split
    | dsimp -zeta only


theorem setReef_sound {qq : List Instr} {r : Nat} {change : List (Nat × Loc)} {s : State}  (h_s : Sound qq s) : Sound qq (setReef r change s) := by
  unfold setReef
  repeat' first
    | with_reducible assumption
    | intro _
    | with_reducible rfl
    | with_reducible apply Sound.ite
    | with_reducible apply each_sound
    | with_reducible apply each_sound
    | with_reducible apply moveValid_sound
    | with_reducible apply dropHint_sound
    | with_reducible apply dirtyPage_sound
    | with_reducible apply arm_sound
    | with_reducible apply disarm_sound
    | (with_reducible apply Sound.update; first | with_reducible assumption | with_reducible apply each_sound | with_reducible apply moveValid_sound | with_reducible apply dropHint_sound | with_reducible apply dirtyPage_sound | with_reducible apply arm_sound | with_reducible apply disarm_sound)
    | (extract_lets +onlyGivenNames x; refine (?_ : Sound qq x → _) ?_; intro _; clear_value x; rotate_left; subst x; rotate_left)
    | (extract_lets +onlyGivenNames x; subst x)
    | split
    | dsimp -zeta only


theorem setUnit_sound {qq : List Instr} {g : Nat} {l : Loc} {s : State}  (h_s : Sound qq s) : Sound qq (setUnit g l s) := by
  unfold setUnit
  repeat' first
    | with_reducible assumption
    | intro _
    | with_reducible rfl
    | with_reducible apply Sound.ite
    | with_reducible apply each_sound
    | with_reducible apply setReef_sound
    | (with_reducible apply Sound.update; first | with_reducible assumption | with_reducible apply setReef_sound)
    | (extract_lets +onlyGivenNames x; refine (?_ : Sound qq x → _) ?_; intro _; clear_value x; rotate_left; subst x; rotate_left)
    | (extract_lets +onlyGivenNames x; subst x)
    | split
    | dsimp -zeta only


theorem unmapRange_sound {qq : List Instr} {first : Nat} {n : Nat} {s : State}  (h_s : Sound qq s) : Sound qq (unmapRange first n s) := by
  unfold unmapRange
  repeat' first
    | with_reducible assumption
    | intro _
    | with_reducible rfl
    | with_reducible apply Sound.ite
    | with_reducible apply each_sound
    | with_reducible apply each_sound
    | with_reducible apply setReef_sound
    | (with_reducible apply Sound.update; first | with_reducible assumption | with_reducible apply each_sound | with_reducible apply setReef_sound)
    | (extract_lets +onlyGivenNames x; refine (?_ : Sound qq x → _) ?_; intro _; clear_value x; rotate_left; subst x; rotate_left)
    | (extract_lets +onlyGivenNames x; subst x)
    | split
    | dsimp -zeta only


theorem markRange_sound {qq : List Instr} {first : Nat} {n : Nat} {cause : Nat} {s : State}  (h_s : Sound qq s) : Sound qq (markRange first n cause s) := by
  unfold markRange
  repeat' first
    | with_reducible assumption
    | intro _
    | with_reducible rfl
    | with_reducible apply Sound.ite
    | with_reducible apply each_sound
    | with_reducible apply each_sound
    | with_reducible apply setReef_sound
    | (with_reducible apply Sound.update; first | with_reducible assumption | with_reducible apply each_sound | with_reducible apply setReef_sound)
    | (extract_lets +onlyGivenNames x; refine (?_ : Sound qq x → _) ?_; intro _; clear_value x; rotate_left; subst x; rotate_left)
    | (extract_lets +onlyGivenNames x; subst x)
    | split
    | dsimp -zeta only


theorem raiseHorizon_sound {qq : List Instr} {st : Stamped} {s : State}  (h_s : Sound qq s) : Sound qq (raiseHorizon st s) := by
  unfold raiseHorizon
  repeat' first
    | with_reducible assumption
    | intro _
    | with_reducible rfl
    | with_reducible apply Sound.ite
    | with_reducible apply each_sound
    | (with_reducible apply Sound.update; first | with_reducible assumption)
    | (extract_lets +onlyGivenNames x; refine (?_ : Sound qq x → _) ?_; intro _; clear_value x; rotate_left; subst x; rotate_left)
    | (extract_lets +onlyGivenNames x; subst x)
    | split
    | dsimp -zeta only


theorem applyRecord_sound {qq : List Instr} {m : MapRecord} {s : State}  (h_s : Sound qq s) : Sound qq (applyRecord m s) := by
  unfold applyRecord
  repeat' first
    | with_reducible assumption
    | intro _
    | with_reducible rfl
    | with_reducible apply Sound.ite
    | with_reducible apply each_sound
    | with_reducible apply raiseHorizon_sound
    | with_reducible apply unmapRange_sound
    | with_reducible apply markRange_sound
    | (with_reducible apply Sound.update; first | with_reducible assumption | with_reducible apply raiseHorizon_sound | with_reducible apply unmapRange_sound | with_reducible apply markRange_sound)
    | (extract_lets +onlyGivenNames x; refine (?_ : Sound qq x → _) ?_; intro _; clear_value x; rotate_left; subst x; rotate_left)
    | (extract_lets +onlyGivenNames x; subst x)
    | split
    | dsimp -zeta only


end Sys2Proof.Machine
end

