-- ==== Sys2Proof/Laws/SoundStays.lean ====
section
/-!
SUPPORT. Soundness through the operations of Machine/Stays.lean.
-/

set_option linter.all false

namespace Sys2Proof.Machine

theorem beginCheckpoint_sound {qq : List Instr} {s : State}  (h_s : Sound qq s) : Sound qq (beginCheckpoint s) := by
  unfold beginCheckpoint
  repeat' first
    | with_reducible assumption
    | intro _
    | with_reducible rfl
    | with_reducible apply Sound.ite
    | with_reducible apply each_sound
    | with_reducible apply takeStamp_snd
    | (with_reducible refine takeStamp_sound (by assumption) ?_)
    | with_reducible apply each_sound
    | with_reducible apply writeBack_sound
    | with_reducible apply arm_sound
    | with_reducible apply askDigest_sound
    | (with_reducible apply Sound.update; first | with_reducible assumption | with_reducible apply takeStamp_snd | (with_reducible refine takeStamp_sound (by assumption) ?_) | with_reducible apply each_sound | with_reducible apply writeBack_sound | with_reducible apply arm_sound | with_reducible apply askDigest_sound)
    | (extract_lets +onlyGivenNames x; refine (?_ : Sound qq x → _) ?_; intro _; clear_value x; rotate_left; subst x; rotate_left)
    | (extract_lets +onlyGivenNames x; subst x)
    | split
    | dsimp -zeta only


theorem checkpointTrigger_sound {qq : List Instr} {s : State}  (h_s : Sound qq s) : Sound qq (checkpointTrigger s) := by
  unfold checkpointTrigger
  repeat' first
    | with_reducible assumption
    | intro _
    | with_reducible rfl
    | with_reducible apply Sound.ite
    | with_reducible apply each_sound
    | with_reducible apply beginCheckpoint_sound
    | (with_reducible apply Sound.update; first | with_reducible assumption | with_reducible apply beginCheckpoint_sound)
    | (extract_lets +onlyGivenNames x; refine (?_ : Sound qq x → _) ?_; intro _; clear_value x; rotate_left; subst x; rotate_left)
    | (extract_lets +onlyGivenNames x; subst x)
    | split
    | dsimp -zeta only


theorem onRecord_sound {qq : List Instr} {q : Nat} {f : StayRecord → StayRecord} {s : State}  (h_s : Sound qq s) : Sound qq (onRecord q f s) := by
  unfold onRecord
  repeat' first
    | with_reducible assumption
    | intro _
    | with_reducible rfl
    | with_reducible apply Sound.ite
    | with_reducible apply each_sound
    | (with_reducible apply Sound.update; first | with_reducible assumption)
    | (extract_lets +onlyGivenNames x; refine (?_ : Sound qq x → _) ?_; intro _; clear_value x; rotate_left; subst x; rotate_left)
    | (extract_lets +onlyGivenNames x; subst x)
    | split
    | dsimp -zeta only


theorem setStay_sound {qq : List Instr} {second : Bool} {x : Stay} {s : State}  (h_s : Sound qq s) : Sound qq (setStay second x s) := by
  unfold setStay
  repeat' first
    | with_reducible assumption
    | intro _
    | with_reducible rfl
    | with_reducible apply Sound.ite
    | with_reducible apply each_sound
    | (with_reducible apply Sound.update; first | with_reducible assumption)
    | (extract_lets +onlyGivenNames x; refine (?_ : Sound qq x → _) ?_; intro _; clear_value x; rotate_left; subst x; rotate_left)
    | (extract_lets +onlyGivenNames x; subst x)
    | split
    | dsimp -zeta only


theorem moveStay_sound {qq : List Instr} {second : Bool} {b : Nat} {x : Stay} {s : State}  (h_s : Sound qq s) : Sound qq (moveStay second b x s) := by
  unfold moveStay
  repeat' first
    | with_reducible assumption
    | intro _
    | with_reducible rfl
    | with_reducible apply Sound.ite
    | with_reducible apply each_sound
    | with_reducible apply setStay_sound
    | with_reducible apply onBlock_sound
    | (with_reducible apply Sound.update; first | with_reducible assumption | with_reducible apply setStay_sound | with_reducible apply onBlock_sound)
    | (extract_lets +onlyGivenNames x; refine (?_ : Sound qq x → _) ?_; intro _; clear_value x; rotate_left; subst x; rotate_left)
    | (extract_lets +onlyGivenNames x; subst x)
    | split
    | dsimp -zeta only


theorem stayRoom_sound {qq : List Instr} {second : Bool} {s : State}  (h_s : Sound qq s) : Sound qq (stayRoom second s) := by
  unfold stayRoom
  repeat' first
    | with_reducible assumption
    | intro _
    | with_reducible rfl
    | with_reducible apply Sound.ite
    | with_reducible apply each_sound
    | with_reducible apply moveStay_sound
    | (with_reducible apply Sound.update; first | with_reducible assumption | with_reducible apply moveStay_sound)
    | (extract_lets +onlyGivenNames x; refine (?_ : Sound qq x → _) ?_; intro _; clear_value x; rotate_left; subst x; rotate_left)
    | (extract_lets +onlyGivenNames x; subst x)
    | split
    | dsimp -zeta only


theorem stayProgram_sound {qq : List Instr} {second : Bool} {s : State}  (h_s : Sound qq s) : Sound qq (stayProgram second s) := by
  unfold stayProgram
  repeat' first
    | with_reducible assumption
    | intro _
    | with_reducible rfl
    | with_reducible apply Sound.ite
    | with_reducible apply each_sound
    | with_reducible apply stayRoom_sound
    | with_reducible apply addOp_sound
    | with_reducible apply setStay_sound
    | (with_reducible apply Sound.update; first | with_reducible assumption | with_reducible apply stayRoom_sound | with_reducible apply addOp_sound | with_reducible apply setStay_sound)
    | (extract_lets +onlyGivenNames x; refine (?_ : Sound qq x → _) ?_; intro _; clear_value x; rotate_left; subst x; rotate_left)
    | (extract_lets +onlyGivenNames x; subst x)
    | split
    | dsimp -zeta only


theorem issueStayPage_sound {qq : List Instr} {s : State}  (h_s : Sound qq s) : Sound qq (issueStayPage s) := by
  unfold issueStayPage
  repeat' first
    | with_reducible assumption
    | intro _
    | with_reducible rfl
    | with_reducible apply Sound.ite
    | with_reducible apply each_sound
    | with_reducible apply disarm_sound
    | with_reducible apply stayProgram_sound
    | (with_reducible apply Sound.update; first | with_reducible assumption | with_reducible apply disarm_sound | with_reducible apply stayProgram_sound)
    | (extract_lets +onlyGivenNames x; refine (?_ : Sound qq x → _) ?_; intro _; clear_value x; rotate_left; subst x; rotate_left)
    | (extract_lets +onlyGivenNames x; subst x)
    | split
    | dsimp -zeta only


theorem pageRecord_sound {qq : List Instr} {q : Nat} {s : State}  (h_s : Sound qq s) : Sound qq (pageRecord q s) := by
  unfold pageRecord
  repeat' first
    | with_reducible assumption
    | intro _
    | with_reducible rfl
    | with_reducible apply Sound.ite
    | with_reducible apply each_sound
    | with_reducible apply arm_sound
    | (with_reducible apply Sound.update; first | with_reducible assumption | with_reducible apply arm_sound)
    | (extract_lets +onlyGivenNames x; refine (?_ : Sound qq x → _) ?_; intro _; clear_value x; rotate_left; subst x; rotate_left)
    | (extract_lets +onlyGivenNames x; subst x)
    | split
    | dsimp -zeta only


theorem appendStay_sound {qq : List Instr} {type : Nat} {aux : Nat} {serial : Nat} {st : Stamped} {members : List (Nat × Nat × Nat × Bool)} {s : State}  (h_s : Sound qq s) : Sound qq (appendStay type aux serial st members s) := by
  unfold appendStay
  repeat' first
    | with_reducible assumption
    | intro _
    | with_reducible rfl
    | with_reducible apply Sound.ite
    | with_reducible apply each_sound
    | with_reducible apply issueStayPage_sound
    | with_reducible apply pageRecord_sound
    | (with_reducible apply Sound.update; first | with_reducible assumption | with_reducible apply issueStayPage_sound | with_reducible apply pageRecord_sound)
    | (extract_lets +onlyGivenNames x; refine (?_ : Sound qq x → _) ?_; intro _; clear_value x; rotate_left; subst x; rotate_left)
    | (extract_lets +onlyGivenNames x; subst x)
    | split
    | dsimp -zeta only


theorem appendBuilt_sound {qq : List Instr} {type : Nat} {aux : Nat} {s : State}  (h_s : Sound qq s) : Sound qq (appendBuilt type aux s) := by
  unfold appendBuilt
  repeat' first
    | with_reducible assumption
    | intro _
    | with_reducible rfl
    | with_reducible apply Sound.ite
    | with_reducible apply each_sound
    | with_reducible apply takeStamp_snd
    | (with_reducible refine takeStamp_sound (by assumption) ?_)
    | with_reducible apply appendStay_sound
    | (with_reducible apply Sound.update; first | with_reducible assumption | with_reducible apply takeStamp_snd | (with_reducible refine takeStamp_sound (by assumption) ?_) | with_reducible apply appendStay_sound)
    | (extract_lets +onlyGivenNames x; refine (?_ : Sound qq x → _) ?_; intro _; clear_value x; rotate_left; subst x; rotate_left)
    | (extract_lets +onlyGivenNames x; subst x)
    | split
    | dsimp -zeta only


theorem hurryStays_sound {qq : List Instr} {s : State}  (h_s : Sound qq s) : Sound qq (hurryStays s) := by
  unfold hurryStays
  repeat' first
    | with_reducible assumption
    | intro _
    | with_reducible rfl
    | with_reducible apply Sound.ite
    | with_reducible apply each_sound
    | with_reducible apply issueStayPage_sound
    | (with_reducible apply Sound.update; first | with_reducible assumption | with_reducible apply issueStayPage_sound)
    | (extract_lets +onlyGivenNames x; refine (?_ : Sound qq x → _) ?_; intro _; clear_value x; rotate_left; subst x; rotate_left)
    | (extract_lets +onlyGivenNames x; subst x)
    | split
    | dsimp -zeta only


theorem pruneJournal_sound {qq : List Instr} {s : State}  (h_s : Sound qq s) : Sound qq (pruneJournal s) := by
  unfold pruneJournal
  repeat' first
    | with_reducible assumption
    | intro _
    | with_reducible rfl
    | with_reducible apply Sound.ite
    | with_reducible apply each_sound
    | (with_reducible apply Sound.update; first | with_reducible assumption)
    | (extract_lets +onlyGivenNames x; refine (?_ : Sound qq x → _) ?_; intro _; clear_value x; rotate_left; subst x; rotate_left)
    | (extract_lets +onlyGivenNames x; subst x)
    | split
    | dsimp -zeta only


theorem beginRepair_sound {qq : List Instr} {survivor : Stay} {s : State}  (h_s : Sound qq s) : Sound qq (beginRepair survivor s) := by
  unfold beginRepair
  repeat' first
    | with_reducible assumption
    | intro _
    | with_reducible rfl
    | with_reducible apply Sound.ite
    | with_reducible apply each_sound
    | with_reducible apply raise_sound
    | (with_reducible apply Sound.update; first | with_reducible assumption | with_reducible apply raise_sound)
    | (extract_lets +onlyGivenNames x; refine (?_ : Sound qq x → _) ?_; intro _; clear_value x; rotate_left; subst x; rotate_left)
    | (extract_lets +onlyGivenNames x; subst x)
    | split
    | dsimp -zeta only


theorem rebuildStays_sound {qq : List Instr} {s : State}  (h_s : Sound qq s) : Sound qq (rebuildStays s) := by
  unfold rebuildStays
  repeat' first
    | with_reducible assumption
    | intro _
    | with_reducible rfl
    | with_reducible apply Sound.ite
    | with_reducible apply each_sound
    | with_reducible apply setStay_sound
    | with_reducible apply stayProgram_sound
    | with_reducible apply checkpointTrigger_sound
    | with_reducible apply appendBuilt_sound
    | with_reducible apply raise_sound
    | (with_reducible apply Sound.update; first | with_reducible assumption | with_reducible apply setStay_sound | with_reducible apply stayProgram_sound | with_reducible apply checkpointTrigger_sound | with_reducible apply appendBuilt_sound | with_reducible apply raise_sound)
    | (extract_lets +onlyGivenNames x; refine (?_ : Sound qq x → _) ?_; intro _; clear_value x; rotate_left; subst x; rotate_left)
    | (extract_lets +onlyGivenNames x; subst x)
    | split
    | dsimp -zeta only


theorem loseStay_sound {qq : List Instr} {second : Bool} {s : State}  (h_s : Sound qq s) : Sound qq (loseStay second s) := by
  unfold loseStay
  repeat' first
    | with_reducible assumption
    | intro _
    | with_reducible rfl
    | with_reducible apply Sound.ite
    | with_reducible apply each_sound
    | with_reducible apply beginRepair_sound
    | with_reducible apply rebuildStays_sound
    | (with_reducible apply Sound.update; first | with_reducible assumption | with_reducible apply beginRepair_sound | with_reducible apply rebuildStays_sound)
    | (extract_lets +onlyGivenNames x; refine (?_ : Sound qq x → _) ?_; intro _; clear_value x; rotate_left; subst x; rotate_left)
    | (extract_lets +onlyGivenNames x; subst x)
    | split
    | dsimp -zeta only


theorem dropStaysOn_sound {qq : List Instr} {die : Nat} {s : State}  (h_s : Sound qq s) : Sound qq (dropStaysOn die s) := by
  unfold dropStaysOn
  repeat' first
    | with_reducible assumption
    | intro _
    | with_reducible rfl
    | with_reducible apply Sound.ite
    | with_reducible apply each_sound
    | with_reducible apply loseStay_sound
    | (with_reducible apply Sound.update; first | with_reducible assumption | with_reducible apply loseStay_sound)
    | (extract_lets +onlyGivenNames x; refine (?_ : Sound qq x → _) ?_; intro _; clear_value x; rotate_left; subst x; rotate_left)
    | (extract_lets +onlyGivenNames x; subst x)
    | split
    | dsimp -zeta only


theorem stayReported_sound {qq : List Instr} {second : Bool} {a : Nat} {ok : Bool} {s : State}  (h_s : Sound qq s) : Sound qq (stayReported second a ok s) := by
  unfold stayReported
  repeat' first
    | with_reducible assumption
    | intro _
    | with_reducible rfl
    | with_reducible apply Sound.ite
    | with_reducible apply each_sound
    | with_reducible apply stayProgram_sound
    | with_reducible apply moveStay_sound
    | with_reducible apply loseStay_sound
    | (with_reducible apply Sound.update; first | with_reducible assumption | with_reducible apply stayProgram_sound | with_reducible apply moveStay_sound | with_reducible apply loseStay_sound)
    | (extract_lets +onlyGivenNames x; refine (?_ : Sound qq x → _) ?_; intro _; clear_value x; rotate_left; subst x; rotate_left)
    | (extract_lets +onlyGivenNames x; subst x)
    | split
    | dsimp -zeta only


end Sys2Proof.Machine
end

