-- ==== Sys2Proof/Laws/SoundAccounting.lean ====
section
/-!
SUPPORT. Soundness through the operations of Machine/Accounting.lean.
-/

set_option linter.all false

namespace Sys2Proof.Machine

theorem goReadOnly_sound {qq : List Instr} {s : State}  (h_s : Sound qq s) : Sound qq (goReadOnly s) := by
  unfold goReadOnly
  repeat' first
    | with_reducible assumption
    | intro _
    | with_reducible rfl
    | with_reducible apply Sound.ite
    | with_reducible apply each_sound
    | with_reducible apply endWrites_sound
    | with_reducible apply setMode_sound
    | with_reducible apply sendFrame_sound
    | with_reducible apply noteHealth_sound
    | (with_reducible apply Sound.update; first | with_reducible assumption | with_reducible apply endWrites_sound | with_reducible apply setMode_sound | with_reducible apply sendFrame_sound | with_reducible apply noteHealth_sound)
    | (extract_lets +onlyGivenNames x; refine (?_ : Sound qq x → _) ?_; intro _; clear_value x; rotate_left; subst x; rotate_left)
    | (extract_lets +onlyGivenNames x; subst x)
    | split
    | dsimp -zeta only


theorem abandonReturn_sound {qq : List Instr} {s : State}  (h_s : Sound qq s) : Sound qq (abandonReturn s) := by
  unfold abandonReturn
  repeat' first
    | with_reducible assumption
    | intro _
    | with_reducible rfl
    | with_reducible apply Sound.ite
    | with_reducible apply each_sound
    | with_reducible apply finishEntry_sound
    | with_reducible apply setRequested_sound
    | (with_reducible apply Sound.update; first | with_reducible assumption | with_reducible apply finishEntry_sound | with_reducible apply setRequested_sound)
    | (extract_lets +onlyGivenNames x; refine (?_ : Sound qq x → _) ?_; intro _; clear_value x; rotate_left; subst x; rotate_left)
    | (extract_lets +onlyGivenNames x; subst x)
    | split
    | dsimp -zeta only


theorem enterReadOnly_sound {qq : List Instr} {cause : Nat} {s : State}  (h_s : Sound qq s) : Sound qq (enterReadOnly cause s) := by
  unfold enterReadOnly
  repeat' first
    | with_reducible assumption
    | intro _
    | with_reducible rfl
    | with_reducible apply Sound.ite
    | with_reducible apply each_sound
    | with_reducible apply goReadOnly_sound
    | with_reducible apply abandonReturn_sound
    | (with_reducible apply Sound.update; first | with_reducible assumption | with_reducible apply goReadOnly_sound | with_reducible apply abandonReturn_sound)
    | (extract_lets +onlyGivenNames x; refine (?_ : Sound qq x → _) ?_; intro _; clear_value x; rotate_left; subst x; rotate_left)
    | (extract_lets +onlyGivenNames x; subst x)
    | split
    | dsimp -zeta only


theorem fatalCondition_sound {qq : List Instr} {s : State}  (h_s : Sound qq s) : Sound qq (fatalCondition s) := by
  unfold fatalCondition
  repeat' first
    | with_reducible assumption
    | intro _
    | with_reducible rfl
    | with_reducible apply Sound.ite
    | with_reducible apply each_sound
    | with_reducible apply enterReadOnly_sound
    | (with_reducible apply Sound.update; first | with_reducible assumption | with_reducible apply enterReadOnly_sound)
    | (extract_lets +onlyGivenNames x; refine (?_ : Sound qq x → _) ?_; intro _; clear_value x; rotate_left; subst x; rotate_left)
    | (extract_lets +onlyGivenNames x; subst x)
    | split
    | dsimp -zeta only


theorem noteSpare_sound {qq : List Instr} {was : Nat} {s : State}  (h_s : Sound qq s) : Sound qq (noteSpare was s) := by
  unfold noteSpare
  repeat' first
    | with_reducible assumption
    | intro _
    | with_reducible rfl
    | with_reducible apply Sound.ite
    | with_reducible apply each_sound
    | with_reducible apply noteMiAll_sound
    | (with_reducible apply Sound.update; first | with_reducible assumption | with_reducible apply noteMiAll_sound)
    | (extract_lets +onlyGivenNames x; refine (?_ : Sound qq x → _) ?_; intro _; clear_value x; rotate_left; subst x; rotate_left)
    | (extract_lets +onlyGivenNames x; subst x)
    | split
    | dsimp -zeta only


theorem countSpares_sound {qq : List Instr} {s : State}  (h_s : Sound qq s) : Sound qq (countSpares s) := by
  unfold countSpares
  repeat' first
    | with_reducible assumption
    | intro _
    | with_reducible rfl
    | with_reducible apply Sound.ite
    | with_reducible apply each_sound
    | with_reducible apply noteSpare_sound
    | (with_reducible apply Sound.update; first | with_reducible assumption | with_reducible apply noteSpare_sound)
    | (extract_lets +onlyGivenNames x; refine (?_ : Sound qq x → _) ?_; intro _; clear_value x; rotate_left; subst x; rotate_left)
    | (extract_lets +onlyGivenNames x; subst x)
    | split
    | dsimp -zeta only


theorem warnSpares_sound {qq : List Instr} {s : State}  (h_s : Sound qq s) : Sound qq (warnSpares s) := by
  unfold warnSpares
  repeat' first
    | with_reducible assumption
    | intro _
    | with_reducible rfl
    | with_reducible apply Sound.ite
    | with_reducible apply each_sound
    | with_reducible apply raise_sound
    | (with_reducible apply Sound.update; first | with_reducible assumption | with_reducible apply raise_sound)
    | (extract_lets +onlyGivenNames x; refine (?_ : Sound qq x → _) ?_; intro _; clear_value x; rotate_left; subst x; rotate_left)
    | (extract_lets +onlyGivenNames x; subst x)
    | split
    | dsimp -zeta only


theorem noteReserve_sound {qq : List Instr} {s : State}  (h_s : Sound qq s) : Sound qq (noteReserve s) := by
  unfold noteReserve
  repeat' first
    | with_reducible assumption
    | intro _
    | with_reducible rfl
    | with_reducible apply Sound.ite
    | with_reducible apply each_sound
    | with_reducible apply raise_sound
    | (with_reducible apply Sound.update; first | with_reducible assumption | with_reducible apply raise_sound)
    | (extract_lets +onlyGivenNames x; refine (?_ : Sound qq x → _) ?_; intro _; clear_value x; rotate_left; subst x; rotate_left)
    | (extract_lets +onlyGivenNames x; subst x)
    | split
    | dsimp -zeta only


theorem reportUsed_sound {qq : List Instr} {s : State}  (h_s : Sound qq s) : Sound qq (reportUsed s) := by
  unfold reportUsed
  repeat' first
    | with_reducible assumption
    | intro _
    | with_reducible rfl
    | with_reducible apply Sound.ite
    | with_reducible apply each_sound
    | with_reducible apply each_sound
    | with_reducible apply raise_sound
    | (with_reducible apply Sound.update; first | with_reducible assumption | with_reducible apply each_sound | with_reducible apply raise_sound)
    | (extract_lets +onlyGivenNames x; refine (?_ : Sound qq x → _) ?_; intro _; clear_value x; rotate_left; subst x; rotate_left)
    | (extract_lets +onlyGivenNames x; subst x)
    | split
    | dsimp -zeta only


theorem noteUsed_sound {qq : List Instr} {was : BitVec 8} {s : State}  (h_s : Sound qq s) : Sound qq (noteUsed was s) := by
  unfold noteUsed
  repeat' first
    | with_reducible assumption
    | intro _
    | with_reducible rfl
    | with_reducible apply Sound.ite
    | with_reducible apply each_sound
    | with_reducible apply noteMiAll_sound
    | (with_reducible apply Sound.update; first | with_reducible assumption | with_reducible apply noteMiAll_sound)
    | (extract_lets +onlyGivenNames x; refine (?_ : Sound qq x → _) ?_; intro _; clear_value x; rotate_left; subst x; rotate_left)
    | (extract_lets +onlyGivenNames x; subst x)
    | split
    | dsimp -zeta only


theorem peStats_sound {qq : List Instr} {s : State}  (h_s : Sound qq s) : Sound qq (peStats s) := by
  unfold peStats
  repeat' first
    | with_reducible assumption
    | intro _
    | with_reducible rfl
    | with_reducible apply Sound.ite
    | with_reducible apply each_sound
    | with_reducible apply reportUsed_sound
    | with_reducible apply noteUsed_sound
    | (with_reducible apply Sound.update; first | with_reducible assumption | with_reducible apply reportUsed_sound | with_reducible apply noteUsed_sound)
    | (extract_lets +onlyGivenNames x; refine (?_ : Sound qq x → _) ?_; intro _; clear_value x; rotate_left; subst x; rotate_left)
    | (extract_lets +onlyGivenNames x; subst x)
    | split
    | dsimp -zeta only


theorem recount_sound {qq : List Instr} {s : State}  (h_s : Sound qq s) : Sound qq (recount s) := by
  unfold recount
  repeat' first
    | with_reducible assumption
    | intro _
    | with_reducible rfl
    | with_reducible apply Sound.ite
    | with_reducible apply each_sound
    | with_reducible apply noteReserve_sound
    | with_reducible apply warnSpares_sound
    | with_reducible apply countSpares_sound
    | with_reducible apply peStats_sound
    | with_reducible apply noteHealth_sound
    | with_reducible apply enterReadOnly_sound
    | (with_reducible apply Sound.update; first | with_reducible assumption | with_reducible apply noteReserve_sound | with_reducible apply warnSpares_sound | with_reducible apply countSpares_sound | with_reducible apply peStats_sound | with_reducible apply noteHealth_sound | with_reducible apply enterReadOnly_sound)
    | (extract_lets +onlyGivenNames x; refine (?_ : Sound qq x → _) ?_; intro _; clear_value x; rotate_left; subst x; rotate_left)
    | (extract_lets +onlyGivenNames x; subst x)
    | split
    | dsimp -zeta only


theorem leaveWindow_sound {qq : List Instr} {type : Nat} {s : State}  (h_s : Sound qq s) : Sound qq (leaveWindow type s) := by
  unfold leaveWindow
  repeat' first
    | with_reducible assumption
    | intro _
    | with_reducible rfl
    | with_reducible apply Sound.ite
    | with_reducible apply each_sound
    | with_reducible apply disarm_sound
    | with_reducible apply each_sound
    | with_reducible apply postAsync_sound
    | with_reducible apply raise_sound
    | (with_reducible apply Sound.update; first | with_reducible assumption | with_reducible apply disarm_sound | with_reducible apply each_sound | with_reducible apply postAsync_sound | with_reducible apply raise_sound)
    | (extract_lets +onlyGivenNames x; refine (?_ : Sound qq x → _) ?_; intro _; clear_value x; rotate_left; subst x; rotate_left)
    | (extract_lets +onlyGivenNames x; subst x)
    | split
    | dsimp -zeta only


theorem refreshLevels_sound {qq : List Instr} {s : State}  (h_s : Sound qq s) : Sound qq (refreshLevels s) := by
  unfold refreshLevels
  repeat' first
    | with_reducible assumption
    | intro _
    | with_reducible rfl
    | with_reducible apply Sound.ite
    | with_reducible apply each_sound
    | with_reducible apply leaveWindow_sound
    | (with_reducible apply Sound.update; first | with_reducible assumption | with_reducible apply leaveWindow_sound)
    | (extract_lets +onlyGivenNames x; refine (?_ : Sound qq x → _) ?_; intro _; clear_value x; rotate_left; subst x; rotate_left)
    | (extract_lets +onlyGivenNames x; subst x)
    | split
    | dsimp -zeta only


theorem closeBlock_sound {qq : List Instr} {k : Nat} {s : State}  (h_s : Sound qq s) : Sound qq (closeBlock k s) := by
  unfold closeBlock
  repeat' first
    | with_reducible assumption
    | intro _
    | with_reducible rfl
    | with_reducible apply Sound.ite
    | with_reducible apply each_sound
    | with_reducible apply takeStamp_snd
    | (with_reducible refine takeStamp_sound (by assumption) ?_)
    | with_reducible apply onBlock_sound
    | (with_reducible apply Sound.update; first | with_reducible assumption | with_reducible apply takeStamp_snd | (with_reducible refine takeStamp_sound (by assumption) ?_) | with_reducible apply onBlock_sound)
    | (extract_lets +onlyGivenNames x; refine (?_ : Sound qq x → _) ?_; intro _; clear_value x; rotate_left; subst x; rotate_left)
    | (extract_lets +onlyGivenNames x; subst x)
    | split
    | dsimp -zeta only


theorem queueBlock_sound {qq : List Instr} {cls : Nat} {k : Nat} {s : State}  (h_s : Sound qq s) : Sound qq (queueBlock cls k s) := by
  unfold queueBlock
  repeat' first
    | with_reducible assumption
    | intro _
    | with_reducible rfl
    | with_reducible apply Sound.ite
    | with_reducible apply each_sound
    | with_reducible apply onBlock_sound
    | with_reducible apply each_sound
    | with_reducible apply closeBlock_sound
    | with_reducible apply leaveWindow_sound
    | (with_reducible apply Sound.update; first | with_reducible assumption | with_reducible apply onBlock_sound | with_reducible apply each_sound | with_reducible apply closeBlock_sound | with_reducible apply leaveWindow_sound)
    | (extract_lets +onlyGivenNames x; refine (?_ : Sound qq x → _) ?_; intro _; clear_value x; rotate_left; subst x; rotate_left)
    | (extract_lets +onlyGivenNames x; subst x)
    | split
    | dsimp -zeta only


theorem reportRefresh_sound {qq : List Instr} {k : Nat} {s : State}  (h_s : Sound qq s) : Sound qq (reportRefresh k s) := by
  unfold reportRefresh
  repeat' first
    | with_reducible assumption
    | intro _
    | with_reducible rfl
    | with_reducible apply Sound.ite
    | with_reducible apply each_sound
    | with_reducible apply queueBlock_sound
    | (with_reducible apply Sound.update; first | with_reducible assumption | with_reducible apply queueBlock_sound)
    | (extract_lets +onlyGivenNames x; refine (?_ : Sound qq x → _) ?_; intro _; clear_value x; rotate_left; subst x; rotate_left)
    | (extract_lets +onlyGivenNames x; subst x)
    | split
    | dsimp -zeta only


theorem wearSnapshot_sound {qq : List Instr} {d : Nat} {s : State}  (h_s : Sound qq s) : Sound qq (wearSnapshot d s) := by
  unfold wearSnapshot
  repeat' first
    | with_reducible assumption
    | intro _
    | with_reducible rfl
    | with_reducible apply Sound.ite
    | with_reducible apply each_sound
    | with_reducible apply takeStamp_snd
    | (with_reducible refine takeStamp_sound (by assumption) ?_)
    | (with_reducible apply Sound.update; first | with_reducible assumption | with_reducible apply takeStamp_snd | (with_reducible refine takeStamp_sound (by assumption) ?_))
    | (extract_lets +onlyGivenNames x; refine (?_ : Sound qq x → _) ?_; intro _; clear_value x; rotate_left; subst x; rotate_left)
    | (extract_lets +onlyGivenNames x; subst x)
    | split
    | dsimp -zeta only


theorem retireBlock_sound {qq : List Instr} {program : Bool} {k : Nat} {s : State}  (h_s : Sound qq s) : Sound qq (retireBlock program k s) := by
  unfold retireBlock
  repeat' first
    | with_reducible assumption
    | intro _
    | with_reducible rfl
    | with_reducible apply Sound.ite
    | with_reducible apply each_sound
    | with_reducible apply onBlock_sound
    | with_reducible apply onDie_sound
    | with_reducible apply appendBuilt_sound
    | with_reducible apply recount_sound
    | with_reducible apply wearSnapshot_sound
    | (with_reducible apply Sound.update; first | with_reducible assumption | with_reducible apply onBlock_sound | with_reducible apply onDie_sound | with_reducible apply appendBuilt_sound | with_reducible apply recount_sound | with_reducible apply wearSnapshot_sound)
    | (extract_lets +onlyGivenNames x; refine (?_ : Sound qq x → _) ?_; intro _; clear_value x; rotate_left; subst x; rotate_left)
    | (extract_lets +onlyGivenNames x; subst x)
    | split
    | dsimp -zeta only


theorem releaseGroup_sound {qq : List Instr} {g : List Nat} {s : State}  (h_s : Sound qq s) : Sound qq (releaseGroup g s) := by
  unfold releaseGroup
  repeat' first
    | with_reducible assumption
    | intro _
    | with_reducible rfl
    | with_reducible apply Sound.ite
    | with_reducible apply each_sound
    | with_reducible apply takeStamp_snd
    | (with_reducible refine takeStamp_sound (by assumption) ?_)
    | with_reducible apply each_sound
    | with_reducible apply onBlock_sound
    | with_reducible apply refreshLevels_sound
    | (with_reducible apply Sound.update; first | with_reducible assumption | with_reducible apply takeStamp_snd | (with_reducible refine takeStamp_sound (by assumption) ?_) | with_reducible apply each_sound | with_reducible apply onBlock_sound | with_reducible apply refreshLevels_sound)
    | (extract_lets +onlyGivenNames x; refine (?_ : Sound qq x → _) ?_; intro _; clear_value x; rotate_left; subst x; rotate_left)
    | (extract_lets +onlyGivenNames x; subst x)
    | split
    | dsimp -zeta only


theorem sweepGroups_sound {qq : List Instr} {s : State}  (h_s : Sound qq s) : Sound qq (sweepGroups s) := by
  unfold sweepGroups
  repeat' first
    | with_reducible assumption
    | intro _
    | with_reducible rfl
    | with_reducible apply Sound.ite
    | with_reducible apply each_sound
    | with_reducible apply each_sound
    | with_reducible apply releaseGroup_sound
    | (with_reducible apply Sound.update; first | with_reducible assumption | with_reducible apply each_sound | with_reducible apply releaseGroup_sound)
    | (extract_lets +onlyGivenNames x; refine (?_ : Sound qq x → _) ?_; intro _; clear_value x; rotate_left; subst x; rotate_left)
    | (extract_lets +onlyGivenNames x; subst x)
    | split
    | dsimp -zeta only


theorem growSet_sound {qq : List Instr} {k : Nat} {nn : Nat} {s : State} (h_s : Sound qq s) : Sound qq (growSet k nn s) := by
  induction nn generalizing s with
  | zero => unfold growSet; exact h_s
  | succ m ih =>
    unfold growSet
    repeat' first
      | with_reducible assumption
      | intro _
      | with_reducible rfl
      | with_reducible apply Sound.ite
      | with_reducible apply each_sound
      | with_reducible apply ih
      | with_reducible apply onBlock_sound
      | (with_reducible apply Sound.update; first | with_reducible assumption | with_reducible apply onBlock_sound)
      | (extract_lets +onlyGivenNames x; refine (?_ : Sound qq x → _) ?_; intro _; clear_value x; rotate_left; subst x; rotate_left)
      | (extract_lets +onlyGivenNames x; subst x)
      | split
      | dsimp -zeta only


theorem fillSets_sound {qq : List Instr} {s : State}  (h_s : Sound qq s) : Sound qq (fillSets s) := by
  unfold fillSets
  repeat' first
    | with_reducible assumption
    | intro _
    | with_reducible rfl
    | with_reducible apply Sound.ite
    | with_reducible apply each_sound
    | with_reducible apply each_sound
    | with_reducible apply growSet_sound
    | with_reducible apply appendBuilt_sound
    | (with_reducible apply Sound.update; first | with_reducible assumption | with_reducible apply each_sound | with_reducible apply growSet_sound | with_reducible apply appendBuilt_sound)
    | (extract_lets +onlyGivenNames x; refine (?_ : Sound qq x → _) ?_; intro _; clear_value x; rotate_left; subst x; rotate_left)
    | (extract_lets +onlyGivenNames x; subst x)
    | split
    | dsimp -zeta only


theorem dropSetsOn_sound {qq : List Instr} {die : Nat} {s : State}  (h_s : Sound qq s) : Sound qq (dropSetsOn die s) := by
  unfold dropSetsOn
  repeat' first
    | with_reducible assumption
    | intro _
    | with_reducible rfl
    | with_reducible apply Sound.ite
    | with_reducible apply each_sound
    | with_reducible apply fillSets_sound
    | (with_reducible apply Sound.update; first | with_reducible assumption | with_reducible apply fillSets_sound)
    | (extract_lets +onlyGivenNames x; refine (?_ : Sound qq x → _) ?_; intro _; clear_value x; rotate_left; subst x; rotate_left)
    | (extract_lets +onlyGivenNames x; subst x)
    | split
    | dsimp -zeta only


theorem emptySet_sound {qq : List Instr} {k : Nat} {s : State}  (h_s : Sound qq s) : Sound qq (emptySet k s) := by
  unfold emptySet
  repeat' first
    | with_reducible assumption
    | intro _
    | with_reducible rfl
    | with_reducible apply Sound.ite
    | with_reducible apply each_sound
    | with_reducible apply takeStamp_snd
    | (with_reducible refine takeStamp_sound (by assumption) ?_)
    | with_reducible apply each_sound
    | with_reducible apply onBlock_sound
    | (with_reducible apply Sound.update; first | with_reducible assumption | with_reducible apply takeStamp_snd | (with_reducible refine takeStamp_sound (by assumption) ?_) | with_reducible apply each_sound | with_reducible apply onBlock_sound)
    | (extract_lets +onlyGivenNames x; refine (?_ : Sound qq x → _) ?_; intro _; clear_value x; rotate_left; subst x; rotate_left)
    | (extract_lets +onlyGivenNames x; subst x)
    | split
    | dsimp -zeta only


theorem releaseDurable_sound {qq : List Instr} {s : State}  (h_s : Sound qq s) : Sound qq (releaseDurable s) := by
  unfold releaseDurable
  repeat' first
    | with_reducible assumption
    | intro _
    | with_reducible rfl
    | with_reducible apply Sound.ite
    | with_reducible apply each_sound
    | with_reducible apply each_sound
    | with_reducible apply releaseSliceUnits_sound
    | with_reducible apply emptySet_sound
    | with_reducible apply appendBuilt_sound
    | with_reducible apply sweepGroups_sound
    | with_reducible apply fillSets_sound
    | (with_reducible apply Sound.update; first | with_reducible assumption | with_reducible apply each_sound | with_reducible apply releaseSliceUnits_sound | with_reducible apply emptySet_sound | with_reducible apply appendBuilt_sound | with_reducible apply sweepGroups_sound | with_reducible apply fillSets_sound)
    | (extract_lets +onlyGivenNames x; refine (?_ : Sound qq x → _) ?_; intro _; clear_value x; rotate_left; subst x; rotate_left)
    | (extract_lets +onlyGivenNames x; subst x)
    | split
    | dsimp -zeta only


end Sys2Proof.Machine
end

