-- ==== Sys2Proof/Laws/SoundStripes.lean ====
section
/-!
SUPPORT. Soundness through the operations of Machine/Stripes.lean.
-/

set_option linter.all false

namespace Sys2Proof.Machine

theorem onStripe_sound {qq : List Instr} {n : Nat} {f : Stripe → Stripe} {s : State}  (h_s : Sound qq s) : Sound qq (onStripe n f s) := by
  unfold onStripe
  repeat' first
    | with_reducible assumption
    | intro _
    | with_reducible rfl
    | with_reducible apply Sound.ite
    | with_reducible apply each_sound
    | (with_reducible apply Sound.update; first | with_reducible assumption)
    | (extract_lets +onlyGivenNames x; refine (?_ : Sound qq x → _) ?_; intro _; clear_value x; rotate_left; subst x; rotate_left)
    | (extract_lets +onlyGivenNames x; subst x)
    | split
    | dsimp -zeta only


theorem writeRedPage_sound {qq : List Instr} {s : State}  (h_s : Sound qq s) : Sound qq (writeRedPage s) := by
  unfold writeRedPage
  repeat' first
    | with_reducible assumption
    | intro _
    | with_reducible rfl
    | with_reducible apply Sound.ite
    | with_reducible apply each_sound
    | with_reducible apply takeStamp_snd
    | (with_reducible refine takeStamp_sound (by assumption) ?_)
    | with_reducible apply request_sound
    | (with_reducible apply Sound.update; first | with_reducible assumption | with_reducible apply takeStamp_snd | (with_reducible refine takeStamp_sound (by assumption) ?_) | with_reducible apply request_sound)
    | (extract_lets +onlyGivenNames x; refine (?_ : Sound qq x → _) ?_; intro _; clear_value x; rotate_left; subst x; rotate_left)
    | (extract_lets +onlyGivenNames x; subst x)
    | split
    | dsimp -zeta only


theorem beginReshape_sound {qq : List Instr} {target : Nat} {s : State}  (h_s : Sound qq s) : Sound qq (beginReshape target s) := by
  unfold beginReshape
  repeat' first
    | with_reducible assumption
    | intro _
    | with_reducible rfl
    | with_reducible apply Sound.ite
    | with_reducible apply each_sound
    | with_reducible apply raise_sound
    | (with_reducible apply Sound.update; first | with_reducible assumption | with_reducible apply raise_sound)
    | (extract_lets +onlyGivenNames x; refine (?_ : Sound qq x → _) ?_; intro _; clear_value x; rotate_left; subst x; rotate_left)
    | (extract_lets +onlyGivenNames x; subst x)
    | split
    | dsimp -zeta only


theorem tryReshape_sound {qq : List Instr} {target : Nat} {testSpares : Bool} {s : State}  (h_s : Sound qq s) : Sound qq (tryReshape target testSpares s) := by
  unfold tryReshape
  repeat' first
    | with_reducible assumption
    | intro _
    | with_reducible rfl
    | with_reducible apply Sound.ite
    | with_reducible apply each_sound
    | with_reducible apply beginReshape_sound
    | with_reducible apply raise_sound
    | (with_reducible apply Sound.update; first | with_reducible assumption | with_reducible apply beginReshape_sound | with_reducible apply raise_sound)
    | (extract_lets +onlyGivenNames x; refine (?_ : Sound qq x → _) ?_; intro _; clear_value x; rotate_left; subst x; rotate_left)
    | (extract_lets +onlyGivenNames x; subst x)
    | split
    | dsimp -zeta only


theorem noteShape_sound {qq : List Instr} {s : State}  (h_s : Sound qq s) : Sound qq (noteShape s) := by
  unfold noteShape
  repeat' first
    | with_reducible assumption
    | intro _
    | with_reducible rfl
    | with_reducible apply Sound.ite
    | with_reducible apply each_sound
    | with_reducible apply tryReshape_sound
    | with_reducible apply fatalCondition_sound
    | (with_reducible apply Sound.update; first | with_reducible assumption | with_reducible apply tryReshape_sound | with_reducible apply fatalCondition_sound)
    | (extract_lets +onlyGivenNames x; refine (?_ : Sound qq x → _) ?_; intro _; clear_value x; rotate_left; subst x; rotate_left)
    | (extract_lets +onlyGivenNames x; subst x)
    | split
    | dsimp -zeta only


theorem moveCursor_sound {qq : List Instr} {copy : Bool} {c : Nat} {die : Nat} {s : State}  (h_s : Sound qq s) : Sound qq (moveCursor copy c die s) := by
  unfold moveCursor
  repeat' first
    | with_reducible assumption
    | intro _
    | with_reducible rfl
    | with_reducible apply Sound.ite
    | with_reducible apply each_sound
    | (with_reducible apply Sound.update; first | with_reducible assumption)
    | (extract_lets +onlyGivenNames x; refine (?_ : Sound qq x → _) ?_; intro _; clear_value x; rotate_left; subst x; rotate_left)
    | (extract_lets +onlyGivenNames x; subst x)
    | split
    | dsimp -zeta only


theorem beginCheck_sound {qq : List Instr} {die : Nat} {block : Nat} {s : State}  (h_s : Sound qq s) : Sound qq (beginCheck die block s) := by
  unfold beginCheck
  repeat' first
    | with_reducible assumption
    | intro _
    | with_reducible rfl
    | with_reducible apply Sound.ite
    | with_reducible apply each_sound
    | with_reducible apply addOp_sound
    | (with_reducible apply Sound.update; first | with_reducible assumption | with_reducible apply addOp_sound)
    | (extract_lets +onlyGivenNames x; refine (?_ : Sound qq x → _) ?_; intro _; clear_value x; rotate_left; subst x; rotate_left)
    | (extract_lets +onlyGivenNames x; subst x)
    | split
    | dsimp -zeta only


theorem takeRoom_snd {qq : List Instr} {copy : Bool} {p : Shape} {die : Nat} {s : State}   (h_s : Sound qq s) : Sound qq (takeRoom copy p die s).2 := by
  unfold takeRoom
  repeat' first
    | with_reducible assumption
    | intro _
    | with_reducible rfl
    | with_reducible apply Sound.ite_snd
    | with_reducible apply Sound.ite
    | with_reducible apply each_sound
    | with_reducible apply onBlock_sound
    | with_reducible apply beginCheck_sound
    | (with_reducible apply Sound.update; first | with_reducible assumption | with_reducible apply onBlock_sound | with_reducible apply beginCheck_sound)
    | (extract_lets +onlyGivenNames x; refine (?_ : Sound qq x → _) ?_; intro _; clear_value x; rotate_left; subst x; rotate_left)
    | (extract_lets +onlyGivenNames x; subst x)
    | split
    | dsimp -zeta only

theorem takeRoom_sound {qq : List Instr} {copy : Bool} {p : Shape} {die : Nat} {s : State} {r0 : Option Member} {tt : State} (eqn : takeRoom copy p die s = (r0, tt))  (h_s : Sound qq s) : Sound qq tt := by
  have h := takeRoom_snd (qq := qq) (copy := copy) (p := p) (die := die) (s := s) h_s
  rw [eqn] at h
  exact h

theorem takeMembers_sound {qq : List Instr} {copy : Bool} {p : Shape} {l : List Nat} {s : State}
    {r : Option (List Member)} {tt : State} (eqn : takeMembers copy p l s = (r, tt)) (h : Sound qq s) : Sound qq tt := by
  induction l generalizing s r tt with
  | nil => unfold takeMembers at eqn; cases eqn; exact h
  | cons c l ih =>
    unfold takeMembers at eqn
    split at eqn
    · cases eqn; exact h
    · split at eqn
      · rename_i e1
        cases eqn
        exact takeRoom_sound e1 h
      · rename_i e1
        have h1 := fun d => moveCursor_sound (copy := copy) (c := c) (die := d) (takeRoom_sound e1 h)
        split at eqn
        · rename_i e2
          cases eqn
          exact ih e2 (h1 _)
        · rename_i e2
          cases eqn
          exact ih e2 (h1 _)

theorem openStripe_sound {qq : List Instr} {copy : Bool} {pad : Bool} {s : State}  (h_s : Sound qq s) : Sound qq (openStripe copy pad s) := by
  unfold openStripe
  repeat' first
    | with_reducible assumption
    | intro _
    | with_reducible rfl
    | with_reducible apply Sound.ite
    | with_reducible apply each_sound
    | with_reducible apply noteShape_sound
    | (with_reducible refine takeMembers_sound (by assumption) ?_)
    | with_reducible apply takeStamp_snd
    | (with_reducible refine takeStamp_sound (by assumption) ?_)
    | with_reducible apply each_sound
    | with_reducible apply tslFreeSlot_snd
    | (with_reducible refine tslFreeSlot_sound (by assumption) ?_)
    | with_reducible apply refreshLevels_sound
    | with_reducible apply checkpointTrigger_sound
    | (with_reducible apply Sound.update; first | with_reducible assumption | with_reducible apply noteShape_sound | (with_reducible refine takeMembers_sound (by assumption) ?_) | with_reducible apply takeStamp_snd | (with_reducible refine takeStamp_sound (by assumption) ?_) | with_reducible apply each_sound | with_reducible apply tslFreeSlot_snd | (with_reducible refine tslFreeSlot_sound (by assumption) ?_) | with_reducible apply refreshLevels_sound | with_reducible apply checkpointTrigger_sound)
    | (extract_lets +onlyGivenNames x; refine (?_ : Sound qq x → _) ?_; intro _; clear_value x; rotate_left; subst x; rotate_left)
    | (extract_lets +onlyGivenNames x; subst x)
    | split
    | dsimp -zeta only


theorem issueMember_sound {qq : List Instr} {serial : Nat} {pos : Nat} {s : State}  (h_s : Sound qq s) : Sound qq (issueMember serial pos s) := by
  unfold issueMember
  repeat' first
    | with_reducible assumption
    | intro _
    | with_reducible rfl
    | with_reducible apply Sound.ite
    | with_reducible apply each_sound
    | with_reducible apply addOp_sound
    | with_reducible apply onStripe_sound
    | (with_reducible apply Sound.update; first | with_reducible assumption | with_reducible apply addOp_sound | with_reducible apply onStripe_sound)
    | (extract_lets +onlyGivenNames x; refine (?_ : Sound qq x → _) ?_; intro _; clear_value x; rotate_left; subst x; rotate_left)
    | (extract_lets +onlyGivenNames x; subst x)
    | split
    | dsimp -zeta only


theorem issueFull_sound {qq : List Instr} {serial : Nat} {s : State}  (h_s : Sound qq s) : Sound qq (issueFull serial s) := by
  unfold issueFull
  repeat' first
    | with_reducible assumption
    | intro _
    | with_reducible rfl
    | with_reducible apply Sound.ite
    | with_reducible apply each_sound
    | with_reducible apply each_sound
    | with_reducible apply issueMember_sound
    | (with_reducible apply Sound.update; first | with_reducible assumption | with_reducible apply each_sound | with_reducible apply issueMember_sound)
    | (extract_lets +onlyGivenNames x; refine (?_ : Sound qq x → _) ?_; intro _; clear_value x; rotate_left; subst x; rotate_left)
    | (extract_lets +onlyGivenNames x; subst x)
    | split
    | dsimp -zeta only


theorem finishFilling_sound {qq : List Instr} {serial : Nat} {s : State}  (h_s : Sound qq s) : Sound qq (finishFilling serial s) := by
  unfold finishFilling
  repeat' first
    | with_reducible assumption
    | intro _
    | with_reducible rfl
    | with_reducible apply Sound.ite
    | with_reducible apply each_sound
    | with_reducible apply disarm_sound
    | with_reducible apply each_sound
    | with_reducible apply issueMember_sound
    | (with_reducible apply Sound.update; first | with_reducible assumption | with_reducible apply disarm_sound | with_reducible apply each_sound | with_reducible apply issueMember_sound)
    | (extract_lets +onlyGivenNames x; refine (?_ : Sound qq x → _) ?_; intro _; clear_value x; rotate_left; subst x; rotate_left)
    | (extract_lets +onlyGivenNames x; subst x)
    | split
    | dsimp -zeta only


theorem putUnits_sound {qq : List Instr} {serial : Nat} {l : List UnitSource} {s : State}  (h_s : Sound qq s) : Sound qq (putUnits serial l s) := by
  unfold putUnits
  repeat' first
    | with_reducible assumption
    | intro _
    | with_reducible rfl
    | with_reducible apply Sound.ite
    | with_reducible apply each_sound
    | with_reducible apply onStripe_sound
    | with_reducible apply issueFull_sound
    | with_reducible apply finishFilling_sound
    | (with_reducible apply Sound.update; first | with_reducible assumption | with_reducible apply onStripe_sound | with_reducible apply issueFull_sound | with_reducible apply finishFilling_sound)
    | (extract_lets +onlyGivenNames x; refine (?_ : Sound qq x → _) ?_; intro _; clear_value x; rotate_left; subst x; rotate_left)
    | (extract_lets +onlyGivenNames x; subst x)
    | split
    | dsimp -zeta only


theorem padStripe_sound {qq : List Instr} {serial : Nat} {s : State}  (h_s : Sound qq s) : Sound qq (padStripe serial s) := by
  unfold padStripe
  repeat' first
    | with_reducible assumption
    | intro _
    | with_reducible rfl
    | with_reducible apply Sound.ite
    | with_reducible apply each_sound
    | with_reducible apply putUnits_sound
    | (with_reducible apply Sound.update; first | with_reducible assumption | with_reducible apply putUnits_sound)
    | (extract_lets +onlyGivenNames x; refine (?_ : Sound qq x → _) ?_; intro _; clear_value x; rotate_left; subst x; rotate_left)
    | (extract_lets +onlyGivenNames x; subst x)
    | split
    | dsimp -zeta only


theorem assignUnits_sound {qq : List Instr} {serial : Nat} {l : List HeldUnit} {s : State}  (h_s : Sound qq s) : Sound qq (assignUnits serial l s) := by
  unfold assignUnits
  repeat' first
    | with_reducible assumption
    | intro _
    | with_reducible rfl
    | with_reducible apply Sound.ite
    | with_reducible apply each_sound
    | (with_reducible apply Sound.update; first | with_reducible assumption)
    | (extract_lets +onlyGivenNames x; refine (?_ : Sound qq x → _) ?_; intro _; clear_value x; rotate_left; subst x; rotate_left)
    | (extract_lets +onlyGivenNames x; subst x)
    | split
    | dsimp -zeta only


theorem placeHost_sound {qq : List Instr} {serial : Nat} {l : List HeldUnit} {s : State}  (h_s : Sound qq s) : Sound qq (placeHost serial l s) := by
  unfold placeHost
  repeat' first
    | with_reducible assumption
    | intro _
    | with_reducible rfl
    | with_reducible apply Sound.ite
    | with_reducible apply each_sound
    | with_reducible apply armAt_sound
    | with_reducible apply padStripe_sound
    | with_reducible apply putUnits_sound
    | with_reducible apply assignUnits_sound
    | (with_reducible apply Sound.update; first | with_reducible assumption | with_reducible apply armAt_sound | with_reducible apply padStripe_sound | with_reducible apply putUnits_sound | with_reducible apply assignUnits_sound)
    | (extract_lets +onlyGivenNames x; refine (?_ : Sound qq x → _) ?_; intro _; clear_value x; rotate_left; subst x; rotate_left)
    | (extract_lets +onlyGivenNames x; subst x)
    | split
    | dsimp -zeta only


theorem placeNext_sound {qq : List Instr} {serial : Nat} {s : State}  (h_s : Sound qq s) : Sound qq (placeNext serial s) := by
  unfold placeNext
  repeat' first
    | with_reducible assumption
    | intro _
    | with_reducible rfl
    | with_reducible apply Sound.ite
    | with_reducible apply each_sound
    | with_reducible apply putUnits_sound
    | with_reducible apply padStripe_sound
    | with_reducible apply onStripe_sound
    | with_reducible apply placeHost_sound
    | with_reducible apply takeStamp_snd
    | (with_reducible refine takeStamp_sound (by assumption) ?_)
    | (with_reducible apply Sound.update; first | with_reducible assumption | with_reducible apply putUnits_sound | with_reducible apply padStripe_sound | with_reducible apply onStripe_sound | with_reducible apply placeHost_sound | with_reducible apply takeStamp_snd | (with_reducible refine takeStamp_sound (by assumption) ?_))
    | (extract_lets +onlyGivenNames x; refine (?_ : Sound qq x → _) ?_; intro _; clear_value x; rotate_left; subst x; rotate_left)
    | (extract_lets +onlyGivenNames x; subst x)
    | split
    | dsimp -zeta only


theorem fillHost_sound {qq : List Instr} {n : Nat} {s : State} (h : Sound qq s) : Sound qq (fillHost n s) := by
  induction n generalizing s with
  | zero => exact h
  | succ n ih =>
    unfold fillHost
    split
    · exact h
    · extract_lets +onlyGivenNames x
      have hx : Sound qq x := by
        subst x
        with_reducible apply Sound.ite
        · exact openStripe_sound h
        · exact h
      clear_value x
      split
      · exact ih (placeNext_sound hx)
      · exact hx

theorem placeCopies_sound {qq : List Instr} {serial : Nat} {s : State}  (h_s : Sound qq s) : Sound qq (placeCopies serial s) := by
  unfold placeCopies
  repeat' first
    | with_reducible assumption
    | intro _
    | with_reducible rfl
    | with_reducible apply Sound.ite
    | with_reducible apply each_sound
    | with_reducible apply padStripe_sound
    | with_reducible apply putUnits_sound
    | (with_reducible apply Sound.update; first | with_reducible assumption | with_reducible apply padStripe_sound | with_reducible apply putUnits_sound)
    | (extract_lets +onlyGivenNames x; refine (?_ : Sound qq x → _) ?_; intro _; clear_value x; rotate_left; subst x; rotate_left)
    | (extract_lets +onlyGivenNames x; subst x)
    | split
    | dsimp -zeta only


theorem fillCopy_sound {qq : List Instr} {n : Nat} {s : State} (h : Sound qq s) : Sound qq (fillCopy n s) := by
  induction n generalizing s with
  | zero => exact h
  | succ n ih =>
    unfold fillCopy
    split
    · exact h
    · extract_lets +onlyGivenNames x
      have hx : Sound qq x := by
        subst x
        with_reducible apply Sound.ite
        · exact openStripe_sound h
        · exact h
      clear_value x
      split
      · exact ih (placeCopies_sound hx)
      · exact hx

theorem pump_sound {qq : List Instr} {s : State}  (h_s : Sound qq s) : Sound qq (pump s) := by
  unfold pump
  repeat' first
    | with_reducible assumption
    | intro _
    | with_reducible rfl
    | with_reducible apply Sound.ite
    | with_reducible apply each_sound
    | with_reducible apply fillHost_sound
    | with_reducible apply fillCopy_sound
    | (with_reducible apply Sound.update; first | with_reducible assumption | with_reducible apply fillHost_sound | with_reducible apply fillCopy_sound)
    | (extract_lets +onlyGivenNames x; refine (?_ : Sound qq x → _) ?_; intro _; clear_value x; rotate_left; subst x; rotate_left)
    | (extract_lets +onlyGivenNames x; subst x)
    | split
    | dsimp -zeta only


theorem padCopies_sound {qq : List Instr} {s : State}  (h_s : Sound qq s) : Sound qq (padCopies s) := by
  unfold padCopies
  repeat' first
    | with_reducible assumption
    | intro _
    | with_reducible rfl
    | with_reducible apply Sound.ite
    | with_reducible apply each_sound
    | with_reducible apply padStripe_sound
    | (with_reducible apply Sound.update; first | with_reducible assumption | with_reducible apply padStripe_sound)
    | (extract_lets +onlyGivenNames x; refine (?_ : Sound qq x → _) ?_; intro _; clear_value x; rotate_left; subst x; rotate_left)
    | (extract_lets +onlyGivenNames x; subst x)
    | split
    | dsimp -zeta only


theorem readCopy_sound {qq : List Instr} {stamp : Nat} {g : Nat} {a : Nat} {s : State}  (h_s : Sound qq s) : Sound qq (readCopy stamp g a s) := by
  unfold readCopy
  repeat' first
    | with_reducible assumption
    | intro _
    | with_reducible rfl
    | with_reducible apply Sound.ite
    | with_reducible apply each_sound
    | with_reducible apply addOp_sound
    | with_reducible apply onBlock_sound
    | (with_reducible apply Sound.update; first | with_reducible assumption | with_reducible apply addOp_sound | with_reducible apply onBlock_sound)
    | (extract_lets +onlyGivenNames x; refine (?_ : Sound qq x → _) ?_; intro _; clear_value x; rotate_left; subst x; rotate_left)
    | (extract_lets +onlyGivenNames x; subst x)
    | split
    | dsimp -zeta only


theorem placeAgain_sound {qq : List Instr} {serial : Nat} {u : UnitSource} {s : State}  (h_s : Sound qq s) : Sound qq (placeAgain serial u s) := by
  unfold placeAgain
  repeat' first
    | with_reducible assumption
    | intro _
    | with_reducible rfl
    | with_reducible apply Sound.ite
    | with_reducible apply each_sound
    | with_reducible apply readCopy_sound
    | with_reducible apply dirtyPage_sound
    | (with_reducible apply Sound.update; first | with_reducible assumption | with_reducible apply readCopy_sound | with_reducible apply dirtyPage_sound)
    | (extract_lets +onlyGivenNames x; refine (?_ : Sound qq x → _) ?_; intro _; clear_value x; rotate_left; subst x; rotate_left)
    | (extract_lets +onlyGivenNames x; subst x)
    | split
    | dsimp -zeta only


theorem recordsAgain_sound {qq : List Instr} {serial : Nat} {s : State}  (h_s : Sound qq s) : Sound qq (recordsAgain serial s) := by
  unfold recordsAgain
  repeat' first
    | with_reducible assumption
    | intro _
    | with_reducible rfl
    | with_reducible apply Sound.ite
    | with_reducible apply each_sound
    | (with_reducible apply Sound.update; first | with_reducible assumption)
    | (extract_lets +onlyGivenNames x; refine (?_ : Sound qq x → _) ?_; intro _; clear_value x; rotate_left; subst x; rotate_left)
    | (extract_lets +onlyGivenNames x; subst x)
    | split
    | dsimp -zeta only


theorem dropMembers_sound {qq : List Instr} {serial : Nat} {st : Stripe} {s : State}  (h_s : Sound qq s) : Sound qq (dropMembers serial st s) := by
  unfold dropMembers
  repeat' first
    | with_reducible assumption
    | intro _
    | with_reducible rfl
    | with_reducible apply Sound.ite
    | with_reducible apply each_sound
    | with_reducible apply each_sound
    | with_reducible apply tslRemove_sound
    | (with_reducible apply Sound.update; first | with_reducible assumption | with_reducible apply each_sound | with_reducible apply tslRemove_sound)
    | (extract_lets +onlyGivenNames x; refine (?_ : Sound qq x → _) ?_; intro _; clear_value x; rotate_left; subst x; rotate_left)
    | (extract_lets +onlyGivenNames x; subst x)
    | split
    | dsimp -zeta only


theorem abandonStripe_sound {qq : List Instr} {serial : Nat} {s : State}  (h_s : Sound qq s) : Sound qq (abandonStripe serial s) := by
  unfold abandonStripe
  repeat' first
    | with_reducible assumption
    | intro _
    | with_reducible rfl
    | with_reducible apply Sound.ite
    | with_reducible apply each_sound
    | with_reducible apply onStripe_sound
    | with_reducible apply dropMembers_sound
    | with_reducible apply each_sound
    | with_reducible apply placeAgain_sound
    | with_reducible apply recordsAgain_sound
    | with_reducible apply appendStay_sound
    | with_reducible apply queueBlock_sound
    | with_reducible apply raise_sound
    | (with_reducible apply Sound.update; first | with_reducible assumption | with_reducible apply onStripe_sound | with_reducible apply dropMembers_sound | with_reducible apply each_sound | with_reducible apply placeAgain_sound | with_reducible apply recordsAgain_sound | with_reducible apply appendStay_sound | with_reducible apply queueBlock_sound | with_reducible apply raise_sound)
    | (extract_lets +onlyGivenNames x; refine (?_ : Sound qq x → _) ?_; intro _; clear_value x; rotate_left; subst x; rotate_left)
    | (extract_lets +onlyGivenNames x; subst x)
    | split
    | dsimp -zeta only


theorem programMember_sound {qq : List Instr} {serial : Nat} {pos : Nat} {s : State}  (h_s : Sound qq s) : Sound qq (programMember serial pos s) := by
  unfold programMember
  repeat' first
    | with_reducible assumption
    | intro _
    | with_reducible rfl
    | with_reducible apply Sound.ite
    | with_reducible apply each_sound
    | with_reducible apply each_sound
    | (with_reducible apply Sound.update; first | with_reducible assumption | with_reducible apply each_sound)
    | (extract_lets +onlyGivenNames x; refine (?_ : Sound qq x → _) ?_; intro _; clear_value x; rotate_left; subst x; rotate_left)
    | (extract_lets +onlyGivenNames x; subst x)
    | split
    | dsimp -zeta only


theorem settleStripe_sound {qq : List Instr} {serial : Nat} {s : State}  (h_s : Sound qq s) : Sound qq (settleStripe serial s) := by
  unfold settleStripe
  repeat' first
    | with_reducible assumption
    | intro _
    | with_reducible rfl
    | with_reducible apply Sound.ite
    | with_reducible apply each_sound
    | with_reducible apply abandonStripe_sound
    | with_reducible apply onStripe_sound
    | with_reducible apply dropMembers_sound
    | with_reducible apply appendStay_sound
    | with_reducible apply each_sound
    | with_reducible apply placeAgain_sound
    | with_reducible apply queueBlock_sound
    | with_reducible apply raise_sound
    | (with_reducible apply Sound.update; first | with_reducible assumption | with_reducible apply abandonStripe_sound | with_reducible apply onStripe_sound | with_reducible apply dropMembers_sound | with_reducible apply appendStay_sound | with_reducible apply each_sound | with_reducible apply placeAgain_sound | with_reducible apply queueBlock_sound | with_reducible apply raise_sound)
    | (extract_lets +onlyGivenNames x; refine (?_ : Sound qq x → _) ?_; intro _; clear_value x; rotate_left; subst x; rotate_left)
    | (extract_lets +onlyGivenNames x; subst x)
    | split
    | dsimp -zeta only


theorem closeFull_sound {qq : List Instr} {die : Nat} {block : Nat} {s : State}  (h_s : Sound qq s) : Sound qq (closeFull die block s) := by
  unfold closeFull
  repeat' first
    | with_reducible assumption
    | intro _
    | with_reducible rfl
    | with_reducible apply Sound.ite
    | with_reducible apply each_sound
    | with_reducible apply closeBlock_sound
    | (with_reducible apply Sound.update; first | with_reducible assumption | with_reducible apply closeBlock_sound)
    | (extract_lets +onlyGivenNames x; refine (?_ : Sound qq x → _) ?_; intro _; clear_value x; rotate_left; subst x; rotate_left)
    | (extract_lets +onlyGivenNames x; subst x)
    | split
    | dsimp -zeta only


theorem failMember_sound {qq : List Instr} {error : Bool} {serial : Nat} {pos : Nat} {s : State}  (h_s : Sound qq s) : Sound qq (failMember error serial pos s) := by
  unfold failMember
  repeat' first
    | with_reducible assumption
    | intro _
    | with_reducible rfl
    | with_reducible apply Sound.ite
    | with_reducible apply each_sound
    | with_reducible apply onStripe_sound
    | with_reducible apply takeError_sound
    | with_reducible apply raise_sound
    | with_reducible apply retireBlock_sound
    | with_reducible apply queueBlock_sound
    | (with_reducible apply Sound.update; first | with_reducible assumption | with_reducible apply onStripe_sound | with_reducible apply takeError_sound | with_reducible apply raise_sound | with_reducible apply retireBlock_sound | with_reducible apply queueBlock_sound)
    | (extract_lets +onlyGivenNames x; refine (?_ : Sound qq x → _) ?_; intro _; clear_value x; rotate_left; subst x; rotate_left)
    | (extract_lets +onlyGivenNames x; subst x)
    | split
    | dsimp -zeta only


theorem memberReported_sound {qq : List Instr} {serial : Nat} {pos : Nat} {ok : Bool} {s : State}  (h_s : Sound qq s) : Sound qq (memberReported serial pos ok s) := by
  unfold memberReported
  repeat' first
    | with_reducible assumption
    | intro _
    | with_reducible rfl
    | with_reducible apply Sound.ite
    | with_reducible apply each_sound
    | with_reducible apply programMember_sound
    | with_reducible apply onStripe_sound
    | with_reducible apply failMember_sound
    | with_reducible apply settleStripe_sound
    | with_reducible apply closeFull_sound
    | (with_reducible apply Sound.update; first | with_reducible assumption | with_reducible apply programMember_sound | with_reducible apply onStripe_sound | with_reducible apply failMember_sound | with_reducible apply settleStripe_sound | with_reducible apply closeFull_sound)
    | (extract_lets +onlyGivenNames x; refine (?_ : Sound qq x → _) ?_; intro _; clear_value x; rotate_left; subst x; rotate_left)
    | (extract_lets +onlyGivenNames x; subst x)
    | split
    | dsimp -zeta only


theorem applyHost_sound {qq : List Instr} {k : Nat} {st : Stripe} {s : State}  (h_s : Sound qq s) : Sound qq (applyHost k st s) := by
  unfold applyHost
  repeat' first
    | with_reducible assumption
    | intro _
    | with_reducible rfl
    | with_reducible apply Sound.ite
    | with_reducible apply each_sound
    | with_reducible apply setUnit_sound
    | with_reducible apply raiseHorizon_sound
    | (with_reducible apply Sound.update; first | with_reducible assumption | with_reducible apply setUnit_sound | with_reducible apply raiseHorizon_sound)
    | (extract_lets +onlyGivenNames x; refine (?_ : Sound qq x → _) ?_; intro _; clear_value x; rotate_left; subst x; rotate_left)
    | (extract_lets +onlyGivenNames x; subst x)
    | split
    | dsimp -zeta only


theorem applyKey_sound {qq : List Instr} {st : Stripe} {k : Nat} {s : State}  (h_s : Sound qq s) : Sound qq (applyKey st k s) := by
  unfold applyKey
  repeat' first
    | with_reducible assumption
    | intro _
    | with_reducible rfl
    | with_reducible apply Sound.ite
    | with_reducible apply each_sound
    | with_reducible apply applyRecord_sound
    | with_reducible apply leaveRecord_sound
    | with_reducible apply applyHost_sound
    | (with_reducible apply Sound.update; first | with_reducible assumption | with_reducible apply applyRecord_sound | with_reducible apply leaveRecord_sound | with_reducible apply applyHost_sound)
    | (extract_lets +onlyGivenNames x; refine (?_ : Sound qq x → _) ?_; intro _; clear_value x; rotate_left; subst x; rotate_left)
    | (extract_lets +onlyGivenNames x; subst x)
    | split
    | dsimp -zeta only


theorem applyCopy_sound {qq : List Instr} {st : Stripe} {u : Nat} {s : State}  (h_s : Sound qq s) : Sound qq (applyCopy st u s) := by
  unfold applyCopy
  repeat' first
    | with_reducible assumption
    | intro _
    | with_reducible rfl
    | with_reducible apply Sound.ite
    | with_reducible apply each_sound
    | with_reducible apply setUnit_sound
    | with_reducible apply moveValid_sound
    | (with_reducible apply Sound.update; first | with_reducible assumption | with_reducible apply setUnit_sound | with_reducible apply moveValid_sound)
    | (extract_lets +onlyGivenNames x; refine (?_ : Sound qq x → _) ?_; intro _; clear_value x; rotate_left; subst x; rotate_left)
    | (extract_lets +onlyGivenNames x; subst x)
    | split
    | dsimp -zeta only


theorem dropBuffered_sound {qq : List Instr} {u : UnitSource} {s : State}  (h_s : Sound qq s) : Sound qq (dropBuffered u s) := by
  unfold dropBuffered
  repeat' first
    | with_reducible assumption
    | intro _
    | with_reducible rfl
    | with_reducible apply Sound.ite
    | with_reducible apply each_sound
    | (with_reducible apply Sound.update; first | with_reducible assumption)
    | (extract_lets +onlyGivenNames x; refine (?_ : Sound qq x → _) ?_; intro _; clear_value x; rotate_left; subst x; rotate_left)
    | (extract_lets +onlyGivenNames x; subst x)
    | split
    | dsimp -zeta only


theorem applyStripe_sound {qq : List Instr} {serial : Nat} {s : State}  (h_s : Sound qq s) : Sound qq (applyStripe serial s) := by
  unfold applyStripe
  repeat' first
    | with_reducible assumption
    | intro _
    | with_reducible rfl
    | with_reducible apply Sound.ite
    | with_reducible apply each_sound
    | with_reducible apply each_sound
    | with_reducible apply applyKey_sound
    | with_reducible apply applyCopy_sound
    | with_reducible apply onStripe_sound
    | with_reducible apply dropBuffered_sound
    | with_reducible apply releaseDurable_sound
    | with_reducible apply hurryStays_sound
    | (with_reducible apply Sound.update; first | with_reducible assumption | with_reducible apply each_sound | with_reducible apply applyKey_sound | with_reducible apply applyCopy_sound | with_reducible apply onStripe_sound | with_reducible apply dropBuffered_sound | with_reducible apply releaseDurable_sound | with_reducible apply hurryStays_sound)
    | (extract_lets +onlyGivenNames x; refine (?_ : Sound qq x → _) ?_; intro _; clear_value x; rotate_left; subst x; rotate_left)
    | (extract_lets +onlyGivenNames x; subst x)
    | split
    | dsimp -zeta only


theorem markUnreadable_sound {qq : List Instr} {g : Nat} {cause : Nat} {s : State}  (h_s : Sound qq s) : Sound qq (markUnreadable g cause s) := by
  unfold markUnreadable
  repeat' first
    | with_reducible assumption
    | intro _
    | with_reducible rfl
    | with_reducible apply Sound.ite
    | with_reducible apply each_sound
    | with_reducible apply takeStamp_snd
    | (with_reducible refine takeStamp_sound (by assumption) ?_)
    | with_reducible apply holdMapRecord_sound
    | (with_reducible apply Sound.update; first | with_reducible assumption | with_reducible apply takeStamp_snd | (with_reducible refine takeStamp_sound (by assumption) ?_) | with_reducible apply holdMapRecord_sound)
    | (extract_lets +onlyGivenNames x; refine (?_ : Sound qq x → _) ?_; intro _; clear_value x; rotate_left; subst x; rotate_left)
    | (extract_lets +onlyGivenNames x; subst x)
    | split
    | dsimp -zeta only


theorem lostEvent_sound {qq : List Instr} {r : Rescue} {s : State}  (h_s : Sound qq s) : Sound qq (lostEvent r s) := by
  unfold lostEvent
  repeat' first
    | with_reducible assumption
    | intro _
    | with_reducible rfl
    | with_reducible apply Sound.ite
    | with_reducible apply each_sound
    | with_reducible apply request_sound
    | (with_reducible apply Sound.update; first | with_reducible assumption | with_reducible apply request_sound)
    | (extract_lets +onlyGivenNames x; refine (?_ : Sound qq x → _) ?_; intro _; clear_value x; rotate_left; subst x; rotate_left)
    | (extract_lets +onlyGivenNames x; subst x)
    | split
    | dsimp -zeta only


theorem endRescue_sound {qq : List Instr} {serial : Nat} {s : State}  (h_s : Sound qq s) : Sound qq (endRescue serial s) := by
  unfold endRescue
  repeat' first
    | with_reducible assumption
    | intro _
    | with_reducible rfl
    | with_reducible apply Sound.ite
    | with_reducible apply each_sound
    | with_reducible apply appendStay_sound
    | with_reducible apply reportRefresh_sound
    | with_reducible apply lostEvent_sound
    | (with_reducible apply Sound.update; first | with_reducible assumption | with_reducible apply appendStay_sound | with_reducible apply reportRefresh_sound | with_reducible apply lostEvent_sound)
    | (extract_lets +onlyGivenNames x; refine (?_ : Sound qq x → _) ?_; intro _; clear_value x; rotate_left; subst x; rotate_left)
    | (extract_lets +onlyGivenNames x; subst x)
    | split
    | dsimp -zeta only


theorem startRescue_sound {qq : List Instr} {stamp : Nat} {serial : Nat} {s : State}  (h_s : Sound qq s) : Sound qq (startRescue stamp serial s) := by
  unfold startRescue
  repeat' first
    | with_reducible assumption
    | intro _
    | with_reducible rfl
    | with_reducible apply Sound.ite
    | with_reducible apply each_sound
    | with_reducible apply endRescue_sound
    | with_reducible apply each_sound
    | with_reducible apply readCopy_sound
    | (with_reducible apply Sound.update; first | with_reducible assumption | with_reducible apply endRescue_sound | with_reducible apply each_sound | with_reducible apply readCopy_sound)
    | (extract_lets +onlyGivenNames x; refine (?_ : Sound qq x → _) ?_; intro _; clear_value x; rotate_left; subst x; rotate_left)
    | (extract_lets +onlyGivenNames x; subst x)
    | split
    | dsimp -zeta only


theorem loseStripe_sound {qq : List Instr} {serial : Nat} {s : State}  (h_s : Sound qq s) : Sound qq (loseStripe serial s) := by
  unfold loseStripe
  repeat' first
    | with_reducible assumption
    | intro _
    | with_reducible rfl
    | with_reducible apply Sound.ite
    | with_reducible apply each_sound
    | with_reducible apply abandonStripe_sound
    | with_reducible apply takeStamp_snd
    | (with_reducible refine takeStamp_sound (by assumption) ?_)
    | with_reducible apply onStripe_sound
    | with_reducible apply startRescue_sound
    | (with_reducible apply Sound.update; first | with_reducible assumption | with_reducible apply abandonStripe_sound | with_reducible apply takeStamp_snd | (with_reducible refine takeStamp_sound (by assumption) ?_) | with_reducible apply onStripe_sound | with_reducible apply startRescue_sound)
    | (extract_lets +onlyGivenNames x; refine (?_ : Sound qq x → _) ?_; intro _; clear_value x; rotate_left; subst x; rotate_left)
    | (extract_lets +onlyGivenNames x; subst x)
    | split
    | dsimp -zeta only


theorem escalate_sound {qq : List Instr} {s : State}  (h_s : Sound qq s) : Sound qq (escalate s) := by
  unfold escalate
  repeat' first
    | with_reducible assumption
    | intro _
    | with_reducible rfl
    | with_reducible apply Sound.ite
    | with_reducible apply each_sound
    | with_reducible apply each_sound
    | with_reducible apply loseStripe_sound
    | (with_reducible apply Sound.update; first | with_reducible assumption | with_reducible apply each_sound | with_reducible apply loseStripe_sound)
    | (extract_lets +onlyGivenNames x; refine (?_ : Sound qq x → _) ?_; intro _; clear_value x; rotate_left; subst x; rotate_left)
    | (extract_lets +onlyGivenNames x; subst x)
    | split
    | dsimp -zeta only


theorem moveMembers_sound {qq : List Instr} {die : Nat} {serial : Nat} {s : State}  (h_s : Sound qq s) : Sound qq (moveMembers die serial s) := by
  unfold moveMembers
  repeat' first
    | with_reducible assumption
    | intro _
    | with_reducible rfl
    | with_reducible apply Sound.ite
    | with_reducible apply each_sound
    | with_reducible apply each_sound
    | with_reducible apply failMember_sound
    | with_reducible apply takeRoom_snd
    | (with_reducible refine takeRoom_sound (by assumption) ?_)
    | with_reducible apply onStripe_sound
    | with_reducible apply moveCursor_sound
    | with_reducible apply issueFull_sound
    | with_reducible apply issueMember_sound
    | with_reducible apply settleStripe_sound
    | (with_reducible apply Sound.update; first | with_reducible assumption | with_reducible apply each_sound | with_reducible apply failMember_sound | with_reducible apply takeRoom_snd | (with_reducible refine takeRoom_sound (by assumption) ?_) | with_reducible apply onStripe_sound | with_reducible apply moveCursor_sound | with_reducible apply issueFull_sound | with_reducible apply issueMember_sound | with_reducible apply settleStripe_sound)
    | (extract_lets +onlyGivenNames x; refine (?_ : Sound qq x → _) ?_; intro _; clear_value x; rotate_left; subst x; rotate_left)
    | (extract_lets +onlyGivenNames x; subst x)
    | split
    | dsimp -zeta only


theorem dieFails_sound {qq : List Instr} {error : Bool} {die : Nat} {cause : Nat} {s : State}  (h_s : Sound qq s) : Sound qq (dieFails error die cause s) := by
  unfold dieFails
  repeat' first
    | with_reducible assumption
    | intro _
    | with_reducible rfl
    | with_reducible apply Sound.ite
    | with_reducible apply each_sound
    | with_reducible apply onDie_sound
    | with_reducible apply writeRedPage_sound
    | with_reducible apply each_sound
    | with_reducible apply moveMembers_sound
    | with_reducible apply dropStaysOn_sound
    | with_reducible apply recount_sound
    | with_reducible apply dropSetsOn_sound
    | with_reducible apply takeError_sound
    | with_reducible apply raise_sound
    | with_reducible apply noteShape_sound
    | with_reducible apply noteHealth_sound
    | (with_reducible apply Sound.update; first | with_reducible assumption | with_reducible apply onDie_sound | with_reducible apply writeRedPage_sound | with_reducible apply each_sound | with_reducible apply moveMembers_sound | with_reducible apply dropStaysOn_sound | with_reducible apply recount_sound | with_reducible apply dropSetsOn_sound | with_reducible apply takeError_sound | with_reducible apply raise_sound | with_reducible apply noteShape_sound | with_reducible apply noteHealth_sound)
    | (extract_lets +onlyGivenNames x; refine (?_ : Sound qq x → _) ?_; intro _; clear_value x; rotate_left; subst x; rotate_left)
    | (extract_lets +onlyGivenNames x; subst x)
    | split
    | dsimp -zeta only


theorem failDie_sound {qq : List Instr} {die : Nat} {cause : Nat} {s : State}  (h_s : Sound qq s) : Sound qq (failDie die cause s) := by
  unfold failDie
  repeat' first
    | with_reducible assumption
    | intro _
    | with_reducible rfl
    | with_reducible apply Sound.ite
    | with_reducible apply each_sound
    | with_reducible apply dieFails_sound
    | (with_reducible apply Sound.update; first | with_reducible assumption | with_reducible apply dieFails_sound)
    | (extract_lets +onlyGivenNames x; refine (?_ : Sound qq x → _) ?_; intro _; clear_value x; rotate_left; subst x; rotate_left)
    | (extract_lets +onlyGivenNames x; subst x)
    | split
    | dsimp -zeta only


theorem failDies_sound {qq : List Instr} {dies : List Nat} {cause : Nat} {s : State}  (h_s : Sound qq s) : Sound qq (failDies dies cause s) := by
  unfold failDies
  repeat' first
    | with_reducible assumption
    | intro _
    | with_reducible rfl
    | with_reducible apply Sound.ite
    | with_reducible apply each_sound
    | with_reducible apply each_sound
    | with_reducible apply dieFails_sound
    | (with_reducible apply Sound.update; first | with_reducible assumption | with_reducible apply each_sound | with_reducible apply dieFails_sound)
    | (extract_lets +onlyGivenNames x; refine (?_ : Sound qq x → _) ?_; intro _; clear_value x; rotate_left; subst x; rotate_left)
    | (extract_lets +onlyGivenNames x; subst x)
    | split
    | dsimp -zeta only


theorem checkRetired_sound {qq : List Instr} {die : Nat} {s : State}  (h_s : Sound qq s) : Sound qq (checkRetired die s) := by
  unfold checkRetired
  repeat' first
    | with_reducible assumption
    | intro _
    | with_reducible rfl
    | with_reducible apply Sound.ite
    | with_reducible apply each_sound
    | with_reducible apply failDie_sound
    | (with_reducible apply Sound.update; first | with_reducible assumption | with_reducible apply failDie_sound)
    | (extract_lets +onlyGivenNames x; refine (?_ : Sound qq x → _) ?_; intro _; clear_value x; rotate_left; subst x; rotate_left)
    | (extract_lets +onlyGivenNames x; subst x)
    | split
    | dsimp -zeta only


theorem retryMoves_sound {qq : List Instr} {s : State}  (h_s : Sound qq s) : Sound qq (retryMoves s) := by
  unfold retryMoves
  repeat' first
    | with_reducible assumption
    | intro _
    | with_reducible rfl
    | with_reducible apply Sound.ite
    | with_reducible apply each_sound
    | with_reducible apply each_sound
    | with_reducible apply moveMembers_sound
    | (with_reducible apply Sound.update; first | with_reducible assumption | with_reducible apply each_sound | with_reducible apply moveMembers_sound)
    | (extract_lets +onlyGivenNames x; refine (?_ : Sound qq x → _) ?_; intro _; clear_value x; rotate_left; subst x; rotate_left)
    | (extract_lets +onlyGivenNames x; subst x)
    | split
    | dsimp -zeta only


end Sys2Proof.Machine
end

