-- ==== Sys2Proof/Laws/SoundLbaOps.lean ====
section
/-!
SUPPORT. Soundness through the operations of Machine/LbaOps.lean.
-/

set_option linter.all false

namespace Sys2Proof.Machine

theorem onNamespace_sound {qq : List Instr} {i : Nat} {f : Namespace → Namespace} {s : State}  (h_s : Sound qq s) : Sound qq (onNamespace i f s) := by
  unfold onNamespace
  repeat' first
    | with_reducible assumption
    | intro _
    | with_reducible rfl
    | with_reducible apply Sound.ite
    | with_reducible apply each_sound
    | (with_reducible apply Sound.update; first | with_reducible assumption)
    | (extract_lets +onlyGivenNames x; refine (?_ : Sound qq x → _) ?_; intro _; clear_value x; rotate_left; subst x; rotate_left)
    | (extract_lets +onlyGivenNames x; subst x)
    | split
    | dsimp -zeta only


theorem countXts_sound {qq : List Instr} {n : Nat} {s : State}  (h_s : Sound qq s) : Sound qq (countXts n s) := by
  unfold countXts
  repeat' first
    | with_reducible assumption
    | intro _
    | with_reducible rfl
    | with_reducible apply Sound.ite
    | with_reducible apply each_sound
    | (with_reducible apply Sound.update; first | with_reducible assumption)
    | (extract_lets +onlyGivenNames x; refine (?_ : Sound qq x → _) ?_; intro _; clear_value x; rotate_left; subst x; rotate_left)
    | (extract_lets +onlyGivenNames x; subst x)
    | split
    | dsimp -zeta only


theorem readsEnd_sound {qq : List Instr} {t : Nat} {s : State}  (h_s : Sound qq s) : Sound qq (readsEnd t s) := by
  unfold readsEnd
  repeat' first
    | with_reducible assumption
    | intro _
    | with_reducible rfl
    | with_reducible apply Sound.ite
    | with_reducible apply each_sound
    | with_reducible apply finishEntry_sound
    | with_reducible apply onEntry_sound
    | (with_reducible apply Sound.update; first | with_reducible assumption | with_reducible apply finishEntry_sound | with_reducible apply onEntry_sound)
    | (extract_lets +onlyGivenNames x; refine (?_ : Sound qq x → _) ?_; intro _; clear_value x; rotate_left; subst x; rotate_left)
    | (extract_lets +onlyGivenNames x; subst x)
    | split
    | dsimp -zeta only


theorem unitRead_sound {qq : List Instr} {t : Nat} {g : Nat} {unit : Nat} {b : Bytes} {s : State}  (h_s : Sound qq s) : Sound qq (unitRead t g unit b s) := by
  unfold unitRead
  repeat' first
    | with_reducible assumption
    | intro _
    | with_reducible rfl
    | with_reducible apply Sound.ite
    | with_reducible apply each_sound
    | with_reducible apply readsEnd_sound
    | with_reducible apply onEntry_sound
    | (with_reducible apply Sound.update; first | with_reducible assumption | with_reducible apply readsEnd_sound | with_reducible apply onEntry_sound)
    | (extract_lets +onlyGivenNames x; refine (?_ : Sound qq x → _) ?_; intro _; clear_value x; rotate_left; subst x; rotate_left)
    | (extract_lets +onlyGivenNames x; subst x)
    | split
    | dsimp -zeta only


theorem unitFailed_sound {qq : List Instr} {t : Nat} {unit : Nat} {status : Nat} {s : State}  (h_s : Sound qq s) : Sound qq (unitFailed t unit status s) := by
  unfold unitFailed
  repeat' first
    | with_reducible assumption
    | intro _
    | with_reducible rfl
    | with_reducible apply Sound.ite
    | with_reducible apply each_sound
    | with_reducible apply onEntry_sound
    | with_reducible apply finishEntry_sound
    | (with_reducible apply Sound.update; first | with_reducible assumption | with_reducible apply onEntry_sound | with_reducible apply finishEntry_sound)
    | (extract_lets +onlyGivenNames x; refine (?_ : Sound qq x → _) ?_; intro _; clear_value x; rotate_left; subst x; rotate_left)
    | (extract_lets +onlyGivenNames x; subst x)
    | split
    | dsimp -zeta only


theorem endServed_sound {qq : List Instr} {t : Nat} {s : State}  (h_s : Sound qq s) : Sound qq (endServed t s) := by
  unfold endServed
  repeat' first
    | with_reducible assumption
    | intro _
    | with_reducible rfl
    | with_reducible apply Sound.ite
    | with_reducible apply each_sound
    | (with_reducible apply Sound.update; first | with_reducible assumption)
    | (extract_lets +onlyGivenNames x; refine (?_ : Sound qq x → _) ?_; intro _; clear_value x; rotate_left; subst x; rotate_left)
    | (extract_lets +onlyGivenNames x; subst x)
    | split
    | dsimp -zeta only


theorem deliverUnit_sound {qq : List Instr} {t : Nat} {g : Nat} {unit : Nat} {f : Option Frame} {s : State}  (h_s : Sound qq s) : Sound qq (deliverUnit t g unit f s) := by
  unfold deliverUnit
  repeat' first
    | with_reducible assumption
    | intro _
    | with_reducible rfl
    | with_reducible apply Sound.ite
    | with_reducible apply each_sound
    | with_reducible apply endServed_sound
    | with_reducible apply sendFrame_sound
    | with_reducible apply onEntry_sound
    | with_reducible apply unitFailed_sound
    | with_reducible apply unitRead_sound
    | with_reducible apply countXts_sound
    | (with_reducible apply Sound.update; first | with_reducible assumption | with_reducible apply endServed_sound | with_reducible apply sendFrame_sound | with_reducible apply onEntry_sound | with_reducible apply unitFailed_sound | with_reducible apply unitRead_sound | with_reducible apply countXts_sound)
    | (extract_lets +onlyGivenNames x; refine (?_ : Sound qq x → _) ?_; intro _; clear_value x; rotate_left; subst x; rotate_left)
    | (extract_lets +onlyGivenNames x; subst x)
    | split
    | dsimp -zeta only


theorem unitLost_sound {qq : List Instr} {t : Nat} {g : Nat} {s : State}  (h_s : Sound qq s) : Sound qq (unitLost t g s) := by
  unfold unitLost
  repeat' first
    | with_reducible assumption
    | intro _
    | with_reducible rfl
    | with_reducible apply Sound.ite
    | with_reducible apply each_sound
    | with_reducible apply sendFrame_sound
    | with_reducible apply unitFailed_sound
    | (with_reducible apply Sound.update; first | with_reducible assumption | with_reducible apply sendFrame_sound | with_reducible apply unitFailed_sound)
    | (extract_lets +onlyGivenNames x; refine (?_ : Sound qq x → _) ?_; intro _; clear_value x; rotate_left; subst x; rotate_left)
    | (extract_lets +onlyGivenNames x; subst x)
    | split
    | dsimp -zeta only


end Sys2Proof.Machine
end

