-- ==== Sys2Proof/Laws/SoundReads.lean ====
section
/-!
SUPPORT. Soundness through the operations of Machine/Reads.lean.
-/

set_option linter.all false

namespace Sys2Proof.Machine

theorem issueReads_sound {qq : List Instr} {stamp : Nat} {own : List (Nat × Nat) → OpOwner} {l : List (Nat × Nat)} {s : State}  (h_s : Sound qq s) : Sound qq (issueReads stamp own l s) := by
  unfold issueReads
  repeat' first
    | with_reducible assumption
    | intro _
    | with_reducible rfl
    | with_reducible apply Sound.ite
    | with_reducible apply each_sound
    | with_reducible apply each_sound
    | with_reducible apply addOp_sound
    | with_reducible apply onBlock_sound
    | (with_reducible apply Sound.update; first | with_reducible assumption | with_reducible apply each_sound | with_reducible apply addOp_sound | with_reducible apply onBlock_sound)
    | (extract_lets +onlyGivenNames x; refine (?_ : Sound qq x → _) ?_; intro _; clear_value x; rotate_left; subst x; rotate_left)
    | (extract_lets +onlyGivenNames x; subst x)
    | split
    | dsimp -zeta only


theorem askFrames_sound {qq : List Instr} {id : Nat} {r : Recon} {st : Stripe} {members : List Nat} {s : State}  (h_s : Sound qq s) : Sound qq (askFrames id r st members s) := by
  unfold askFrames
  repeat' first
    | with_reducible assumption
    | intro _
    | with_reducible rfl
    | with_reducible apply Sound.ite
    | with_reducible apply each_sound
    | with_reducible apply each_sound
    | with_reducible apply issueReads_sound
    | (with_reducible apply Sound.update; first | with_reducible assumption | with_reducible apply each_sound | with_reducible apply issueReads_sound)
    | (extract_lets +onlyGivenNames x; refine (?_ : Sound qq x → _) ?_; intro _; clear_value x; rotate_left; subst x; rotate_left)
    | (extract_lets +onlyGivenNames x; subst x)
    | split
    | dsimp -zeta only


theorem losePage_sound {qq : List Instr} {page : Nat} {s : State}  (h_s : Sound qq s) : Sound qq (losePage page s) := by
  unfold losePage
  repeat' first
    | with_reducible assumption
    | intro _
    | with_reducible rfl
    | with_reducible apply Sound.ite
    | with_reducible apply each_sound
    | with_reducible apply each_sound
    | with_reducible apply unitLost_sound
    | (with_reducible apply Sound.update; first | with_reducible assumption | with_reducible apply each_sound | with_reducible apply unitLost_sound)
    | (extract_lets +onlyGivenNames x; refine (?_ : Sound qq x → _) ?_; intro _; clear_value x; rotate_left; subst x; rotate_left)
    | (extract_lets +onlyGivenNames x; subst x)
    | split
    | dsimp -zeta only


theorem notRecoverable_sound {qq : List Instr} {r : Recon} {s : State}  (h_s : Sound qq s) : Sound qq (notRecoverable r s) := by
  unfold notRecoverable
  repeat' first
    | with_reducible assumption
    | intro _
    | with_reducible rfl
    | with_reducible apply Sound.ite
    | with_reducible apply each_sound
    | with_reducible apply markUnreadable_sound
    | with_reducible apply escalate_sound
    | with_reducible apply loseStripe_sound
    | with_reducible apply takeError_sound
    | with_reducible apply unitLost_sound
    | with_reducible apply endRescue_sound
    | with_reducible apply losePage_sound
    | (with_reducible apply Sound.update; first | with_reducible assumption | with_reducible apply markUnreadable_sound | with_reducible apply escalate_sound | with_reducible apply loseStripe_sound | with_reducible apply takeError_sound | with_reducible apply unitLost_sound | with_reducible apply endRescue_sound | with_reducible apply losePage_sound)
    | (extract_lets +onlyGivenNames x; refine (?_ : Sound qq x → _) ?_; intro _; clear_value x; rotate_left; subst x; rotate_left)
    | (extract_lets +onlyGivenNames x; subst x)
    | split
    | dsimp -zeta only


theorem beginRecon_sound {qq : List Instr} {stamp : Nat} {use : ReconUse} {a : Nat} {s : State}  (h_s : Sound qq s) : Sound qq (beginRecon stamp use a s) := by
  unfold beginRecon
  repeat' first
    | with_reducible assumption
    | intro _
    | with_reducible rfl
    | with_reducible apply Sound.ite
    | with_reducible apply each_sound
    | with_reducible apply notRecoverable_sound
    | with_reducible apply askFrames_sound
    | (with_reducible apply Sound.update; first | with_reducible assumption | with_reducible apply notRecoverable_sound | with_reducible apply askFrames_sound)
    | (extract_lets +onlyGivenNames x; refine (?_ : Sound qq x → _) ?_; intro _; clear_value x; rotate_left; subst x; rotate_left)
    | (extract_lets +onlyGivenNames x; subst x)
    | split
    | dsimp -zeta only


theorem reportAt_sound {qq : List Instr} {a : Nat} {s : State}  (h_s : Sound qq s) : Sound qq (reportAt a s) := by
  unfold reportAt
  repeat' first
    | with_reducible assumption
    | intro _
    | with_reducible rfl
    | with_reducible apply Sound.ite
    | with_reducible apply each_sound
    | with_reducible apply reportRefresh_sound
    | (with_reducible apply Sound.update; first | with_reducible assumption | with_reducible apply reportRefresh_sound)
    | (extract_lets +onlyGivenNames x; refine (?_ : Sound qq x → _) ?_; intro _; clear_value x; rotate_left; subst x; rotate_left)
    | (extract_lets +onlyGivenNames x; subst x)
    | split
    | dsimp -zeta only


theorem enqueueCopy_sound {qq : List Instr} {front : Bool} {g : Nat} {a : Nat} {f : FlashUnit} {s : State}  (h_s : Sound qq s) : Sound qq (enqueueCopy front g a f s) := by
  unfold enqueueCopy
  repeat' first
    | with_reducible assumption
    | intro _
    | with_reducible rfl
    | with_reducible apply Sound.ite
    | with_reducible apply each_sound
    | (with_reducible apply Sound.update; first | with_reducible assumption)
    | (extract_lets +onlyGivenNames x; refine (?_ : Sound qq x → _) ?_; intro _; clear_value x; rotate_left; subst x; rotate_left)
    | (extract_lets +onlyGivenNames x; subst x)
    | split
    | dsimp -zeta only


theorem serveUnit_sound {qq : List Instr} {t : Nat} {g : Nat} {f : Option FlashUnit} {again : State → State} {s : State} (hagain : ∀ a0, Sound qq a0 → Sound qq (again a0)) (h_s : Sound qq s) : Sound qq (serveUnit t g f again s) := by
  unfold serveUnit
  repeat' first
    | with_reducible assumption
    | intro _
    | with_reducible rfl
    | with_reducible apply Sound.ite
    | with_reducible apply each_sound
    | with_reducible apply deliverUnit_sound
    | with_reducible apply unitLost_sound
    | with_reducible apply takeCommandError_sound
    | with_reducible apply hagain
    | (with_reducible apply Sound.update; first | with_reducible assumption | with_reducible apply deliverUnit_sound | with_reducible apply unitLost_sound | with_reducible apply takeCommandError_sound | with_reducible apply hagain)
    | (extract_lets +onlyGivenNames x; refine (?_ : Sound qq x → _) ?_; intro _; clear_value x; rotate_left; subst x; rotate_left)
    | (extract_lets +onlyGivenNames x; subst x)
    | split
    | dsimp -zeta only


theorem serveHost_sound {qq : List Instr} {t : Nat} {g : Nat} {a : Nat} {again : State → State} {s : State} (hagain : ∀ a0, Sound qq a0 → Sound qq (again a0)) (h_s : Sound qq s) : Sound qq (serveHost t g a again s) := by
  unfold serveHost
  repeat' first
    | with_reducible assumption
    | intro _
    | with_reducible rfl
    | with_reducible apply Sound.ite
    | with_reducible apply each_sound
    | with_reducible apply serveUnit_sound
    | with_reducible apply hagain
    | (with_reducible apply Sound.update; first | with_reducible assumption | with_reducible apply serveUnit_sound | with_reducible apply hagain)
    | (extract_lets +onlyGivenNames x; refine (?_ : Sound qq x → _) ?_; intro _; clear_value x; rotate_left; subst x; rotate_left)
    | (extract_lets +onlyGivenNames x; subst x)
    | split
    | dsimp -zeta only


theorem readPage_sound {qq : List Instr} {stamp : Nat} {page : Nat} {s : State}  (h_s : Sound qq s) : Sound qq (readPage stamp page s) := by
  unfold readPage
  repeat' first
    | with_reducible assumption
    | intro _
    | with_reducible rfl
    | with_reducible apply Sound.ite
    | with_reducible apply each_sound
    | with_reducible apply touchPage_sound
    | with_reducible apply issueReads_sound
    | (with_reducible apply Sound.update; first | with_reducible assumption | with_reducible apply touchPage_sound | with_reducible apply issueReads_sound)
    | (extract_lets +onlyGivenNames x; refine (?_ : Sound qq x → _) ?_; intro _; clear_value x; rotate_left; subst x; rotate_left)
    | (extract_lets +onlyGivenNames x; subst x)
    | split
    | dsimp -zeta only


theorem noteStream_sound {qq : List Instr} {ns : Nat} {first : Nat} {count : Nat} {s : State}  (h_s : Sound qq s) : Sound qq (noteStream ns first count s) := by
  unfold noteStream
  repeat' first
    | with_reducible assumption
    | intro _
    | with_reducible rfl
    | with_reducible apply Sound.ite
    | with_reducible apply each_sound
    | with_reducible apply arm_sound
    | (with_reducible apply Sound.update; first | with_reducible assumption | with_reducible apply arm_sound)
    | (extract_lets +onlyGivenNames x; refine (?_ : Sound qq x → _) ?_; intro _; clear_value x; rotate_left; subst x; rotate_left)
    | (extract_lets +onlyGivenNames x; subst x)
    | split
    | dsimp -zeta only


theorem noteStreamSlot_sound {qq : List Instr} {ns : Nat} {l : List (Nat × Nat)} {s : State}  (h_s : Sound qq s) : Sound qq (noteStreamSlot ns l s) := by
  unfold noteStreamSlot
  repeat' first
    | with_reducible assumption
    | intro _
    | with_reducible rfl
    | with_reducible apply Sound.ite
    | with_reducible apply each_sound
    | (with_reducible apply Sound.update; first | with_reducible assumption)
    | (extract_lets +onlyGivenNames x; refine (?_ : Sound qq x → _) ?_; intro _; clear_value x; rotate_left; subst x; rotate_left)
    | (extract_lets +onlyGivenNames x; subst x)
    | split
    | dsimp -zeta only


theorem speculate_sound {qq : List Instr} {t : Nat} {stamp : Nat} {ns : Nat} {reef : Nat} {units : List Nat} {s : State}  (h_s : Sound qq s) : Sound qq (speculate t stamp ns reef units s) := by
  unfold speculate
  repeat' first
    | with_reducible assumption
    | intro _
    | with_reducible rfl
    | with_reducible apply Sound.ite
    | with_reducible apply each_sound
    | with_reducible apply issueReads_sound
    | with_reducible apply dropHint_sound
    | (with_reducible apply Sound.update; first | with_reducible assumption | with_reducible apply issueReads_sound | with_reducible apply dropHint_sound)
    | (extract_lets +onlyGivenNames x; refine (?_ : Sound qq x → _) ?_; intro _; clear_value x; rotate_left; subst x; rotate_left)
    | (extract_lets +onlyGivenNames x; subst x)
    | split
    | dsimp -zeta only


theorem readUnits_sound {qq : List Instr} {t : Nat} {units : List Nat} {s : State}  (h_s : Sound qq s) : Sound qq (readUnits t units s) := by
  unfold readUnits
  repeat' first
    | with_reducible assumption
    | intro _
    | with_reducible rfl
    | with_reducible apply Sound.ite
    | with_reducible apply each_sound
    | with_reducible apply noteStreamSlot_sound
    | with_reducible apply each_sound
    | with_reducible apply deliverUnit_sound
    | with_reducible apply unitLost_sound
    | with_reducible apply beginRecon_sound
    | with_reducible apply issueReads_sound
    | with_reducible apply readPage_sound
    | with_reducible apply speculate_sound
    | (with_reducible apply Sound.update; first | with_reducible assumption | with_reducible apply noteStreamSlot_sound | with_reducible apply each_sound | with_reducible apply deliverUnit_sound | with_reducible apply unitLost_sound | with_reducible apply beginRecon_sound | with_reducible apply issueReads_sound | with_reducible apply readPage_sound | with_reducible apply speculate_sound)
    | (extract_lets +onlyGivenNames x; refine (?_ : Sound qq x → _) ?_; intro _; clear_value x; rotate_left; subst x; rotate_left)
    | (extract_lets +onlyGivenNames x; subst x)
    | split
    | dsimp -zeta only


theorem useFrame_sound {qq : List Instr} {r : Recon} {f : FlashUnit} {s : State}  (h_s : Sound qq s) : Sound qq (useFrame r f s) := by
  unfold useFrame
  repeat' first
    | with_reducible assumption
    | intro _
    | with_reducible rfl
    | with_reducible apply Sound.ite
    | with_reducible apply each_sound
    | with_reducible apply serveUnit_sound
    | with_reducible apply readUnits_sound
    | with_reducible apply endRescue_sound
    | with_reducible apply enqueueCopy_sound
    | with_reducible apply dirtyPage_sound
    | (with_reducible apply Sound.update; first | with_reducible assumption | with_reducible apply serveUnit_sound | with_reducible apply readUnits_sound | with_reducible apply endRescue_sound | with_reducible apply enqueueCopy_sound | with_reducible apply dirtyPage_sound)
    | (extract_lets +onlyGivenNames x; refine (?_ : Sound qq x → _) ?_; intro _; clear_value x; rotate_left; subst x; rotate_left)
    | (extract_lets +onlyGivenNames x; subst x)
    | split
    | dsimp -zeta only


theorem settleRecon_sound {qq : List Instr} {id : Nat} {st : Stripe} {n : Nat} {r : Recon} {s : State} (h_s : Sound qq s) :
    Sound qq (settleRecon id st n r s) := by
  induction n generalizing r s with
  | zero =>
    unfold settleRecon
    repeat' first
      | with_reducible assumption
      | intro _
      | with_reducible apply Sound.ite
      | with_reducible apply notRecoverable_sound
      | with_reducible apply useFrame_sound
      | with_reducible apply askFrames_sound
      | (with_reducible apply Sound.update; with_reducible assumption)
      | (extract_lets +onlyGivenNames x; refine (?_ : Sound qq x → _) ?_; intro _; clear_value x; rotate_left; subst x; rotate_left)
      | (extract_lets +onlyGivenNames x; subst x)
      | split
      | with_reducible rfl
  | succ m ih =>
    unfold settleRecon
    repeat' first
      | with_reducible assumption
      | intro _
      | with_reducible apply Sound.ite
      | with_reducible apply ih
      | with_reducible apply notRecoverable_sound
      | with_reducible apply useFrame_sound
      | with_reducible apply askFrames_sound
      | (with_reducible apply Sound.update; with_reducible assumption)
      | (extract_lets +onlyGivenNames x; refine (?_ : Sound qq x → _) ?_; intro _; clear_value x; rotate_left; subst x; rotate_left)
      | (extract_lets +onlyGivenNames x; subst x)
      | split
      | with_reducible rfl

theorem frameRead_sound {qq : List Instr} {id : Nat} {m : Nat} {ok : Bool} {s : State}  (h_s : Sound qq s) : Sound qq (frameRead id m ok s) := by
  unfold frameRead
  repeat' first
    | with_reducible assumption
    | intro _
    | with_reducible rfl
    | with_reducible apply Sound.ite
    | with_reducible apply each_sound
    | with_reducible apply settleRecon_sound
    | with_reducible apply reportAt_sound
    | (with_reducible apply Sound.update; first | with_reducible assumption | with_reducible apply settleRecon_sound | with_reducible apply reportAt_sound)
    | (extract_lets +onlyGivenNames x; refine (?_ : Sound qq x → _) ?_; intro _; clear_value x; rotate_left; subst x; rotate_left)
    | (extract_lets +onlyGivenNames x; subst x)
    | split
    | dsimp -zeta only


theorem probeEnd_sound {qq : List Instr} {o : NandOp} {s : State}  (h_s : Sound qq s) : Sound qq (probeEnd o s) := by
  unfold probeEnd
  repeat' first
    | with_reducible assumption
    | intro _
    | with_reducible rfl
    | with_reducible apply Sound.ite
    | with_reducible apply each_sound
    | with_reducible apply onDie_sound
    | (with_reducible apply Sound.update; first | with_reducible assumption | with_reducible apply onDie_sound)
    | (extract_lets +onlyGivenNames x; refine (?_ : Sound qq x → _) ?_; intro _; clear_value x; rotate_left; subst x; rotate_left)
    | (extract_lets +onlyGivenNames x; subst x)
    | split
    | dsimp -zeta only


theorem checkEnd_sound {qq : List Instr} {o : NandOp} {erased : Bool} {s : State}  (h_s : Sound qq s) : Sound qq (checkEnd o erased s) := by
  unfold checkEnd
  repeat' first
    | with_reducible assumption
    | intro _
    | with_reducible rfl
    | with_reducible apply Sound.ite
    | with_reducible apply each_sound
    | with_reducible apply onBlock_sound
    | with_reducible apply addOp_sound
    | with_reducible apply checkRetired_sound
    | with_reducible apply takeError_sound
    | with_reducible apply retireBlock_sound
    | (with_reducible apply Sound.update; first | with_reducible assumption | with_reducible apply onBlock_sound | with_reducible apply addOp_sound | with_reducible apply checkRetired_sound | with_reducible apply takeError_sound | with_reducible apply retireBlock_sound)
    | (extract_lets +onlyGivenNames x; refine (?_ : Sound qq x → _) ?_; intro _; clear_value x; rotate_left; subst x; rotate_left)
    | (extract_lets +onlyGivenNames x; subst x)
    | split
    | dsimp -zeta only


theorem onSample_sound {qq : List Instr} {o : NandOp} {f : PatrolSample → PatrolSample} {s : State}  (h_s : Sound qq s) : Sound qq (onSample o f s) := by
  unfold onSample
  repeat' first
    | with_reducible assumption
    | intro _
    | with_reducible rfl
    | with_reducible apply Sound.ite
    | with_reducible apply each_sound
    | (with_reducible apply Sound.update; first | with_reducible assumption)
    | (extract_lets +onlyGivenNames x; refine (?_ : Sound qq x → _) ?_; intro _; clear_value x; rotate_left; subst x; rotate_left)
    | (extract_lets +onlyGivenNames x; subst x)
    | split
    | dsimp -zeta only


theorem readEnded_sound {qq : List Instr} {i : Nat} {s : State}  (h_s : Sound qq s) : Sound qq (readEnded i s) := by
  unfold readEnded
  repeat' first
    | with_reducible assumption
    | intro _
    | with_reducible rfl
    | with_reducible apply Sound.ite
    | with_reducible apply each_sound
    | with_reducible apply dropOp_sound
    | with_reducible apply onBlock_sound
    | with_reducible apply each_sound
    | with_reducible apply beginRecon_sound
    | with_reducible apply reportAt_sound
    | with_reducible apply serveHost_sound
    | with_reducible apply readUnits_sound
    | with_reducible apply enqueueCopy_sound
    | with_reducible apply endRescue_sound
    | with_reducible apply frameRead_sound
    | with_reducible apply probeEnd_sound
    | with_reducible apply onSample_sound
    | with_reducible apply uncorrectable_sound
    | with_reducible apply checkEnd_sound
    | (with_reducible apply Sound.update; first | with_reducible assumption | with_reducible apply dropOp_sound | with_reducible apply onBlock_sound | with_reducible apply each_sound | with_reducible apply beginRecon_sound | with_reducible apply reportAt_sound | with_reducible apply serveHost_sound | with_reducible apply readUnits_sound | with_reducible apply enqueueCopy_sound | with_reducible apply endRescue_sound | with_reducible apply frameRead_sound | with_reducible apply probeEnd_sound | with_reducible apply onSample_sound | with_reducible apply uncorrectable_sound | with_reducible apply checkEnd_sound)
    | (extract_lets +onlyGivenNames x; refine (?_ : Sound qq x → _) ?_; intro _; clear_value x; rotate_left; subst x; rotate_left)
    | (extract_lets +onlyGivenNames x; subst x)
    | split
    | dsimp -zeta only


theorem noteDie_sound {qq : List Instr} {d : Nat} {f : DieStats → DieStats} {s : State}  (h_s : Sound qq s) : Sound qq (noteDie d f s) := by
  unfold noteDie
  repeat' first
    | with_reducible assumption
    | intro _
    | with_reducible rfl
    | with_reducible apply Sound.ite
    | with_reducible apply each_sound
    | (with_reducible apply Sound.update; first | with_reducible assumption)
    | (extract_lets +onlyGivenNames x; refine (?_ : Sound qq x → _) ?_; intro _; clear_value x; rotate_left; subst x; rotate_left)
    | (extract_lets +onlyGivenNames x; subst x)
    | split
    | dsimp -zeta only


theorem recordDecodes_sound {qq : List Instr} {l : List (Nat × Nat × Nat)} {o : NandOp} {s : State}  (h_s : Sound qq s) : Sound qq (recordDecodes l o s) := by
  unfold recordDecodes
  repeat' first
    | with_reducible assumption
    | intro _
    | with_reducible rfl
    | with_reducible apply Sound.ite
    | with_reducible apply each_sound
    | with_reducible apply noteDie_sound
    | with_reducible apply onSample_sound
    | with_reducible apply reportRefresh_sound
    | (with_reducible apply Sound.update; first | with_reducible assumption | with_reducible apply noteDie_sound | with_reducible apply onSample_sound | with_reducible apply reportRefresh_sound)
    | (extract_lets +onlyGivenNames x; refine (?_ : Sound qq x → _) ?_; intro _; clear_value x; rotate_left; subst x; rotate_left)
    | (extract_lets +onlyGivenNames x; subst x)
    | split
    | dsimp -zeta only


theorem giveUp_sound {qq : List Instr} {i : Nat} {s : State}  (h_s : Sound qq s) : Sound qq (giveUp i s) := by
  unfold giveUp
  repeat' first
    | with_reducible assumption
    | intro _
    | with_reducible rfl
    | with_reducible apply Sound.ite
    | with_reducible apply each_sound
    | with_reducible apply readEnded_sound
    | with_reducible apply onOp_sound
    | (with_reducible apply Sound.update; first | with_reducible assumption | with_reducible apply readEnded_sound | with_reducible apply onOp_sound)
    | (extract_lets +onlyGivenNames x; refine (?_ : Sound qq x → _) ?_; intro _; clear_value x; rotate_left; subst x; rotate_left)
    | (extract_lets +onlyGivenNames x; subst x)
    | split
    | dsimp -zeta only


theorem nextSense_sound {qq : List Instr} {i : Nat} {s : State}  (h_s : Sound qq s) : Sound qq (nextSense i s) := by
  unfold nextSense
  repeat' first
    | with_reducible assumption
    | intro _
    | with_reducible rfl
    | with_reducible apply Sound.ite
    | with_reducible apply each_sound
    | with_reducible apply onOp_sound
    | with_reducible apply giveUp_sound
    | (with_reducible apply Sound.update; first | with_reducible assumption | with_reducible apply onOp_sound | with_reducible apply giveUp_sound)
    | (extract_lets +onlyGivenNames x; refine (?_ : Sound qq x → _) ?_; intro _; clear_value x; rotate_left; subst x; rotate_left)
    | (extract_lets +onlyGivenNames x; subst x)
    | split
    | dsimp -zeta only


theorem reconstructFor_sound {qq : List Instr} {o : NandOp} {s : State}  (h_s : Sound qq s) : Sound qq (reconstructFor o s) := by
  unfold reconstructFor
  repeat' first
    | with_reducible assumption
    | intro _
    | with_reducible rfl
    | with_reducible apply Sound.ite
    | with_reducible apply each_sound
    | with_reducible apply each_sound
    | with_reducible apply beginRecon_sound
    | (with_reducible apply Sound.update; first | with_reducible assumption | with_reducible apply each_sound | with_reducible apply beginRecon_sound)
    | (extract_lets +onlyGivenNames x; refine (?_ : Sound qq x → _) ?_; intro _; clear_value x; rotate_left; subst x; rotate_left)
    | (extract_lets +onlyGivenNames x; subst x)
    | split
    | dsimp -zeta only


theorem settleSpec_sound {qq : List Instr} {p : SpecRead} {s : State}  (h_s : Sound qq s) : Sound qq (settleSpec p s) := by
  unfold settleSpec
  repeat' first
    | with_reducible assumption
    | intro _
    | with_reducible rfl
    | with_reducible apply Sound.ite
    | with_reducible apply each_sound
    | with_reducible apply each_sound
    | with_reducible apply onOp_sound
    | with_reducible apply cancelOp_sound
    | with_reducible apply recordDecodes_sound
    | with_reducible apply reconstructFor_sound
    | with_reducible apply readEnded_sound
    | with_reducible apply nextSense_sound
    | with_reducible apply readUnits_sound
    | with_reducible apply dropHint_sound
    | (with_reducible apply Sound.update; first | with_reducible assumption | with_reducible apply each_sound | with_reducible apply onOp_sound | with_reducible apply cancelOp_sound | with_reducible apply recordDecodes_sound | with_reducible apply reconstructFor_sound | with_reducible apply readEnded_sound | with_reducible apply nextSense_sound | with_reducible apply readUnits_sound | with_reducible apply dropHint_sound)
    | (extract_lets +onlyGivenNames x; refine (?_ : Sound qq x → _) ?_; intro _; clear_value x; rotate_left; subst x; rotate_left)
    | (extract_lets +onlyGivenNames x; subst x)
    | split
    | dsimp -zeta only


theorem divertRead_sound {qq : List Instr} {i : Nat} {o : NandOp} {s : State}  (h_s : Sound qq s) : Sound qq (divertRead i o s) := by
  unfold divertRead
  repeat' first
    | with_reducible assumption
    | intro _
    | with_reducible rfl
    | with_reducible apply Sound.ite
    | with_reducible apply each_sound
    | with_reducible apply leaveOp_sound
    | with_reducible apply onOp_sound
    | with_reducible apply each_sound
    | with_reducible apply beginRecon_sound
    | with_reducible apply frameRead_sound
    | (with_reducible apply Sound.update; first | with_reducible assumption | with_reducible apply leaveOp_sound | with_reducible apply onOp_sound | with_reducible apply each_sound | with_reducible apply beginRecon_sound | with_reducible apply frameRead_sound)
    | (extract_lets +onlyGivenNames x; refine (?_ : Sound qq x → _) ?_; intro _; clear_value x; rotate_left; subst x; rotate_left)
    | (extract_lets +onlyGivenNames x; subst x)
    | split
    | dsimp -zeta only


theorem divertOp_sound {qq : List Instr} {i : Nat} {s : State}  (h_s : Sound qq s) : Sound qq (divertOp i s) := by
  unfold divertOp
  repeat' first
    | with_reducible assumption
    | intro _
    | with_reducible rfl
    | with_reducible apply Sound.ite
    | with_reducible apply each_sound
    | with_reducible apply divertRead_sound
    | with_reducible apply dropOp_sound
    | with_reducible apply onBlock_sound
    | (with_reducible apply Sound.update; first | with_reducible assumption | with_reducible apply divertRead_sound | with_reducible apply dropOp_sound | with_reducible apply onBlock_sound)
    | (extract_lets +onlyGivenNames x; refine (?_ : Sound qq x → _) ?_; intro _; clear_value x; rotate_left; subst x; rotate_left)
    | (extract_lets +onlyGivenNames x; subst x)
    | split
    | dsimp -zeta only


theorem divertOps_sound {qq : List Instr} {s : State}  (h_s : Sound qq s) : Sound qq (divertOps s) := by
  unfold divertOps
  repeat' first
    | with_reducible assumption
    | intro _
    | with_reducible rfl
    | with_reducible apply Sound.ite
    | with_reducible apply each_sound
    | with_reducible apply each_sound
    | with_reducible apply divertOp_sound
    | (with_reducible apply Sound.update; first | with_reducible assumption | with_reducible apply each_sound | with_reducible apply divertOp_sound)
    | (extract_lets +onlyGivenNames x; refine (?_ : Sound qq x → _) ?_; intro _; clear_value x; rotate_left; subst x; rotate_left)
    | (extract_lets +onlyGivenNames x; subst x)
    | split
    | dsimp -zeta only


theorem endReshape_sound {qq : List Instr} {s : State}  (h_s : Sound qq s) : Sound qq (endReshape s) := by
  unfold endReshape
  repeat' first
    | with_reducible assumption
    | intro _
    | with_reducible rfl
    | with_reducible apply Sound.ite
    | with_reducible apply each_sound
    | with_reducible apply writeRedPage_sound
    | with_reducible apply raise_sound
    | with_reducible apply tryReshape_sound
    | (with_reducible apply Sound.update; first | with_reducible assumption | with_reducible apply writeRedPage_sound | with_reducible apply raise_sound | with_reducible apply tryReshape_sound)
    | (extract_lets +onlyGivenNames x; refine (?_ : Sound qq x → _) ?_; intro _; clear_value x; rotate_left; subst x; rotate_left)
    | (extract_lets +onlyGivenNames x; subst x)
    | split
    | dsimp -zeta only


theorem relocate_sound {qq : List Instr} {s : State}  (h_s : Sound qq s) : Sound qq (relocate s) := by
  unfold relocate
  repeat' first
    | with_reducible assumption
    | intro _
    | with_reducible rfl
    | with_reducible apply Sound.ite
    | with_reducible apply each_sound
    | with_reducible apply writeRedPage_sound
    | with_reducible apply endReshape_sound
    | with_reducible apply reportRefresh_sound
    | (with_reducible apply Sound.update; first | with_reducible assumption | with_reducible apply writeRedPage_sound | with_reducible apply endReshape_sound | with_reducible apply reportRefresh_sound)
    | (extract_lets +onlyGivenNames x; refine (?_ : Sound qq x → _) ?_; intro _; clear_value x; rotate_left; subst x; rotate_left)
    | (extract_lets +onlyGivenNames x; subst x)
    | split
    | dsimp -zeta only


theorem settleMedia_sound {qq : List Instr} {s : State}  (h_s : Sound qq s) : Sound qq (settleMedia s) := by
  unfold settleMedia
  repeat' first
    | with_reducible assumption
    | intro _
    | with_reducible rfl
    | with_reducible apply Sound.ite
    | with_reducible apply each_sound
    | with_reducible apply relocate_sound
    | with_reducible apply divertOps_sound
    | with_reducible apply refreshLevels_sound
    | with_reducible apply pump_sound
    | with_reducible apply escalate_sound
    | with_reducible apply retryMoves_sound
    | with_reducible apply grantDecoders_sound
    | (with_reducible apply Sound.update; first | with_reducible assumption | with_reducible apply relocate_sound | with_reducible apply divertOps_sound | with_reducible apply refreshLevels_sound | with_reducible apply pump_sound | with_reducible apply escalate_sound | with_reducible apply retryMoves_sound | with_reducible apply grantDecoders_sound)
    | (extract_lets +onlyGivenNames x; refine (?_ : Sound qq x → _) ?_; intro _; clear_value x; rotate_left; subst x; rotate_left)
    | (extract_lets +onlyGivenNames x; subst x)
    | split
    | dsimp -zeta only


end Sys2Proof.Machine
end

