-- ==== Sys2Proof/Laws/SoundChannels.lean ====
section
/-!
SUPPORT. Soundness through the operations of Machine/Channels.lean.
-/

set_option linter.all false

namespace Sys2Proof.Machine

theorem grantOp_sound {qq : List Instr} {i : Nat} {s : State}  (h_s : Sound qq s) : Sound qq (grantOp i s) := by
  unfold grantOp
  repeat' first
    | with_reducible assumption
    | intro _
    | with_reducible rfl
    | with_reducible apply Sound.ite
    | with_reducible apply each_sound
    | with_reducible apply onOp_sound
    | with_reducible apply each_sound
    | with_reducible apply onLun_sound
    | (with_reducible apply Sound.update; first | with_reducible assumption | with_reducible apply onOp_sound | with_reducible apply each_sound | with_reducible apply onLun_sound)
    | (extract_lets +onlyGivenNames x; refine (?_ : Sound qq x → _) ?_; intro _; clear_value x; rotate_left; subst x; rotate_left)
    | (extract_lets +onlyGivenNames x; subst x)
    | split
    | dsimp -zeta only


theorem sequencerGrant_sound {qq : List Instr} {c : Nat} {s : State}  (h_s : Sound qq s) : Sound qq (sequencerGrant c s) := by
  unfold sequencerGrant
  repeat' first
    | with_reducible assumption
    | intro _
    | with_reducible rfl
    | with_reducible apply Sound.ite
    | with_reducible apply each_sound
    | with_reducible apply grantOp_sound
    | (with_reducible apply Sound.update; first | with_reducible assumption | with_reducible apply grantOp_sound)
    | (extract_lets +onlyGivenNames x; refine (?_ : Sound qq x → _) ?_; intro _; clear_value x; rotate_left; subst x; rotate_left)
    | (extract_lets +onlyGivenNames x; subst x)
    | split
    | dsimp -zeta only


theorem execLedgerAdmit_sound {qq : List Instr} {s : State}  (h_s : Sound qq s) : SoundOut qq (execLedgerAdmit s) := by
  unfold execLedgerAdmit
  repeat' first
    | with_reducible assumption
    | intro _
    | with_reducible rfl
    | with_reducible apply Sound.ite
    | with_reducible apply each_sound
    | with_reducible apply SoundOut.next
    | with_reducible apply SoundOut.ite
    | with_reducible apply ledgerPass_sound
    | (with_reducible apply Sound.update; first | with_reducible assumption | with_reducible apply ledgerPass_sound)
    | (extract_lets +onlyGivenNames x; refine (?_ : Sound qq x → _) ?_; intro _; clear_value x; rotate_left; subst x; rotate_left)
    | (extract_lets +onlyGivenNames x; subst x)
    | split
    | dsimp -zeta only


theorem ceilingGrant_sound {qq : List Instr} {s : State}  (h_s : Sound qq s) : Sound qq (ceilingGrant s) := by
  unfold ceilingGrant
  repeat' first
    | with_reducible assumption
    | intro _
    | with_reducible rfl
    | with_reducible apply Sound.ite
    | with_reducible apply each_sound
    | (with_reducible apply Sound.update; first | with_reducible assumption)
    | (extract_lets +onlyGivenNames x; refine (?_ : Sound qq x → _) ?_; intro _; clear_value x; rotate_left; subst x; rotate_left)
    | (extract_lets +onlyGivenNames x; subst x)
    | split
    | dsimp -zeta only


theorem execStarvationCeilingReached_sound {qq : List Instr} {arbiter : Arbiter} {s : State}  (h_s : Sound qq s) : SoundOut qq (execStarvationCeilingReached arbiter s) := by
  unfold execStarvationCeilingReached
  repeat' first
    | with_reducible assumption
    | intro _
    | with_reducible rfl
    | with_reducible apply Sound.ite
    | with_reducible apply each_sound
    | with_reducible apply SoundOut.next
    | with_reducible apply SoundOut.ite
    | with_reducible apply ledgerPass_sound
    | with_reducible apply ceilingGrant_sound
    | with_reducible apply grantOp_sound
    | (with_reducible apply Sound.update; first | with_reducible assumption | with_reducible apply ledgerPass_sound | with_reducible apply ceilingGrant_sound | with_reducible apply grantOp_sound)
    | (extract_lets +onlyGivenNames x; refine (?_ : Sound qq x → _) ?_; intro _; clear_value x; rotate_left; subst x; rotate_left)
    | (extract_lets +onlyGivenNames x; subst x)
    | split
    | dsimp -zeta only


theorem execSequencerGrant_sound {qq : List Instr} {channel : Nat} {s : State}  (h_s : Sound qq s) : SoundOut qq (execSequencerGrant channel s) := by
  unfold execSequencerGrant
  repeat' first
    | with_reducible assumption
    | intro _
    | with_reducible rfl
    | with_reducible apply Sound.ite
    | with_reducible apply each_sound
    | with_reducible apply SoundOut.next
    | with_reducible apply SoundOut.ite
    | with_reducible apply sequencerGrant_sound
    | (with_reducible apply Sound.update; first | with_reducible assumption | with_reducible apply sequencerGrant_sound)
    | (extract_lets +onlyGivenNames x; refine (?_ : Sound qq x → _) ?_; intro _; clear_value x; rotate_left; subst x; rotate_left)
    | (extract_lets +onlyGivenNames x; subst x)
    | split
    | dsimp -zeta only


theorem execSuspendComplete_sound {qq : List Instr} {die : Nat} {s : State}  (h_s : Sound qq s) : SoundOut qq (execSuspendComplete die s) := by
  unfold execSuspendComplete
  repeat' first
    | with_reducible assumption
    | intro _
    | with_reducible rfl
    | with_reducible apply Sound.ite
    | with_reducible apply each_sound
    | with_reducible apply SoundOut.next
    | with_reducible apply SoundOut.ite
    | with_reducible apply onOp_sound
    | with_reducible apply onLun_sound
    | with_reducible apply sequencerGrant_sound
    | with_reducible apply arm_sound
    | (with_reducible apply Sound.update; first | with_reducible assumption | with_reducible apply onOp_sound | with_reducible apply onLun_sound | with_reducible apply sequencerGrant_sound | with_reducible apply arm_sound)
    | (extract_lets +onlyGivenNames x; refine (?_ : Sound qq x → _) ?_; intro _; clear_value x; rotate_left; subst x; rotate_left)
    | (extract_lets +onlyGivenNames x; subst x)
    | split
    | dsimp -zeta only


theorem execSuspendResume_sound {qq : List Instr} {die : Nat} {s : State}  (h_s : Sound qq s) : SoundOut qq (execSuspendResume die s) := by
  unfold execSuspendResume
  repeat' first
    | with_reducible assumption
    | intro _
    | with_reducible rfl
    | with_reducible apply Sound.ite
    | with_reducible apply each_sound
    | with_reducible apply SoundOut.next
    | with_reducible apply SoundOut.ite
    | with_reducible apply disarm_sound
    | with_reducible apply onOp_sound
    | (with_reducible apply Sound.update; first | with_reducible assumption | with_reducible apply disarm_sound | with_reducible apply onOp_sound)
    | (extract_lets +onlyGivenNames x; refine (?_ : Sound qq x → _) ?_; intro _; clear_value x; rotate_left; subst x; rotate_left)
    | (extract_lets +onlyGivenNames x; subst x)
    | split
    | dsimp -zeta only


theorem countSense_sound {qq : List Instr} {k : Nat} {s : State}  (h_s : Sound qq s) : Sound qq (countSense k s) := by
  unfold countSense
  repeat' first
    | with_reducible assumption
    | intro _
    | with_reducible rfl
    | with_reducible apply Sound.ite
    | with_reducible apply each_sound
    | with_reducible apply onBlock_sound
    | with_reducible apply queueBlock_sound
    | (with_reducible apply Sound.update; first | with_reducible assumption | with_reducible apply onBlock_sound | with_reducible apply queueBlock_sound)
    | (extract_lets +onlyGivenNames x; refine (?_ : Sound qq x → _) ?_; intro _; clear_value x; rotate_left; subst x; rotate_left)
    | (extract_lets +onlyGivenNames x; subst x)
    | split
    | dsimp -zeta only


theorem senseOp_sound {qq : List Instr} {frames : List Sensed} {i : Nat} {s : State}  (h_s : Sound qq s) : Sound qq (senseOp frames i s) := by
  unfold senseOp
  repeat' first
    | with_reducible assumption
    | intro _
    | with_reducible rfl
    | with_reducible apply Sound.ite
    | with_reducible apply each_sound
    | with_reducible apply readEnded_sound
    | with_reducible apply onOp_sound
    | (with_reducible apply Sound.update; first | with_reducible assumption | with_reducible apply readEnded_sound | with_reducible apply onOp_sound)
    | (extract_lets +onlyGivenNames x; refine (?_ : Sound qq x → _) ?_; intro _; clear_value x; rotate_left; subst x; rotate_left)
    | (extract_lets +onlyGivenNames x; subst x)
    | split
    | dsimp -zeta only


theorem execReadSenseComplete_sound {qq : List Instr} {op : Nat} {frames : List Sensed} {s : State}  (h_s : Sound qq s) : SoundOut qq (execReadSenseComplete op frames s) := by
  unfold execReadSenseComplete
  repeat' first
    | with_reducible assumption
    | intro _
    | with_reducible rfl
    | with_reducible apply Sound.ite
    | with_reducible apply each_sound
    | with_reducible apply SoundOut.next
    | with_reducible apply SoundOut.ite
    | with_reducible apply countSense_sound
    | with_reducible apply onLun_sound
    | with_reducible apply settleMedia_sound
    | with_reducible apply each_sound
    | with_reducible apply senseOp_sound
    | (with_reducible apply Sound.update; first | with_reducible assumption | with_reducible apply countSense_sound | with_reducible apply onLun_sound | with_reducible apply settleMedia_sound | with_reducible apply each_sound | with_reducible apply senseOp_sound)
    | (extract_lets +onlyGivenNames x; refine (?_ : Sound qq x → _) ?_; intro _; clear_value x; rotate_left; subst x; rotate_left)
    | (extract_lets +onlyGivenNames x; subst x)
    | split
    | dsimp -zeta only


theorem execHardDecodeComplete_sound {qq : List Instr} {op : Nat} {results : List Decoded} {s : State}  (h_s : Sound qq s) : SoundOut qq (execHardDecodeComplete op results s) := by
  unfold execHardDecodeComplete
  repeat' first
    | with_reducible assumption
    | intro _
    | with_reducible rfl
    | with_reducible apply Sound.ite
    | with_reducible apply each_sound
    | with_reducible apply SoundOut.next
    | with_reducible apply SoundOut.ite
    | with_reducible apply onOp_sound
    | with_reducible apply grantDecoders_sound
    | with_reducible apply recordDecodes_sound
    | with_reducible apply settleMedia_sound
    | with_reducible apply readEnded_sound
    | with_reducible apply nextSense_sound
    | (with_reducible apply Sound.update; first | with_reducible assumption | with_reducible apply onOp_sound | with_reducible apply grantDecoders_sound | with_reducible apply recordDecodes_sound | with_reducible apply settleMedia_sound | with_reducible apply readEnded_sound | with_reducible apply nextSense_sound)
    | (extract_lets +onlyGivenNames x; refine (?_ : Sound qq x → _) ?_; intro _; clear_value x; rotate_left; subst x; rotate_left)
    | (extract_lets +onlyGivenNames x; subst x)
    | split
    | dsimp -zeta only


theorem execSoftDecodeComplete_sound {qq : List Instr} {op : Nat} {results : List Decoded} {s : State}  (h_s : Sound qq s) : SoundOut qq (execSoftDecodeComplete op results s) := by
  unfold execSoftDecodeComplete
  repeat' first
    | with_reducible assumption
    | intro _
    | with_reducible rfl
    | with_reducible apply Sound.ite
    | with_reducible apply each_sound
    | with_reducible apply SoundOut.next
    | with_reducible apply SoundOut.ite
    | with_reducible apply noteDie_sound
    | with_reducible apply reportRefresh_sound
    | with_reducible apply settleMedia_sound
    | with_reducible apply giveUp_sound
    | with_reducible apply onOp_sound
    | (with_reducible apply Sound.update; first | with_reducible assumption | with_reducible apply noteDie_sound | with_reducible apply reportRefresh_sound | with_reducible apply settleMedia_sound | with_reducible apply giveUp_sound | with_reducible apply onOp_sound)
    | (extract_lets +onlyGivenNames x; refine (?_ : Sound qq x → _) ?_; intro _; clear_value x; rotate_left; subst x; rotate_left)
    | (extract_lets +onlyGivenNames x; subst x)
    | split
    | dsimp -zeta only


theorem freeLun_sound {qq : List Instr} {i : Nat} {die : Nat} {s : State}  (h_s : Sound qq s) : Sound qq (freeLun i die s) := by
  unfold freeLun
  repeat' first
    | with_reducible assumption
    | intro _
    | with_reducible rfl
    | with_reducible apply Sound.ite
    | with_reducible apply each_sound
    | with_reducible apply onLun_sound
    | (with_reducible apply Sound.update; first | with_reducible assumption | with_reducible apply onLun_sound)
    | (extract_lets +onlyGivenNames x; refine (?_ : Sound qq x → _) ?_; intro _; clear_value x; rotate_left; subst x; rotate_left)
    | (extract_lets +onlyGivenNames x; subst x)
    | split
    | dsimp -zeta only


theorem programReported_sound {qq : List Instr} {o : NandOp} {ok : Bool} {s : State}  (h_s : Sound qq s) : Sound qq (programReported o ok s) := by
  unfold programReported
  repeat' first
    | with_reducible assumption
    | intro _
    | with_reducible rfl
    | with_reducible apply Sound.ite
    | with_reducible apply each_sound
    | with_reducible apply memberReported_sound
    | with_reducible apply checkRetired_sound
    | with_reducible apply stayReported_sound
    | (with_reducible apply Sound.update; first | with_reducible assumption | with_reducible apply memberReported_sound | with_reducible apply checkRetired_sound | with_reducible apply stayReported_sound)
    | (extract_lets +onlyGivenNames x; refine (?_ : Sound qq x → _) ?_; intro _; clear_value x; rotate_left; subst x; rotate_left)
    | (extract_lets +onlyGivenNames x; subst x)
    | split
    | dsimp -zeta only


theorem execProgramComplete_sound {qq : List Instr} {op : Nat} {ok : Bool} {s : State}  (h_s : Sound qq s) : SoundOut qq (execProgramComplete op ok s) := by
  unfold execProgramComplete
  repeat' first
    | with_reducible assumption
    | intro _
    | with_reducible rfl
    | with_reducible apply Sound.ite
    | with_reducible apply each_sound
    | with_reducible apply SoundOut.next
    | with_reducible apply SoundOut.ite
    | with_reducible apply freeLun_sound
    | with_reducible apply dropOp_sound
    | with_reducible apply settleMedia_sound
    | with_reducible apply programReported_sound
    | (with_reducible apply Sound.update; first | with_reducible assumption | with_reducible apply freeLun_sound | with_reducible apply dropOp_sound | with_reducible apply settleMedia_sound | with_reducible apply programReported_sound)
    | (extract_lets +onlyGivenNames x; refine (?_ : Sound qq x → _) ?_; intro _; clear_value x; rotate_left; subst x; rotate_left)
    | (extract_lets +onlyGivenNames x; subst x)
    | split
    | dsimp -zeta only


theorem eraseFailed_sound {qq : List Instr} {k : Nat} {s : State}  (h_s : Sound qq s) : Sound qq (eraseFailed k s) := by
  unfold eraseFailed
  repeat' first
    | with_reducible assumption
    | intro _
    | with_reducible rfl
    | with_reducible apply Sound.ite
    | with_reducible apply each_sound
    | with_reducible apply checkRetired_sound
    | with_reducible apply takeError_sound
    | with_reducible apply retireBlock_sound
    | (with_reducible apply Sound.update; first | with_reducible assumption | with_reducible apply checkRetired_sound | with_reducible apply takeError_sound | with_reducible apply retireBlock_sound)
    | (extract_lets +onlyGivenNames x; refine (?_ : Sound qq x → _) ?_; intro _; clear_value x; rotate_left; subst x; rotate_left)
    | (extract_lets +onlyGivenNames x; subst x)
    | split
    | dsimp -zeta only


theorem eraseDone_sound {qq : List Instr} {k : Nat} {s : State}  (h_s : Sound qq s) : Sound qq (eraseDone k s) := by
  unfold eraseDone
  repeat' first
    | with_reducible assumption
    | intro _
    | with_reducible rfl
    | with_reducible apply Sound.ite
    | with_reducible apply each_sound
    | with_reducible apply onBlock_sound
    | with_reducible apply wearSnapshot_sound
    | with_reducible apply fillSets_sound
    | (with_reducible apply Sound.update; first | with_reducible assumption | with_reducible apply onBlock_sound | with_reducible apply wearSnapshot_sound | with_reducible apply fillSets_sound)
    | (extract_lets +onlyGivenNames x; refine (?_ : Sound qq x → _) ?_; intro _; clear_value x; rotate_left; subst x; rotate_left)
    | (extract_lets +onlyGivenNames x; subst x)
    | split
    | dsimp -zeta only


theorem execEraseComplete_sound {qq : List Instr} {op : Nat} {ok : Bool} {s : State}  (h_s : Sound qq s) : SoundOut qq (execEraseComplete op ok s) := by
  unfold execEraseComplete
  repeat' first
    | with_reducible assumption
    | intro _
    | with_reducible rfl
    | with_reducible apply Sound.ite
    | with_reducible apply each_sound
    | with_reducible apply SoundOut.next
    | with_reducible apply SoundOut.ite
    | with_reducible apply freeLun_sound
    | with_reducible apply dropOp_sound
    | with_reducible apply settleMedia_sound
    | with_reducible apply peStats_sound
    | with_reducible apply eraseDone_sound
    | with_reducible apply eraseFailed_sound
    | (with_reducible apply Sound.update; first | with_reducible assumption | with_reducible apply freeLun_sound | with_reducible apply dropOp_sound | with_reducible apply settleMedia_sound | with_reducible apply peStats_sound | with_reducible apply eraseDone_sound | with_reducible apply eraseFailed_sound)
    | (extract_lets +onlyGivenNames x; refine (?_ : Sound qq x → _) ?_; intro _; clear_value x; rotate_left; subst x; rotate_left)
    | (extract_lets +onlyGivenNames x; subst x)
    | split
    | dsimp -zeta only


theorem onChannelErr_sound {qq : List Instr} {c : Nat} {f : ChnErrReg → ChnErrReg} {s : State}  (h_s : Sound qq s) : Sound qq (onChannelErr c f s) := by
  unfold onChannelErr
  repeat' first
    | with_reducible assumption
    | intro _
    | with_reducible rfl
    | with_reducible apply Sound.ite
    | with_reducible apply each_sound
    | (with_reducible apply Sound.update; first | with_reducible assumption)
    | (extract_lets +onlyGivenNames x; refine (?_ : Sound qq x → _) ?_; intro _; clear_value x; rotate_left; subst x; rotate_left)
    | (extract_lets +onlyGivenNames x; subst x)
    | split
    | dsimp -zeta only


theorem timeoutOutcome_sound {qq : List Instr} {die : Nat} {s : State}  (h_s : Sound qq s) : Sound qq (timeoutOutcome die s) := by
  unfold timeoutOutcome
  repeat' first
    | with_reducible assumption
    | intro _
    | with_reducible rfl
    | with_reducible apply Sound.ite
    | with_reducible apply each_sound
    | with_reducible apply raise_sound
    | with_reducible apply onChannelErr_sound
    | (with_reducible apply Sound.update; first | with_reducible assumption | with_reducible apply raise_sound | with_reducible apply onChannelErr_sound)
    | (extract_lets +onlyGivenNames x; refine (?_ : Sound qq x → _) ?_; intro _; clear_value x; rotate_left; subst x; rotate_left)
    | (extract_lets +onlyGivenNames x; subst x)
    | split
    | dsimp -zeta only


theorem execDieOpTimeout_sound {qq : List Instr} {op : Nat} {s : State}  (h_s : Sound qq s) : SoundOut qq (execDieOpTimeout op s) := by
  unfold execDieOpTimeout
  repeat' first
    | with_reducible assumption
    | intro _
    | with_reducible rfl
    | with_reducible apply Sound.ite
    | with_reducible apply each_sound
    | with_reducible apply SoundOut.next
    | with_reducible apply SoundOut.ite
    | with_reducible apply timeoutOutcome_sound
    | with_reducible apply onOp_sound
    | with_reducible apply arm_sound
    | with_reducible apply onLun_sound
    | with_reducible apply countSense_sound
    | with_reducible apply settleMedia_sound
    | with_reducible apply programReported_sound
    | with_reducible apply eraseFailed_sound
    | (with_reducible apply Sound.update; first | with_reducible assumption | with_reducible apply timeoutOutcome_sound | with_reducible apply onOp_sound | with_reducible apply arm_sound | with_reducible apply onLun_sound | with_reducible apply countSense_sound | with_reducible apply settleMedia_sound | with_reducible apply programReported_sound | with_reducible apply eraseFailed_sound)
    | (extract_lets +onlyGivenNames x; refine (?_ : Sound qq x → _) ?_; intro _; clear_value x; rotate_left; subst x; rotate_left)
    | (extract_lets +onlyGivenNames x; subst x)
    | split
    | dsimp -zeta only


theorem endAtReset_sound {qq : List Instr} {i : Nat} {s : State}  (h_s : Sound qq s) : Sound qq (endAtReset i s) := by
  unfold endAtReset
  repeat' first
    | with_reducible assumption
    | intro _
    | with_reducible rfl
    | with_reducible apply Sound.ite
    | with_reducible apply each_sound
    | with_reducible apply each_sound
    | with_reducible apply giveUp_sound
    | with_reducible apply dropOp_sound
    | (with_reducible apply Sound.update; first | with_reducible assumption | with_reducible apply each_sound | with_reducible apply giveUp_sound | with_reducible apply dropOp_sound)
    | (extract_lets +onlyGivenNames x; refine (?_ : Sound qq x → _) ?_; intro _; clear_value x; rotate_left; subst x; rotate_left)
    | (extract_lets +onlyGivenNames x; subst x)
    | split
    | dsimp -zeta only


theorem execLunResetReady_sound {qq : List Instr} {die : Nat} {s : State}  (h_s : Sound qq s) : SoundOut qq (execLunResetReady die s) := by
  unfold execLunResetReady
  repeat' first
    | with_reducible assumption
    | intro _
    | with_reducible rfl
    | with_reducible apply Sound.ite
    | with_reducible apply each_sound
    | with_reducible apply SoundOut.next
    | with_reducible apply SoundOut.ite
    | with_reducible apply disarm_sound
    | with_reducible apply onLun_sound
    | with_reducible apply settleMedia_sound
    | with_reducible apply endAtReset_sound
    | (with_reducible apply Sound.update; first | with_reducible assumption | with_reducible apply disarm_sound | with_reducible apply onLun_sound | with_reducible apply settleMedia_sound | with_reducible apply endAtReset_sound)
    | (extract_lets +onlyGivenNames x; refine (?_ : Sound qq x → _) ?_; intro _; clear_value x; rotate_left; subst x; rotate_left)
    | (extract_lets +onlyGivenNames x; subst x)
    | split
    | dsimp -zeta only


theorem execLunResetTimeout_sound {qq : List Instr} {die : Nat} {s : State}  (h_s : Sound qq s) : SoundOut qq (execLunResetTimeout die s) := by
  unfold execLunResetTimeout
  repeat' first
    | with_reducible assumption
    | intro _
    | with_reducible rfl
    | with_reducible apply Sound.ite
    | with_reducible apply each_sound
    | with_reducible apply SoundOut.next
    | with_reducible apply SoundOut.ite
    | with_reducible apply disarm_sound
    | with_reducible apply onLun_sound
    | with_reducible apply endAtReset_sound
    | with_reducible apply settleMedia_sound
    | with_reducible apply failDie_sound
    | (with_reducible apply Sound.update; first | with_reducible assumption | with_reducible apply disarm_sound | with_reducible apply onLun_sound | with_reducible apply endAtReset_sound | with_reducible apply settleMedia_sound | with_reducible apply failDie_sound)
    | (extract_lets +onlyGivenNames x; refine (?_ : Sound qq x → _) ?_; intro _; clear_value x; rotate_left; subst x; rotate_left)
    | (extract_lets +onlyGivenNames x; subst x)
    | split
    | dsimp -zeta only


theorem execBecalmedReadTimeout_sound {qq : List Instr} {op : Nat} {s : State}  (h_s : Sound qq s) : SoundOut qq (execBecalmedReadTimeout op s) := by
  unfold execBecalmedReadTimeout
  repeat' first
    | with_reducible assumption
    | intro _
    | with_reducible rfl
    | with_reducible apply Sound.ite
    | with_reducible apply each_sound
    | with_reducible apply SoundOut.next
    | with_reducible apply SoundOut.ite
    | with_reducible apply onOp_sound
    | with_reducible apply onDie_sound
    | with_reducible apply raise_sound
    | with_reducible apply arm_sound
    | with_reducible apply reconstructFor_sound
    | with_reducible apply failDie_sound
    | with_reducible apply settleMedia_sound
    | (with_reducible apply Sound.update; first | with_reducible assumption | with_reducible apply onOp_sound | with_reducible apply onDie_sound | with_reducible apply raise_sound | with_reducible apply arm_sound | with_reducible apply reconstructFor_sound | with_reducible apply failDie_sound | with_reducible apply settleMedia_sound)
    | (extract_lets +onlyGivenNames x; refine (?_ : Sound qq x → _) ?_; intro _; clear_value x; rotate_left; subst x; rotate_left)
    | (extract_lets +onlyGivenNames x; subst x)
    | split
    | dsimp -zeta only


theorem execProbeInterval_sound {qq : List Instr} {die : Nat} {s : State}  (h_s : Sound qq s) : SoundOut qq (execProbeInterval die s) := by
  unfold execProbeInterval
  repeat' first
    | with_reducible assumption
    | intro _
    | with_reducible rfl
    | with_reducible apply Sound.ite
    | with_reducible apply each_sound
    | with_reducible apply SoundOut.next
    | with_reducible apply SoundOut.ite
    | with_reducible apply addOp_sound
    | with_reducible apply onBlock_sound
    | with_reducible apply arm_sound
    | (with_reducible apply Sound.update; first | with_reducible assumption | with_reducible apply addOp_sound | with_reducible apply onBlock_sound | with_reducible apply arm_sound)
    | (extract_lets +onlyGivenNames x; refine (?_ : Sound qq x → _) ?_; intro _; clear_value x; rotate_left; subst x; rotate_left)
    | (extract_lets +onlyGivenNames x; subst x)
    | split
    | dsimp -zeta only


theorem onChannelStatus_sound {qq : List Instr} {c : Nat} {f : ChnStatusReg → ChnStatusReg} {s : State}  (h_s : Sound qq s) : Sound qq (onChannelStatus c f s) := by
  unfold onChannelStatus
  repeat' first
    | with_reducible assumption
    | intro _
    | with_reducible rfl
    | with_reducible apply Sound.ite
    | with_reducible apply each_sound
    | (with_reducible apply Sound.update; first | with_reducible assumption)
    | (extract_lets +onlyGivenNames x; refine (?_ : Sound qq x → _) ?_; intro _; clear_value x; rotate_left; subst x; rotate_left)
    | (extract_lets +onlyGivenNames x; subst x)
    | split
    | dsimp -zeta only


theorem onChannel_sound {qq : List Instr} {c : Nat} {f : ChannelState → ChannelState} {s : State}  (h_s : Sound qq s) : Sound qq (onChannel c f s) := by
  unfold onChannel
  repeat' first
    | with_reducible assumption
    | intro _
    | with_reducible rfl
    | with_reducible apply Sound.ite
    | with_reducible apply each_sound
    | (with_reducible apply Sound.update; first | with_reducible assumption)
    | (extract_lets +onlyGivenNames x; refine (?_ : Sound qq x → _) ?_; intro _; clear_value x; rotate_left; subst x; rotate_left)
    | (extract_lets +onlyGivenNames x; subst x)
    | split
    | dsimp -zeta only


theorem beginDiscovery_sound {qq : List Instr} {pair : Nat} {s : State}  (h_s : Sound qq s) : Sound qq (beginDiscovery pair s) := by
  unfold beginDiscovery
  repeat' first
    | with_reducible assumption
    | intro _
    | with_reducible rfl
    | with_reducible apply Sound.ite
    | with_reducible apply each_sound
    | with_reducible apply each_sound
    | with_reducible apply onChannelStatus_sound
    | with_reducible apply onChannel_sound
    | (with_reducible apply Sound.update; first | with_reducible assumption | with_reducible apply each_sound | with_reducible apply onChannelStatus_sound | with_reducible apply onChannel_sound)
    | (extract_lets +onlyGivenNames x; refine (?_ : Sound qq x → _) ?_; intro _; clear_value x; rotate_left; subst x; rotate_left)
    | (extract_lets +onlyGivenNames x; subst x)
    | split
    | dsimp -zeta only


theorem failChannel_sound {qq : List Instr} {c : Nat} {s : State}  (h_s : Sound qq s) : Sound qq (failChannel c s) := by
  unfold failChannel
  repeat' first
    | with_reducible assumption
    | intro _
    | with_reducible rfl
    | with_reducible apply Sound.ite
    | with_reducible apply each_sound
    | with_reducible apply onChannelStatus_sound
    | with_reducible apply onChannel_sound
    | with_reducible apply raise_sound
    | with_reducible apply fatalCondition_sound
    | with_reducible apply failDies_sound
    | (with_reducible apply Sound.update; first | with_reducible assumption | with_reducible apply onChannelStatus_sound | with_reducible apply onChannel_sound | with_reducible apply raise_sound | with_reducible apply fatalCondition_sound | with_reducible apply failDies_sound)
    | (extract_lets +onlyGivenNames x; refine (?_ : Sound qq x → _) ?_; intro _; clear_value x; rotate_left; subst x; rotate_left)
    | (extract_lets +onlyGivenNames x; subst x)
    | split
    | dsimp -zeta only


theorem trained_sound {qq : List Instr} {c : Nat} {s : State}  (h_s : Sound qq s) : Sound qq (trained c s) := by
  unfold trained
  repeat' first
    | with_reducible assumption
    | intro _
    | with_reducible rfl
    | with_reducible apply Sound.ite
    | with_reducible apply each_sound
    | with_reducible apply onChannelStatus_sound
    | with_reducible apply onChannel_sound
    | with_reducible apply arm_sound
    | with_reducible apply raise_sound
    | (with_reducible apply Sound.update; first | with_reducible assumption | with_reducible apply onChannelStatus_sound | with_reducible apply onChannel_sound | with_reducible apply arm_sound | with_reducible apply raise_sound)
    | (extract_lets +onlyGivenNames x; refine (?_ : Sound qq x → _) ?_; intro _; clear_value x; rotate_left; subst x; rotate_left)
    | (extract_lets +onlyGivenNames x; subst x)
    | split
    | dsimp -zeta only


theorem execChannelTrainingDone_sound {qq : List Instr} {channel : Nat} {ok : Bool} {s : State}  (h_s : Sound qq s) : SoundOut qq (execChannelTrainingDone channel ok s) := by
  unfold execChannelTrainingDone
  repeat' first
    | with_reducible assumption
    | intro _
    | with_reducible rfl
    | with_reducible apply Sound.ite
    | with_reducible apply each_sound
    | with_reducible apply SoundOut.next
    | with_reducible apply SoundOut.ite
    | with_reducible apply settleMedia_sound
    | with_reducible apply trained_sound
    | with_reducible apply onChannelErr_sound
    | with_reducible apply onChannelStatus_sound
    | with_reducible apply failChannel_sound
    | (with_reducible apply Sound.update; first | with_reducible assumption | with_reducible apply settleMedia_sound | with_reducible apply trained_sound | with_reducible apply onChannelErr_sound | with_reducible apply onChannelStatus_sound | with_reducible apply failChannel_sound)
    | (extract_lets +onlyGivenNames x; refine (?_ : Sound qq x → _) ?_; intro _; clear_value x; rotate_left; subst x; rotate_left)
    | (extract_lets +onlyGivenNames x; subst x)
    | split
    | dsimp -zeta only


theorem beginBusTraining_sound {qq : List Instr} {c : Nat} {s : State}  (h_s : Sound qq s) : Sound qq (beginBusTraining c s) := by
  unfold beginBusTraining
  repeat' first
    | with_reducible assumption
    | intro _
    | with_reducible rfl
    | with_reducible apply Sound.ite
    | with_reducible apply each_sound
    | with_reducible apply disarm_sound
    | with_reducible apply onChannelStatus_sound
    | with_reducible apply onChannel_sound
    | (with_reducible apply Sound.update; first | with_reducible assumption | with_reducible apply disarm_sound | with_reducible apply onChannelStatus_sound | with_reducible apply onChannel_sound)
    | (extract_lets +onlyGivenNames x; refine (?_ : Sound qq x → _) ?_; intro _; clear_value x; rotate_left; subst x; rotate_left)
    | (extract_lets +onlyGivenNames x; subst x)
    | split
    | dsimp -zeta only


theorem execChannelRetrain_sound {qq : List Instr} {channel : Nat} {s : State}  (h_s : Sound qq s) : SoundOut qq (execChannelRetrain channel s) := by
  unfold execChannelRetrain
  repeat' first
    | with_reducible assumption
    | intro _
    | with_reducible rfl
    | with_reducible apply Sound.ite
    | with_reducible apply each_sound
    | with_reducible apply SoundOut.next
    | with_reducible apply SoundOut.ite
    | with_reducible apply beginBusTraining_sound
    | (with_reducible apply Sound.update; first | with_reducible assumption | with_reducible apply beginBusTraining_sound)
    | (extract_lets +onlyGivenNames x; refine (?_ : Sound qq x → _) ?_; intro _; clear_value x; rotate_left; subst x; rotate_left)
    | (extract_lets +onlyGivenNames x; subst x)
    | split
    | dsimp -zeta only


theorem showChannel_sound {qq : List Instr} {c : Nat} {found : List DiscoveredDie} {s : State}  (h_s : Sound qq s) : Sound qq (showChannel c found s) := by
  unfold showChannel
  repeat' first
    | with_reducible assumption
    | intro _
    | with_reducible rfl
    | with_reducible apply Sound.ite
    | with_reducible apply each_sound
    | with_reducible apply onChannelStatus_sound
    | (with_reducible apply Sound.update; first | with_reducible assumption | with_reducible apply onChannelStatus_sound)
    | (extract_lets +onlyGivenNames x; refine (?_ : Sound qq x → _) ?_; intro _; clear_value x; rotate_left; subst x; rotate_left)
    | (extract_lets +onlyGivenNames x; subst x)
    | split
    | dsimp -zeta only


theorem missingDie_sound {qq : List Instr} {d : Nat} {found : List DiscoveredDie} {s : State}  (h_s : Sound qq s) : Sound qq (missingDie d found s) := by
  unfold missingDie
  repeat' first
    | with_reducible assumption
    | intro _
    | with_reducible rfl
    | with_reducible apply Sound.ite
    | with_reducible apply each_sound
    | with_reducible apply raise_sound
    | (with_reducible apply Sound.update; first | with_reducible assumption | with_reducible apply raise_sound)
    | (extract_lets +onlyGivenNames x; refine (?_ : Sound qq x → _) ?_; intro _; clear_value x; rotate_left; subst x; rotate_left)
    | (extract_lets +onlyGivenNames x; subst x)
    | split
    | dsimp -zeta only


theorem dropMissing_sound {qq : List Instr} {l : List Nat} {s : State}  (h_s : Sound qq s) : Sound qq (dropMissing l s) := by
  unfold dropMissing
  repeat' first
    | with_reducible assumption
    | intro _
    | with_reducible rfl
    | with_reducible apply Sound.ite
    | with_reducible apply each_sound
    | with_reducible apply failDies_sound
    | with_reducible apply fatalCondition_sound
    | (with_reducible apply Sound.update; first | with_reducible assumption | with_reducible apply failDies_sound | with_reducible apply fatalCondition_sound)
    | (extract_lets +onlyGivenNames x; refine (?_ : Sound qq x → _) ?_; intro _; clear_value x; rotate_left; subst x; rotate_left)
    | (extract_lets +onlyGivenNames x; subst x)
    | split
    | dsimp -zeta only


theorem returnDie_sound {qq : List Instr} {d : Nat} {s : State}  (h_s : Sound qq s) : Sound qq (returnDie d s) := by
  unfold returnDie
  repeat' first
    | with_reducible assumption
    | intro _
    | with_reducible rfl
    | with_reducible apply Sound.ite
    | with_reducible apply each_sound
    | with_reducible apply onDie_sound
    | with_reducible apply each_sound
    | with_reducible apply onBlock_sound
    | with_reducible apply writeRedPage_sound
    | (with_reducible apply Sound.update; first | with_reducible assumption | with_reducible apply onDie_sound | with_reducible apply each_sound | with_reducible apply onBlock_sound | with_reducible apply writeRedPage_sound)
    | (extract_lets +onlyGivenNames x; refine (?_ : Sound qq x → _) ?_; intro _; clear_value x; rotate_left; subst x; rotate_left)
    | (extract_lets +onlyGivenNames x; subst x)
    | split
    | dsimp -zeta only


theorem execDiscoveryComplete_sound {qq : List Instr} {pair : Nat} {found : List DiscoveredDie} {s : State}  (h_s : Sound qq s) : SoundOut qq (execDiscoveryComplete pair found s) := by
  unfold execDiscoveryComplete
  repeat' first
    | with_reducible assumption
    | intro _
    | with_reducible rfl
    | with_reducible apply Sound.ite
    | with_reducible apply each_sound
    | with_reducible apply SoundOut.next
    | with_reducible apply SoundOut.ite
    | with_reducible apply settled_sound
    | with_reducible apply each_sound
    | with_reducible apply showChannel_sound
    | with_reducible apply raise_sound
    | with_reducible apply dropMissing_sound
    | with_reducible apply missingDie_sound
    | with_reducible apply returnDie_sound
    | with_reducible apply settleMedia_sound
    | (with_reducible apply Sound.update; first | with_reducible assumption | with_reducible apply settled_sound | with_reducible apply each_sound | with_reducible apply showChannel_sound | with_reducible apply raise_sound | with_reducible apply dropMissing_sound | with_reducible apply missingDie_sound | with_reducible apply returnDie_sound | with_reducible apply settleMedia_sound)
    | (extract_lets +onlyGivenNames x; refine (?_ : Sound qq x → _) ?_; intro _; clear_value x; rotate_left; subst x; rotate_left)
    | (extract_lets +onlyGivenNames x; subst x)
    | split
    | dsimp -zeta only


end Sys2Proof.Machine
end

