-- ==== Sys2Proof/Laws/SoundTranslation.lean ====
section
/-!
SUPPORT. Soundness through the operations of Machine/Translation.lean.
-/

set_option linter.all false

namespace Sys2Proof.Machine

theorem driveShutdown_sound {qq : List Instr} {s : State}  (h_s : Sound qq s) : Sound qq (driveShutdown s) := by
  unfold driveShutdown
  repeat' first
    | with_reducible assumption
    | intro _
    | with_reducible rfl
    | with_reducible apply Sound.ite
    | with_reducible apply each_sound
    | with_reducible apply padStripe_sound
    | with_reducible apply each_sound
    | with_reducible apply wearSnapshot_sound
    | with_reducible apply pump_sound
    | with_reducible apply checkpointTrigger_sound
    | with_reducible apply noteMi_sound
    | with_reducible apply onCtrl_sound
    | with_reducible apply writeHealthPage_sound
    | (with_reducible apply Sound.update; first | with_reducible assumption | with_reducible apply padStripe_sound | with_reducible apply each_sound | with_reducible apply wearSnapshot_sound | with_reducible apply pump_sound | with_reducible apply checkpointTrigger_sound | with_reducible apply noteMi_sound | with_reducible apply onCtrl_sound | with_reducible apply writeHealthPage_sound)
    | (extract_lets +onlyGivenNames x; refine (?_ : Sound qq x → _) ?_; intro _; clear_value x; rotate_left; subst x; rotate_left)
    | (extract_lets +onlyGivenNames x; subst x)
    | split
    | dsimp -zeta only


theorem execStripePadAge_sound {qq : List Instr} {s : State}  (h_s : Sound qq s) : SoundOut qq (execStripePadAge s) := by
  unfold execStripePadAge
  repeat' first
    | with_reducible assumption
    | intro _
    | with_reducible rfl
    | with_reducible apply Sound.ite
    | with_reducible apply each_sound
    | with_reducible apply SoundOut.next
    | with_reducible apply SoundOut.ite
    | with_reducible apply settleMedia_sound
    | with_reducible apply padStripe_sound
    | with_reducible apply disarm_sound
    | (with_reducible apply Sound.update; first | with_reducible assumption | with_reducible apply settleMedia_sound | with_reducible apply padStripe_sound | with_reducible apply disarm_sound)
    | (extract_lets +onlyGivenNames x; refine (?_ : Sound qq x → _) ?_; intro _; clear_value x; rotate_left; subst x; rotate_left)
    | (extract_lets +onlyGivenNames x; subst x)
    | split
    | dsimp -zeta only


theorem execStripeApply_sound {qq : List Instr} {serial : Nat} {s : State}  (h_s : Sound qq s) : SoundOut qq (execStripeApply serial s) := by
  unfold execStripeApply
  repeat' first
    | with_reducible assumption
    | intro _
    | with_reducible rfl
    | with_reducible apply Sound.ite
    | with_reducible apply each_sound
    | with_reducible apply SoundOut.next
    | with_reducible apply SoundOut.ite
    | with_reducible apply driveShutdown_sound
    | with_reducible apply settleMedia_sound
    | with_reducible apply applyStripe_sound
    | (with_reducible apply Sound.update; first | with_reducible assumption | with_reducible apply driveShutdown_sound | with_reducible apply settleMedia_sound | with_reducible apply applyStripe_sound)
    | (extract_lets +onlyGivenNames x; refine (?_ : Sound qq x → _) ?_; intro _; clear_value x; rotate_left; subst x; rotate_left)
    | (extract_lets +onlyGivenNames x; subst x)
    | split
    | dsimp -zeta only


theorem execStayPageFlushAge_sound {qq : List Instr} {s : State}  (h_s : Sound qq s) : SoundOut qq (execStayPageFlushAge s) := by
  unfold execStayPageFlushAge
  repeat' first
    | with_reducible assumption
    | intro _
    | with_reducible rfl
    | with_reducible apply Sound.ite
    | with_reducible apply each_sound
    | with_reducible apply SoundOut.next
    | with_reducible apply SoundOut.ite
    | with_reducible apply issueStayPage_sound
    | with_reducible apply disarm_sound
    | (with_reducible apply Sound.update; first | with_reducible assumption | with_reducible apply issueStayPage_sound | with_reducible apply disarm_sound)
    | (extract_lets +onlyGivenNames x; refine (?_ : Sound qq x → _) ?_; intro _; clear_value x; rotate_left; subst x; rotate_left)
    | (extract_lets +onlyGivenNames x; subst x)
    | split
    | dsimp -zeta only


theorem execStayPageDurable_sound {qq : List Instr} {s : State}  (h_s : Sound qq s) : SoundOut qq (execStayPageDurable s) := by
  unfold execStayPageDurable
  repeat' first
    | with_reducible assumption
    | intro _
    | with_reducible rfl
    | with_reducible apply Sound.ite
    | with_reducible apply each_sound
    | with_reducible apply SoundOut.next
    | with_reducible apply SoundOut.ite
    | with_reducible apply driveShutdown_sound
    | with_reducible apply settleMedia_sound
    | with_reducible apply releaseDurable_sound
    | (with_reducible apply Sound.update; first | with_reducible assumption | with_reducible apply driveShutdown_sound | with_reducible apply settleMedia_sound | with_reducible apply releaseDurable_sound)
    | (extract_lets +onlyGivenNames x; refine (?_ : Sound qq x → _) ?_; intro _; clear_value x; rotate_left; subst x; rotate_left)
    | (extract_lets +onlyGivenNames x; subst x)
    | split
    | dsimp -zeta only


theorem execStayRepairDone_sound {qq : List Instr} {s : State}  (h_s : Sound qq s) : SoundOut qq (execStayRepairDone s) := by
  unfold execStayRepairDone
  repeat' first
    | with_reducible assumption
    | intro _
    | with_reducible rfl
    | with_reducible apply Sound.ite
    | with_reducible apply each_sound
    | with_reducible apply SoundOut.next
    | with_reducible apply SoundOut.ite
    | with_reducible apply setStay_sound
    | with_reducible apply each_sound
    | with_reducible apply pageRecord_sound
    | with_reducible apply settleMedia_sound
    | with_reducible apply releaseDurable_sound
    | with_reducible apply writeRedPage_sound
    | with_reducible apply issueStayPage_sound
    | with_reducible apply appendBuilt_sound
    | (with_reducible apply Sound.update; first | with_reducible assumption | with_reducible apply setStay_sound | with_reducible apply each_sound | with_reducible apply pageRecord_sound | with_reducible apply settleMedia_sound | with_reducible apply releaseDurable_sound | with_reducible apply writeRedPage_sound | with_reducible apply issueStayPage_sound | with_reducible apply appendBuilt_sound)
    | (extract_lets +onlyGivenNames x; refine (?_ : Sound qq x → _) ?_; intro _; clear_value x; rotate_left; subst x; rotate_left)
    | (extract_lets +onlyGivenNames x; subst x)
    | split
    | dsimp -zeta only


theorem execMapPageArrival_sound {qq : List Instr} {page : Nat} {s : State}  (h_s : Sound qq s) : SoundOut qq (execMapPageArrival page s) := by
  unfold execMapPageArrival
  repeat' first
    | with_reducible assumption
    | intro _
    | with_reducible rfl
    | with_reducible apply Sound.ite
    | with_reducible apply each_sound
    | with_reducible apply SoundOut.next
    | with_reducible apply SoundOut.ite
    | with_reducible apply each_sound
    | with_reducible apply settleSpec_sound
    | with_reducible apply readUnits_sound
    | with_reducible apply settleMedia_sound
    | (with_reducible apply Sound.update; first | with_reducible assumption | with_reducible apply each_sound | with_reducible apply settleSpec_sound | with_reducible apply readUnits_sound | with_reducible apply settleMedia_sound)
    | (extract_lets +onlyGivenNames x; refine (?_ : Sound qq x → _) ?_; intro _; clear_value x; rotate_left; subst x; rotate_left)
    | (extract_lets +onlyGivenNames x; subst x)
    | split
    | dsimp -zeta only


theorem execMapPageWritebackAge_sound {qq : List Instr} {page : Nat} {s : State}  (h_s : Sound qq s) : SoundOut qq (execMapPageWritebackAge page s) := by
  unfold execMapPageWritebackAge
  repeat' first
    | with_reducible assumption
    | intro _
    | with_reducible rfl
    | with_reducible apply Sound.ite
    | with_reducible apply each_sound
    | with_reducible apply SoundOut.next
    | with_reducible apply SoundOut.ite
    | with_reducible apply disarm_sound
    | with_reducible apply settleMedia_sound
    | with_reducible apply writeBack_sound
    | (with_reducible apply Sound.update; first | with_reducible assumption | with_reducible apply disarm_sound | with_reducible apply settleMedia_sound | with_reducible apply writeBack_sound)
    | (extract_lets +onlyGivenNames x; refine (?_ : Sound qq x → _) ?_; intro _; clear_value x; rotate_left; subst x; rotate_left)
    | (extract_lets +onlyGivenNames x; subst x)
    | split
    | dsimp -zeta only


theorem execCheckpointInterval_sound {qq : List Instr} {s : State}  (h_s : Sound qq s) : SoundOut qq (execCheckpointInterval s) := by
  unfold execCheckpointInterval
  repeat' first
    | with_reducible assumption
    | intro _
    | with_reducible rfl
    | with_reducible apply Sound.ite
    | with_reducible apply each_sound
    | with_reducible apply SoundOut.next
    | with_reducible apply SoundOut.ite
    | with_reducible apply settleMedia_sound
    | with_reducible apply checkpointTrigger_sound
    | with_reducible apply disarm_sound
    | (with_reducible apply Sound.update; first | with_reducible assumption | with_reducible apply settleMedia_sound | with_reducible apply checkpointTrigger_sound | with_reducible apply disarm_sound)
    | (extract_lets +onlyGivenNames x; refine (?_ : Sound qq x → _) ?_; intro _; clear_value x; rotate_left; subst x; rotate_left)
    | (extract_lets +onlyGivenNames x; subst x)
    | split
    | dsimp -zeta only


theorem execCheckpointComplete_sound {qq : List Instr} {s : State}  (h_s : Sound qq s) : SoundOut qq (execCheckpointComplete s) := by
  unfold execCheckpointComplete
  repeat' first
    | with_reducible assumption
    | intro _
    | with_reducible rfl
    | with_reducible apply Sound.ite
    | with_reducible apply each_sound
    | with_reducible apply SoundOut.next
    | with_reducible apply SoundOut.ite
    | with_reducible apply writeHealthPage_sound
    | with_reducible apply pruneJournal_sound
    | with_reducible apply appendBuilt_sound
    | with_reducible apply checkpointTrigger_sound
    | with_reducible apply driveShutdown_sound
    | with_reducible apply settleMedia_sound
    | with_reducible apply releaseDurable_sound
    | (with_reducible apply Sound.update; first | with_reducible assumption | with_reducible apply writeHealthPage_sound | with_reducible apply pruneJournal_sound | with_reducible apply appendBuilt_sound | with_reducible apply checkpointTrigger_sound | with_reducible apply driveShutdown_sound | with_reducible apply settleMedia_sound | with_reducible apply releaseDurable_sound)
    | (extract_lets +onlyGivenNames x; refine (?_ : Sound qq x → _) ?_; intro _; clear_value x; rotate_left; subst x; rotate_left)
    | (extract_lets +onlyGivenNames x; subst x)
    | split
    | dsimp -zeta only


theorem execFoldAge_sound {qq : List Instr} {reef : Nat} {s : State}  (h_s : Sound qq s) : SoundOut qq (execFoldAge reef s) := by
  unfold execFoldAge
  repeat' first
    | with_reducible assumption
    | intro _
    | with_reducible rfl
    | with_reducible apply Sound.ite
    | with_reducible apply each_sound
    | with_reducible apply SoundOut.next
    | with_reducible apply SoundOut.ite
    | with_reducible apply disarm_sound
    | with_reducible apply each_sound
    | with_reducible apply readCopy_sound
    | (with_reducible apply Sound.update; first | with_reducible assumption | with_reducible apply disarm_sound | with_reducible apply each_sound | with_reducible apply readCopy_sound)
    | (extract_lets +onlyGivenNames x; refine (?_ : Sound qq x → _) ?_; intro _; clear_value x; rotate_left; subst x; rotate_left)
    | (extract_lets +onlyGivenNames x; subst x)
    | split
    | dsimp -zeta only


theorem execStreamEnd_sound {qq : List Instr} {stream : Nat} {s : State}  (h_s : Sound qq s) : SoundOut qq (execStreamEnd stream s) := by
  unfold execStreamEnd
  repeat' first
    | with_reducible assumption
    | intro _
    | with_reducible rfl
    | with_reducible apply Sound.ite
    | with_reducible apply each_sound
    | with_reducible apply SoundOut.next
    | with_reducible apply SoundOut.ite
    | with_reducible apply disarm_sound
    | (with_reducible apply Sound.update; first | with_reducible assumption | with_reducible apply disarm_sound)
    | (extract_lets +onlyGivenNames x; refine (?_ : Sound qq x → _) ?_; intro _; clear_value x; rotate_left; subst x; rotate_left)
    | (extract_lets +onlyGivenNames x; subst x)
    | split
    | dsimp -zeta only


theorem rebuildCounts_sound {qq : List Instr} {s : State}  (h_s : Sound qq s) : Sound qq (rebuildCounts s) := by
  unfold rebuildCounts
  repeat' first
    | with_reducible assumption
    | intro _
    | with_reducible rfl
    | with_reducible apply Sound.ite
    | with_reducible apply each_sound
    | with_reducible apply onBlock_sound
    | with_reducible apply each_sound
    | (with_reducible apply Sound.update; first | with_reducible assumption | with_reducible apply onBlock_sound | with_reducible apply each_sound)
    | (extract_lets +onlyGivenNames x; refine (?_ : Sound qq x → _) ?_; intro _; clear_value x; rotate_left; subst x; rotate_left)
    | (extract_lets +onlyGivenNames x; subst x)
    | split
    | dsimp -zeta only


theorem execCountsReady_sound {qq : List Instr} {s : State}  (h_s : Sound qq s) : SoundOut qq (execCountsReady s) := by
  unfold execCountsReady
  repeat' first
    | with_reducible assumption
    | intro _
    | with_reducible rfl
    | with_reducible apply Sound.ite
    | with_reducible apply each_sound
    | with_reducible apply SoundOut.next
    | with_reducible apply SoundOut.ite
    | with_reducible apply settleMedia_sound
    | with_reducible apply sweepGroups_sound
    | with_reducible apply rebuildCounts_sound
    | (with_reducible apply Sound.update; first | with_reducible assumption | with_reducible apply settleMedia_sound | with_reducible apply sweepGroups_sound | with_reducible apply rebuildCounts_sound)
    | (extract_lets +onlyGivenNames x; refine (?_ : Sound qq x → _) ?_; intro _; clear_value x; rotate_left; subst x; rotate_left)
    | (extract_lets +onlyGivenNames x; subst x)
    | split
    | dsimp -zeta only


theorem execReclaimVictimSelect_sound {qq : List Instr} {s : State}  (h_s : Sound qq s) : SoundOut qq (execReclaimVictimSelect s) := by
  unfold execReclaimVictimSelect
  repeat' first
    | with_reducible assumption
    | intro _
    | with_reducible rfl
    | with_reducible apply Sound.ite
    | with_reducible apply each_sound
    | with_reducible apply SoundOut.next
    | with_reducible apply SoundOut.ite
    | with_reducible apply takeStamp_snd
    | (with_reducible refine takeStamp_sound (by assumption) ?_)
    | with_reducible apply each_sound
    | with_reducible apply onBlock_sound
    | with_reducible apply readCopy_sound
    | with_reducible apply settleMedia_sound
    | with_reducible apply sweepGroups_sound
    | with_reducible apply dirtyPage_sound
    | (with_reducible apply Sound.update; first | with_reducible assumption | with_reducible apply takeStamp_snd | (with_reducible refine takeStamp_sound (by assumption) ?_) | with_reducible apply each_sound | with_reducible apply onBlock_sound | with_reducible apply readCopy_sound | with_reducible apply settleMedia_sound | with_reducible apply sweepGroups_sound | with_reducible apply dirtyPage_sound)
    | (extract_lets +onlyGivenNames x; refine (?_ : Sound qq x → _) ?_; intro _; clear_value x; rotate_left; subst x; rotate_left)
    | (extract_lets +onlyGivenNames x; subst x)
    | split
    | dsimp -zeta only


theorem execEraseIssue_sound {qq : List Instr} {block : Nat} {s : State}  (h_s : Sound qq s) : SoundOut qq (execEraseIssue block s) := by
  unfold execEraseIssue
  repeat' first
    | with_reducible assumption
    | intro _
    | with_reducible rfl
    | with_reducible apply Sound.ite
    | with_reducible apply each_sound
    | with_reducible apply SoundOut.next
    | with_reducible apply SoundOut.ite
    | with_reducible apply addOp_sound
    | with_reducible apply onBlock_sound
    | (with_reducible apply Sound.update; first | with_reducible assumption | with_reducible apply addOp_sound | with_reducible apply onBlock_sound)
    | (extract_lets +onlyGivenNames x; refine (?_ : Sound qq x → _) ?_; intro _; clear_value x; rotate_left; subst x; rotate_left)
    | (extract_lets +onlyGivenNames x; subst x)
    | split
    | dsimp -zeta only


theorem execIdleDetect_sound {qq : List Instr} {s : State}  (h_s : Sound qq s) : SoundOut qq (execIdleDetect s) := by
  unfold execIdleDetect
  repeat' first
    | with_reducible assumption
    | intro _
    | with_reducible rfl
    | with_reducible apply Sound.ite
    | with_reducible apply each_sound
    | with_reducible apply SoundOut.next
    | with_reducible apply SoundOut.ite
    | with_reducible apply disarm_sound
    | (with_reducible apply Sound.update; first | with_reducible assumption | with_reducible apply disarm_sound)
    | (extract_lets +onlyGivenNames x; refine (?_ : Sound qq x → _) ?_; intro _; clear_value x; rotate_left; subst x; rotate_left)
    | (extract_lets +onlyGivenNames x; subst x)
    | split
    | dsimp -zeta only


theorem execDtwinTimeout_sound {qq : List Instr} {s : State}  (h_s : Sound qq s) : SoundOut qq (execDtwinTimeout s) := by
  unfold execDtwinTimeout
  repeat' first
    | with_reducible assumption
    | intro _
    | with_reducible rfl
    | with_reducible apply Sound.ite
    | with_reducible apply each_sound
    | with_reducible apply SoundOut.next
    | with_reducible apply SoundOut.ite
    | with_reducible apply leaveWindow_sound
    | with_reducible apply disarm_sound
    | (with_reducible apply Sound.update; first | with_reducible assumption | with_reducible apply leaveWindow_sound | with_reducible apply disarm_sound)
    | (extract_lets +onlyGivenNames x; refine (?_ : Sound qq x → _) ?_; intro _; clear_value x; rotate_left; subst x; rotate_left)
    | (extract_lets +onlyGivenNames x; subst x)
    | split
    | dsimp -zeta only


theorem endWalk_sound {qq : List Instr} {d : Nat} {s : State}  (h_s : Sound qq s) : Sound qq (endWalk d s) := by
  unfold endWalk
  repeat' first
    | with_reducible assumption
    | intro _
    | with_reducible rfl
    | with_reducible apply Sound.ite
    | with_reducible apply each_sound
    | with_reducible apply writeRedPage_sound
    | with_reducible apply onDie_sound
    | with_reducible apply raise_sound
    | with_reducible apply each_sound
    | with_reducible apply reportRefresh_sound
    | (with_reducible apply Sound.update; first | with_reducible assumption | with_reducible apply writeRedPage_sound | with_reducible apply onDie_sound | with_reducible apply raise_sound | with_reducible apply each_sound | with_reducible apply reportRefresh_sound)
    | (extract_lets +onlyGivenNames x; refine (?_ : Sound qq x → _) ?_; intro _; clear_value x; rotate_left; subst x; rotate_left)
    | (extract_lets +onlyGivenNames x; subst x)
    | split
    | dsimp -zeta only


theorem execRebuildStripeVisit_sound {qq : List Instr} {s : State}  (h_s : Sound qq s) : SoundOut qq (execRebuildStripeVisit s) := by
  unfold execRebuildStripeVisit
  repeat' first
    | with_reducible assumption
    | intro _
    | with_reducible rfl
    | with_reducible apply Sound.ite
    | with_reducible apply each_sound
    | with_reducible apply SoundOut.next
    | with_reducible apply SoundOut.ite
    | with_reducible apply raise_sound
    | with_reducible apply writeRedPage_sound
    | with_reducible apply onDie_sound
    | with_reducible apply settleMedia_sound
    | with_reducible apply endWalk_sound
    | with_reducible apply takeStamp_snd
    | (with_reducible refine takeStamp_sound (by assumption) ?_)
    | with_reducible apply each_sound
    | with_reducible apply beginRecon_sound
    | (with_reducible apply Sound.update; first | with_reducible assumption | with_reducible apply raise_sound | with_reducible apply writeRedPage_sound | with_reducible apply onDie_sound | with_reducible apply settleMedia_sound | with_reducible apply endWalk_sound | with_reducible apply takeStamp_snd | (with_reducible refine takeStamp_sound (by assumption) ?_) | with_reducible apply each_sound | with_reducible apply beginRecon_sound)
    | (extract_lets +onlyGivenNames x; refine (?_ : Sound qq x → _) ?_; intro _; clear_value x; rotate_left; subst x; rotate_left)
    | (extract_lets +onlyGivenNames x; subst x)
    | split
    | dsimp -zeta only


theorem execReshapeCutover_sound {qq : List Instr} {s : State}  (h_s : Sound qq s) : SoundOut qq (execReshapeCutover s) := by
  unfold execReshapeCutover
  repeat' first
    | with_reducible assumption
    | intro _
    | with_reducible rfl
    | with_reducible apply Sound.ite
    | with_reducible apply each_sound
    | with_reducible apply SoundOut.next
    | with_reducible apply SoundOut.ite
    | with_reducible apply writeRedPage_sound
    | with_reducible apply takeStamp_snd
    | (with_reducible refine takeStamp_sound (by assumption) ?_)
    | with_reducible apply settleMedia_sound
    | with_reducible apply recount_sound
    | (with_reducible apply Sound.update; first | with_reducible assumption | with_reducible apply writeRedPage_sound | with_reducible apply takeStamp_snd | (with_reducible refine takeStamp_sound (by assumption) ?_) | with_reducible apply settleMedia_sound | with_reducible apply recount_sound)
    | (extract_lets +onlyGivenNames x; refine (?_ : Sound qq x → _) ?_; intro _; clear_value x; rotate_left; subst x; rotate_left)
    | (extract_lets +onlyGivenNames x; subst x)
    | split
    | dsimp -zeta only


end Sys2Proof.Machine
end

