-- ==== Sys2Proof/Laws/SoundPower.lean ====
section
/-!
SUPPORT. Soundness through the operations of Machine/Power.lean.
-/

set_option linter.all false

namespace Sys2Proof.Machine

theorem raiseAwake_sound {qq : List Instr} {source : Nat} {detail : Nat} {s : State}  (h_s : Sound qq s) : Sound qq (raiseAwake source detail s) := by
  unfold raiseAwake
  repeat' first
    | with_reducible assumption
    | intro _
    | with_reducible rfl
    | with_reducible apply Sound.ite
    | with_reducible apply each_sound
    | with_reducible apply raise_sound
    | (with_reducible apply Sound.update; first | with_reducible assumption | with_reducible apply raise_sound)
    | (extract_lets +onlyGivenNames x; refine (?_ : Sound qq x → _) ?_; intro _; clear_value x; rotate_left; subst x; rotate_left)
    | (extract_lets +onlyGivenNames x; subst x)
    | split
    | dsimp -zeta only


theorem execRailPowerUpStep_sound {qq : List Instr} {s : State}  (h_s : Sound qq s) : SoundOut qq (execRailPowerUpStep s) := by
  unfold execRailPowerUpStep
  repeat' first
    | with_reducible assumption
    | intro _
    | with_reducible rfl
    | with_reducible apply Sound.ite
    | with_reducible apply each_sound
    | with_reducible apply SoundOut.next
    | with_reducible apply SoundOut.ite
    | (with_reducible apply Sound.update; first | with_reducible assumption)
    | (extract_lets +onlyGivenNames x; refine (?_ : Sound qq x → _) ?_; intro _; clear_value x; rotate_left; subst x; rotate_left)
    | (extract_lets +onlyGivenNames x; subst x)
    | split
    | dsimp -zeta only


theorem loseDram_sound {qq : List Instr} {s : State}  (h_s : Sound qq s) : Sound qq (loseDram s) := by
  unfold loseDram
  repeat' first
    | with_reducible assumption
    | intro _
    | with_reducible rfl
    | with_reducible apply Sound.ite
    | with_reducible apply each_sound
    | (with_reducible apply Sound.update; first | with_reducible assumption)
    | (extract_lets +onlyGivenNames x; refine (?_ : Sound qq x → _) ?_; intro _; clear_value x; rotate_left; subst x; rotate_left)
    | (extract_lets +onlyGivenNames x; subst x)
    | split
    | dsimp -zeta only


theorem execRailPowerGoodTimeout_sound {qq : List Instr} {rail : Nat} {s : State}  (h_s : Sound qq s) : SoundOut qq (execRailPowerGoodTimeout rail s) := by
  unfold execRailPowerGoodTimeout
  repeat' first
    | with_reducible assumption
    | intro _
    | with_reducible rfl
    | with_reducible apply Sound.ite
    | with_reducible apply each_sound
    | with_reducible apply SoundOut.next
    | with_reducible apply SoundOut.ite
    | with_reducible apply loseDram_sound
    | (with_reducible apply Sound.update; first | with_reducible assumption | with_reducible apply loseDram_sound)
    | (extract_lets +onlyGivenNames x; refine (?_ : Sound qq x → _) ?_; intro _; clear_value x; rotate_left; subst x; rotate_left)
    | (extract_lets +onlyGivenNames x; subst x)
    | split
    | dsimp -zeta only


theorem execRailRetryTimer_sound {qq : List Instr} {s : State}  (h_s : Sound qq s) : SoundOut qq (execRailRetryTimer s) := by
  unfold execRailRetryTimer
  repeat' first
    | with_reducible assumption
    | intro _
    | with_reducible rfl
    | with_reducible apply Sound.ite
    | with_reducible apply each_sound
    | with_reducible apply SoundOut.next
    | with_reducible apply SoundOut.ite
    | (with_reducible apply Sound.update; first | with_reducible assumption)
    | (extract_lets +onlyGivenNames x; refine (?_ : Sound qq x → _) ?_; intro _; clear_value x; rotate_left; subst x; rotate_left)
    | (extract_lets +onlyGivenNames x; subst x)
    | split
    | dsimp -zeta only


theorem sampleStraps_sound {qq : List Instr} {b : Balls} {s : State}  (h_s : Sound qq s) : Sound qq (sampleStraps b s) := by
  unfold sampleStraps
  repeat' first
    | with_reducible assumption
    | intro _
    | with_reducible rfl
    | with_reducible apply Sound.ite
    | with_reducible apply each_sound
    | (with_reducible apply Sound.update; first | with_reducible assumption)
    | (extract_lets +onlyGivenNames x; refine (?_ : Sound qq x → _) ?_; intro _; clear_value x; rotate_left; subst x; rotate_left)
    | (extract_lets +onlyGivenNames x; subst x)
    | split
    | dsimp -zeta only


theorem execPowerOnResetRelease_sound {qq : List Instr} {balls : Balls} {s : State}  (h_s : Sound qq s) : SoundOut qq (execPowerOnResetRelease balls s) := by
  unfold execPowerOnResetRelease
  repeat' first
    | with_reducible assumption
    | intro _
    | with_reducible rfl
    | with_reducible apply Sound.ite
    | with_reducible apply each_sound
    | with_reducible apply SoundOut.next
    | with_reducible apply SoundOut.ite
    | with_reducible apply sampleStraps_sound
    | with_reducible apply releaseDomain_sound
    | (with_reducible apply Sound.update; first | with_reducible assumption | with_reducible apply sampleStraps_sound | with_reducible apply releaseDomain_sound)
    | (extract_lets +onlyGivenNames x; refine (?_ : Sound qq x → _) ?_; intro _; clear_value x; rotate_left; subst x; rotate_left)
    | (extract_lets +onlyGivenNames x; subst x)
    | split
    | dsimp -zeta only


theorem execStrapChangeDetected_sound {qq : List Instr} {levels : Nat} {s : State}  (h_s : Sound qq s) : SoundOut qq (execStrapChangeDetected levels s) := by
  unfold execStrapChangeDetected
  repeat' first
    | with_reducible assumption
    | intro _
    | with_reducible rfl
    | with_reducible apply Sound.ite
    | with_reducible apply each_sound
    | with_reducible apply SoundOut.next
    | with_reducible apply SoundOut.ite
    | (with_reducible apply Sound.update; first | with_reducible assumption)
    | (extract_lets +onlyGivenNames x; refine (?_ : Sound qq x → _) ?_; intro _; clear_value x; rotate_left; subst x; rotate_left)
    | (extract_lets +onlyGivenNames x; subst x)
    | split
    | dsimp -zeta only


theorem goDark_sound {qq : List Instr} {s : State}  (h_s : Sound qq s) : Sound qq (goDark s) := by
  unfold goDark
  repeat' first
    | with_reducible assumption
    | intro _
    | with_reducible rfl
    | with_reducible apply Sound.ite
    | with_reducible apply each_sound
    | with_reducible apply afterReset_sound
    | (with_reducible apply Sound.update; first | with_reducible assumption | with_reducible apply afterReset_sound)
    | (extract_lets +onlyGivenNames x; refine (?_ : Sound qq x → _) ?_; intro _; clear_value x; rotate_left; subst x; rotate_left)
    | (extract_lets +onlyGivenNames x; subst x)
    | split
    | dsimp -zeta only


theorem powerDown_sound {qq : List Instr} {s : State}  (h_s : Sound qq s) : Sound qq (powerDown s) := by
  unfold powerDown
  repeat' first
    | with_reducible assumption
    | intro _
    | with_reducible rfl
    | with_reducible apply Sound.ite
    | with_reducible apply each_sound
    | with_reducible apply afterReset_sound
    | with_reducible apply goDark_sound
    | (with_reducible apply Sound.update; first | with_reducible assumption | with_reducible apply afterReset_sound | with_reducible apply goDark_sound)
    | (extract_lets +onlyGivenNames x; refine (?_ : Sound qq x → _) ?_; intro _; clear_value x; rotate_left; subst x; rotate_left)
    | (extract_lets +onlyGivenNames x; subst x)
    | split
    | dsimp -zeta only


theorem holdDram_sound {qq : List Instr} {s : State}  (h_s : Sound qq s) : Sound qq (holdDram s) := by
  unfold holdDram
  repeat' first
    | with_reducible assumption
    | intro _
    | with_reducible rfl
    | with_reducible apply Sound.ite
    | with_reducible apply each_sound
    | with_reducible apply afterReset_sound
    | (with_reducible apply Sound.update; first | with_reducible assumption | with_reducible apply afterReset_sound)
    | (extract_lets +onlyGivenNames x; refine (?_ : Sound qq x → _) ?_; intro _; clear_value x; rotate_left; subst x; rotate_left)
    | (extract_lets +onlyGivenNames x; subst x)
    | split
    | dsimp -zeta only


theorem abandonSeals_sound {qq : List Instr} {s : State}  (h_s : Sound qq s) : Sound qq (abandonSeals s) := by
  unfold abandonSeals
  repeat' first
    | with_reducible assumption
    | intro _
    | with_reducible rfl
    | with_reducible apply Sound.ite
    | with_reducible apply each_sound
    | with_reducible apply spillRecord_sound
    | (with_reducible apply Sound.update; first | with_reducible assumption | with_reducible apply spillRecord_sound)
    | (extract_lets +onlyGivenNames x; refine (?_ : Sound qq x → _) ?_; intro _; clear_value x; rotate_left; subst x; rotate_left)
    | (extract_lets +onlyGivenNames x; subst x)
    | split
    | dsimp -zeta only


theorem beginSpill_sound {qq : List Instr} {cause : SpillCause} {th : Bool} {s : State}  (h_s : Sound qq s) : Sound qq (beginSpill cause th s) := by
  unfold beginSpill
  repeat' first
    | with_reducible assumption
    | intro _
    | with_reducible rfl
    | with_reducible apply Sound.ite
    | with_reducible apply each_sound
    | with_reducible apply takeStamp_snd
    | (with_reducible refine takeStamp_sound (by assumption) ?_)
    | with_reducible apply askDigest_sound
    | (with_reducible apply Sound.update; first | with_reducible assumption | with_reducible apply takeStamp_snd | (with_reducible refine takeStamp_sound (by assumption) ?_) | with_reducible apply askDigest_sound)
    | (extract_lets +onlyGivenNames x; refine (?_ : Sound qq x → _) ?_; intro _; clear_value x; rotate_left; subst x; rotate_left)
    | (extract_lets +onlyGivenNames x; subst x)
    | split
    | dsimp -zeta only


theorem sealRecord_snd {qq : List Instr} {type : Nat} {payload : Bytes} {x : Spill} {s : State}   (h_s : Sound qq s) : Sound qq (sealRecord type payload x s).2 := by
  unfold sealRecord
  repeat' first
    | with_reducible assumption
    | intro _
    | with_reducible rfl
    | with_reducible apply Sound.ite_snd
    | with_reducible apply Sound.ite
    | with_reducible apply each_sound
    | with_reducible apply takeNonce_snd
    | (with_reducible refine takeNonce_sound (by assumption) ?_)
    | (with_reducible apply Sound.update; first | with_reducible assumption | with_reducible apply takeNonce_snd | (with_reducible refine takeNonce_sound (by assumption) ?_))
    | (extract_lets +onlyGivenNames x; refine (?_ : Sound qq x → _) ?_; intro _; clear_value x; rotate_left; subst x; rotate_left)
    | (extract_lets +onlyGivenNames x; subst x)
    | split
    | dsimp -zeta only

theorem sealRecord_sound {qq : List Instr} {type : Nat} {payload : Bytes} {x : Spill} {s : State} {r0 : Spill} {tt : State} (eqn : sealRecord type payload x s = (r0, tt))  (h_s : Sound qq s) : Sound qq tt := by
  have h := sealRecord_snd (qq := qq) (type := type) (payload := payload) (x := x) (s := s) h_s
  rw [eqn] at h
  exact h

theorem spillRecord_sound {qq : List Instr} {ok : Bool} {x : Spill} {s : State}  (h_s : Sound qq s) : Sound qq (spillRecord ok x s) := by
  unfold spillRecord
  repeat' first
    | with_reducible assumption
    | intro _
    | with_reducible rfl
    | with_reducible apply Sound.ite
    | with_reducible apply each_sound
    | with_reducible apply sealRecord_snd
    | (with_reducible refine sealRecord_sound (by assumption) ?_)
    | (with_reducible apply Sound.update; first | with_reducible assumption | with_reducible apply sealRecord_snd | (with_reducible refine sealRecord_sound (by assumption) ?_))
    | (extract_lets +onlyGivenNames x; refine (?_ : Sound qq x → _) ?_; intro _; clear_value x; rotate_left; subst x; rotate_left)
    | (extract_lets +onlyGivenNames x; subst x)
    | split
    | dsimp -zeta only


theorem keepImage_sound {qq : List Instr} {x : Spill} {s : State}  (h_s : Sound qq s) : Sound qq (keepImage x s) := by
  unfold keepImage
  repeat' first
    | with_reducible assumption
    | intro _
    | with_reducible rfl
    | with_reducible apply Sound.ite
    | with_reducible apply each_sound
    | (with_reducible apply Sound.update; first | with_reducible assumption)
    | (extract_lets +onlyGivenNames x; refine (?_ : Sound qq x → _) ?_; intro _; clear_value x; rotate_left; subst x; rotate_left)
    | (extract_lets +onlyGivenNames x; subst x)
    | split
    | dsimp -zeta only


theorem writeMarker_sound {qq : List Instr} {x : Spill} {s : State}  (h_s : Sound qq s) : Sound qq (writeMarker x s) := by
  unfold writeMarker
  repeat' first
    | with_reducible assumption
    | intro _
    | with_reducible rfl
    | with_reducible apply Sound.ite
    | with_reducible apply each_sound
    | with_reducible apply takeStamp_snd
    | (with_reducible refine takeStamp_sound (by assumption) ?_)
    | with_reducible apply sealRecord_snd
    | (with_reducible refine sealRecord_sound (by assumption) ?_)
    | with_reducible apply keepImage_sound
    | (with_reducible apply Sound.update; first | with_reducible assumption | with_reducible apply takeStamp_snd | (with_reducible refine takeStamp_sound (by assumption) ?_) | with_reducible apply sealRecord_snd | (with_reducible refine sealRecord_sound (by assumption) ?_) | with_reducible apply keepImage_sound)
    | (extract_lets +onlyGivenNames x; refine (?_ : Sound qq x → _) ?_; intro _; clear_value x; rotate_left; subst x; rotate_left)
    | (extract_lets +onlyGivenNames x; subst x)
    | split
    | dsimp -zeta only


theorem haltPersisted_sound {qq : List Instr} {s : State}  (h_s : Sound qq s) : Sound qq (haltPersisted s) := by
  unfold haltPersisted
  repeat' first
    | with_reducible assumption
    | intro _
    | with_reducible rfl
    | with_reducible apply Sound.ite
    | with_reducible apply each_sound
    | with_reducible apply request_sound
    | (with_reducible apply Sound.update; first | with_reducible assumption | with_reducible apply request_sound)
    | (extract_lets +onlyGivenNames x; refine (?_ : Sound qq x → _) ?_; intro _; clear_value x; rotate_left; subst x; rotate_left)
    | (extract_lets +onlyGivenNames x; subst x)
    | split
    | dsimp -zeta only


theorem execSpillRecordWritten_sound {qq : List Instr} {ok : Bool} {s : State}  (h_s : Sound qq s) : SoundOut qq (execSpillRecordWritten ok s) := by
  unfold execSpillRecordWritten
  repeat' first
    | with_reducible assumption
    | intro _
    | with_reducible rfl
    | with_reducible apply Sound.ite
    | with_reducible apply each_sound
    | with_reducible apply SoundOut.next
    | with_reducible apply SoundOut.ite
    | with_reducible apply haltPersisted_sound
    | with_reducible apply writeMarker_sound
    | with_reducible apply spillRecord_sound
    | (with_reducible apply Sound.update; first | with_reducible assumption | with_reducible apply haltPersisted_sound | with_reducible apply writeMarker_sound | with_reducible apply spillRecord_sound)
    | (extract_lets +onlyGivenNames x; refine (?_ : Sound qq x → _) ?_; intro _; clear_value x; rotate_left; subst x; rotate_left)
    | (extract_lets +onlyGivenNames x; subst x)
    | split
    | dsimp -zeta only


theorem enterFlush_sound {qq : List Instr} {s : State}  (h_s : Sound qq s) : Sound qq (enterFlush s) := by
  unfold enterFlush
  repeat' first
    | with_reducible assumption
    | intro _
    | with_reducible rfl
    | with_reducible apply Sound.ite
    | with_reducible apply each_sound
    | with_reducible apply deferReset_sound
    | with_reducible apply abandonSeals_sound
    | with_reducible apply haltMedia_sound
    | with_reducible apply setMode_sound
    | with_reducible apply beginSpill_sound
    | (with_reducible apply Sound.update; first | with_reducible assumption | with_reducible apply deferReset_sound | with_reducible apply abandonSeals_sound | with_reducible apply haltMedia_sound | with_reducible apply setMode_sound | with_reducible apply beginSpill_sound)
    | (extract_lets +onlyGivenNames x; refine (?_ : Sound qq x → _) ?_; intro _; clear_value x; rotate_left; subst x; rotate_left)
    | (extract_lets +onlyGivenNames x; subst x)
    | split
    | dsimp -zeta only


theorem lossInStart_sound {qq : List Instr} {s : State}  (h_s : Sound qq s) : Sound qq (lossInStart s) := by
  unfold lossInStart
  repeat' first
    | with_reducible assumption
    | intro _
    | with_reducible rfl
    | with_reducible apply Sound.ite
    | with_reducible apply each_sound
    | with_reducible apply powerDown_sound
    | with_reducible apply abandonSeals_sound
    | with_reducible apply haltMedia_sound
    | with_reducible apply beginSpill_sound
    | with_reducible apply holdDram_sound
    | (with_reducible apply Sound.update; first | with_reducible assumption | with_reducible apply powerDown_sound | with_reducible apply abandonSeals_sound | with_reducible apply haltMedia_sound | with_reducible apply beginSpill_sound | with_reducible apply holdDram_sound)
    | (extract_lets +onlyGivenNames x; refine (?_ : Sound qq x → _) ?_; intro _; clear_value x; rotate_left; subst x; rotate_left)
    | (extract_lets +onlyGivenNames x; subst x)
    | split
    | dsimp -zeta only


theorem refreshCharger_sound {qq : List Instr} {s : State}  (h_s : Sound qq s) : Sound qq (refreshCharger s) := by
  unfold refreshCharger
  repeat' first
    | with_reducible assumption
    | intro _
    | with_reducible rfl
    | with_reducible apply Sound.ite
    | with_reducible apply each_sound
    | (with_reducible apply Sound.update; first | with_reducible assumption)
    | (extract_lets +onlyGivenNames x; refine (?_ : Sound qq x → _) ?_; intro _; clear_value x; rotate_left; subst x; rotate_left)
    | (extract_lets +onlyGivenNames x; subst x)
    | split
    | dsimp -zeta only


theorem actLoss_sound {qq : List Instr} {s : State}  (h_s : Sound qq s) : Sound qq (actLoss s) := by
  unfold actLoss
  repeat' first
    | with_reducible assumption
    | intro _
    | with_reducible rfl
    | with_reducible apply Sound.ite
    | with_reducible apply each_sound
    | with_reducible apply enterFlush_sound
    | with_reducible apply lossInStart_sound
    | with_reducible apply powerDown_sound
    | with_reducible apply holdDram_sound
    | (with_reducible apply Sound.update; first | with_reducible assumption | with_reducible apply enterFlush_sound | with_reducible apply lossInStart_sound | with_reducible apply powerDown_sound | with_reducible apply holdDram_sound)
    | (extract_lets +onlyGivenNames x; refine (?_ : Sound qq x → _) ?_; intro _; clear_value x; rotate_left; subst x; rotate_left)
    | (extract_lets +onlyGivenNames x; subst x)
    | split
    | dsimp -zeta only


theorem powerLost_sound {qq : List Instr} {s : State}  (h_s : Sound qq s) : Sound qq (powerLost s) := by
  unfold powerLost
  repeat' first
    | with_reducible assumption
    | intro _
    | with_reducible rfl
    | with_reducible apply Sound.ite
    | with_reducible apply each_sound
    | with_reducible apply actLoss_sound
    | with_reducible apply disarm_sound
    | (with_reducible apply Sound.update; first | with_reducible assumption | with_reducible apply actLoss_sound | with_reducible apply disarm_sound)
    | (extract_lets +onlyGivenNames x; refine (?_ : Sound qq x → _) ?_; intro _; clear_value x; rotate_left; subst x; rotate_left)
    | (extract_lets +onlyGivenNames x; subst x)
    | split
    | dsimp -zeta only


theorem execPowerLossDetected_sound {qq : List Instr} {s : State}  (h_s : Sound qq s) : SoundOut qq (execPowerLossDetected s) := by
  unfold execPowerLossDetected
  repeat' first
    | with_reducible assumption
    | intro _
    | with_reducible rfl
    | with_reducible apply Sound.ite
    | with_reducible apply each_sound
    | with_reducible apply SoundOut.next
    | with_reducible apply SoundOut.ite
    | with_reducible apply powerLost_sound
    | (with_reducible apply Sound.update; first | with_reducible assumption | with_reducible apply powerLost_sound)
    | (extract_lets +onlyGivenNames x; refine (?_ : Sound qq x → _) ?_; intro _; clear_value x; rotate_left; subst x; rotate_left)
    | (extract_lets +onlyGivenNames x; subst x)
    | split
    | dsimp -zeta only


theorem execPwrdisAssert_sound {qq : List Instr} {s : State}  (h_s : Sound qq s) : SoundOut qq (execPwrdisAssert s) := by
  unfold execPwrdisAssert
  repeat' first
    | with_reducible assumption
    | intro _
    | with_reducible rfl
    | with_reducible apply Sound.ite
    | with_reducible apply each_sound
    | with_reducible apply SoundOut.next
    | with_reducible apply SoundOut.ite
    | with_reducible apply powerLost_sound
    | (with_reducible apply Sound.update; first | with_reducible assumption | with_reducible apply powerLost_sound)
    | (extract_lets +onlyGivenNames x; refine (?_ : Sound qq x → _) ?_; intro _; clear_value x; rotate_left; subst x; rotate_left)
    | (extract_lets +onlyGivenNames x; subst x)
    | split
    | dsimp -zeta only


theorem reapply_sound {qq : List Instr} {s : State}  (h_s : Sound qq s) : Sound qq (reapply s) := by
  unfold reapply
  repeat' first
    | with_reducible assumption
    | intro _
    | with_reducible rfl
    | with_reducible apply Sound.ite
    | with_reducible apply each_sound
    | with_reducible apply powerOn_sound
    | (with_reducible apply Sound.update; first | with_reducible assumption | with_reducible apply powerOn_sound)
    | (extract_lets +onlyGivenNames x; refine (?_ : Sound qq x → _) ?_; intro _; clear_value x; rotate_left; subst x; rotate_left)
    | (extract_lets +onlyGivenNames x; subst x)
    | split
    | dsimp -zeta only


theorem execPwrdisDeassert_sound {qq : List Instr} {s : State}  (h_s : Sound qq s) : SoundOut qq (execPwrdisDeassert s) := by
  unfold execPwrdisDeassert
  repeat' first
    | with_reducible assumption
    | intro _
    | with_reducible rfl
    | with_reducible apply Sound.ite
    | with_reducible apply each_sound
    | with_reducible apply SoundOut.next
    | with_reducible apply SoundOut.ite
    | with_reducible apply reapply_sound
    | with_reducible apply loseDram_sound
    | (with_reducible apply Sound.update; first | with_reducible assumption | with_reducible apply reapply_sound | with_reducible apply loseDram_sound)
    | (extract_lets +onlyGivenNames x; refine (?_ : Sound qq x → _) ?_; intro _; clear_value x; rotate_left; subst x; rotate_left)
    | (extract_lets +onlyGivenNames x; subst x)
    | split
    | dsimp -zeta only


theorem execColdPowerOn_sound {qq : List Instr} {s : State}  (h_s : Sound qq s) : SoundOut qq (execColdPowerOn s) := by
  unfold execColdPowerOn
  repeat' first
    | with_reducible assumption
    | intro _
    | with_reducible rfl
    | with_reducible apply Sound.ite
    | with_reducible apply each_sound
    | with_reducible apply SoundOut.next
    | with_reducible apply SoundOut.ite
    | with_reducible apply powerOn_sound
    | (with_reducible apply Sound.update; first | with_reducible assumption | with_reducible apply powerOn_sound)
    | (extract_lets +onlyGivenNames x; refine (?_ : Sound qq x → _) ?_; intro _; clear_value x; rotate_left; subst x; rotate_left)
    | (extract_lets +onlyGivenNames x; subst x)
    | split
    | dsimp -zeta only


theorem execVinFallDark_sound {qq : List Instr} {s : State}  (h_s : Sound qq s) : SoundOut qq (execVinFallDark s) := by
  unfold execVinFallDark
  repeat' first
    | with_reducible assumption
    | intro _
    | with_reducible rfl
    | with_reducible apply Sound.ite
    | with_reducible apply each_sound
    | with_reducible apply SoundOut.next
    | with_reducible apply SoundOut.ite
    | with_reducible apply powerLost_sound
    | with_reducible apply goDark_sound
    | (with_reducible apply Sound.update; first | with_reducible assumption | with_reducible apply powerLost_sound | with_reducible apply goDark_sound)
    | (extract_lets +onlyGivenNames x; refine (?_ : Sound qq x → _) ?_; intro _; clear_value x; rotate_left; subst x; rotate_left)
    | (extract_lets +onlyGivenNames x; subst x)
    | split
    | dsimp -zeta only


theorem execVinOvervoltage_sound {qq : List Instr} {s : State}  (h_s : Sound qq s) : SoundOut qq (execVinOvervoltage s) := by
  unfold execVinOvervoltage
  repeat' first
    | with_reducible assumption
    | intro _
    | with_reducible rfl
    | with_reducible apply Sound.ite
    | with_reducible apply each_sound
    | with_reducible apply SoundOut.next
    | with_reducible apply SoundOut.ite
    | with_reducible apply raiseAwake_sound
    | (with_reducible apply Sound.update; first | with_reducible assumption | with_reducible apply raiseAwake_sound)
    | (extract_lets +onlyGivenNames x; refine (?_ : Sound qq x → _) ?_; intro _; clear_value x; rotate_left; subst x; rotate_left)
    | (extract_lets +onlyGivenNames x; subst x)
    | split
    | dsimp -zeta only


theorem execFlushEnd_sound {qq : List Instr} {s : State}  (h_s : Sound qq s) : SoundOut qq (execFlushEnd s) := by
  unfold execFlushEnd
  repeat' first
    | with_reducible assumption
    | intro _
    | with_reducible rfl
    | with_reducible apply Sound.ite
    | with_reducible apply each_sound
    | with_reducible apply SoundOut.next
    | with_reducible apply SoundOut.ite
    | with_reducible apply powerDown_sound
    | with_reducible apply powerOn_sound
    | with_reducible apply goDark_sound
    | with_reducible apply writeMarker_sound
    | (with_reducible apply Sound.update; first | with_reducible assumption | with_reducible apply powerDown_sound | with_reducible apply powerOn_sound | with_reducible apply goDark_sound | with_reducible apply writeMarker_sound)
    | (extract_lets +onlyGivenNames x; refine (?_ : Sound qq x → _) ?_; intro _; clear_value x; rotate_left; subst x; rotate_left)
    | (extract_lets +onlyGivenNames x; subst x)
    | split
    | dsimp -zeta only


theorem execBankBelowVmin_sound {qq : List Instr} {s : State}  (h_s : Sound qq s) : SoundOut qq (execBankBelowVmin s) := by
  unfold execBankBelowVmin
  repeat' first
    | with_reducible assumption
    | intro _
    | with_reducible rfl
    | with_reducible apply Sound.ite
    | with_reducible apply each_sound
    | with_reducible apply SoundOut.next
    | with_reducible apply SoundOut.ite
    | with_reducible apply keepImage_sound
    | with_reducible apply goDark_sound
    | (with_reducible apply Sound.update; first | with_reducible assumption | with_reducible apply keepImage_sound | with_reducible apply goDark_sound)
    | (extract_lets +onlyGivenNames x; refine (?_ : Sound qq x → _) ?_; intro _; clear_value x; rotate_left; subst x; rotate_left)
    | (extract_lets +onlyGivenNames x; subst x)
    | split
    | dsimp -zeta only


theorem execVinReturnInFlush_sound {qq : List Instr} {s : State}  (h_s : Sound qq s) : SoundOut qq (execVinReturnInFlush s) := by
  unfold execVinReturnInFlush
  repeat' first
    | with_reducible assumption
    | intro _
    | with_reducible rfl
    | with_reducible apply Sound.ite
    | with_reducible apply each_sound
    | with_reducible apply SoundOut.next
    | with_reducible apply SoundOut.ite
    | (with_reducible apply Sound.update; first | with_reducible assumption)
    | (extract_lets +onlyGivenNames x; refine (?_ : Sound qq x → _) ?_; intro _; clear_value x; rotate_left; subst x; rotate_left)
    | (extract_lets +onlyGivenNames x; subst x)
    | split
    | dsimp -zeta only


theorem execVinReturnInHold_sound {qq : List Instr} {s : State}  (h_s : Sound qq s) : SoundOut qq (execVinReturnInHold s) := by
  unfold execVinReturnInHold
  repeat' first
    | with_reducible assumption
    | intro _
    | with_reducible rfl
    | with_reducible apply Sound.ite
    | with_reducible apply each_sound
    | with_reducible apply SoundOut.next
    | with_reducible apply SoundOut.ite
    | with_reducible apply assertL5_sound
    | (with_reducible apply Sound.update; first | with_reducible assumption | with_reducible apply assertL5_sound)
    | (extract_lets +onlyGivenNames x; refine (?_ : Sound qq x → _) ?_; intro _; clear_value x; rotate_left; subst x; rotate_left)
    | (extract_lets +onlyGivenNames x; subst x)
    | split
    | dsimp -zeta only


theorem onPair_sound {qq : List Instr} {p : Nat} {f : Pair → Pair} {s : State}  (h_s : Sound qq s) : Sound qq (onPair p f s) := by
  unfold onPair
  repeat' first
    | with_reducible assumption
    | intro _
    | with_reducible rfl
    | with_reducible apply Sound.ite
    | with_reducible apply each_sound
    | (with_reducible apply Sound.update; first | with_reducible assumption)
    | (extract_lets +onlyGivenNames x; refine (?_ : Sound qq x → _) ?_; intro _; clear_value x; rotate_left; subst x; rotate_left)
    | (extract_lets +onlyGivenNames x; subst x)
    | split
    | dsimp -zeta only


theorem driveNven_sound {qq : List Instr} {p : Nat} {on : Bool} {s : State}  (h_s : Sound qq s) : Sound qq (driveNven p on s) := by
  unfold driveNven
  repeat' first
    | with_reducible assumption
    | intro _
    | with_reducible rfl
    | with_reducible apply Sound.ite
    | with_reducible apply each_sound
    | (with_reducible apply Sound.update; first | with_reducible assumption)
    | (extract_lets +onlyGivenNames x; refine (?_ : Sound qq x → _) ?_; intro _; clear_value x; rotate_left; subst x; rotate_left)
    | (extract_lets +onlyGivenNames x; subst x)
    | split
    | dsimp -zeta only


theorem showNpg_sound {qq : List Instr} {p : Nat} {on : Bool} {s : State}  (h_s : Sound qq s) : Sound qq (showNpg p on s) := by
  unfold showNpg
  repeat' first
    | with_reducible assumption
    | intro _
    | with_reducible rfl
    | with_reducible apply Sound.ite
    | with_reducible apply each_sound
    | (with_reducible apply Sound.update; first | with_reducible assumption)
    | (extract_lets +onlyGivenNames x; refine (?_ : Sound qq x → _) ?_; intro _; clear_value x; rotate_left; subst x; rotate_left)
    | (extract_lets +onlyGivenNames x; subst x)
    | split
    | dsimp -zeta only


theorem enablePair_sound {qq : List Instr} {p : Nat} {retry : Bool} {s : State}  (h_s : Sound qq s) : Sound qq (enablePair p retry s) := by
  unfold enablePair
  repeat' first
    | with_reducible assumption
    | intro _
    | with_reducible rfl
    | with_reducible apply Sound.ite
    | with_reducible apply each_sound
    | with_reducible apply arm_sound
    | with_reducible apply onPair_sound
    | with_reducible apply driveNven_sound
    | (with_reducible apply Sound.update; first | with_reducible assumption | with_reducible apply arm_sound | with_reducible apply onPair_sound | with_reducible apply driveNven_sound)
    | (extract_lets +onlyGivenNames x; refine (?_ : Sound qq x → _) ?_; intro _; clear_value x; rotate_left; subst x; rotate_left)
    | (extract_lets +onlyGivenNames x; subst x)
    | split
    | dsimp -zeta only


theorem startPair_sound {qq : List Instr} {p : Nat} {s : State}  (h_s : Sound qq s) : Sound qq (startPair p s) := by
  unfold startPair
  repeat' first
    | with_reducible assumption
    | intro _
    | with_reducible rfl
    | with_reducible apply Sound.ite
    | with_reducible apply each_sound
    | with_reducible apply enablePair_sound
    | with_reducible apply arm_sound
    | (with_reducible apply Sound.update; first | with_reducible assumption | with_reducible apply enablePair_sound | with_reducible apply arm_sound)
    | (extract_lets +onlyGivenNames x; refine (?_ : Sound qq x → _) ?_; intro _; clear_value x; rotate_left; subst x; rotate_left)
    | (extract_lets +onlyGivenNames x; subst x)
    | split
    | dsimp -zeta only


theorem execPairEnableStagger_sound {qq : List Instr} {s : State}  (h_s : Sound qq s) : SoundOut qq (execPairEnableStagger s) := by
  unfold execPairEnableStagger
  repeat' first
    | with_reducible assumption
    | intro _
    | with_reducible rfl
    | with_reducible apply Sound.ite
    | with_reducible apply each_sound
    | with_reducible apply SoundOut.next
    | with_reducible apply SoundOut.ite
    | with_reducible apply startPair_sound
    | with_reducible apply disarm_sound
    | (with_reducible apply Sound.update; first | with_reducible assumption | with_reducible apply startPair_sound | with_reducible apply disarm_sound)
    | (extract_lets +onlyGivenNames x; refine (?_ : Sound qq x → _) ?_; intro _; clear_value x; rotate_left; subst x; rotate_left)
    | (extract_lets +onlyGivenNames x; subst x)
    | split
    | dsimp -zeta only


theorem dropPairOps_sound {qq : List Instr} {p : Nat} {s : State}  (h_s : Sound qq s) : Sound qq (dropPairOps p s) := by
  unfold dropPairOps
  repeat' first
    | with_reducible assumption
    | intro _
    | with_reducible rfl
    | with_reducible apply Sound.ite
    | with_reducible apply each_sound
    | with_reducible apply each_sound
    | with_reducible apply onBlock_sound
    | with_reducible apply dropOp_sound
    | with_reducible apply leaveOp_sound
    | with_reducible apply onOp_sound
    | (with_reducible apply Sound.update; first | with_reducible assumption | with_reducible apply each_sound | with_reducible apply onBlock_sound | with_reducible apply dropOp_sound | with_reducible apply leaveOp_sound | with_reducible apply onOp_sound)
    | (extract_lets +onlyGivenNames x; refine (?_ : Sound qq x → _) ?_; intro _; clear_value x; rotate_left; subst x; rotate_left)
    | (extract_lets +onlyGivenNames x; subst x)
    | split
    | dsimp -zeta only


theorem failPair_sound {qq : List Instr} {p : Nat} {s : State}  (h_s : Sound qq s) : Sound qq (failPair p s) := by
  unfold failPair
  repeat' first
    | with_reducible assumption
    | intro _
    | with_reducible rfl
    | with_reducible apply Sound.ite
    | with_reducible apply each_sound
    | with_reducible apply disarm_sound
    | with_reducible apply driveNven_sound
    | with_reducible apply onPair_sound
    | with_reducible apply fatalCondition_sound
    | with_reducible apply failDies_sound
    | with_reducible apply each_sound
    | with_reducible apply giveUp_sound
    | (with_reducible apply Sound.update; first | with_reducible assumption | with_reducible apply disarm_sound | with_reducible apply driveNven_sound | with_reducible apply onPair_sound | with_reducible apply fatalCondition_sound | with_reducible apply failDies_sound | with_reducible apply each_sound | with_reducible apply giveUp_sound)
    | (extract_lets +onlyGivenNames x; refine (?_ : Sound qq x → _) ?_; intro _; clear_value x; rotate_left; subst x; rotate_left)
    | (extract_lets +onlyGivenNames x; subst x)
    | split
    | dsimp -zeta only


theorem execNpgSettled_sound {qq : List Instr} {pair : Nat} {s : State}  (h_s : Sound qq s) : SoundOut qq (execNpgSettled pair s) := by
  unfold execNpgSettled
  repeat' first
    | with_reducible assumption
    | intro _
    | with_reducible rfl
    | with_reducible apply Sound.ite
    | with_reducible apply each_sound
    | with_reducible apply SoundOut.next
    | with_reducible apply SoundOut.ite
    | with_reducible apply disarm_sound
    | with_reducible apply showNpg_sound
    | with_reducible apply onPair_sound
    | with_reducible apply settled_sound
    | with_reducible apply beginDiscovery_sound
    | with_reducible apply raise_sound
    | (with_reducible apply Sound.update; first | with_reducible assumption | with_reducible apply disarm_sound | with_reducible apply showNpg_sound | with_reducible apply onPair_sound | with_reducible apply settled_sound | with_reducible apply beginDiscovery_sound | with_reducible apply raise_sound)
    | (extract_lets +onlyGivenNames x; refine (?_ : Sound qq x → _) ?_; intro _; clear_value x; rotate_left; subst x; rotate_left)
    | (extract_lets +onlyGivenNames x; subst x)
    | split
    | dsimp -zeta only


theorem execNpgTimeout_sound {qq : List Instr} {pair : Nat} {s : State}  (h_s : Sound qq s) : SoundOut qq (execNpgTimeout pair s) := by
  unfold execNpgTimeout
  repeat' first
    | with_reducible assumption
    | intro _
    | with_reducible rfl
    | with_reducible apply Sound.ite
    | with_reducible apply each_sound
    | with_reducible apply SoundOut.next
    | with_reducible apply SoundOut.ite
    | with_reducible apply settleMedia_sound
    | with_reducible apply failPair_sound
    | (with_reducible apply Sound.update; first | with_reducible assumption | with_reducible apply settleMedia_sound | with_reducible apply failPair_sound)
    | (extract_lets +onlyGivenNames x; refine (?_ : Sound qq x → _) ?_; intro _; clear_value x; rotate_left; subst x; rotate_left)
    | (extract_lets +onlyGivenNames x; subst x)
    | split
    | dsimp -zeta only


theorem losePair_sound {qq : List Instr} {p : Nat} {s : State}  (h_s : Sound qq s) : Sound qq (losePair p s) := by
  unfold losePair
  repeat' first
    | with_reducible assumption
    | intro _
    | with_reducible rfl
    | with_reducible apply Sound.ite
    | with_reducible apply each_sound
    | with_reducible apply driveNven_sound
    | with_reducible apply onPair_sound
    | with_reducible apply each_sound
    | with_reducible apply abandonStripe_sound
    | with_reducible apply takeError_sound
    | with_reducible apply dropPairOps_sound
    | with_reducible apply failPair_sound
    | with_reducible apply arm_sound
    | (with_reducible apply Sound.update; first | with_reducible assumption | with_reducible apply driveNven_sound | with_reducible apply onPair_sound | with_reducible apply each_sound | with_reducible apply abandonStripe_sound | with_reducible apply takeError_sound | with_reducible apply dropPairOps_sound | with_reducible apply failPair_sound | with_reducible apply arm_sound)
    | (extract_lets +onlyGivenNames x; refine (?_ : Sound qq x → _) ?_; intro _; clear_value x; rotate_left; subst x; rotate_left)
    | (extract_lets +onlyGivenNames x; subst x)
    | split
    | dsimp -zeta only


theorem execNpgLoss_sound {qq : List Instr} {pair : Nat} {s : State}  (h_s : Sound qq s) : SoundOut qq (execNpgLoss pair s) := by
  unfold execNpgLoss
  repeat' first
    | with_reducible assumption
    | intro _
    | with_reducible rfl
    | with_reducible apply Sound.ite
    | with_reducible apply each_sound
    | with_reducible apply SoundOut.next
    | with_reducible apply SoundOut.ite
    | with_reducible apply showNpg_sound
    | with_reducible apply settled_sound
    | with_reducible apply driveNven_sound
    | with_reducible apply onPair_sound
    | with_reducible apply settleMedia_sound
    | with_reducible apply losePair_sound
    | (with_reducible apply Sound.update; first | with_reducible assumption | with_reducible apply showNpg_sound | with_reducible apply settled_sound | with_reducible apply driveNven_sound | with_reducible apply onPair_sound | with_reducible apply settleMedia_sound | with_reducible apply losePair_sound)
    | (extract_lets +onlyGivenNames x; refine (?_ : Sound qq x → _) ?_; intro _; clear_value x; rotate_left; subst x; rotate_left)
    | (extract_lets +onlyGivenNames x; subst x)
    | split
    | dsimp -zeta only


theorem execPairRetryTimer_sound {qq : List Instr} {pair : Nat} {s : State}  (h_s : Sound qq s) : SoundOut qq (execPairRetryTimer pair s) := by
  unfold execPairRetryTimer
  repeat' first
    | with_reducible assumption
    | intro _
    | with_reducible rfl
    | with_reducible apply Sound.ite
    | with_reducible apply each_sound
    | with_reducible apply SoundOut.next
    | with_reducible apply SoundOut.ite
    | with_reducible apply enablePair_sound
    | with_reducible apply disarm_sound
    | (with_reducible apply Sound.update; first | with_reducible assumption | with_reducible apply enablePair_sound | with_reducible apply disarm_sound)
    | (extract_lets +onlyGivenNames x; refine (?_ : Sound qq x → _) ?_; intro _; clear_value x; rotate_left; subst x; rotate_left)
    | (extract_lets +onlyGivenNames x; subst x)
    | split
    | dsimp -zeta only


theorem refreshBankFault_sound {qq : List Instr} {s : State}  (h_s : Sound qq s) : Sound qq (refreshBankFault s) := by
  unfold refreshBankFault
  repeat' first
    | with_reducible assumption
    | intro _
    | with_reducible rfl
    | with_reducible apply Sound.ite
    | with_reducible apply each_sound
    | with_reducible apply raiseAwake_sound
    | (with_reducible apply Sound.update; first | with_reducible assumption | with_reducible apply raiseAwake_sound)
    | (extract_lets +onlyGivenNames x; refine (?_ : Sound qq x → _) ?_; intro _; clear_value x; rotate_left; subst x; rotate_left)
    | (extract_lets +onlyGivenNames x; subst x)
    | split
    | dsimp -zeta only


theorem execBankTargetReached_sound {qq : List Instr} {s : State}  (h_s : Sound qq s) : SoundOut qq (execBankTargetReached s) := by
  unfold execBankTargetReached
  repeat' first
    | with_reducible assumption
    | intro _
    | with_reducible rfl
    | with_reducible apply Sound.ite
    | with_reducible apply each_sound
    | with_reducible apply SoundOut.next
    | with_reducible apply SoundOut.ite
    | with_reducible apply arm_sound
    | (with_reducible apply Sound.update; first | with_reducible assumption | with_reducible apply arm_sound)
    | (extract_lets +onlyGivenNames x; refine (?_ : Sound qq x → _) ?_; intro _; clear_value x; rotate_left; subst x; rotate_left)
    | (extract_lets +onlyGivenNames x; subst x)
    | split
    | dsimp -zeta only


theorem execBankChargeRestart_sound {qq : List Instr} {s : State}  (h_s : Sound qq s) : SoundOut qq (execBankChargeRestart s) := by
  unfold execBankChargeRestart
  repeat' first
    | with_reducible assumption
    | intro _
    | with_reducible rfl
    | with_reducible apply Sound.ite
    | with_reducible apply each_sound
    | with_reducible apply SoundOut.next
    | with_reducible apply SoundOut.ite
    | with_reducible apply refreshBankFault_sound
    | (with_reducible apply Sound.update; first | with_reducible assumption | with_reducible apply refreshBankFault_sound)
    | (extract_lets +onlyGivenNames x; refine (?_ : Sound qq x → _) ?_; intro _; clear_value x; rotate_left; subst x; rotate_left)
    | (extract_lets +onlyGivenNames x; subst x)
    | split
    | dsimp -zeta only


theorem execBankOvervoltage_sound {qq : List Instr} {s : State}  (h_s : Sound qq s) : SoundOut qq (execBankOvervoltage s) := by
  unfold execBankOvervoltage
  repeat' first
    | with_reducible assumption
    | intro _
    | with_reducible rfl
    | with_reducible apply Sound.ite
    | with_reducible apply each_sound
    | with_reducible apply SoundOut.next
    | with_reducible apply SoundOut.ite
    | with_reducible apply refreshBankFault_sound
    | (with_reducible apply Sound.update; first | with_reducible assumption | with_reducible apply refreshBankFault_sound)
    | (extract_lets +onlyGivenNames x; refine (?_ : Sound qq x → _) ?_; intro _; clear_value x; rotate_left; subst x; rotate_left)
    | (extract_lets +onlyGivenNames x; subst x)
    | split
    | dsimp -zeta only


theorem execBankTestInterval_sound {qq : List Instr} {s : State}  (h_s : Sound qq s) : SoundOut qq (execBankTestInterval s) := by
  unfold execBankTestInterval
  repeat' first
    | with_reducible assumption
    | intro _
    | with_reducible rfl
    | with_reducible apply Sound.ite
    | with_reducible apply each_sound
    | with_reducible apply SoundOut.next
    | with_reducible apply SoundOut.ite
    | with_reducible apply arm_sound
    | (with_reducible apply Sound.update; first | with_reducible assumption | with_reducible apply arm_sound)
    | (extract_lets +onlyGivenNames x; refine (?_ : Sound qq x → _) ?_; intro _; clear_value x; rotate_left; subst x; rotate_left)
    | (extract_lets +onlyGivenNames x; subst x)
    | split
    | dsimp -zeta only


theorem execBankMeasureDone_sound {qq : List Instr} {v1 : Nat} {v2 : Nat} {s : State}  (h_s : Sound qq s) : SoundOut qq (execBankMeasureDone v1 v2 s) := by
  unfold execBankMeasureDone
  repeat' first
    | with_reducible assumption
    | intro _
    | with_reducible rfl
    | with_reducible apply Sound.ite
    | with_reducible apply each_sound
    | with_reducible apply SoundOut.next
    | with_reducible apply SoundOut.ite
    | with_reducible apply disarm_sound
    | with_reducible apply refreshBankFault_sound
    | (with_reducible apply Sound.update; first | with_reducible assumption | with_reducible apply disarm_sound | with_reducible apply refreshBankFault_sound)
    | (extract_lets +onlyGivenNames x; refine (?_ : Sound qq x → _) ?_; intro _; clear_value x; rotate_left; subst x; rotate_left)
    | (extract_lets +onlyGivenNames x; subst x)
    | split
    | dsimp -zeta only


theorem refreshFloor_sound {qq : List Instr} {s : State}  (h_s : Sound qq s) : Sound qq (refreshFloor s) := by
  unfold refreshFloor
  repeat' first
    | with_reducible assumption
    | intro _
    | with_reducible rfl
    | with_reducible apply Sound.ite
    | with_reducible apply each_sound
    | with_reducible apply raise_sound
    | with_reducible apply endWrites_sound
    | with_reducible apply noteHealth_sound
    | (with_reducible apply Sound.update; first | with_reducible assumption | with_reducible apply raise_sound | with_reducible apply endWrites_sound | with_reducible apply noteHealth_sound)
    | (extract_lets +onlyGivenNames x; refine (?_ : Sound qq x → _) ?_; intro _; clear_value x; rotate_left; subst x; rotate_left)
    | (extract_lets +onlyGivenNames x; subst x)
    | split
    | dsimp -zeta only


theorem execAllowanceUpdate_sound {qq : List Instr} {bank_mv : Nat} {vin_mv : Nat} {s : State}  (h_s : Sound qq s) : SoundOut qq (execAllowanceUpdate bank_mv vin_mv s) := by
  unfold execAllowanceUpdate
  repeat' first
    | with_reducible assumption
    | intro _
    | with_reducible rfl
    | with_reducible apply Sound.ite
    | with_reducible apply each_sound
    | with_reducible apply SoundOut.next
    | with_reducible apply SoundOut.ite
    | with_reducible apply refreshBankFault_sound
    | with_reducible apply refreshCharger_sound
    | with_reducible apply settleMedia_sound
    | with_reducible apply refreshFloor_sound
    | with_reducible apply arm_sound
    | (with_reducible apply Sound.update; first | with_reducible assumption | with_reducible apply refreshBankFault_sound | with_reducible apply refreshCharger_sound | with_reducible apply settleMedia_sound | with_reducible apply refreshFloor_sound | with_reducible apply arm_sound)
    | (extract_lets +onlyGivenNames x; refine (?_ : Sound qq x → _) ?_; intro _; clear_value x; rotate_left; subst x; rotate_left)
    | (extract_lets +onlyGivenNames x; subst x)
    | split
    | dsimp -zeta only


theorem execChargeTimeout_sound {qq : List Instr} {s : State}  (h_s : Sound qq s) : SoundOut qq (execChargeTimeout s) := by
  unfold execChargeTimeout
  repeat' first
    | with_reducible assumption
    | intro _
    | with_reducible rfl
    | with_reducible apply Sound.ite
    | with_reducible apply each_sound
    | with_reducible apply SoundOut.next
    | with_reducible apply SoundOut.ite
    | with_reducible apply disarm_sound
    | (with_reducible apply Sound.update; first | with_reducible assumption | with_reducible apply disarm_sound)
    | (extract_lets +onlyGivenNames x; refine (?_ : Sound qq x → _) ?_; intro _; clear_value x; rotate_left; subst x; rotate_left)
    | (extract_lets +onlyGivenNames x; subst x)
    | split
    | dsimp -zeta only


end Sys2Proof.Machine
end

