-- ==== Sys2Proof/Laws/SoundManifest.lean ====
section
/-!
SUPPORT. Soundness through the operations of Machine/Manifest.lean.
-/

set_option linter.all false

namespace Sys2Proof.Machine

theorem setTable_sound {qq : List Instr} {window : Nat} {index : Nat} {v : Bytes} {s : State}  (h_s : Sound qq s) : Sound qq (setTable window index v s) := by
  unfold setTable
  repeat' first
    | with_reducible assumption
    | intro _
    | with_reducible rfl
    | with_reducible apply Sound.ite
    | with_reducible apply each_sound
    | (with_reducible apply Sound.update; first | with_reducible assumption)
    | (extract_lets +onlyGivenNames x; refine (?_ : Sound qq x → _) ?_; intro _; clear_value x; rotate_left; subst x; rotate_left)
    | (extract_lets +onlyGivenNames x; subst x)
    | split
    | dsimp -zeta only


theorem setParam_sound {qq : List Instr} {p : ParamEntry} {s : State}  (h_s : Sound qq s) : Sound qq (setParam p s) := by
  unfold setParam
  repeat' first
    | with_reducible assumption
    | intro _
    | with_reducible rfl
    | with_reducible apply Sound.ite
    | with_reducible apply each_sound
    | with_reducible apply setTable_sound
    | with_reducible apply setImage_sound
    | (with_reducible apply Sound.update; first | with_reducible assumption | with_reducible apply setTable_sound | with_reducible apply setImage_sound)
    | (extract_lets +onlyGivenNames x; refine (?_ : Sound qq x → _) ?_; intro _; clear_value x; rotate_left; subst x; rotate_left)
    | (extract_lets +onlyGivenNames x; subst x)
    | split
    | dsimp -zeta only


theorem applyImage_sound {qq : List Instr} {b : Bytes} {s : State}  (h_s : Sound qq s) : Sound qq (applyImage b s) := by
  unfold applyImage
  repeat' first
    | with_reducible assumption
    | intro _
    | with_reducible rfl
    | with_reducible apply Sound.ite
    | with_reducible apply each_sound
    | with_reducible apply each_sound
    | with_reducible apply setParam_sound
    | (with_reducible apply Sound.update; first | with_reducible assumption | with_reducible apply each_sound | with_reducible apply setParam_sound)
    | (extract_lets +onlyGivenNames x; refine (?_ : Sound qq x → _) ?_; intro _; clear_value x; rotate_left; subst x; rotate_left)
    | (extract_lets +onlyGivenNames x; subst x)
    | split
    | dsimp -zeta only


-- configOf builds no state of a run: it is the configuration an image gives, compared by Start.

theorem selectManifest_snd {qq : List Instr} {s : State}   (h_s : Sound qq s) : Sound qq (selectManifest s).2 := by
  unfold selectManifest
  repeat' first
    | with_reducible assumption
    | intro _
    | with_reducible rfl
    | with_reducible apply Sound.ite_snd
    | with_reducible apply Sound.ite
    | with_reducible apply each_sound
    | with_reducible apply applyImage_sound
    | (with_reducible apply Sound.update; first | with_reducible assumption | with_reducible apply applyImage_sound)
    | (extract_lets +onlyGivenNames x; refine (?_ : Sound qq x → _) ?_; intro _; clear_value x; rotate_left; subst x; rotate_left)
    | (extract_lets +onlyGivenNames x; subst x)
    | split
    | dsimp -zeta only

theorem selectManifest_sound {qq : List Instr} {s : State} {r0 : Nat} {tt : State} (eqn : selectManifest s = (r0, tt))  (h_s : Sound qq s) : Sound qq tt := by
  have h := selectManifest_snd (qq := qq) (s := s) h_s
  rw [eqn] at h
  exact h

end Sys2Proof.Machine
end

