-- ==== Sys2Proof/Laws/SoundBootArray.lean ====
section
/-!
SUPPORT. Soundness through the operations of Machine/BootArray.lean.
-/

set_option linter.all false

namespace Sys2Proof.Machine

theorem onCascade_sound {qq : List Instr} {t : Nat} {f : CascadeAdmin → CascadeAdmin} {s : State}  (h_s : Sound qq s) : Sound qq (onCascade t f s) := by
  unfold onCascade
  repeat' first
    | with_reducible assumption
    | intro _
    | with_reducible rfl
    | with_reducible apply Sound.ite
    | with_reducible apply each_sound
    | (with_reducible apply Sound.update; first | with_reducible assumption)
    | (extract_lets +onlyGivenNames x; refine (?_ : Sound qq x → _) ?_; intro _; clear_value x; rotate_left; subst x; rotate_left)
    | (extract_lets +onlyGivenNames x; subst x)
    | split
    | dsimp -zeta only


theorem adminDone_sound {qq : List Instr} {t : Nat} {status : Nat} {dw0 : Nat} {s : State}  (h_s : Sound qq s) : Sound qq (adminDone t status dw0 s) := by
  unfold adminDone
  repeat' first
    | with_reducible assumption
    | intro _
    | with_reducible rfl
    | with_reducible apply Sound.ite
    | with_reducible apply each_sound
    | with_reducible apply finishEntry_sound
    | with_reducible apply sendFrame_sound
    | with_reducible apply onCascade_sound
    | (with_reducible apply Sound.update; first | with_reducible assumption | with_reducible apply finishEntry_sound | with_reducible apply sendFrame_sound | with_reducible apply onCascade_sound)
    | (extract_lets +onlyGivenNames x; refine (?_ : Sound qq x → _) ?_; intro _; clear_value x; rotate_left; subst x; rotate_left)
    | (extract_lets +onlyGivenNames x; subst x)
    | split
    | dsimp -zeta only


theorem involveYards_sound {qq : List Instr} {t : Nat} {yards : List Nat} {body : List Nat} {s : State}  (h_s : Sound qq s) : Sound qq (involveYards t yards body s) := by
  unfold involveYards
  repeat' first
    | with_reducible assumption
    | intro _
    | with_reducible rfl
    | with_reducible apply Sound.ite
    | with_reducible apply each_sound
    | (with_reducible apply Sound.update; first | with_reducible assumption)
    | (extract_lets +onlyGivenNames x; refine (?_ : Sound qq x → _) ?_; intro _; clear_value x; rotate_left; subst x; rotate_left)
    | (extract_lets +onlyGivenNames x; subst x)
    | split
    | dsimp -zeta only


theorem endAdmin_sound {qq : List Instr} {path : AdminPath} {status : Nat} {dw0 : Nat} {s : State}  (h_s : Sound qq s) : Sound qq (endAdmin path status dw0 s) := by
  unfold endAdmin
  repeat' first
    | with_reducible assumption
    | intro _
    | with_reducible rfl
    | with_reducible apply Sound.ite
    | with_reducible apply each_sound
    | with_reducible apply adminDone_sound
    | with_reducible apply say_sound
    | with_reducible apply sendFrame_sound
    | (with_reducible apply Sound.update; first | with_reducible assumption | with_reducible apply adminDone_sound | with_reducible apply say_sound | with_reducible apply sendFrame_sound)
    | (extract_lets +onlyGivenNames x; refine (?_ : Sound qq x → _) ?_; intro _; clear_value x; rotate_left; subst x; rotate_left)
    | (extract_lets +onlyGivenNames x; subst x)
    | split
    | dsimp -zeta only


theorem showJournal_sound {qq : List Instr} {s : State}  (h_s : Sound qq s) : Sound qq (showJournal s) := by
  unfold showJournal
  repeat' first
    | with_reducible assumption
    | intro _
    | with_reducible rfl
    | with_reducible apply Sound.ite
    | with_reducible apply each_sound
    | with_reducible apply raise_sound
    | (with_reducible apply Sound.update; first | with_reducible assumption | with_reducible apply raise_sound)
    | (extract_lets +onlyGivenNames x; refine (?_ : Sound qq x → _) ?_; intro _; clear_value x; rotate_left; subst x; rotate_left)
    | (extract_lets +onlyGivenNames x; subst x)
    | split
    | dsimp -zeta only


theorem journalRoom_sound {qq : List Instr} {n : Nat} {s : State} {l : List BaOp} {tt : State}
    (eqn : journalRoom n s = some (l, tt)) (h : Sound qq s) : Sound qq tt := by
  have hu : ∀ j, Sound qq { s with boot.journal := j } := fun j => Sound.congr h rfl rfl rfl rfl rfl rfl rfl rfl rfl rfl rfl
  unfold journalRoom at eqn
  dsimp only at eqn
  split at eqn
  · split at eqn
    · simp only [Option.some.injEq, Prod.mk.injEq] at eqn
      obtain ⟨_, rfl⟩ := eqn
      exact hu _
    · simp only [Option.map_eq_some_iff, Prod.mk.injEq] at eqn
      obtain ⟨k, _, _, rfl⟩ := eqn
      exact hu _
  · simp only [Option.map_eq_some_iff, Prod.mk.injEq] at eqn
    obtain ⟨k, _, _, rfl⟩ := eqn
    exact hu _

theorem askArray_sound {qq : List Instr} {q : BaPurpose} {ops : List BaOp} {s : State}  (h_s : Sound qq s) : Sound qq (askArray q ops s) := by
  unfold askArray
  repeat' first
    | with_reducible assumption
    | intro _
    | with_reducible rfl
    | with_reducible apply Sound.ite
    | with_reducible apply each_sound
    | (with_reducible apply Sound.update; first | with_reducible assumption)
    | (extract_lets +onlyGivenNames x; refine (?_ : Sound qq x → _) ?_; intro _; clear_value x; rotate_left; subst x; rotate_left)
    | (extract_lets +onlyGivenNames x; subst x)
    | split
    | dsimp -zeta only


theorem carryRecord_sound {qq : List Instr} {r : JournalRecord} {s : State}  (h_s : Sound qq s) : Sound qq (carryRecord r s) := by
  unfold carryRecord
  repeat' first
    | with_reducible assumption
    | intro _
    | with_reducible rfl
    | with_reducible apply Sound.ite
    | with_reducible apply each_sound
    | with_reducible apply askLane_sound
    | (with_reducible apply Sound.update; first | with_reducible assumption | with_reducible apply askLane_sound)
    | (extract_lets +onlyGivenNames x; refine (?_ : Sound qq x → _) ?_; intro _; clear_value x; rotate_left; subst x; rotate_left)
    | (extract_lets +onlyGivenNames x; subst x)
    | split
    | dsimp -zeta only


theorem rollJournal_sound {qq : List Instr} {s : State}  (h_s : Sound qq s) : Sound qq (rollJournal s) := by
  unfold rollJournal
  repeat' first
    | with_reducible assumption
    | intro _
    | with_reducible rfl
    | with_reducible apply Sound.ite
    | with_reducible apply each_sound
    | with_reducible apply askArray_sound
    | with_reducible apply each_sound
    | with_reducible apply carryRecord_sound
    | (with_reducible apply Sound.update; first | with_reducible assumption | with_reducible apply askArray_sound | with_reducible apply each_sound | with_reducible apply carryRecord_sound)
    | (extract_lets +onlyGivenNames x; refine (?_ : Sound qq x → _) ?_; intro _; clear_value x; rotate_left; subst x; rotate_left)
    | (extract_lets +onlyGivenNames x; subst x)
    | split
    | dsimp -zeta only


theorem storeRecord_sound {qq : List Instr} {ops : List BaOp} {r : JournalRecord} {s : State}  (h_s : Sound qq s) : Sound qq (storeRecord ops r s) := by
  unfold storeRecord
  repeat' first
    | with_reducible assumption
    | intro _
    | with_reducible rfl
    | with_reducible apply Sound.ite
    | with_reducible apply each_sound
    | (with_reducible apply Sound.update; first | with_reducible assumption)
    | (extract_lets +onlyGivenNames x; refine (?_ : Sound qq x → _) ?_; intro _; clear_value x; rotate_left; subst x; rotate_left)
    | (extract_lets +onlyGivenNames x; subst x)
    | split
    | dsimp -zeta only


theorem holdRecord_sound {qq : List Instr} {r : JournalRecord} {s : State}  (h_s : Sound qq s) : Sound qq (holdRecord r s) := by
  unfold holdRecord
  repeat' first
    | with_reducible assumption
    | intro _
    | with_reducible rfl
    | with_reducible apply Sound.ite
    | with_reducible apply each_sound
    | (with_reducible apply Sound.update; first | with_reducible assumption)
    | (extract_lets +onlyGivenNames x; refine (?_ : Sound qq x → _) ?_; intro _; clear_value x; rotate_left; subst x; rotate_left)
    | (extract_lets +onlyGivenNames x; subst x)
    | split
    | dsimp -zeta only


theorem askRecord_sound {qq : List Instr} {type : Nat} {st : Stamped} {payload : Bytes} {s : State}  (h_s : Sound qq s) : Sound qq (askRecord type st payload s) := by
  unfold askRecord
  repeat' first
    | with_reducible assumption
    | intro _
    | with_reducible rfl
    | with_reducible apply Sound.ite
    | with_reducible apply each_sound
    | with_reducible apply deliver_sound
    | (with_reducible apply Sound.update; first | with_reducible assumption | with_reducible apply deliver_sound)
    | (extract_lets +onlyGivenNames x; refine (?_ : Sound qq x → _) ?_; intro _; clear_value x; rotate_left; subst x; rotate_left)
    | (extract_lets +onlyGivenNames x; subst x)
    | split
    | dsimp -zeta only


theorem watchNonces_sound {qq : List Instr} {s : State}  (h_s : Sound qq s) : Sound qq (watchNonces s) := by
  unfold watchNonces
  repeat' first
    | with_reducible assumption
    | intro _
    | with_reducible rfl
    | with_reducible apply Sound.ite
    | with_reducible apply each_sound
    | with_reducible apply askArray_sound
    | (with_reducible apply Sound.update; first | with_reducible assumption | with_reducible apply askArray_sound)
    | (extract_lets +onlyGivenNames x; refine (?_ : Sound qq x → _) ?_; intro _; clear_value x; rotate_left; subst x; rotate_left)
    | (extract_lets +onlyGivenNames x; subst x)
    | split
    | dsimp -zeta only


theorem onNonceCopy_sound {qq : List Instr} {b : Bool} {f : NonceCopy → NonceCopy} {s : State}  (h_s : Sound qq s) : Sound qq (onNonceCopy b f s) := by
  unfold onNonceCopy
  repeat' first
    | with_reducible assumption
    | intro _
    | with_reducible rfl
    | with_reducible apply Sound.ite
    | with_reducible apply each_sound
    | (with_reducible apply Sound.update; first | with_reducible assumption)
    | (extract_lets +onlyGivenNames x; refine (?_ : Sound qq x → _) ?_; intro _; clear_value x; rotate_left; subst x; rotate_left)
    | (extract_lets +onlyGivenNames x; subst x)
    | split
    | dsimp -zeta only


theorem onSlot_sound {qq : List Instr} {b : Bool} {f : FwSlot → FwSlot} {s : State}  (h_s : Sound qq s) : Sound qq (onSlot b f s) := by
  unfold onSlot
  repeat' first
    | with_reducible assumption
    | intro _
    | with_reducible rfl
    | with_reducible apply Sound.ite
    | with_reducible apply each_sound
    | (with_reducible apply Sound.update; first | with_reducible assumption)
    | (extract_lets +onlyGivenNames x; refine (?_ : Sound qq x → _) ?_; intro _; clear_value x; rotate_left; subst x; rotate_left)
    | (extract_lets +onlyGivenNames x; subst x)
    | split
    | dsimp -zeta only


theorem showSlot_sound {qq : List Instr} {b : Bool} {s : State}  (h_s : Sound qq s) : Sound qq (showSlot b s) := by
  unfold showSlot
  repeat' first
    | with_reducible assumption
    | intro _
    | with_reducible rfl
    | with_reducible apply Sound.ite
    | with_reducible apply each_sound
    | (with_reducible apply Sound.update; first | with_reducible assumption)
    | (extract_lets +onlyGivenNames x; refine (?_ : Sound qq x → _) ?_; intro _; clear_value x; rotate_left; subst x; rotate_left)
    | (extract_lets +onlyGivenNames x; subst x)
    | split
    | dsimp -zeta only


theorem beginUpdate_sound {qq : List Instr} {u : FwUpdate} {s : State}  (h_s : Sound qq s) : Sound qq (beginUpdate u s) := by
  unfold beginUpdate
  repeat' first
    | with_reducible assumption
    | intro _
    | with_reducible rfl
    | with_reducible apply Sound.ite
    | with_reducible apply each_sound
    | with_reducible apply request_sound
    | with_reducible apply askChecker_sound
    | with_reducible apply askDigest_sound
    | (with_reducible apply Sound.update; first | with_reducible assumption | with_reducible apply request_sound | with_reducible apply askChecker_sound | with_reducible apply askDigest_sound)
    | (extract_lets +onlyGivenNames x; refine (?_ : Sound qq x → _) ?_; intro _; clear_value x; rotate_left; subst x; rotate_left)
    | (extract_lets +onlyGivenNames x; subst x)
    | split
    | dsimp -zeta only


theorem endUpdate_sound {qq : List Instr} {u : FwUpdate} {status : Nat} {s : State}  (h_s : Sound qq s) : Sound qq (endUpdate u status s) := by
  unfold endUpdate
  repeat' first
    | with_reducible assumption
    | intro _
    | with_reducible rfl
    | with_reducible apply Sound.ite
    | with_reducible apply each_sound
    | with_reducible apply showSlot_sound
    | with_reducible apply endAdmin_sound
    | (with_reducible apply Sound.update; first | with_reducible assumption | with_reducible apply showSlot_sound | with_reducible apply endAdmin_sound)
    | (extract_lets +onlyGivenNames x; refine (?_ : Sound qq x → _) ?_; intro _; clear_value x; rotate_left; subst x; rotate_left)
    | (extract_lets +onlyGivenNames x; subst x)
    | split
    | dsimp -zeta only


theorem failUpdate_sound {qq : List Instr} {u : FwUpdate} {result : Nat} {status : Nat} {s : State}  (h_s : Sound qq s) : Sound qq (failUpdate u result status s) := by
  unfold failUpdate
  repeat' first
    | with_reducible assumption
    | intro _
    | with_reducible rfl
    | with_reducible apply Sound.ite
    | with_reducible apply each_sound
    | with_reducible apply request_sound
    | with_reducible apply endUpdate_sound
    | (with_reducible apply Sound.update; first | with_reducible assumption | with_reducible apply request_sound | with_reducible apply endUpdate_sound)
    | (extract_lets +onlyGivenNames x; refine (?_ : Sound qq x → _) ?_; intro _; clear_value x; rotate_left; subst x; rotate_left)
    | (extract_lets +onlyGivenNames x; subst x)
    | split
    | dsimp -zeta only


theorem stepUpdate_sound {qq : List Instr} {step : Nat} {u : FwUpdate} {s : State}  (h_s : Sound qq s) : Sound qq (stepUpdate step u s) := by
  unfold stepUpdate
  repeat' first
    | with_reducible assumption
    | intro _
    | with_reducible rfl
    | with_reducible apply Sound.ite
    | with_reducible apply each_sound
    | with_reducible apply failUpdate_sound
    | with_reducible apply askArray_sound
    | (with_reducible apply Sound.update; first | with_reducible assumption | with_reducible apply failUpdate_sound | with_reducible apply askArray_sound)
    | (extract_lets +onlyGivenNames x; refine (?_ : Sound qq x → _) ?_; intro _; clear_value x; rotate_left; subst x; rotate_left)
    | (extract_lets +onlyGivenNames x; subst x)
    | split
    | dsimp -zeta only


theorem forgetRun_sound {qq : List Instr} {b : Bool} {s : State}  (h_s : Sound qq s) : Sound qq (forgetRun b s) := by
  unfold forgetRun
  repeat' first
    | with_reducible assumption
    | intro _
    | with_reducible rfl
    | with_reducible apply Sound.ite
    | with_reducible apply each_sound
    | (with_reducible apply Sound.update; first | with_reducible assumption)
    | (extract_lets +onlyGivenNames x; refine (?_ : Sound qq x → _) ?_; intro _; clear_value x; rotate_left; subst x; rotate_left)
    | (extract_lets +onlyGivenNames x; subst x)
    | split
    | dsimp -zeta only


theorem advanceUpdate_sound {qq : List Instr} {s : State}  (h_s : Sound qq s) : Sound qq (advanceUpdate s) := by
  unfold advanceUpdate
  repeat' first
    | with_reducible assumption
    | intro _
    | with_reducible rfl
    | with_reducible apply Sound.ite
    | with_reducible apply each_sound
    | with_reducible apply stepUpdate_sound
    | with_reducible apply forgetRun_sound
    | with_reducible apply onSlot_sound
    | with_reducible apply failUpdate_sound
    | with_reducible apply request_sound
    | with_reducible apply showSlot_sound
    | with_reducible apply endUpdate_sound
    | (with_reducible apply Sound.update; first | with_reducible assumption | with_reducible apply stepUpdate_sound | with_reducible apply forgetRun_sound | with_reducible apply onSlot_sound | with_reducible apply failUpdate_sound | with_reducible apply request_sound | with_reducible apply showSlot_sound | with_reducible apply endUpdate_sound)
    | (extract_lets +onlyGivenNames x; refine (?_ : Sound qq x → _) ?_; intro _; clear_value x; rotate_left; subst x; rotate_left)
    | (extract_lets +onlyGivenNames x; subst x)
    | split
    | dsimp -zeta only


theorem endInstall_sound {qq : List Instr} {code : Nat} {s : State}  (h_s : Sound qq s) : Sound qq (endInstall code s) := by
  unfold endInstall
  repeat' first
    | with_reducible assumption
    | intro _
    | with_reducible rfl
    | with_reducible apply Sound.ite
    | with_reducible apply each_sound
    | with_reducible apply raise_sound
    | with_reducible apply endAdmin_sound
    | (with_reducible apply Sound.update; first | with_reducible assumption | with_reducible apply raise_sound | with_reducible apply endAdmin_sound)
    | (extract_lets +onlyGivenNames x; refine (?_ : Sound qq x → _) ?_; intro _; clear_value x; rotate_left; subst x; rotate_left)
    | (extract_lets +onlyGivenNames x; subst x)
    | split
    | dsimp -zeta only


theorem stepInstall_sound {qq : List Instr} {step : Nat} {i : Install} {s : State}  (h_s : Sound qq s) : Sound qq (stepInstall step i s) := by
  unfold stepInstall
  repeat' first
    | with_reducible assumption
    | intro _
    | with_reducible rfl
    | with_reducible apply Sound.ite
    | with_reducible apply each_sound
    | with_reducible apply askArray_sound
    | (with_reducible apply Sound.update; first | with_reducible assumption | with_reducible apply askArray_sound)
    | (extract_lets +onlyGivenNames x; refine (?_ : Sound qq x → _) ?_; intro _; clear_value x; rotate_left; subst x; rotate_left)
    | (extract_lets +onlyGivenNames x; subst x)
    | split
    | dsimp -zeta only


theorem setCopy_sound {qq : List Instr} {b : Bool} {img : Bytes} {s : State}  (h_s : Sound qq s) : Sound qq (setCopy b img s) := by
  unfold setCopy
  repeat' first
    | with_reducible assumption
    | intro _
    | with_reducible rfl
    | with_reducible apply Sound.ite
    | with_reducible apply each_sound
    | (with_reducible apply Sound.update; first | with_reducible assumption)
    | (extract_lets +onlyGivenNames x; refine (?_ : Sound qq x → _) ?_; intro _; clear_value x; rotate_left; subst x; rotate_left)
    | (extract_lets +onlyGivenNames x; subst x)
    | split
    | dsimp -zeta only


theorem showCopy_sound {qq : List Instr} {b : Bool} {valid : Bool} {s : State}  (h_s : Sound qq s) : Sound qq (showCopy b valid s) := by
  unfold showCopy
  repeat' first
    | with_reducible assumption
    | intro _
    | with_reducible rfl
    | with_reducible apply Sound.ite
    | with_reducible apply each_sound
    | (with_reducible apply Sound.update; first | with_reducible assumption)
    | (extract_lets +onlyGivenNames x; refine (?_ : Sound qq x → _) ?_; intro _; clear_value x; rotate_left; subst x; rotate_left)
    | (extract_lets +onlyGivenNames x; subst x)
    | split
    | dsimp -zeta only


theorem advanceInstall_sound {qq : List Instr} {s : State}  (h_s : Sound qq s) : Sound qq (advanceInstall s) := by
  unfold advanceInstall
  repeat' first
    | with_reducible assumption
    | intro _
    | with_reducible rfl
    | with_reducible apply Sound.ite
    | with_reducible apply each_sound
    | with_reducible apply stepInstall_sound
    | with_reducible apply showCopy_sound
    | with_reducible apply setCopy_sound
    | with_reducible apply endInstall_sound
    | with_reducible apply request_sound
    | (with_reducible apply Sound.update; first | with_reducible assumption | with_reducible apply stepInstall_sound | with_reducible apply showCopy_sound | with_reducible apply setCopy_sound | with_reducible apply endInstall_sound | with_reducible apply request_sound)
    | (extract_lets +onlyGivenNames x; refine (?_ : Sound qq x → _) ?_; intro _; clear_value x; rotate_left; subst x; rotate_left)
    | (extract_lets +onlyGivenNames x; subst x)
    | split
    | dsimp -zeta only


theorem beginInstall_sound {qq : List Instr} {path : AdminPath} {target : Bool} {img : Bytes} {s : State}  (h_s : Sound qq s) : Sound qq (beginInstall path target img s) := by
  unfold beginInstall
  repeat' first
    | with_reducible assumption
    | intro _
    | with_reducible rfl
    | with_reducible apply Sound.ite
    | with_reducible apply each_sound
    | with_reducible apply stepInstall_sound
    | with_reducible apply askChecker_sound
    | with_reducible apply askDigest_sound
    | (with_reducible apply Sound.update; first | with_reducible assumption | with_reducible apply stepInstall_sound | with_reducible apply askChecker_sound | with_reducible apply askDigest_sound)
    | (extract_lets +onlyGivenNames x; refine (?_ : Sound qq x → _) ?_; intro _; clear_value x; rotate_left; subst x; rotate_left)
    | (extract_lets +onlyGivenNames x; subst x)
    | split
    | dsimp -zeta only


theorem installManifest_sound {qq : List Instr} {path : AdminPath} {sideband : Bool} {img : Bytes} {s : State}  (h_s : Sound qq s) : Sound qq (installManifest path sideband img s) := by
  unfold installManifest
  repeat' first
    | with_reducible assumption
    | intro _
    | with_reducible rfl
    | with_reducible apply Sound.ite
    | with_reducible apply each_sound
    | with_reducible apply endAdmin_sound
    | with_reducible apply beginInstall_sound
    | (with_reducible apply Sound.update; first | with_reducible assumption | with_reducible apply endAdmin_sound | with_reducible apply beginInstall_sound)
    | (extract_lets +onlyGivenNames x; refine (?_ : Sound qq x → _) ?_; intro _; clear_value x; rotate_left; subst x; rotate_left)
    | (extract_lets +onlyGivenNames x; subst x)
    | split
    | dsimp -zeta only


theorem recordHeld_sound {qq : List Instr} {r : JournalRecord} {s : State}  (h_s : Sound qq s) : Sound qq (recordHeld r s) := by
  unfold recordHeld
  repeat' first
    | with_reducible assumption
    | intro _
    | with_reducible rfl
    | with_reducible apply Sound.ite
    | with_reducible apply each_sound
    | (with_reducible apply Sound.update; first | with_reducible assumption)
    | (extract_lets +onlyGivenNames x; refine (?_ : Sound qq x → _) ?_; intro _; clear_value x; rotate_left; subst x; rotate_left)
    | (extract_lets +onlyGivenNames x; subst x)
    | split
    | dsimp -zeta only


theorem endRequest_sound {qq : List Instr} {s : State}  (h_s : Sound qq s) : Sound qq (endRequest s) := by
  unfold endRequest
  repeat' first
    | with_reducible assumption
    | intro _
    | with_reducible rfl
    | with_reducible apply Sound.ite
    | with_reducible apply each_sound
    | (with_reducible apply Sound.update; first | with_reducible assumption)
    | (extract_lets +onlyGivenNames x; refine (?_ : Sound qq x → _) ?_; intro _; clear_value x; rotate_left; subst x; rotate_left)
    | (extract_lets +onlyGivenNames x; subst x)
    | split
    | dsimp -zeta only


theorem requestDone_sound {qq : List Instr} {q : BaRequest} {s : State}  (h_s : Sound qq s) : Sound qq (requestDone q s) := by
  unfold requestDone
  repeat' first
    | with_reducible assumption
    | intro _
    | with_reducible rfl
    | with_reducible apply Sound.ite
    | with_reducible apply each_sound
    | with_reducible apply storeRecord_sound
    | with_reducible apply recordHeld_sound
    | with_reducible apply advanceInstall_sound
    | with_reducible apply advanceUpdate_sound
    | (with_reducible apply Sound.update; first | with_reducible assumption | with_reducible apply storeRecord_sound | with_reducible apply recordHeld_sound | with_reducible apply advanceInstall_sound | with_reducible apply advanceUpdate_sound)
    | (extract_lets +onlyGivenNames x; refine (?_ : Sound qq x → _) ?_; intro _; clear_value x; rotate_left; subst x; rotate_left)
    | (extract_lets +onlyGivenNames x; subst x)
    | split
    | dsimp -zeta only


theorem requestFailed_sound {qq : List Instr} {q : BaRequest} {s : State}  (h_s : Sound qq s) : Sound qq (requestFailed q s) := by
  unfold requestFailed
  repeat' first
    | with_reducible assumption
    | intro _
    | with_reducible rfl
    | with_reducible apply Sound.ite
    | with_reducible apply each_sound
    | with_reducible apply carryRecord_sound
    | with_reducible apply holdRecord_sound
    | with_reducible apply advanceInstall_sound
    | with_reducible apply endUpdate_sound
    | with_reducible apply endInstall_sound
    | with_reducible apply failUpdate_sound
    | (with_reducible apply Sound.update; first | with_reducible assumption | with_reducible apply carryRecord_sound | with_reducible apply holdRecord_sound | with_reducible apply advanceInstall_sound | with_reducible apply endUpdate_sound | with_reducible apply endInstall_sound | with_reducible apply failUpdate_sound)
    | (extract_lets +onlyGivenNames x; refine (?_ : Sound qq x → _) ?_; intro _; clear_value x; rotate_left; subst x; rotate_left)
    | (extract_lets +onlyGivenNames x; subst x)
    | split
    | dsimp -zeta only


theorem placeRequest_sound {qq : List Instr} {r : BaRequest} {s : State} {r' : BaRequest} {tt : State}
    (eqn : placeRequest r s = some (r', tt)) (h : Sound qq s) : Sound qq tt := by
  unfold placeRequest at eqn
  split at eqn
  · split at eqn
    · cases eqn
    · simp only [Option.map_eq_some_iff, Prod.mk.injEq] at eqn
      obtain ⟨p, e, _, rfl⟩ := eqn
      exact rollJournal_sound (journalRoom_sound (l := p.1) e h)
  · cases eqn
    exact h
  · cases eqn
    exact h

theorem execBootArrayRequest_sound {qq : List Instr} {s : State}  (h_s : Sound qq s) : SoundOut qq (execBootArrayRequest s) := by
  unfold execBootArrayRequest
  repeat' first
    | with_reducible assumption
    | intro _
    | with_reducible rfl
    | with_reducible apply Sound.ite
    | with_reducible apply each_sound
    | with_reducible apply SoundOut.next
    | with_reducible apply SoundOut.ite
    | (with_reducible refine placeRequest_sound (by assumption) ?_)
    | with_reducible apply requestFailed_sound
    | (with_reducible apply Sound.update; first | with_reducible assumption | (with_reducible refine placeRequest_sound (by assumption) ?_) | with_reducible apply requestFailed_sound)
    | (extract_lets +onlyGivenNames x; refine (?_ : Sound qq x → _) ?_; intro _; clear_value x; rotate_left; subst x; rotate_left)
    | (extract_lets +onlyGivenNames x; subst x)
    | split
    | dsimp -zeta only


theorem sectorErased_sound {qq : List Instr} {k : Nat} {s : State}  (h_s : Sound qq s) : Sound qq (sectorErased k s) := by
  unfold sectorErased
  repeat' first
    | with_reducible assumption
    | intro _
    | with_reducible rfl
    | with_reducible apply Sound.ite
    | with_reducible apply each_sound
    | with_reducible apply onNonceCopy_sound
    | (with_reducible apply Sound.update; first | with_reducible assumption | with_reducible apply onNonceCopy_sound)
    | (extract_lets +onlyGivenNames x; refine (?_ : Sound qq x → _) ?_; intro _; clear_value x; rotate_left; subst x; rotate_left)
    | (extract_lets +onlyGivenNames x; subst x)
    | split
    | dsimp -zeta only


theorem pulseGiven_sound {qq : List Instr} {o : BaOp} {s : State}  (h_s : Sound qq s) : Sound qq (pulseGiven o s) := by
  unfold pulseGiven
  repeat' first
    | with_reducible assumption
    | intro _
    | with_reducible rfl
    | with_reducible apply Sound.ite
    | with_reducible apply each_sound
    | with_reducible apply onNonceCopy_sound
    | (with_reducible apply Sound.update; first | with_reducible assumption | with_reducible apply onNonceCopy_sound)
    | (extract_lets +onlyGivenNames x; refine (?_ : Sound qq x → _) ?_; intro _; clear_value x; rotate_left; subst x; rotate_left)
    | (extract_lets +onlyGivenNames x; subst x)
    | split
    | dsimp -zeta only


theorem opVerified_sound {qq : List Instr} {o : BaOp} {s : State}  (h_s : Sound qq s) : Sound qq (opVerified o s) := by
  unfold opVerified
  repeat' first
    | with_reducible assumption
    | intro _
    | with_reducible rfl
    | with_reducible apply Sound.ite
    | with_reducible apply each_sound
    | with_reducible apply onNonceCopy_sound
    | with_reducible apply sectorErased_sound
    | (with_reducible apply Sound.update; first | with_reducible assumption | with_reducible apply onNonceCopy_sound | with_reducible apply sectorErased_sound)
    | (extract_lets +onlyGivenNames x; refine (?_ : Sound qq x → _) ?_; intro _; clear_value x; rotate_left; subst x; rotate_left)
    | (extract_lets +onlyGivenNames x; subst x)
    | split
    | dsimp -zeta only


theorem opFailed_sound {qq : List Instr} {o : BaOp} {s : State}  (h_s : Sound qq s) : Sound qq (opFailed o s) := by
  unfold opFailed
  repeat' first
    | with_reducible assumption
    | intro _
    | with_reducible rfl
    | with_reducible apply Sound.ite
    | with_reducible apply each_sound
    | with_reducible apply raise_sound
    | with_reducible apply showJournal_sound
    | with_reducible apply request_sound
    | (with_reducible apply Sound.update; first | with_reducible assumption | with_reducible apply raise_sound | with_reducible apply showJournal_sound | with_reducible apply request_sound)
    | (extract_lets +onlyGivenNames x; refine (?_ : Sound qq x → _) ?_; intro _; clear_value x; rotate_left; subst x; rotate_left)
    | (extract_lets +onlyGivenNames x; subst x)
    | split
    | dsimp -zeta only


theorem execBootArrayPulseDone_sound {qq : List Instr} {verified : Bool} {s : State}  (h_s : Sound qq s) : SoundOut qq (execBootArrayPulseDone verified s) := by
  unfold execBootArrayPulseDone
  repeat' first
    | with_reducible assumption
    | intro _
    | with_reducible rfl
    | with_reducible apply Sound.ite
    | with_reducible apply each_sound
    | with_reducible apply SoundOut.next
    | with_reducible apply SoundOut.ite
    | with_reducible apply endRequest_sound
    | with_reducible apply pulseGiven_sound
    | with_reducible apply opVerified_sound
    | with_reducible apply watchNonces_sound
    | with_reducible apply requestDone_sound
    | with_reducible apply requestFailed_sound
    | with_reducible apply opFailed_sound
    | (with_reducible apply Sound.update; first | with_reducible assumption | with_reducible apply endRequest_sound | with_reducible apply pulseGiven_sound | with_reducible apply opVerified_sound | with_reducible apply watchNonces_sound | with_reducible apply requestDone_sound | with_reducible apply requestFailed_sound | with_reducible apply opFailed_sound)
    | (extract_lets +onlyGivenNames x; refine (?_ : Sound qq x → _) ?_; intro _; clear_value x; rotate_left; subst x; rotate_left)
    | (extract_lets +onlyGivenNames x; subst x)
    | split
    | dsimp -zeta only


theorem execRecoveryImage_sound {qq : List Instr} {image : FwImage} {s : State}  (h_s : Sound qq s) : SoundOut qq (execRecoveryImage image s) := by
  unfold execRecoveryImage
  repeat' first
    | with_reducible assumption
    | intro _
    | with_reducible rfl
    | with_reducible apply Sound.ite
    | with_reducible apply each_sound
    | with_reducible apply SoundOut.next
    | with_reducible apply SoundOut.ite
    | with_reducible apply beginUpdate_sound
    | (with_reducible apply Sound.update; first | with_reducible assumption | with_reducible apply beginUpdate_sound)
    | (extract_lets +onlyGivenNames x; refine (?_ : Sound qq x → _) ?_; intro _; clear_value x; rotate_left; subst x; rotate_left)
    | (extract_lets +onlyGivenNames x; subst x)
    | split
    | dsimp -zeta only


end Sys2Proof.Machine
end

