-- ==== Sys2Proof/Laws/SoundDma.lean ====
section
/-!
SUPPORT. Soundness through the operations of Machine/Dma.lean.
-/

set_option linter.all false

namespace Sys2Proof.Machine

theorem grantReads_sound {qq : List Instr}  {nn : Nat} {s : State} (h_s : Sound qq s) : Sound qq (grantReads nn s) := by
  induction nn generalizing s with
  | zero => unfold grantReads; exact h_s
  | succ m ih =>
    unfold grantReads
    repeat' first
      | with_reducible assumption
      | intro _
      | with_reducible rfl
      | with_reducible apply Sound.ite
      | with_reducible apply each_sound
      | with_reducible apply ih
      | with_reducible apply onPort_sound
      | with_reducible apply say_sound
      | with_reducible apply arm_sound
      | (with_reducible apply Sound.update; first | with_reducible assumption | with_reducible apply onPort_sound | with_reducible apply say_sound | with_reducible apply arm_sound)
      | (extract_lets +onlyGivenNames x; refine (?_ : Sound qq x → _) ?_; intro _; clear_value x; rotate_left; subst x; rotate_left)
      | (extract_lets +onlyGivenNames x; subst x)
      | split
      | dsimp -zeta only


theorem grantAll_sound {qq : List Instr} {s : State}  (h_s : Sound qq s) : Sound qq (grantAll s) := by
  unfold grantAll
  repeat' first
    | with_reducible assumption
    | intro _
    | with_reducible rfl
    | with_reducible apply Sound.ite
    | with_reducible apply each_sound
    | with_reducible apply grantReads_sound
    | (with_reducible apply Sound.update; first | with_reducible assumption | with_reducible apply grantReads_sound)
    | (extract_lets +onlyGivenNames x; refine (?_ : Sound qq x → _) ?_; intro _; clear_value x; rotate_left; subst x; rotate_left)
    | (extract_lets +onlyGivenNames x; subst x)
    | split
    | dsimp -zeta only


theorem placeData_sound {qq : List Instr} {t : Nat} {offset : Nat} {b : Bytes} {s : State}  (h_s : Sound qq s) : Sound qq (placeData t offset b s) := by
  unfold placeData
  repeat' first
    | with_reducible assumption
    | intro _
    | with_reducible rfl
    | with_reducible apply Sound.ite
    | with_reducible apply each_sound
    | with_reducible apply onEntry_sound
    | (with_reducible apply Sound.update; first | with_reducible assumption | with_reducible apply onEntry_sound)
    | (extract_lets +onlyGivenNames x; refine (?_ : Sound qq x → _) ?_; intro _; clear_value x; rotate_left; subst x; rotate_left)
    | (extract_lets +onlyGivenNames x; subst x)
    | split
    | dsimp -zeta only


theorem fetchRegion_sound {qq : List Instr} {t : Nat} {e : Entry} {r : Region} {s : State}  (h_s : Sound qq s) : Sound qq (fetchRegion t e r s) := by
  unfold fetchRegion
  repeat' first
    | with_reducible assumption
    | intro _
    | with_reducible rfl
    | with_reducible apply Sound.ite
    | with_reducible apply each_sound
    | with_reducible apply failEntry_sound
    | with_reducible apply placeData_sound
    | with_reducible apply onPort_sound
    | (with_reducible apply Sound.update; first | with_reducible assumption | with_reducible apply failEntry_sound | with_reducible apply placeData_sound | with_reducible apply onPort_sound)
    | (extract_lets +onlyGivenNames x; refine (?_ : Sound qq x → _) ?_; intro _; clear_value x; rotate_left; subst x; rotate_left)
    | (extract_lets +onlyGivenNames x; subst x)
    | split
    | dsimp -zeta only


theorem fetchData_sound {qq : List Instr} {t : Nat} {len : Nat} {md : Nat} {lo : Nat} {n : Nat} {s : State}  (h_s : Sound qq s) : Sound qq (fetchData t len md lo n s) := by
  unfold fetchData
  repeat' first
    | with_reducible assumption
    | intro _
    | with_reducible rfl
    | with_reducible apply Sound.ite
    | with_reducible apply each_sound
    | with_reducible apply grantAll_sound
    | with_reducible apply each_sound
    | with_reducible apply fetchRegion_sound
    | (with_reducible apply Sound.update; first | with_reducible assumption | with_reducible apply grantAll_sound | with_reducible apply each_sound | with_reducible apply fetchRegion_sound)
    | (extract_lets +onlyGivenNames x; refine (?_ : Sound qq x → _) ?_; intro _; clear_value x; rotate_left; subst x; rotate_left)
    | (extract_lets +onlyGivenNames x; subst x)
    | split
    | dsimp -zeta only


theorem sendRegion_sound {qq : List Instr} {e : Entry} {b : Bytes} {r : Region} {s : State}  (h_s : Sound qq s) : Sound qq (sendRegion e b r s) := by
  unfold sendRegion
  repeat' first
    | with_reducible assumption
    | intro _
    | with_reducible rfl
    | with_reducible apply Sound.ite
    | with_reducible apply each_sound
    | with_reducible apply writeCmb_sound
    | with_reducible apply say_sound
    | (with_reducible apply Sound.update; first | with_reducible assumption | with_reducible apply writeCmb_sound | with_reducible apply say_sound)
    | (extract_lets +onlyGivenNames x; refine (?_ : Sound qq x → _) ?_; intro _; clear_value x; rotate_left; subst x; rotate_left)
    | (extract_lets +onlyGivenNames x; subst x)
    | split
    | dsimp -zeta only


theorem sendRegions_sound {qq : List Instr} {e : Entry} {b : Bytes} {l : List Region} {s : State}  (h_s : Sound qq s) : Sound qq (sendRegions e b l s) := by
  unfold sendRegions
  repeat' first
    | with_reducible assumption
    | intro _
    | with_reducible rfl
    | with_reducible apply Sound.ite
    | with_reducible apply each_sound
    | with_reducible apply each_sound
    | with_reducible apply sendRegion_sound
    | (with_reducible apply Sound.update; first | with_reducible assumption | with_reducible apply each_sound | with_reducible apply sendRegion_sound)
    | (extract_lets +onlyGivenNames x; refine (?_ : Sound qq x → _) ?_; intro _; clear_value x; rotate_left; subst x; rotate_left)
    | (extract_lets +onlyGivenNames x; subst x)
    | split
    | dsimp -zeta only


theorem sendData_sound {qq : List Instr} {e : Entry} {len : Nat} {b : Bytes} {s : State}  (h_s : Sound qq s) : Sound qq (sendData e len b s) := by
  unfold sendData
  repeat' first
    | with_reducible assumption
    | intro _
    | with_reducible rfl
    | with_reducible apply Sound.ite
    | with_reducible apply each_sound
    | with_reducible apply sendRegions_sound
    | (with_reducible apply Sound.update; first | with_reducible assumption | with_reducible apply sendRegions_sound)
    | (extract_lets +onlyGivenNames x; refine (?_ : Sound qq x → _) ?_; intro _; clear_value x; rotate_left; subst x; rotate_left)
    | (extract_lets +onlyGivenNames x; subst x)
    | split
    | dsimp -zeta only


theorem sendAdmin_sound {qq : List Instr} {e : Entry} {b : Bytes} {s : State}  (h_s : Sound qq s) : Sound qq (sendAdmin e b s) := by
  unfold sendAdmin
  repeat' first
    | with_reducible assumption
    | intro _
    | with_reducible rfl
    | with_reducible apply Sound.ite
    | with_reducible apply each_sound
    | with_reducible apply sendRegions_sound
    | (with_reducible apply Sound.update; first | with_reducible assumption | with_reducible apply sendRegions_sound)
    | (extract_lets +onlyGivenNames x; refine (?_ : Sound qq x → _) ?_; intro _; clear_value x; rotate_left; subst x; rotate_left)
    | (extract_lets +onlyGivenNames x; subst x)
    | split
    | dsimp -zeta only


end Sys2Proof.Machine
end

