-- ==== Sys2Proof/Laws/SoundOverlap.lean ====
section
/-!
SUPPORT. Soundness through the operations of Machine/Overlap.lean.
-/

set_option linter.all false

namespace Sys2Proof.Machine

theorem putOverlap_sound {q : List Instr} {t : Nat} {e : Entry} {p : List Nat × State} {r : Nat × Nat} (h : Sound q p.2) :
    Sound q (putOverlap t e p r).2 := by
  unfold putOverlap
  split
  · rename_i e1
    exact tslFreeSlot_sound e1 h
  · rename_i e1
    exact tslFreeSlot_sound e1 h

theorem foldl_snd_sound {q : List Instr} {α β : Type} {f : α × State → β → α × State} {l : List β} {p : α × State}
    (hf : ∀ p r, Sound q p.2 → Sound q (f p r).2) (h : Sound q p.2) : Sound q (l.foldl f p).2 := by
  induction l generalizing p with
  | nil => exact h
  | cons r l ih => exact ih (hf p r h)

theorem enterOverlap_sound {q : List Instr} {t : Nat} {s : State} (h : Sound q s) : Sound q (enterOverlap t s) := by
  unfold enterOverlap
  split
  · exact h
  · split
    · exact h
    · extract_lets +onlyGivenNames l s1
      have h1 : Sound q s1 := by
        subst s1
        exact each_sound (fun _ _ ht => tslCounted_sound ht) h
      clear_value s1
      split
      · exact h1
      · exact onEntry_sound (foldl_snd_sound (fun _ _ hp => putOverlap_sound hp) h1)

theorem leaveOverlap_sound {qq : List Instr} {t : Nat} {s : State}  (h_s : Sound qq s) : Sound qq (leaveOverlap t s) := by
  unfold leaveOverlap
  repeat' first
    | with_reducible assumption
    | intro _
    | with_reducible rfl
    | with_reducible apply Sound.ite
    | with_reducible apply each_sound
    | with_reducible apply onEntry_sound
    | with_reducible apply dropOverlap_sound
    | (with_reducible apply Sound.update; first | with_reducible assumption | with_reducible apply onEntry_sound | with_reducible apply dropOverlap_sound)
    | (extract_lets +onlyGivenNames x; refine (?_ : Sound qq x → _) ?_; intro _; clear_value x; rotate_left; subst x; rotate_left)
    | (extract_lets +onlyGivenNames x; subst x)
    | split
    | dsimp -zeta only


theorem askYard_sound {qq : List Instr} {t : Nat} {e : Entry} {r : Nat × Nat × Nat} {s : State}  (h_s : Sound qq s) : Sound qq (askYard t e r s) := by
  unfold askYard
  repeat' first
    | with_reducible assumption
    | intro _
    | with_reducible rfl
    | with_reducible apply Sound.ite
    | with_reducible apply each_sound
    | with_reducible apply onEntry_sound
    | with_reducible apply sendFrame_sound
    | (with_reducible apply Sound.update; first | with_reducible assumption | with_reducible apply onEntry_sound | with_reducible apply sendFrame_sound)
    | (extract_lets +onlyGivenNames x; refine (?_ : Sound qq x → _) ?_; intro _; clear_value x; rotate_left; subst x; rotate_left)
    | (extract_lets +onlyGivenNames x; subst x)
    | split
    | dsimp -zeta only


theorem pumpReads_sound {qq : List Instr} {t : Nat} {s : State}  (h_s : Sound qq s) : Sound qq (pumpReads t s) := by
  unfold pumpReads
  repeat' first
    | with_reducible assumption
    | intro _
    | with_reducible rfl
    | with_reducible apply Sound.ite
    | with_reducible apply each_sound
    | with_reducible apply onEntry_sound
    | with_reducible apply failEntry_sound
    | with_reducible apply each_sound
    | with_reducible apply askYard_sound
    | with_reducible apply readsEnd_sound
    | with_reducible apply readUnits_sound
    | (with_reducible apply Sound.update; first | with_reducible assumption | with_reducible apply onEntry_sound | with_reducible apply failEntry_sound | with_reducible apply each_sound | with_reducible apply askYard_sound | with_reducible apply readsEnd_sound | with_reducible apply readUnits_sound)
    | (extract_lets +onlyGivenNames x; refine (?_ : Sound qq x → _) ?_; intro _; clear_value x; rotate_left; subst x; rotate_left)
    | (extract_lets +onlyGivenNames x; subst x)
    | split
    | dsimp -zeta only


theorem holdChange_sound {qq : List Instr} {kind : Nat} {ns : Nat} {ordinal : Nat} {first : Nat} {count : Nat} {st : Stamped} {s : State}  (h_s : Sound qq s) : Sound qq (holdChange kind ns ordinal first count st s) := by
  unfold holdChange
  repeat' first
    | with_reducible assumption
    | intro _
    | with_reducible rfl
    | with_reducible apply Sound.ite
    | with_reducible apply each_sound
    | with_reducible apply holdMapRecord_sound
    | (with_reducible apply Sound.update; first | with_reducible assumption | with_reducible apply holdMapRecord_sound)
    | (extract_lets +onlyGivenNames x; refine (?_ : Sound qq x → _) ?_; intro _; clear_value x; rotate_left; subst x; rotate_left)
    | (extract_lets +onlyGivenNames x; subst x)
    | split
    | dsimp -zeta only


theorem holdUnit_sound {qq : List Instr} {ns : Nat} {unit : Nat} {f : Frame} {cmd : Nat} {s : State}  (h_s : Sound qq s) : Sound qq (holdUnit ns unit f cmd s) := by
  unfold holdUnit
  repeat' first
    | with_reducible assumption
    | intro _
    | with_reducible rfl
    | with_reducible apply Sound.ite
    | with_reducible apply each_sound
    | with_reducible apply takeStamp_snd
    | (with_reducible refine takeStamp_sound (by assumption) ?_)
    | with_reducible apply tslOrdered_sound
    | (with_reducible apply Sound.update; first | with_reducible assumption | with_reducible apply takeStamp_snd | (with_reducible refine takeStamp_sound (by assumption) ?_) | with_reducible apply tslOrdered_sound)
    | (extract_lets +onlyGivenNames x; refine (?_ : Sound qq x → _) ?_; intro _; clear_value x; rotate_left; subst x; rotate_left)
    | (extract_lets +onlyGivenNames x; subst x)
    | split
    | dsimp -zeta only


theorem tryChange_sound {qq : List Instr} {t : Nat} {s : State}  (h_s : Sound qq s) : Sound qq (tryChange t s) := by
  unfold tryChange
  repeat' first
    | with_reducible assumption
    | intro _
    | with_reducible rfl
    | with_reducible apply Sound.ite
    | with_reducible apply each_sound
    | with_reducible apply failEntry_sound
    | with_reducible apply each_sound
    | with_reducible apply takeStamp_snd
    | (with_reducible refine takeStamp_sound (by assumption) ?_)
    | with_reducible apply holdChange_sound
    | with_reducible apply holdUnit_sound
    | with_reducible apply countXts_sound
    | with_reducible apply sendFrame_sound
    | with_reducible apply leaveOverlap_sound
    | with_reducible apply onEntry_sound
    | with_reducible apply finishEntry_sound
    | with_reducible apply pump_sound
    | (with_reducible apply Sound.update; first | with_reducible assumption | with_reducible apply failEntry_sound | with_reducible apply each_sound | with_reducible apply takeStamp_snd | (with_reducible refine takeStamp_sound (by assumption) ?_) | with_reducible apply holdChange_sound | with_reducible apply holdUnit_sound | with_reducible apply countXts_sound | with_reducible apply sendFrame_sound | with_reducible apply leaveOverlap_sound | with_reducible apply onEntry_sound | with_reducible apply finishEntry_sound | with_reducible apply pump_sound)
    | (extract_lets +onlyGivenNames x; refine (?_ : Sound qq x → _) ?_; intro _; clear_value x; rotate_left; subst x; rotate_left)
    | (extract_lets +onlyGivenNames x; subst x)
    | split
    | dsimp -zeta only


theorem releaseYards_sound {qq : List Instr} {t : Nat} {s : State}  (h_s : Sound qq s) : Sound qq (releaseYards t s) := by
  unfold releaseYards
  repeat' first
    | with_reducible assumption
    | intro _
    | with_reducible rfl
    | with_reducible apply Sound.ite
    | with_reducible apply each_sound
    | with_reducible apply each_sound
    | with_reducible apply sendFrame_sound
    | with_reducible apply onEntry_sound
    | (with_reducible apply Sound.update; first | with_reducible assumption | with_reducible apply each_sound | with_reducible apply sendFrame_sound | with_reducible apply onEntry_sound)
    | (extract_lets +onlyGivenNames x; refine (?_ : Sound qq x → _) ?_; intro _; clear_value x; rotate_left; subst x; rotate_left)
    | (extract_lets +onlyGivenNames x; subst x)
    | split
    | dsimp -zeta only


theorem wakeAll_sound {qq : List Instr} {s : State}  (h_s : Sound qq s) : Sound qq (wakeAll s) := by
  unfold wakeAll
  repeat' first
    | with_reducible assumption
    | intro _
    | with_reducible rfl
    | with_reducible apply Sound.ite
    | with_reducible apply each_sound
    | with_reducible apply each_sound
    | with_reducible apply pumpReads_sound
    | with_reducible apply enterOverlap_sound
    | with_reducible apply releaseYards_sound
    | with_reducible apply tryChange_sound
    | (with_reducible apply Sound.update; first | with_reducible assumption | with_reducible apply each_sound | with_reducible apply pumpReads_sound | with_reducible apply enterOverlap_sound | with_reducible apply releaseYards_sound | with_reducible apply tryChange_sound)
    | (extract_lets +onlyGivenNames x; refine (?_ : Sound qq x → _) ?_; intro _; clear_value x; rotate_left; subst x; rotate_left)
    | (extract_lets +onlyGivenNames x; subst x)
    | split
    | dsimp -zeta only


end Sys2Proof.Machine
end

