-- ==== Sys2Proof/Laws/SoundHostData.lean ====
section
/-!
SUPPORT. Soundness through the operations of Machine/HostData.lean.
-/

set_option linter.all false

namespace Sys2Proof.Machine

theorem runEntry_sound {qq : List Instr} {t : Nat} {admin : Bool} {opcode : Nat} {f : Entry → State → State} {s : State} (hf : ∀ a0 a1, Sound qq a1 → Sound qq (f a0 a1)) (h_s : Sound qq s) : SoundOut qq (runEntry t admin opcode f s) := by
  unfold runEntry
  repeat' first
    | with_reducible assumption
    | intro _
    | with_reducible rfl
    | with_reducible apply Sound.ite
    | with_reducible apply each_sound
    | with_reducible apply SoundOut.next
    | with_reducible apply SoundOut.ite
    | with_reducible apply hf
    | (with_reducible apply Sound.update; first | with_reducible assumption | with_reducible apply hf)
    | (extract_lets +onlyGivenNames x; refine (?_ : Sound qq x → _) ?_; intro _; clear_value x; rotate_left; subst x; rotate_left)
    | (extract_lets +onlyGivenNames x; subst x)
    | split
    | dsimp -zeta only


theorem beginLba_sound {qq : List Instr} {t : Nat} {l : Entry → List (Nat × Nat)} {checks : Namespace → Entry → State → List Nat} {go : Namespace → Entry → State → State} {e : Entry} {s : State} (hgo : ∀ a0 a1 a2, Sound qq a2 → Sound qq (go a0 a1 a2)) (h_s : Sound qq s) : Sound qq (beginLba t l checks go e s) := by
  unfold beginLba
  repeat' first
    | with_reducible assumption
    | intro _
    | with_reducible rfl
    | with_reducible apply Sound.ite
    | with_reducible apply each_sound
    | with_reducible apply finishEntry_sound
    | with_reducible apply onEntry_sound
    | with_reducible apply hgo
    | (with_reducible apply Sound.update; first | with_reducible assumption | with_reducible apply finishEntry_sound | with_reducible apply onEntry_sound | with_reducible apply hgo)
    | (extract_lets +onlyGivenNames x; refine (?_ : Sound qq x → _) ?_; intro _; clear_value x; rotate_left; subst x; rotate_left)
    | (extract_lets +onlyGivenNames x; subst x)
    | split
    | dsimp -zeta only


theorem execIoRead_sound {qq : List Instr} {entry : Nat} {ptr : DataPtr} {s : State}  (h_s : Sound qq s) : SoundOut qq (execIoRead entry ptr s) := by
  unfold execIoRead
  repeat' first
    | with_reducible assumption
    | intro _
    | with_reducible rfl
    | with_reducible apply Sound.ite
    | with_reducible apply each_sound
    | with_reducible apply SoundOut.next
    | with_reducible apply SoundOut.ite
    | with_reducible apply runEntry_sound
    | with_reducible apply beginLba_sound
    | with_reducible apply each_sound
    | with_reducible apply noteStream_sound
    | with_reducible apply pumpReads_sound
    | with_reducible apply onEntry_sound
    | (with_reducible apply Sound.update; first | with_reducible assumption | with_reducible apply runEntry_sound | with_reducible apply beginLba_sound | with_reducible apply each_sound | with_reducible apply noteStream_sound | with_reducible apply pumpReads_sound | with_reducible apply onEntry_sound)
    | (extract_lets +onlyGivenNames x; refine (?_ : Sound qq x → _) ?_; intro _; clear_value x; rotate_left; subst x; rotate_left)
    | (extract_lets +onlyGivenNames x; subst x)
    | split
    | dsimp -zeta only


theorem execIoVerify_sound {qq : List Instr} {entry : Nat} {s : State}  (h_s : Sound qq s) : SoundOut qq (execIoVerify entry s) := by
  unfold execIoVerify
  repeat' first
    | with_reducible assumption
    | intro _
    | with_reducible rfl
    | with_reducible apply Sound.ite
    | with_reducible apply each_sound
    | with_reducible apply SoundOut.next
    | with_reducible apply SoundOut.ite
    | with_reducible apply runEntry_sound
    | with_reducible apply beginLba_sound
    | with_reducible apply pumpReads_sound
    | with_reducible apply onEntry_sound
    | (with_reducible apply Sound.update; first | with_reducible assumption | with_reducible apply runEntry_sound | with_reducible apply beginLba_sound | with_reducible apply pumpReads_sound | with_reducible apply onEntry_sound)
    | (extract_lets +onlyGivenNames x; refine (?_ : Sound qq x → _) ?_; intro _; clear_value x; rotate_left; subst x; rotate_left)
    | (extract_lets +onlyGivenNames x; subst x)
    | split
    | dsimp -zeta only


theorem compareArrived_sound {qq : List Instr} {t : Nat} {s : State}  (h_s : Sound qq s) : Sound qq (compareArrived t s) := by
  unfold compareArrived
  repeat' first
    | with_reducible assumption
    | intro _
    | with_reducible rfl
    | with_reducible apply Sound.ite
    | with_reducible apply each_sound
    | with_reducible apply readsEnd_sound
    | with_reducible apply onEntry_sound
    | (with_reducible apply Sound.update; first | with_reducible assumption | with_reducible apply readsEnd_sound | with_reducible apply onEntry_sound)
    | (extract_lets +onlyGivenNames x; refine (?_ : Sound qq x → _) ?_; intro _; clear_value x; rotate_left; subst x; rotate_left)
    | (extract_lets +onlyGivenNames x; subst x)
    | split
    | dsimp -zeta only


theorem execIoCompare_sound {qq : List Instr} {entry : Nat} {ptr : DataPtr} {s : State}  (h_s : Sound qq s) : SoundOut qq (execIoCompare entry ptr s) := by
  unfold execIoCompare
  repeat' first
    | with_reducible assumption
    | intro _
    | with_reducible rfl
    | with_reducible apply Sound.ite
    | with_reducible apply each_sound
    | with_reducible apply SoundOut.next
    | with_reducible apply SoundOut.ite
    | with_reducible apply runEntry_sound
    | with_reducible apply beginLba_sound
    | with_reducible apply onEntry_sound
    | with_reducible apply fetchData_sound
    | with_reducible apply compareArrived_sound
    | with_reducible apply pumpReads_sound
    | (with_reducible apply Sound.update; first | with_reducible assumption | with_reducible apply runEntry_sound | with_reducible apply beginLba_sound | with_reducible apply onEntry_sound | with_reducible apply fetchData_sound | with_reducible apply compareArrived_sound | with_reducible apply pumpReads_sound)
    | (extract_lets +onlyGivenNames x; refine (?_ : Sound qq x → _) ?_; intro _; clear_value x; rotate_left; subst x; rotate_left)
    | (extract_lets +onlyGivenNames x; subst x)
    | split
    | dsimp -zeta only


theorem execIoWrite_sound {qq : List Instr} {entry : Nat} {ptr : DataPtr} {s : State}  (h_s : Sound qq s) : SoundOut qq (execIoWrite entry ptr s) := by
  unfold execIoWrite
  repeat' first
    | with_reducible assumption
    | intro _
    | with_reducible rfl
    | with_reducible apply Sound.ite
    | with_reducible apply each_sound
    | with_reducible apply SoundOut.next
    | with_reducible apply SoundOut.ite
    | with_reducible apply runEntry_sound
    | with_reducible apply beginLba_sound
    | with_reducible apply onEntry_sound
    | (with_reducible apply Sound.update; first | with_reducible assumption | with_reducible apply runEntry_sound | with_reducible apply beginLba_sound | with_reducible apply onEntry_sound)
    | (extract_lets +onlyGivenNames x; refine (?_ : Sound qq x → _) ?_; intro _; clear_value x; rotate_left; subst x; rotate_left)
    | (extract_lets +onlyGivenNames x; subst x)
    | split
    | dsimp -zeta only


theorem admitSlice_snd {qq : List Instr} {ns : Nat} {r : Nat × Nat} {stamp : Nat} {s : State}   (h_s : Sound qq s) : Sound qq (admitSlice ns r stamp s).2 := by
  unfold admitSlice
  repeat' first
    | with_reducible assumption
    | intro _
    | with_reducible rfl
    | with_reducible apply Sound.ite_snd
    | with_reducible apply Sound.ite
    | with_reducible apply each_sound
    | with_reducible apply tslOrdered_sound
    | (with_reducible apply Sound.update; first | with_reducible assumption | with_reducible apply tslOrdered_sound)
    | (extract_lets +onlyGivenNames x; refine (?_ : Sound qq x → _) ?_; intro _; clear_value x; rotate_left; subst x; rotate_left)
    | (extract_lets +onlyGivenNames x; subst x)
    | split
    | dsimp -zeta only

theorem admitSlice_sound {qq : List Instr} {ns : Nat} {r : Nat × Nat} {stamp : Nat} {s : State} {r0 : Nat} {tt : State} (eqn : admitSlice ns r stamp s = (r0, tt))  (h_s : Sound qq s) : Sound qq tt := by
  have h := admitSlice_snd (qq := qq) (ns := ns) (r := r) (stamp := stamp) (s := s) h_s
  rw [eqn] at h
  exact h

theorem markAdmitted_sound {qq : List Instr} {t : Nat} {i : Nat} {d : Nat} {s : State}  (h_s : Sound qq s) : Sound qq (markAdmitted t i d s) := by
  unfold markAdmitted
  repeat' first
    | with_reducible assumption
    | intro _
    | with_reducible rfl
    | with_reducible apply Sound.ite
    | with_reducible apply each_sound
    | with_reducible apply onEntry_sound
    | (with_reducible apply Sound.update; first | with_reducible assumption | with_reducible apply onEntry_sound)
    | (extract_lets +onlyGivenNames x; refine (?_ : Sound qq x → _) ?_; intro _; clear_value x; rotate_left; subst x; rotate_left)
    | (extract_lets +onlyGivenNames x; subst x)
    | split
    | dsimp -zeta only


theorem startSlice_sound {qq : List Instr} {t : Nat} {n : Namespace} {e : Entry} {r : Nat × Nat} {s : State}  (h_s : Sound qq s) : Sound qq (startSlice t n e r s) := by
  unfold startSlice
  repeat' first
    | with_reducible assumption
    | intro _
    | with_reducible rfl
    | with_reducible apply Sound.ite
    | with_reducible apply each_sound
    | with_reducible apply onEntry_sound
    | with_reducible apply pumpReads_sound
    | with_reducible apply fetchData_sound
    | (with_reducible apply Sound.update; first | with_reducible assumption | with_reducible apply onEntry_sound | with_reducible apply pumpReads_sound | with_reducible apply fetchData_sound)
    | (extract_lets +onlyGivenNames x; refine (?_ : Sound qq x → _) ?_; intro _; clear_value x; rotate_left; subst x; rotate_left)
    | (extract_lets +onlyGivenNames x; subst x)
    | split
    | dsimp -zeta only


theorem admitNext_sound {qq : List Instr} {t : Nat} {i : Nat} {x : Slice} {n : Namespace} {e : Entry} {s : State}  (h_s : Sound qq s) : Sound qq (admitNext t i x n e s) := by
  unfold admitNext
  repeat' first
    | with_reducible assumption
    | intro _
    | with_reducible rfl
    | with_reducible apply Sound.ite
    | with_reducible apply each_sound
    | with_reducible apply admitSlice_snd
    | (with_reducible refine admitSlice_sound (by assumption) ?_)
    | with_reducible apply startSlice_sound
    | with_reducible apply markAdmitted_sound
    | with_reducible apply onEntry_sound
    | with_reducible apply sendFrame_sound
    | (with_reducible apply Sound.update; first | with_reducible assumption | with_reducible apply admitSlice_snd | (with_reducible refine admitSlice_sound (by assumption) ?_) | with_reducible apply startSlice_sound | with_reducible apply markAdmitted_sound | with_reducible apply onEntry_sound | with_reducible apply sendFrame_sound)
    | (extract_lets +onlyGivenNames x; refine (?_ : Sound qq x → _) ?_; intro _; clear_value x; rotate_left; subst x; rotate_left)
    | (extract_lets +onlyGivenNames x; subst x)
    | split
    | dsimp -zeta only


theorem hostAdmit_sound {qq : List Instr} {t : Nat} {s : State}  (h_s : Sound qq s) : Sound qq (hostAdmit t s) := by
  unfold hostAdmit
  repeat' first
    | with_reducible assumption
    | intro _
    | with_reducible rfl
    | with_reducible apply Sound.ite
    | with_reducible apply each_sound
    | with_reducible apply failEntry_sound
    | with_reducible apply admitNext_sound
    | with_reducible apply enterOverlap_sound
    | (with_reducible apply Sound.update; first | with_reducible assumption | with_reducible apply failEntry_sound | with_reducible apply admitNext_sound | with_reducible apply enterOverlap_sound)
    | (extract_lets +onlyGivenNames x; refine (?_ : Sound qq x → _) ?_; intro _; clear_value x; rotate_left; subst x; rotate_left)
    | (extract_lets +onlyGivenNames x; subst x)
    | split
    | dsimp -zeta only


theorem onYardSlice_sound {qq : List Instr} {tag : Nat} {f : YardSlice → YardSlice} {s : State}  (h_s : Sound qq s) : Sound qq (onYardSlice tag f s) := by
  unfold onYardSlice
  repeat' first
    | with_reducible assumption
    | intro _
    | with_reducible rfl
    | with_reducible apply Sound.ite
    | with_reducible apply each_sound
    | (with_reducible apply Sound.update; first | with_reducible assumption)
    | (extract_lets +onlyGivenNames x; refine (?_ : Sound qq x → _) ?_; intro _; clear_value x; rotate_left; subst x; rotate_left)
    | (extract_lets +onlyGivenNames x; subst x)
    | split
    | dsimp -zeta only


theorem yardAdmit_sound {qq : List Instr} {tag : Nat} {s : State}  (h_s : Sound qq s) : Sound qq (yardAdmit tag s) := by
  unfold yardAdmit
  repeat' first
    | with_reducible assumption
    | intro _
    | with_reducible rfl
    | with_reducible apply Sound.ite
    | with_reducible apply each_sound
    | with_reducible apply admitSlice_snd
    | (with_reducible refine admitSlice_sound (by assumption) ?_)
    | with_reducible apply onYardSlice_sound
    | (with_reducible apply Sound.update; first | with_reducible assumption | with_reducible apply admitSlice_snd | (with_reducible refine admitSlice_sound (by assumption) ?_) | with_reducible apply onYardSlice_sound)
    | (extract_lets +onlyGivenNames x; refine (?_ : Sound qq x → _) ?_; intro _; clear_value x; rotate_left; subst x; rotate_left)
    | (extract_lets +onlyGivenNames x; subst x)
    | split
    | dsimp -zeta only


theorem execSliceAdmit_sound {qq : List Instr} {entry : Nat} {s : State}  (h_s : Sound qq s) : SoundOut qq (execSliceAdmit entry s) := by
  unfold execSliceAdmit
  repeat' first
    | with_reducible assumption
    | intro _
    | with_reducible rfl
    | with_reducible apply Sound.ite
    | with_reducible apply each_sound
    | with_reducible apply SoundOut.next
    | with_reducible apply SoundOut.ite
    | with_reducible apply yardAdmit_sound
    | with_reducible apply hostAdmit_sound
    | (with_reducible apply Sound.update; first | with_reducible assumption | with_reducible apply yardAdmit_sound | with_reducible apply hostAdmit_sound)
    | (extract_lets +onlyGivenNames x; refine (?_ : Sound qq x → _) ?_; intro _; clear_value x; rotate_left; subst x; rotate_left)
    | (extract_lets +onlyGivenNames x; subst x)
    | split
    | dsimp -zeta only


theorem holdUnits_sound {qq : List Instr} {ns : Nat} {slice : Nat} {cmd : Nat} {l : List (Nat × Frame)} {s : State}  (h_s : Sound qq s) : Sound qq (holdUnits ns slice cmd l s) := by
  unfold holdUnits
  repeat' first
    | with_reducible assumption
    | intro _
    | with_reducible rfl
    | with_reducible apply Sound.ite
    | with_reducible apply each_sound
    | with_reducible apply each_sound
    | with_reducible apply takeStamp_snd
    | (with_reducible refine takeStamp_sound (by assumption) ?_)
    | (with_reducible apply Sound.update; first | with_reducible assumption | with_reducible apply each_sound | with_reducible apply takeStamp_snd | (with_reducible refine takeStamp_sound (by assumption) ?_))
    | (extract_lets +onlyGivenNames x; refine (?_ : Sound qq x → _) ?_; intro _; clear_value x; rotate_left; subst x; rotate_left)
    | (extract_lets +onlyGivenNames x; subst x)
    | split
    | dsimp -zeta only


theorem writeEnd_sound {qq : List Instr} {t : Nat} {s : State}  (h_s : Sound qq s) : Sound qq (writeEnd t s) := by
  unfold writeEnd
  repeat' first
    | with_reducible assumption
    | intro _
    | with_reducible rfl
    | with_reducible apply Sound.ite
    | with_reducible apply each_sound
    | with_reducible apply failEntry_sound
    | with_reducible apply finishEntry_sound
    | with_reducible apply leaveOverlap_sound
    | (with_reducible apply Sound.update; first | with_reducible assumption | with_reducible apply failEntry_sound | with_reducible apply finishEntry_sound | with_reducible apply leaveOverlap_sound)
    | (extract_lets +onlyGivenNames x; refine (?_ : Sound qq x → _) ?_; intro _; clear_value x; rotate_left; subst x; rotate_left)
    | (extract_lets +onlyGivenNames x; subst x)
    | split
    | dsimp -zeta only


theorem markHeld_sound {qq : List Instr} {t : Nat} {i : Nat} {j : Nat} {s : State}  (h_s : Sound qq s) : Sound qq (markHeld t i j s) := by
  unfold markHeld
  repeat' first
    | with_reducible assumption
    | intro _
    | with_reducible rfl
    | with_reducible apply Sound.ite
    | with_reducible apply each_sound
    | with_reducible apply onEntry_sound
    | (with_reducible apply Sound.update; first | with_reducible assumption | with_reducible apply onEntry_sound)
    | (extract_lets +onlyGivenNames x; refine (?_ : Sound qq x → _) ?_; intro _; clear_value x; rotate_left; subst x; rotate_left)
    | (extract_lets +onlyGivenNames x; subst x)
    | split
    | dsimp -zeta only


theorem hostHeld_sound {qq : List Instr} {t : Nat} {i : Nat} {j : Nat} {s : State}  (h_s : Sound qq s) : Sound qq (hostHeld t i j s) := by
  unfold hostHeld
  repeat' first
    | with_reducible assumption
    | intro _
    | with_reducible rfl
    | with_reducible apply Sound.ite
    | with_reducible apply each_sound
    | with_reducible apply holdUnits_sound
    | with_reducible apply countXts_sound
    | with_reducible apply writeEnd_sound
    | with_reducible apply markHeld_sound
    | with_reducible apply onEntry_sound
    | with_reducible apply settleMedia_sound
    | with_reducible apply wakeAll_sound
    | (with_reducible apply Sound.update; first | with_reducible assumption | with_reducible apply holdUnits_sound | with_reducible apply countXts_sound | with_reducible apply writeEnd_sound | with_reducible apply markHeld_sound | with_reducible apply onEntry_sound | with_reducible apply settleMedia_sound | with_reducible apply wakeAll_sound)
    | (extract_lets +onlyGivenNames x; refine (?_ : Sound qq x → _) ?_; intro _; clear_value x; rotate_left; subst x; rotate_left)
    | (extract_lets +onlyGivenNames x; subst x)
    | split
    | dsimp -zeta only


theorem yardHeld_sound {qq : List Instr} {tag : Nat} {j : Nat} {s : State}  (h_s : Sound qq s) : Sound qq (yardHeld tag j s) := by
  unfold yardHeld
  repeat' first
    | with_reducible assumption
    | intro _
    | with_reducible rfl
    | with_reducible apply Sound.ite
    | with_reducible apply each_sound
    | with_reducible apply holdUnits_sound
    | with_reducible apply onYardSlice_sound
    | with_reducible apply settleMedia_sound
    | with_reducible apply wakeAll_sound
    | with_reducible apply sendFrame_sound
    | (with_reducible apply Sound.update; first | with_reducible assumption | with_reducible apply holdUnits_sound | with_reducible apply onYardSlice_sound | with_reducible apply settleMedia_sound | with_reducible apply wakeAll_sound | with_reducible apply sendFrame_sound)
    | (extract_lets +onlyGivenNames x; refine (?_ : Sound qq x → _) ?_; intro _; clear_value x; rotate_left; subst x; rotate_left)
    | (extract_lets +onlyGivenNames x; subst x)
    | split
    | dsimp -zeta only


theorem execPieceHeld_sound {qq : List Instr} {entry : Nat} {slice : Nat} {piece : Nat} {s : State}  (h_s : Sound qq s) : SoundOut qq (execPieceHeld entry slice piece s) := by
  unfold execPieceHeld
  repeat' first
    | with_reducible assumption
    | intro _
    | with_reducible rfl
    | with_reducible apply Sound.ite
    | with_reducible apply each_sound
    | with_reducible apply SoundOut.next
    | with_reducible apply SoundOut.ite
    | with_reducible apply yardHeld_sound
    | with_reducible apply hostHeld_sound
    | (with_reducible apply Sound.update; first | with_reducible assumption | with_reducible apply yardHeld_sound | with_reducible apply hostHeld_sound)
    | (extract_lets +onlyGivenNames x; refine (?_ : Sound qq x → _) ?_; intro _; clear_value x; rotate_left; subst x; rotate_left)
    | (extract_lets +onlyGivenNames x; subst x)
    | split
    | dsimp -zeta only


theorem sendUnits_sound {qq : List Instr} {t : Nat} {s : State}  (h_s : Sound qq s) : Sound qq (sendUnits t s) := by
  unfold sendUnits
  repeat' first
    | with_reducible assumption
    | intro _
    | with_reducible rfl
    | with_reducible apply Sound.ite
    | with_reducible apply each_sound
    | with_reducible apply onEntry_sound
    | with_reducible apply each_sound
    | with_reducible apply sendFrame_sound
    | with_reducible apply countXts_sound
    | (with_reducible apply Sound.update; first | with_reducible assumption | with_reducible apply onEntry_sound | with_reducible apply each_sound | with_reducible apply sendFrame_sound | with_reducible apply countXts_sound)
    | (extract_lets +onlyGivenNames x; refine (?_ : Sound qq x → _) ?_; intro _; clear_value x; rotate_left; subst x; rotate_left)
    | (extract_lets +onlyGivenNames x; subst x)
    | split
    | dsimp -zeta only


theorem dataArrived_sound {qq : List Instr} {t : Nat} {s : State}  (h_s : Sound qq s) : Sound qq (dataArrived t s) := by
  unfold dataArrived
  repeat' first
    | with_reducible assumption
    | intro _
    | with_reducible rfl
    | with_reducible apply Sound.ite
    | with_reducible apply each_sound
    | with_reducible apply compareArrived_sound
    | with_reducible apply sendUnits_sound
    | (with_reducible apply Sound.update; first | with_reducible assumption | with_reducible apply compareArrived_sound | with_reducible apply sendUnits_sound)
    | (extract_lets +onlyGivenNames x; refine (?_ : Sound qq x → _) ?_; intro _; clear_value x; rotate_left; subst x; rotate_left)
    | (extract_lets +onlyGivenNames x; subst x)
    | split
    | dsimp -zeta only


theorem beginChange_sound {qq : List Instr} {t : Nat} {n : Namespace} {e : Entry} {s : State}  (h_s : Sound qq s) : Sound qq (beginChange t n e s) := by
  unfold beginChange
  repeat' first
    | with_reducible assumption
    | intro _
    | with_reducible rfl
    | with_reducible apply Sound.ite
    | with_reducible apply each_sound
    | with_reducible apply onEntry_sound
    | with_reducible apply tryChange_sound
    | with_reducible apply pumpReads_sound
    | with_reducible apply enterOverlap_sound
    | (with_reducible apply Sound.update; first | with_reducible assumption | with_reducible apply onEntry_sound | with_reducible apply tryChange_sound | with_reducible apply pumpReads_sound | with_reducible apply enterOverlap_sound)
    | (extract_lets +onlyGivenNames x; refine (?_ : Sound qq x → _) ?_; intro _; clear_value x; rotate_left; subst x; rotate_left)
    | (extract_lets +onlyGivenNames x; subst x)
    | split
    | dsimp -zeta only


theorem execIoWriteZeroes_sound {qq : List Instr} {entry : Nat} {s : State}  (h_s : Sound qq s) : SoundOut qq (execIoWriteZeroes entry s) := by
  unfold execIoWriteZeroes
  repeat' first
    | with_reducible assumption
    | intro _
    | with_reducible rfl
    | with_reducible apply Sound.ite
    | with_reducible apply each_sound
    | with_reducible apply SoundOut.next
    | with_reducible apply SoundOut.ite
    | with_reducible apply runEntry_sound
    | with_reducible apply beginLba_sound
    | with_reducible apply beginChange_sound
    | (with_reducible apply Sound.update; first | with_reducible assumption | with_reducible apply runEntry_sound | with_reducible apply beginLba_sound | with_reducible apply beginChange_sound)
    | (extract_lets +onlyGivenNames x; refine (?_ : Sound qq x → _) ?_; intro _; clear_value x; rotate_left; subst x; rotate_left)
    | (extract_lets +onlyGivenNames x; subst x)
    | split
    | dsimp -zeta only


theorem execDatasetManagement_sound {qq : List Instr} {entry : Nat} {data : Bytes} {s : State}  (h_s : Sound qq s) : SoundOut qq (execDatasetManagement entry data s) := by
  unfold execDatasetManagement
  repeat' first
    | with_reducible assumption
    | intro _
    | with_reducible rfl
    | with_reducible apply Sound.ite
    | with_reducible apply each_sound
    | with_reducible apply SoundOut.next
    | with_reducible apply SoundOut.ite
    | with_reducible apply runEntry_sound
    | with_reducible apply finishEntry_sound
    | with_reducible apply beginLba_sound
    | with_reducible apply beginChange_sound
    | (with_reducible apply Sound.update; first | with_reducible assumption | with_reducible apply runEntry_sound | with_reducible apply finishEntry_sound | with_reducible apply beginLba_sound | with_reducible apply beginChange_sound)
    | (extract_lets +onlyGivenNames x; refine (?_ : Sound qq x → _) ?_; intro _; clear_value x; rotate_left; subst x; rotate_left)
    | (extract_lets +onlyGivenNames x; subst x)
    | split
    | dsimp -zeta only


theorem execIoFlush_sound {qq : List Instr} {entry : Nat} {s : State}  (h_s : Sound qq s) : SoundOut qq (execIoFlush entry s) := by
  unfold execIoFlush
  repeat' first
    | with_reducible assumption
    | intro _
    | with_reducible rfl
    | with_reducible apply Sound.ite
    | with_reducible apply each_sound
    | with_reducible apply SoundOut.next
    | with_reducible apply SoundOut.ite
    | with_reducible apply runEntry_sound
    | with_reducible apply finishEntry_sound
    | (with_reducible apply Sound.update; first | with_reducible assumption | with_reducible apply runEntry_sound | with_reducible apply finishEntry_sound)
    | (extract_lets +onlyGivenNames x; refine (?_ : Sound qq x → _) ?_; intro _; clear_value x; rotate_left; subst x; rotate_left)
    | (extract_lets +onlyGivenNames x; subst x)
    | split
    | dsimp -zeta only


end Sys2Proof.Machine
end

