-- ==== Sys2Proof/Laws/SoundNamespaceOps.lean ====
section
/-!
SUPPORT. Soundness through the operations of Machine/NamespaceOps.lean.
-/

set_option linter.all false

namespace Sys2Proof.Machine

theorem holdRuns_sound {qq : List Instr} {kind : Nat} {ns : Nat} {l : List (Nat × Nat)} {s : State}  (h_s : Sound qq s) : Sound qq (holdRuns kind ns l s) := by
  unfold holdRuns
  repeat' first
    | with_reducible assumption
    | intro _
    | with_reducible rfl
    | with_reducible apply Sound.ite
    | with_reducible apply each_sound
    | with_reducible apply each_sound
    | with_reducible apply takeStamp_snd
    | (with_reducible refine takeStamp_sound (by assumption) ?_)
    | with_reducible apply holdChange_sound
    | (with_reducible apply Sound.update; first | with_reducible assumption | with_reducible apply each_sound | with_reducible apply takeStamp_snd | (with_reducible refine takeStamp_sound (by assumption) ?_) | with_reducible apply holdChange_sound)
    | (extract_lets +onlyGivenNames x; refine (?_ : Sound qq x → _) ?_; intro _; clear_value x; rotate_left; subst x; rotate_left)
    | (extract_lets +onlyGivenNames x; subst x)
    | split
    | dsimp -zeta only


theorem assignChunks_sound {qq : List Instr} {ns : Nat} {ordinals : List Nat} {s : State}  (h_s : Sound qq s) : Sound qq (assignChunks ns ordinals s) := by
  unfold assignChunks
  repeat' first
    | with_reducible assumption
    | intro _
    | with_reducible rfl
    | with_reducible apply Sound.ite
    | with_reducible apply each_sound
    | with_reducible apply each_sound
    | with_reducible apply takeStamp_snd
    | (with_reducible refine takeStamp_sound (by assumption) ?_)
    | with_reducible apply holdChange_sound
    | (with_reducible apply Sound.update; first | with_reducible assumption | with_reducible apply each_sound | with_reducible apply takeStamp_snd | (with_reducible refine takeStamp_sound (by assumption) ?_) | with_reducible apply holdChange_sound)
    | (extract_lets +onlyGivenNames x; refine (?_ : Sound qq x → _) ?_; intro _; clear_value x; rotate_left; subst x; rotate_left)
    | (extract_lets +onlyGivenNames x; subst x)
    | split
    | dsimp -zeta only


theorem releaseChunks_sound {qq : List Instr} {ns : Nat} {n : Nat} {s : State}  (h_s : Sound qq s) : Sound qq (releaseChunks ns n s) := by
  unfold releaseChunks
  repeat' first
    | with_reducible assumption
    | intro _
    | with_reducible rfl
    | with_reducible apply Sound.ite
    | with_reducible apply each_sound
    | with_reducible apply each_sound
    | with_reducible apply takeStamp_snd
    | (with_reducible refine takeStamp_sound (by assumption) ?_)
    | with_reducible apply holdChange_sound
    | (with_reducible apply Sound.update; first | with_reducible assumption | with_reducible apply each_sound | with_reducible apply takeStamp_snd | (with_reducible refine takeStamp_sound (by assumption) ?_) | with_reducible apply holdChange_sound)
    | (extract_lets +onlyGivenNames x; refine (?_ : Sound qq x → _) ?_; intro _; clear_value x; rotate_left; subst x; rotate_left)
    | (extract_lets +onlyGivenNames x; subst x)
    | split
    | dsimp -zeta only


theorem storeDurable_sound {qq : List Instr} {s : State}  (h_s : Sound qq s) : Sound qq (storeDurable s) := by
  unfold storeDurable
  repeat' first
    | with_reducible assumption
    | intro _
    | with_reducible rfl
    | with_reducible apply Sound.ite
    | with_reducible apply each_sound
    | with_reducible apply takeStamp_snd
    | (with_reducible refine takeStamp_sound (by assumption) ?_)
    | with_reducible apply takeNonce_snd
    | (with_reducible refine takeNonce_sound (by assumption) ?_)
    | (with_reducible apply Sound.update; first | with_reducible assumption | with_reducible apply takeStamp_snd | (with_reducible refine takeStamp_sound (by assumption) ?_) | with_reducible apply takeNonce_snd | (with_reducible refine takeNonce_sound (by assumption) ?_))
    | (extract_lets +onlyGivenNames x; refine (?_ : Sound qq x → _) ?_; intro _; clear_value x; rotate_left; subst x; rotate_left)
    | (extract_lets +onlyGivenNames x; subst x)
    | split
    | dsimp -zeta only


theorem drawKeys_sound {qq : List Instr} {slots : List Nat} {s : State}  (h_s : Sound qq s) : Sound qq (drawKeys slots s) := by
  unfold drawKeys
  repeat' first
    | with_reducible assumption
    | intro _
    | with_reducible rfl
    | with_reducible apply Sound.ite
    | with_reducible apply each_sound
    | with_reducible apply each_sound
    | (with_reducible apply Sound.update; first | with_reducible assumption | with_reducible apply each_sound)
    | (extract_lets +onlyGivenNames x; refine (?_ : Sound qq x → _) ?_; intro _; clear_value x; rotate_left; subst x; rotate_left)
    | (extract_lets +onlyGivenNames x; subst x)
    | split
    | dsimp -zeta only


theorem firstFormat_sound {qq : List Instr} {s : State}  (h_s : Sound qq s) : Sound qq (firstFormat s) := by
  unfold firstFormat
  repeat' first
    | with_reducible assumption
    | intro _
    | with_reducible rfl
    | with_reducible apply Sound.ite
    | with_reducible apply each_sound
    | with_reducible apply setStay_sound
    | with_reducible apply recount_sound
    | with_reducible apply fillSets_sound
    | with_reducible apply writeRedPage_sound
    | with_reducible apply storeDurable_sound
    | with_reducible apply drawKeys_sound
    | (with_reducible apply Sound.update; first | with_reducible assumption | with_reducible apply setStay_sound | with_reducible apply recount_sound | with_reducible apply fillSets_sound | with_reducible apply writeRedPage_sound | with_reducible apply storeDurable_sound | with_reducible apply drawKeys_sound)
    | (extract_lets +onlyGivenNames x; refine (?_ : Sound qq x → _) ?_; intro _; clear_value x; rotate_left; subst x; rotate_left)
    | (extract_lets +onlyGivenNames x; subst x)
    | split
    | dsimp -zeta only


theorem nsChanged_sound {qq : List Instr} {ns : Nat} {c : Nat} {s : State}  (h_s : Sound qq s) : Sound qq (nsChanged ns c s) := by
  unfold nsChanged
  repeat' first
    | with_reducible assumption
    | intro _
    | with_reducible rfl
    | with_reducible apply Sound.ite
    | with_reducible apply each_sound
    | with_reducible apply noteMi_sound
    | with_reducible apply onCtrl_sound
    | with_reducible apply postAsync_sound
    | (with_reducible apply Sound.update; first | with_reducible assumption | with_reducible apply noteMi_sound | with_reducible apply onCtrl_sound | with_reducible apply postAsync_sound)
    | (extract_lets +onlyGivenNames x; refine (?_ : Sound qq x → _) ?_; intro _; clear_value x; rotate_left; subst x; rotate_left)
    | (extract_lets +onlyGivenNames x; subst x)
    | split
    | dsimp -zeta only


theorem nsChangedAll_sound {qq : List Instr} {ns : Nat} {n : Namespace} {s : State}  (h_s : Sound qq s) : Sound qq (nsChangedAll ns n s) := by
  unfold nsChangedAll
  repeat' first
    | with_reducible assumption
    | intro _
    | with_reducible rfl
    | with_reducible apply Sound.ite
    | with_reducible apply each_sound
    | with_reducible apply each_sound
    | with_reducible apply nsChanged_sound
    | (with_reducible apply Sound.update; first | with_reducible assumption | with_reducible apply each_sound | with_reducible apply nsChanged_sound)
    | (extract_lets +onlyGivenNames x; refine (?_ : Sound qq x → _) ?_; intro _; clear_value x; rotate_left; subst x; rotate_left)
    | (extract_lets +onlyGivenNames x; subst x)
    | split
    | dsimp -zeta only


theorem endNamespaceAdmin_sound {qq : List Instr} {t : Nat} {status : Nat} {dw0 : Nat} {s : State}  (h_s : Sound qq s) : Sound qq (endNamespaceAdmin t status dw0 s) := by
  unfold endNamespaceAdmin
  repeat' first
    | with_reducible assumption
    | intro _
    | with_reducible rfl
    | with_reducible apply Sound.ite
    | with_reducible apply each_sound
    | with_reducible apply each_sound
    | with_reducible apply nsChangedAll_sound
    | with_reducible apply onNamespace_sound
    | with_reducible apply finishEntry_sound
    | (with_reducible apply Sound.update; first | with_reducible assumption | with_reducible apply each_sound | with_reducible apply nsChangedAll_sound | with_reducible apply onNamespace_sound | with_reducible apply finishEntry_sound)
    | (extract_lets +onlyGivenNames x; refine (?_ : Sound qq x → _) ?_; intro _; clear_value x; rotate_left; subst x; rotate_left)
    | (extract_lets +onlyGivenNames x; subst x)
    | split
    | dsimp -zeta only


theorem cascadeNext_sound {qq : List Instr} {t : Nat} {s : State}  (h_s : Sound qq s) : Sound qq (cascadeNext t s) := by
  unfold cascadeNext
  repeat' first
    | with_reducible assumption
    | intro _
    | with_reducible rfl
    | with_reducible apply Sound.ite
    | with_reducible apply each_sound
    | with_reducible apply endNamespaceAdmin_sound
    | with_reducible apply sendFrame_sound
    | (with_reducible apply Sound.update; first | with_reducible assumption | with_reducible apply endNamespaceAdmin_sound | with_reducible apply sendFrame_sound)
    | (extract_lets +onlyGivenNames x; refine (?_ : Sound qq x → _) ?_; intro _; clear_value x; rotate_left; subst x; rotate_left)
    | (extract_lets +onlyGivenNames x; subst x)
    | split
    | dsimp -zeta only


theorem localEnded_sound {qq : List Instr} {t : Nat} {dw0 : Nat} {yards : List Nat} {body : List Nat} {s : State}  (h_s : Sound qq s) : Sound qq (localEnded t dw0 yards body s) := by
  unfold localEnded
  repeat' first
    | with_reducible assumption
    | intro _
    | with_reducible rfl
    | with_reducible apply Sound.ite
    | with_reducible apply each_sound
    | with_reducible apply onEntry_sound
    | with_reducible apply cascadeNext_sound
    | (with_reducible apply Sound.update; first | with_reducible assumption | with_reducible apply onEntry_sound | with_reducible apply cascadeNext_sound)
    | (extract_lets +onlyGivenNames x; refine (?_ : Sound qq x → _) ?_; intro _; clear_value x; rotate_left; subst x; rotate_left)
    | (extract_lets +onlyGivenNames x; subst x)
    | split
    | dsimp -zeta only


theorem createStep_sound {qq : List Instr} {t : Nat} {ns : Nat} {n : Namespace} {s : State}  (h_s : Sound qq s) : Sound qq (createStep t ns n s) := by
  unfold createStep
  repeat' first
    | with_reducible assumption
    | intro _
    | with_reducible rfl
    | with_reducible apply Sound.ite
    | with_reducible apply each_sound
    | with_reducible apply assignChunks_sound
    | with_reducible apply localEnded_sound
    | with_reducible apply onEntry_sound
    | (with_reducible apply Sound.update; first | with_reducible assumption | with_reducible apply assignChunks_sound | with_reducible apply localEnded_sound | with_reducible apply onEntry_sound)
    | (extract_lets +onlyGivenNames x; refine (?_ : Sound qq x → _) ?_; intro _; clear_value x; rotate_left; subst x; rotate_left)
    | (extract_lets +onlyGivenNames x; subst x)
    | split
    | dsimp -zeta only


theorem execNamespaceCreate_sound {qq : List Instr} {entry : Nat} {data : Bytes} {s : State}  (h_s : Sound qq s) : SoundOut qq (execNamespaceCreate entry data s) := by
  unfold execNamespaceCreate
  repeat' first
    | with_reducible assumption
    | intro _
    | with_reducible rfl
    | with_reducible apply Sound.ite
    | with_reducible apply each_sound
    | with_reducible apply SoundOut.next
    | with_reducible apply SoundOut.ite
    | with_reducible apply createStep_sound
    | with_reducible apply finishEntry_sound
    | with_reducible apply firstFormat_sound
    | (with_reducible apply Sound.update; first | with_reducible assumption | with_reducible apply createStep_sound | with_reducible apply finishEntry_sound | with_reducible apply firstFormat_sound)
    | (extract_lets +onlyGivenNames x; refine (?_ : Sound qq x → _) ?_; intro _; clear_value x; rotate_left; subst x; rotate_left)
    | (extract_lets +onlyGivenNames x; subst x)
    | split
    | dsimp -zeta only


theorem closeNamespaces_sound {qq : List Instr} {t : Nat} {l : List (Nat × Namespace)} {s : State}  (h_s : Sound qq s) : Sound qq (closeNamespaces t l s) := by
  unfold closeNamespaces
  repeat' first
    | with_reducible assumption
    | intro _
    | with_reducible rfl
    | with_reducible apply Sound.ite
    | with_reducible apply each_sound
    | with_reducible apply each_sound
    | with_reducible apply onNamespace_sound
    | with_reducible apply onEntry_sound
    | (with_reducible apply Sound.update; first | with_reducible assumption | with_reducible apply each_sound | with_reducible apply onNamespace_sound | with_reducible apply onEntry_sound)
    | (extract_lets +onlyGivenNames x; refine (?_ : Sound qq x → _) ?_; intro _; clear_value x; rotate_left; subst x; rotate_left)
    | (extract_lets +onlyGivenNames x; subst x)
    | split
    | dsimp -zeta only


theorem unbindRanges_sound {qq : List Instr} {ns : Nat} {s : State}  (h_s : Sound qq s) : Sound qq (unbindRanges ns s) := by
  unfold unbindRanges
  repeat' first
    | with_reducible assumption
    | intro _
    | with_reducible rfl
    | with_reducible apply Sound.ite
    | with_reducible apply each_sound
    | with_reducible apply storeDurable_sound
    | with_reducible apply drawKeys_sound
    | (with_reducible apply Sound.update; first | with_reducible assumption | with_reducible apply storeDurable_sound | with_reducible apply drawKeys_sound)
    | (extract_lets +onlyGivenNames x; refine (?_ : Sound qq x → _) ?_; intro _; clear_value x; rotate_left; subst x; rotate_left)
    | (extract_lets +onlyGivenNames x; subst x)
    | split
    | dsimp -zeta only


theorem deleteStep_sound {qq : List Instr} {t : Nat} {e : Entry} {s : State}  (h_s : Sound qq s) : Sound qq (deleteStep t e s) := by
  unfold deleteStep
  repeat' first
    | with_reducible assumption
    | intro _
    | with_reducible rfl
    | with_reducible apply Sound.ite
    | with_reducible apply each_sound
    | with_reducible apply each_sound
    | with_reducible apply releaseChunks_sound
    | with_reducible apply unbindRanges_sound
    | with_reducible apply localEnded_sound
    | (with_reducible apply Sound.update; first | with_reducible assumption | with_reducible apply each_sound | with_reducible apply releaseChunks_sound | with_reducible apply unbindRanges_sound | with_reducible apply localEnded_sound)
    | (extract_lets +onlyGivenNames x; refine (?_ : Sound qq x → _) ?_; intro _; clear_value x; rotate_left; subst x; rotate_left)
    | (extract_lets +onlyGivenNames x; subst x)
    | split
    | dsimp -zeta only


theorem execNamespaceDelete_sound {qq : List Instr} {entry : Nat} {s : State}  (h_s : Sound qq s) : SoundOut qq (execNamespaceDelete entry s) := by
  unfold execNamespaceDelete
  repeat' first
    | with_reducible assumption
    | intro _
    | with_reducible rfl
    | with_reducible apply Sound.ite
    | with_reducible apply each_sound
    | with_reducible apply SoundOut.next
    | with_reducible apply SoundOut.ite
    | with_reducible apply deleteStep_sound
    | with_reducible apply finishEntry_sound
    | with_reducible apply closeNamespaces_sound
    | (with_reducible apply Sound.update; first | with_reducible assumption | with_reducible apply deleteStep_sound | with_reducible apply finishEntry_sound | with_reducible apply closeNamespaces_sound)
    | (extract_lets +onlyGivenNames x; refine (?_ : Sound qq x → _) ?_; intro _; clear_value x; rotate_left; subst x; rotate_left)
    | (extract_lets +onlyGivenNames x; subst x)
    | split
    | dsimp -zeta only


theorem formatStep_sound {qq : List Instr} {t : Nat} {e : Entry} {s : State}  (h_s : Sound qq s) : Sound qq (formatStep t e s) := by
  unfold formatStep
  repeat' first
    | with_reducible assumption
    | intro _
    | with_reducible rfl
    | with_reducible apply Sound.ite
    | with_reducible apply each_sound
    | with_reducible apply firstFormat_sound
    | with_reducible apply each_sound
    | with_reducible apply holdRuns_sound
    | with_reducible apply storeDurable_sound
    | with_reducible apply drawKeys_sound
    | with_reducible apply onNamespace_sound
    | with_reducible apply localEnded_sound
    | (with_reducible apply Sound.update; first | with_reducible assumption | with_reducible apply firstFormat_sound | with_reducible apply each_sound | with_reducible apply holdRuns_sound | with_reducible apply storeDurable_sound | with_reducible apply drawKeys_sound | with_reducible apply onNamespace_sound | with_reducible apply localEnded_sound)
    | (extract_lets +onlyGivenNames x; refine (?_ : Sound qq x → _) ?_; intro _; clear_value x; rotate_left; subst x; rotate_left)
    | (extract_lets +onlyGivenNames x; subst x)
    | split
    | dsimp -zeta only


theorem execFormatNvm_sound {qq : List Instr} {entry : Nat} {s : State}  (h_s : Sound qq s) : SoundOut qq (execFormatNvm entry s) := by
  unfold execFormatNvm
  repeat' first
    | with_reducible assumption
    | intro _
    | with_reducible rfl
    | with_reducible apply Sound.ite
    | with_reducible apply each_sound
    | with_reducible apply SoundOut.next
    | with_reducible apply SoundOut.ite
    | with_reducible apply formatStep_sound
    | with_reducible apply finishEntry_sound
    | with_reducible apply closeNamespaces_sound
    | (with_reducible apply Sound.update; first | with_reducible assumption | with_reducible apply formatStep_sound | with_reducible apply finishEntry_sound | with_reducible apply closeNamespaces_sound)
    | (extract_lets +onlyGivenNames x; refine (?_ : Sound qq x → _) ?_; intro _; clear_value x; rotate_left; subst x; rotate_left)
    | (extract_lets +onlyGivenNames x; subst x)
    | split
    | dsimp -zeta only


theorem yardNamespace_sound {qq : List Instr} {op : KkAdmin} {s : State}  (h_s : Sound qq s) : Sound qq (yardNamespace op s) := by
  unfold yardNamespace
  repeat' first
    | with_reducible assumption
    | intro _
    | with_reducible rfl
    | with_reducible apply Sound.ite
    | with_reducible apply each_sound
    | with_reducible apply firstFormat_sound
    | with_reducible apply assignChunks_sound
    | with_reducible apply each_sound
    | with_reducible apply releaseChunks_sound
    | with_reducible apply holdRuns_sound
    | with_reducible apply onNamespace_sound
    | (with_reducible apply Sound.update; first | with_reducible assumption | with_reducible apply firstFormat_sound | with_reducible apply assignChunks_sound | with_reducible apply each_sound | with_reducible apply releaseChunks_sound | with_reducible apply holdRuns_sound | with_reducible apply onNamespace_sound)
    | (extract_lets +onlyGivenNames x; refine (?_ : Sound qq x → _) ?_; intro _; clear_value x; rotate_left; subst x; rotate_left)
    | (extract_lets +onlyGivenNames x; subst x)
    | split
    | dsimp -zeta only


theorem setAttached_sound {qq : List Instr} {ns : Nat} {c : Nat} {on : Bool} {s : State}  (h_s : Sound qq s) : Sound qq (setAttached ns c on s) := by
  unfold setAttached
  repeat' first
    | with_reducible assumption
    | intro _
    | with_reducible rfl
    | with_reducible apply Sound.ite
    | with_reducible apply each_sound
    | with_reducible apply nsChanged_sound
    | with_reducible apply onNamespace_sound
    | (with_reducible apply Sound.update; first | with_reducible assumption | with_reducible apply nsChanged_sound | with_reducible apply onNamespace_sound)
    | (extract_lets +onlyGivenNames x; refine (?_ : Sound qq x → _) ?_; intro _; clear_value x; rotate_left; subst x; rotate_left)
    | (extract_lets +onlyGivenNames x; subst x)
    | split
    | dsimp -zeta only


theorem execNamespaceAttachment_sound {qq : List Instr} {entry : Nat} {data : Bytes} {s : State}  (h_s : Sound qq s) : SoundOut qq (execNamespaceAttachment entry data s) := by
  unfold execNamespaceAttachment
  repeat' first
    | with_reducible assumption
    | intro _
    | with_reducible rfl
    | with_reducible apply Sound.ite
    | with_reducible apply each_sound
    | with_reducible apply SoundOut.next
    | with_reducible apply SoundOut.ite
    | with_reducible apply runEntry_sound
    | with_reducible apply finishEntry_sound
    | with_reducible apply each_sound
    | with_reducible apply setAttached_sound
    | (with_reducible apply Sound.update; first | with_reducible assumption | with_reducible apply runEntry_sound | with_reducible apply finishEntry_sound | with_reducible apply each_sound | with_reducible apply setAttached_sound)
    | (extract_lets +onlyGivenNames x; refine (?_ : Sound qq x → _) ?_; intro _; clear_value x; rotate_left; subst x; rotate_left)
    | (extract_lets +onlyGivenNames x; subst x)
    | split
    | dsimp -zeta only


theorem tryClosing_sound {qq : List Instr} {s : State}  (h_s : Sound qq s) : Sound qq (tryClosing s) := by
  unfold tryClosing
  repeat' first
    | with_reducible assumption
    | intro _
    | with_reducible rfl
    | with_reducible apply Sound.ite
    | with_reducible apply each_sound
    | with_reducible apply each_sound
    | with_reducible apply deleteStep_sound
    | with_reducible apply formatStep_sound
    | (with_reducible apply Sound.update; first | with_reducible assumption | with_reducible apply each_sound | with_reducible apply deleteStep_sound | with_reducible apply formatStep_sound)
    | (extract_lets +onlyGivenNames x; refine (?_ : Sound qq x → _) ?_; intro _; clear_value x; rotate_left; subst x; rotate_left)
    | (extract_lets +onlyGivenNames x; subst x)
    | split
    | dsimp -zeta only


end Sys2Proof.Machine
end

