-- ==== Sys2Proof/Laws/SoundOpal.lean ====
section
/-!
SUPPORT. Soundness through the operations of Machine/Opal.lean.
-/

set_option linter.all false

namespace Sys2Proof.Machine

theorem respond_sound {qq : List Instr} {t : Nat} {status : Byte} {s : State}  (h_s : Sound qq s) : Sound qq (respond t status s) := by
  unfold respond
  repeat' first
    | with_reducible assumption
    | intro _
    | with_reducible rfl
    | with_reducible apply Sound.ite
    | with_reducible apply each_sound
    | with_reducible apply finishEntry_sound
    | (with_reducible apply Sound.update; first | with_reducible assumption | with_reducible apply finishEntry_sound)
    | (extract_lets +onlyGivenNames x; refine (?_ : Sound qq x → _) ?_; intro _; clear_value x; rotate_left; subst x; rotate_left)
    | (extract_lets +onlyGivenNames x; subst x)
    | split
    | dsimp -zeta only


theorem runMethod_sound {qq : List Instr} {t : Nat} {secp : Nat} {f : Entry → State → State} {s : State} (hf : ∀ a0 a1, Sound qq a1 → Sound qq (f a0 a1)) (h_s : Sound qq s) : SoundOut qq (runMethod t secp f s) := by
  unfold runMethod
  repeat' first
    | with_reducible assumption
    | intro _
    | with_reducible rfl
    | with_reducible apply Sound.ite
    | with_reducible apply each_sound
    | with_reducible apply SoundOut.next
    | with_reducible apply SoundOut.ite
    | with_reducible apply finishEntry_sound
    | with_reducible apply hf
    | (with_reducible apply Sound.update; first | with_reducible assumption | with_reducible apply finishEntry_sound | with_reducible apply hf)
    | (extract_lets +onlyGivenNames x; refine (?_ : Sound qq x → _) ?_; intro _; clear_value x; rotate_left; subst x; rotate_left)
    | (extract_lets +onlyGivenNames x; subst x)
    | split
    | dsimp -zeta only


theorem lockingMethod_sound {qq : List Instr} {t : Nat} {f : Entry → State → State} {s : State} (hf : ∀ a0 a1, Sound qq a1 → Sound qq (f a0 a1)) (h_s : Sound qq s) : SoundOut qq (lockingMethod t f s) := by
  unfold lockingMethod
  repeat' first
    | with_reducible assumption
    | intro _
    | with_reducible rfl
    | with_reducible apply Sound.ite
    | with_reducible apply each_sound
    | with_reducible apply SoundOut.next
    | with_reducible apply SoundOut.ite
    | with_reducible apply runMethod_sound
    | with_reducible apply respond_sound
    | with_reducible apply hf
    | (with_reducible apply Sound.update; first | with_reducible assumption | with_reducible apply runMethod_sound | with_reducible apply respond_sound | with_reducible apply hf)
    | (extract_lets +onlyGivenNames x; refine (?_ : Sound qq x → _) ?_; intro _; clear_value x; rotate_left; subst x; rotate_left)
    | (extract_lets +onlyGivenNames x; subst x)
    | split
    | dsimp -zeta only


theorem changeStore_sound {qq : List Instr} {t : Nat} {f : OpalStore → OpalStore} {s : State}  (h_s : Sound qq s) : Sound qq (changeStore t f s) := by
  unfold changeStore
  repeat' first
    | with_reducible assumption
    | intro _
    | with_reducible rfl
    | with_reducible apply Sound.ite
    | with_reducible apply each_sound
    | with_reducible apply respond_sound
    | with_reducible apply storeDurable_sound
    | (with_reducible apply Sound.update; first | with_reducible assumption | with_reducible apply respond_sound | with_reducible apply storeDurable_sound)
    | (extract_lets +onlyGivenNames x; refine (?_ : Sound qq x → _) ?_; intro _; clear_value x; rotate_left; subst x; rotate_left)
    | (extract_lets +onlyGivenNames x; subst x)
    | split
    | dsimp -zeta only


theorem checkPin_snd {qq : List Instr} {stamp : Nat} {a : Nat} {pin : Bytes} {s : State}   (h_s : Sound qq s) : Sound qq (checkPin stamp a pin s).2 := by
  unfold checkPin
  repeat' first
    | with_reducible assumption
    | intro _
    | with_reducible rfl
    | with_reducible apply Sound.ite_snd
    | with_reducible apply Sound.ite
    | with_reducible apply each_sound
    | with_reducible apply storeDurable_sound
    | with_reducible apply askDigest_sound
    | (with_reducible apply Sound.update; first | with_reducible assumption | with_reducible apply storeDurable_sound | with_reducible apply askDigest_sound)
    | (extract_lets +onlyGivenNames x; refine (?_ : Sound qq x → _) ?_; intro _; clear_value x; rotate_left; subst x; rotate_left)
    | (extract_lets +onlyGivenNames x; subst x)
    | split
    | dsimp -zeta only

theorem checkPin_sound {qq : List Instr} {stamp : Nat} {a : Nat} {pin : Bytes} {s : State} {r0 : Byte} {tt : State} (eqn : checkPin stamp a pin s = (r0, tt))  (h_s : Sound qq s) : Sound qq tt := by
  have h := checkPin_snd (qq := qq) (stamp := stamp) (a := a) (pin := pin) (s := s) h_s
  rw [eqn] at h
  exact h

theorem execOpalAuthenticate_sound {qq : List Instr} {entry : Nat} {authority : Nat} {pin : Bytes} {s : State}  (h_s : Sound qq s) : SoundOut qq (execOpalAuthenticate entry authority pin s) := by
  unfold execOpalAuthenticate
  repeat' first
    | with_reducible assumption
    | intro _
    | with_reducible rfl
    | with_reducible apply Sound.ite
    | with_reducible apply each_sound
    | with_reducible apply SoundOut.next
    | with_reducible apply SoundOut.ite
    | with_reducible apply runMethod_sound
    | with_reducible apply respond_sound
    | with_reducible apply checkPin_snd
    | (with_reducible refine checkPin_sound (by assumption) ?_)
    | (with_reducible apply Sound.update; first | with_reducible assumption | with_reducible apply runMethod_sound | with_reducible apply respond_sound | with_reducible apply checkPin_snd | (with_reducible refine checkPin_sound (by assumption) ?_))
    | (extract_lets +onlyGivenNames x; refine (?_ : Sound qq x → _) ?_; intro _; clear_value x; rotate_left; subst x; rotate_left)
    | (extract_lets +onlyGivenNames x; subst x)
    | split
    | dsimp -zeta only


theorem holdStore_sound {qq : List Instr} {cmd : Nat} {k : Nat} {s : State}  (h_s : Sound qq s) : Sound qq (holdStore cmd k s) := by
  unfold holdStore
  repeat' first
    | with_reducible assumption
    | intro _
    | with_reducible rfl
    | with_reducible apply Sound.ite
    | with_reducible apply each_sound
    | with_reducible apply takeStamp_snd
    | (with_reducible refine takeStamp_sound (by assumption) ?_)
    | with_reducible apply tslOrdered_sound
    | (with_reducible apply Sound.update; first | with_reducible assumption | with_reducible apply takeStamp_snd | (with_reducible refine takeStamp_sound (by assumption) ?_) | with_reducible apply tslOrdered_sound)
    | (extract_lets +onlyGivenNames x; refine (?_ : Sound qq x → _) ?_; intro _; clear_value x; rotate_left; subst x; rotate_left)
    | (extract_lets +onlyGivenNames x; subst x)
    | split
    | dsimp -zeta only


theorem setDatastore_sound {q : List Instr} {t : Nat} {e : Entry} {offset : Nat} {b : Bytes} {s : State} (h : Sound q s) :
    Sound q (setDatastore t e offset b s) := by
  unfold setDatastore
  extract_lets +onlyGivenNames first n
  with_reducible apply Sound.ite
  · exact respond_sound h
  · with_reducible apply Sound.ite
    · exact h
    · refine pump_sound (respond_sound (each_sound (fun _ _ ht => holdStore_sound ht) (countXts_sound ?_)))
      obtain ⟨a, b, c, d, e⟩ := h
      refine ⟨a, ?_, c, d, e⟩
      simp only [State.memoryWf, Bool.and_eq_true] at b ⊢
      exact ⟨b.1, Cells.writes_wf b.2⟩

theorem rangeMethod_sound {qq : List Instr} {t : Nat} {k : Nat} {f : LockRange → LockRange} {s : State}  (h_s : Sound qq s) : SoundOut qq (rangeMethod t k f s) := by
  unfold rangeMethod
  repeat' first
    | with_reducible assumption
    | intro _
    | with_reducible rfl
    | with_reducible apply Sound.ite
    | with_reducible apply each_sound
    | with_reducible apply SoundOut.next
    | with_reducible apply SoundOut.ite
    | with_reducible apply lockingMethod_sound
    | with_reducible apply respond_sound
    | with_reducible apply changeStore_sound
    | (with_reducible apply Sound.update; first | with_reducible assumption | with_reducible apply lockingMethod_sound | with_reducible apply respond_sound | with_reducible apply changeStore_sound)
    | (extract_lets +onlyGivenNames x; refine (?_ : Sound qq x → _) ?_; intro _; clear_value x; rotate_left; subst x; rotate_left)
    | (extract_lets +onlyGivenNames x; subst x)
    | split
    | dsimp -zeta only


theorem execOpalSetLock_sound {qq : List Instr} {entry : Nat} {range : Nat} {readLock : Option Bool} {writeLock : Option Bool} {s : State}  (h_s : Sound qq s) : SoundOut qq (execOpalSetLock entry range readLock writeLock s) := by
  unfold execOpalSetLock
  repeat' first
    | with_reducible assumption
    | intro _
    | with_reducible rfl
    | with_reducible apply Sound.ite
    | with_reducible apply each_sound
    | with_reducible apply SoundOut.next
    | with_reducible apply SoundOut.ite
    | with_reducible apply rangeMethod_sound
    | (with_reducible apply Sound.update; first | with_reducible assumption | with_reducible apply rangeMethod_sound)
    | (extract_lets +onlyGivenNames x; refine (?_ : Sound qq x → _) ?_; intro _; clear_value x; rotate_left; subst x; rotate_left)
    | (extract_lets +onlyGivenNames x; subst x)
    | split
    | dsimp -zeta only


theorem execOpalSetRange_sound {qq : List Instr} {entry : Nat} {range : Nat} {change : RangeSet} {s : State}  (h_s : Sound qq s) : SoundOut qq (execOpalSetRange entry range change s) := by
  unfold execOpalSetRange
  repeat' first
    | with_reducible assumption
    | intro _
    | with_reducible rfl
    | with_reducible apply Sound.ite
    | with_reducible apply each_sound
    | with_reducible apply SoundOut.next
    | with_reducible apply SoundOut.ite
    | with_reducible apply lockingMethod_sound
    | with_reducible apply respond_sound
    | with_reducible apply changeStore_sound
    | (with_reducible apply Sound.update; first | with_reducible assumption | with_reducible apply lockingMethod_sound | with_reducible apply respond_sound | with_reducible apply changeStore_sound)
    | (extract_lets +onlyGivenNames x; refine (?_ : Sound qq x → _) ?_; intro _; clear_value x; rotate_left; subst x; rotate_left)
    | (extract_lets +onlyGivenNames x; subst x)
    | split
    | dsimp -zeta only


theorem genKeyEnd_sound {qq : List Instr} {t : Nat} {g : GenKey} {s : State}  (h_s : Sound qq s) : Sound qq (genKeyEnd t g s) := by
  unfold genKeyEnd
  repeat' first
    | with_reducible assumption
    | intro _
    | with_reducible rfl
    | with_reducible apply Sound.ite
    | with_reducible apply each_sound
    | with_reducible apply drawKeys_sound
    | with_reducible apply respond_sound
    | with_reducible apply storeDurable_sound
    | (with_reducible apply Sound.update; first | with_reducible assumption | with_reducible apply drawKeys_sound | with_reducible apply respond_sound | with_reducible apply storeDurable_sound)
    | (extract_lets +onlyGivenNames x; refine (?_ : Sound qq x → _) ?_; intro _; clear_value x; rotate_left; subst x; rotate_left)
    | (extract_lets +onlyGivenNames x; subst x)
    | split
    | dsimp -zeta only


theorem genKeyStep_sound {qq : List Instr} {s : State}  (h_s : Sound qq s) : Sound qq (genKeyStep s) := by
  unfold genKeyStep
  repeat' first
    | with_reducible assumption
    | intro _
    | with_reducible rfl
    | with_reducible apply Sound.ite
    | with_reducible apply each_sound
    | with_reducible apply genKeyEnd_sound
    | with_reducible apply each_sound
    | with_reducible apply holdRuns_sound
    | with_reducible apply takeStamp_snd
    | (with_reducible refine takeStamp_sound (by assumption) ?_)
    | with_reducible apply sendFrame_sound
    | with_reducible apply onEntry_sound
    | with_reducible apply pump_sound
    | (with_reducible apply Sound.update; first | with_reducible assumption | with_reducible apply genKeyEnd_sound | with_reducible apply each_sound | with_reducible apply holdRuns_sound | with_reducible apply takeStamp_snd | (with_reducible refine takeStamp_sound (by assumption) ?_) | with_reducible apply sendFrame_sound | with_reducible apply onEntry_sound | with_reducible apply pump_sound)
    | (extract_lets +onlyGivenNames x; refine (?_ : Sound qq x → _) ?_; intro _; clear_value x; rotate_left; subst x; rotate_left)
    | (extract_lets +onlyGivenNames x; subst x)
    | split
    | dsimp -zeta only


theorem beginGenKey_sound {qq : List Instr} {t : Nat} {slots : List Nat} {revert : Bool} {s : State}  (h_s : Sound qq s) : Sound qq (beginGenKey t slots revert s) := by
  unfold beginGenKey
  repeat' first
    | with_reducible assumption
    | intro _
    | with_reducible rfl
    | with_reducible apply Sound.ite
    | with_reducible apply each_sound
    | with_reducible apply genKeyStep_sound
    | with_reducible apply onEntry_sound
    | (with_reducible apply Sound.update; first | with_reducible assumption | with_reducible apply genKeyStep_sound | with_reducible apply onEntry_sound)
    | (extract_lets +onlyGivenNames x; refine (?_ : Sound qq x → _) ?_; intro _; clear_value x; rotate_left; subst x; rotate_left)
    | (extract_lets +onlyGivenNames x; subst x)
    | split
    | dsimp -zeta only


theorem execOpalGenkey_sound {qq : List Instr} {entry : Nat} {range : Nat} {s : State}  (h_s : Sound qq s) : SoundOut qq (execOpalGenkey entry range s) := by
  unfold execOpalGenkey
  repeat' first
    | with_reducible assumption
    | intro _
    | with_reducible rfl
    | with_reducible apply Sound.ite
    | with_reducible apply each_sound
    | with_reducible apply SoundOut.next
    | with_reducible apply SoundOut.ite
    | with_reducible apply lockingMethod_sound
    | with_reducible apply respond_sound
    | with_reducible apply beginGenKey_sound
    | (with_reducible apply Sound.update; first | with_reducible assumption | with_reducible apply lockingMethod_sound | with_reducible apply respond_sound | with_reducible apply beginGenKey_sound)
    | (extract_lets +onlyGivenNames x; refine (?_ : Sound qq x → _) ?_; intro _; clear_value x; rotate_left; subst x; rotate_left)
    | (extract_lets +onlyGivenNames x; subst x)
    | split
    | dsimp -zeta only


theorem execOpalRevert_sound {qq : List Instr} {entry : Nat} {s : State}  (h_s : Sound qq s) : SoundOut qq (execOpalRevert entry s) := by
  unfold execOpalRevert
  repeat' first
    | with_reducible assumption
    | intro _
    | with_reducible rfl
    | with_reducible apply Sound.ite
    | with_reducible apply each_sound
    | with_reducible apply SoundOut.next
    | with_reducible apply SoundOut.ite
    | with_reducible apply runMethod_sound
    | with_reducible apply beginGenKey_sound
    | with_reducible apply respond_sound
    | (with_reducible apply Sound.update; first | with_reducible assumption | with_reducible apply runMethod_sound | with_reducible apply beginGenKey_sound | with_reducible apply respond_sound)
    | (extract_lets +onlyGivenNames x; refine (?_ : Sound qq x → _) ?_; intro _; clear_value x; rotate_left; subst x; rotate_left)
    | (extract_lets +onlyGivenNames x; subst x)
    | split
    | dsimp -zeta only


theorem yardAnswered_sound {qq : List Instr} {t : Nat} {p : Nat} {s : State}  (h_s : Sound qq s) : Sound qq (yardAnswered t p s) := by
  unfold yardAnswered
  repeat' first
    | with_reducible assumption
    | intro _
    | with_reducible rfl
    | with_reducible apply Sound.ite
    | with_reducible apply each_sound
    | with_reducible apply onEntry_sound
    | with_reducible apply genKeyEnd_sound
    | with_reducible apply finishEntry_sound
    | (with_reducible apply Sound.update; first | with_reducible assumption | with_reducible apply onEntry_sound | with_reducible apply genKeyEnd_sound | with_reducible apply finishEntry_sound)
    | (extract_lets +onlyGivenNames x; refine (?_ : Sound qq x → _) ?_; intro _; clear_value x; rotate_left; subst x; rotate_left)
    | (extract_lets +onlyGivenNames x; subst x)
    | split
    | dsimp -zeta only


theorem startSession_sound {qq : List Instr} {t : Nat} {e : Entry} {sp : Nat} {authority : Option Nat} {pin : Bytes} {s : State}  (h_s : Sound qq s) : Sound qq (startSession t e sp authority pin s) := by
  unfold startSession
  repeat' first
    | with_reducible assumption
    | intro _
    | with_reducible rfl
    | with_reducible apply Sound.ite
    | with_reducible apply each_sound
    | with_reducible apply respond_sound
    | with_reducible apply checkPin_snd
    | (with_reducible refine checkPin_sound (by assumption) ?_)
    | (with_reducible apply Sound.update; first | with_reducible assumption | with_reducible apply respond_sound | with_reducible apply checkPin_snd | (with_reducible refine checkPin_sound (by assumption) ?_))
    | (extract_lets +onlyGivenNames x; refine (?_ : Sound qq x → _) ?_; intro _; clear_value x; rotate_left; subst x; rotate_left)
    | (extract_lets +onlyGivenNames x; subst x)
    | split
    | dsimp -zeta only


theorem adminMethod_sound {qq : List Instr} {t : Nat} {e : Entry} {f : OpalStore → OpalStore} {s : State}  (h_s : Sound qq s) : Sound qq (adminMethod t e f s) := by
  unfold adminMethod
  repeat' first
    | with_reducible assumption
    | intro _
    | with_reducible rfl
    | with_reducible apply Sound.ite
    | with_reducible apply each_sound
    | with_reducible apply changeStore_sound
    | with_reducible apply respond_sound
    | (with_reducible apply Sound.update; first | with_reducible assumption | with_reducible apply changeStore_sound | with_reducible apply respond_sound)
    | (extract_lets +onlyGivenNames x; refine (?_ : Sound qq x → _) ?_; intro _; clear_value x; rotate_left; subst x; rotate_left)
    | (extract_lets +onlyGivenNames x; subst x)
    | split
    | dsimp -zeta only


theorem runOther_sound {qq : List Instr} {t : Nat} {e : Entry} {call : OpalMethod} {s : State}  (h_s : Sound qq s) : Sound qq (runOther t e call s) := by
  unfold runOther
  repeat' first
    | with_reducible assumption
    | intro _
    | with_reducible rfl
    | with_reducible apply Sound.ite
    | with_reducible apply each_sound
    | with_reducible apply startSession_sound
    | with_reducible apply respond_sound
    | with_reducible apply closeSession_sound
    | with_reducible apply adminMethod_sound
    | with_reducible apply changeStore_sound
    | with_reducible apply setDatastore_sound
    | with_reducible apply finishEntry_sound
    | (with_reducible apply Sound.update; first | with_reducible assumption | with_reducible apply startSession_sound | with_reducible apply respond_sound | with_reducible apply closeSession_sound | with_reducible apply adminMethod_sound | with_reducible apply changeStore_sound | with_reducible apply setDatastore_sound | with_reducible apply finishEntry_sound)
    | (extract_lets +onlyGivenNames x; refine (?_ : Sound qq x → _) ?_; intro _; clear_value x; rotate_left; subst x; rotate_left)
    | (extract_lets +onlyGivenNames x; subst x)
    | split
    | dsimp -zeta only


theorem execSecuritySend_sound {qq : List Instr} {entry : Nat} {call : OpalMethod} {s : State}  (h_s : Sound qq s) : SoundOut qq (execSecuritySend entry call s) := by
  unfold execSecuritySend
  repeat' first
    | with_reducible assumption
    | intro _
    | with_reducible rfl
    | with_reducible apply Sound.ite
    | with_reducible apply each_sound
    | with_reducible apply SoundOut.next
    | with_reducible apply SoundOut.ite
    | with_reducible apply runMethod_sound
    | with_reducible apply finishEntry_sound
    | with_reducible apply runOther_sound
    | (with_reducible apply Sound.update; first | with_reducible assumption | with_reducible apply runMethod_sound | with_reducible apply finishEntry_sound | with_reducible apply runOther_sound)
    | (extract_lets +onlyGivenNames x; refine (?_ : Sound qq x → _) ?_; intro _; clear_value x; rotate_left; subst x; rotate_left)
    | (extract_lets +onlyGivenNames x; subst x)
    | split
    | dsimp -zeta only


theorem execTperReset_sound {qq : List Instr} {entry : Nat} {s : State}  (h_s : Sound qq s) : SoundOut qq (execTperReset entry s) := by
  unfold execTperReset
  repeat' first
    | with_reducible assumption
    | intro _
    | with_reducible rfl
    | with_reducible apply Sound.ite
    | with_reducible apply each_sound
    | with_reducible apply SoundOut.next
    | with_reducible apply SoundOut.ite
    | with_reducible apply runMethod_sound
    | with_reducible apply finishEntry_sound
    | (with_reducible apply Sound.update; first | with_reducible assumption | with_reducible apply runMethod_sound | with_reducible apply finishEntry_sound)
    | (extract_lets +onlyGivenNames x; refine (?_ : Sound qq x → _) ?_; intro _; clear_value x; rotate_left; subst x; rotate_left)
    | (extract_lets +onlyGivenNames x; subst x)
    | split
    | dsimp -zeta only


theorem answer_sound {qq : List Instr} {t : Nat} {e : Entry} {b : Bytes} {s : State}  (h_s : Sound qq s) : Sound qq (answer t e b s) := by
  unfold answer
  repeat' first
    | with_reducible assumption
    | intro _
    | with_reducible rfl
    | with_reducible apply Sound.ite
    | with_reducible apply each_sound
    | with_reducible apply finishEntry_sound
    | with_reducible apply onEntry_sound
    | with_reducible apply sendAdmin_sound
    | (with_reducible apply Sound.update; first | with_reducible assumption | with_reducible apply finishEntry_sound | with_reducible apply onEntry_sound | with_reducible apply sendAdmin_sound)
    | (extract_lets +onlyGivenNames x; refine (?_ : Sound qq x → _) ?_; intro _; clear_value x; rotate_left; subst x; rotate_left)
    | (extract_lets +onlyGivenNames x; subst x)
    | split
    | dsimp -zeta only


theorem execSecurityReceive_sound {qq : List Instr} {entry : Nat} {s : State}  (h_s : Sound qq s) : SoundOut qq (execSecurityReceive entry s) := by
  unfold execSecurityReceive
  repeat' first
    | with_reducible assumption
    | intro _
    | with_reducible rfl
    | with_reducible apply Sound.ite
    | with_reducible apply each_sound
    | with_reducible apply SoundOut.next
    | with_reducible apply SoundOut.ite
    | with_reducible apply runEntry_sound
    | with_reducible apply finishEntry_sound
    | with_reducible apply answer_sound
    | (with_reducible apply Sound.update; first | with_reducible assumption | with_reducible apply runEntry_sound | with_reducible apply finishEntry_sound | with_reducible apply answer_sound)
    | (extract_lets +onlyGivenNames x; refine (?_ : Sound qq x → _) ?_; intro _; clear_value x; rotate_left; subst x; rotate_left)
    | (extract_lets +onlyGivenNames x; subst x)
    | split
    | dsimp -zeta only


end Sys2Proof.Machine
end

