-- ==== Sys2Proof/Laws/SoundCompletion.lean ====
section
/-!
SUPPORT. Soundness through the operations of Machine/Completion.lean.
-/

set_option linter.all false

namespace Sys2Proof.Machine

theorem onCq_sound {qq : List Instr} {c : Nat} {cqid : Nat} {f : CplQueue → CplQueue} {s : State}  (h_s : Sound qq s) : Sound qq (onCq c cqid f s) := by
  unfold onCq
  repeat' first
    | with_reducible assumption
    | intro _
    | with_reducible rfl
    | with_reducible apply Sound.ite
    | with_reducible apply each_sound
    | with_reducible apply onCtrl_sound
    | (with_reducible apply Sound.update; first | with_reducible assumption | with_reducible apply onCtrl_sound)
    | (extract_lets +onlyGivenNames x; refine (?_ : Sound qq x → _) ?_; intro _; clear_value x; rotate_left; subst x; rotate_left)
    | (extract_lets +onlyGivenNames x; subst x)
    | split
    | dsimp -zeta only


theorem onSq_sound {qq : List Instr} {c : Nat} {sqid : Nat} {f : SubQueue → SubQueue} {s : State}  (h_s : Sound qq s) : Sound qq (onSq c sqid f s) := by
  unfold onSq
  repeat' first
    | with_reducible assumption
    | intro _
    | with_reducible rfl
    | with_reducible apply Sound.ite
    | with_reducible apply each_sound
    | with_reducible apply onCtrl_sound
    | (with_reducible apply Sound.update; first | with_reducible assumption | with_reducible apply onCtrl_sound)
    | (extract_lets +onlyGivenNames x; refine (?_ : Sound qq x → _) ?_; intro _; clear_value x; rotate_left; subst x; rotate_left)
    | (extract_lets +onlyGivenNames x; subst x)
    | split
    | dsimp -zeta only


theorem interrupt_sound {qq : List Instr} {c : Nat} {cqid : Nat} {s : State}  (h_s : Sound qq s) : Sound qq (interrupt c cqid s) := by
  unfold interrupt
  repeat' first
    | with_reducible assumption
    | intro _
    | with_reducible rfl
    | with_reducible apply Sound.ite
    | with_reducible apply each_sound
    | with_reducible apply raiseMsix_sound
    | with_reducible apply disarm_sound
    | with_reducible apply onCq_sound
    | with_reducible apply armOnce_sound
    | (with_reducible apply Sound.update; first | with_reducible assumption | with_reducible apply raiseMsix_sound | with_reducible apply disarm_sound | with_reducible apply onCq_sound | with_reducible apply armOnce_sound)
    | (extract_lets +onlyGivenNames x; refine (?_ : Sound qq x → _) ?_; intro _; clear_value x; rotate_left; subst x; rotate_left)
    | (extract_lets +onlyGivenNames x; subst x)
    | split
    | dsimp -zeta only


theorem execCoalescingTimer_sound {qq : List Instr} {ctrl : Nat} {cqid : Nat} {s : State}  (h_s : Sound qq s) : SoundOut qq (execCoalescingTimer ctrl cqid s) := by
  unfold execCoalescingTimer
  repeat' first
    | with_reducible assumption
    | intro _
    | with_reducible rfl
    | with_reducible apply Sound.ite
    | with_reducible apply each_sound
    | with_reducible apply SoundOut.next
    | with_reducible apply SoundOut.ite
    | with_reducible apply disarm_sound
    | with_reducible apply raiseMsix_sound
    | with_reducible apply onCq_sound
    | (with_reducible apply Sound.update; first | with_reducible assumption | with_reducible apply disarm_sound | with_reducible apply raiseMsix_sound | with_reducible apply onCq_sound)
    | (extract_lets +onlyGivenNames x; refine (?_ : Sound qq x → _) ?_; intro _; clear_value x; rotate_left; subst x; rotate_left)
    | (extract_lets +onlyGivenNames x; subst x)
    | split
    | dsimp -zeta only


theorem countCommand_sound {qq : List Instr} {e : Entry} {s : State}  (h_s : Sound qq s) : Sound qq (countCommand e s) := by
  unfold countCommand
  repeat' first
    | with_reducible assumption
    | intro _
    | with_reducible rfl
    | with_reducible apply Sound.ite
    | with_reducible apply each_sound
    | (with_reducible apply Sound.update; first | with_reducible assumption)
    | (extract_lets +onlyGivenNames x; refine (?_ : Sound qq x → _) ?_; intro _; clear_value x; rotate_left; subst x; rotate_left)
    | (extract_lets +onlyGivenNames x; subst x)
    | split
    | dsimp -zeta only


theorem abortLater_sound {qq : List Instr} {e : Entry} {s : State}  (h_s : Sound qq s) : Sound qq (abortLater e s) := by
  unfold abortLater
  repeat' first
    | with_reducible assumption
    | intro _
    | with_reducible rfl
    | with_reducible apply Sound.ite
    | with_reducible apply each_sound
    | with_reducible apply each_sound
    | with_reducible apply failEntry_sound
    | (with_reducible apply Sound.update; first | with_reducible assumption | with_reducible apply each_sound | with_reducible apply failEntry_sound)
    | (extract_lets +onlyGivenNames x; refine (?_ : Sound qq x → _) ?_; intro _; clear_value x; rotate_left; subst x; rotate_left)
    | (extract_lets +onlyGivenNames x; subst x)
    | split
    | dsimp -zeta only


theorem logCommand_sound {qq : List Instr} {e : Entry} {s : State}  (h_s : Sound qq s) : Sound qq (logCommand e s) := by
  unfold logCommand
  repeat' first
    | with_reducible assumption
    | intro _
    | with_reducible rfl
    | with_reducible apply Sound.ite
    | with_reducible apply each_sound
    | with_reducible apply takeStamp_snd
    | (with_reducible refine takeStamp_sound (by assumption) ?_)
    | with_reducible apply deliverError_sound
    | (with_reducible apply Sound.update; first | with_reducible assumption | with_reducible apply takeStamp_snd | (with_reducible refine takeStamp_sound (by assumption) ?_) | with_reducible apply deliverError_sound)
    | (extract_lets +onlyGivenNames x; refine (?_ : Sound qq x → _) ?_; intro _; clear_value x; rotate_left; subst x; rotate_left)
    | (extract_lets +onlyGivenNames x; subst x)
    | split
    | dsimp -zeta only


theorem haltQueue_sound {qq : List Instr} {e : Entry} {s : State}  (h_s : Sound qq s) : Sound qq (haltQueue e s) := by
  unfold haltQueue
  repeat' first
    | with_reducible assumption
    | intro _
    | with_reducible rfl
    | with_reducible apply Sound.ite
    | with_reducible apply each_sound
    | with_reducible apply logCommand_sound
    | with_reducible apply onSq_sound
    | with_reducible apply abortLater_sound
    | with_reducible apply raise_sound
    | (with_reducible apply Sound.update; first | with_reducible assumption | with_reducible apply logCommand_sound | with_reducible apply onSq_sound | with_reducible apply abortLater_sound | with_reducible apply raise_sound)
    | (extract_lets +onlyGivenNames x; refine (?_ : Sound qq x → _) ?_; intro _; clear_value x; rotate_left; subst x; rotate_left)
    | (extract_lets +onlyGivenNames x; subst x)
    | split
    | dsimp -zeta only


theorem logCompletion_sound {qq : List Instr} {e : Entry} {q : SubQueue} {s : State}  (h_s : Sound qq s) : Sound qq (logCompletion e q s) := by
  unfold logCompletion
  repeat' first
    | with_reducible assumption
    | intro _
    | with_reducible rfl
    | with_reducible apply Sound.ite
    | with_reducible apply each_sound
    | with_reducible apply haltQueue_sound
    | with_reducible apply logCommand_sound
    | (with_reducible apply Sound.update; first | with_reducible assumption | with_reducible apply haltQueue_sound | with_reducible apply logCommand_sound)
    | (extract_lets +onlyGivenNames x; refine (?_ : Sound qq x → _) ?_; intro _; clear_value x; rotate_left; subst x; rotate_left)
    | (extract_lets +onlyGivenNames x; subst x)
    | split
    | dsimp -zeta only


theorem sendRead_sound {qq : List Instr} {e : Entry} {s : State}  (h_s : Sound qq s) : Sound qq (sendRead e s) := by
  unfold sendRead
  repeat' first
    | with_reducible assumption
    | intro _
    | with_reducible rfl
    | with_reducible apply Sound.ite
    | with_reducible apply each_sound
    | with_reducible apply sendData_sound
    | (with_reducible apply Sound.update; first | with_reducible assumption | with_reducible apply sendData_sound)
    | (extract_lets +onlyGivenNames x; refine (?_ : Sound qq x → _) ?_; intro _; clear_value x; rotate_left; subst x; rotate_left)
    | (extract_lets +onlyGivenNames x; subst x)
    | split
    | dsimp -zeta only


theorem sendStamp_sound {qq : List Instr} {e : Entry} {cqid : Nat} {q : CplQueue} {s : State}  (h_s : Sound qq s) : Sound qq (sendStamp e cqid q s) := by
  unfold sendStamp
  repeat' first
    | with_reducible assumption
    | intro _
    | with_reducible rfl
    | with_reducible apply Sound.ite
    | with_reducible apply each_sound
    | with_reducible apply takeStamp_snd
    | (with_reducible refine takeStamp_sound (by assumption) ?_)
    | with_reducible apply say_sound
    | (with_reducible apply Sound.update; first | with_reducible assumption | with_reducible apply takeStamp_snd | (with_reducible refine takeStamp_sound (by assumption) ?_) | with_reducible apply say_sound)
    | (extract_lets +onlyGivenNames x; refine (?_ : Sound qq x → _) ?_; intro _; clear_value x; rotate_left; subst x; rotate_left)
    | (extract_lets +onlyGivenNames x; subst x)
    | split
    | dsimp -zeta only


theorem sendCompletion_sound {qq : List Instr} {e : Entry} {q : SubQueue} {c : CplQueue} {s : State}  (h_s : Sound qq s) : Sound qq (sendCompletion e q c s) := by
  unfold sendCompletion
  repeat' first
    | with_reducible assumption
    | intro _
    | with_reducible rfl
    | with_reducible apply Sound.ite
    | with_reducible apply each_sound
    | with_reducible apply say_sound
    | with_reducible apply onCq_sound
    | (with_reducible apply Sound.update; first | with_reducible assumption | with_reducible apply say_sound | with_reducible apply onCq_sound)
    | (extract_lets +onlyGivenNames x; refine (?_ : Sound qq x → _) ?_; intro _; clear_value x; rotate_left; subst x; rotate_left)
    | (extract_lets +onlyGivenNames x; subst x)
    | split
    | dsimp -zeta only


theorem lightLed_sound {qq : List Instr} {e : Entry} {s : State}  (h_s : Sound qq s) : Sound qq (lightLed e s) := by
  unfold lightLed
  repeat' first
    | with_reducible assumption
    | intro _
    | with_reducible rfl
    | with_reducible apply Sound.ite
    | with_reducible apply each_sound
    | with_reducible apply arm_sound
    | (with_reducible apply Sound.update; first | with_reducible assumption | with_reducible apply arm_sound)
    | (extract_lets +onlyGivenNames x; refine (?_ : Sound qq x → _) ?_; intro _; clear_value x; rotate_left; subst x; rotate_left)
    | (extract_lets +onlyGivenNames x; subst x)
    | split
    | dsimp -zeta only


theorem post_sound {qq : List Instr} {t : Nat} {e : Entry} {q : SubQueue} {c : CplQueue} {s : State}  (h_s : Sound qq s) : Sound qq (post t e q c s) := by
  unfold post
  repeat' first
    | with_reducible assumption
    | intro _
    | with_reducible rfl
    | with_reducible apply Sound.ite
    | with_reducible apply each_sound
    | with_reducible apply interrupt_sound
    | with_reducible apply sendCompletion_sound
    | with_reducible apply sendStamp_sound
    | with_reducible apply sendRead_sound
    | with_reducible apply freeEntry_sound
    | with_reducible apply lightLed_sound
    | with_reducible apply logCompletion_sound
    | with_reducible apply countCommand_sound
    | (with_reducible apply Sound.update; first | with_reducible assumption | with_reducible apply interrupt_sound | with_reducible apply sendCompletion_sound | with_reducible apply sendStamp_sound | with_reducible apply sendRead_sound | with_reducible apply freeEntry_sound | with_reducible apply lightLed_sound | with_reducible apply logCompletion_sound | with_reducible apply countCommand_sound)
    | (extract_lets +onlyGivenNames x; refine (?_ : Sound qq x → _) ?_; intro _; clear_value x; rotate_left; subst x; rotate_left)
    | (extract_lets +onlyGivenNames x; subst x)
    | split
    | dsimp -zeta only


theorem tryDeletes_sound {qq : List Instr} {s : State}  (h_s : Sound qq s) : Sound qq (tryDeletes s) := by
  unfold tryDeletes
  repeat' first
    | with_reducible assumption
    | intro _
    | with_reducible rfl
    | with_reducible apply Sound.ite
    | with_reducible apply each_sound
    | with_reducible apply each_sound
    | with_reducible apply finishEntry_sound
    | with_reducible apply onCtrl_sound
    | (with_reducible apply Sound.update; first | with_reducible assumption | with_reducible apply each_sound | with_reducible apply finishEntry_sound | with_reducible apply onCtrl_sound)
    | (extract_lets +onlyGivenNames x; refine (?_ : Sound qq x → _) ?_; intro _; clear_value x; rotate_left; subst x; rotate_left)
    | (extract_lets +onlyGivenNames x; subst x)
    | split
    | dsimp -zeta only


theorem afterCommand_sound {qq : List Instr} {s : State}  (h_s : Sound qq s) : Sound qq (afterCommand s) := by
  unfold afterCommand
  repeat' first
    | with_reducible assumption
    | intro _
    | with_reducible rfl
    | with_reducible apply Sound.ite
    | with_reducible apply each_sound
    | with_reducible apply driveShutdown_sound
    | with_reducible apply grantAll_sound
    | with_reducible apply wakeAll_sound
    | with_reducible apply tryClosing_sound
    | with_reducible apply genKeyStep_sound
    | with_reducible apply tryDeletes_sound
    | (with_reducible apply Sound.update; first | with_reducible assumption | with_reducible apply driveShutdown_sound | with_reducible apply grantAll_sound | with_reducible apply wakeAll_sound | with_reducible apply tryClosing_sound | with_reducible apply genKeyStep_sound | with_reducible apply tryDeletes_sound)
    | (extract_lets +onlyGivenNames x; refine (?_ : Sound qq x → _) ?_; intro _; clear_value x; rotate_left; subst x; rotate_left)
    | (extract_lets +onlyGivenNames x; subst x)
    | split
    | dsimp -zeta only


theorem execCommandComplete_sound {qq : List Instr} {entry : Nat} {s : State}  (h_s : Sound qq s) : SoundOut qq (execCommandComplete entry s) := by
  unfold execCommandComplete
  repeat' first
    | with_reducible assumption
    | intro _
    | with_reducible rfl
    | with_reducible apply Sound.ite
    | with_reducible apply each_sound
    | with_reducible apply SoundOut.next
    | with_reducible apply SoundOut.ite
    | with_reducible apply afterCommand_sound
    | with_reducible apply post_sound
    | (with_reducible apply Sound.update; first | with_reducible assumption | with_reducible apply afterCommand_sound | with_reducible apply post_sound)
    | (extract_lets +onlyGivenNames x; refine (?_ : Sound qq x → _) ?_; intro _; clear_value x; rotate_left; subst x; rotate_left)
    | (extract_lets +onlyGivenNames x; subst x)
    | split
    | dsimp -zeta only


end Sys2Proof.Machine
end

