-- ==== Sys2Proof/Laws/SoundQueues.lean ====
section
/-!
SUPPORT. Soundness through the operations of Machine/Queues.lean.
-/

set_option linter.all false

namespace Sys2Proof.Machine

theorem makeReady_sound {qq : List Instr} {c : Nat} {s : State}  (h_s : Sound qq s) : Sound qq (makeReady c s) := by
  unfold makeReady
  repeat' first
    | with_reducible assumption
    | intro _
    | with_reducible rfl
    | with_reducible apply Sound.ite
    | with_reducible apply each_sound
    | with_reducible apply noteMi_sound
    | with_reducible apply onCtrl_sound
    | (with_reducible apply Sound.update; first | with_reducible assumption | with_reducible apply noteMi_sound | with_reducible apply onCtrl_sound)
    | (extract_lets +onlyGivenNames x; refine (?_ : Sound qq x → _) ?_; intro _; clear_value x; rotate_left; subst x; rotate_left)
    | (extract_lets +onlyGivenNames x; subst x)
    | split
    | dsimp -zeta only


theorem enableController_sound {qq : List Instr} {c : Nat} {cc : BitVec 32} {s : State}  (h_s : Sound qq s) : Sound qq (enableController c cc s) := by
  unfold enableController
  repeat' first
    | with_reducible assumption
    | intro _
    | with_reducible rfl
    | with_reducible apply Sound.ite
    | with_reducible apply each_sound
    | with_reducible apply onCtrl_sound
    | with_reducible apply makeReady_sound
    | with_reducible apply noteMi_sound
    | (with_reducible apply Sound.update; first | with_reducible assumption | with_reducible apply onCtrl_sound | with_reducible apply makeReady_sound | with_reducible apply noteMi_sound)
    | (extract_lets +onlyGivenNames x; refine (?_ : Sound qq x → _) ?_; intro _; clear_value x; rotate_left; subst x; rotate_left)
    | (extract_lets +onlyGivenNames x; subst x)
    | split
    | dsimp -zeta only


theorem execControllerEnable_sound {qq : List Instr} {ctrl : Nat} {cc : BitVec 32} {s : State}  (h_s : Sound qq s) : SoundOut qq (execControllerEnable ctrl cc s) := by
  unfold execControllerEnable
  repeat' first
    | with_reducible assumption
    | intro _
    | with_reducible rfl
    | with_reducible apply Sound.ite
    | with_reducible apply each_sound
    | with_reducible apply SoundOut.next
    | with_reducible apply SoundOut.ite
    | with_reducible apply memoryWrite_sound
    | with_reducible apply enableController_sound
    | (with_reducible apply Sound.update; first | with_reducible assumption | with_reducible apply memoryWrite_sound | with_reducible apply enableController_sound)
    | (extract_lets +onlyGivenNames x; refine (?_ : Sound qq x → _) ?_; intro _; clear_value x; rotate_left; subst x; rotate_left)
    | (extract_lets +onlyGivenNames x; subst x)
    | split
    | dsimp -zeta only


theorem afterEnded_sound {qq : List Instr} {s : State}  (h_s : Sound qq s) : Sound qq (afterEnded s) := by
  unfold afterEnded
  repeat' first
    | with_reducible assumption
    | intro _
    | with_reducible rfl
    | with_reducible apply Sound.ite
    | with_reducible apply each_sound
    | with_reducible apply grantAll_sound
    | with_reducible apply wakeAll_sound
    | with_reducible apply tryClosing_sound
    | with_reducible apply genKeyStep_sound
    | (with_reducible apply Sound.update; first | with_reducible assumption | with_reducible apply grantAll_sound | with_reducible apply wakeAll_sound | with_reducible apply tryClosing_sound | with_reducible apply genKeyStep_sound)
    | (extract_lets +onlyGivenNames x; refine (?_ : Sound qq x → _) ?_; intro _; clear_value x; rotate_left; subst x; rotate_left)
    | (extract_lets +onlyGivenNames x; subst x)
    | split
    | dsimp -zeta only


theorem execControllerReset_sound {qq : List Instr} {ctrl : Nat} {s : State}  (h_s : Sound qq s) : SoundOut qq (execControllerReset ctrl s) := by
  unfold execControllerReset
  repeat' first
    | with_reducible assumption
    | intro _
    | with_reducible rfl
    | with_reducible apply Sound.ite
    | with_reducible apply each_sound
    | with_reducible apply SoundOut.next
    | with_reducible apply SoundOut.ite
    | with_reducible apply memoryWrite_sound
    | with_reducible apply each_sound
    | with_reducible apply disarm_sound
    | with_reducible apply afterEnded_sound
    | with_reducible apply assertSource_sound
    | (with_reducible apply Sound.update; first | with_reducible assumption | with_reducible apply memoryWrite_sound | with_reducible apply each_sound | with_reducible apply disarm_sound | with_reducible apply afterEnded_sound | with_reducible apply assertSource_sound)
    | (extract_lets +onlyGivenNames x; refine (?_ : Sound qq x → _) ?_; intro _; clear_value x; rotate_left; subst x; rotate_left)
    | (extract_lets +onlyGivenNames x; subst x)
    | split
    | dsimp -zeta only


theorem execShutdownNormal_sound {qq : List Instr} {ctrl : Nat} {s : State}  (h_s : Sound qq s) : SoundOut qq (execShutdownNormal ctrl s) := by
  unfold execShutdownNormal
  repeat' first
    | with_reducible assumption
    | intro _
    | with_reducible rfl
    | with_reducible apply Sound.ite
    | with_reducible apply each_sound
    | with_reducible apply SoundOut.next
    | with_reducible apply SoundOut.ite
    | with_reducible apply memoryWrite_sound
    | with_reducible apply driveShutdown_sound
    | with_reducible apply noteMi_sound
    | with_reducible apply onCtrl_sound
    | (with_reducible apply Sound.update; first | with_reducible assumption | with_reducible apply memoryWrite_sound | with_reducible apply driveShutdown_sound | with_reducible apply noteMi_sound | with_reducible apply onCtrl_sound)
    | (extract_lets +onlyGivenNames x; refine (?_ : Sound qq x → _) ?_; intro _; clear_value x; rotate_left; subst x; rotate_left)
    | (extract_lets +onlyGivenNames x; subst x)
    | split
    | dsimp -zeta only


theorem execShutdownAbrupt_sound {qq : List Instr} {ctrl : Nat} {s : State}  (h_s : Sound qq s) : SoundOut qq (execShutdownAbrupt ctrl s) := by
  unfold execShutdownAbrupt
  repeat' first
    | with_reducible assumption
    | intro _
    | with_reducible rfl
    | with_reducible apply Sound.ite
    | with_reducible apply each_sound
    | with_reducible apply SoundOut.next
    | with_reducible apply SoundOut.ite
    | with_reducible apply memoryWrite_sound
    | with_reducible apply endCommands_sound
    | with_reducible apply onCtrl_sound
    | with_reducible apply noteMi_sound
    | with_reducible apply afterEnded_sound
    | (with_reducible apply Sound.update; first | with_reducible assumption | with_reducible apply memoryWrite_sound | with_reducible apply endCommands_sound | with_reducible apply onCtrl_sound | with_reducible apply noteMi_sound | with_reducible apply afterEnded_sound)
    | (extract_lets +onlyGivenNames x; refine (?_ : Sound qq x → _) ?_; intro _; clear_value x; rotate_left; subst x; rotate_left)
    | (extract_lets +onlyGivenNames x; subst x)
    | split
    | dsimp -zeta only


theorem ioDoorbell_sound {qq : List Instr} {c : Nat} {s : State}  (h_s : Sound qq s) : Sound qq (ioDoorbell c s) := by
  unfold ioDoorbell
  repeat' first
    | with_reducible assumption
    | intro _
    | with_reducible rfl
    | with_reducible apply Sound.ite
    | with_reducible apply each_sound
    | with_reducible apply setRequested_sound
    | with_reducible apply beginReturn_sound
    | (with_reducible apply Sound.update; first | with_reducible assumption | with_reducible apply setRequested_sound | with_reducible apply beginReturn_sound)
    | (extract_lets +onlyGivenNames x; refine (?_ : Sound qq x → _) ?_; intro _; clear_value x; rotate_left; subst x; rotate_left)
    | (extract_lets +onlyGivenNames x; subst x)
    | split
    | dsimp -zeta only


theorem badDoorbell_sound {qq : List Instr} {c : Nat} {info : Nat} {s : State}  (h_s : Sound qq s) : Sound qq (badDoorbell c info s) := by
  unfold badDoorbell
  repeat' first
    | with_reducible assumption
    | intro _
    | with_reducible rfl
    | with_reducible apply Sound.ite
    | with_reducible apply each_sound
    | with_reducible apply postAsync_sound
    | (with_reducible apply Sound.update; first | with_reducible assumption | with_reducible apply postAsync_sound)
    | (extract_lets +onlyGivenNames x; refine (?_ : Sound qq x → _) ?_; intro _; clear_value x; rotate_left; subst x; rotate_left)
    | (extract_lets +onlyGivenNames x; subst x)
    | split
    | dsimp -zeta only


theorem tailWritten_sound {qq : List Instr} {c : Nat} {sqid : Nat} {tail : Nat} {s : State}  (h_s : Sound qq s) : Sound qq (tailWritten c sqid tail s) := by
  unfold tailWritten
  repeat' first
    | with_reducible assumption
    | intro _
    | with_reducible rfl
    | with_reducible apply Sound.ite
    | with_reducible apply each_sound
    | with_reducible apply badDoorbell_sound
    | with_reducible apply takeStamp_snd
    | (with_reducible refine takeStamp_sound (by assumption) ?_)
    | with_reducible apply onSq_sound
    | with_reducible apply ioDoorbell_sound
    | (with_reducible apply Sound.update; first | with_reducible assumption | with_reducible apply badDoorbell_sound | with_reducible apply takeStamp_snd | (with_reducible refine takeStamp_sound (by assumption) ?_) | with_reducible apply onSq_sound | with_reducible apply ioDoorbell_sound)
    | (extract_lets +onlyGivenNames x; refine (?_ : Sound qq x → _) ?_; intro _; clear_value x; rotate_left; subst x; rotate_left)
    | (extract_lets +onlyGivenNames x; subst x)
    | split
    | dsimp -zeta only


theorem execSqTailDoorbell_sound {qq : List Instr} {ctrl : Nat} {sqid : Nat} {tail : Nat} {s : State}  (h_s : Sound qq s) : SoundOut qq (execSqTailDoorbell ctrl sqid tail s) := by
  unfold execSqTailDoorbell
  repeat' first
    | with_reducible assumption
    | intro _
    | with_reducible rfl
    | with_reducible apply Sound.ite
    | with_reducible apply each_sound
    | with_reducible apply SoundOut.next
    | with_reducible apply SoundOut.ite
    | with_reducible apply memoryWrite_sound
    | with_reducible apply tailWritten_sound
    | (with_reducible apply Sound.update; first | with_reducible assumption | with_reducible apply memoryWrite_sound | with_reducible apply tailWritten_sound)
    | (extract_lets +onlyGivenNames x; refine (?_ : Sound qq x → _) ?_; intro _; clear_value x; rotate_left; subst x; rotate_left)
    | (extract_lets +onlyGivenNames x; subst x)
    | split
    | dsimp -zeta only


theorem headWritten_sound {qq : List Instr} {c : Nat} {cqid : Nat} {head : Nat} {s : State}  (h_s : Sound qq s) : Sound qq (headWritten c cqid head s) := by
  unfold headWritten
  repeat' first
    | with_reducible assumption
    | intro _
    | with_reducible rfl
    | with_reducible apply Sound.ite
    | with_reducible apply each_sound
    | with_reducible apply badDoorbell_sound
    | with_reducible apply onCq_sound
    | (with_reducible apply Sound.update; first | with_reducible assumption | with_reducible apply badDoorbell_sound | with_reducible apply onCq_sound)
    | (extract_lets +onlyGivenNames x; refine (?_ : Sound qq x → _) ?_; intro _; clear_value x; rotate_left; subst x; rotate_left)
    | (extract_lets +onlyGivenNames x; subst x)
    | split
    | dsimp -zeta only


theorem execCqHeadDoorbell_sound {qq : List Instr} {ctrl : Nat} {cqid : Nat} {head : Nat} {s : State}  (h_s : Sound qq s) : SoundOut qq (execCqHeadDoorbell ctrl cqid head s) := by
  unfold execCqHeadDoorbell
  repeat' first
    | with_reducible assumption
    | intro _
    | with_reducible rfl
    | with_reducible apply Sound.ite
    | with_reducible apply each_sound
    | with_reducible apply SoundOut.next
    | with_reducible apply SoundOut.ite
    | with_reducible apply memoryWrite_sound
    | with_reducible apply headWritten_sound
    | (with_reducible apply Sound.update; first | with_reducible assumption | with_reducible apply memoryWrite_sound | with_reducible apply headWritten_sound)
    | (extract_lets +onlyGivenNames x; refine (?_ : Sound qq x → _) ?_; intro _; clear_value x; rotate_left; subst x; rotate_left)
    | (extract_lets +onlyGivenNames x; subst x)
    | split
    | dsimp -zeta only


theorem noteTurn_sound {qq : List Instr} {c sqid : Nat} {s : State} (h_s : Sound qq s) : Sound qq (noteTurn c sqid s) := by
  unfold noteTurn
  with_reducible apply Sound.ite h_s
  split
  · refine onCtrl_sound (fun k => ?_) h_s
    unfold afterTurn
    repeat' first | rfl | split
  · exact h_s

theorem takeEntry_sound {qq : List Instr} {c : Nat} {sqid : Nat} {q : SubQueue} {e : Sqe} {s : State}  (h_s : Sound qq s) : Sound qq (takeEntry c sqid q e s) := by
  unfold takeEntry
  repeat' first
    | with_reducible assumption
    | intro _
    | with_reducible rfl
    | with_reducible apply Sound.ite
    | with_reducible apply each_sound
    | with_reducible apply onSq_sound
    | with_reducible apply noteTurn_sound
    | with_reducible apply takeStamp_snd
    | (with_reducible refine takeStamp_sound (by assumption) ?_)
    | with_reducible apply arm_sound
    | (with_reducible apply Sound.update; first | with_reducible assumption | with_reducible apply onSq_sound | with_reducible apply noteTurn_sound | with_reducible apply takeStamp_snd | (with_reducible refine takeStamp_sound (by assumption) ?_) | with_reducible apply arm_sound)
    | (extract_lets +onlyGivenNames x; refine (?_ : Sound qq x → _) ?_; intro _; clear_value x; rotate_left; subst x; rotate_left)
    | (extract_lets +onlyGivenNames x; subst x)
    | split
    | dsimp -zeta only


theorem execSqEntryFetch_sound {qq : List Instr} {ctrl : Nat} {sqid : Nat} {fetched : Option Sqe} {s : State}  (h_s : Sound qq s) : SoundOut qq (execSqEntryFetch ctrl sqid fetched s) := by
  unfold execSqEntryFetch
  repeat' first
    | with_reducible assumption
    | intro _
    | with_reducible rfl
    | with_reducible apply Sound.ite
    | with_reducible apply each_sound
    | with_reducible apply SoundOut.next
    | with_reducible apply SoundOut.ite
    | with_reducible apply setCfs_sound
    | with_reducible apply takeEntry_sound
    | (with_reducible apply Sound.update; first | with_reducible assumption | with_reducible apply setCfs_sound | with_reducible apply takeEntry_sound)
    | (extract_lets +onlyGivenNames x; refine (?_ : Sound qq x → _) ?_; intro _; clear_value x; rotate_left; subst x; rotate_left)
    | (extract_lets +onlyGivenNames x; subst x)
    | split
    | dsimp -zeta only


theorem fixAllocation_sound {qq : List Instr} {c : Nat} {s : State}  (h_s : Sound qq s) : Sound qq (fixAllocation c s) := by
  unfold fixAllocation
  repeat' first
    | with_reducible assumption
    | intro _
    | with_reducible rfl
    | with_reducible apply Sound.ite
    | with_reducible apply each_sound
    | with_reducible apply onCtrl_sound
    | (with_reducible apply Sound.update; first | with_reducible assumption | with_reducible apply onCtrl_sound)
    | (extract_lets +onlyGivenNames x; refine (?_ : Sound qq x → _) ?_; intro _; clear_value x; rotate_left; subst x; rotate_left)
    | (extract_lets +onlyGivenNames x; subst x)
    | split
    | dsimp -zeta only


theorem execCreateIoCompletionQueue_sound {qq : List Instr} {entry : Nat} {s : State}  (h_s : Sound qq s) : SoundOut qq (execCreateIoCompletionQueue entry s) := by
  unfold execCreateIoCompletionQueue
  repeat' first
    | with_reducible assumption
    | intro _
    | with_reducible rfl
    | with_reducible apply Sound.ite
    | with_reducible apply each_sound
    | with_reducible apply SoundOut.next
    | with_reducible apply SoundOut.ite
    | with_reducible apply runEntry_sound
    | with_reducible apply finishEntry_sound
    | with_reducible apply onCtrl_sound
    | with_reducible apply fixAllocation_sound
    | (with_reducible apply Sound.update; first | with_reducible assumption | with_reducible apply runEntry_sound | with_reducible apply finishEntry_sound | with_reducible apply onCtrl_sound | with_reducible apply fixAllocation_sound)
    | (extract_lets +onlyGivenNames x; refine (?_ : Sound qq x → _) ?_; intro _; clear_value x; rotate_left; subst x; rotate_left)
    | (extract_lets +onlyGivenNames x; subst x)
    | split
    | dsimp -zeta only


theorem execCreateIoSubmissionQueue_sound {qq : List Instr} {entry : Nat} {s : State}  (h_s : Sound qq s) : SoundOut qq (execCreateIoSubmissionQueue entry s) := by
  unfold execCreateIoSubmissionQueue
  repeat' first
    | with_reducible assumption
    | intro _
    | with_reducible rfl
    | with_reducible apply Sound.ite
    | with_reducible apply each_sound
    | with_reducible apply SoundOut.next
    | with_reducible apply SoundOut.ite
    | with_reducible apply runEntry_sound
    | with_reducible apply finishEntry_sound
    | with_reducible apply onCtrl_sound
    | with_reducible apply fixAllocation_sound
    | (with_reducible apply Sound.update; first | with_reducible assumption | with_reducible apply runEntry_sound | with_reducible apply finishEntry_sound | with_reducible apply onCtrl_sound | with_reducible apply fixAllocation_sound)
    | (extract_lets +onlyGivenNames x; refine (?_ : Sound qq x → _) ?_; intro _; clear_value x; rotate_left; subst x; rotate_left)
    | (extract_lets +onlyGivenNames x; subst x)
    | split
    | dsimp -zeta only


theorem execDeleteIoSubmissionQueue_sound {qq : List Instr} {entry : Nat} {s : State}  (h_s : Sound qq s) : SoundOut qq (execDeleteIoSubmissionQueue entry s) := by
  unfold execDeleteIoSubmissionQueue
  repeat' first
    | with_reducible assumption
    | intro _
    | with_reducible rfl
    | with_reducible apply Sound.ite
    | with_reducible apply each_sound
    | with_reducible apply SoundOut.next
    | with_reducible apply SoundOut.ite
    | with_reducible apply runEntry_sound
    | with_reducible apply finishEntry_sound
    | with_reducible apply onEntry_sound
    | with_reducible apply onSq_sound
    | with_reducible apply afterCommand_sound
    | with_reducible apply each_sound
    | with_reducible apply failEntry_sound
    | (with_reducible apply Sound.update; first | with_reducible assumption | with_reducible apply runEntry_sound | with_reducible apply finishEntry_sound | with_reducible apply onEntry_sound | with_reducible apply onSq_sound | with_reducible apply afterCommand_sound | with_reducible apply each_sound | with_reducible apply failEntry_sound)
    | (extract_lets +onlyGivenNames x; refine (?_ : Sound qq x → _) ?_; intro _; clear_value x; rotate_left; subst x; rotate_left)
    | (extract_lets +onlyGivenNames x; subst x)
    | split
    | dsimp -zeta only


theorem execDeleteIoCompletionQueue_sound {qq : List Instr} {entry : Nat} {s : State}  (h_s : Sound qq s) : SoundOut qq (execDeleteIoCompletionQueue entry s) := by
  unfold execDeleteIoCompletionQueue
  repeat' first
    | with_reducible assumption
    | intro _
    | with_reducible rfl
    | with_reducible apply Sound.ite
    | with_reducible apply each_sound
    | with_reducible apply SoundOut.next
    | with_reducible apply SoundOut.ite
    | with_reducible apply runEntry_sound
    | with_reducible apply finishEntry_sound
    | with_reducible apply disarm_sound
    | with_reducible apply onCtrl_sound
    | (with_reducible apply Sound.update; first | with_reducible assumption | with_reducible apply runEntry_sound | with_reducible apply finishEntry_sound | with_reducible apply disarm_sound | with_reducible apply onCtrl_sound)
    | (extract_lets +onlyGivenNames x; refine (?_ : Sound qq x → _) ?_; intro _; clear_value x; rotate_left; subst x; rotate_left)
    | (extract_lets +onlyGivenNames x; subst x)
    | split
    | dsimp -zeta only


theorem execAbortCommand_sound {qq : List Instr} {entry : Nat} {s : State}  (h_s : Sound qq s) : SoundOut qq (execAbortCommand entry s) := by
  unfold execAbortCommand
  repeat' first
    | with_reducible assumption
    | intro _
    | with_reducible rfl
    | with_reducible apply Sound.ite
    | with_reducible apply each_sound
    | with_reducible apply SoundOut.next
    | with_reducible apply SoundOut.ite
    | with_reducible apply runEntry_sound
    | with_reducible apply finishEntry_sound
    | with_reducible apply onCtrl_sound
    | with_reducible apply wakeAll_sound
    | with_reducible apply failEntry_sound
    | (with_reducible apply Sound.update; first | with_reducible assumption | with_reducible apply runEntry_sound | with_reducible apply finishEntry_sound | with_reducible apply onCtrl_sound | with_reducible apply wakeAll_sound | with_reducible apply failEntry_sound)
    | (extract_lets +onlyGivenNames x; refine (?_ : Sound qq x → _) ?_; intro _; clear_value x; rotate_left; subst x; rotate_left)
    | (extract_lets +onlyGivenNames x; subst x)
    | split
    | dsimp -zeta only


theorem execAsynchronousEventRequest_sound {qq : List Instr} {entry : Nat} {s : State}  (h_s : Sound qq s) : SoundOut qq (execAsynchronousEventRequest entry s) := by
  unfold execAsynchronousEventRequest
  repeat' first
    | with_reducible assumption
    | intro _
    | with_reducible rfl
    | with_reducible apply Sound.ite
    | with_reducible apply each_sound
    | with_reducible apply SoundOut.next
    | with_reducible apply SoundOut.ite
    | with_reducible apply runEntry_sound
    | with_reducible apply finishEntry_sound
    | with_reducible apply onEntry_sound
    | with_reducible apply onCtrl_sound
    | with_reducible apply postAsync_sound
    | (with_reducible apply Sound.update; first | with_reducible assumption | with_reducible apply runEntry_sound | with_reducible apply finishEntry_sound | with_reducible apply onEntry_sound | with_reducible apply onCtrl_sound | with_reducible apply postAsync_sound)
    | (extract_lets +onlyGivenNames x; refine (?_ : Sound qq x → _) ?_; intro _; clear_value x; rotate_left; subst x; rotate_left)
    | (extract_lets +onlyGivenNames x; subst x)
    | split
    | dsimp -zeta only


theorem execResumeQueue_sound {qq : List Instr} {entry : Nat} {s : State}  (h_s : Sound qq s) : SoundOut qq (execResumeQueue entry s) := by
  unfold execResumeQueue
  repeat' first
    | with_reducible assumption
    | intro _
    | with_reducible rfl
    | with_reducible apply Sound.ite
    | with_reducible apply each_sound
    | with_reducible apply SoundOut.next
    | with_reducible apply SoundOut.ite
    | with_reducible apply runEntry_sound
    | with_reducible apply finishEntry_sound
    | with_reducible apply onSq_sound
    | (with_reducible apply Sound.update; first | with_reducible assumption | with_reducible apply runEntry_sound | with_reducible apply finishEntry_sound | with_reducible apply onSq_sound)
    | (extract_lets +onlyGivenNames x; refine (?_ : Sound qq x → _) ?_; intro _; clear_value x; rotate_left; subst x; rotate_left)
    | (extract_lets +onlyGivenNames x; subst x)
    | split
    | dsimp -zeta only


theorem execInvalidCommandOpcode_sound {qq : List Instr} {entry : Nat} {s : State}  (h_s : Sound qq s) : SoundOut qq (execInvalidCommandOpcode entry s) := by
  unfold execInvalidCommandOpcode
  repeat' first
    | with_reducible assumption
    | intro _
    | with_reducible rfl
    | with_reducible apply Sound.ite
    | with_reducible apply each_sound
    | with_reducible apply SoundOut.next
    | with_reducible apply SoundOut.ite
    | with_reducible apply finishEntry_sound
    | (with_reducible apply Sound.update; first | with_reducible assumption | with_reducible apply finishEntry_sound)
    | (extract_lets +onlyGivenNames x; refine (?_ : Sound qq x → _) ?_; intro _; clear_value x; rotate_left; subst x; rotate_left)
    | (extract_lets +onlyGivenNames x; subst x)
    | split
    | dsimp -zeta only


end Sys2Proof.Machine
end

