-- ==== Sys2Proof/Laws/SoundFeatures.lean ====
section
/-!
SUPPORT. Soundness through the operations of Machine/Features.lean.
-/

set_option linter.all false

namespace Sys2Proof.Machine

theorem runFeature_sound {qq : List Instr} {t : Nat} {fid : Nat} {f : Entry → State → State} {s : State} (hf : ∀ a0 a1, Sound qq a1 → Sound qq (f a0 a1)) (h_s : Sound qq s) : SoundOut qq (runFeature t fid f s) := by
  unfold runFeature
  repeat' first
    | with_reducible assumption
    | intro _
    | with_reducible rfl
    | with_reducible apply Sound.ite
    | with_reducible apply each_sound
    | with_reducible apply SoundOut.next
    | with_reducible apply SoundOut.ite
    | with_reducible apply finishEntry_sound
    | with_reducible apply hf
    | (with_reducible apply Sound.update; first | with_reducible assumption | with_reducible apply finishEntry_sound | with_reducible apply hf)
    | (extract_lets +onlyGivenNames x; refine (?_ : Sound qq x → _) ?_; intro _; clear_value x; rotate_left; subst x; rotate_left)
    | (extract_lets +onlyGivenNames x; subst x)
    | split
    | dsimp -zeta only


theorem featureDone_sound {qq : List Instr} {t : Nat} {bad : Bool} {status : Nat} {dw0 : Nat} {f : State → State} {s : State} (hf : ∀ a0, Sound qq a0 → Sound qq (f a0)) (h_s : Sound qq s) : Sound qq (featureDone t bad status dw0 f s) := by
  unfold featureDone
  repeat' first
    | with_reducible assumption
    | intro _
    | with_reducible rfl
    | with_reducible apply Sound.ite
    | with_reducible apply each_sound
    | with_reducible apply finishEntry_sound
    | with_reducible apply hf
    | (with_reducible apply Sound.update; first | with_reducible assumption | with_reducible apply finishEntry_sound | with_reducible apply hf)
    | (extract_lets +onlyGivenNames x; refine (?_ : Sound qq x → _) ?_; intro _; clear_value x; rotate_left; subst x; rotate_left)
    | (extract_lets +onlyGivenNames x; subst x)
    | split
    | dsimp -zeta only


theorem execSetFeaturesArbitration_sound {qq : List Instr} {entry : Nat} {s : State}  (h_s : Sound qq s) : SoundOut qq (execSetFeaturesArbitration entry s) := by
  unfold execSetFeaturesArbitration
  repeat' first
    | with_reducible assumption
    | intro _
    | with_reducible rfl
    | with_reducible apply Sound.ite
    | with_reducible apply each_sound
    | with_reducible apply SoundOut.next
    | with_reducible apply SoundOut.ite
    | with_reducible apply runFeature_sound
    | with_reducible apply featureDone_sound
    | with_reducible apply onCtrl_sound
    | (with_reducible apply Sound.update; first | with_reducible assumption | with_reducible apply runFeature_sound | with_reducible apply featureDone_sound | with_reducible apply onCtrl_sound)
    | (extract_lets +onlyGivenNames x; refine (?_ : Sound qq x → _) ?_; intro _; clear_value x; rotate_left; subst x; rotate_left)
    | (extract_lets +onlyGivenNames x; subst x)
    | split
    | dsimp -zeta only


theorem execSetFeaturesTemperatureThreshold_sound {qq : List Instr} {entry : Nat} {s : State}  (h_s : Sound qq s) : SoundOut qq (execSetFeaturesTemperatureThreshold entry s) := by
  unfold execSetFeaturesTemperatureThreshold
  repeat' first
    | with_reducible assumption
    | intro _
    | with_reducible rfl
    | with_reducible apply Sound.ite
    | with_reducible apply each_sound
    | with_reducible apply SoundOut.next
    | with_reducible apply SoundOut.ite
    | with_reducible apply runFeature_sound
    | with_reducible apply featureDone_sound
    | with_reducible apply noteHealth_sound
    | with_reducible apply onCtrl_sound
    | (with_reducible apply Sound.update; first | with_reducible assumption | with_reducible apply runFeature_sound | with_reducible apply featureDone_sound | with_reducible apply noteHealth_sound | with_reducible apply onCtrl_sound)
    | (extract_lets +onlyGivenNames x; refine (?_ : Sound qq x → _) ?_; intro _; clear_value x; rotate_left; subst x; rotate_left)
    | (extract_lets +onlyGivenNames x; subst x)
    | split
    | dsimp -zeta only


theorem execSetFeaturesNumberOfQueues_sound {qq : List Instr} {entry : Nat} {s : State}  (h_s : Sound qq s) : SoundOut qq (execSetFeaturesNumberOfQueues entry s) := by
  unfold execSetFeaturesNumberOfQueues
  repeat' first
    | with_reducible assumption
    | intro _
    | with_reducible rfl
    | with_reducible apply Sound.ite
    | with_reducible apply each_sound
    | with_reducible apply SoundOut.next
    | with_reducible apply SoundOut.ite
    | with_reducible apply runFeature_sound
    | with_reducible apply finishEntry_sound
    | with_reducible apply onCtrl_sound
    | (with_reducible apply Sound.update; first | with_reducible assumption | with_reducible apply runFeature_sound | with_reducible apply finishEntry_sound | with_reducible apply onCtrl_sound)
    | (extract_lets +onlyGivenNames x; refine (?_ : Sound qq x → _) ?_; intro _; clear_value x; rotate_left; subst x; rotate_left)
    | (extract_lets +onlyGivenNames x; subst x)
    | split
    | dsimp -zeta only


theorem execSetFeaturesInterruptCoalescing_sound {qq : List Instr} {entry : Nat} {s : State}  (h_s : Sound qq s) : SoundOut qq (execSetFeaturesInterruptCoalescing entry s) := by
  unfold execSetFeaturesInterruptCoalescing
  repeat' first
    | with_reducible assumption
    | intro _
    | with_reducible rfl
    | with_reducible apply Sound.ite
    | with_reducible apply each_sound
    | with_reducible apply SoundOut.next
    | with_reducible apply SoundOut.ite
    | with_reducible apply runFeature_sound
    | with_reducible apply featureDone_sound
    | with_reducible apply onCtrl_sound
    | (with_reducible apply Sound.update; first | with_reducible assumption | with_reducible apply runFeature_sound | with_reducible apply featureDone_sound | with_reducible apply onCtrl_sound)
    | (extract_lets +onlyGivenNames x; refine (?_ : Sound qq x → _) ?_; intro _; clear_value x; rotate_left; subst x; rotate_left)
    | (extract_lets +onlyGivenNames x; subst x)
    | split
    | dsimp -zeta only


theorem execSetFeaturesInterruptVectorConfig_sound {qq : List Instr} {entry : Nat} {s : State}  (h_s : Sound qq s) : SoundOut qq (execSetFeaturesInterruptVectorConfig entry s) := by
  unfold execSetFeaturesInterruptVectorConfig
  repeat' first
    | with_reducible assumption
    | intro _
    | with_reducible rfl
    | with_reducible apply Sound.ite
    | with_reducible apply each_sound
    | with_reducible apply SoundOut.next
    | with_reducible apply SoundOut.ite
    | with_reducible apply runFeature_sound
    | with_reducible apply featureDone_sound
    | with_reducible apply onCtrl_sound
    | (with_reducible apply Sound.update; first | with_reducible assumption | with_reducible apply runFeature_sound | with_reducible apply featureDone_sound | with_reducible apply onCtrl_sound)
    | (extract_lets +onlyGivenNames x; refine (?_ : Sound qq x → _) ?_; intro _; clear_value x; rotate_left; subst x; rotate_left)
    | (extract_lets +onlyGivenNames x; subst x)
    | split
    | dsimp -zeta only


theorem execSetFeaturesWriteAtomicity_sound {qq : List Instr} {entry : Nat} {s : State}  (h_s : Sound qq s) : SoundOut qq (execSetFeaturesWriteAtomicity entry s) := by
  unfold execSetFeaturesWriteAtomicity
  repeat' first
    | with_reducible assumption
    | intro _
    | with_reducible rfl
    | with_reducible apply Sound.ite
    | with_reducible apply each_sound
    | with_reducible apply SoundOut.next
    | with_reducible apply SoundOut.ite
    | with_reducible apply runFeature_sound
    | with_reducible apply featureDone_sound
    | with_reducible apply onCtrl_sound
    | (with_reducible apply Sound.update; first | with_reducible assumption | with_reducible apply runFeature_sound | with_reducible apply featureDone_sound | with_reducible apply onCtrl_sound)
    | (extract_lets +onlyGivenNames x; refine (?_ : Sound qq x → _) ?_; intro _; clear_value x; rotate_left; subst x; rotate_left)
    | (extract_lets +onlyGivenNames x; subst x)
    | split
    | dsimp -zeta only


theorem execSetFeaturesAsyncEventConfig_sound {qq : List Instr} {entry : Nat} {s : State}  (h_s : Sound qq s) : SoundOut qq (execSetFeaturesAsyncEventConfig entry s) := by
  unfold execSetFeaturesAsyncEventConfig
  repeat' first
    | with_reducible assumption
    | intro _
    | with_reducible rfl
    | with_reducible apply Sound.ite
    | with_reducible apply each_sound
    | with_reducible apply SoundOut.next
    | with_reducible apply SoundOut.ite
    | with_reducible apply runFeature_sound
    | with_reducible apply featureDone_sound
    | with_reducible apply onCtrl_sound
    | (with_reducible apply Sound.update; first | with_reducible assumption | with_reducible apply runFeature_sound | with_reducible apply featureDone_sound | with_reducible apply onCtrl_sound)
    | (extract_lets +onlyGivenNames x; refine (?_ : Sound qq x → _) ?_; intro _; clear_value x; rotate_left; subst x; rotate_left)
    | (extract_lets +onlyGivenNames x; subst x)
    | split
    | dsimp -zeta only


theorem enterWindow_sound {qq : List Instr} {dt : Bool} {s : State}  (h_s : Sound qq s) : Sound qq (enterWindow dt s) := by
  unfold enterWindow
  repeat' first
    | with_reducible assumption
    | intro _
    | with_reducible rfl
    | with_reducible apply Sound.ite
    | with_reducible apply each_sound
    | with_reducible apply arm_sound
    | with_reducible apply disarm_sound
    | (with_reducible apply Sound.update; first | with_reducible assumption | with_reducible apply arm_sound | with_reducible apply disarm_sound)
    | (extract_lets +onlyGivenNames x; refine (?_ : Sound qq x → _) ?_; intro _; clear_value x; rotate_left; subst x; rotate_left)
    | (extract_lets +onlyGivenNames x; subst x)
    | split
    | dsimp -zeta only


theorem execSetFeaturesPlmConfig_sound {qq : List Instr} {entry : Nat} {data : Bytes} {s : State}  (h_s : Sound qq s) : SoundOut qq (execSetFeaturesPlmConfig entry data s) := by
  unfold execSetFeaturesPlmConfig
  repeat' first
    | with_reducible assumption
    | intro _
    | with_reducible rfl
    | with_reducible apply Sound.ite
    | with_reducible apply each_sound
    | with_reducible apply SoundOut.next
    | with_reducible apply SoundOut.ite
    | with_reducible apply runFeature_sound
    | with_reducible apply featureDone_sound
    | with_reducible apply enterWindow_sound
    | with_reducible apply disarm_sound
    | (with_reducible apply Sound.update; first | with_reducible assumption | with_reducible apply runFeature_sound | with_reducible apply featureDone_sound | with_reducible apply enterWindow_sound | with_reducible apply disarm_sound)
    | (extract_lets +onlyGivenNames x; refine (?_ : Sound qq x → _) ?_; intro _; clear_value x; rotate_left; subst x; rotate_left)
    | (extract_lets +onlyGivenNames x; subst x)
    | split
    | dsimp -zeta only


theorem execSetFeaturesPlmWindow_sound {qq : List Instr} {entry : Nat} {s : State}  (h_s : Sound qq s) : SoundOut qq (execSetFeaturesPlmWindow entry s) := by
  unfold execSetFeaturesPlmWindow
  repeat' first
    | with_reducible assumption
    | intro _
    | with_reducible rfl
    | with_reducible apply Sound.ite
    | with_reducible apply each_sound
    | with_reducible apply SoundOut.next
    | with_reducible apply SoundOut.ite
    | with_reducible apply runFeature_sound
    | with_reducible apply finishEntry_sound
    | with_reducible apply enterWindow_sound
    | (with_reducible apply Sound.update; first | with_reducible assumption | with_reducible apply runFeature_sound | with_reducible apply finishEntry_sound | with_reducible apply enterWindow_sound)
    | (extract_lets +onlyGivenNames x; refine (?_ : Sound qq x → _) ?_; intro _; clear_value x; rotate_left; subst x; rotate_left)
    | (extract_lets +onlyGivenNames x; subst x)
    | split
    | dsimp -zeta only


theorem execSetFeaturesHostIdentifier_sound {qq : List Instr} {entry : Nat} {data : Bytes} {s : State}  (h_s : Sound qq s) : SoundOut qq (execSetFeaturesHostIdentifier entry data s) := by
  unfold execSetFeaturesHostIdentifier
  repeat' first
    | with_reducible assumption
    | intro _
    | with_reducible rfl
    | with_reducible apply Sound.ite
    | with_reducible apply each_sound
    | with_reducible apply SoundOut.next
    | with_reducible apply SoundOut.ite
    | with_reducible apply runFeature_sound
    | with_reducible apply featureDone_sound
    | with_reducible apply onCtrl_sound
    | (with_reducible apply Sound.update; first | with_reducible assumption | with_reducible apply runFeature_sound | with_reducible apply featureDone_sound | with_reducible apply onCtrl_sound)
    | (extract_lets +onlyGivenNames x; refine (?_ : Sound qq x → _) ?_; intro _; clear_value x; rotate_left; subst x; rotate_left)
    | (extract_lets +onlyGivenNames x; subst x)
    | split
    | dsimp -zeta only


theorem execSetFeaturesReservationNotifMask_sound {qq : List Instr} {entry : Nat} {s : State}  (h_s : Sound qq s) : SoundOut qq (execSetFeaturesReservationNotifMask entry s) := by
  unfold execSetFeaturesReservationNotifMask
  repeat' first
    | with_reducible assumption
    | intro _
    | with_reducible rfl
    | with_reducible apply Sound.ite
    | with_reducible apply each_sound
    | with_reducible apply SoundOut.next
    | with_reducible apply SoundOut.ite
    | with_reducible apply runFeature_sound
    | with_reducible apply featureDone_sound
    | with_reducible apply onCtrl_sound
    | (with_reducible apply Sound.update; first | with_reducible assumption | with_reducible apply runFeature_sound | with_reducible apply featureDone_sound | with_reducible apply onCtrl_sound)
    | (extract_lets +onlyGivenNames x; refine (?_ : Sound qq x → _) ?_; intro _; clear_value x; rotate_left; subst x; rotate_left)
    | (extract_lets +onlyGivenNames x; subst x)
    | split
    | dsimp -zeta only


theorem execSetFeaturesReservationPersistence_sound {qq : List Instr} {entry : Nat} {s : State}  (h_s : Sound qq s) : SoundOut qq (execSetFeaturesReservationPersistence entry s) := by
  unfold execSetFeaturesReservationPersistence
  repeat' first
    | with_reducible assumption
    | intro _
    | with_reducible rfl
    | with_reducible apply Sound.ite
    | with_reducible apply each_sound
    | with_reducible apply SoundOut.next
    | with_reducible apply SoundOut.ite
    | with_reducible apply runFeature_sound
    | with_reducible apply finishEntry_sound
    | (with_reducible apply Sound.update; first | with_reducible assumption | with_reducible apply runFeature_sound | with_reducible apply finishEntry_sound)
    | (extract_lets +onlyGivenNames x; refine (?_ : Sound qq x → _) ?_; intro _; clear_value x; rotate_left; subst x; rotate_left)
    | (extract_lets +onlyGivenNames x; subst x)
    | split
    | dsimp -zeta only


theorem execSetFeaturesUnsupported_sound {qq : List Instr} {entry : Nat} {s : State}  (h_s : Sound qq s) : SoundOut qq (execSetFeaturesUnsupported entry s) := by
  unfold execSetFeaturesUnsupported
  repeat' first
    | with_reducible assumption
    | intro _
    | with_reducible rfl
    | with_reducible apply Sound.ite
    | with_reducible apply each_sound
    | with_reducible apply SoundOut.next
    | with_reducible apply SoundOut.ite
    | with_reducible apply runEntry_sound
    | with_reducible apply finishEntry_sound
    | (with_reducible apply Sound.update; first | with_reducible assumption | with_reducible apply runEntry_sound | with_reducible apply finishEntry_sound)
    | (extract_lets +onlyGivenNames x; refine (?_ : Sound qq x → _) ?_; intro _; clear_value x; rotate_left; subst x; rotate_left)
    | (extract_lets +onlyGivenNames x; subst x)
    | split
    | dsimp -zeta only


theorem execGetFeatures_sound {qq : List Instr} {entry : Nat} {s : State}  (h_s : Sound qq s) : SoundOut qq (execGetFeatures entry s) := by
  unfold execGetFeatures
  repeat' first
    | with_reducible assumption
    | intro _
    | with_reducible rfl
    | with_reducible apply Sound.ite
    | with_reducible apply each_sound
    | with_reducible apply SoundOut.next
    | with_reducible apply SoundOut.ite
    | with_reducible apply runEntry_sound
    | with_reducible apply finishEntry_sound
    | with_reducible apply onEntry_sound
    | with_reducible apply answer_sound
    | (with_reducible apply Sound.update; first | with_reducible assumption | with_reducible apply runEntry_sound | with_reducible apply finishEntry_sound | with_reducible apply onEntry_sound | with_reducible apply answer_sound)
    | (extract_lets +onlyGivenNames x; refine (?_ : Sound qq x → _) ?_; intro _; clear_value x; rotate_left; subst x; rotate_left)
    | (extract_lets +onlyGivenNames x; subst x)
    | split
    | dsimp -zeta only


end Sys2Proof.Machine
end

