-- ==== Sys2Proof/Laws/SoundReservations.lean ====
section
/-!
SUPPORT. Soundness through the operations of Machine/Reservations.lean.
-/

set_option linter.all false

namespace Sys2Proof.Machine

theorem runReservation_sound {qq : List Instr} {t : Nat} {opcode : Nat} {f : Entry → Namespace → Nat → State → State} {s : State} (hf : ∀ a0 a1 a2 a3, Sound qq a3 → Sound qq (f a0 a1 a2 a3)) (h_s : Sound qq s) : SoundOut qq (runReservation t opcode f s) := by
  unfold runReservation
  repeat' first
    | with_reducible assumption
    | intro _
    | with_reducible rfl
    | with_reducible apply Sound.ite
    | with_reducible apply each_sound
    | with_reducible apply SoundOut.next
    | with_reducible apply SoundOut.ite
    | with_reducible apply runEntry_sound
    | with_reducible apply finishEntry_sound
    | with_reducible apply hf
    | (with_reducible apply Sound.update; first | with_reducible assumption | with_reducible apply runEntry_sound | with_reducible apply finishEntry_sound | with_reducible apply hf)
    | (extract_lets +onlyGivenNames x; refine (?_ : Sound qq x → _) ?_; intro _; clear_value x; rotate_left; subst x; rotate_left)
    | (extract_lets +onlyGivenNames x; subst x)
    | split
    | dsimp -zeta only


theorem setReservationOf_sound {qq : List Instr} {t : Nat} {e : Entry} {r : Reservation} {s : State}  (h_s : Sound qq s) : Sound qq (setReservationOf t e r s) := by
  unfold setReservationOf
  repeat' first
    | with_reducible assumption
    | intro _
    | with_reducible rfl
    | with_reducible apply Sound.ite
    | with_reducible apply each_sound
    | with_reducible apply finishEntry_sound
    | with_reducible apply onNamespace_sound
    | (with_reducible apply Sound.update; first | with_reducible assumption | with_reducible apply finishEntry_sound | with_reducible apply onNamespace_sound)
    | (extract_lets +onlyGivenNames x; refine (?_ : Sound qq x → _) ?_; intro _; clear_value x; rotate_left; subst x; rotate_left)
    | (extract_lets +onlyGivenNames x; subst x)
    | split
    | dsimp -zeta only


theorem execReservationRegister_sound {qq : List Instr} {entry : Nat} {data : Bytes} {s : State}  (h_s : Sound qq s) : SoundOut qq (execReservationRegister entry data s) := by
  unfold execReservationRegister
  repeat' first
    | with_reducible assumption
    | intro _
    | with_reducible rfl
    | with_reducible apply Sound.ite
    | with_reducible apply each_sound
    | with_reducible apply SoundOut.next
    | with_reducible apply SoundOut.ite
    | with_reducible apply runReservation_sound
    | with_reducible apply finishEntry_sound
    | with_reducible apply setReservationOf_sound
    | (with_reducible apply Sound.update; first | with_reducible assumption | with_reducible apply runReservation_sound | with_reducible apply finishEntry_sound | with_reducible apply setReservationOf_sound)
    | (extract_lets +onlyGivenNames x; refine (?_ : Sound qq x → _) ?_; intro _; clear_value x; rotate_left; subst x; rotate_left)
    | (extract_lets +onlyGivenNames x; subst x)
    | split
    | dsimp -zeta only


theorem abortPreempted_sound {qq : List Instr} {nsid : BitVec 32} {gone : List Registrant} {s : State}  (h_s : Sound qq s) : Sound qq (abortPreempted nsid gone s) := by
  unfold abortPreempted
  repeat' first
    | with_reducible assumption
    | intro _
    | with_reducible rfl
    | with_reducible apply Sound.ite
    | with_reducible apply each_sound
    | with_reducible apply wakeAll_sound
    | with_reducible apply each_sound
    | with_reducible apply failEntry_sound
    | (with_reducible apply Sound.update; first | with_reducible assumption | with_reducible apply wakeAll_sound | with_reducible apply each_sound | with_reducible apply failEntry_sound)
    | (extract_lets +onlyGivenNames x; refine (?_ : Sound qq x → _) ?_; intro _; clear_value x; rotate_left; subst x; rotate_left)
    | (extract_lets +onlyGivenNames x; subst x)
    | split
    | dsimp -zeta only


theorem preempt_sound {qq : List Instr} {t : Nat} {e : Entry} {n : Namespace} {h : Nat} {prkey : Nat} {type : Nat} {abort : Bool} {s : State}  (h_s : Sound qq s) : Sound qq (preempt t e n h prkey type abort s) := by
  unfold preempt
  repeat' first
    | with_reducible assumption
    | intro _
    | with_reducible rfl
    | with_reducible apply Sound.ite
    | with_reducible apply each_sound
    | with_reducible apply finishEntry_sound
    | with_reducible apply setReservationOf_sound
    | with_reducible apply abortPreempted_sound
    | (with_reducible apply Sound.update; first | with_reducible assumption | with_reducible apply finishEntry_sound | with_reducible apply setReservationOf_sound | with_reducible apply abortPreempted_sound)
    | (extract_lets +onlyGivenNames x; refine (?_ : Sound qq x → _) ?_; intro _; clear_value x; rotate_left; subst x; rotate_left)
    | (extract_lets +onlyGivenNames x; subst x)
    | split
    | dsimp -zeta only


theorem execReservationAcquire_sound {qq : List Instr} {entry : Nat} {data : Bytes} {s : State}  (h_s : Sound qq s) : SoundOut qq (execReservationAcquire entry data s) := by
  unfold execReservationAcquire
  repeat' first
    | with_reducible assumption
    | intro _
    | with_reducible rfl
    | with_reducible apply Sound.ite
    | with_reducible apply each_sound
    | with_reducible apply SoundOut.next
    | with_reducible apply SoundOut.ite
    | with_reducible apply runReservation_sound
    | with_reducible apply finishEntry_sound
    | with_reducible apply setReservationOf_sound
    | with_reducible apply preempt_sound
    | (with_reducible apply Sound.update; first | with_reducible assumption | with_reducible apply runReservation_sound | with_reducible apply finishEntry_sound | with_reducible apply setReservationOf_sound | with_reducible apply preempt_sound)
    | (extract_lets +onlyGivenNames x; refine (?_ : Sound qq x → _) ?_; intro _; clear_value x; rotate_left; subst x; rotate_left)
    | (extract_lets +onlyGivenNames x; subst x)
    | split
    | dsimp -zeta only


theorem execReservationRelease_sound {qq : List Instr} {entry : Nat} {data : Bytes} {s : State}  (h_s : Sound qq s) : SoundOut qq (execReservationRelease entry data s) := by
  unfold execReservationRelease
  repeat' first
    | with_reducible assumption
    | intro _
    | with_reducible rfl
    | with_reducible apply Sound.ite
    | with_reducible apply each_sound
    | with_reducible apply SoundOut.next
    | with_reducible apply SoundOut.ite
    | with_reducible apply runReservation_sound
    | with_reducible apply finishEntry_sound
    | with_reducible apply setReservationOf_sound
    | (with_reducible apply Sound.update; first | with_reducible assumption | with_reducible apply runReservation_sound | with_reducible apply finishEntry_sound | with_reducible apply setReservationOf_sound)
    | (extract_lets +onlyGivenNames x; refine (?_ : Sound qq x → _) ?_; intro _; clear_value x; rotate_left; subst x; rotate_left)
    | (extract_lets +onlyGivenNames x; subst x)
    | split
    | dsimp -zeta only


theorem execReservationReport_sound {qq : List Instr} {entry : Nat} {s : State}  (h_s : Sound qq s) : SoundOut qq (execReservationReport entry s) := by
  unfold execReservationReport
  repeat' first
    | with_reducible assumption
    | intro _
    | with_reducible rfl
    | with_reducible apply Sound.ite
    | with_reducible apply each_sound
    | with_reducible apply SoundOut.next
    | with_reducible apply SoundOut.ite
    | with_reducible apply runEntry_sound
    | with_reducible apply finishEntry_sound
    | with_reducible apply answer_sound
    | (with_reducible apply Sound.update; first | with_reducible assumption | with_reducible apply runEntry_sound | with_reducible apply finishEntry_sound | with_reducible apply answer_sound)
    | (extract_lets +onlyGivenNames x; refine (?_ : Sound qq x → _) ?_; intro _; clear_value x; rotate_left; subst x; rotate_left)
    | (extract_lets +onlyGivenNames x; subst x)
    | split
    | dsimp -zeta only


end Sys2Proof.Machine
end

