-- ==== Sys2Proof/Laws/SoundPowerStates.lean ====
section
/-!
SUPPORT. Soundness through the operations of Machine/PowerStates.lean.
-/

set_option linter.all false

namespace Sys2Proof.Machine

theorem settleReadOnly_sound {qq : List Instr} {s : State}  (h_s : Sound qq s) : Sound qq (settleReadOnly s) := by
  unfold settleReadOnly
  repeat' first
    | with_reducible assumption
    | intro _
    | with_reducible rfl
    | with_reducible apply Sound.ite
    | with_reducible apply each_sound
    | with_reducible apply goReadOnly_sound
    | (with_reducible apply Sound.update; first | with_reducible assumption | with_reducible apply goReadOnly_sound)
    | (extract_lets +onlyGivenNames x; refine (?_ : Sound qq x → _) ?_; intro _; clear_value x; rotate_left; subst x; rotate_left)
    | (extract_lets +onlyGivenNames x; subst x)
    | split
    | dsimp -zeta only


theorem answerParent_sound {qq : List Instr} {code : Nat} {reason : Nat} {s : State}  (h_s : Sound qq s) : Sound qq (answerParent code reason s) := by
  unfold answerParent
  repeat' first
    | with_reducible assumption
    | intro _
    | with_reducible rfl
    | with_reducible apply Sound.ite
    | with_reducible apply each_sound
    | with_reducible apply sendFrame_sound
    | (with_reducible apply Sound.update; first | with_reducible assumption | with_reducible apply sendFrame_sound)
    | (extract_lets +onlyGivenNames x; refine (?_ : Sound qq x → _) ?_; intro _; clear_value x; rotate_left; subst x; rotate_left)
    | (extract_lets +onlyGivenNames x; subst x)
    | split
    | dsimp -zeta only


theorem narrowLink_sound {qq : List Instr} {n : Nat} {s : State}  (h_s : Sound qq s) : Sound qq (narrowLink n s) := by
  unfold narrowLink
  repeat' first
    | with_reducible assumption
    | intro _
    | with_reducible rfl
    | with_reducible apply Sound.ite
    | with_reducible apply each_sound
    | with_reducible apply onLinkStatus_sound
    | (with_reducible apply Sound.update; first | with_reducible assumption | with_reducible apply onLinkStatus_sound)
    | (extract_lets +onlyGivenNames x; refine (?_ : Sound qq x → _) ?_; intro _; clear_value x; rotate_left; subst x; rotate_left)
    | (extract_lets +onlyGivenNames x; subst x)
    | split
    | dsimp -zeta only


theorem beginPatrol_sound {qq : List Instr} {s : State}  (h_s : Sound qq s) : Sound qq (beginPatrol s) := by
  unfold beginPatrol
  repeat' first
    | with_reducible assumption
    | intro _
    | with_reducible rfl
    | with_reducible apply Sound.ite
    | with_reducible apply each_sound
    | with_reducible apply each_sound
    | with_reducible apply narrowLink_sound
    | with_reducible apply armOnce_sound
    | (with_reducible apply Sound.update; first | with_reducible assumption | with_reducible apply each_sound | with_reducible apply narrowLink_sound | with_reducible apply armOnce_sound)
    | (extract_lets +onlyGivenNames x; refine (?_ : Sound qq x → _) ?_; intro _; clear_value x; rotate_left; subst x; rotate_left)
    | (extract_lets +onlyGivenNames x; subst x)
    | split
    | dsimp -zeta only


theorem commitHandshake_sound {qq : List Instr} {h : Handshake} {s : State}  (h_s : Sound qq s) : Sound qq (commitHandshake h s) := by
  unfold commitHandshake
  repeat' first
    | with_reducible assumption
    | intro _
    | with_reducible rfl
    | with_reducible apply Sound.ite
    | with_reducible apply each_sound
    | with_reducible apply disarm_sound
    | with_reducible apply applyState_sound
    | with_reducible apply noteOperational_sound
    | with_reducible apply setRequested_sound
    | with_reducible apply setMode_sound
    | with_reducible apply sendLtr_sound
    | with_reducible apply raise_sound
    | with_reducible apply answerParent_sound
    | with_reducible apply completePower_sound
    | with_reducible apply beginPatrol_sound
    | with_reducible apply settleReadOnly_sound
    | with_reducible apply ioDoorbell_sound
    | (with_reducible apply Sound.update; first | with_reducible assumption | with_reducible apply disarm_sound | with_reducible apply applyState_sound | with_reducible apply noteOperational_sound | with_reducible apply setRequested_sound | with_reducible apply setMode_sound | with_reducible apply sendLtr_sound | with_reducible apply raise_sound | with_reducible apply answerParent_sound | with_reducible apply completePower_sound | with_reducible apply beginPatrol_sound | with_reducible apply settleReadOnly_sound | with_reducible apply ioDoorbell_sound)
    | (extract_lets +onlyGivenNames x; refine (?_ : Sound qq x → _) ?_; intro _; clear_value x; rotate_left; subst x; rotate_left)
    | (extract_lets +onlyGivenNames x; subst x)
    | split
    | dsimp -zeta only


theorem countRefusal_sound {qq : List Instr} {reason : Nat} {code : Nat} {s : State}  (h_s : Sound qq s) : Sound qq (countRefusal reason code s) := by
  unfold countRefusal
  repeat' first
    | with_reducible assumption
    | intro _
    | with_reducible rfl
    | with_reducible apply Sound.ite
    | with_reducible apply each_sound
    | (with_reducible apply Sound.update; first | with_reducible assumption)
    | (extract_lets +onlyGivenNames x; refine (?_ : Sound qq x → _) ?_; intro _; clear_value x; rotate_left; subst x; rotate_left)
    | (extract_lets +onlyGivenNames x; subst x)
    | split
    | dsimp -zeta only


theorem refuseHandshake_sound {qq : List Instr} {h : Handshake} {codes : List Nat} {reason : Nat} {s : State}  (h_s : Sound qq s) : Sound qq (refuseHandshake h codes reason s) := by
  unfold refuseHandshake
  repeat' first
    | with_reducible assumption
    | intro _
    | with_reducible rfl
    | with_reducible apply Sound.ite
    | with_reducible apply each_sound
    | with_reducible apply disarm_sound
    | with_reducible apply each_sound
    | with_reducible apply countRefusal_sound
    | with_reducible apply raise_sound
    | with_reducible apply request_sound
    | with_reducible apply answerParent_sound
    | with_reducible apply finishEntry_sound
    | with_reducible apply settleReadOnly_sound
    | (with_reducible apply Sound.update; first | with_reducible assumption | with_reducible apply disarm_sound | with_reducible apply each_sound | with_reducible apply countRefusal_sound | with_reducible apply raise_sound | with_reducible apply request_sound | with_reducible apply answerParent_sound | with_reducible apply finishEntry_sound | with_reducible apply settleReadOnly_sound)
    | (extract_lets +onlyGivenNames x; refine (?_ : Sound qq x → _) ?_; intro _; clear_value x; rotate_left; subst x; rotate_left)
    | (extract_lets +onlyGivenNames x; subst x)
    | split
    | dsimp -zeta only


theorem beginHandshake_sound {qq : List Instr} {target : Nat} {ctrl : Nat} {entry : Option Nat} {s : State}  (h_s : Sound qq s) : Sound qq (beginHandshake target ctrl entry s) := by
  unfold beginHandshake
  repeat' first
    | with_reducible assumption
    | intro _
    | with_reducible rfl
    | with_reducible apply Sound.ite
    | with_reducible apply each_sound
    | with_reducible apply each_sound
    | with_reducible apply sendFrame_sound
    | with_reducible apply onEntry_sound
    | with_reducible apply arm_sound
    | (with_reducible apply Sound.update; first | with_reducible assumption | with_reducible apply each_sound | with_reducible apply sendFrame_sound | with_reducible apply onEntry_sound | with_reducible apply arm_sound)
    | (extract_lets +onlyGivenNames x; refine (?_ : Sound qq x → _) ?_; intro _; clear_value x; rotate_left; subst x; rotate_left)
    | (extract_lets +onlyGivenNames x; subst x)
    | split
    | dsimp -zeta only


theorem participantAccepts_sound {qq : List Instr} {code : Nat} {h : Handshake} {s : State}  (h_s : Sound qq s) : Sound qq (participantAccepts code h s) := by
  unfold participantAccepts
  repeat' first
    | with_reducible assumption
    | intro _
    | with_reducible rfl
    | with_reducible apply Sound.ite
    | with_reducible apply each_sound
    | with_reducible apply commitHandshake_sound
    | (with_reducible apply Sound.update; first | with_reducible assumption | with_reducible apply commitHandshake_sound)
    | (extract_lets +onlyGivenNames x; refine (?_ : Sound qq x → _) ?_; intro _; clear_value x; rotate_left; subst x; rotate_left)
    | (extract_lets +onlyGivenNames x; subst x)
    | split
    | dsimp -zeta only


theorem execSetFeaturesPowerManagement_sound {qq : List Instr} {entry : Nat} {s : State}  (h_s : Sound qq s) : SoundOut qq (execSetFeaturesPowerManagement entry s) := by
  unfold execSetFeaturesPowerManagement
  repeat' first
    | with_reducible assumption
    | intro _
    | with_reducible rfl
    | with_reducible apply Sound.ite
    | with_reducible apply each_sound
    | with_reducible apply SoundOut.next
    | with_reducible apply SoundOut.ite
    | with_reducible apply runFeature_sound
    | with_reducible apply setRequested_sound
    | with_reducible apply finishEntry_sound
    | with_reducible apply noteOperational_sound
    | with_reducible apply beginReturn_sound
    | with_reducible apply onEntry_sound
    | with_reducible apply beginHandshake_sound
    | (with_reducible apply Sound.update; first | with_reducible assumption | with_reducible apply runFeature_sound | with_reducible apply setRequested_sound | with_reducible apply finishEntry_sound | with_reducible apply noteOperational_sound | with_reducible apply beginReturn_sound | with_reducible apply onEntry_sound | with_reducible apply beginHandshake_sound)
    | (extract_lets +onlyGivenNames x; refine (?_ : Sound qq x → _) ?_; intro _; clear_value x; rotate_left; subst x; rotate_left)
    | (extract_lets +onlyGivenNames x; subst x)
    | split
    | dsimp -zeta only


theorem execHandshakeReply_sound {qq : List Instr} {code : Nat} {refuse : Bool} {s : State}  (h_s : Sound qq s) : SoundOut qq (execHandshakeReply code refuse s) := by
  unfold execHandshakeReply
  repeat' first
    | with_reducible assumption
    | intro _
    | with_reducible rfl
    | with_reducible apply Sound.ite
    | with_reducible apply each_sound
    | with_reducible apply SoundOut.next
    | with_reducible apply SoundOut.ite
    | with_reducible apply refuseHandshake_sound
    | with_reducible apply participantAccepts_sound
    | (with_reducible apply Sound.update; first | with_reducible assumption | with_reducible apply refuseHandshake_sound | with_reducible apply participantAccepts_sound)
    | (extract_lets +onlyGivenNames x; refine (?_ : Sound qq x → _) ?_; intro _; clear_value x; rotate_left; subst x; rotate_left)
    | (extract_lets +onlyGivenNames x; subst x)
    | split
    | dsimp -zeta only


theorem execHandshakeTimeout_sound {qq : List Instr} {s : State}  (h_s : Sound qq s) : SoundOut qq (execHandshakeTimeout s) := by
  unfold execHandshakeTimeout
  repeat' first
    | with_reducible assumption
    | intro _
    | with_reducible rfl
    | with_reducible apply Sound.ite
    | with_reducible apply each_sound
    | with_reducible apply SoundOut.next
    | with_reducible apply SoundOut.ite
    | with_reducible apply refuseHandshake_sound
    | (with_reducible apply Sound.update; first | with_reducible assumption | with_reducible apply refuseHandshake_sound)
    | (extract_lets +onlyGivenNames x; refine (?_ : Sound qq x → _) ?_; intro _; clear_value x; rotate_left; subst x; rotate_left)
    | (extract_lets +onlyGivenNames x; subst x)
    | split
    | dsimp -zeta only


theorem setCursor_sound {qq : List Instr} {k : Nat} {s : State}  (h_s : Sound qq s) : Sound qq (setCursor k s) := by
  unfold setCursor
  repeat' first
    | with_reducible assumption
    | intro _
    | with_reducible rfl
    | with_reducible apply Sound.ite
    | with_reducible apply each_sound
    | (with_reducible apply Sound.update; first | with_reducible assumption)
    | (extract_lets +onlyGivenNames x; refine (?_ : Sound qq x → _) ?_; intro _; clear_value x; rotate_left; subst x; rotate_left)
    | (extract_lets +onlyGivenNames x; subst x)
    | split
    | dsimp -zeta only


theorem cancelPatrol_sound {qq : List Instr} {s : State}  (h_s : Sound qq s) : Sound qq (cancelPatrol s) := by
  unfold cancelPatrol
  repeat' first
    | with_reducible assumption
    | intro _
    | with_reducible rfl
    | with_reducible apply Sound.ite
    | with_reducible apply each_sound
    | with_reducible apply setCursor_sound
    | with_reducible apply each_sound
    | with_reducible apply leaveOp_sound
    | (with_reducible apply Sound.update; first | with_reducible assumption | with_reducible apply setCursor_sound | with_reducible apply each_sound | with_reducible apply leaveOp_sound)
    | (extract_lets +onlyGivenNames x; refine (?_ : Sound qq x → _) ?_; intro _; clear_value x; rotate_left; subst x; rotate_left)
    | (extract_lets +onlyGivenNames x; subst x)
    | split
    | dsimp -zeta only


theorem endReturn_sound {qq : List Instr} {r : PatrolReturn} {s : State}  (h_s : Sound qq s) : Sound qq (endReturn r s) := by
  unfold endReturn
  repeat' first
    | with_reducible assumption
    | intro _
    | with_reducible rfl
    | with_reducible apply Sound.ite
    | with_reducible apply each_sound
    | with_reducible apply applyState_sound
    | with_reducible apply setMode_sound
    | with_reducible apply raise_sound
    | with_reducible apply completePower_sound
    | with_reducible apply sendLtr_sound
    | with_reducible apply each_sound
    | with_reducible apply wideLink_sound
    | with_reducible apply queueBlock_sound
    | with_reducible apply settleMedia_sound
    | with_reducible apply settleReadOnly_sound
    | (with_reducible apply Sound.update; first | with_reducible assumption | with_reducible apply applyState_sound | with_reducible apply setMode_sound | with_reducible apply raise_sound | with_reducible apply completePower_sound | with_reducible apply sendLtr_sound | with_reducible apply each_sound | with_reducible apply wideLink_sound | with_reducible apply queueBlock_sound | with_reducible apply settleMedia_sound | with_reducible apply settleReadOnly_sound)
    | (extract_lets +onlyGivenNames x; refine (?_ : Sound qq x → _) ?_; intro _; clear_value x; rotate_left; subst x; rotate_left)
    | (extract_lets +onlyGivenNames x; subst x)
    | split
    | dsimp -zeta only


theorem execPatrolReturnStep_sound {qq : List Instr} {s : State}  (h_s : Sound qq s) : SoundOut qq (execPatrolReturnStep s) := by
  unfold execPatrolReturnStep
  repeat' first
    | with_reducible assumption
    | intro _
    | with_reducible rfl
    | with_reducible apply Sound.ite
    | with_reducible apply each_sound
    | with_reducible apply SoundOut.next
    | with_reducible apply SoundOut.ite
    | with_reducible apply each_sound
    | with_reducible apply sendFrame_sound
    | with_reducible apply cancelPatrol_sound
    | with_reducible apply beginBusTraining_sound
    | with_reducible apply endReturn_sound
    | (with_reducible apply Sound.update; first | with_reducible assumption | with_reducible apply each_sound | with_reducible apply sendFrame_sound | with_reducible apply cancelPatrol_sound | with_reducible apply beginBusTraining_sound | with_reducible apply endReturn_sound)
    | (extract_lets +onlyGivenNames x; refine (?_ : Sound qq x → _) ?_; intro _; clear_value x; rotate_left; subst x; rotate_left)
    | (extract_lets +onlyGivenNames x; subst x)
    | split
    | dsimp -zeta only


theorem patrolRead_sound {qq : List Instr} {stamp : Nat} {k : Nat} {s : State}  (h_s : Sound qq s) : Sound qq (patrolRead stamp k s) := by
  unfold patrolRead
  repeat' first
    | with_reducible assumption
    | intro _
    | with_reducible rfl
    | with_reducible apply Sound.ite
    | with_reducible apply each_sound
    | with_reducible apply onBlock_sound
    | with_reducible apply addOp_sound
    | (with_reducible apply Sound.update; first | with_reducible assumption | with_reducible apply onBlock_sound | with_reducible apply addOp_sound)
    | (extract_lets +onlyGivenNames x; refine (?_ : Sound qq x → _) ?_; intro _; clear_value x; rotate_left; subst x; rotate_left)
    | (extract_lets +onlyGivenNames x; subst x)
    | split
    | dsimp -zeta only


theorem execPatrolWake_sound {qq : List Instr} {s : State}  (h_s : Sound qq s) : SoundOut qq (execPatrolWake s) := by
  unfold execPatrolWake
  repeat' first
    | with_reducible assumption
    | intro _
    | with_reducible rfl
    | with_reducible apply Sound.ite
    | with_reducible apply each_sound
    | with_reducible apply SoundOut.next
    | with_reducible apply SoundOut.ite
    | with_reducible apply takeStamp_snd
    | (with_reducible refine takeStamp_sound (by assumption) ?_)
    | with_reducible apply arm_sound
    | with_reducible apply setCursor_sound
    | with_reducible apply each_sound
    | with_reducible apply patrolRead_sound
    | (with_reducible apply Sound.update; first | with_reducible assumption | with_reducible apply takeStamp_snd | (with_reducible refine takeStamp_sound (by assumption) ?_) | with_reducible apply arm_sound | with_reducible apply setCursor_sound | with_reducible apply each_sound | with_reducible apply patrolRead_sound)
    | (extract_lets +onlyGivenNames x; refine (?_ : Sound qq x → _) ?_; intro _; clear_value x; rotate_left; subst x; rotate_left)
    | (extract_lets +onlyGivenNames x; subst x)
    | split
    | dsimp -zeta only


theorem compareSample_sound {qq : List Instr} {x : PatrolSample} {s : State}  (h_s : Sound qq s) : Sound qq (compareSample x s) := by
  unfold compareSample
  repeat' first
    | with_reducible assumption
    | intro _
    | with_reducible rfl
    | with_reducible apply Sound.ite
    | with_reducible apply each_sound
    | with_reducible apply raise_sound
    | with_reducible apply reportRefresh_sound
    | (with_reducible apply Sound.update; first | with_reducible assumption | with_reducible apply raise_sound | with_reducible apply reportRefresh_sound)
    | (extract_lets +onlyGivenNames x; refine (?_ : Sound qq x → _) ?_; intro _; clear_value x; rotate_left; subst x; rotate_left)
    | (extract_lets +onlyGivenNames x; subst x)
    | split
    | dsimp -zeta only


theorem execPatrolSampleEnd_sound {qq : List Instr} {s : State}  (h_s : Sound qq s) : SoundOut qq (execPatrolSampleEnd s) := by
  unfold execPatrolSampleEnd
  repeat' first
    | with_reducible assumption
    | intro _
    | with_reducible rfl
    | with_reducible apply Sound.ite
    | with_reducible apply each_sound
    | with_reducible apply SoundOut.next
    | with_reducible apply SoundOut.ite
    | with_reducible apply each_sound
    | with_reducible apply compareSample_sound
    | with_reducible apply cancelPatrol_sound
    | with_reducible apply disarm_sound
    | (with_reducible apply Sound.update; first | with_reducible assumption | with_reducible apply each_sound | with_reducible apply compareSample_sound | with_reducible apply cancelPatrol_sound | with_reducible apply disarm_sound)
    | (extract_lets +onlyGivenNames x; refine (?_ : Sound qq x → _) ?_; intro _; clear_value x; rotate_left; subst x; rotate_left)
    | (extract_lets +onlyGivenNames x; subst x)
    | split
    | dsimp -zeta only


end Sys2Proof.Machine
end

