-- ==== Sys2Proof/Laws/SoundThermal.lean ====
section
/-!
SUPPORT. Soundness through the operations of Machine/Thermal.lean.
-/

set_option linter.all false

namespace Sys2Proof.Machine

theorem showLevel_sound {qq : List Instr} {s : State}  (h_s : Sound qq s) : Sound qq (showLevel s) := by
  unfold showLevel
  repeat' first
    | with_reducible assumption
    | intro _
    | with_reducible rfl
    | with_reducible apply Sound.ite
    | with_reducible apply each_sound
    | (with_reducible apply Sound.update; first | with_reducible assumption)
    | (extract_lets +onlyGivenNames x; refine (?_ : Sound qq x → _) ?_; intro _; clear_value x; rotate_left; subst x; rotate_left)
    | (extract_lets +onlyGivenNames x; subst x)
    | split
    | dsimp -zeta only


theorem noteCharge_sound {qq : List Instr} {s : State}  (h_s : Sound qq s) : Sound qq (noteCharge s) := by
  unfold noteCharge
  repeat' first
    | with_reducible assumption
    | intro _
    | with_reducible rfl
    | with_reducible apply Sound.ite
    | with_reducible apply each_sound
    | (with_reducible apply Sound.update; first | with_reducible assumption)
    | (extract_lets +onlyGivenNames x; refine (?_ : Sound qq x → _) ?_; intro _; clear_value x; rotate_left; subst x; rotate_left)
    | (extract_lets +onlyGivenNames x; subst x)
    | split
    | dsimp -zeta only


theorem tick_sound {qq : List Instr} {s : State}  (h_s : Sound qq s) : Sound qq (tick s) := by
  unfold tick
  repeat' first
    | with_reducible assumption
    | intro _
    | with_reducible rfl
    | with_reducible apply Sound.ite
    | with_reducible apply each_sound
    | with_reducible apply noteCharge_sound
    | with_reducible apply oscillate_sound
    | (with_reducible apply Sound.update; first | with_reducible assumption | with_reducible apply noteCharge_sound | with_reducible apply oscillate_sound)
    | (extract_lets +onlyGivenNames x; refine (?_ : Sound qq x → _) ?_; intro _; clear_value x; rotate_left; subst x; rotate_left)
    | (extract_lets +onlyGivenNames x; subst x)
    | split
    | dsimp -zeta only


theorem showComposite_sound {qq : List Instr} {s : State}  (h_s : Sound qq s) : Sound qq (showComposite s) := by
  unfold showComposite
  repeat' first
    | with_reducible assumption
    | intro _
    | with_reducible rfl
    | with_reducible apply Sound.ite
    | with_reducible apply each_sound
    | with_reducible apply request_sound
    | (with_reducible apply Sound.update; first | with_reducible assumption | with_reducible apply request_sound)
    | (extract_lets +onlyGivenNames x; refine (?_ : Sound qq x → _) ?_; intro _; clear_value x; rotate_left; subst x; rotate_left)
    | (extract_lets +onlyGivenNames x; subst x)
    | split
    | dsimp -zeta only


theorem excludeSource_sound {qq : List Instr} {k : Nat} {s : State}  (h_s : Sound qq s) : Sound qq (excludeSource k s) := by
  unfold excludeSource
  repeat' first
    | with_reducible assumption
    | intro _
    | with_reducible rfl
    | with_reducible apply Sound.ite
    | with_reducible apply each_sound
    | with_reducible apply raise_sound
    | (with_reducible apply Sound.update; first | with_reducible assumption | with_reducible apply raise_sound)
    | (extract_lets +onlyGivenNames x; refine (?_ : Sound qq x → _) ?_; intro _; clear_value x; rotate_left; subst x; rotate_left)
    | (extract_lets +onlyGivenNames x; subst x)
    | split
    | dsimp -zeta only


theorem showSources_sound {qq : List Instr} {s : State}  (h_s : Sound qq s) : Sound qq (showSources s) := by
  unfold showSources
  repeat' first
    | with_reducible assumption
    | intro _
    | with_reducible rfl
    | with_reducible apply Sound.ite
    | with_reducible apply each_sound
    | (with_reducible apply Sound.update; first | with_reducible assumption)
    | (extract_lets +onlyGivenNames x; refine (?_ : Sound qq x → _) ?_; intro _; clear_value x; rotate_left; subst x; rotate_left)
    | (extract_lets +onlyGivenNames x; subst x)
    | split
    | dsimp -zeta only


theorem startModel_sound {qq : List Instr} {diodes : List DiodeReading} {ext : DiodeReading} {s : State}  (h_s : Sound qq s) : Sound qq (startModel diodes ext s) := by
  unfold startModel
  repeat' first
    | with_reducible assumption
    | intro _
    | with_reducible rfl
    | with_reducible apply Sound.ite
    | with_reducible apply each_sound
    | with_reducible apply each_sound
    | with_reducible apply excludeSource_sound
    | with_reducible apply showSources_sound
    | with_reducible apply showComposite_sound
    | (with_reducible apply Sound.update; first | with_reducible assumption | with_reducible apply each_sound | with_reducible apply excludeSource_sound | with_reducible apply showSources_sound | with_reducible apply showComposite_sound)
    | (extract_lets +onlyGivenNames x; refine (?_ : Sound qq x → _) ?_; intro _; clear_value x; rotate_left; subst x; rotate_left)
    | (extract_lets +onlyGivenNames x; subst x)
    | split
    | dsimp -zeta only


theorem beginModel_sound {qq : List Instr} {diodes : List DiodeReading} {ext : DiodeReading} {s : State}  (h_s : Sound qq s) : Sound qq (beginModel diodes ext s) := by
  unfold beginModel
  repeat' first
    | with_reducible assumption
    | intro _
    | with_reducible rfl
    | with_reducible apply Sound.ite
    | with_reducible apply each_sound
    | with_reducible apply startModel_sound
    | with_reducible apply arm_sound
    | (with_reducible apply Sound.update; first | with_reducible assumption | with_reducible apply startModel_sound | with_reducible apply arm_sound)
    | (extract_lets +onlyGivenNames x; refine (?_ : Sound qq x → _) ?_; intro _; clear_value x; rotate_left; subst x; rotate_left)
    | (extract_lets +onlyGivenNames x; subst x)
    | split
    | dsimp -zeta only


theorem haltOff_sound {qq : List Instr} {s : State}  (h_s : Sound qq s) : Sound qq (haltOff s) := by
  unfold haltOff
  repeat' first
    | with_reducible assumption
    | intro _
    | with_reducible rfl
    | with_reducible apply Sound.ite
    | with_reducible apply each_sound
    | with_reducible apply each_sound
    | with_reducible apply driveNven_sound
    | with_reducible apply onPortStatus_sound
    | with_reducible apply showLevel_sound
    | (with_reducible apply Sound.update; first | with_reducible assumption | with_reducible apply each_sound | with_reducible apply driveNven_sound | with_reducible apply onPortStatus_sound | with_reducible apply showLevel_sound)
    | (extract_lets +onlyGivenNames x; refine (?_ : Sound qq x → _) ?_; intro _; clear_value x; rotate_left; subst x; rotate_left)
    | (extract_lets +onlyGivenNames x; subst x)
    | split
    | dsimp -zeta only


theorem tellStopped_sound {qq : List Instr} {s : State}  (h_s : Sound qq s) : Sound qq (tellStopped s) := by
  unfold tellStopped
  repeat' first
    | with_reducible assumption
    | intro _
    | with_reducible rfl
    | with_reducible apply Sound.ite
    | with_reducible apply each_sound
    | with_reducible apply sendFrame_sound
    | (with_reducible apply Sound.update; first | with_reducible assumption | with_reducible apply sendFrame_sound)
    | (extract_lets +onlyGivenNames x; refine (?_ : Sound qq x → _) ?_; intro _; clear_value x; rotate_left; subst x; rotate_left)
    | (extract_lets +onlyGivenNames x; subst x)
    | split
    | dsimp -zeta only


theorem cutArray_sound {qq : List Instr} {own : BaRequest → Bool} {s : State}  (h_s : Sound qq s) : Sound qq (cutArray own s) := by
  unfold cutArray
  repeat' first
    | with_reducible assumption
    | intro _
    | with_reducible rfl
    | with_reducible apply Sound.ite
    | with_reducible apply each_sound
    | (with_reducible apply Sound.update; first | with_reducible assumption)
    | (extract_lets +onlyGivenNames x; refine (?_ : Sound qq x → _) ?_; intro _; clear_value x; rotate_left; subst x; rotate_left)
    | (extract_lets +onlyGivenNames x; subst x)
    | split
    | dsimp -zeta only


theorem stopArray_sound {qq : List Instr} {s : State}  (h_s : Sound qq s) : Sound qq (stopArray s) := by
  unfold stopArray
  repeat' first
    | with_reducible assumption
    | intro _
    | with_reducible rfl
    | with_reducible apply Sound.ite
    | with_reducible apply each_sound
    | with_reducible apply cutArray_sound
    | with_reducible apply endAdmin_sound
    | with_reducible apply showSlot_sound
    | (with_reducible apply Sound.update; first | with_reducible assumption | with_reducible apply cutArray_sound | with_reducible apply endAdmin_sound | with_reducible apply showSlot_sound)
    | (extract_lets +onlyGivenNames x; refine (?_ : Sound qq x → _) ?_; intro _; clear_value x; rotate_left; subst x; rotate_left)
    | (extract_lets +onlyGivenNames x; subst x)
    | split
    | dsimp -zeta only


theorem abandonPower_sound {qq : List Instr} {s : State}  (h_s : Sound qq s) : Sound qq (abandonPower s) := by
  unfold abandonPower
  repeat' first
    | with_reducible assumption
    | intro _
    | with_reducible rfl
    | with_reducible apply Sound.ite
    | with_reducible apply each_sound
    | with_reducible apply endEntry_sound
    | (with_reducible apply Sound.update; first | with_reducible assumption | with_reducible apply endEntry_sound)
    | (extract_lets +onlyGivenNames x; refine (?_ : Sound qq x → _) ?_; intro _; clear_value x; rotate_left; subst x; rotate_left)
    | (extract_lets +onlyGivenNames x; subst x)
    | split
    | dsimp -zeta only


theorem failOutstanding_sound {qq : List Instr} {s : State}  (h_s : Sound qq s) : Sound qq (failOutstanding s) := by
  unfold failOutstanding
  repeat' first
    | with_reducible assumption
    | intro _
    | with_reducible rfl
    | with_reducible apply Sound.ite
    | with_reducible apply each_sound
    | with_reducible apply each_sound
    | with_reducible apply failEntry_sound
    | (with_reducible apply Sound.update; first | with_reducible assumption | with_reducible apply each_sound | with_reducible apply failEntry_sound)
    | (extract_lets +onlyGivenNames x; refine (?_ : Sound qq x → _) ?_; intro _; clear_value x; rotate_left; subst x; rotate_left)
    | (extract_lets +onlyGivenNames x; subst x)
    | split
    | dsimp -zeta only


theorem beginHalt_sound {qq : List Instr} {s : State}  (h_s : Sound qq s) : Sound qq (beginHalt s) := by
  unfold beginHalt
  repeat' first
    | with_reducible assumption
    | intro _
    | with_reducible rfl
    | with_reducible apply Sound.ite
    | with_reducible apply each_sound
    | with_reducible apply stopArray_sound
    | with_reducible apply abandonPower_sound
    | with_reducible apply failOutstanding_sound
    | with_reducible apply each_sound
    | with_reducible apply postAsync_sound
    | with_reducible apply abandonSeals_sound
    | with_reducible apply haltMedia_sound
    | with_reducible apply beginSpill_sound
    | with_reducible apply showLevel_sound
    | with_reducible apply haltPersisted_sound
    | (with_reducible apply Sound.update; first | with_reducible assumption | with_reducible apply stopArray_sound | with_reducible apply abandonPower_sound | with_reducible apply failOutstanding_sound | with_reducible apply each_sound | with_reducible apply postAsync_sound | with_reducible apply abandonSeals_sound | with_reducible apply haltMedia_sound | with_reducible apply beginSpill_sound | with_reducible apply showLevel_sound | with_reducible apply haltPersisted_sound)
    | (extract_lets +onlyGivenNames x; refine (?_ : Sound qq x → _) ?_; intro _; clear_value x; rotate_left; subst x; rotate_left)
    | (extract_lets +onlyGivenNames x; subst x)
    | split
    | dsimp -zeta only


theorem haltStart_sound {qq : List Instr} {r : HaltRecord} {s : State}  (h_s : Sound qq s) : Sound qq (haltStart r s) := by
  unfold haltStart
  repeat' first
    | with_reducible assumption
    | intro _
    | with_reducible rfl
    | with_reducible apply Sound.ite
    | with_reducible apply each_sound
    | with_reducible apply haltMedia_sound
    | with_reducible apply request_sound
    | with_reducible apply askRecord_sound
    | with_reducible apply releaseHeld_sound
    | (with_reducible apply Sound.update; first | with_reducible assumption | with_reducible apply haltMedia_sound | with_reducible apply request_sound | with_reducible apply askRecord_sound | with_reducible apply releaseHeld_sound)
    | (extract_lets +onlyGivenNames x; refine (?_ : Sound qq x → _) ?_; intro _; clear_value x; rotate_left; subst x; rotate_left)
    | (extract_lets +onlyGivenNames x; subst x)
    | split
    | dsimp -zeta only


theorem thresholdReached_sound {qq : List Instr} {s : State}  (h_s : Sound qq s) : Sound qq (thresholdReached s) := by
  unfold thresholdReached
  repeat' first
    | with_reducible assumption
    | intro _
    | with_reducible rfl
    | with_reducible apply Sound.ite
    | with_reducible apply each_sound
    | with_reducible apply takeStamp_snd
    | (with_reducible refine takeStamp_sound (by assumption) ?_)
    | with_reducible apply deliver_sound
    | with_reducible apply raise_sound
    | with_reducible apply beginHalt_sound
    | with_reducible apply haltStart_sound
    | (with_reducible apply Sound.update; first | with_reducible assumption | with_reducible apply takeStamp_snd | (with_reducible refine takeStamp_sound (by assumption) ?_) | with_reducible apply deliver_sound | with_reducible apply raise_sound | with_reducible apply beginHalt_sound | with_reducible apply haltStart_sound)
    | (extract_lets +onlyGivenNames x; refine (?_ : Sound qq x → _) ?_; intro _; clear_value x; rotate_left; subst x; rotate_left)
    | (extract_lets +onlyGivenNames x; subst x)
    | split
    | dsimp -zeta only


theorem postRest_sound {qq : List Instr} {s : State}  (h_s : Sound qq s) : Sound qq (postRest s) := by
  unfold postRest
  repeat' first
    | with_reducible assumption
    | intro _
    | with_reducible rfl
    | with_reducible apply Sound.ite
    | with_reducible apply each_sound
    | with_reducible apply each_sound
    | with_reducible apply post_sound
    | (with_reducible apply Sound.update; first | with_reducible assumption | with_reducible apply each_sound | with_reducible apply post_sound)
    | (extract_lets +onlyGivenNames x; refine (?_ : Sound qq x → _) ?_; intro _; clear_value x; rotate_left; subst x; rotate_left)
    | (extract_lets +onlyGivenNames x; subst x)
    | split
    | dsimp -zeta only


theorem execThermalHaltEntryComplete_sound {qq : List Instr} {s : State}  (h_s : Sound qq s) : SoundOut qq (execThermalHaltEntryComplete s) := by
  unfold execThermalHaltEntryComplete
  repeat' first
    | with_reducible assumption
    | intro _
    | with_reducible rfl
    | with_reducible apply Sound.ite
    | with_reducible apply each_sound
    | with_reducible apply SoundOut.next
    | with_reducible apply SoundOut.ite
    | with_reducible apply writeHealthPage_sound
    | with_reducible apply postRest_sound
    | with_reducible apply setMode_sound
    | with_reducible apply tellStopped_sound
    | with_reducible apply haltOff_sound
    | with_reducible apply assertL5_sound
    | with_reducible apply actL4_sound
    | (with_reducible apply Sound.update; first | with_reducible assumption | with_reducible apply writeHealthPage_sound | with_reducible apply postRest_sound | with_reducible apply setMode_sound | with_reducible apply tellStopped_sound | with_reducible apply haltOff_sound | with_reducible apply assertL5_sound | with_reducible apply actL4_sound)
    | (extract_lets +onlyGivenNames x; refine (?_ : Sound qq x → _) ?_; intro _; clear_value x; rotate_left; subst x; rotate_left)
    | (extract_lets +onlyGivenNames x; subst x)
    | split
    | dsimp -zeta only


theorem testWarning_sound {qq : List Instr} {s : State}  (h_s : Sound qq s) : Sound qq (testWarning s) := by
  unfold testWarning
  repeat' first
    | with_reducible assumption
    | intro _
    | with_reducible rfl
    | with_reducible apply Sound.ite
    | with_reducible apply each_sound
    | with_reducible apply raise_sound
    | (with_reducible apply Sound.update; first | with_reducible assumption | with_reducible apply raise_sound)
    | (extract_lets +onlyGivenNames x; refine (?_ : Sound qq x → _) ?_; intro _; clear_value x; rotate_left; subst x; rotate_left)
    | (extract_lets +onlyGivenNames x; subst x)
    | split
    | dsimp -zeta only


theorem execThermalModelStep_sound {qq : List Instr} {power : List Nat} {s : State}  (h_s : Sound qq s) : SoundOut qq (execThermalModelStep power s) := by
  unfold execThermalModelStep
  repeat' first
    | with_reducible assumption
    | intro _
    | with_reducible rfl
    | with_reducible apply Sound.ite
    | with_reducible apply each_sound
    | with_reducible apply SoundOut.next
    | with_reducible apply SoundOut.ite
    | with_reducible apply showComposite_sound
    | with_reducible apply arm_sound
    | with_reducible apply noteMiAll_sound
    | with_reducible apply noteHealth_sound
    | with_reducible apply testWarning_sound
    | with_reducible apply showLevel_sound
    | with_reducible apply thresholdReached_sound
    | (with_reducible apply Sound.update; first | with_reducible assumption | with_reducible apply showComposite_sound | with_reducible apply arm_sound | with_reducible apply noteMiAll_sound | with_reducible apply noteHealth_sound | with_reducible apply testWarning_sound | with_reducible apply showLevel_sound | with_reducible apply thresholdReached_sound)
    | (extract_lets +onlyGivenNames x; refine (?_ : Sound qq x → _) ?_; intro _; clear_value x; rotate_left; subst x; rotate_left)
    | (extract_lets +onlyGivenNames x; subst x)
    | split
    | dsimp -zeta only


theorem takeReading_sound {qq : List Instr} {k : Nat} {d : DiodeReading} {s : State}  (h_s : Sound qq s) : Sound qq (takeReading k d s) := by
  unfold takeReading
  repeat' first
    | with_reducible assumption
    | intro _
    | with_reducible rfl
    | with_reducible apply Sound.ite
    | with_reducible apply each_sound
    | with_reducible apply excludeSource_sound
    | with_reducible apply raise_sound
    | (with_reducible apply Sound.update; first | with_reducible assumption | with_reducible apply excludeSource_sound | with_reducible apply raise_sound)
    | (extract_lets +onlyGivenNames x; refine (?_ : Sound qq x → _) ?_; intro _; clear_value x; rotate_left; subst x; rotate_left)
    | (extract_lets +onlyGivenNames x; subst x)
    | split
    | dsimp -zeta only


theorem calibrateDie_sound {qq : List Instr} {s : State}  (h_s : Sound qq s) : Sound qq (calibrateDie s) := by
  unfold calibrateDie
  repeat' first
    | with_reducible assumption
    | intro _
    | with_reducible rfl
    | with_reducible apply Sound.ite
    | with_reducible apply each_sound
    | (with_reducible apply Sound.update; first | with_reducible assumption)
    | (extract_lets +onlyGivenNames x; refine (?_ : Sound qq x → _) ?_; intro _; clear_value x; rotate_left; subst x; rotate_left)
    | (extract_lets +onlyGivenNames x; subst x)
    | split
    | dsimp -zeta only


theorem calibrateExt_sound {qq : List Instr} {s : State}  (h_s : Sound qq s) : Sound qq (calibrateExt s) := by
  unfold calibrateExt
  repeat' first
    | with_reducible assumption
    | intro _
    | with_reducible rfl
    | with_reducible apply Sound.ite
    | with_reducible apply each_sound
    | (with_reducible apply Sound.update; first | with_reducible assumption)
    | (extract_lets +onlyGivenNames x; refine (?_ : Sound qq x → _) ?_; intro _; clear_value x; rotate_left; subst x; rotate_left)
    | (extract_lets +onlyGivenNames x; subst x)
    | split
    | dsimp -zeta only


theorem countTimes_sound {qq : List Instr} {s : State}  (h_s : Sound qq s) : Sound qq (countTimes s) := by
  unfold countTimes
  repeat' first
    | with_reducible assumption
    | intro _
    | with_reducible rfl
    | with_reducible apply Sound.ite
    | with_reducible apply each_sound
    | (with_reducible apply Sound.update; first | with_reducible assumption)
    | (extract_lets +onlyGivenNames x; refine (?_ : Sound qq x → _) ?_; intro _; clear_value x; rotate_left; subst x; rotate_left)
    | (extract_lets +onlyGivenNames x; subst x)
    | split
    | dsimp -zeta only


theorem compensate_sound {qq : List Instr} {s : State}  (h_s : Sound qq s) : Sound qq (compensate s) := by
  unfold compensate
  repeat' first
    | with_reducible assumption
    | intro _
    | with_reducible rfl
    | with_reducible apply Sound.ite
    | with_reducible apply each_sound
    | with_reducible apply refreshRate_sound
    | (with_reducible apply Sound.update; first | with_reducible assumption | with_reducible apply refreshRate_sound)
    | (extract_lets +onlyGivenNames x; refine (?_ : Sound qq x → _) ?_; intro _; clear_value x; rotate_left; subst x; rotate_left)
    | (extract_lets +onlyGivenNames x; subst x)
    | split
    | dsimp -zeta only


theorem execThermalCalibration_sound {qq : List Instr} {diodes : List DiodeReading} {ext : DiodeReading} {s : State}  (h_s : Sound qq s) : SoundOut qq (execThermalCalibration diodes ext s) := by
  unfold execThermalCalibration
  repeat' first
    | with_reducible assumption
    | intro _
    | with_reducible rfl
    | with_reducible apply Sound.ite
    | with_reducible apply each_sound
    | with_reducible apply SoundOut.next
    | with_reducible apply SoundOut.ite
    | with_reducible apply arm_sound
    | with_reducible apply each_sound
    | with_reducible apply takeReading_sound
    | with_reducible apply raise_sound
    | with_reducible apply startModel_sound
    | with_reducible apply calibrateExt_sound
    | with_reducible apply calibrateDie_sound
    | with_reducible apply noteHealth_sound
    | with_reducible apply countTimes_sound
    | with_reducible apply compensate_sound
    | with_reducible apply showSources_sound
    | (with_reducible apply Sound.update; first | with_reducible assumption | with_reducible apply arm_sound | with_reducible apply each_sound | with_reducible apply takeReading_sound | with_reducible apply raise_sound | with_reducible apply startModel_sound | with_reducible apply calibrateExt_sound | with_reducible apply calibrateDie_sound | with_reducible apply noteHealth_sound | with_reducible apply countTimes_sound | with_reducible apply compensate_sound | with_reducible apply showSources_sound)
    | (extract_lets +onlyGivenNames x; refine (?_ : Sound qq x → _) ?_; intro _; clear_value x; rotate_left; subst x; rotate_left)
    | (extract_lets +onlyGivenNames x; subst x)
    | split
    | dsimp -zeta only


theorem setLoopLevel_sound {qq : List Instr} {n : Nat} {s : State}  (h_s : Sound qq s) : Sound qq (setLoopLevel n s) := by
  unfold setLoopLevel
  repeat' first
    | with_reducible assumption
    | intro _
    | with_reducible rfl
    | with_reducible apply Sound.ite
    | with_reducible apply each_sound
    | with_reducible apply raise_sound
    | with_reducible apply refreshLevel_sound
    | (with_reducible apply Sound.update; first | with_reducible assumption | with_reducible apply raise_sound | with_reducible apply refreshLevel_sound)
    | (extract_lets +onlyGivenNames x; refine (?_ : Sound qq x → _) ?_; intro _; clear_value x; rotate_left; subst x; rotate_left)
    | (extract_lets +onlyGivenNames x; subst x)
    | split
    | dsimp -zeta only


theorem throttleUp_sound {qq : List Instr} {s : State}  (h_s : Sound qq s) : Sound qq (throttleUp s) := by
  unfold throttleUp
  repeat' first
    | with_reducible assumption
    | intro _
    | with_reducible rfl
    | with_reducible apply Sound.ite
    | with_reducible apply each_sound
    | with_reducible apply raise_sound
    | with_reducible apply setLoopLevel_sound
    | (with_reducible apply Sound.update; first | with_reducible assumption | with_reducible apply raise_sound | with_reducible apply setLoopLevel_sound)
    | (extract_lets +onlyGivenNames x; refine (?_ : Sound qq x → _) ?_; intro _; clear_value x; rotate_left; subst x; rotate_left)
    | (extract_lets +onlyGivenNames x; subst x)
    | split
    | dsimp -zeta only


theorem throttleDown_sound {qq : List Instr} {s : State}  (h_s : Sound qq s) : Sound qq (throttleDown s) := by
  unfold throttleDown
  repeat' first
    | with_reducible assumption
    | intro _
    | with_reducible rfl
    | with_reducible apply Sound.ite
    | with_reducible apply each_sound
    | with_reducible apply setLoopLevel_sound
    | with_reducible apply raise_sound
    | (with_reducible apply Sound.update; first | with_reducible assumption | with_reducible apply setLoopLevel_sound | with_reducible apply raise_sound)
    | (extract_lets +onlyGivenNames x; refine (?_ : Sound qq x → _) ?_; intro _; clear_value x; rotate_left; subst x; rotate_left)
    | (extract_lets +onlyGivenNames x; subst x)
    | split
    | dsimp -zeta only


theorem execThrottleTest_sound {qq : List Instr} {s : State}  (h_s : Sound qq s) : SoundOut qq (execThrottleTest s) := by
  unfold execThrottleTest
  repeat' first
    | with_reducible assumption
    | intro _
    | with_reducible rfl
    | with_reducible apply Sound.ite
    | with_reducible apply each_sound
    | with_reducible apply SoundOut.next
    | with_reducible apply SoundOut.ite
    | with_reducible apply arm_sound
    | with_reducible apply showLevel_sound
    | with_reducible apply throttleUp_sound
    | with_reducible apply throttleDown_sound
    | (with_reducible apply Sound.update; first | with_reducible assumption | with_reducible apply arm_sound | with_reducible apply showLevel_sound | with_reducible apply throttleUp_sound | with_reducible apply throttleDown_sound)
    | (extract_lets +onlyGivenNames x; refine (?_ : Sound qq x → _) ?_; intro _; clear_value x; rotate_left; subst x; rotate_left)
    | (extract_lets +onlyGivenNames x; subst x)
    | split
    | dsimp -zeta only


theorem execClockLevelEffective_sound {qq : List Instr} {s : State}  (h_s : Sound qq s) : SoundOut qq (execClockLevelEffective s) := by
  unfold execClockLevelEffective
  repeat' first
    | with_reducible assumption
    | intro _
    | with_reducible rfl
    | with_reducible apply Sound.ite
    | with_reducible apply each_sound
    | with_reducible apply SoundOut.next
    | with_reducible apply SoundOut.ite
    | (with_reducible apply Sound.update; first | with_reducible assumption)
    | (extract_lets +onlyGivenNames x; refine (?_ : Sound qq x → _) ?_; intro _; clear_value x; rotate_left; subst x; rotate_left)
    | (extract_lets +onlyGivenNames x; subst x)
    | split
    | dsimp -zeta only


end Sys2Proof.Machine
end

