-- ==== Sys2Proof/Laws/SoundReplay.lean ====
section
/-!
SUPPORT. Soundness through the operations of Machine/Replay.lean.
-/

set_option linter.all false

namespace Sys2Proof.Machine

theorem writeStamped_sound {qq : List Instr} {type : Nat} {body : Bytes} {s : State}  (h_s : Sound qq s) : Sound qq (writeStamped type body s) := by
  unfold writeStamped
  repeat' first
    | with_reducible assumption
    | intro _
    | with_reducible rfl
    | with_reducible apply Sound.ite
    | with_reducible apply each_sound
    | with_reducible apply request_sound
    | (with_reducible apply Sound.update; first | with_reducible assumption | with_reducible apply request_sound)
    | (extract_lets +onlyGivenNames x; refine (?_ : Sound qq x → _) ?_; intro _; clear_value x; rotate_left; subst x; rotate_left)
    | (extract_lets +onlyGivenNames x; subst x)
    | split
    | dsimp -zeta only


theorem writeCause_sound {qq : List Instr} {s : State}  (h_s : Sound qq s) : Sound qq (writeCause s) := by
  unfold writeCause
  repeat' first
    | with_reducible assumption
    | intro _
    | with_reducible rfl
    | with_reducible apply Sound.ite
    | with_reducible apply each_sound
    | with_reducible apply writeStamped_sound
    | (with_reducible apply Sound.update; first | with_reducible assumption | with_reducible apply writeStamped_sound)
    | (extract_lets +onlyGivenNames x; refine (?_ : Sound qq x → _) ?_; intro _; clear_value x; rotate_left; subst x; rotate_left)
    | (extract_lets +onlyGivenNames x; subst x)
    | split
    | dsimp -zeta only


theorem writeHeldFailure_sound {qq : List Instr} {s : State}  (h_s : Sound qq s) : Sound qq (writeHeldFailure s) := by
  unfold writeHeldFailure
  repeat' first
    | with_reducible assumption
    | intro _
    | with_reducible rfl
    | with_reducible apply Sound.ite
    | with_reducible apply each_sound
    | with_reducible apply writeStamped_sound
    | (with_reducible apply Sound.update; first | with_reducible assumption | with_reducible apply writeStamped_sound)
    | (extract_lets +onlyGivenNames x; refine (?_ : Sound qq x → _) ?_; intro _; clear_value x; rotate_left; subst x; rotate_left)
    | (extract_lets +onlyGivenNames x; subst x)
    | split
    | dsimp -zeta only


theorem writeInterrupted_sound {qq : List Instr} {b : Bool} {s : State}  (h_s : Sound qq s) : Sound qq (writeInterrupted b s) := by
  unfold writeInterrupted
  repeat' first
    | with_reducible assumption
    | intro _
    | with_reducible rfl
    | with_reducible apply Sound.ite
    | with_reducible apply each_sound
    | with_reducible apply writeStamped_sound
    | (with_reducible apply Sound.update; first | with_reducible assumption | with_reducible apply writeStamped_sound)
    | (extract_lets +onlyGivenNames x; refine (?_ : Sound qq x → _) ?_; intro _; clear_value x; rotate_left; subst x; rotate_left)
    | (extract_lets +onlyGivenNames x; subst x)
    | split
    | dsimp -zeta only


theorem writeManifestRecords_sound {qq : List Instr} {s : State}  (h_s : Sound qq s) : Sound qq (writeManifestRecords s) := by
  unfold writeManifestRecords
  repeat' first
    | with_reducible assumption
    | intro _
    | with_reducible rfl
    | with_reducible apply Sound.ite
    | with_reducible apply each_sound
    | with_reducible apply writeStamped_sound
    | with_reducible apply each_sound
    | (with_reducible apply Sound.update; first | with_reducible assumption | with_reducible apply writeStamped_sound | with_reducible apply each_sound)
    | (extract_lets +onlyGivenNames x; refine (?_ : Sound qq x → _) ?_; intro _; clear_value x; rotate_left; subst x; rotate_left)
    | (extract_lets +onlyGivenNames x; subst x)
    | split
    | dsimp -zeta only


theorem writePendingHalt_sound {qq : List Instr} {s : State}  (h_s : Sound qq s) : Sound qq (writePendingHalt s) := by
  unfold writePendingHalt
  repeat' first
    | with_reducible assumption
    | intro _
    | with_reducible rfl
    | with_reducible apply Sound.ite
    | with_reducible apply each_sound
    | with_reducible apply writeStamped_sound
    | (with_reducible apply Sound.update; first | with_reducible assumption | with_reducible apply writeStamped_sound)
    | (extract_lets +onlyGivenNames x; refine (?_ : Sound qq x → _) ?_; intro _; clear_value x; rotate_left; subst x; rotate_left)
    | (extract_lets +onlyGivenNames x; subst x)
    | split
    | dsimp -zeta only


theorem writeCleared_sound {qq : List Instr} {s : State}  (h_s : Sound qq s) : Sound qq (writeCleared s) := by
  unfold writeCleared
  repeat' first
    | with_reducible assumption
    | intro _
    | with_reducible rfl
    | with_reducible apply Sound.ite
    | with_reducible apply each_sound
    | with_reducible apply writeStamped_sound
    | with_reducible apply takeStamp_snd
    | (with_reducible refine takeStamp_sound (by assumption) ?_)
    | (with_reducible apply Sound.update; first | with_reducible assumption | with_reducible apply writeStamped_sound | with_reducible apply takeStamp_snd | (with_reducible refine takeStamp_sound (by assumption) ?_))
    | (extract_lets +onlyGivenNames x; refine (?_ : Sound qq x → _) ?_; intro _; clear_value x; rotate_left; subst x; rotate_left)
    | (extract_lets +onlyGivenNames x; subst x)
    | split
    | dsimp -zeta only


theorem writeStartRecords_sound {qq : List Instr} {s : State}  (h_s : Sound qq s) : Sound qq (writeStartRecords s) := by
  unfold writeStartRecords
  repeat' first
    | with_reducible assumption
    | intro _
    | with_reducible rfl
    | with_reducible apply Sound.ite
    | with_reducible apply each_sound
    | with_reducible apply writeHeldFailure_sound
    | with_reducible apply writeCause_sound
    | with_reducible apply writeManifestRecords_sound
    | with_reducible apply writeInterrupted_sound
    | with_reducible apply writePendingHalt_sound
    | with_reducible apply writeCleared_sound
    | (with_reducible apply Sound.update; first | with_reducible assumption | with_reducible apply writeHeldFailure_sound | with_reducible apply writeCause_sound | with_reducible apply writeManifestRecords_sound | with_reducible apply writeInterrupted_sound | with_reducible apply writePendingHalt_sound | with_reducible apply writeCleared_sound)
    | (extract_lets +onlyGivenNames x; refine (?_ : Sound qq x → _) ?_; intro _; clear_value x; rotate_left; subst x; rotate_left)
    | (extract_lets +onlyGivenNames x; subst x)
    | split
    | dsimp -zeta only


theorem mergeJournal_sound {qq : List Instr} {l : List StayRecord} {s : State}  (h_s : Sound qq s) : Sound qq (mergeJournal l s) := by
  unfold mergeJournal
  repeat' first
    | with_reducible assumption
    | intro _
    | with_reducible rfl
    | with_reducible apply Sound.ite
    | with_reducible apply each_sound
    | with_reducible apply each_sound
    | with_reducible apply onStripe_sound
    | (with_reducible apply Sound.update; first | with_reducible assumption | with_reducible apply each_sound | with_reducible apply onStripe_sound)
    | (extract_lets +onlyGivenNames x; refine (?_ : Sound qq x → _) ?_; intro _; clear_value x; rotate_left; subst x; rotate_left)
    | (extract_lets +onlyGivenNames x; subst x)
    | split
    | dsimp -zeta only


theorem reenter_sound {qq : List Instr} {s : State}  (h_s : Sound qq s) : Sound qq (reenter s) := by
  unfold reenter
  repeat' first
    | with_reducible assumption
    | intro _
    | with_reducible rfl
    | with_reducible apply Sound.ite
    | with_reducible apply each_sound
    | with_reducible apply rebuildWriteBuffer_sound
    | (with_reducible apply Sound.update; first | with_reducible assumption | with_reducible apply rebuildWriteBuffer_sound)
    | (extract_lets +onlyGivenNames x; refine (?_ : Sound qq x → _) ?_; intro _; clear_value x; rotate_left; subst x; rotate_left)
    | (extract_lets +onlyGivenNames x; subst x)
    | split
    | dsimp -zeta only


theorem loseUnits_sound {qq : List Instr} {units : List Nat} {s : State}  (h_s : Sound qq s) : Sound qq (loseUnits units s) := by
  unfold loseUnits
  repeat' first
    | with_reducible assumption
    | intro _
    | with_reducible rfl
    | with_reducible apply Sound.ite
    | with_reducible apply each_sound
    | with_reducible apply each_sound
    | with_reducible apply markUnreadable_sound
    | (with_reducible apply Sound.update; first | with_reducible assumption | with_reducible apply each_sound | with_reducible apply markUnreadable_sound)
    | (extract_lets +onlyGivenNames x; refine (?_ : Sound qq x → _) ?_; intro _; clear_value x; rotate_left; subst x; rotate_left)
    | (extract_lets +onlyGivenNames x; subst x)
    | split
    | dsimp -zeta only


theorem handleCut_sound {qq : List Instr} {bad : List Nat} {s : State}  (h_s : Sound qq s) : Sound qq (handleCut bad s) := by
  unfold handleCut
  repeat' first
    | with_reducible assumption
    | intro _
    | with_reducible rfl
    | with_reducible apply Sound.ite
    | with_reducible apply each_sound
    | with_reducible apply each_sound
    | with_reducible apply retireBlock_sound
    | with_reducible apply queueBlock_sound
    | (with_reducible apply Sound.update; first | with_reducible assumption | with_reducible apply each_sound | with_reducible apply retireBlock_sound | with_reducible apply queueBlock_sound)
    | (extract_lets +onlyGivenNames x; refine (?_ : Sound qq x → _) ?_; intro _; clear_value x; rotate_left; subst x; rotate_left)
    | (extract_lets +onlyGivenNames x; subst x)
    | split
    | dsimp -zeta only


theorem showFlush_sound {qq : List Instr} {i : SpillImage} {n : Nat} {s : State}  (h_s : Sound qq s) : Sound qq (showFlush i n s) := by
  unfold showFlush
  repeat' first
    | with_reducible assumption
    | intro _
    | with_reducible rfl
    | with_reducible apply Sound.ite
    | with_reducible apply each_sound
    | (with_reducible apply Sound.update; first | with_reducible assumption)
    | (extract_lets +onlyGivenNames x; refine (?_ : Sound qq x → _) ?_; intro _; clear_value x; rotate_left; subst x; rotate_left)
    | (extract_lets +onlyGivenNames x; subst x)
    | split
    | dsimp -zeta only


theorem replayImage_sound {qq : List Instr} {i : SpillImage} {bad : List Nat} {s : State}  (h_s : Sound qq s) : Sound qq (replayImage i bad s) := by
  unfold replayImage
  repeat' first
    | with_reducible assumption
    | intro _
    | with_reducible rfl
    | with_reducible apply Sound.ite
    | with_reducible apply each_sound
    | with_reducible apply mergeJournal_sound
    | with_reducible apply showFlush_sound
    | with_reducible apply loseUnits_sound
    | with_reducible apply shroudLost_sound
    | (with_reducible apply Sound.update; first | with_reducible assumption | with_reducible apply mergeJournal_sound | with_reducible apply showFlush_sound | with_reducible apply loseUnits_sound | with_reducible apply shroudLost_sound)
    | (extract_lets +onlyGivenNames x; refine (?_ : Sound qq x → _) ?_; intro _; clear_value x; rotate_left; subst x; rotate_left)
    | (extract_lets +onlyGivenNames x; subst x)
    | split
    | dsimp -zeta only


theorem eraseSet_sound {qq : List Instr} {k : Nat} {s : State}  (h_s : Sound qq s) : Sound qq (eraseSet k s) := by
  unfold eraseSet
  repeat' first
    | with_reducible assumption
    | intro _
    | with_reducible rfl
    | with_reducible apply Sound.ite
    | with_reducible apply each_sound
    | with_reducible apply each_sound
    | with_reducible apply onBlock_sound
    | (with_reducible apply Sound.update; first | with_reducible assumption | with_reducible apply each_sound | with_reducible apply onBlock_sound)
    | (extract_lets +onlyGivenNames x; refine (?_ : Sound qq x → _) ?_; intro _; clear_value x; rotate_left; subst x; rotate_left)
    | (extract_lets +onlyGivenNames x; subst x)
    | split
    | dsimp -zeta only


theorem replayShroud_sound {qq : List Instr} {bad : List Nat} {cutBlocks : List Nat} {s : State}  (h_s : Sound qq s) : Sound qq (replayShroud bad cutBlocks s) := by
  unfold replayShroud
  repeat' first
    | with_reducible assumption
    | intro _
    | with_reducible rfl
    | with_reducible apply Sound.ite
    | with_reducible apply each_sound
    | with_reducible apply loseUnits_sound
    | with_reducible apply shroudLost_sound
    | with_reducible apply replayImage_sound
    | with_reducible apply reenter_sound
    | with_reducible apply handleCut_sound
    | with_reducible apply each_sound
    | with_reducible apply eraseSet_sound
    | with_reducible apply appendBuilt_sound
    | with_reducible apply pageRecord_sound
    | (with_reducible apply Sound.update; first | with_reducible assumption | with_reducible apply loseUnits_sound | with_reducible apply shroudLost_sound | with_reducible apply replayImage_sound | with_reducible apply reenter_sound | with_reducible apply handleCut_sound | with_reducible apply each_sound | with_reducible apply eraseSet_sound | with_reducible apply appendBuilt_sound | with_reducible apply pageRecord_sound)
    | (extract_lets +onlyGivenNames x; refine (?_ : Sound qq x → _) ?_; intro _; clear_value x; rotate_left; subst x; rotate_left)
    | (extract_lets +onlyGivenNames x; subst x)
    | split
    | dsimp -zeta only


theorem dropSuperseded_sound {qq : List Instr} {s : State} {l : List Scanned} {t : State} (h : Sound qq t) :
    Sound qq (dropSuperseded s l t) := by
  induction l generalizing t with
  | nil => unfold dropSuperseded; exact h
  | cons c l ih =>
    unfold dropSuperseded
    extract_lets +onlyGivenNames later u
    apply ih
    subst u
    repeat' first
      | with_reducible assumption
      | intro _
      | with_reducible apply Sound.ite
      | with_reducible apply releaseSliceUnits_sound
      | with_reducible apply each_sound
      | with_reducible apply holdMapRecord_sound
      | with_reducible apply leaveRecord_sound
      | (with_reducible apply Sound.update; with_reducible assumption)
      | (extract_lets +onlyGivenNames x; subst x)
      | split
      | with_reducible rfl

theorem applyScanned_sound {qq : List Instr} {h : Nat} {c : Scanned} {s : State}  (h_s : Sound qq s) : Sound qq (applyScanned h c s) := by
  unfold applyScanned
  repeat' first
    | with_reducible assumption
    | intro _
    | with_reducible rfl
    | with_reducible apply Sound.ite
    | with_reducible apply each_sound
    | with_reducible apply raiseHorizon_sound
    | with_reducible apply setUnit_sound
    | with_reducible apply each_sound
    | with_reducible apply applyRecord_sound
    | (with_reducible apply Sound.update; first | with_reducible assumption | with_reducible apply raiseHorizon_sound | with_reducible apply setUnit_sound | with_reducible apply each_sound | with_reducible apply applyRecord_sound)
    | (extract_lets +onlyGivenNames x; refine (?_ : Sound qq x → _) ?_; intro _; clear_value x; rotate_left; subst x; rotate_left)
    | (extract_lets +onlyGivenNames x; subst x)
    | split
    | dsimp -zeta only


theorem rebuildDirectory_sound {qq : List Instr} {s : State}  (h_s : Sound qq s) : Sound qq (rebuildDirectory s) := by
  unfold rebuildDirectory
  repeat' first
    | with_reducible assumption
    | intro _
    | with_reducible rfl
    | with_reducible apply Sound.ite
    | with_reducible apply each_sound
    | (with_reducible apply Sound.update; first | with_reducible assumption)
    | (extract_lets +onlyGivenNames x; refine (?_ : Sound qq x → _) ?_; intro _; clear_value x; rotate_left; subst x; rotate_left)
    | (extract_lets +onlyGivenNames x; subst x)
    | split
    | dsimp -zeta only


theorem rebuildChunks_sound {qq : List Instr} {base : Tab (Nat × Nat)} {s : State}  (h_s : Sound qq s) : Sound qq (rebuildChunks base s) := by
  unfold rebuildChunks
  repeat' first
    | with_reducible assumption
    | intro _
    | with_reducible rfl
    | with_reducible apply Sound.ite
    | with_reducible apply each_sound
    | (with_reducible apply Sound.update; first | with_reducible assumption)
    | (extract_lets +onlyGivenNames x; refine (?_ : Sound qq x → _) ?_; intro _; clear_value x; rotate_left; subst x; rotate_left)
    | (extract_lets +onlyGivenNames x; subst x)
    | split
    | dsimp -zeta only


theorem markApplied_sound {qq : List Instr} {s : State}  (h_s : Sound qq s) : Sound qq (markApplied s) := by
  unfold markApplied
  repeat' first
    | with_reducible assumption
    | intro _
    | with_reducible rfl
    | with_reducible apply Sound.ite
    | with_reducible apply each_sound
    | with_reducible apply each_sound
    | with_reducible apply leaveRecord_sound
    | (with_reducible apply Sound.update; first | with_reducible assumption | with_reducible apply each_sound | with_reducible apply leaveRecord_sound)
    | (extract_lets +onlyGivenNames x; refine (?_ : Sound qq x → _) ?_; intro _; clear_value x; rotate_left; subst x; rotate_left)
    | (extract_lets +onlyGivenNames x; subst x)
    | split
    | dsimp -zeta only


theorem loadWear_sound {qq : List Instr} {unclean : Bool} {s : State}  (h_s : Sound qq s) : Sound qq (loadWear unclean s) := by
  unfold loadWear
  repeat' first
    | with_reducible assumption
    | intro _
    | with_reducible rfl
    | with_reducible apply Sound.ite
    | with_reducible apply each_sound
    | (with_reducible apply Sound.update; first | with_reducible assumption)
    | (extract_lets +onlyGivenNames x; refine (?_ : Sound qq x → _) ?_; intro _; clear_value x; rotate_left; subst x; rotate_left)
    | (extract_lets +onlyGivenNames x; subst x)
    | split
    | dsimp -zeta only


theorem loseSummary_sound {qq : List Instr} {serial : Nat} {s : State}  (h_s : Sound qq s) : Sound qq (loseSummary serial s) := by
  unfold loseSummary
  repeat' first
    | with_reducible assumption
    | intro _
    | with_reducible rfl
    | with_reducible apply Sound.ite
    | with_reducible apply each_sound
    | with_reducible apply onStripe_sound
    | with_reducible apply fatalCondition_sound
    | (with_reducible apply Sound.update; first | with_reducible assumption | with_reducible apply onStripe_sound | with_reducible apply fatalCondition_sound)
    | (extract_lets +onlyGivenNames x; refine (?_ : Sound qq x → _) ?_; intro _; clear_value x; rotate_left; subst x; rotate_left)
    | (extract_lets +onlyGivenNames x; subst x)
    | split
    | dsimp -zeta only


theorem stampScan_sound {qq : List Instr} {c : Option Checkpoint} {lost : List Nat} {s : State}  (h_s : Sound qq s) : Sound qq (stampScan c lost s) := by
  unfold stampScan
  repeat' first
    | with_reducible assumption
    | intro _
    | with_reducible rfl
    | with_reducible apply Sound.ite
    | with_reducible apply each_sound
    | with_reducible apply each_sound
    | with_reducible apply loseSummary_sound
    | with_reducible apply dropSuperseded_sound
    | with_reducible apply applyScanned_sound
    | (with_reducible apply Sound.update; first | with_reducible assumption | with_reducible apply each_sound | with_reducible apply loseSummary_sound | with_reducible apply dropSuperseded_sound | with_reducible apply applyScanned_sound)
    | (extract_lets +onlyGivenNames x; refine (?_ : Sound qq x → _) ?_; intro _; clear_value x; rotate_left; subst x; rotate_left)
    | (extract_lets +onlyGivenNames x; subst x)
    | split
    | dsimp -zeta only


theorem scanMismatch_sound {qq : List Instr} {s : State}  (h_s : Sound qq s) : Sound qq (scanMismatch s) := by
  unfold scanMismatch
  repeat' first
    | with_reducible assumption
    | intro _
    | with_reducible rfl
    | with_reducible apply Sound.ite
    | with_reducible apply each_sound
    | with_reducible apply takeError_sound
    | with_reducible apply fatalCondition_sound
    | (with_reducible apply Sound.update; first | with_reducible assumption | with_reducible apply takeError_sound | with_reducible apply fatalCondition_sound)
    | (extract_lets +onlyGivenNames x; refine (?_ : Sound qq x → _) ?_; intro _; clear_value x; rotate_left; subst x; rotate_left)
    | (extract_lets +onlyGivenNames x; subst x)
    | split
    | dsimp -zeta only


theorem loadTable_sound {qq : List Instr} {r : StartReport} {s : State}  (h_s : Sound qq s) : Sound qq (loadTable r s) := by
  unfold loadTable
  repeat' first
    | with_reducible assumption
    | intro _
    | with_reducible rfl
    | with_reducible apply Sound.ite
    | with_reducible apply each_sound
    | with_reducible apply rebuildDirectory_sound
    | with_reducible apply rebuildChunks_sound
    | with_reducible apply loadWear_sound
    | with_reducible apply markApplied_sound
    | with_reducible apply raise_sound
    | with_reducible apply stampScan_sound
    | with_reducible apply scanMismatch_sound
    | (with_reducible apply Sound.update; first | with_reducible assumption | with_reducible apply rebuildDirectory_sound | with_reducible apply rebuildChunks_sound | with_reducible apply loadWear_sound | with_reducible apply markApplied_sound | with_reducible apply raise_sound | with_reducible apply stampScan_sound | with_reducible apply scanMismatch_sound)
    | (extract_lets +onlyGivenNames x; refine (?_ : Sound qq x → _) ?_; intro _; clear_value x; rotate_left; subst x; rotate_left)
    | (extract_lets +onlyGivenNames x; subst x)
    | split
    | dsimp -zeta only


end Sys2Proof.Machine
end

