-- ==== Sys2Proof/Laws/SoundEngines.lean ====
section
/-!
SUPPORT. Soundness through the operations of Machine/Engines.lean.
-/

set_option linter.all false

namespace Sys2Proof.Machine

theorem flagFault_sound {qq : List Instr} {s : State}  (h_s : Sound qq s) : Sound qq (flagFault s) := by
  unfold flagFault
  repeat' first
    | with_reducible assumption
    | intro _
    | with_reducible rfl
    | with_reducible apply Sound.ite
    | with_reducible apply each_sound
    | with_reducible apply takeError_sound
    | (with_reducible apply Sound.update; first | with_reducible assumption | with_reducible apply takeError_sound)
    | (extract_lets +onlyGivenNames x; refine (?_ : Sound qq x → _) ?_; intro _; clear_value x; rotate_left; subst x; rotate_left)
    | (extract_lets +onlyGivenNames x; subst x)
    | split
    | dsimp -zeta only


theorem freeLane_sound {qq : List Instr} {lane : Nat} {s : State}  (h_s : Sound qq s) : Sound qq (freeLane lane s) := by
  unfold freeLane
  repeat' first
    | with_reducible assumption
    | intro _
    | with_reducible rfl
    | with_reducible apply Sound.ite
    | with_reducible apply each_sound
    | (with_reducible apply Sound.update; first | with_reducible assumption)
    | (extract_lets +onlyGivenNames x; refine (?_ : Sound qq x → _) ?_; intro _; clear_value x; rotate_left; subst x; rotate_left)
    | (extract_lets +onlyGivenNames x; subst x)
    | split
    | dsimp -zeta only


theorem messageSealed_sound {qq : List Instr} {lane : Nat} {m : GcmMessage} {s : State}  (h_s : Sound qq s) : Sound qq (messageSealed lane m s) := by
  unfold messageSealed
  repeat' first
    | with_reducible assumption
    | intro _
    | with_reducible rfl
    | with_reducible apply Sound.ite
    | with_reducible apply each_sound
    | with_reducible apply takeNonce_snd
    | (with_reducible refine takeNonce_sound (by assumption) ?_)
    | with_reducible apply watchNonces_sound
    | with_reducible apply askArray_sound
    | (with_reducible apply Sound.update; first | with_reducible assumption | with_reducible apply takeNonce_snd | (with_reducible refine takeNonce_sound (by assumption) ?_) | with_reducible apply watchNonces_sound | with_reducible apply askArray_sound)
    | (extract_lets +onlyGivenNames x; refine (?_ : Sound qq x → _) ?_; intro _; clear_value x; rotate_left; subst x; rotate_left)
    | (extract_lets +onlyGivenNames x; subst x)
    | split
    | dsimp -zeta only


theorem messageOpened_sound {qq : List Instr} {a : Bool} {n : Bool} {s : State}  (h_s : Sound qq s) : Sound qq (messageOpened a n s) := by
  unfold messageOpened
  repeat' first
    | with_reducible assumption
    | intro _
    | with_reducible rfl
    | with_reducible apply Sound.ite
    | with_reducible apply each_sound
    | with_reducible apply flagFault_sound
    | (with_reducible apply Sound.update; first | with_reducible assumption | with_reducible apply flagFault_sound)
    | (extract_lets +onlyGivenNames x; refine (?_ : Sound qq x → _) ?_; intro _; clear_value x; rotate_left; subst x; rotate_left)
    | (extract_lets +onlyGivenNames x; subst x)
    | split
    | dsimp -zeta only


theorem execGcmMessageDone_sound {qq : List Instr} {lane : Nat} {auth : Bool} {auth_n : Bool} {s : State}  (h_s : Sound qq s) : SoundOut qq (execGcmMessageDone lane auth auth_n s) := by
  unfold execGcmMessageDone
  repeat' first
    | with_reducible assumption
    | intro _
    | with_reducible rfl
    | with_reducible apply Sound.ite
    | with_reducible apply each_sound
    | with_reducible apply SoundOut.next
    | with_reducible apply SoundOut.ite
    | with_reducible apply freeLane_sound
    | with_reducible apply messageSealed_sound
    | with_reducible apply messageOpened_sound
    | (with_reducible apply Sound.update; first | with_reducible assumption | with_reducible apply freeLane_sound | with_reducible apply messageSealed_sound | with_reducible apply messageOpened_sound)
    | (extract_lets +onlyGivenNames x; refine (?_ : Sound qq x → _) ?_; intro _; clear_value x; rotate_left; subst x; rotate_left)
    | (extract_lets +onlyGivenNames x; subst x)
    | split
    | dsimp -zeta only


theorem checkFailed_sound {qq : List Instr} {u : EngineUse} {s : State}  (h_s : Sound qq s) : Sound qq (checkFailed u s) := by
  unfold checkFailed
  repeat' first
    | with_reducible assumption
    | intro _
    | with_reducible rfl
    | with_reducible apply Sound.ite
    | with_reducible apply each_sound
    | with_reducible apply endInstall_sound
    | with_reducible apply cutArray_sound
    | with_reducible apply failUpdate_sound
    | (with_reducible apply Sound.update; first | with_reducible assumption | with_reducible apply endInstall_sound | with_reducible apply cutArray_sound | with_reducible apply failUpdate_sound)
    | (extract_lets +onlyGivenNames x; refine (?_ : Sound qq x → _) ?_; intro _; clear_value x; rotate_left; subst x; rotate_left)
    | (extract_lets +onlyGivenNames x; subst x)
    | split
    | dsimp -zeta only


theorem freeDigest_sound {qq : List Instr} {c : Nat} {s : State}  (h_s : Sound qq s) : Sound qq (freeDigest c s) := by
  unfold freeDigest
  repeat' first
    | with_reducible assumption
    | intro _
    | with_reducible rfl
    | with_reducible apply Sound.ite
    | with_reducible apply each_sound
    | with_reducible apply askDigest_sound
    | (with_reducible apply Sound.update; first | with_reducible assumption | with_reducible apply askDigest_sound)
    | (extract_lets +onlyGivenNames x; refine (?_ : Sound qq x → _) ?_; intro _; clear_value x; rotate_left; subst x; rotate_left)
    | (extract_lets +onlyGivenNames x; subst x)
    | split
    | dsimp -zeta only


theorem execDigestDone_sound {qq : List Instr} {context : Nat} {same : Bool} {same_n : Bool} {s : State}  (h_s : Sound qq s) : SoundOut qq (execDigestDone context same same_n s) := by
  unfold execDigestDone
  repeat' first
    | with_reducible assumption
    | intro _
    | with_reducible rfl
    | with_reducible apply Sound.ite
    | with_reducible apply each_sound
    | with_reducible apply SoundOut.next
    | with_reducible apply SoundOut.ite
    | with_reducible apply freeDigest_sound
    | with_reducible apply flagFault_sound
    | with_reducible apply checkFailed_sound
    | (with_reducible apply Sound.update; first | with_reducible assumption | with_reducible apply freeDigest_sound | with_reducible apply flagFault_sound | with_reducible apply checkFailed_sound)
    | (extract_lets +onlyGivenNames x; refine (?_ : Sound qq x → _) ?_; intro _; clear_value x; rotate_left; subst x; rotate_left)
    | (extract_lets +onlyGivenNames x; subst x)
    | split
    | dsimp -zeta only


theorem execSignatureVerifyDone_sound {qq : List Instr} {valid : Bool} {valid_n : Bool} {s : State}  (h_s : Sound qq s) : SoundOut qq (execSignatureVerifyDone valid valid_n s) := by
  unfold execSignatureVerifyDone
  repeat' first
    | with_reducible assumption
    | intro _
    | with_reducible rfl
    | with_reducible apply Sound.ite
    | with_reducible apply each_sound
    | with_reducible apply SoundOut.next
    | with_reducible apply SoundOut.ite
    | with_reducible apply flagFault_sound
    | with_reducible apply checkFailed_sound
    | (with_reducible apply Sound.update; first | with_reducible assumption | with_reducible apply flagFault_sound | with_reducible apply checkFailed_sound)
    | (extract_lets +onlyGivenNames x; refine (?_ : Sound qq x → _) ?_; intro _; clear_value x; rotate_left; subst x; rotate_left)
    | (extract_lets +onlyGivenNames x; subst x)
    | split
    | dsimp -zeta only


theorem execErrorHandlingEnd_sound {q : List Instr} {s : State} (h : Sound q s) : SoundOut q (execErrorHandlingEnd s) := by
  obtain ⟨a, b, r, d, l⟩ := h
  refine .next ⟨a, b, r, ?_, l⟩
  simp only [State.handlerWf, Bool.and_eq_true] at d ⊢
  cases h0 : s.events.slot0 <;> cases h1 : s.events.slot1 <;> cases h2 : s.events.held <;> simp_all

theorem beginPass_sound {qq : List Instr} {range : Nat} {s : State}  (h_s : Sound qq s) : Sound qq (beginPass range s) := by
  unfold beginPass
  repeat' first
    | with_reducible assumption
    | intro _
    | with_reducible rfl
    | with_reducible apply Sound.ite
    | with_reducible apply each_sound
    | with_reducible apply arm_sound
    | with_reducible apply request_sound
    | (with_reducible apply Sound.update; first | with_reducible assumption | with_reducible apply arm_sound | with_reducible apply request_sound)
    | (extract_lets +onlyGivenNames x; refine (?_ : Sound qq x → _) ?_; intro _; clear_value x; rotate_left; subst x; rotate_left)
    | (extract_lets +onlyGivenNames x; subst x)
    | split
    | dsimp -zeta only


theorem execScrubPassStart_sound {qq : List Instr} {range : Nat} {s : State}  (h_s : Sound qq s) : SoundOut qq (execScrubPassStart range s) := by
  unfold execScrubPassStart
  repeat' first
    | with_reducible assumption
    | intro _
    | with_reducible rfl
    | with_reducible apply Sound.ite
    | with_reducible apply each_sound
    | with_reducible apply SoundOut.next
    | with_reducible apply SoundOut.ite
    | with_reducible apply disarm_sound
    | with_reducible apply beginPass_sound
    | (with_reducible apply Sound.update; first | with_reducible assumption | with_reducible apply disarm_sound | with_reducible apply beginPass_sound)
    | (extract_lets +onlyGivenNames x; refine (?_ : Sound qq x → _) ?_; intro _; clear_value x; rotate_left; subst x; rotate_left)
    | (extract_lets +onlyGivenNames x; subst x)
    | split
    | dsimp -zeta only


theorem endPass_sound {qq : List Instr} {range : Nat} {p : ScrubPass} {s : State}  (h_s : Sound qq s) : Sound qq (endPass range p s) := by
  unfold endPass
  repeat' first
    | with_reducible assumption
    | intro _
    | with_reducible rfl
    | with_reducible apply Sound.ite
    | with_reducible apply each_sound
    | with_reducible apply takeStamp_snd
    | (with_reducible refine takeStamp_sound (by assumption) ?_)
    | with_reducible apply uncorrectable_sound
    | with_reducible apply deliver_sound
    | with_reducible apply raise_sound
    | with_reducible apply beginPass_sound
    | (with_reducible apply Sound.update; first | with_reducible assumption | with_reducible apply takeStamp_snd | (with_reducible refine takeStamp_sound (by assumption) ?_) | with_reducible apply uncorrectable_sound | with_reducible apply deliver_sound | with_reducible apply raise_sound | with_reducible apply beginPass_sound)
    | (extract_lets +onlyGivenNames x; refine (?_ : Sound qq x → _) ?_; intro _; clear_value x; rotate_left; subst x; rotate_left)
    | (extract_lets +onlyGivenNames x; subst x)
    | split
    | dsimp -zeta only


theorem countEcc_sound {qq : List Instr} {memory : Nat} {ue : Bool} {s : State}  (h_s : Sound qq s) : Sound qq (countEcc memory ue s) := by
  unfold countEcc
  repeat' first
    | with_reducible assumption
    | intro _
    | with_reducible rfl
    | with_reducible apply Sound.ite
    | with_reducible apply each_sound
    | (with_reducible apply Sound.update; first | with_reducible assumption)
    | (extract_lets +onlyGivenNames x; refine (?_ : Sound qq x → _) ?_; intro _; clear_value x; rotate_left; subst x; rotate_left)
    | (extract_lets +onlyGivenNames x; subst x)
    | split
    | dsimp -zeta only


theorem wordCorrected_sound {qq : List Instr} {range : Nat} {a : Nat} {s : State}  (h_s : Sound qq s) : Sound qq (wordCorrected range a s) := by
  unfold wordCorrected
  repeat' first
    | with_reducible assumption
    | intro _
    | with_reducible rfl
    | with_reducible apply Sound.ite
    | with_reducible apply each_sound
    | with_reducible apply countEcc_sound
    | with_reducible apply raise_sound
    | (with_reducible apply Sound.update; first | with_reducible assumption | with_reducible apply countEcc_sound | with_reducible apply raise_sound)
    | (extract_lets +onlyGivenNames x; refine (?_ : Sound qq x → _) ?_; intro _; clear_value x; rotate_left; subst x; rotate_left)
    | (extract_lets +onlyGivenNames x; subst x)
    | split
    | dsimp -zeta only


theorem dropSource_sound {qq : List Instr} {u : HeldUnit} {s : State}  (h_s : Sound qq s) : Sound qq (dropSource u s) := by
  unfold dropSource
  repeat' first
    | with_reducible assumption
    | intro _
    | with_reducible rfl
    | with_reducible apply Sound.ite
    | with_reducible apply each_sound
    | with_reducible apply onStripe_sound
    | (with_reducible apply Sound.update; first | with_reducible assumption | with_reducible apply onStripe_sound)
    | (extract_lets +onlyGivenNames x; refine (?_ : Sound qq x → _) ?_; intro _; clear_value x; rotate_left; subst x; rotate_left)
    | (extract_lets +onlyGivenNames x; subst x)
    | split
    | dsimp -zeta only


theorem loseHeld_sound {qq : List Instr} {i : Nat} {s : State}  (h_s : Sound qq s) : Sound qq (loseHeld i s) := by
  unfold loseHeld
  repeat' first
    | with_reducible assumption
    | intro _
    | with_reducible rfl
    | with_reducible apply Sound.ite
    | with_reducible apply each_sound
    | with_reducible apply dropSource_sound
    | with_reducible apply releaseSliceUnits_sound
    | with_reducible apply placeRecord_snd
    | (with_reducible refine placeRecord_sound (by assumption) ?_)
    | with_reducible apply holdMapRecord_sound
    | with_reducible apply shroudLost_sound
    | (with_reducible apply Sound.update; first | with_reducible assumption | with_reducible apply dropSource_sound | with_reducible apply releaseSliceUnits_sound | with_reducible apply placeRecord_snd | (with_reducible refine placeRecord_sound (by assumption) ?_) | with_reducible apply holdMapRecord_sound | with_reducible apply shroudLost_sound)
    | (extract_lets +onlyGivenNames x; refine (?_ : Sound qq x → _) ?_; intro _; clear_value x; rotate_left; subst x; rotate_left)
    | (extract_lets +onlyGivenNames x; subst x)
    | split
    | dsimp -zeta only


theorem rereadCopy_sound {qq : List Instr} {i : Nat} {s : State}  (h_s : Sound qq s) : Sound qq (rereadCopy i s) := by
  unfold rereadCopy
  repeat' first
    | with_reducible assumption
    | intro _
    | with_reducible rfl
    | with_reducible apply Sound.ite
    | with_reducible apply each_sound
    | with_reducible apply readCopy_sound
    | (with_reducible apply Sound.update; first | with_reducible assumption | with_reducible apply readCopy_sound)
    | (extract_lets +onlyGivenNames x; refine (?_ : Sound qq x → _) ?_; intro _; clear_value x; rotate_left; subst x; rotate_left)
    | (extract_lets +onlyGivenNames x; subst x)
    | split
    | dsimp -zeta only


theorem rereadPage_sound {qq : List Instr} {page : Nat} {s : State}  (h_s : Sound qq s) : Sound qq (rereadPage page s) := by
  unfold rereadPage
  repeat' first
    | with_reducible assumption
    | intro _
    | with_reducible rfl
    | with_reducible apply Sound.ite
    | with_reducible apply each_sound
    | with_reducible apply readPage_sound
    | (with_reducible apply Sound.update; first | with_reducible assumption | with_reducible apply readPage_sound)
    | (extract_lets +onlyGivenNames x; refine (?_ : Sound qq x → _) ?_; intro _; clear_value x; rotate_left; subst x; rotate_left)
    | (extract_lets +onlyGivenNames x; subst x)
    | split
    | dsimp -zeta only


theorem rebuildReef_sound {qq : List Instr} {reef : Nat} {s : State}  (h_s : Sound qq s) : Sound qq (rebuildReef reef s) := by
  unfold rebuildReef
  repeat' first
    | with_reducible assumption
    | intro _
    | with_reducible rfl
    | with_reducible apply Sound.ite
    | with_reducible apply each_sound
    | with_reducible apply raise_sound
    | with_reducible apply markRange_sound
    | (with_reducible apply Sound.update; first | with_reducible assumption | with_reducible apply raise_sound | with_reducible apply markRange_sound)
    | (extract_lets +onlyGivenNames x; refine (?_ : Sound qq x → _) ?_; intro _; clear_value x; rotate_left; subst x; rotate_left)
    | (extract_lets +onlyGivenNames x; subst x)
    | split
    | dsimp -zeta only


theorem wordLost_sound {qq : List Instr} {row : Nat} {subject : Nat} {s : State}  (h_s : Sound qq s) : Sound qq (wordLost row subject s) := by
  unfold wordLost
  repeat' first
    | with_reducible assumption
    | intro _
    | with_reducible rfl
    | with_reducible apply Sound.ite
    | with_reducible apply each_sound
    | with_reducible apply afterEnded_sound
    | with_reducible apply failEntry_sound
    | with_reducible apply raise_sound
    | with_reducible apply loseHeld_sound
    | with_reducible apply rereadCopy_sound
    | with_reducible apply rereadPage_sound
    | with_reducible apply rebuildReef_sound
    | with_reducible apply each_sound
    | with_reducible apply setCfs_sound
    | (with_reducible apply Sound.update; first | with_reducible assumption | with_reducible apply afterEnded_sound | with_reducible apply failEntry_sound | with_reducible apply raise_sound | with_reducible apply loseHeld_sound | with_reducible apply rereadCopy_sound | with_reducible apply rereadPage_sound | with_reducible apply rebuildReef_sound | with_reducible apply each_sound | with_reducible apply setCfs_sound)
    | (extract_lets +onlyGivenNames x; refine (?_ : Sound qq x → _) ?_; intro _; clear_value x; rotate_left; subst x; rotate_left)
    | (extract_lets +onlyGivenNames x; subst x)
    | split
    | dsimp -zeta only


theorem wordUncorrectable_sound {qq : List Instr} {range : Nat} {a : Nat} {row : Nat} {subject : Nat} {s : State}  (h_s : Sound qq s) : Sound qq (wordUncorrectable range a row subject s) := by
  unfold wordUncorrectable
  repeat' first
    | with_reducible assumption
    | intro _
    | with_reducible rfl
    | with_reducible apply Sound.ite
    | with_reducible apply each_sound
    | with_reducible apply countEcc_sound
    | with_reducible apply request_sound
    | with_reducible apply takeCommandError_sound
    | with_reducible apply takeError_sound
    | with_reducible apply settleMedia_sound
    | with_reducible apply wordLost_sound
    | (with_reducible apply Sound.update; first | with_reducible assumption | with_reducible apply countEcc_sound | with_reducible apply request_sound | with_reducible apply takeCommandError_sound | with_reducible apply takeError_sound | with_reducible apply settleMedia_sound | with_reducible apply wordLost_sound)
    | (extract_lets +onlyGivenNames x; refine (?_ : Sound qq x → _) ?_; intro _; clear_value x; rotate_left; subst x; rotate_left)
    | (extract_lets +onlyGivenNames x; subst x)
    | split
    | dsimp -zeta only


theorem execScrubWordRead_sound {qq : List Instr} {range : Nat} {address : Nat} {valid : Bool} {outcome : EccOutcome} {s : State}  (h_s : Sound qq s) : SoundOut qq (execScrubWordRead range address valid outcome s) := by
  unfold execScrubWordRead
  repeat' first
    | with_reducible assumption
    | intro _
    | with_reducible rfl
    | with_reducible apply Sound.ite
    | with_reducible apply each_sound
    | with_reducible apply SoundOut.next
    | with_reducible apply SoundOut.ite
    | with_reducible apply endPass_sound
    | with_reducible apply wordCorrected_sound
    | with_reducible apply uncorrectable_sound
    | with_reducible apply wordUncorrectable_sound
    | (with_reducible apply Sound.update; first | with_reducible assumption | with_reducible apply endPass_sound | with_reducible apply wordCorrected_sound | with_reducible apply uncorrectable_sound | with_reducible apply wordUncorrectable_sound)
    | (extract_lets +onlyGivenNames x; refine (?_ : Sound qq x → _) ?_; intro _; clear_value x; rotate_left; subst x; rotate_left)
    | (extract_lets +onlyGivenNames x; subst x)
    | split
    | dsimp -zeta only


end Sys2Proof.Machine
end

