-- ==== Sys2Proof/Laws/SoundRegMap.lean ====
section
/-!
SUPPORT. Soundness through the operations of Machine/RegMap.lean.
-/

set_option linter.all false

namespace Sys2Proof.Machine

theorem writeCamp_sound {qq : List Instr} {v : Nat} {o : Nat} {s : State}  (h_s : Sound qq s) : Sound qq (writeCamp v o s) := by
  unfold writeCamp
  repeat' first
    | with_reducible assumption
    | intro _
    | with_reducible rfl
    | with_reducible apply Sound.ite
    | with_reducible apply each_sound
    | (with_reducible apply Sound.update; first | with_reducible assumption)
    | (extract_lets +onlyGivenNames x; refine (?_ : Sound qq x → _) ?_; intro _; clear_value x; rotate_left; subst x; rotate_left)
    | (extract_lets +onlyGivenNames x; subst x)
    | split
    | dsimp -zeta only


theorem writePad_sound {qq : List Instr} {v : Nat} {o : Nat} {s : State}  (h_s : Sound qq s) : Sound qq (writePad v o s) := by
  unfold writePad
  repeat' first
    | with_reducible assumption
    | intro _
    | with_reducible rfl
    | with_reducible apply Sound.ite
    | with_reducible apply each_sound
    | (with_reducible apply Sound.update; first | with_reducible assumption)
    | (extract_lets +onlyGivenNames x; refine (?_ : Sound qq x → _) ?_; intro _; clear_value x; rotate_left; subst x; rotate_left)
    | (extract_lets +onlyGivenNames x; subst x)
    | split
    | dsimp -zeta only


theorem writePwr_sound {qq : List Instr} {v : Nat} {o : Nat} {s : State}  (h_s : Sound qq s) : Sound qq (writePwr v o s) := by
  unfold writePwr
  repeat' first
    | with_reducible assumption
    | intro _
    | with_reducible rfl
    | with_reducible apply Sound.ite
    | with_reducible apply each_sound
    | (with_reducible apply Sound.update; first | with_reducible assumption)
    | (extract_lets +onlyGivenNames x; refine (?_ : Sound qq x → _) ?_; intro _; clear_value x; rotate_left; subst x; rotate_left)
    | (extract_lets +onlyGivenNames x; subst x)
    | split
    | dsimp -zeta only


theorem writeRst_sound {qq : List Instr} {v : Nat} {o : Nat} {s : State}  (h_s : Sound qq s) : Sound qq (writeRst v o s) := by
  unfold writeRst
  repeat' first
    | with_reducible assumption
    | intro _
    | with_reducible rfl
    | with_reducible apply Sound.ite
    | with_reducible apply each_sound
    | (with_reducible apply Sound.update; first | with_reducible assumption)
    | (extract_lets +onlyGivenNames x; refine (?_ : Sound qq x → _) ?_; intro _; clear_value x; rotate_left; subst x; rotate_left)
    | (extract_lets +onlyGivenNames x; subst x)
    | split
    | dsimp -zeta only


theorem writeBa_sound {qq : List Instr} {v : Nat} {o : Nat} {s : State}  (h_s : Sound qq s) : Sound qq (writeBa v o s) := by
  unfold writeBa
  repeat' first
    | with_reducible assumption
    | intro _
    | with_reducible rfl
    | with_reducible apply Sound.ite
    | with_reducible apply each_sound
    | (with_reducible apply Sound.update; first | with_reducible assumption)
    | (extract_lets +onlyGivenNames x; refine (?_ : Sound qq x → _) ?_; intro _; clear_value x; rotate_left; subst x; rotate_left)
    | (extract_lets +onlyGivenNames x; subst x)
    | split
    | dsimp -zeta only


theorem writeMan_sound {qq : List Instr} {v : Nat} {o : Nat} {s : State}  (h_s : Sound qq s) : Sound qq (writeMan v o s) := by
  unfold writeMan
  repeat' first
    | with_reducible assumption
    | intro _
    | with_reducible rfl
    | with_reducible apply Sound.ite
    | with_reducible apply each_sound
    | (with_reducible apply Sound.update; first | with_reducible assumption)
    | (extract_lets +onlyGivenNames x; refine (?_ : Sound qq x → _) ?_; intro _; clear_value x; rotate_left; subst x; rotate_left)
    | (extract_lets +onlyGivenNames x; subst x)
    | split
    | dsimp -zeta only


theorem writePcie_sound {qq : List Instr} {v : Nat} {o : Nat} {s : State}  (h_s : Sound qq s) : Sound qq (writePcie v o s) := by
  unfold writePcie
  repeat' first
    | with_reducible assumption
    | intro _
    | with_reducible rfl
    | with_reducible apply Sound.ite
    | with_reducible apply each_sound
    | (with_reducible apply Sound.update; first | with_reducible assumption)
    | (extract_lets +onlyGivenNames x; refine (?_ : Sound qq x → _) ?_; intro _; clear_value x; rotate_left; subst x; rotate_left)
    | (extract_lets +onlyGivenNames x; subst x)
    | split
    | dsimp -zeta only


theorem writeStr_sound {qq : List Instr} {v : Nat} {o : Nat} {s : State}  (h_s : Sound qq s) : Sound qq (writeStr v o s) := by
  unfold writeStr
  repeat' first
    | with_reducible assumption
    | intro _
    | with_reducible rfl
    | with_reducible apply Sound.ite
    | with_reducible apply each_sound
    | (with_reducible apply Sound.update; first | with_reducible assumption)
    | (extract_lets +onlyGivenNames x; refine (?_ : Sound qq x → _) ?_; intro _; clear_value x; rotate_left; subst x; rotate_left)
    | (extract_lets +onlyGivenNames x; subst x)
    | split
    | dsimp -zeta only


theorem writeRed_sound {qq : List Instr} {v : Nat} {o : Nat} {s : State}  (h_s : Sound qq s) : Sound qq (writeRed v o s) := by
  unfold writeRed
  repeat' first
    | with_reducible assumption
    | intro _
    | with_reducible rfl
    | with_reducible apply Sound.ite
    | with_reducible apply each_sound
    | (with_reducible apply Sound.update; first | with_reducible assumption)
    | (extract_lets +onlyGivenNames x; refine (?_ : Sound qq x → _) ?_; intro _; clear_value x; rotate_left; subst x; rotate_left)
    | (extract_lets +onlyGivenNames x; subst x)
    | split
    | dsimp -zeta only


theorem writeThm_sound {qq : List Instr} {v : Nat} {o : Nat} {s : State}  (h_s : Sound qq s) : Sound qq (writeThm v o s) := by
  unfold writeThm
  repeat' first
    | with_reducible assumption
    | intro _
    | with_reducible rfl
    | with_reducible apply Sound.ite
    | with_reducible apply each_sound
    | (with_reducible apply Sound.update; first | with_reducible assumption)
    | (extract_lets +onlyGivenNames x; refine (?_ : Sound qq x → _) ?_; intro _; clear_value x; rotate_left; subst x; rotate_left)
    | (extract_lets +onlyGivenNames x; subst x)
    | split
    | dsimp -zeta only


theorem writeMem_sound {qq : List Instr} {v : Nat} {o : Nat} {s : State}  (h_s : Sound qq s) : Sound qq (writeMem v o s) := by
  unfold writeMem
  repeat' first
    | with_reducible assumption
    | intro _
    | with_reducible rfl
    | with_reducible apply Sound.ite
    | with_reducible apply each_sound
    | (with_reducible apply Sound.update; first | with_reducible assumption)
    | (extract_lets +onlyGivenNames x; refine (?_ : Sound qq x → _) ?_; intro _; clear_value x; rotate_left; subst x; rotate_left)
    | (extract_lets +onlyGivenNames x; subst x)
    | split
    | dsimp -zeta only


theorem writeKk_sound {qq : List Instr} {v : Nat} {o : Nat} {s : State}  (h_s : Sound qq s) : Sound qq (writeKk v o s) := by
  unfold writeKk
  repeat' first
    | with_reducible assumption
    | intro _
    | with_reducible rfl
    | with_reducible apply Sound.ite
    | with_reducible apply each_sound
    | (with_reducible apply Sound.update; first | with_reducible assumption)
    | (extract_lets +onlyGivenNames x; refine (?_ : Sound qq x → _) ?_; intro _; clear_value x; rotate_left; subst x; rotate_left)
    | (extract_lets +onlyGivenNames x; subst x)
    | split
    | dsimp -zeta only


theorem writeEvt_sound {qq : List Instr} {v : Nat} {o : Nat} {s : State}  (h_s : Sound qq s) : Sound qq (writeEvt v o s) := by
  unfold writeEvt
  repeat' first
    | with_reducible assumption
    | intro _
    | with_reducible rfl
    | with_reducible apply Sound.ite
    | with_reducible apply each_sound
    | (with_reducible apply Sound.update; first | with_reducible assumption)
    | (extract_lets +onlyGivenNames x; refine (?_ : Sound qq x → _) ?_; intro _; clear_value x; rotate_left; subst x; rotate_left)
    | (extract_lets +onlyGivenNames x; subst x)
    | split
    | dsimp -zeta only


theorem writeReg_sound {qq : List Instr} {w : Nat} {o : Nat} {v : Nat} {s : State}  (h_s : Sound qq s) : Sound qq (writeReg w o v s) := by
  unfold writeReg
  repeat' first
    | with_reducible assumption
    | intro _
    | with_reducible rfl
    | with_reducible apply Sound.ite
    | with_reducible apply each_sound
    | with_reducible apply writeCamp_sound
    | with_reducible apply writePad_sound
    | with_reducible apply writePwr_sound
    | with_reducible apply writeRst_sound
    | with_reducible apply writeBa_sound
    | with_reducible apply writeMan_sound
    | with_reducible apply writePcie_sound
    | with_reducible apply writeStr_sound
    | with_reducible apply writeRed_sound
    | with_reducible apply writeThm_sound
    | with_reducible apply writeMem_sound
    | with_reducible apply writeKk_sound
    | with_reducible apply writeEvt_sound
    | (with_reducible apply Sound.update; first | with_reducible assumption | with_reducible apply writeCamp_sound | with_reducible apply writePad_sound | with_reducible apply writePwr_sound | with_reducible apply writeRst_sound | with_reducible apply writeBa_sound | with_reducible apply writeMan_sound | with_reducible apply writePcie_sound | with_reducible apply writeStr_sound | with_reducible apply writeRed_sound | with_reducible apply writeThm_sound | with_reducible apply writeMem_sound | with_reducible apply writeKk_sound | with_reducible apply writeEvt_sound)
    | (extract_lets +onlyGivenNames x; refine (?_ : Sound qq x → _) ?_; intro _; clear_value x; rotate_left; subst x; rotate_left)
    | (extract_lets +onlyGivenNames x; subst x)
    | split
    | dsimp -zeta only


end Sys2Proof.Machine
end

