-- ==== Sys2Proof/Laws/SoundAccess.lean ====
section
/-!
SUPPORT. Soundness through the operations of Machine/Access.lean.
-/

set_option linter.all false

namespace Sys2Proof.Machine

theorem readWord_sound {q : List Instr} {s : State} {w o v : Nat} {t : State} (e : readWord s w o = some (v, t))
    (h : Sound q s) : Sound q t := by
  have hu : ∀ j, Sound q { s with time.latched := j } := fun j => Sound.congr h rfl rfl rfl rfl rfl rfl rfl rfl rfl rfl rfl
  unfold readWord at e
  split at e
  · cases e; exact h
  · split at e
    · cases e
    · split at e
      · simp only [Option.some.injEq] at e
        exact issueRead_sound e h
      · split at e
        · simp only [Option.some.injEq, Prod.mk.injEq] at e
          obtain ⟨_, rfl⟩ := e
          exact hu _
        · split at e
          · split at e
            · cases e; exact hu _
            · cases e; exact h
          · cases e; exact h

theorem fixEvent_sound {qq : List Instr} {before : State} {s : State}  (h_before : Sound qq before) (h_s : Sound qq s) : Sound qq (fixEvent before s) := by
  unfold fixEvent
  repeat' first
    | with_reducible assumption
    | intro _
    | with_reducible rfl
    | with_reducible apply Sound.ite
    | with_reducible apply each_sound
    | (with_reducible apply Sound.update; first | with_reducible assumption)
    | (extract_lets +onlyGivenNames x; refine (?_ : Sound qq x → _) ?_; intro _; clear_value x; rotate_left; subst x; rotate_left)
    | (extract_lets +onlyGivenNames x; subst x)
    | split
    | dsimp -zeta only


theorem writeWhole_sound {qq : List Instr} {w : Nat} {o : Nat} {v : Nat} {s : State}  (h_s : Sound qq s) : Sound qq (writeWhole w o v s) := by
  unfold writeWhole
  repeat' first
    | with_reducible assumption
    | intro _
    | with_reducible rfl
    | with_reducible apply Sound.ite
    | with_reducible apply each_sound
    | with_reducible apply redialog_sound
    | with_reducible apply offsetWritten_sound
    | with_reducible apply tslProbe_sound
    | with_reducible apply windowWritten_sound
    | with_reducible apply fixEvent_sound
    | with_reducible apply writeReg_sound
    | (with_reducible apply Sound.update; first | with_reducible assumption | with_reducible apply redialog_sound | with_reducible apply offsetWritten_sound | with_reducible apply tslProbe_sound | with_reducible apply windowWritten_sound | with_reducible apply fixEvent_sound | with_reducible apply writeReg_sound)
    | (extract_lets +onlyGivenNames x; refine (?_ : Sound qq x → _) ?_; intro _; clear_value x; rotate_left; subst x; rotate_left)
    | (extract_lets +onlyGivenNames x; subst x)
    | split
    | dsimp -zeta only


theorem writeWord_sound {qq : List Instr} {w : Nat} {o : Nat} {v : Nat} {s : State}  (h_s : Sound qq s) : Sound qq (writeWord w o v s) := by
  unfold writeWord
  repeat' first
    | with_reducible assumption
    | intro _
    | with_reducible rfl
    | with_reducible apply Sound.ite
    | with_reducible apply each_sound
    | with_reducible apply writeWhole_sound
    | (with_reducible apply Sound.update; first | with_reducible assumption | with_reducible apply writeWhole_sound)
    | (extract_lets +onlyGivenNames x; refine (?_ : Sound qq x → _) ?_; intro _; clear_value x; rotate_left; subst x; rotate_left)
    | (extract_lets +onlyGivenNames x; subst x)
    | split
    | dsimp -zeta only


theorem writeAligned_sound {qq : List Instr} {w : Nat} {o : Nat} {bytes : Nat} {v : Nat} {s : State}  (h_s : Sound qq s) : Sound qq (writeAligned w o bytes v s) := by
  unfold writeAligned
  repeat' first
    | with_reducible assumption
    | intro _
    | with_reducible rfl
    | with_reducible apply Sound.ite
    | with_reducible apply each_sound
    | with_reducible apply writeWord_sound
    | with_reducible apply writeWhole_sound
    | (with_reducible apply Sound.update; first | with_reducible assumption | with_reducible apply writeWord_sound | with_reducible apply writeWhole_sound)
    | (extract_lets +onlyGivenNames x; refine (?_ : Sound qq x → _) ?_; intro _; clear_value x; rotate_left; subst x; rotate_left)
    | (extract_lets +onlyGivenNames x; subst x)
    | split
    | dsimp -zeta only


theorem readWords_sound {q : List Instr} {w o n : Nat} {s : State} {l : List Nat} {t : State}
    (e : readWords w o n s = some (l, t)) (h : Sound q s) : Sound q t := by
  induction n generalizing o s l t with
  | zero => cases e; exact h
  | succ n ih =>
    unfold readWords at e
    simp only [Option.bind_eq_bind, Option.bind_eq_some_iff, Prod.exists, Option.some.injEq, Prod.mk.injEq] at e
    obtain ⟨v, s1, e1, l2, s2, e2, _, rfl⟩ := e
    exact ih e2 (readWord_sound e1 h)

theorem readAligned_sound {q : List Instr} {w o bytes : Nat} {s : State} {b : Bytes} {t : State}
    (e : readAligned w o bytes s = some (b, t)) (h : Sound q s) : Sound q t := by
  unfold readAligned at e
  split at e
  · simp only [Option.map_eq_some_iff, Prod.mk.injEq] at e
    obtain ⟨p, e1, _, rfl⟩ := e
    exact readWords_sound (l := p.1) e1 h
  · simp only [Option.map_eq_some_iff, Prod.mk.injEq] at e
    obtain ⟨p, e1, _, rfl⟩ := e
    exact readWord_sound (v := p.1) e1 h

end Sys2Proof.Machine
end

