-- ==== Sys2Proof/Laws/SoundRegisters.lean ====
section
/-!
SUPPORT. Soundness through the operations of Machine/Registers.lean.
-/

set_option linter.all false

namespace Sys2Proof.Machine

theorem answerRead_sound {qq : List Instr} {port : Nat} {w : Nat} {o : Nat} {bytes : Nat} {s : State}  (h_s : Sound qq s) : Sound qq (answerRead port w o bytes s) := by
  unfold answerRead
  repeat' first
    | with_reducible assumption
    | intro _
    | with_reducible rfl
    | with_reducible apply Sound.ite
    | with_reducible apply each_sound
    | (with_reducible refine readAligned_sound (by assumption) ?_)
    | with_reducible apply say_sound
    | with_reducible apply refuseRead_sound
    | (with_reducible apply Sound.update; first | with_reducible assumption | (with_reducible refine readAligned_sound (by assumption) ?_) | with_reducible apply say_sound | with_reducible apply refuseRead_sound)
    | (extract_lets +onlyGivenNames x; refine (?_ : Sound qq x → _) ?_; intro _; clear_value x; rotate_left; subst x; rotate_left)
    | (extract_lets +onlyGivenNames x; subst x)
    | split
    | dsimp -zeta only


theorem execWideRegisterLowerRead_sound {qq : List Instr} {port : Nat} {offset : Nat} {s : State}  (h_s : Sound qq s) : SoundOut qq (execWideRegisterLowerRead port offset s) := by
  unfold execWideRegisterLowerRead
  repeat' first
    | with_reducible assumption
    | intro _
    | with_reducible rfl
    | with_reducible apply Sound.ite
    | with_reducible apply each_sound
    | with_reducible apply SoundOut.next
    | with_reducible apply SoundOut.ite
    | with_reducible apply memoryRead_sound
    | with_reducible apply answerRead_sound
    | (with_reducible apply Sound.update; first | with_reducible assumption | with_reducible apply memoryRead_sound | with_reducible apply answerRead_sound)
    | (extract_lets +onlyGivenNames x; refine (?_ : Sound qq x → _) ?_; intro _; clear_value x; rotate_left; subst x; rotate_left)
    | (extract_lets +onlyGivenNames x; subst x)
    | split
    | dsimp -zeta only


theorem refuseNarrow_sound {qq : List Instr} {core : Nat} {s : State}  (h_s : Sound qq s) : Sound qq (refuseNarrow core s) := by
  unfold refuseNarrow
  repeat' first
    | with_reducible assumption
    | intro _
    | with_reducible rfl
    | with_reducible apply Sound.ite
    | with_reducible apply each_sound
    | with_reducible apply raise_sound
    | (with_reducible apply Sound.update; first | with_reducible assumption | with_reducible apply raise_sound)
    | (extract_lets +onlyGivenNames x; refine (?_ : Sound qq x → _) ?_; intro _; clear_value x; rotate_left; subst x; rotate_left)
    | (extract_lets +onlyGivenNames x; subst x)
    | split
    | dsimp -zeta only


theorem execRegisterWrite_sound {qq : List Instr} {agent : WriteAgent} {offset : Nat} {bytes : Nat} {value : Nat} {s : State}  (h_s : Sound qq s) : SoundOut qq (execRegisterWrite agent offset bytes value s) := by
  unfold execRegisterWrite
  repeat' first
    | with_reducible assumption
    | intro _
    | with_reducible rfl
    | with_reducible apply Sound.ite
    | with_reducible apply each_sound
    | with_reducible apply SoundOut.next
    | with_reducible apply SoundOut.ite
    | with_reducible apply memoryWrite_sound
    | with_reducible apply writeAligned_sound
    | with_reducible apply refuseNarrow_sound
    | (with_reducible apply Sound.update; first | with_reducible assumption | with_reducible apply memoryWrite_sound | with_reducible apply writeAligned_sound | with_reducible apply refuseNarrow_sound)
    | (extract_lets +onlyGivenNames x; refine (?_ : Sound qq x → _) ?_; intro _; clear_value x; rotate_left; subst x; rotate_left)
    | (extract_lets +onlyGivenNames x; subst x)
    | split
    | dsimp -zeta only


end Sys2Proof.Machine
end

