-- ==== Sys2Proof/Laws/SoundLogs.lean ====
section
/-!
SUPPORT. Soundness through the operations of Machine/Logs.lean.
-/

set_option linter.all false

namespace Sys2Proof.Machine

theorem logContent_snd {qq : List Instr} {c : Nat} {lid : Nat} {s : State}   (h_s : Sound qq s) : Sound qq (logContent c lid s).2 := by
  unfold logContent
  repeat' first
    | with_reducible assumption
    | intro _
    | with_reducible rfl
    | with_reducible apply Sound.ite_snd
    | with_reducible apply Sound.ite
    | with_reducible apply each_sound
    | with_reducible apply takeStamp_snd
    | (with_reducible refine takeStamp_sound (by assumption) ?_)
    | (with_reducible apply Sound.update; first | with_reducible assumption | with_reducible apply takeStamp_snd | (with_reducible refine takeStamp_sound (by assumption) ?_))
    | (extract_lets +onlyGivenNames x; refine (?_ : Sound qq x → _) ?_; intro _; clear_value x; rotate_left; subst x; rotate_left)
    | (extract_lets +onlyGivenNames x; subst x)
    | split
    | dsimp -zeta only

theorem logContent_sound {qq : List Instr} {c : Nat} {lid : Nat} {s : State} {r0 : Bytes} {tt : State} (eqn : logContent c lid s = (r0, tt))  (h_s : Sound qq s) : Sound qq tt := by
  have h := logContent_snd (qq := qq) (c := c) (lid := lid) (s := s) h_s
  rw [eqn] at h
  exact h

theorem noteLogRead_sound {qq : List Instr} {c : Nat} {q : Sqe} {s : State}  (h_s : Sound qq s) : Sound qq (noteLogRead c q s) := by
  unfold noteLogRead
  repeat' first
    | with_reducible assumption
    | intro _
    | with_reducible rfl
    | with_reducible apply Sound.ite
    | with_reducible apply each_sound
    | with_reducible apply onCtrl_sound
    | (with_reducible apply Sound.update; first | with_reducible assumption | with_reducible apply onCtrl_sound)
    | (extract_lets +onlyGivenNames x; refine (?_ : Sound qq x → _) ?_; intro _; clear_value x; rotate_left; subst x; rotate_left)
    | (extract_lets +onlyGivenNames x; subst x)
    | split
    | dsimp -zeta only


theorem readLog_snd {qq : List Instr} {c : Nat} {q : Sqe} {s : State}   (h_s : Sound qq s) : Sound qq (readLog c q s).2 := by
  unfold readLog
  repeat' first
    | with_reducible assumption
    | intro _
    | with_reducible rfl
    | with_reducible apply Sound.ite_snd
    | with_reducible apply Sound.ite
    | with_reducible apply each_sound
    | with_reducible apply logContent_snd
    | (with_reducible refine logContent_sound (by assumption) ?_)
    | with_reducible apply noteLogRead_sound
    | (with_reducible apply Sound.update; first | with_reducible assumption | with_reducible apply logContent_snd | (with_reducible refine logContent_sound (by assumption) ?_) | with_reducible apply noteLogRead_sound)
    | (extract_lets +onlyGivenNames x; refine (?_ : Sound qq x → _) ?_; intro _; clear_value x; rotate_left; subst x; rotate_left)
    | (extract_lets +onlyGivenNames x; subst x)
    | split
    | dsimp -zeta only

theorem readLog_sound {qq : List Instr} {c : Nat} {q : Sqe} {s : State} {r0 : Bytes} {tt : State} (eqn : readLog c q s = (r0, tt))  (h_s : Sound qq s) : Sound qq tt := by
  have h := readLog_snd (qq := qq) (c := c) (q := q) (s := s) h_s
  rw [eqn] at h
  exact h

theorem execGetLogPage_sound {qq : List Instr} {entry : Nat} {s : State}  (h_s : Sound qq s) : SoundOut qq (execGetLogPage entry s) := by
  unfold execGetLogPage
  repeat' first
    | with_reducible assumption
    | intro _
    | with_reducible rfl
    | with_reducible apply Sound.ite
    | with_reducible apply each_sound
    | with_reducible apply SoundOut.next
    | with_reducible apply SoundOut.ite
    | with_reducible apply runEntry_sound
    | with_reducible apply finishEntry_sound
    | with_reducible apply readLog_snd
    | (with_reducible refine readLog_sound (by assumption) ?_)
    | with_reducible apply answer_sound
    | (with_reducible apply Sound.update; first | with_reducible assumption | with_reducible apply runEntry_sound | with_reducible apply finishEntry_sound | with_reducible apply readLog_snd | (with_reducible refine readLog_sound (by assumption) ?_) | with_reducible apply answer_sound)
    | (extract_lets +onlyGivenNames x; refine (?_ : Sound qq x → _) ?_; intro _; clear_value x; rotate_left; subst x; rotate_left)
    | (extract_lets +onlyGivenNames x; subst x)
    | split
    | dsimp -zeta only


theorem execIdentify_sound {qq : List Instr} {entry : Nat} {s : State}  (h_s : Sound qq s) : SoundOut qq (execIdentify entry s) := by
  unfold execIdentify
  repeat' first
    | with_reducible assumption
    | intro _
    | with_reducible rfl
    | with_reducible apply Sound.ite
    | with_reducible apply each_sound
    | with_reducible apply SoundOut.next
    | with_reducible apply SoundOut.ite
    | with_reducible apply runEntry_sound
    | with_reducible apply answer_sound
    | with_reducible apply finishEntry_sound
    | (with_reducible apply Sound.update; first | with_reducible assumption | with_reducible apply runEntry_sound | with_reducible apply answer_sound | with_reducible apply finishEntry_sound)
    | (extract_lets +onlyGivenNames x; refine (?_ : Sound qq x → _) ?_; intro _; clear_value x; rotate_left; subst x; rotate_left)
    | (extract_lets +onlyGivenNames x; subst x)
    | split
    | dsimp -zeta only


end Sys2Proof.Machine
end

