-- ==== Sys2Proof/Laws/SoundFirmware.lean ====
section
/-!
SUPPORT. Soundness through the operations of Machine/Firmware.lean.
-/

set_option linter.all false

namespace Sys2Proof.Machine

theorem Sound.fwStaging {q : List Instr} {s : State} {m : List (Nat × Byte)} {n : Nat} (h : Sound q s)
    (hm : Cells.wf m = true) : Sound q { s with boot.fw_staging := m, boot.fw_length := n } := by
  obtain ⟨a, b, c, d, e⟩ := h
  refine ⟨a, ?_, c, d, e⟩
  simp only [State.memoryWf, Bool.and_eq_true] at b ⊢
  exact ⟨⟨b.1.1, hm⟩, b.2⟩

theorem Sound.fwStaging_wf {q : List Instr} {s : State} (h : Sound q s) : Cells.wf s.boot.fw_staging = true := by
  have b := h.2.1
  simp only [State.memoryWf, Bool.and_eq_true] at b
  exact b.1.2

theorem execFirmwareImageDownload_sound {q : List Instr} {entry : Nat} {data : Bytes} {s : State} (h : Sound q s) :
    SoundOut q (execFirmwareImageDownload entry data s) := by
  unfold execFirmwareImageDownload
  refine runEntry_sound (fun e t ht => ?_) h
  extract_lets +onlyGivenNames n o odd
  with_reducible apply Sound.ite
  · exact finishEntry_sound ht
  · exact finishEntry_sound (Sound.fwStaging ht (Cells.writes_wf ht.fwStaging_wf))

theorem commitFirmware_sound {qq : List Instr} {path : AdminPath} {action : Nat} {fs : Nat} {staged : List (Nat × Byte)} {s : State}  (h_s : Sound qq s) : Sound qq (commitFirmware path action fs staged s) := by
  unfold commitFirmware
  repeat' first
    | with_reducible assumption
    | intro _
    | with_reducible rfl
    | with_reducible apply Sound.ite
    | with_reducible apply each_sound
    | with_reducible apply endAdmin_sound
    | with_reducible apply beginUpdate_sound
    | with_reducible apply request_sound
    | (with_reducible apply Sound.update; first | with_reducible assumption | with_reducible apply endAdmin_sound | with_reducible apply beginUpdate_sound | with_reducible apply request_sound)
    | (extract_lets +onlyGivenNames x; refine (?_ : Sound qq x → _) ?_; intro _; clear_value x; rotate_left; subst x; rotate_left)
    | (extract_lets +onlyGivenNames x; subst x)
    | split
    | dsimp -zeta only


theorem hostCommit_sound {q : List Instr} {t action : Nat} {e : Entry} {s : State} (h : Sound q s) :
    Sound q (hostCommit t action e s) := by
  unfold hostCommit
  extract_lets +onlyGivenNames fs staged
  with_reducible apply Sound.ite
  · exact finishEntry_sound h
  · with_reducible apply Sound.ite
    · exact finishEntry_sound h
    · have h1 := commitFirmware_sound (path := .host t) (action := action) (fs := fs) (staged := staged)
        (onEntry_sound (t := t) (f := fun e => { e with state := .overlap }) (involveYards_sound (t := t) (yards := yardsJoined s)
          (body := [4, action, fs] ++ (Cells.reads staged 0 s.boot.fw_length).map BitVec.toNat) h))
      with_reducible apply Sound.ite
      · exact Sound.fwStaging h1 Cells.wf_nil
      · exact h1

theorem runCommit_sound {qq : List Instr} {t : Nat} {action : Nat} {s : State}  (h_s : Sound qq s) : SoundOut qq (runCommit t action s) := by
  unfold runCommit
  repeat' first
    | with_reducible assumption
    | intro _
    | with_reducible rfl
    | with_reducible apply Sound.ite
    | with_reducible apply each_sound
    | with_reducible apply SoundOut.next
    | with_reducible apply SoundOut.ite
    | with_reducible apply hostCommit_sound
    | with_reducible apply finishEntry_sound
    | (with_reducible apply Sound.update; first | with_reducible assumption | with_reducible apply hostCommit_sound | with_reducible apply finishEntry_sound)
    | (extract_lets +onlyGivenNames x; refine (?_ : Sound qq x → _) ?_; intro _; clear_value x; rotate_left; subst x; rotate_left)
    | (extract_lets +onlyGivenNames x; subst x)
    | split
    | dsimp -zeta only


theorem execFirmwareCommitWrite_sound {qq : List Instr} {entry : Nat} {s : State}  (h_s : Sound qq s) : SoundOut qq (execFirmwareCommitWrite entry s) := by
  unfold execFirmwareCommitWrite
  repeat' first
    | with_reducible assumption
    | intro _
    | with_reducible rfl
    | with_reducible apply Sound.ite
    | with_reducible apply each_sound
    | with_reducible apply SoundOut.next
    | with_reducible apply SoundOut.ite
    | with_reducible apply runCommit_sound
    | (with_reducible apply Sound.update; first | with_reducible assumption | with_reducible apply runCommit_sound)
    | (extract_lets +onlyGivenNames x; refine (?_ : Sound qq x → _) ?_; intro _; clear_value x; rotate_left; subst x; rotate_left)
    | (extract_lets +onlyGivenNames x; subst x)
    | split
    | dsimp -zeta only


theorem execFirmwareCommitWriteActivate_sound {qq : List Instr} {entry : Nat} {s : State}  (h_s : Sound qq s) : SoundOut qq (execFirmwareCommitWriteActivate entry s) := by
  unfold execFirmwareCommitWriteActivate
  repeat' first
    | with_reducible assumption
    | intro _
    | with_reducible rfl
    | with_reducible apply Sound.ite
    | with_reducible apply each_sound
    | with_reducible apply SoundOut.next
    | with_reducible apply SoundOut.ite
    | with_reducible apply runCommit_sound
    | (with_reducible apply Sound.update; first | with_reducible assumption | with_reducible apply runCommit_sound)
    | (extract_lets +onlyGivenNames x; refine (?_ : Sound qq x → _) ?_; intro _; clear_value x; rotate_left; subst x; rotate_left)
    | (extract_lets +onlyGivenNames x; subst x)
    | split
    | dsimp -zeta only


theorem execFirmwareCommitActivate_sound {qq : List Instr} {entry : Nat} {s : State}  (h_s : Sound qq s) : SoundOut qq (execFirmwareCommitActivate entry s) := by
  unfold execFirmwareCommitActivate
  repeat' first
    | with_reducible assumption
    | intro _
    | with_reducible rfl
    | with_reducible apply Sound.ite
    | with_reducible apply each_sound
    | with_reducible apply SoundOut.next
    | with_reducible apply SoundOut.ite
    | with_reducible apply runCommit_sound
    | (with_reducible apply Sound.update; first | with_reducible assumption | with_reducible apply runCommit_sound)
    | (extract_lets +onlyGivenNames x; refine (?_ : Sound qq x → _) ?_; intro _; clear_value x; rotate_left; subst x; rotate_left)
    | (extract_lets +onlyGivenNames x; subst x)
    | split
    | dsimp -zeta only


theorem stageManifest_sound {q : List Instr} {x : Sqe} {data : Bytes} {s : State} {a b : Nat} {t : State}
    (e : stageManifest x data s = (a, b, t)) (h : Sound q s) : Sound q t := by
  unfold stageManifest at e
  dsimp only at e
  split at e
  · cases e; exact h
  · split at e
    · cases e; exact h
    · simp only [Prod.mk.injEq] at e
      obtain ⟨_, _, rfl⟩ := e
      obtain ⟨a, b, c, d, e⟩ := h
      refine ⟨a, ?_, c, d, e⟩
      simp only [State.memoryWf, Bool.and_eq_true] at b ⊢
      exact ⟨⟨⟨b.1.1.1, Cells.writes_wf b.1.1.2⟩, b.1.2⟩, b.2⟩

theorem execManifestTransfer_sound {q : List Instr} {entry : Nat} {data : Bytes} {s : State} (h : Sound q s) :
    SoundOut q (execManifestTransfer entry data s) := by
  unfold execManifestTransfer
  refine runEntry_sound (fun e t ht => ?_) h
  generalize hr : stageManifest e.sqe data t = r
  obtain ⟨a, b, u⟩ := r
  exact finishEntry_sound (stageManifest_sound hr ht)

theorem installStaged_sound {qq : List Instr} {path : AdminPath} {sideband : Bool} {key : Nat} {s : State}  (h_s : Sound qq s) : Sound qq (installStaged path sideband key s) := by
  unfold installStaged
  repeat' first
    | with_reducible assumption
    | intro _
    | with_reducible rfl
    | with_reducible apply Sound.ite
    | with_reducible apply each_sound
    | with_reducible apply sendFrame_sound
    | with_reducible apply installManifest_sound
    | (with_reducible apply Sound.update; first | with_reducible assumption | with_reducible apply sendFrame_sound | with_reducible apply installManifest_sound)
    | (extract_lets +onlyGivenNames x; refine (?_ : Sound qq x → _) ?_; intro _; clear_value x; rotate_left; subst x; rotate_left)
    | (extract_lets +onlyGivenNames x; subst x)
    | split
    | dsimp -zeta only


theorem execManifestInstall_sound {qq : List Instr} {entry : Nat} {s : State}  (h_s : Sound qq s) : SoundOut qq (execManifestInstall entry s) := by
  unfold execManifestInstall
  repeat' first
    | with_reducible assumption
    | intro _
    | with_reducible rfl
    | with_reducible apply Sound.ite
    | with_reducible apply each_sound
    | with_reducible apply SoundOut.next
    | with_reducible apply SoundOut.ite
    | with_reducible apply runEntry_sound
    | with_reducible apply installStaged_sound
    | with_reducible apply onEntry_sound
    | (with_reducible apply Sound.update; first | with_reducible assumption | with_reducible apply runEntry_sound | with_reducible apply installStaged_sound | with_reducible apply onEntry_sound)
    | (extract_lets +onlyGivenNames x; refine (?_ : Sound qq x → _) ?_; intro _; clear_value x; rotate_left; subst x; rotate_left)
    | (extract_lets +onlyGivenNames x; subst x)
    | split
    | dsimp -zeta only


end Sys2Proof.Machine
end

