-- ==== Sys2Proof/Laws/SoundSideband.lean ====
section
/-!
SUPPORT. Soundness through the operations of Machine/Sideband.lean.
-/

set_option linter.all false

namespace Sys2Proof.Machine

theorem runSideband_sound {qq : List Instr} {port : Nat} {f : State → State} {s : State} (hf : ∀ a0, Sound qq a0 → Sound qq (f a0)) (h_s : Sound qq s) : SoundOut qq (runSideband port f s) := by
  unfold runSideband
  repeat' first
    | with_reducible assumption
    | intro _
    | with_reducible rfl
    | with_reducible apply Sound.ite
    | with_reducible apply each_sound
    | with_reducible apply SoundOut.next
    | with_reducible apply SoundOut.ite
    | with_reducible apply hf
    | (with_reducible apply Sound.update; first | with_reducible assumption | with_reducible apply hf)
    | (extract_lets +onlyGivenNames x; refine (?_ : Sound qq x → _) ?_; intro _; clear_value x; rotate_left; subst x; rotate_left)
    | (extract_lets +onlyGivenNames x; subst x)
    | split
    | dsimp -zeta only


theorem execBasicManagementRead_sound {qq : List Instr} {port : Nat} {s : State}  (h_s : Sound qq s) : SoundOut qq (execBasicManagementRead port s) := by
  unfold execBasicManagementRead
  repeat' first
    | with_reducible assumption
    | intro _
    | with_reducible rfl
    | with_reducible apply Sound.ite
    | with_reducible apply each_sound
    | with_reducible apply SoundOut.next
    | with_reducible apply SoundOut.ite
    | with_reducible apply runSideband_sound
    | with_reducible apply say_sound
    | (with_reducible apply Sound.update; first | with_reducible assumption | with_reducible apply runSideband_sound | with_reducible apply say_sound)
    | (extract_lets +onlyGivenNames x; refine (?_ : Sound qq x → _) ?_; intro _; clear_value x; rotate_left; subst x; rotate_left)
    | (extract_lets +onlyGivenNames x; subst x)
    | split
    | dsimp -zeta only


theorem execReadNvmeMiDataStructure_sound {qq : List Instr} {port : Nat} {kind : MiSelector} {s : State}  (h_s : Sound qq s) : SoundOut qq (execReadNvmeMiDataStructure port kind s) := by
  unfold execReadNvmeMiDataStructure
  repeat' first
    | with_reducible assumption
    | intro _
    | with_reducible rfl
    | with_reducible apply Sound.ite
    | with_reducible apply each_sound
    | with_reducible apply SoundOut.next
    | with_reducible apply SoundOut.ite
    | with_reducible apply runSideband_sound
    | with_reducible apply say_sound
    | (with_reducible apply Sound.update; first | with_reducible assumption | with_reducible apply runSideband_sound | with_reducible apply say_sound)
    | (extract_lets +onlyGivenNames x; refine (?_ : Sound qq x → _) ?_; intro _; clear_value x; rotate_left; subst x; rotate_left)
    | (extract_lets +onlyGivenNames x; subst x)
    | split
    | dsimp -zeta only


theorem miConfigSet_snd {qq : List Instr} {path : Nat} {id : Nat} {value : Nat} {s : State}   (h_s : Sound qq s) : Sound qq (miConfigSet path id value s).2 := by
  unfold miConfigSet
  repeat' first
    | with_reducible assumption
    | intro _
    | with_reducible rfl
    | with_reducible apply Sound.ite_snd
    | with_reducible apply Sound.ite
    | with_reducible apply each_sound
    | (with_reducible apply Sound.update; first | with_reducible assumption)
    | (extract_lets +onlyGivenNames x; refine (?_ : Sound qq x → _) ?_; intro _; clear_value x; rotate_left; subst x; rotate_left)
    | (extract_lets +onlyGivenNames x; subst x)
    | split
    | dsimp -zeta only

theorem miConfigSet_sound {qq : List Instr} {path : Nat} {id : Nat} {value : Nat} {s : State} {r0 : Nat} {tt : State} (eqn : miConfigSet path id value s = (r0, tt))  (h_s : Sound qq s) : Sound qq tt := by
  have h := miConfigSet_snd (qq := qq) (path := path) (id := id) (value := value) (s := s) h_s
  rw [eqn] at h
  exact h

theorem execConfigurationGet_sound {qq : List Instr} {port : Nat} {id : Nat} {s : State}  (h_s : Sound qq s) : SoundOut qq (execConfigurationGet port id s) := by
  unfold execConfigurationGet
  repeat' first
    | with_reducible assumption
    | intro _
    | with_reducible rfl
    | with_reducible apply Sound.ite
    | with_reducible apply each_sound
    | with_reducible apply SoundOut.next
    | with_reducible apply SoundOut.ite
    | with_reducible apply runSideband_sound
    | with_reducible apply say_sound
    | (with_reducible apply Sound.update; first | with_reducible assumption | with_reducible apply runSideband_sound | with_reducible apply say_sound)
    | (extract_lets +onlyGivenNames x; refine (?_ : Sound qq x → _) ?_; intro _; clear_value x; rotate_left; subst x; rotate_left)
    | (extract_lets +onlyGivenNames x; subst x)
    | split
    | dsimp -zeta only


theorem execConfigurationSet_sound {qq : List Instr} {port : Nat} {id : Nat} {value : Nat} {s : State}  (h_s : Sound qq s) : SoundOut qq (execConfigurationSet port id value s) := by
  unfold execConfigurationSet
  repeat' first
    | with_reducible assumption
    | intro _
    | with_reducible rfl
    | with_reducible apply Sound.ite
    | with_reducible apply each_sound
    | with_reducible apply SoundOut.next
    | with_reducible apply SoundOut.ite
    | with_reducible apply runSideband_sound
    | with_reducible apply miConfigSet_snd
    | (with_reducible refine miConfigSet_sound (by assumption) ?_)
    | with_reducible apply say_sound
    | (with_reducible apply Sound.update; first | with_reducible assumption | with_reducible apply runSideband_sound | with_reducible apply miConfigSet_snd | (with_reducible refine miConfigSet_sound (by assumption) ?_) | with_reducible apply say_sound)
    | (extract_lets +onlyGivenNames x; refine (?_ : Sound qq x → _) ?_; intro _; clear_value x; rotate_left; subst x; rotate_left)
    | (extract_lets +onlyGivenNames x; subst x)
    | split
    | dsimp -zeta only


theorem clearComposite_sound {qq : List Instr} {clear : Bool} {path : Nat} {s : State}  (h_s : Sound qq s) : Sound qq (clearComposite clear path s) := by
  unfold clearComposite
  repeat' first
    | with_reducible assumption
    | intro _
    | with_reducible rfl
    | with_reducible apply Sound.ite
    | with_reducible apply each_sound
    | (with_reducible apply Sound.update; first | with_reducible assumption)
    | (extract_lets +onlyGivenNames x; refine (?_ : Sound qq x → _) ?_; intro _; clear_value x; rotate_left; subst x; rotate_left)
    | (extract_lets +onlyGivenNames x; subst x)
    | split
    | dsimp -zeta only


theorem execSubsystemHealthStatusPoll_sound {qq : List Instr} {port : Nat} {clear : Bool} {s : State}  (h_s : Sound qq s) : SoundOut qq (execSubsystemHealthStatusPoll port clear s) := by
  unfold execSubsystemHealthStatusPoll
  repeat' first
    | with_reducible assumption
    | intro _
    | with_reducible rfl
    | with_reducible apply Sound.ite
    | with_reducible apply each_sound
    | with_reducible apply SoundOut.next
    | with_reducible apply SoundOut.ite
    | with_reducible apply runSideband_sound
    | with_reducible apply say_sound
    | with_reducible apply clearComposite_sound
    | (with_reducible apply Sound.update; first | with_reducible assumption | with_reducible apply runSideband_sound | with_reducible apply say_sound | with_reducible apply clearComposite_sound)
    | (extract_lets +onlyGivenNames x; refine (?_ : Sound qq x → _) ?_; intro _; clear_value x; rotate_left; subst x; rotate_left)
    | (extract_lets +onlyGivenNames x; subst x)
    | split
    | dsimp -zeta only


theorem clearChanged_sound {qq : List Instr} {clear : Bool} {c : Nat} {path : Nat} {s : State}  (h_s : Sound qq s) : Sound qq (clearChanged clear c path s) := by
  unfold clearChanged
  repeat' first
    | with_reducible assumption
    | intro _
    | with_reducible rfl
    | with_reducible apply Sound.ite
    | with_reducible apply each_sound
    | with_reducible apply onCtrl_sound
    | (with_reducible apply Sound.update; first | with_reducible assumption | with_reducible apply onCtrl_sound)
    | (extract_lets +onlyGivenNames x; refine (?_ : Sound qq x → _) ?_; intro _; clear_value x; rotate_left; subst x; rotate_left)
    | (extract_lets +onlyGivenNames x; subst x)
    | split
    | dsimp -zeta only


theorem execControllerHealthStatusPoll_sound {qq : List Instr} {port : Nat} {ctrl : Nat} {clear : Bool} {s : State}  (h_s : Sound qq s) : SoundOut qq (execControllerHealthStatusPoll port ctrl clear s) := by
  unfold execControllerHealthStatusPoll
  repeat' first
    | with_reducible assumption
    | intro _
    | with_reducible rfl
    | with_reducible apply Sound.ite
    | with_reducible apply each_sound
    | with_reducible apply SoundOut.next
    | with_reducible apply SoundOut.ite
    | with_reducible apply runSideband_sound
    | with_reducible apply say_sound
    | with_reducible apply clearChanged_sound
    | (with_reducible apply Sound.update; first | with_reducible assumption | with_reducible apply runSideband_sound | with_reducible apply say_sound | with_reducible apply clearChanged_sound)
    | (extract_lets +onlyGivenNames x; refine (?_ : Sound qq x → _) ?_; intro _; clear_value x; rotate_left; subst x; rotate_left)
    | (extract_lets +onlyGivenNames x; subst x)
    | split
    | dsimp -zeta only


theorem execNvmeMiInvalidOpcode_sound {qq : List Instr} {port : Nat} {_opcode : Nat} {s : State}  (h_s : Sound qq s) : SoundOut qq (execNvmeMiInvalidOpcode port _opcode s) := by
  unfold execNvmeMiInvalidOpcode
  repeat' first
    | with_reducible assumption
    | intro _
    | with_reducible rfl
    | with_reducible apply Sound.ite
    | with_reducible apply each_sound
    | with_reducible apply SoundOut.next
    | with_reducible apply SoundOut.ite
    | with_reducible apply runSideband_sound
    | with_reducible apply say_sound
    | (with_reducible apply Sound.update; first | with_reducible assumption | with_reducible apply runSideband_sound | with_reducible apply say_sound)
    | (extract_lets +onlyGivenNames x; refine (?_ : Sound qq x → _) ?_; intro _; clear_value x; rotate_left; subst x; rotate_left)
    | (extract_lets +onlyGivenNames x; subst x)
    | split
    | dsimp -zeta only


theorem tunnelFeature_sound {qq : List Instr} {port : Nat} {q : Sqe} {s : State}  (h_s : Sound qq s) : Sound qq (tunnelFeature port q s) := by
  unfold tunnelFeature
  repeat' first
    | with_reducible assumption
    | intro _
    | with_reducible rfl
    | with_reducible apply Sound.ite
    | with_reducible apply each_sound
    | with_reducible apply say_sound
    | (with_reducible apply Sound.update; first | with_reducible assumption | with_reducible apply say_sound)
    | (extract_lets +onlyGivenNames x; refine (?_ : Sound qq x → _) ?_; intro _; clear_value x; rotate_left; subst x; rotate_left)
    | (extract_lets +onlyGivenNames x; subst x)
    | split
    | dsimp -zeta only


theorem tunnelled_sound {q : List Instr} {port : Nat} {x : Sqe} {data : Bytes} {s : State} (h : Sound q s) :
    Sound q (tunnelled port x data s) := by
  unfold tunnelled
  extract_lets +onlyGivenNames refuse
  have hr : ∀ st, Sound q (refuse st) := fun st => say_sound h
  split
  · with_reducible apply Sound.ite
    · exact hr _
    · exact say_sound (readLog_sound (Prod.eta _).symm h)
  · split
    · exact say_sound h
    · exact hr _
  · exact tunnelFeature_sound h
  · generalize hg : stageManifest x data s = r
    obtain ⟨a, b, u⟩ := r
    exact say_sound (stageManifest_sound hg h)
  · exact installStaged_sound h
  · exact hr _

theorem execTunnelledAdminCommand_sound {qq : List Instr} {port : Nat} {sqe : Sqe} {data : Bytes} {s : State}  (h_s : Sound qq s) : SoundOut qq (execTunnelledAdminCommand port sqe data s) := by
  unfold execTunnelledAdminCommand
  repeat' first
    | with_reducible assumption
    | intro _
    | with_reducible rfl
    | with_reducible apply Sound.ite
    | with_reducible apply each_sound
    | with_reducible apply SoundOut.next
    | with_reducible apply SoundOut.ite
    | with_reducible apply runSideband_sound
    | with_reducible apply tunnelled_sound
    | with_reducible apply installStaged_sound
    | with_reducible apply say_sound
    | (with_reducible apply Sound.update; first | with_reducible assumption | with_reducible apply runSideband_sound | with_reducible apply tunnelled_sound | with_reducible apply installStaged_sound | with_reducible apply say_sound)
    | (extract_lets +onlyGivenNames x; refine (?_ : Sound qq x → _) ?_; intro _; clear_value x; rotate_left; subst x; rotate_left)
    | (extract_lets +onlyGivenNames x; subst x)
    | split
    | dsimp -zeta only


theorem execNvmeMiSend_sound {qq : List Instr} {entry : Nat} {_data : Bytes} {s : State}  (h_s : Sound qq s) : SoundOut qq (execNvmeMiSend entry _data s) := by
  unfold execNvmeMiSend
  repeat' first
    | with_reducible assumption
    | intro _
    | with_reducible rfl
    | with_reducible apply Sound.ite
    | with_reducible apply each_sound
    | with_reducible apply SoundOut.next
    | with_reducible apply SoundOut.ite
    | with_reducible apply runEntry_sound
    | with_reducible apply miConfigSet_snd
    | (with_reducible refine miConfigSet_sound (by assumption) ?_)
    | with_reducible apply finishEntry_sound
    | (with_reducible apply Sound.update; first | with_reducible assumption | with_reducible apply runEntry_sound | with_reducible apply miConfigSet_snd | (with_reducible refine miConfigSet_sound (by assumption) ?_) | with_reducible apply finishEntry_sound)
    | (extract_lets +onlyGivenNames x; refine (?_ : Sound qq x → _) ?_; intro _; clear_value x; rotate_left; subst x; rotate_left)
    | (extract_lets +onlyGivenNames x; subst x)
    | split
    | dsimp -zeta only


theorem miAnswer_sound {qq : List Instr} {t : Nat} {e : Entry} {st : Nat} {b : Bytes} {s : State}  (h_s : Sound qq s) : Sound qq (miAnswer t e st b s) := by
  unfold miAnswer
  repeat' first
    | with_reducible assumption
    | intro _
    | with_reducible rfl
    | with_reducible apply Sound.ite
    | with_reducible apply each_sound
    | with_reducible apply onEntry_sound
    | with_reducible apply answer_sound
    | (with_reducible apply Sound.update; first | with_reducible assumption | with_reducible apply onEntry_sound | with_reducible apply answer_sound)
    | (extract_lets +onlyGivenNames x; refine (?_ : Sound qq x → _) ?_; intro _; clear_value x; rotate_left; subst x; rotate_left)
    | (extract_lets +onlyGivenNames x; subst x)
    | split
    | dsimp -zeta only


theorem execNvmeMiReceive_sound {qq : List Instr} {entry : Nat} {s : State}  (h_s : Sound qq s) : SoundOut qq (execNvmeMiReceive entry s) := by
  unfold execNvmeMiReceive
  repeat' first
    | with_reducible assumption
    | intro _
    | with_reducible rfl
    | with_reducible apply Sound.ite
    | with_reducible apply each_sound
    | with_reducible apply SoundOut.next
    | with_reducible apply SoundOut.ite
    | with_reducible apply runEntry_sound
    | with_reducible apply miAnswer_sound
    | with_reducible apply clearComposite_sound
    | with_reducible apply clearChanged_sound
    | (with_reducible apply Sound.update; first | with_reducible assumption | with_reducible apply runEntry_sound | with_reducible apply miAnswer_sound | with_reducible apply clearComposite_sound | with_reducible apply clearChanged_sound)
    | (extract_lets +onlyGivenNames x; refine (?_ : Sound qq x → _) ?_; intro _; clear_value x; rotate_left; subst x; rotate_left)
    | (extract_lets +onlyGivenNames x; subst x)
    | split
    | dsimp -zeta only


end Sys2Proof.Machine
end

