-- ==== Sys2Proof/Laws/SoundCascade.lean ====
section
/-!
SUPPORT. Soundness through the operations of Machine/Cascade.lean.
-/

set_option linter.all false

namespace Sys2Proof.Machine

theorem defaultsOnly_sound {qq : List Instr} {s : State}  (h_s : Sound qq s) : Sound qq (defaultsOnly s) := by
  unfold defaultsOnly
  repeat' first
    | with_reducible assumption
    | intro _
    | with_reducible rfl
    | with_reducible apply Sound.ite
    | with_reducible apply each_sound
    | with_reducible apply each_sound
    | with_reducible apply setImage_sound
    | (with_reducible apply Sound.update; first | with_reducible assumption | with_reducible apply each_sound | with_reducible apply setImage_sound)
    | (extract_lets +onlyGivenNames x; refine (?_ : Sound qq x → _) ?_; intro _; clear_value x; rotate_left; subst x; rotate_left)
    | (extract_lets +onlyGivenNames x; subst x)
    | split
    | dsimp -zeta only


theorem failStart_sound {qq : List Instr} {code : Nat} {s : State}  (h_s : Sound qq s) : Sound qq (failStart code s) := by
  unfold failStart
  repeat' first
    | with_reducible assumption
    | intro _
    | with_reducible rfl
    | with_reducible apply Sound.ite
    | with_reducible apply each_sound
    | with_reducible apply defaultsOnly_sound
    | with_reducible apply raise_sound
    | with_reducible apply request_sound
    | with_reducible apply releaseHeld_sound
    | (with_reducible apply Sound.update; first | with_reducible assumption | with_reducible apply defaultsOnly_sound | with_reducible apply raise_sound | with_reducible apply request_sound | with_reducible apply releaseHeld_sound)
    | (extract_lets +onlyGivenNames x; refine (?_ : Sound qq x → _) ?_; intro _; clear_value x; rotate_left; subst x; rotate_left)
    | (extract_lets +onlyGivenNames x; subst x)
    | split
    | dsimp -zeta only


theorem forwardEnded_sound {qq : List Instr} {key : Nat} {status : Nat} {dw0 : Nat} {s : State}  (h_s : Sound qq s) : Sound qq (forwardEnded key status dw0 s) := by
  unfold forwardEnded
  repeat' first
    | with_reducible assumption
    | intro _
    | with_reducible rfl
    | with_reducible apply Sound.ite
    | with_reducible apply each_sound
    | with_reducible apply endAdmin_sound
    | with_reducible apply cascadeNext_sound
    | with_reducible apply onCascade_sound
    | with_reducible apply adminDone_sound
    | (with_reducible apply Sound.update; first | with_reducible assumption | with_reducible apply endAdmin_sound | with_reducible apply cascadeNext_sound | with_reducible apply onCascade_sound | with_reducible apply adminDone_sound)
    | (extract_lets +onlyGivenNames x; refine (?_ : Sound qq x → _) ?_; intro _; clear_value x; rotate_left; subst x; rotate_left)
    | (extract_lets +onlyGivenNames x; subst x)
    | split
    | dsimp -zeta only


theorem failForwarded_sound {qq : List Instr} {s : State}  (h_s : Sound qq s) : Sound qq (failForwarded s) := by
  unfold failForwarded
  repeat' first
    | with_reducible assumption
    | intro _
    | with_reducible rfl
    | with_reducible apply Sound.ite
    | with_reducible apply each_sound
    | with_reducible apply each_sound
    | with_reducible apply forwardEnded_sound
    | (with_reducible apply Sound.update; first | with_reducible assumption | with_reducible apply each_sound | with_reducible apply forwardEnded_sound)
    | (extract_lets +onlyGivenNames x; refine (?_ : Sound qq x → _) ?_; intro _; clear_value x; rotate_left; subst x; rotate_left)
    | (extract_lets +onlyGivenNames x; subst x)
    | split
    | dsimp -zeta only


theorem refuseForYards_sound {qq : List Instr} {s : State}  (h_s : Sound qq s) : Sound qq (refuseForYards s) := by
  unfold refuseForYards
  repeat' first
    | with_reducible assumption
    | intro _
    | with_reducible rfl
    | with_reducible apply Sound.ite
    | with_reducible apply each_sound
    | with_reducible apply refuseHandshake_sound
    | (with_reducible apply Sound.update; first | with_reducible assumption | with_reducible apply refuseHandshake_sound)
    | (extract_lets +onlyGivenNames x; refine (?_ : Sound qq x → _) ?_; intro _; clear_value x; rotate_left; subst x; rotate_left)
    | (extract_lets +onlyGivenNames x; subst x)
    | split
    | dsimp -zeta only


theorem loseBranch_sound {qq : List Instr} {l : Nat} {s : State}  (h_s : Sound qq s) : Sound qq (loseBranch l s) := by
  unfold loseBranch
  repeat' first
    | with_reducible assumption
    | intro _
    | with_reducible rfl
    | with_reducible apply Sound.ite
    | with_reducible apply each_sound
    | with_reducible apply each_sound
    | with_reducible apply raise_sound
    | with_reducible apply onLinkStatus_sound
    | with_reducible apply onLink_sound
    | with_reducible apply failEntry_sound
    | with_reducible apply refuseForYards_sound
    | with_reducible apply failForwarded_sound
    | with_reducible apply fatalCondition_sound
    | with_reducible apply failStart_sound
    | with_reducible apply noteHealth_sound
    | with_reducible apply settleMedia_sound
    | with_reducible apply wakeAll_sound
    | (with_reducible apply Sound.update; first | with_reducible assumption | with_reducible apply each_sound | with_reducible apply raise_sound | with_reducible apply onLinkStatus_sound | with_reducible apply onLink_sound | with_reducible apply failEntry_sound | with_reducible apply refuseForYards_sound | with_reducible apply failForwarded_sound | with_reducible apply fatalCondition_sound | with_reducible apply failStart_sound | with_reducible apply noteHealth_sound | with_reducible apply settleMedia_sound | with_reducible apply wakeAll_sound)
    | (extract_lets +onlyGivenNames x; refine (?_ : Sound qq x → _) ?_; intro _; clear_value x; rotate_left; subst x; rotate_left)
    | (extract_lets +onlyGivenNames x; subst x)
    | split
    | dsimp -zeta only


theorem loseYard_sound {qq : List Instr} {p : Nat} {s : State}  (h_s : Sound qq s) : Sound qq (loseYard p s) := by
  unfold loseYard
  repeat' first
    | with_reducible assumption
    | intro _
    | with_reducible rfl
    | with_reducible apply Sound.ite
    | with_reducible apply each_sound
    | with_reducible apply loseBranch_sound
    | (with_reducible apply Sound.update; first | with_reducible assumption | with_reducible apply loseBranch_sound)
    | (extract_lets +onlyGivenNames x; refine (?_ : Sound qq x → _) ?_; intro _; clear_value x; rotate_left; subst x; rotate_left)
    | (extract_lets +onlyGivenNames x; subst x)
    | split
    | dsimp -zeta only


theorem linkDown_sound {qq : List Instr} {l : Nat} {s : State}  (h_s : Sound qq s) : Sound qq (linkDown l s) := by
  unfold linkDown
  repeat' first
    | with_reducible assumption
    | intro _
    | with_reducible rfl
    | with_reducible apply Sound.ite
    | with_reducible apply each_sound
    | with_reducible apply disarm_sound
    | with_reducible apply onLinkStatus_sound
    | with_reducible apply onLink_sound
    | with_reducible apply raise_sound
    | with_reducible apply loseBranch_sound
    | (with_reducible apply Sound.update; first | with_reducible assumption | with_reducible apply disarm_sound | with_reducible apply onLinkStatus_sound | with_reducible apply onLink_sound | with_reducible apply raise_sound | with_reducible apply loseBranch_sound)
    | (extract_lets +onlyGivenNames x; refine (?_ : Sound qq x → _) ?_; intro _; clear_value x; rotate_left; subst x; rotate_left)
    | (extract_lets +onlyGivenNames x; subst x)
    | split
    | dsimp -zeta only


end Sys2Proof.Machine
end

