-- ==== Sys2Proof/Laws/SoundKeaka.lean ====
section
/-!
SUPPORT. Soundness through the operations of Machine/Keaka.lean.
-/

set_option linter.all false

namespace Sys2Proof.Machine

theorem linkRaised_sound {qq : List Instr} {l : Nat} {s : State}  (h_s : Sound qq s) : Sound qq (linkRaised l s) := by
  unfold linkRaised
  repeat' first
    | with_reducible assumption
    | intro _
    | with_reducible rfl
    | with_reducible apply Sound.ite
    | with_reducible apply each_sound
    | with_reducible apply onLinkStatus_sound
    | with_reducible apply trained_sound
    | with_reducible apply onLink_sound
    | with_reducible apply each_sound
    | with_reducible apply say_sound
    | with_reducible apply arm_sound
    | with_reducible apply sendOnLink_sound
    | (with_reducible apply Sound.update; first | with_reducible assumption | with_reducible apply onLinkStatus_sound | with_reducible apply trained_sound | with_reducible apply onLink_sound | with_reducible apply each_sound | with_reducible apply say_sound | with_reducible apply arm_sound | with_reducible apply sendOnLink_sound)
    | (extract_lets +onlyGivenNames x; refine (?_ : Sound qq x → _) ?_; intro _; clear_value x; rotate_left; subst x; rotate_left)
    | (extract_lets +onlyGivenNames x; subst x)
    | split
    | dsimp -zeta only


theorem beginRetrain_sound {qq : List Instr} {l : Nat} {s : State}  (h_s : Sound qq s) : Sound qq (beginRetrain l s) := by
  unfold beginRetrain
  repeat' first
    | with_reducible assumption
    | intro _
    | with_reducible rfl
    | with_reducible apply Sound.ite
    | with_reducible apply each_sound
    | with_reducible apply onLinkStatus_sound
    | with_reducible apply onLink_sound
    | with_reducible apply raise_sound
    | with_reducible apply disarm_sound
    | (with_reducible apply Sound.update; first | with_reducible assumption | with_reducible apply onLinkStatus_sound | with_reducible apply onLink_sound | with_reducible apply raise_sound | with_reducible apply disarm_sound)
    | (extract_lets +onlyGivenNames x; refine (?_ : Sound qq x → _) ?_; intro _; clear_value x; rotate_left; subst x; rotate_left)
    | (extract_lets +onlyGivenNames x; subst x)
    | split
    | dsimp -zeta only


theorem widthChosen_sound {qq : List Instr} {l : Nat} {width : Nat} {s : State}  (h_s : Sound qq s) : Sound qq (widthChosen l width s) := by
  unfold widthChosen
  repeat' first
    | with_reducible assumption
    | intro _
    | with_reducible rfl
    | with_reducible apply Sound.ite
    | with_reducible apply each_sound
    | with_reducible apply onLinkStatus_sound
    | with_reducible apply onLink_sound
    | with_reducible apply trained_sound
    | with_reducible apply raise_sound
    | with_reducible apply linkDown_sound
    | (with_reducible apply Sound.update; first | with_reducible assumption | with_reducible apply onLinkStatus_sound | with_reducible apply onLink_sound | with_reducible apply trained_sound | with_reducible apply raise_sound | with_reducible apply linkDown_sound)
    | (extract_lets +onlyGivenNames x; refine (?_ : Sound qq x → _) ?_; intro _; clear_value x; rotate_left; subst x; rotate_left)
    | (extract_lets +onlyGivenNames x; subst x)
    | split
    | dsimp -zeta only


theorem execKeakaLinkTrainingStep_sound {qq : List Instr} {link : Nat} {width : Nat} {s : State}  (h_s : Sound qq s) : SoundOut qq (execKeakaLinkTrainingStep link width s) := by
  unfold execKeakaLinkTrainingStep
  repeat' first
    | with_reducible assumption
    | intro _
    | with_reducible rfl
    | with_reducible apply Sound.ite
    | with_reducible apply each_sound
    | with_reducible apply SoundOut.next
    | with_reducible apply SoundOut.ite
    | with_reducible apply onLink_sound
    | with_reducible apply widthChosen_sound
    | with_reducible apply say_sound
    | with_reducible apply linkRaised_sound
    | (with_reducible apply Sound.update; first | with_reducible assumption | with_reducible apply onLink_sound | with_reducible apply widthChosen_sound | with_reducible apply say_sound | with_reducible apply linkRaised_sound)
    | (extract_lets +onlyGivenNames x; refine (?_ : Sound qq x → _) ?_; intro _; clear_value x; rotate_left; subst x; rotate_left)
    | (extract_lets +onlyGivenNames x; subst x)
    | split
    | dsimp -zeta only


theorem acked_sound {qq : List Instr} {l : Nat} {ack : Nat} {s : State}  (h_s : Sound qq s) : Sound qq (acked l ack s) := by
  unfold acked
  repeat' first
    | with_reducible assumption
    | intro _
    | with_reducible rfl
    | with_reducible apply Sound.ite
    | with_reducible apply each_sound
    | with_reducible apply onLink_sound
    | with_reducible apply disarm_sound
    | with_reducible apply narrowLink_sound
    | with_reducible apply arm_sound
    | (with_reducible apply Sound.update; first | with_reducible assumption | with_reducible apply onLink_sound | with_reducible apply disarm_sound | with_reducible apply narrowLink_sound | with_reducible apply arm_sound)
    | (extract_lets +onlyGivenNames x; refine (?_ : Sound qq x → _) ?_; intro _; clear_value x; rotate_left; subst x; rotate_left)
    | (extract_lets +onlyGivenNames x; subst x)
    | split
    | dsimp -zeta only


theorem sendNak_sound {qq : List Instr} {l : Nat} {s : State}  (h_s : Sound qq s) : Sound qq (sendNak l s) := by
  unfold sendNak
  repeat' first
    | with_reducible assumption
    | intro _
    | with_reducible rfl
    | with_reducible apply Sound.ite
    | with_reducible apply each_sound
    | with_reducible apply sendOnLink_sound
    | (with_reducible apply Sound.update; first | with_reducible assumption | with_reducible apply sendOnLink_sound)
    | (extract_lets +onlyGivenNames x; refine (?_ : Sound qq x → _) ?_; intro _; clear_value x; rotate_left; subst x; rotate_left)
    | (extract_lets +onlyGivenNames x; subst x)
    | split
    | dsimp -zeta only


theorem acceptFrame_sound {qq : List Instr} {l : Nat} {h : KkHeader} {s : State}  (h_s : Sound qq s) : Sound qq (acceptFrame l h s) := by
  unfold acceptFrame
  repeat' first
    | with_reducible assumption
    | intro _
    | with_reducible rfl
    | with_reducible apply Sound.ite
    | with_reducible apply each_sound
    | with_reducible apply acked_sound
    | with_reducible apply arm_sound
    | with_reducible apply onLink_sound
    | (with_reducible apply Sound.update; first | with_reducible assumption | with_reducible apply acked_sound | with_reducible apply arm_sound | with_reducible apply onLink_sound)
    | (extract_lets +onlyGivenNames x; refine (?_ : Sound qq x → _) ?_; intro _; clear_value x; rotate_left; subst x; rotate_left)
    | (extract_lets +onlyGivenNames x; subst x)
    | split
    | dsimp -zeta only


theorem receiveFrame_sound {qq : List Instr} {l : Nat} {h : KkHeader} {type : Nat} {body : List Nat} {f : State → State} {s : State} (hf : ∀ a0, Sound qq a0 → Sound qq (f a0)) (h_s : Sound qq s) : SoundOut qq (receiveFrame l h type body f s) := by
  unfold receiveFrame
  repeat' first
    | with_reducible assumption
    | intro _
    | with_reducible rfl
    | with_reducible apply Sound.ite
    | with_reducible apply each_sound
    | with_reducible apply SoundOut.next
    | with_reducible apply SoundOut.ite
    | with_reducible apply sendNak_sound
    | with_reducible apply acceptFrame_sound
    | with_reducible apply sendOnLink_sound
    | with_reducible apply hf
    | (with_reducible apply Sound.update; first | with_reducible assumption | with_reducible apply sendNak_sound | with_reducible apply acceptFrame_sound | with_reducible apply sendOnLink_sound | with_reducible apply hf)
    | (extract_lets +onlyGivenNames x; refine (?_ : Sound qq x → _) ?_; intro _; clear_value x; rotate_left; subst x; rotate_left)
    | (extract_lets +onlyGivenNames x; subst x)
    | split
    | dsimp -zeta only


theorem execFrameReceiveError_sound {qq : List Instr} {link : Nat} {kind : FrameError} {s : State}  (h_s : Sound qq s) : SoundOut qq (execFrameReceiveError link kind s) := by
  unfold execFrameReceiveError
  repeat' first
    | with_reducible assumption
    | intro _
    | with_reducible rfl
    | with_reducible apply Sound.ite
    | with_reducible apply each_sound
    | with_reducible apply SoundOut.next
    | with_reducible apply SoundOut.ite
    | with_reducible apply sendNak_sound
    | (with_reducible apply Sound.update; first | with_reducible assumption | with_reducible apply sendNak_sound)
    | (extract_lets +onlyGivenNames x; refine (?_ : Sound qq x → _) ?_; intro _; clear_value x; rotate_left; subst x; rotate_left)
    | (extract_lets +onlyGivenNames x; subst x)
    | split
    | dsimp -zeta only


theorem resendFrom_sound {qq : List Instr} {l : Nat} {n : Nat} {s : State}  (h_s : Sound qq s) : Sound qq (resendFrom l n s) := by
  unfold resendFrom
  repeat' first
    | with_reducible assumption
    | intro _
    | with_reducible rfl
    | with_reducible apply Sound.ite
    | with_reducible apply each_sound
    | with_reducible apply each_sound
    | with_reducible apply say_sound
    | with_reducible apply onLink_sound
    | with_reducible apply beginRetrain_sound
    | (with_reducible apply Sound.update; first | with_reducible assumption | with_reducible apply each_sound | with_reducible apply say_sound | with_reducible apply onLink_sound | with_reducible apply beginRetrain_sound)
    | (extract_lets +onlyGivenNames x; refine (?_ : Sound qq x → _) ?_; intro _; clear_value x; rotate_left; subst x; rotate_left)
    | (extract_lets +onlyGivenNames x; subst x)
    | split
    | dsimp -zeta only


theorem execLinkControl_sound {qq : List Instr} {link : Nat} {frame : KkHeader} {nak : Option Nat} {s : State}  (h_s : Sound qq s) : SoundOut qq (execLinkControl link frame nak s) := by
  unfold execLinkControl
  repeat' first
    | with_reducible assumption
    | intro _
    | with_reducible rfl
    | with_reducible apply Sound.ite
    | with_reducible apply each_sound
    | with_reducible apply SoundOut.next
    | with_reducible apply SoundOut.ite
    | with_reducible apply receiveFrame_sound
    | with_reducible apply resendFrom_sound
    | (with_reducible apply Sound.update; first | with_reducible assumption | with_reducible apply receiveFrame_sound | with_reducible apply resendFrom_sound)
    | (extract_lets +onlyGivenNames x; refine (?_ : Sound qq x → _) ?_; intro _; clear_value x; rotate_left; subst x; rotate_left)
    | (extract_lets +onlyGivenNames x; subst x)
    | split
    | dsimp -zeta only


theorem execHeartbeat_sound {q : List Instr} {link : Nat} {frame : KkHeader} {s : State} (h : Sound q s) :
    SoundOut q (execHeartbeat link frame s) :=
  receiveFrame_sound (fun _ ht => ht) h

theorem execKeakaHeartbeatSend_sound {qq : List Instr} {link : Nat} {s : State}  (h_s : Sound qq s) : SoundOut qq (execKeakaHeartbeatSend link s) := by
  unfold execKeakaHeartbeatSend
  repeat' first
    | with_reducible assumption
    | intro _
    | with_reducible rfl
    | with_reducible apply Sound.ite
    | with_reducible apply each_sound
    | with_reducible apply SoundOut.next
    | with_reducible apply SoundOut.ite
    | with_reducible apply sendOnLink_sound
    | (with_reducible apply Sound.update; first | with_reducible assumption | with_reducible apply sendOnLink_sound)
    | (extract_lets +onlyGivenNames x; refine (?_ : Sound qq x → _) ?_; intro _; clear_value x; rotate_left; subst x; rotate_left)
    | (extract_lets +onlyGivenNames x; subst x)
    | split
    | dsimp -zeta only


theorem execKeakaAckTimeout_sound {qq : List Instr} {link : Nat} {s : State}  (h_s : Sound qq s) : SoundOut qq (execKeakaAckTimeout link s) := by
  unfold execKeakaAckTimeout
  repeat' first
    | with_reducible assumption
    | intro _
    | with_reducible rfl
    | with_reducible apply Sound.ite
    | with_reducible apply each_sound
    | with_reducible apply SoundOut.next
    | with_reducible apply SoundOut.ite
    | with_reducible apply beginRetrain_sound
    | (with_reducible apply Sound.update; first | with_reducible assumption | with_reducible apply beginRetrain_sound)
    | (extract_lets +onlyGivenNames x; refine (?_ : Sound qq x → _) ?_; intro _; clear_value x; rotate_left; subst x; rotate_left)
    | (extract_lets +onlyGivenNames x; subst x)
    | split
    | dsimp -zeta only


theorem execKeakaLaneLockLoss_sound {qq : List Instr} {link : Nat} {s : State}  (h_s : Sound qq s) : SoundOut qq (execKeakaLaneLockLoss link s) := by
  unfold execKeakaLaneLockLoss
  repeat' first
    | with_reducible assumption
    | intro _
    | with_reducible rfl
    | with_reducible apply Sound.ite
    | with_reducible apply each_sound
    | with_reducible apply SoundOut.next
    | with_reducible apply SoundOut.ite
    | with_reducible apply beginRetrain_sound
    | (with_reducible apply Sound.update; first | with_reducible assumption | with_reducible apply beginRetrain_sound)
    | (extract_lets +onlyGivenNames x; refine (?_ : Sound qq x → _) ?_; intro _; clear_value x; rotate_left; subst x; rotate_left)
    | (extract_lets +onlyGivenNames x; subst x)
    | split
    | dsimp -zeta only


theorem execKeakaLinkTimeout_sound {qq : List Instr} {link : Nat} {s : State}  (h_s : Sound qq s) : SoundOut qq (execKeakaLinkTimeout link s) := by
  unfold execKeakaLinkTimeout
  repeat' first
    | with_reducible assumption
    | intro _
    | with_reducible rfl
    | with_reducible apply Sound.ite
    | with_reducible apply each_sound
    | with_reducible apply SoundOut.next
    | with_reducible apply SoundOut.ite
    | with_reducible apply linkDown_sound
    | (with_reducible apply Sound.update; first | with_reducible assumption | with_reducible apply linkDown_sound)
    | (extract_lets +onlyGivenNames x; refine (?_ : Sound qq x → _) ?_; intro _; clear_value x; rotate_left; subst x; rotate_left)
    | (extract_lets +onlyGivenNames x; subst x)
    | split
    | dsimp -zeta only


theorem execKeakaJoinTimeout_sound {q : List Instr} {s : State} (h : Sound q s) : SoundOut q (execKeakaJoinTimeout s) := by
  refine .next (Sound.ite (each_sound (fun p t ht => ?_) (disarm_sound h)) h)
  with_reducible apply Sound.ite
  · exact loseYard_sound ht
  · exact ht

theorem identMismatch_sound {qq : List Instr} {l : Nat} {s : State}  (h_s : Sound qq s) : Sound qq (identMismatch l s) := by
  unfold identMismatch
  repeat' first
    | with_reducible assumption
    | intro _
    | with_reducible rfl
    | with_reducible apply Sound.ite
    | with_reducible apply each_sound
    | with_reducible apply raise_sound
    | with_reducible apply failStart_sound
    | with_reducible apply linkDown_sound
    | (with_reducible apply Sound.update; first | with_reducible assumption | with_reducible apply raise_sound | with_reducible apply failStart_sound | with_reducible apply linkDown_sound)
    | (extract_lets +onlyGivenNames x; refine (?_ : Sound qq x → _) ?_; intro _; clear_value x; rotate_left; subst x; rotate_left)
    | (extract_lets +onlyGivenNames x; subst x)
    | split
    | dsimp -zeta only


theorem takeIdent_sound {qq : List Instr} {l : Nat} {h : KkHeader} {i : KkIdent} {s : State}  (h_s : Sound qq s) : Sound qq (takeIdent l h i s) := by
  unfold takeIdent
  repeat' first
    | with_reducible assumption
    | intro _
    | with_reducible rfl
    | with_reducible apply Sound.ite
    | with_reducible apply each_sound
    | with_reducible apply identMismatch_sound
    | with_reducible apply loseYard_sound
    | with_reducible apply sendOnLink_sound
    | (with_reducible apply Sound.update; first | with_reducible assumption | with_reducible apply identMismatch_sound | with_reducible apply loseYard_sound | with_reducible apply sendOnLink_sound)
    | (extract_lets +onlyGivenNames x; refine (?_ : Sound qq x → _) ?_; intro _; clear_value x; rotate_left; subst x; rotate_left)
    | (extract_lets +onlyGivenNames x; subst x)
    | split
    | dsimp -zeta only


theorem execIdentFrame_sound {qq : List Instr} {link : Nat} {frame : KkHeader} {ident : KkIdent} {s : State}  (h_s : Sound qq s) : SoundOut qq (execIdentFrame link frame ident s) := by
  unfold execIdentFrame
  repeat' first
    | with_reducible assumption
    | intro _
    | with_reducible rfl
    | with_reducible apply Sound.ite
    | with_reducible apply each_sound
    | with_reducible apply SoundOut.next
    | with_reducible apply SoundOut.ite
    | with_reducible apply takeIdent_sound
    | with_reducible apply receiveFrame_sound
    | (with_reducible apply Sound.update; first | with_reducible assumption | with_reducible apply takeIdent_sound | with_reducible apply receiveFrame_sound)
    | (extract_lets +onlyGivenNames x; refine (?_ : Sound qq x → _) ?_; intro _; clear_value x; rotate_left; subst x; rotate_left)
    | (extract_lets +onlyGivenNames x; subst x)
    | split
    | dsimp -zeta only


theorem execTimeRequest_sound {qq : List Instr} {link : Nat} {frame : KkHeader} {t1 : Nat} {s : State}  (h_s : Sound qq s) : SoundOut qq (execTimeRequest link frame t1 s) := by
  unfold execTimeRequest
  repeat' first
    | with_reducible assumption
    | intro _
    | with_reducible rfl
    | with_reducible apply Sound.ite
    | with_reducible apply each_sound
    | with_reducible apply SoundOut.next
    | with_reducible apply SoundOut.ite
    | with_reducible apply receiveFrame_sound
    | with_reducible apply sendOnLink_sound
    | (with_reducible apply Sound.update; first | with_reducible assumption | with_reducible apply receiveFrame_sound | with_reducible apply sendOnLink_sound)
    | (extract_lets +onlyGivenNames x; refine (?_ : Sound qq x → _) ?_; intro _; clear_value x; rotate_left; subst x; rotate_left)
    | (extract_lets +onlyGivenNames x; subst x)
    | split
    | dsimp -zeta only


theorem takeTime_sound {qq : List Instr} {r : KkTime} {s : State}  (h_s : Sound qq s) : Sound qq (takeTime r s) := by
  unfold takeTime
  repeat' first
    | with_reducible assumption
    | intro _
    | with_reducible rfl
    | with_reducible apply Sound.ite
    | with_reducible apply each_sound
    | with_reducible apply goodDialog_sound
    | (with_reducible apply Sound.update; first | with_reducible assumption | with_reducible apply goodDialog_sound)
    | (extract_lets +onlyGivenNames x; refine (?_ : Sound qq x → _) ?_; intro _; clear_value x; rotate_left; subst x; rotate_left)
    | (extract_lets +onlyGivenNames x; subst x)
    | split
    | dsimp -zeta only


theorem execTimeResponse_sound {qq : List Instr} {link : Nat} {frame : KkHeader} {response : KkTime} {s : State}  (h_s : Sound qq s) : SoundOut qq (execTimeResponse link frame response s) := by
  unfold execTimeResponse
  repeat' first
    | with_reducible assumption
    | intro _
    | with_reducible rfl
    | with_reducible apply Sound.ite
    | with_reducible apply each_sound
    | with_reducible apply SoundOut.next
    | with_reducible apply SoundOut.ite
    | with_reducible apply receiveFrame_sound
    | with_reducible apply takeTime_sound
    | (with_reducible apply Sound.update; first | with_reducible assumption | with_reducible apply receiveFrame_sound | with_reducible apply takeTime_sound)
    | (extract_lets +onlyGivenNames x; refine (?_ : Sound qq x → _) ?_; intro _; clear_value x; rotate_left; subst x; rotate_left)
    | (extract_lets +onlyGivenNames x; subst x)
    | split
    | dsimp -zeta only


theorem execYardTimeDialogInterval_sound {qq : List Instr} {s : State}  (h_s : Sound qq s) : SoundOut qq (execYardTimeDialogInterval s) := by
  unfold execYardTimeDialogInterval
  repeat' first
    | with_reducible assumption
    | intro _
    | with_reducible rfl
    | with_reducible apply Sound.ite
    | with_reducible apply each_sound
    | with_reducible apply SoundOut.next
    | with_reducible apply SoundOut.ite
    | with_reducible apply arm_sound
    | with_reducible apply startYardDialog_sound
    | with_reducible apply takeStamp_snd
    | (with_reducible refine takeStamp_sound (by assumption) ?_)
    | with_reducible apply sendFrame_sound
    | (with_reducible apply Sound.update; first | with_reducible assumption | with_reducible apply arm_sound | with_reducible apply startYardDialog_sound | with_reducible apply takeStamp_snd | (with_reducible refine takeStamp_sound (by assumption) ?_) | with_reducible apply sendFrame_sound)
    | (extract_lets +onlyGivenNames x; refine (?_ : Sound qq x → _) ?_; intro _; clear_value x; rotate_left; subst x; rotate_left)
    | (extract_lets +onlyGivenNames x; subst x)
    | split
    | dsimp -zeta only


theorem execFloorReport_sound {qq : List Instr} {link : Nat} {frame : KkHeader} {stamp : Nat} {s : State}  (h_s : Sound qq s) : SoundOut qq (execFloorReport link frame stamp s) := by
  unfold execFloorReport
  repeat' first
    | with_reducible assumption
    | intro _
    | with_reducible rfl
    | with_reducible apply Sound.ite
    | with_reducible apply each_sound
    | with_reducible apply SoundOut.next
    | with_reducible apply SoundOut.ite
    | with_reducible apply receiveFrame_sound
    | (with_reducible apply Sound.update; first | with_reducible assumption | with_reducible apply receiveFrame_sound)
    | (extract_lets +onlyGivenNames x; refine (?_ : Sound qq x → _) ?_; intro _; clear_value x; rotate_left; subst x; rotate_left)
    | (extract_lets +onlyGivenNames x; subst x)
    | split
    | dsimp -zeta only


theorem execFloorSet_sound {q : List Instr} {link : Nat} {frame : KkHeader} {stamp : Nat} {s : State} (h : Sound q s) :
    SoundOut q (execFloorSet link frame stamp s) :=
  receiveFrame_sound (fun _ ht => Sound.ite (Sound.congr ht rfl rfl rfl rfl rfl rfl rfl rfl rfl rfl rfl) ht) h

theorem execSliceOpen_sound {qq : List Instr} {link : Nat} {frame : KkHeader} {slice : KkSlice} {s : State}  (h_s : Sound qq s) : SoundOut qq (execSliceOpen link frame slice s) := by
  unfold execSliceOpen
  repeat' first
    | with_reducible assumption
    | intro _
    | with_reducible rfl
    | with_reducible apply Sound.ite
    | with_reducible apply each_sound
    | with_reducible apply SoundOut.next
    | with_reducible apply SoundOut.ite
    | with_reducible apply receiveFrame_sound
    | with_reducible apply sendFrame_sound
    | (with_reducible apply Sound.update; first | with_reducible assumption | with_reducible apply receiveFrame_sound | with_reducible apply sendFrame_sound)
    | (extract_lets +onlyGivenNames x; refine (?_ : Sound qq x → _) ?_; intro _; clear_value x; rotate_left; subst x; rotate_left)
    | (extract_lets +onlyGivenNames x; subst x)
    | split
    | dsimp -zeta only


theorem execWriteData_sound {qq : List Instr} {link : Nat} {frame : KkHeader} {ns_unit : Nat} {data : Frame} {s : State}  (h_s : Sound qq s) : SoundOut qq (execWriteData link frame ns_unit data s) := by
  unfold execWriteData
  repeat' first
    | with_reducible assumption
    | intro _
    | with_reducible rfl
    | with_reducible apply Sound.ite
    | with_reducible apply each_sound
    | with_reducible apply SoundOut.next
    | with_reducible apply SoundOut.ite
    | with_reducible apply receiveFrame_sound
    | with_reducible apply onYardSlice_sound
    | (with_reducible apply Sound.update; first | with_reducible assumption | with_reducible apply receiveFrame_sound | with_reducible apply onYardSlice_sound)
    | (extract_lets +onlyGivenNames x; refine (?_ : Sound qq x → _) ?_; intro _; clear_value x; rotate_left; subst x; rotate_left)
    | (extract_lets +onlyGivenNames x; subst x)
    | split
    | dsimp -zeta only


theorem yardDone_sound {qq : List Instr} {t : Nat} {p : Nat} {s : State}  (h_s : Sound qq s) : Sound qq (yardDone t p s) := by
  unfold yardDone
  repeat' first
    | with_reducible assumption
    | intro _
    | with_reducible rfl
    | with_reducible apply Sound.ite
    | with_reducible apply each_sound
    | with_reducible apply onEntry_sound
    | (with_reducible apply Sound.update; first | with_reducible assumption | with_reducible apply onEntry_sound)
    | (extract_lets +onlyGivenNames x; refine (?_ : Sound qq x → _) ?_; intro _; clear_value x; rotate_left; subst x; rotate_left)
    | (extract_lets +onlyGivenNames x; subst x)
    | split
    | dsimp -zeta only


theorem pieceHeldAway_sound {qq : List Instr} {tag : Nat} {j : Nat} {p : Nat} {s : State}  (h_s : Sound qq s) : Sound qq (pieceHeldAway tag j p s) := by
  unfold pieceHeldAway
  repeat' first
    | with_reducible assumption
    | intro _
    | with_reducible rfl
    | with_reducible apply Sound.ite
    | with_reducible apply each_sound
    | with_reducible apply onEntry_sound
    | with_reducible apply settleMedia_sound
    | with_reducible apply wakeAll_sound
    | with_reducible apply writeEnd_sound
    | with_reducible apply yardDone_sound
    | with_reducible apply markHeld_sound
    | (with_reducible apply Sound.update; first | with_reducible assumption | with_reducible apply onEntry_sound | with_reducible apply settleMedia_sound | with_reducible apply wakeAll_sound | with_reducible apply writeEnd_sound | with_reducible apply yardDone_sound | with_reducible apply markHeld_sound)
    | (extract_lets +onlyGivenNames x; refine (?_ : Sound qq x → _) ?_; intro _; clear_value x; rotate_left; subst x; rotate_left)
    | (extract_lets +onlyGivenNames x; subst x)
    | split
    | dsimp -zeta only


theorem execSliceStatus_sound {qq : List Instr} {link : Nat} {frame : KkHeader} {status : KkStatus} {s : State}  (h_s : Sound qq s) : SoundOut qq (execSliceStatus link frame status s) := by
  unfold execSliceStatus
  repeat' first
    | with_reducible assumption
    | intro _
    | with_reducible rfl
    | with_reducible apply Sound.ite
    | with_reducible apply each_sound
    | with_reducible apply SoundOut.next
    | with_reducible apply SoundOut.ite
    | with_reducible apply receiveFrame_sound
    | with_reducible apply wakeAll_sound
    | with_reducible apply failEntry_sound
    | with_reducible apply pieceHeldAway_sound
    | with_reducible apply yardAnswered_sound
    | (with_reducible apply Sound.update; first | with_reducible assumption | with_reducible apply receiveFrame_sound | with_reducible apply wakeAll_sound | with_reducible apply failEntry_sound | with_reducible apply pieceHeldAway_sound | with_reducible apply yardAnswered_sound)
    | (extract_lets +onlyGivenNames x; refine (?_ : Sound qq x → _) ?_; intro _; clear_value x; rotate_left; subst x; rotate_left)
    | (extract_lets +onlyGivenNames x; subst x)
    | split
    | dsimp -zeta only


theorem execReleaseFrame_sound {qq : List Instr} {link : Nat} {frame : KkHeader} {pieces : List Nat} {s : State}  (h_s : Sound qq s) : SoundOut qq (execReleaseFrame link frame pieces s) := by
  unfold execReleaseFrame
  repeat' first
    | with_reducible assumption
    | intro _
    | with_reducible rfl
    | with_reducible apply Sound.ite
    | with_reducible apply each_sound
    | with_reducible apply SoundOut.next
    | with_reducible apply SoundOut.ite
    | with_reducible apply receiveFrame_sound
    | (with_reducible apply Sound.update; first | with_reducible assumption | with_reducible apply receiveFrame_sound)
    | (extract_lets +onlyGivenNames x; refine (?_ : Sound qq x → _) ?_; intro _; clear_value x; rotate_left; subst x; rotate_left)
    | (extract_lets +onlyGivenNames x; subst x)
    | split
    | dsimp -zeta only


theorem execAbortFrame_sound {q : List Instr} {link : Nat} {frame : KkHeader} {s : State} (h : Sound q s) :
    SoundOut q (execAbortFrame link frame s) := by
  refine receiveFrame_sound (fun t ht => ?_) h
  with_reducible apply Sound.ite
  · exact ht
  · refine wakeAll_sound (Sound.congr (each_sound (fun y u hu => ?_) ht) rfl rfl rfl rfl rfl rfl rfl rfl rfl rfl rfl)
    with_reducible apply Sound.ite
    · exact releaseSliceUnits_sound hu
    · exact hu

theorem execReadRequest_sound {qq : List Instr} {link : Nat} {frame : KkHeader} {slice : KkSlice} {s : State}  (h_s : Sound qq s) : SoundOut qq (execReadRequest link frame slice s) := by
  unfold execReadRequest
  repeat' first
    | with_reducible assumption
    | intro _
    | with_reducible rfl
    | with_reducible apply Sound.ite
    | with_reducible apply each_sound
    | with_reducible apply SoundOut.next
    | with_reducible apply SoundOut.ite
    | with_reducible apply receiveFrame_sound
    | with_reducible apply pumpReads_sound
    | (with_reducible apply Sound.update; first | with_reducible assumption | with_reducible apply receiveFrame_sound | with_reducible apply pumpReads_sound)
    | (extract_lets +onlyGivenNames x; refine (?_ : Sound qq x → _) ?_; intro _; clear_value x; rotate_left; subst x; rotate_left)
    | (extract_lets +onlyGivenNames x; subst x)
    | split
    | dsimp -zeta only


theorem unitReturned_sound {qq : List Instr} {t : Nat} {unit : Nat} {p : Nat} {f : Frame} {s : State}  (h_s : Sound qq s) : Sound qq (unitReturned t unit p f s) := by
  unfold unitReturned
  repeat' first
    | with_reducible assumption
    | intro _
    | with_reducible rfl
    | with_reducible apply Sound.ite
    | with_reducible apply each_sound
    | with_reducible apply yardDone_sound
    | with_reducible apply onEntry_sound
    | with_reducible apply unitFailed_sound
    | with_reducible apply dataArrived_sound
    | with_reducible apply unitRead_sound
    | with_reducible apply countXts_sound
    | (with_reducible apply Sound.update; first | with_reducible assumption | with_reducible apply yardDone_sound | with_reducible apply onEntry_sound | with_reducible apply unitFailed_sound | with_reducible apply dataArrived_sound | with_reducible apply unitRead_sound | with_reducible apply countXts_sound)
    | (extract_lets +onlyGivenNames x; refine (?_ : Sound qq x → _) ?_; intro _; clear_value x; rotate_left; subst x; rotate_left)
    | (extract_lets +onlyGivenNames x; subst x)
    | split
    | dsimp -zeta only


theorem execReadData_sound {qq : List Instr} {link : Nat} {frame : KkHeader} {ns_unit : Nat} {data : Frame} {s : State}  (h_s : Sound qq s) : SoundOut qq (execReadData link frame ns_unit data s) := by
  unfold execReadData
  repeat' first
    | with_reducible assumption
    | intro _
    | with_reducible rfl
    | with_reducible apply Sound.ite
    | with_reducible apply each_sound
    | with_reducible apply SoundOut.next
    | with_reducible apply SoundOut.ite
    | with_reducible apply receiveFrame_sound
    | with_reducible apply wakeAll_sound
    | with_reducible apply unitReturned_sound
    | (with_reducible apply Sound.update; first | with_reducible assumption | with_reducible apply receiveFrame_sound | with_reducible apply wakeAll_sound | with_reducible apply unitReturned_sound)
    | (extract_lets +onlyGivenNames x; refine (?_ : Sound qq x → _) ?_; intro _; clear_value x; rotate_left; subst x; rotate_left)
    | (extract_lets +onlyGivenNames x; subst x)
    | split
    | dsimp -zeta only


theorem execReadStatus_sound {qq : List Instr} {link : Nat} {frame : KkHeader} {status : Nat} {s : State}  (h_s : Sound qq s) : SoundOut qq (execReadStatus link frame status s) := by
  unfold execReadStatus
  repeat' first
    | with_reducible assumption
    | intro _
    | with_reducible rfl
    | with_reducible apply Sound.ite
    | with_reducible apply each_sound
    | with_reducible apply SoundOut.next
    | with_reducible apply SoundOut.ite
    | with_reducible apply receiveFrame_sound
    | with_reducible apply wakeAll_sound
    | with_reducible apply dataArrived_sound
    | with_reducible apply unitFailed_sound
    | (with_reducible apply Sound.update; first | with_reducible assumption | with_reducible apply receiveFrame_sound | with_reducible apply wakeAll_sound | with_reducible apply dataArrived_sound | with_reducible apply unitFailed_sound)
    | (extract_lets +onlyGivenNames x; refine (?_ : Sound qq x → _) ?_; intro _; clear_value x; rotate_left; subst x; rotate_left)
    | (extract_lets +onlyGivenNames x; subst x)
    | split
    | dsimp -zeta only


theorem execRecordFrame_sound {qq : List Instr} {link : Nat} {frame : KkHeader} {record : MapRecord} {s : State}  (h_s : Sound qq s) : SoundOut qq (execRecordFrame link frame record s) := by
  unfold execRecordFrame
  repeat' first
    | with_reducible assumption
    | intro _
    | with_reducible rfl
    | with_reducible apply Sound.ite
    | with_reducible apply each_sound
    | with_reducible apply SoundOut.next
    | with_reducible apply SoundOut.ite
    | with_reducible apply receiveFrame_sound
    | with_reducible apply each_sound
    | with_reducible apply holdChange_sound
    | with_reducible apply settleMedia_sound
    | with_reducible apply sendFrame_sound
    | (with_reducible apply Sound.update; first | with_reducible assumption | with_reducible apply receiveFrame_sound | with_reducible apply each_sound | with_reducible apply holdChange_sound | with_reducible apply settleMedia_sound | with_reducible apply sendFrame_sound)
    | (extract_lets +onlyGivenNames x; refine (?_ : Sound qq x → _) ?_; intro _; clear_value x; rotate_left; subst x; rotate_left)
    | (extract_lets +onlyGivenNames x; subst x)
    | split
    | dsimp -zeta only


theorem runForwarded_sound {qq : List Instr} {tag : Nat} {op : KkAdmin} {s : State}  (h_s : Sound qq s) : Sound qq (runForwarded tag op s) := by
  unfold runForwarded
  repeat' first
    | with_reducible assumption
    | intro _
    | with_reducible rfl
    | with_reducible apply Sound.ite
    | with_reducible apply each_sound
    | with_reducible apply endAdmin_sound
    | with_reducible apply commitFirmware_sound
    | with_reducible apply installManifest_sound
    | with_reducible apply sendFrame_sound
    | with_reducible apply settleMedia_sound
    | with_reducible apply yardNamespace_sound
    | (with_reducible apply Sound.update; first | with_reducible assumption | with_reducible apply endAdmin_sound | with_reducible apply commitFirmware_sound | with_reducible apply installManifest_sound | with_reducible apply sendFrame_sound | with_reducible apply settleMedia_sound | with_reducible apply yardNamespace_sound)
    | (extract_lets +onlyGivenNames x; refine (?_ : Sound qq x → _) ?_; intro _; clear_value x; rotate_left; subst x; rotate_left)
    | (extract_lets +onlyGivenNames x; subst x)
    | split
    | dsimp -zeta only


theorem execAdminForward_sound {q : List Instr} {link : Nat} {frame : KkHeader} {op : KkAdmin} {s : State} (h : Sound q s) :
    SoundOut q (execAdminForward link frame op s) :=
  receiveFrame_sound (fun _ ht => Sound.ite (runForwarded_sound ht) ht) h

theorem execAdminResult_sound {q : List Instr} {link : Nat} {frame : KkHeader} {status dw0 : Nat} {s : State}
    (h : Sound q s) : SoundOut q (execAdminResult link frame status dw0 s) :=
  receiveFrame_sound (fun _ ht => Sound.ite (forwardEnded_sound ht) ht) h

theorem execPowerStateRequest_sound {qq : List Instr} {link : Nat} {frame : KkHeader} {target : Nat} {returning : Bool} {s : State}  (h_s : Sound qq s) : SoundOut qq (execPowerStateRequest link frame target returning s) := by
  unfold execPowerStateRequest
  repeat' first
    | with_reducible assumption
    | intro _
    | with_reducible rfl
    | with_reducible apply Sound.ite
    | with_reducible apply each_sound
    | with_reducible apply SoundOut.next
    | with_reducible apply SoundOut.ite
    | with_reducible apply receiveFrame_sound
    | with_reducible apply beginReturn_sound
    | with_reducible apply setRequested_sound
    | with_reducible apply beginHandshake_sound
    | (with_reducible apply Sound.update; first | with_reducible assumption | with_reducible apply receiveFrame_sound | with_reducible apply beginReturn_sound | with_reducible apply setRequested_sound | with_reducible apply beginHandshake_sound)
    | (extract_lets +onlyGivenNames x; refine (?_ : Sound qq x → _) ?_; intro _; clear_value x; rotate_left; subst x; rotate_left)
    | (extract_lets +onlyGivenNames x; subst x)
    | split
    | dsimp -zeta only


theorem execPowerStateReply_sound {qq : List Instr} {link : Nat} {frame : KkHeader} {refusal : Option (Nat × Nat)} {s : State}  (h_s : Sound qq s) : SoundOut qq (execPowerStateReply link frame refusal s) := by
  unfold execPowerStateReply
  repeat' first
    | with_reducible assumption
    | intro _
    | with_reducible rfl
    | with_reducible apply Sound.ite
    | with_reducible apply each_sound
    | with_reducible apply SoundOut.next
    | with_reducible apply SoundOut.ite
    | with_reducible apply receiveFrame_sound
    | with_reducible apply refuseHandshake_sound
    | with_reducible apply participantAccepts_sound
    | (with_reducible apply Sound.update; first | with_reducible assumption | with_reducible apply receiveFrame_sound | with_reducible apply refuseHandshake_sound | with_reducible apply participantAccepts_sound)
    | (extract_lets +onlyGivenNames x; refine (?_ : Sound qq x → _) ?_; intro _; clear_value x; rotate_left; subst x; rotate_left)
    | (extract_lets +onlyGivenNames x; subst x)
    | split
    | dsimp -zeta only


theorem childrenLost_sound {qq : List Instr} {p : Nat} {s : State}  (h_s : Sound qq s) : Sound qq (childrenLost p s) := by
  unfold childrenLost
  repeat' first
    | with_reducible assumption
    | intro _
    | with_reducible rfl
    | with_reducible apply Sound.ite
    | with_reducible apply each_sound
    | with_reducible apply each_sound
    | with_reducible apply loseYard_sound
    | (with_reducible apply Sound.update; first | with_reducible assumption | with_reducible apply each_sound | with_reducible apply loseYard_sound)
    | (extract_lets +onlyGivenNames x; refine (?_ : Sound qq x → _) ?_; intro _; clear_value x; rotate_left; subst x; rotate_left)
    | (extract_lets +onlyGivenNames x; subst x)
    | split
    | dsimp -zeta only


theorem takeReport_sound {qq : List Instr} {p : Nat} {r : KkReport} {s : State}  (h_s : Sound qq s) : Sound qq (takeReport p r s) := by
  unfold takeReport
  repeat' first
    | with_reducible assumption
    | intro _
    | with_reducible rfl
    | with_reducible apply Sound.ite
    | with_reducible apply each_sound
    | with_reducible apply enterEvent_sound
    | with_reducible apply childrenLost_sound
    | with_reducible apply deliverError_sound
    | with_reducible apply loseYard_sound
    | with_reducible apply enterReadOnly_sound
    | (with_reducible apply Sound.update; first | with_reducible assumption | with_reducible apply enterEvent_sound | with_reducible apply childrenLost_sound | with_reducible apply deliverError_sound | with_reducible apply loseYard_sound | with_reducible apply enterReadOnly_sound)
    | (extract_lets +onlyGivenNames x; refine (?_ : Sound qq x → _) ?_; intro _; clear_value x; rotate_left; subst x; rotate_left)
    | (extract_lets +onlyGivenNames x; subst x)
    | split
    | dsimp -zeta only


theorem execEventForward_sound {qq : List Instr} {link : Nat} {frame : KkHeader} {report : KkReport} {s : State}  (h_s : Sound qq s) : SoundOut qq (execEventForward link frame report s) := by
  unfold execEventForward
  repeat' first
    | with_reducible assumption
    | intro _
    | with_reducible rfl
    | with_reducible apply Sound.ite
    | with_reducible apply each_sound
    | with_reducible apply SoundOut.next
    | with_reducible apply SoundOut.ite
    | with_reducible apply receiveFrame_sound
    | with_reducible apply takeReport_sound
    | (with_reducible apply Sound.update; first | with_reducible assumption | with_reducible apply receiveFrame_sound | with_reducible apply takeReport_sound)
    | (extract_lets +onlyGivenNames x; refine (?_ : Sound qq x → _) ?_; intro _; clear_value x; rotate_left; subst x; rotate_left)
    | (extract_lets +onlyGivenNames x; subst x)
    | split
    | dsimp -zeta only


end Sys2Proof.Machine
end

