-- ==== Sys2Proof/Laws/SoundEndpoint.lean ====
section
/-!
SUPPORT. Soundness through the operations of Machine/Endpoint.lean.
-/

set_option linter.all false

namespace Sys2Proof.Machine

theorem execPcieLinkUp_sound {qq : List Instr} {port : Nat} {width : Nat} {speed : Nat} {flit : Bool} {s : State}  (h_s : Sound qq s) : SoundOut qq (execPcieLinkUp port width speed flit s) := by
  unfold execPcieLinkUp
  repeat' first
    | with_reducible assumption
    | intro _
    | with_reducible rfl
    | with_reducible apply Sound.ite
    | with_reducible apply each_sound
    | with_reducible apply SoundOut.next
    | with_reducible apply SoundOut.ite
    | with_reducible apply onPortStatus_sound
    | (with_reducible apply Sound.update; first | with_reducible assumption | with_reducible apply onPortStatus_sound)
    | (extract_lets +onlyGivenNames x; refine (?_ : Sound qq x → _) ?_; intro _; clear_value x; rotate_left; subst x; rotate_left)
    | (extract_lets +onlyGivenNames x; subst x)
    | split
    | dsimp -zeta only


theorem execHotResetOrLinkDown_sound {qq : List Instr} {port : Nat} {down : Bool} {s : State}  (h_s : Sound qq s) : SoundOut qq (execHotResetOrLinkDown port down s) := by
  unfold execHotResetOrLinkDown
  repeat' first
    | with_reducible assumption
    | intro _
    | with_reducible rfl
    | with_reducible apply Sound.ite
    | with_reducible apply each_sound
    | with_reducible apply SoundOut.next
    | with_reducible apply SoundOut.ite
    | with_reducible apply raise_sound
    | with_reducible apply afterEnded_sound
    | with_reducible apply assertSource_sound
    | (with_reducible apply Sound.update; first | with_reducible assumption | with_reducible apply raise_sound | with_reducible apply afterEnded_sound | with_reducible apply assertSource_sound)
    | (extract_lets +onlyGivenNames x; refine (?_ : Sound qq x → _) ?_; intro _; clear_value x; rotate_left; subst x; rotate_left)
    | (extract_lets +onlyGivenNames x; subst x)
    | split
    | dsimp -zeta only


theorem configured_sound {qq : List Instr} {n : Nat} {f : State → State} {s : State} (hf : ∀ a0, Sound qq a0 → Sound qq (f a0)) (h_s : Sound qq s) : Sound qq (configured n f s) := by
  unfold configured
  repeat' first
    | with_reducible assumption
    | intro _
    | with_reducible rfl
    | with_reducible apply Sound.ite
    | with_reducible apply each_sound
    | with_reducible apply say_sound
    | with_reducible apply hf
    | (with_reducible apply Sound.update; first | with_reducible assumption | with_reducible apply say_sound | with_reducible apply hf)
    | (extract_lets +onlyGivenNames x; refine (?_ : Sound qq x → _) ?_; intro _; clear_value x; rotate_left; subst x; rotate_left)
    | (extract_lets +onlyGivenNames x; subst x)
    | split
    | dsimp -zeta only


theorem stopController_sound {qq : List Instr} {c : Nat} {s : State}  (h_s : Sound qq s) : Sound qq (stopController c s) := by
  unfold stopController
  repeat' first
    | with_reducible assumption
    | intro _
    | with_reducible rfl
    | with_reducible apply Sound.ite
    | with_reducible apply each_sound
    | with_reducible apply afterEnded_sound
    | with_reducible apply endCommands_sound
    | with_reducible apply setCfs_sound
    | (with_reducible apply Sound.update; first | with_reducible assumption | with_reducible apply afterEnded_sound | with_reducible apply endCommands_sound | with_reducible apply setCfs_sound)
    | (extract_lets +onlyGivenNames x; refine (?_ : Sound qq x → _) ?_; intro _; clear_value x; rotate_left; subst x; rotate_left)
    | (extract_lets +onlyGivenNames x; subst x)
    | split
    | dsimp -zeta only


theorem execBusMasterEnableClear_sound {q : List Instr} {port : Nat} {s : State} (h : Sound q s) :
    SoundOut q (execBusMasterEnableClear port s) := by
  refine .next (configured_sound (fun t ht => ?_) h)
  have h1 := quarantineAll_sound (n := port) (onPortStatus_sound (n := port) (f := fun p => { p with bme := false }) ht)
  with_reducible apply Sound.ite
  · with_reducible apply Sound.ite
    · exact stopController_sound h1
    · exact h1
  · exact ht

theorem execBusMasterEnableSet_sound {qq : List Instr} {port : Nat} {s : State}  (h_s : Sound qq s) : SoundOut qq (execBusMasterEnableSet port s) := by
  unfold execBusMasterEnableSet
  repeat' first
    | with_reducible assumption
    | intro _
    | with_reducible rfl
    | with_reducible apply Sound.ite
    | with_reducible apply each_sound
    | with_reducible apply SoundOut.next
    | with_reducible apply SoundOut.ite
    | with_reducible apply configured_sound
    | with_reducible apply grantAll_sound
    | with_reducible apply sendPending_sound
    | with_reducible apply onPortStatus_sound
    | (with_reducible apply Sound.update; first | with_reducible assumption | with_reducible apply configured_sound | with_reducible apply grantAll_sound | with_reducible apply sendPending_sound | with_reducible apply onPortStatus_sound)
    | (extract_lets +onlyGivenNames x; refine (?_ : Sound qq x → _) ?_; intro _; clear_value x; rotate_left; subst x; rotate_left)
    | (extract_lets +onlyGivenNames x; subst x)
    | split
    | dsimp -zeta only


theorem execInitiateFlr_sound {qq : List Instr} {port : Nat} {s : State}  (h_s : Sound qq s) : SoundOut qq (execInitiateFlr port s) := by
  unfold execInitiateFlr
  repeat' first
    | with_reducible assumption
    | intro _
    | with_reducible rfl
    | with_reducible apply Sound.ite
    | with_reducible apply each_sound
    | with_reducible apply SoundOut.next
    | with_reducible apply SoundOut.ite
    | with_reducible apply configured_sound
    | with_reducible apply assertSource_sound
    | with_reducible apply afterEnded_sound
    | with_reducible apply endCommands_sound
    | with_reducible apply quarantineAll_sound
    | with_reducible apply onPort_sound
    | (with_reducible apply Sound.update; first | with_reducible assumption | with_reducible apply configured_sound | with_reducible apply assertSource_sound | with_reducible apply afterEnded_sound | with_reducible apply endCommands_sound | with_reducible apply quarantineAll_sound | with_reducible apply onPort_sound)
    | (extract_lets +onlyGivenNames x; refine (?_ : Sound qq x → _) ?_; intro _; clear_value x; rotate_left; subst x; rotate_left)
    | (extract_lets +onlyGivenNames x; subst x)
    | split
    | dsimp -zeta only


theorem execFlrComplete_sound {qq : List Instr} {port : Nat} {s : State}  (h_s : Sound qq s) : SoundOut qq (execFlrComplete port s) := by
  unfold execFlrComplete
  repeat' first
    | with_reducible assumption
    | intro _
    | with_reducible rfl
    | with_reducible apply Sound.ite
    | with_reducible apply each_sound
    | with_reducible apply SoundOut.next
    | with_reducible apply SoundOut.ite
    | with_reducible apply onPort_sound
    | with_reducible apply functionReset_sound
    | with_reducible apply onPortStatus_sound
    | with_reducible apply afterEnded_sound
    | with_reducible apply refreshTagMode_sound
    | (with_reducible apply Sound.update; first | with_reducible assumption | with_reducible apply onPort_sound | with_reducible apply functionReset_sound | with_reducible apply onPortStatus_sound | with_reducible apply afterEnded_sound | with_reducible apply refreshTagMode_sound)
    | (extract_lets +onlyGivenNames x; refine (?_ : Sound qq x → _) ?_; intro _; clear_value x; rotate_left; subst x; rotate_left)
    | (extract_lets +onlyGivenNames x; subst x)
    | split
    | dsimp -zeta only


theorem execD3hotEntry_sound {qq : List Instr} {port : Nat} {s : State}  (h_s : Sound qq s) : SoundOut qq (execD3hotEntry port s) := by
  unfold execD3hotEntry
  repeat' first
    | with_reducible assumption
    | intro _
    | with_reducible rfl
    | with_reducible apply Sound.ite
    | with_reducible apply each_sound
    | with_reducible apply SoundOut.next
    | with_reducible apply SoundOut.ite
    | with_reducible apply configured_sound
    | with_reducible apply onPortStatus_sound
    | with_reducible apply stopController_sound
    | with_reducible apply quarantineAll_sound
    | (with_reducible apply Sound.update; first | with_reducible assumption | with_reducible apply configured_sound | with_reducible apply onPortStatus_sound | with_reducible apply stopController_sound | with_reducible apply quarantineAll_sound)
    | (extract_lets +onlyGivenNames x; refine (?_ : Sound qq x → _) ?_; intro _; clear_value x; rotate_left; subst x; rotate_left)
    | (extract_lets +onlyGivenNames x; subst x)
    | split
    | dsimp -zeta only


theorem writeConfig_sound {qq : List Instr} {n : Nat} {f : ConfigField} {s : State}  (h_s : Sound qq s) : Sound qq (writeConfig n f s) := by
  unfold writeConfig
  repeat' first
    | with_reducible assumption
    | intro _
    | with_reducible rfl
    | with_reducible apply Sound.ite
    | with_reducible apply each_sound
    | with_reducible apply onPort_sound
    | with_reducible apply refreshTagMode_sound
    | with_reducible apply onPortStatus_sound
    | with_reducible apply sendPending_sound
    | with_reducible apply grantAll_sound
    | (with_reducible apply Sound.update; first | with_reducible assumption | with_reducible apply onPort_sound | with_reducible apply refreshTagMode_sound | with_reducible apply onPortStatus_sound | with_reducible apply sendPending_sound | with_reducible apply grantAll_sound)
    | (extract_lets +onlyGivenNames x; refine (?_ : Sound qq x → _) ?_; intro _; clear_value x; rotate_left; subst x; rotate_left)
    | (extract_lets +onlyGivenNames x; subst x)
    | split
    | dsimp -zeta only


theorem execConfigWrite_sound {qq : List Instr} {port : Nat} {field : ConfigField} {s : State}  (h_s : Sound qq s) : SoundOut qq (execConfigWrite port field s) := by
  unfold execConfigWrite
  repeat' first
    | with_reducible assumption
    | intro _
    | with_reducible rfl
    | with_reducible apply Sound.ite
    | with_reducible apply each_sound
    | with_reducible apply SoundOut.next
    | with_reducible apply SoundOut.ite
    | with_reducible apply configured_sound
    | with_reducible apply writeConfig_sound
    | (with_reducible apply Sound.update; first | with_reducible assumption | with_reducible apply configured_sound | with_reducible apply writeConfig_sound)
    | (extract_lets +onlyGivenNames x; refine (?_ : Sound qq x → _) ?_; intro _; clear_value x; rotate_left; subst x; rotate_left)
    | (extract_lets +onlyGivenNames x; subst x)
    | split
    | dsimp -zeta only


theorem settled_sound {q : List Instr} {o : Host.Outcome State Fault Refusal} {s : State} (ho : SoundOut q o)
    (h : Sound q s) : Sound q (settled o s) := by
  unfold settled
  split
  · exact ho.holds _ rfl
  · exact h

theorem ccWritten_sound {qq : List Instr} {c : Nat} {v : Nat} {s : State}  (h_s : Sound qq s) : Sound qq (ccWritten c v s) := by
  unfold ccWritten
  repeat' first
    | with_reducible assumption
    | intro _
    | with_reducible rfl
    | with_reducible apply Sound.ite
    | with_reducible apply each_sound
    | with_reducible apply enableController_sound
    | with_reducible apply onCtrl_sound
    | with_reducible apply settled_sound
    | with_reducible apply execControllerReset_sound
    | with_reducible apply execShutdownNormal_sound
    | with_reducible apply execShutdownAbrupt_sound
    | (with_reducible apply Sound.update; first | with_reducible assumption | with_reducible apply enableController_sound | with_reducible apply onCtrl_sound | with_reducible apply settled_sound | with_reducible apply execControllerReset_sound | with_reducible apply execShutdownNormal_sound | with_reducible apply execShutdownAbrupt_sound)
    | (extract_lets +onlyGivenNames x; refine (?_ : Sound qq x → _) ?_; intro _; clear_value x; rotate_left; subst x; rotate_left)
    | (extract_lets +onlyGivenNames x; subst x)
    | split
    | dsimp -zeta only


theorem nvmeWrite_sound {qq : List Instr} {c : Nat} {o : Nat} {v : Nat} {s : State}  (h_s : Sound qq s) : Sound qq (nvmeWrite c o v s) := by
  unfold nvmeWrite
  repeat' first
    | with_reducible assumption
    | intro _
    | with_reducible rfl
    | with_reducible apply Sound.ite
    | with_reducible apply each_sound
    | with_reducible apply ccWritten_sound
    | with_reducible apply onCtrl_sound
    | with_reducible apply settled_sound
    | with_reducible apply execNvmSubsystemReset_sound
    | with_reducible apply tailWritten_sound
    | with_reducible apply headWritten_sound
    | (with_reducible apply Sound.update; first | with_reducible assumption | with_reducible apply ccWritten_sound | with_reducible apply onCtrl_sound | with_reducible apply settled_sound | with_reducible apply execNvmSubsystemReset_sound | with_reducible apply tailWritten_sound | with_reducible apply headWritten_sound)
    | (extract_lets +onlyGivenNames x; refine (?_ : Sound qq x → _) ?_; intro _; clear_value x; rotate_left; subst x; rotate_left)
    | (extract_lets +onlyGivenNames x; subst x)
    | split
    | dsimp -zeta only


theorem nvmeWrites_sound {qq : List Instr} {c : Nat} {o : Nat} {bytes : Nat} {v : Nat} {s : State}  (h_s : Sound qq s) : Sound qq (nvmeWrites c o bytes v s) := by
  unfold nvmeWrites
  repeat' first
    | with_reducible assumption
    | intro _
    | with_reducible rfl
    | with_reducible apply Sound.ite
    | with_reducible apply each_sound
    | with_reducible apply nvmeWrite_sound
    | (with_reducible apply Sound.update; first | with_reducible assumption | with_reducible apply nvmeWrite_sound)
    | (extract_lets +onlyGivenNames x; refine (?_ : Sound qq x → _) ?_; intro _; clear_value x; rotate_left; subst x; rotate_left)
    | (extract_lets +onlyGivenNames x; subst x)
    | split
    | dsimp -zeta only


theorem execBar0Access_sound {qq : List Instr} {port : Nat} {offset : Nat} {bytes : Nat} {data : Option Nat} {s : State}  (h_s : Sound qq s) : SoundOut qq (execBar0Access port offset bytes data s) := by
  unfold execBar0Access
  repeat' first
    | with_reducible assumption
    | intro _
    | with_reducible rfl
    | with_reducible apply Sound.ite
    | with_reducible apply each_sound
    | with_reducible apply SoundOut.next
    | with_reducible apply SoundOut.ite
    | with_reducible apply memoryWrite_sound
    | with_reducible apply writeAligned_sound
    | with_reducible apply nvmeWrites_sound
    | with_reducible apply memoryRead_sound
    | with_reducible apply answerRead_sound
    | with_reducible apply say_sound
    | (with_reducible apply Sound.update; first | with_reducible assumption | with_reducible apply memoryWrite_sound | with_reducible apply writeAligned_sound | with_reducible apply nvmeWrites_sound | with_reducible apply memoryRead_sound | with_reducible apply answerRead_sound | with_reducible apply say_sound)
    | (extract_lets +onlyGivenNames x; refine (?_ : Sound qq x → _) ?_; intro _; clear_value x; rotate_left; subst x; rotate_left)
    | (extract_lets +onlyGivenNames x; subst x)
    | split
    | dsimp -zeta only


theorem execCmbRead_sound {qq : List Instr} {port : Nat} {offset : Nat} {len : Nat} {s : State}  (h_s : Sound qq s) : SoundOut qq (execCmbRead port offset len s) := by
  unfold execCmbRead
  repeat' first
    | with_reducible assumption
    | intro _
    | with_reducible rfl
    | with_reducible apply Sound.ite
    | with_reducible apply each_sound
    | with_reducible apply SoundOut.next
    | with_reducible apply SoundOut.ite
    | with_reducible apply memoryRead_sound
    | with_reducible apply cmbRequest_sound
    | (with_reducible apply Sound.update; first | with_reducible assumption | with_reducible apply memoryRead_sound | with_reducible apply cmbRequest_sound)
    | (extract_lets +onlyGivenNames x; refine (?_ : Sound qq x → _) ?_; intro _; clear_value x; rotate_left; subst x; rotate_left)
    | (extract_lets +onlyGivenNames x; subst x)
    | split
    | dsimp -zeta only


theorem execCmbWrite_sound {qq : List Instr} {port : Nat} {offset : Nat} {data : Bytes} {enables : List Bool} {s : State}  (h_s : Sound qq s) : SoundOut qq (execCmbWrite port offset data enables s) := by
  unfold execCmbWrite
  repeat' first
    | with_reducible assumption
    | intro _
    | with_reducible rfl
    | with_reducible apply Sound.ite
    | with_reducible apply each_sound
    | with_reducible apply SoundOut.next
    | with_reducible apply SoundOut.ite
    | with_reducible apply memoryWrite_sound
    | with_reducible apply cmbRequest_sound
    | (with_reducible apply Sound.update; first | with_reducible assumption | with_reducible apply memoryWrite_sound | with_reducible apply cmbRequest_sound)
    | (extract_lets +onlyGivenNames x; refine (?_ : Sound qq x → _) ?_; intro _; clear_value x; rotate_left; subst x; rotate_left)
    | (extract_lets +onlyGivenNames x; subst x)
    | split
    | dsimp -zeta only


theorem execCmbWindowWrite_sound {qq : List Instr} {slot : Nat} {value : BitVec 64} {s : State}  (h_s : Sound qq s) : SoundOut qq (execCmbWindowWrite slot value s) := by
  unfold execCmbWindowWrite
  repeat' first
    | with_reducible assumption
    | intro _
    | with_reducible rfl
    | with_reducible apply Sound.ite
    | with_reducible apply each_sound
    | with_reducible apply SoundOut.next
    | with_reducible apply SoundOut.ite
    | with_reducible apply windowWritten_sound
    | (with_reducible apply Sound.update; first | with_reducible assumption | with_reducible apply windowWritten_sound)
    | (extract_lets +onlyGivenNames x; refine (?_ : Sound qq x → _) ?_; intro _; clear_value x; rotate_left; subst x; rotate_left)
    | (extract_lets +onlyGivenNames x; subst x)
    | split
    | dsimp -zeta only


theorem execCmbFenceEnd_sound {qq : List Instr} {slot : Nat} {s : State}  (h_s : Sound qq s) : SoundOut qq (execCmbFenceEnd slot s) := by
  unfold execCmbFenceEnd
  repeat' first
    | with_reducible assumption
    | intro _
    | with_reducible rfl
    | with_reducible apply Sound.ite
    | with_reducible apply each_sound
    | with_reducible apply SoundOut.next
    | with_reducible apply SoundOut.ite
    | with_reducible apply endFence_sound
    | (with_reducible apply Sound.update; first | with_reducible assumption | with_reducible apply endFence_sound)
    | (extract_lets +onlyGivenNames x; refine (?_ : Sound qq x → _) ?_; intro _; clear_value x; rotate_left; subst x; rotate_left)
    | (extract_lets +onlyGivenNames x; subst x)
    | split
    | dsimp -zeta only


theorem msixWrite_sound {qq : List Instr} {n : Nat} {o : Nat} {v : Nat} {s : State}  (h_s : Sound qq s) : Sound qq (msixWrite n o v s) := by
  unfold msixWrite
  repeat' first
    | with_reducible assumption
    | intro _
    | with_reducible rfl
    | with_reducible apply Sound.ite
    | with_reducible apply each_sound
    | with_reducible apply sendPending_sound
    | with_reducible apply onPort_sound
    | (with_reducible apply Sound.update; first | with_reducible assumption | with_reducible apply sendPending_sound | with_reducible apply onPort_sound)
    | (extract_lets +onlyGivenNames x; refine (?_ : Sound qq x → _) ?_; intro _; clear_value x; rotate_left; subst x; rotate_left)
    | (extract_lets +onlyGivenNames x; subst x)
    | split
    | dsimp -zeta only


theorem execMsixTableAccess_sound {qq : List Instr} {port : Nat} {offset : Nat} {bytes : Nat} {data : Option Nat} {s : State}  (h_s : Sound qq s) : SoundOut qq (execMsixTableAccess port offset bytes data s) := by
  unfold execMsixTableAccess
  repeat' first
    | with_reducible assumption
    | intro _
    | with_reducible rfl
    | with_reducible apply Sound.ite
    | with_reducible apply each_sound
    | with_reducible apply SoundOut.next
    | with_reducible apply SoundOut.ite
    | with_reducible apply memoryWrite_sound
    | with_reducible apply msixWrite_sound
    | with_reducible apply memoryRead_sound
    | with_reducible apply say_sound
    | (with_reducible apply Sound.update; first | with_reducible assumption | with_reducible apply memoryWrite_sound | with_reducible apply msixWrite_sound | with_reducible apply memoryRead_sound | with_reducible apply say_sound)
    | (extract_lets +onlyGivenNames x; refine (?_ : Sound qq x → _) ?_; intro _; clear_value x; rotate_left; subst x; rotate_left)
    | (extract_lets +onlyGivenNames x; subst x)
    | split
    | dsimp -zeta only


theorem failRead_sound {qq : List Instr} {r : ReadRequest} {s : State}  (h_s : Sound qq s) : Sound qq (failRead r s) := by
  unfold failRead
  repeat' first
    | with_reducible assumption
    | intro _
    | with_reducible rfl
    | with_reducible apply Sound.ite
    | with_reducible apply each_sound
    | with_reducible apply afterEnded_sound
    | with_reducible apply failEntry_sound
    | with_reducible apply grantAll_sound
    | (with_reducible apply Sound.update; first | with_reducible assumption | with_reducible apply afterEnded_sound | with_reducible apply failEntry_sound | with_reducible apply grantAll_sound)
    | (extract_lets +onlyGivenNames x; refine (?_ : Sound qq x → _) ?_; intro _; clear_value x; rotate_left; subst x; rotate_left)
    | (extract_lets +onlyGivenNames x; subst x)
    | split
    | dsimp -zeta only


theorem readArrived_sound {qq : List Instr} {n : Nat} {g : Nat} {r : ReadRequest} {b : Bytes} {s : State}  (h_s : Sound qq s) : Sound qq (readArrived n g r b s) := by
  unfold readArrived
  repeat' first
    | with_reducible assumption
    | intro _
    | with_reducible rfl
    | with_reducible apply Sound.ite
    | with_reducible apply each_sound
    | with_reducible apply placeData_sound
    | with_reducible apply grantAll_sound
    | with_reducible apply dropRead_sound
    | with_reducible apply dataArrived_sound
    | with_reducible apply onPort_sound
    | (with_reducible apply Sound.update; first | with_reducible assumption | with_reducible apply placeData_sound | with_reducible apply grantAll_sound | with_reducible apply dropRead_sound | with_reducible apply dataArrived_sound | with_reducible apply onPort_sound)
    | (extract_lets +onlyGivenNames x; refine (?_ : Sound qq x → _) ?_; intro _; clear_value x; rotate_left; subst x; rotate_left)
    | (extract_lets +onlyGivenNames x; subst x)
    | split
    | dsimp -zeta only


theorem lateCompletion_sound {qq : List Instr} {n : Nat} {g : Nat} {left : Nat} {ends : Bool} {b : Bytes} {s : State}  (h_s : Sound qq s) : Sound qq (lateCompletion n g left ends b s) := by
  unfold lateCompletion
  repeat' first
    | with_reducible assumption
    | intro _
    | with_reducible rfl
    | with_reducible apply Sound.ite
    | with_reducible apply each_sound
    | with_reducible apply grantAll_sound
    | with_reducible apply disarm_sound
    | with_reducible apply quarantine_sound
    | with_reducible apply onPort_sound
    | (with_reducible apply Sound.update; first | with_reducible assumption | with_reducible apply grantAll_sound | with_reducible apply disarm_sound | with_reducible apply quarantine_sound | with_reducible apply onPort_sound)
    | (extract_lets +onlyGivenNames x; refine (?_ : Sound qq x → _) ?_; intro _; clear_value x; rotate_left; subst x; rotate_left)
    | (extract_lets +onlyGivenNames x; subst x)
    | split
    | dsimp -zeta only


theorem execReadCompletionReceived_sound {qq : List Instr} {port : Nat} {tag : Nat} {outcome : CplOutcome} {data : Bytes} {s : State}  (h_s : Sound qq s) : SoundOut qq (execReadCompletionReceived port tag outcome data s) := by
  unfold execReadCompletionReceived
  repeat' first
    | with_reducible assumption
    | intro _
    | with_reducible rfl
    | with_reducible apply Sound.ite
    | with_reducible apply each_sound
    | with_reducible apply SoundOut.next
    | with_reducible apply SoundOut.ite
    | with_reducible apply uncorrectable_sound
    | with_reducible apply failRead_sound
    | with_reducible apply quarantine_sound
    | with_reducible apply readArrived_sound
    | with_reducible apply raise_sound
    | with_reducible apply dropRead_sound
    | with_reducible apply lateCompletion_sound
    | (with_reducible apply Sound.update; first | with_reducible assumption | with_reducible apply uncorrectable_sound | with_reducible apply failRead_sound | with_reducible apply quarantine_sound | with_reducible apply readArrived_sound | with_reducible apply raise_sound | with_reducible apply dropRead_sound | with_reducible apply lateCompletion_sound)
    | (extract_lets +onlyGivenNames x; refine (?_ : Sound qq x → _) ?_; intro _; clear_value x; rotate_left; subst x; rotate_left)
    | (extract_lets +onlyGivenNames x; subst x)
    | split
    | dsimp -zeta only


theorem execCompletionTimeout_sound {qq : List Instr} {port : Nat} {tag : Nat} {s : State}  (h_s : Sound qq s) : SoundOut qq (execCompletionTimeout port tag s) := by
  unfold execCompletionTimeout
  repeat' first
    | with_reducible assumption
    | intro _
    | with_reducible rfl
    | with_reducible apply Sound.ite
    | with_reducible apply each_sound
    | with_reducible apply SoundOut.next
    | with_reducible apply SoundOut.ite
    | with_reducible apply uncorrectable_sound
    | with_reducible apply failRead_sound
    | with_reducible apply quarantine_sound
    | with_reducible apply disarm_sound
    | (with_reducible apply Sound.update; first | with_reducible assumption | with_reducible apply uncorrectable_sound | with_reducible apply failRead_sound | with_reducible apply quarantine_sound | with_reducible apply disarm_sound)
    | (extract_lets +onlyGivenNames x; refine (?_ : Sound qq x → _) ?_; intro _; clear_value x; rotate_left; subst x; rotate_left)
    | (extract_lets +onlyGivenNames x; subst x)
    | split
    | dsimp -zeta only


theorem execTagQuarantineExpiry_sound {qq : List Instr} {port : Nat} {tag : Nat} {s : State}  (h_s : Sound qq s) : SoundOut qq (execTagQuarantineExpiry port tag s) := by
  unfold execTagQuarantineExpiry
  repeat' first
    | with_reducible assumption
    | intro _
    | with_reducible rfl
    | with_reducible apply Sound.ite
    | with_reducible apply each_sound
    | with_reducible apply SoundOut.next
    | with_reducible apply SoundOut.ite
    | with_reducible apply quarantine_sound
    | with_reducible apply grantAll_sound
    | with_reducible apply disarm_sound
    | with_reducible apply onPort_sound
    | (with_reducible apply Sound.update; first | with_reducible assumption | with_reducible apply quarantine_sound | with_reducible apply grantAll_sound | with_reducible apply disarm_sound | with_reducible apply onPort_sound)
    | (extract_lets +onlyGivenNames x; refine (?_ : Sound qq x → _) ?_; intro _; clear_value x; rotate_left; subst x; rotate_left)
    | (extract_lets +onlyGivenNames x; subst x)
    | split
    | dsimp -zeta only


theorem execPoisonedWriteReceived_sound {qq : List Instr} {port : Nat} {bar : Nat} {bytes : Bytes} {s : State}  (h_s : Sound qq s) : SoundOut qq (execPoisonedWriteReceived port bar bytes s) := by
  unfold execPoisonedWriteReceived
  repeat' first
    | with_reducible assumption
    | intro _
    | with_reducible rfl
    | with_reducible apply Sound.ite
    | with_reducible apply each_sound
    | with_reducible apply SoundOut.next
    | with_reducible apply SoundOut.ite
    | with_reducible apply uncorrectable_sound
    | (with_reducible apply Sound.update; first | with_reducible assumption | with_reducible apply uncorrectable_sound)
    | (extract_lets +onlyGivenNames x; refine (?_ : Sound qq x → _) ?_; intro _; clear_value x; rotate_left; subst x; rotate_left)
    | (extract_lets +onlyGivenNames x; subst x)
    | split
    | dsimp -zeta only


theorem execMalformedTlpReceived_sound {qq : List Instr} {port : Nat} {s : State}  (h_s : Sound qq s) : SoundOut qq (execMalformedTlpReceived port s) := by
  unfold execMalformedTlpReceived
  repeat' first
    | with_reducible assumption
    | intro _
    | with_reducible rfl
    | with_reducible apply Sound.ite
    | with_reducible apply each_sound
    | with_reducible apply SoundOut.next
    | with_reducible apply SoundOut.ite
    | with_reducible apply uncorrectable_sound
    | (with_reducible apply Sound.update; first | with_reducible assumption | with_reducible apply uncorrectable_sound)
    | (extract_lets +onlyGivenNames x; refine (?_ : Sound qq x → _) ?_; intro _; clear_value x; rotate_left; subst x; rotate_left)
    | (extract_lets +onlyGivenNames x; subst x)
    | split
    | dsimp -zeta only


theorem execLinkCorrectableError_sound {qq : List Instr} {port : Nat} {kind : LinkError} {s : State}  (h_s : Sound qq s) : SoundOut qq (execLinkCorrectableError port kind s) := by
  unfold execLinkCorrectableError
  repeat' first
    | with_reducible assumption
    | intro _
    | with_reducible rfl
    | with_reducible apply Sound.ite
    | with_reducible apply each_sound
    | with_reducible apply SoundOut.next
    | with_reducible apply SoundOut.ite
    | with_reducible apply onPort_sound
    | (with_reducible apply Sound.update; first | with_reducible assumption | with_reducible apply onPort_sound)
    | (extract_lets +onlyGivenNames x; refine (?_ : Sound qq x → _) ?_; intro _; clear_value x; rotate_left; subst x; rotate_left)
    | (extract_lets +onlyGivenNames x; subst x)
    | split
    | dsimp -zeta only


theorem execEndpointInternalError_sound {qq : List Instr} {port : Nat} {s : State}  (h_s : Sound qq s) : SoundOut qq (execEndpointInternalError port s) := by
  unfold execEndpointInternalError
  repeat' first
    | with_reducible assumption
    | intro _
    | with_reducible rfl
    | with_reducible apply Sound.ite
    | with_reducible apply each_sound
    | with_reducible apply SoundOut.next
    | with_reducible apply SoundOut.ite
    | with_reducible apply setCfs_sound
    | with_reducible apply uncorrectable_sound
    | (with_reducible apply Sound.update; first | with_reducible assumption | with_reducible apply setCfs_sound | with_reducible apply uncorrectable_sound)
    | (extract_lets +onlyGivenNames x; refine (?_ : Sound qq x → _) ?_; intro _; clear_value x; rotate_left; subst x; rotate_left)
    | (extract_lets +onlyGivenNames x; subst x)
    | split
    | dsimp -zeta only


end Sys2Proof.Machine
end

