-- ==== Sys2Proof/Laws/SoundStart.lean ====
section
/-!
SUPPORT. Soundness through the operations of Machine/Start.lean.
-/

set_option linter.all false

namespace Sys2Proof.Machine

theorem goStep_sound {qq : List Instr} {n : Nat} {s : State}  (h_s : Sound qq s) : Sound qq (goStep n s) := by
  unfold goStep
  repeat' first
    | with_reducible assumption
    | intro _
    | with_reducible rfl
    | with_reducible apply Sound.ite
    | with_reducible apply each_sound
    | (with_reducible apply Sound.update; first | with_reducible assumption)
    | (extract_lets +onlyGivenNames x; refine (?_ : Sound qq x → _) ?_; intro _; clear_value x; rotate_left; subst x; rotate_left)
    | (extract_lets +onlyGivenNames x; subst x)
    | split
    | dsimp -zeta only


theorem execHoldResetRelease_sound {qq : List Instr} {s : State}  (h_s : Sound qq s) : SoundOut qq (execHoldResetRelease s) := by
  unfold execHoldResetRelease
  repeat' first
    | with_reducible assumption
    | intro _
    | with_reducible rfl
    | with_reducible apply Sound.ite
    | with_reducible apply each_sound
    | with_reducible apply SoundOut.next
    | with_reducible apply SoundOut.ite
    | with_reducible apply releaseDomain_sound
    | with_reducible apply setMode_sound
    | with_reducible apply refreshRate_sound
    | with_reducible apply arm_sound
    | with_reducible apply refreshCharger_sound
    | with_reducible apply armOnce_sound
    | (with_reducible apply Sound.update; first | with_reducible assumption | with_reducible apply releaseDomain_sound | with_reducible apply setMode_sound | with_reducible apply refreshRate_sound | with_reducible apply arm_sound | with_reducible apply refreshCharger_sound | with_reducible apply armOnce_sound)
    | (extract_lets +onlyGivenNames x; refine (?_ : Sound qq x → _) ?_; intro _; clear_value x; rotate_left; subst x; rotate_left)
    | (extract_lets +onlyGivenNames x; subst x)
    | split
    | dsimp -zeta only


theorem stepPorts_sound {qq : List Instr} {s : State}  (h_s : Sound qq s) : Sound qq (stepPorts s) := by
  unfold stepPorts
  repeat' first
    | with_reducible assumption
    | intro _
    | with_reducible rfl
    | with_reducible apply Sound.ite
    | with_reducible apply each_sound
    | with_reducible apply goStep_sound
    | with_reducible apply request_sound
    | (with_reducible apply Sound.update; first | with_reducible assumption | with_reducible apply goStep_sound | with_reducible apply request_sound)
    | (extract_lets +onlyGivenNames x; refine (?_ : Sound qq x → _) ?_; intro _; clear_value x; rotate_left; subst x; rotate_left)
    | (extract_lets +onlyGivenNames x; subst x)
    | split
    | dsimp -zeta only


theorem stepJournal_sound {qq : List Instr} {s : State}  (h_s : Sound qq s) : Sound qq (stepJournal s) := by
  unfold stepJournal
  repeat' first
    | with_reducible assumption
    | intro _
    | with_reducible rfl
    | with_reducible apply Sound.ite
    | with_reducible apply each_sound
    | with_reducible apply goStep_sound
    | with_reducible apply showJournal_sound
    | with_reducible apply each_sound
    | with_reducible apply askArray_sound
    | (with_reducible apply Sound.update; first | with_reducible assumption | with_reducible apply goStep_sound | with_reducible apply showJournal_sound | with_reducible apply each_sound | with_reducible apply askArray_sound)
    | (extract_lets +onlyGivenNames x; refine (?_ : Sound qq x → _) ?_; intro _; clear_value x; rotate_left; subst x; rotate_left)
    | (extract_lets +onlyGivenNames x; subst x)
    | split
    | dsimp -zeta only


theorem askNonces_sound {qq : List Instr} {n : Nat} {s : State}  (h_s : Sound qq s) : Sound qq (askNonces n s) := by
  unfold askNonces
  repeat' first
    | with_reducible assumption
    | intro _
    | with_reducible rfl
    | with_reducible apply Sound.ite
    | with_reducible apply each_sound
    | with_reducible apply askArray_sound
    | (with_reducible apply Sound.update; first | with_reducible assumption | with_reducible apply askArray_sound)
    | (extract_lets +onlyGivenNames x; refine (?_ : Sound qq x → _) ?_; intro _; clear_value x; rotate_left; subst x; rotate_left)
    | (extract_lets +onlyGivenNames x; subst x)
    | split
    | dsimp -zeta only


theorem stepNonce_sound {qq : List Instr} {s : State}  (h_s : Sound qq s) : Sound qq (stepNonce s) := by
  unfold stepNonce
  repeat' first
    | with_reducible assumption
    | intro _
    | with_reducible rfl
    | with_reducible apply Sound.ite
    | with_reducible apply each_sound
    | with_reducible apply goStep_sound
    | with_reducible apply askNonces_sound
    | with_reducible apply failStart_sound
    | with_reducible apply raise_sound
    | (with_reducible apply Sound.update; first | with_reducible assumption | with_reducible apply goStep_sound | with_reducible apply askNonces_sound | with_reducible apply failStart_sound | with_reducible apply raise_sound)
    | (extract_lets +onlyGivenNames x; refine (?_ : Sound qq x → _) ?_; intro _; clear_value x; rotate_left; subst x; rotate_left)
    | (extract_lets +onlyGivenNames x; subst x)
    | split
    | dsimp -zeta only


theorem failLoad_sound {qq : List Instr} {b : Bool} {s : State}  (h_s : Sound qq s) : Sound qq (failLoad b s) := by
  unfold failLoad
  repeat' first
    | with_reducible assumption
    | intro _
    | with_reducible rfl
    | with_reducible apply Sound.ite
    | with_reducible apply each_sound
    | with_reducible apply showSlot_sound
    | (with_reducible apply Sound.update; first | with_reducible assumption | with_reducible apply showSlot_sound)
    | (extract_lets +onlyGivenNames x; refine (?_ : Sound qq x → _) ?_; intro _; clear_value x; rotate_left; subst x; rotate_left)
    | (extract_lets +onlyGivenNames x; subst x)
    | split
    | dsimp -zeta only


theorem loadSlot_snd {qq : List Instr} {r : StartReport} {s : State} (h_s : Sound qq s) : Sound qq (loadSlot r s).2 := by
  unfold loadSlot
  extract_lets good
  split
  · exact h_s
  · split
    · with_reducible apply Sound.update; with_reducible assumption
      all_goals rfl
    · extract_lets u
      have hu : Sound qq u := failLoad_sound h_s
      clear_value u
      split
      · with_reducible apply Sound.update; with_reducible assumption
        all_goals rfl
      · exact Sound.ite (failLoad_sound hu) hu

theorem loadSlot_sound {qq : List Instr} {r : StartReport} {s : State} {r0 : Option (Bool × Bool)} {tt : State}
    (eqn : loadSlot r s = (r0, tt)) (h_s : Sound qq s) : Sound qq tt := by
  have h := loadSlot_snd (qq := qq) (r := r) h_s
  rw [eqn] at h
  exact h

theorem stepFirmware_sound {qq : List Instr} {r : StartReport} {s : State}  (h_s : Sound qq s) : Sound qq (stepFirmware r s) := by
  unfold stepFirmware
  repeat' first
    | with_reducible assumption
    | intro _
    | with_reducible rfl
    | with_reducible apply Sound.ite
    | with_reducible apply each_sound
    | with_reducible apply loadSlot_snd
    | (with_reducible refine loadSlot_sound (by assumption) ?_)
    | with_reducible apply showSlot_sound
    | with_reducible apply failStart_sound
    | with_reducible apply noteMiAll_sound
    | with_reducible apply raise_sound
    | with_reducible apply each_sound
    | with_reducible apply arm_sound
    | with_reducible apply beginModel_sound
    | with_reducible apply goStep_sound
    | with_reducible apply thresholdReached_sound
    | (with_reducible apply Sound.update; first | with_reducible assumption | with_reducible apply loadSlot_snd | (with_reducible refine loadSlot_sound (by assumption) ?_) | with_reducible apply showSlot_sound | with_reducible apply failStart_sound | with_reducible apply noteMiAll_sound | with_reducible apply raise_sound | with_reducible apply each_sound | with_reducible apply arm_sound | with_reducible apply beginModel_sound | with_reducible apply goStep_sound | with_reducible apply thresholdReached_sound)
    | (extract_lets +onlyGivenNames x; refine (?_ : Sound qq x → _) ?_; intro _; clear_value x; rotate_left; subst x; rotate_left)
    | (extract_lets +onlyGivenNames x; subst x)
    | split
    | dsimp -zeta only


theorem stepDram_sound {qq : List Instr} {r : StartReport} {s : State}  (h_s : Sound qq s) : Sound qq (stepDram r s) := by
  unfold stepDram
  repeat' first
    | with_reducible assumption
    | intro _
    | with_reducible rfl
    | with_reducible apply Sound.ite
    | with_reducible apply each_sound
    | with_reducible apply failStart_sound
    | with_reducible apply goStep_sound
    | with_reducible apply arm_sound
    | (with_reducible apply Sound.update; first | with_reducible assumption | with_reducible apply failStart_sound | with_reducible apply goStep_sound | with_reducible apply arm_sound)
    | (extract_lets +onlyGivenNames x; refine (?_ : Sound qq x → _) ?_; intro _; clear_value x; rotate_left; subst x; rotate_left)
    | (extract_lets +onlyGivenNames x; subst x)
    | split
    | dsimp -zeta only


theorem beginLinks_sound {qq : List Instr} {s : State}  (h_s : Sound qq s) : Sound qq (beginLinks s) := by
  unfold beginLinks
  repeat' first
    | with_reducible assumption
    | intro _
    | with_reducible rfl
    | with_reducible apply Sound.ite
    | with_reducible apply each_sound
    | with_reducible apply onLinkStatus_sound
    | with_reducible apply onLink_sound
    | with_reducible apply each_sound
    | with_reducible apply arm_sound
    | (with_reducible apply Sound.update; first | with_reducible assumption | with_reducible apply onLinkStatus_sound | with_reducible apply onLink_sound | with_reducible apply each_sound | with_reducible apply arm_sound)
    | (extract_lets +onlyGivenNames x; refine (?_ : Sound qq x → _) ?_; intro _; clear_value x; rotate_left; subst x; rotate_left)
    | (extract_lets +onlyGivenNames x; subst x)
    | split
    | dsimp -zeta only


theorem dropDualPort_sound {qq : List Instr} {s : State}  (h_s : Sound qq s) : Sound qq (dropDualPort s) := by
  unfold dropDualPort
  repeat' first
    | with_reducible assumption
    | intro _
    | with_reducible rfl
    | with_reducible apply Sound.ite
    | with_reducible apply each_sound
    | with_reducible apply assertSource_sound
    | (with_reducible apply Sound.update; first | with_reducible assumption | with_reducible apply assertSource_sound)
    | (extract_lets +onlyGivenNames x; refine (?_ : Sound qq x → _) ?_; intro _; clear_value x; rotate_left; subst x; rotate_left)
    | (extract_lets +onlyGivenNames x; subst x)
    | split
    | dsimp -zeta only


theorem stepManifest_sound {qq : List Instr} {s : State}  (h_s : Sound qq s) : Sound qq (stepManifest s) := by
  unfold stepManifest
  repeat' first
    | with_reducible assumption
    | intro _
    | with_reducible rfl
    | with_reducible apply Sound.ite
    | with_reducible apply each_sound
    | with_reducible apply selectManifest_snd
    | (with_reducible refine selectManifest_sound (by assumption) ?_)
    | with_reducible apply armAt_sound
    | with_reducible apply dropDualPort_sound
    | with_reducible apply goStep_sound
    | with_reducible apply beginLinks_sound
    | with_reducible apply refreshLevel_sound
    | with_reducible apply failStart_sound
    | (with_reducible apply Sound.update; first | with_reducible assumption | with_reducible apply selectManifest_snd | (with_reducible refine selectManifest_sound (by assumption) ?_) | with_reducible apply armAt_sound | with_reducible apply dropDualPort_sound | with_reducible apply goStep_sound | with_reducible apply beginLinks_sound | with_reducible apply refreshLevel_sound | with_reducible apply failStart_sound)
    | (extract_lets +onlyGivenNames x; refine (?_ : Sound qq x → _) ?_; intro _; clear_value x; rotate_left; subst x; rotate_left)
    | (extract_lets +onlyGivenNames x; subst x)
    | split
    | dsimp -zeta only


theorem stepLinks_sound {qq : List Instr} {s : State}  (h_s : Sound qq s) : Sound qq (stepLinks s) := by
  unfold stepLinks
  repeat' first
    | with_reducible assumption
    | intro _
    | with_reducible rfl
    | with_reducible apply Sound.ite
    | with_reducible apply each_sound
    | with_reducible apply disarm_sound
    | with_reducible apply goStep_sound
    | with_reducible apply startPair_sound
    | (with_reducible apply Sound.update; first | with_reducible assumption | with_reducible apply disarm_sound | with_reducible apply goStep_sound | with_reducible apply startPair_sound)
    | (extract_lets +onlyGivenNames x; refine (?_ : Sound qq x → _) ?_; intro _; clear_value x; rotate_left; subst x; rotate_left)
    | (extract_lets +onlyGivenNames x; subst x)
    | split
    | dsimp -zeta only


theorem stepPairs_sound {qq : List Instr} {s : State}  (h_s : Sound qq s) : Sound qq (stepPairs s) := by
  unfold stepPairs
  repeat' first
    | with_reducible assumption
    | intro _
    | with_reducible rfl
    | with_reducible apply Sound.ite
    | with_reducible apply each_sound
    | with_reducible apply goStep_sound
    | (with_reducible apply Sound.update; first | with_reducible assumption | with_reducible apply goStep_sound)
    | (extract_lets +onlyGivenNames x; refine (?_ : Sound qq x → _) ?_; intro _; clear_value x; rotate_left; subst x; rotate_left)
    | (extract_lets +onlyGivenNames x; subst x)
    | split
    | dsimp -zeta only


theorem loadRedPage_sound {qq : List Instr} {s : State}  (h_s : Sound qq s) : Sound qq (loadRedPage s) := by
  unfold loadRedPage
  repeat' first
    | with_reducible assumption
    | intro _
    | with_reducible rfl
    | with_reducible apply Sound.ite
    | with_reducible apply each_sound
    | with_reducible apply raise_sound
    | (with_reducible apply Sound.update; first | with_reducible assumption | with_reducible apply raise_sound)
    | (extract_lets +onlyGivenNames x; refine (?_ : Sound qq x → _) ?_; intro _; clear_value x; rotate_left; subst x; rotate_left)
    | (extract_lets +onlyGivenNames x; subst x)
    | split
    | dsimp -zeta only


theorem loadStore_sound {qq : List Instr} {ok : Bool} {s : State}  (h_s : Sound qq s) : Sound qq (loadStore ok s) := by
  unfold loadStore
  repeat' first
    | with_reducible assumption
    | intro _
    | with_reducible rfl
    | with_reducible apply Sound.ite
    | with_reducible apply each_sound
    | with_reducible apply fatalCondition_sound
    | (with_reducible apply Sound.update; first | with_reducible assumption | with_reducible apply fatalCondition_sound)
    | (extract_lets +onlyGivenNames x; refine (?_ : Sound qq x → _) ?_; intro _; clear_value x; rotate_left; subst x; rotate_left)
    | (extract_lets +onlyGivenNames x; subst x)
    | split
    | dsimp -zeta only


theorem loadPages_sound {qq : List Instr} {r : StartReport} {s : State}  (h_s : Sound qq s) : Sound qq (loadPages r s) := by
  unfold loadPages
  repeat' first
    | with_reducible assumption
    | intro _
    | with_reducible rfl
    | with_reducible apply Sound.ite
    | with_reducible apply each_sound
    | with_reducible apply setStay_sound
    | with_reducible apply loadStore_sound
    | with_reducible apply loadRedPage_sound
    | (with_reducible apply Sound.update; first | with_reducible assumption | with_reducible apply setStay_sound | with_reducible apply loadStore_sound | with_reducible apply loadRedPage_sound)
    | (extract_lets +onlyGivenNames x; refine (?_ : Sound qq x → _) ?_; intro _; clear_value x; rotate_left; subst x; rotate_left)
    | (extract_lets +onlyGivenNames x; subst x)
    | split
    | dsimp -zeta only


theorem seedStart_sound {qq : List Instr} {f : Nat} {code : Nat} {r : StartReport} {s : State}  (h_s : Sound qq s) : Sound qq (seedStart f code r s) := by
  unfold seedStart
  repeat' first
    | with_reducible assumption
    | intro _
    | with_reducible rfl
    | with_reducible apply Sound.ite
    | with_reducible apply each_sound
    | with_reducible apply seedFloor_sound
    | with_reducible apply arm_sound
    | with_reducible apply goStep_sound
    | with_reducible apply loadPages_sound
    | (with_reducible apply Sound.update; first | with_reducible assumption | with_reducible apply seedFloor_sound | with_reducible apply arm_sound | with_reducible apply goStep_sound | with_reducible apply loadPages_sound)
    | (extract_lets +onlyGivenNames x; refine (?_ : Sound qq x → _) ?_; intro _; clear_value x; rotate_left; subst x; rotate_left)
    | (extract_lets +onlyGivenNames x; subst x)
    | split
    | dsimp -zeta only


theorem stepFloor_sound {qq : List Instr} {r : StartReport} {s : State}  (h_s : Sound qq s) : Sound qq (stepFloor r s) := by
  unfold stepFloor
  repeat' first
    | with_reducible assumption
    | intro _
    | with_reducible rfl
    | with_reducible apply Sound.ite
    | with_reducible apply each_sound
    | with_reducible apply seedStart_sound
    | with_reducible apply sendFrame_sound
    | with_reducible apply each_sound
    | (with_reducible apply Sound.update; first | with_reducible assumption | with_reducible apply seedStart_sound | with_reducible apply sendFrame_sound | with_reducible apply each_sound)
    | (extract_lets +onlyGivenNames x; refine (?_ : Sound qq x → _) ?_; intro _; clear_value x; rotate_left; subst x; rotate_left)
    | (extract_lets +onlyGivenNames x; subst x)
    | split
    | dsimp -zeta only


theorem stepRecords_sound {qq : List Instr} {s : State}  (h_s : Sound qq s) : Sound qq (stepRecords s) := by
  unfold stepRecords
  repeat' first
    | with_reducible assumption
    | intro _
    | with_reducible rfl
    | with_reducible apply Sound.ite
    | with_reducible apply each_sound
    | with_reducible apply writeStartRecords_sound
    | with_reducible apply tellStopped_sound
    | with_reducible apply haltOff_sound
    | with_reducible apply setMode_sound
    | with_reducible apply goStep_sound
    | (with_reducible apply Sound.update; first | with_reducible assumption | with_reducible apply writeStartRecords_sound | with_reducible apply tellStopped_sound | with_reducible apply haltOff_sound | with_reducible apply setMode_sound | with_reducible apply goStep_sound)
    | (extract_lets +onlyGivenNames x; refine (?_ : Sound qq x → _) ?_; intro _; clear_value x; rotate_left; subst x; rotate_left)
    | (extract_lets +onlyGivenNames x; subst x)
    | split
    | dsimp -zeta only


theorem stepEvaluate_sound {qq : List Instr} {s : State}  (h_s : Sound qq s) : Sound qq (stepEvaluate s) := by
  unfold stepEvaluate
  repeat' first
    | with_reducible assumption
    | intro _
    | with_reducible rfl
    | with_reducible apply Sound.ite
    | with_reducible apply each_sound
    | with_reducible apply recount_sound
    | with_reducible apply fatalCondition_sound
    | with_reducible apply goStep_sound
    | (with_reducible apply Sound.update; first | with_reducible assumption | with_reducible apply recount_sound | with_reducible apply fatalCondition_sound | with_reducible apply goStep_sound)
    | (extract_lets +onlyGivenNames x; refine (?_ : Sound qq x → _) ?_; intro _; clear_value x; rotate_left; subst x; rotate_left)
    | (extract_lets +onlyGivenNames x; subst x)
    | split
    | dsimp -zeta only


theorem stepAllowance_sound {qq : List Instr} {s : State}  (h_s : Sound qq s) : Sound qq (stepAllowance s) := by
  unfold stepAllowance
  repeat' first
    | with_reducible assumption
    | intro _
    | with_reducible rfl
    | with_reducible apply Sound.ite
    | with_reducible apply each_sound
    | with_reducible apply goStep_sound
    | (with_reducible apply Sound.update; first | with_reducible assumption | with_reducible apply goStep_sound)
    | (extract_lets +onlyGivenNames x; refine (?_ : Sound qq x → _) ?_; intro _; clear_value x; rotate_left; subst x; rotate_left)
    | (extract_lets +onlyGivenNames x; subst x)
    | split
    | dsimp -zeta only


theorem raiseMinimum_sound {qq : List Instr} {s : State}  (h_s : Sound qq s) : Sound qq (raiseMinimum s) := by
  unfold raiseMinimum
  repeat' first
    | with_reducible assumption
    | intro _
    | with_reducible rfl
    | with_reducible apply Sound.ite
    | with_reducible apply each_sound
    | (with_reducible apply Sound.update; first | with_reducible assumption)
    | (extract_lets +onlyGivenNames x; refine (?_ : Sound qq x → _) ?_; intro _; clear_value x; rotate_left; subst x; rotate_left)
    | (extract_lets +onlyGivenNames x; subst x)
    | split
    | dsimp -zeta only


theorem mirrorManifest_sound {qq : List Instr} {s : State}  (h_s : Sound qq s) : Sound qq (mirrorManifest s) := by
  unfold mirrorManifest
  repeat' first
    | with_reducible assumption
    | intro _
    | with_reducible rfl
    | with_reducible apply Sound.ite
    | with_reducible apply each_sound
    | with_reducible apply beginInstall_sound
    | (with_reducible apply Sound.update; first | with_reducible assumption | with_reducible apply beginInstall_sound)
    | (extract_lets +onlyGivenNames x; refine (?_ : Sound qq x → _) ?_; intro _; clear_value x; rotate_left; subst x; rotate_left)
    | (extract_lets +onlyGivenNames x; subst x)
    | split
    | dsimp -zeta only


theorem startShape_sound {qq : List Instr} {s : State}  (h_s : Sound qq s) : Sound qq (startShape s) := by
  unfold startShape
  repeat' first
    | with_reducible assumption
    | intro _
    | with_reducible rfl
    | with_reducible apply Sound.ite
    | with_reducible apply each_sound
    | with_reducible apply tryReshape_sound
    | (with_reducible apply Sound.update; first | with_reducible assumption | with_reducible apply tryReshape_sound)
    | (extract_lets +onlyGivenNames x; refine (?_ : Sound qq x → _) ?_; intro _; clear_value x; rotate_left; subst x; rotate_left)
    | (extract_lets +onlyGivenNames x; subst x)
    | split
    | dsimp -zeta only


theorem reportRail_sound {qq : List Instr} {s : State}  (h_s : Sound qq s) : Sound qq (reportRail s) := by
  unfold reportRail
  repeat' first
    | with_reducible assumption
    | intro _
    | with_reducible rfl
    | with_reducible apply Sound.ite
    | with_reducible apply each_sound
    | with_reducible apply raise_sound
    | (with_reducible apply Sound.update; first | with_reducible assumption | with_reducible apply raise_sound)
    | (extract_lets +onlyGivenNames x; refine (?_ : Sound qq x → _) ?_; intro _; clear_value x; rotate_left; subst x; rotate_left)
    | (extract_lets +onlyGivenNames x; subst x)
    | split
    | dsimp -zeta only


theorem stepComplete_sound {qq : List Instr} {s : State}  (h_s : Sound qq s) : Sound qq (stepComplete s) := by
  unfold stepComplete
  repeat' first
    | with_reducible assumption
    | intro _
    | with_reducible rfl
    | with_reducible apply Sound.ite
    | with_reducible apply each_sound
    | with_reducible apply setMode_sound
    | with_reducible apply reportRail_sound
    | with_reducible apply makeReady_sound
    | with_reducible apply arm_sound
    | with_reducible apply armOnce_sound
    | with_reducible apply raiseMinimum_sound
    | with_reducible apply startShape_sound
    | with_reducible apply mirrorManifest_sound
    | with_reducible apply checkpointTrigger_sound
    | with_reducible apply each_sound
    | with_reducible apply startRescue_sound
    | with_reducible apply sendFrame_sound
    | with_reducible apply fillSets_sound
    | with_reducible apply settleMedia_sound
    | with_reducible apply noteHealth_sound
    | with_reducible apply refreshFloor_sound
    | (with_reducible apply Sound.update; first | with_reducible assumption | with_reducible apply setMode_sound | with_reducible apply reportRail_sound | with_reducible apply makeReady_sound | with_reducible apply arm_sound | with_reducible apply armOnce_sound | with_reducible apply raiseMinimum_sound | with_reducible apply startShape_sound | with_reducible apply mirrorManifest_sound | with_reducible apply checkpointTrigger_sound | with_reducible apply each_sound | with_reducible apply startRescue_sound | with_reducible apply sendFrame_sound | with_reducible apply fillSets_sound | with_reducible apply settleMedia_sound | with_reducible apply noteHealth_sound | with_reducible apply refreshFloor_sound)
    | (extract_lets +onlyGivenNames x; refine (?_ : Sound qq x → _) ?_; intro _; clear_value x; rotate_left; subst x; rotate_left)
    | (extract_lets +onlyGivenNames x; subst x)
    | split
    | dsimp -zeta only


theorem execStartStepComplete_sound {qq : List Instr} {report : StartReport} {s : State}  (h_s : Sound qq s) : SoundOut qq (execStartStepComplete report s) := by
  unfold execStartStepComplete
  repeat' first
    | with_reducible assumption
    | intro _
    | with_reducible rfl
    | with_reducible apply Sound.ite
    | with_reducible apply each_sound
    | with_reducible apply SoundOut.next
    | with_reducible apply SoundOut.ite
    | with_reducible apply goStep_sound
    | with_reducible apply deriveKeys_sound
    | with_reducible apply stepPorts_sound
    | with_reducible apply stepJournal_sound
    | with_reducible apply stepNonce_sound
    | with_reducible apply stepFirmware_sound
    | with_reducible apply stepDram_sound
    | with_reducible apply stepManifest_sound
    | with_reducible apply stepLinks_sound
    | with_reducible apply stepPairs_sound
    | with_reducible apply stepFloor_sound
    | with_reducible apply stepRecords_sound
    | with_reducible apply replayShroud_sound
    | with_reducible apply loadTable_sound
    | with_reducible apply stepEvaluate_sound
    | with_reducible apply stepAllowance_sound
    | with_reducible apply stepComplete_sound
    | (with_reducible apply Sound.update; first | with_reducible assumption | with_reducible apply goStep_sound | with_reducible apply deriveKeys_sound | with_reducible apply stepPorts_sound | with_reducible apply stepJournal_sound | with_reducible apply stepNonce_sound | with_reducible apply stepFirmware_sound | with_reducible apply stepDram_sound | with_reducible apply stepManifest_sound | with_reducible apply stepLinks_sound | with_reducible apply stepPairs_sound | with_reducible apply stepFloor_sound | with_reducible apply stepRecords_sound | with_reducible apply replayShroud_sound | with_reducible apply loadTable_sound | with_reducible apply stepEvaluate_sound | with_reducible apply stepAllowance_sound | with_reducible apply stepComplete_sound)
    | (extract_lets +onlyGivenNames x; refine (?_ : Sound qq x → _) ?_; intro _; clear_value x; rotate_left; subst x; rotate_left)
    | (extract_lets +onlyGivenNames x; subst x)
    | split
    | dsimp -zeta only


theorem dropLinks_sound {qq : List Instr} {s : State}  (h_s : Sound qq s) : Sound qq (dropLinks s) := by
  unfold dropLinks
  repeat' first
    | with_reducible assumption
    | intro _
    | with_reducible rfl
    | with_reducible apply Sound.ite
    | with_reducible apply each_sound
    | with_reducible apply each_sound
    | with_reducible apply assertSource_sound
    | with_reducible apply linkDown_sound
    | (with_reducible apply Sound.update; first | with_reducible assumption | with_reducible apply each_sound | with_reducible apply assertSource_sound | with_reducible apply linkDown_sound)
    | (extract_lets +onlyGivenNames x; refine (?_ : Sound qq x → _) ?_; intro _; clear_value x; rotate_left; subst x; rotate_left)
    | (extract_lets +onlyGivenNames x; subst x)
    | split
    | dsimp -zeta only


theorem execRailFault_sound {qq : List Instr} {rail : Nat} {s : State}  (h_s : Sound qq s) : SoundOut qq (execRailFault rail s) := by
  unfold execRailFault
  repeat' first
    | with_reducible assumption
    | intro _
    | with_reducible rfl
    | with_reducible apply Sound.ite
    | with_reducible apply each_sound
    | with_reducible apply SoundOut.next
    | with_reducible apply SoundOut.ite
    | with_reducible apply raise_sound
    | with_reducible apply dropLinks_sound
    | with_reducible apply takeStamp_snd
    | (with_reducible refine takeStamp_sound (by assumption) ?_)
    | with_reducible apply recordSource_sound
    | with_reducible apply deferReset_sound
    | with_reducible apply assertL5_sound
    | (with_reducible apply Sound.update; first | with_reducible assumption | with_reducible apply raise_sound | with_reducible apply dropLinks_sound | with_reducible apply takeStamp_snd | (with_reducible refine takeStamp_sound (by assumption) ?_) | with_reducible apply recordSource_sound | with_reducible apply deferReset_sound | with_reducible apply assertL5_sound)
    | (extract_lets +onlyGivenNames x; refine (?_ : Sound qq x → _) ?_; intro _; clear_value x; rotate_left; subst x; rotate_left)
    | (extract_lets +onlyGivenNames x; subst x)
    | split
    | dsimp -zeta only


end Sys2Proof.Machine
end

