-- ==== Sys2Proof/Laws/SoundTestPort.lean ====
section
/-!
SUPPORT. Soundness through the operations of Machine/TestPort.lean.
-/

set_option linter.all false

namespace Sys2Proof.Machine

theorem loadInstruction_sound {qq : List Instr} {opcode : BitVec 8} {s : State}  (h_s : Sound qq s) : Sound qq (loadInstruction opcode s) := by
  unfold loadInstruction
  repeat' first
    | with_reducible assumption
    | intro _
    | with_reducible rfl
    | with_reducible apply Sound.ite
    | with_reducible apply each_sound
    | (with_reducible apply Sound.update; first | with_reducible assumption)
    | (extract_lets +onlyGivenNames x; refine (?_ : Sound qq x → _) ?_; intro _; clear_value x; rotate_left; subst x; rotate_left)
    | (extract_lets +onlyGivenNames x; subst x)
    | split
    | dsimp -zeta only


theorem execTapReset_sound {qq : List Instr} {s : State}  (h_s : Sound qq s) : SoundOut qq (execTapReset s) := by
  unfold execTapReset
  repeat' first
    | with_reducible assumption
    | intro _
    | with_reducible rfl
    | with_reducible apply Sound.ite
    | with_reducible apply each_sound
    | with_reducible apply SoundOut.next
    | with_reducible apply SoundOut.ite
    | with_reducible apply loadInstruction_sound
    | (with_reducible apply Sound.update; first | with_reducible assumption | with_reducible apply loadInstruction_sound)
    | (extract_lets +onlyGivenNames x; refine (?_ : Sound qq x → _) ?_; intro _; clear_value x; rotate_left; subst x; rotate_left)
    | (extract_lets +onlyGivenNames x; subst x)
    | split
    | dsimp -zeta only


theorem execExtest_sound {qq : List Instr} {s : State}  (h_s : Sound qq s) : SoundOut qq (execExtest s) := by
  unfold execExtest
  repeat' first
    | with_reducible assumption
    | intro _
    | with_reducible rfl
    | with_reducible apply Sound.ite
    | with_reducible apply each_sound
    | with_reducible apply SoundOut.next
    | with_reducible apply SoundOut.ite
    | with_reducible apply loadInstruction_sound
    | (with_reducible apply Sound.update; first | with_reducible assumption | with_reducible apply loadInstruction_sound)
    | (extract_lets +onlyGivenNames x; refine (?_ : Sound qq x → _) ?_; intro _; clear_value x; rotate_left; subst x; rotate_left)
    | (extract_lets +onlyGivenNames x; subst x)
    | split
    | dsimp -zeta only


theorem execIdcode_sound {qq : List Instr} {s : State}  (h_s : Sound qq s) : SoundOut qq (execIdcode s) := by
  unfold execIdcode
  repeat' first
    | with_reducible assumption
    | intro _
    | with_reducible rfl
    | with_reducible apply Sound.ite
    | with_reducible apply each_sound
    | with_reducible apply SoundOut.next
    | with_reducible apply SoundOut.ite
    | with_reducible apply say_sound
    | with_reducible apply loadInstruction_sound
    | (with_reducible apply Sound.update; first | with_reducible assumption | with_reducible apply say_sound | with_reducible apply loadInstruction_sound)
    | (extract_lets +onlyGivenNames x; refine (?_ : Sound qq x → _) ?_; intro _; clear_value x; rotate_left; subst x; rotate_left)
    | (extract_lets +onlyGivenNames x; subst x)
    | split
    | dsimp -zeta only


theorem execSamplePreload_sound {qq : List Instr} {scan : ScanShift} {s : State}  (h_s : Sound qq s) : SoundOut qq (execSamplePreload scan s) := by
  unfold execSamplePreload
  repeat' first
    | with_reducible assumption
    | intro _
    | with_reducible rfl
    | with_reducible apply Sound.ite
    | with_reducible apply each_sound
    | with_reducible apply SoundOut.next
    | with_reducible apply SoundOut.ite
    | with_reducible apply say_sound
    | with_reducible apply loadInstruction_sound
    | (with_reducible apply Sound.update; first | with_reducible assumption | with_reducible apply say_sound | with_reducible apply loadInstruction_sound)
    | (extract_lets +onlyGivenNames x; refine (?_ : Sound qq x → _) ?_; intro _; clear_value x; rotate_left; subst x; rotate_left)
    | (extract_lets +onlyGivenNames x; subst x)
    | split
    | dsimp -zeta only


theorem execClampTap_sound {qq : List Instr} {s : State}  (h_s : Sound qq s) : SoundOut qq (execClampTap s) := by
  unfold execClampTap
  repeat' first
    | with_reducible assumption
    | intro _
    | with_reducible rfl
    | with_reducible apply Sound.ite
    | with_reducible apply each_sound
    | with_reducible apply SoundOut.next
    | with_reducible apply SoundOut.ite
    | with_reducible apply loadInstruction_sound
    | (with_reducible apply Sound.update; first | with_reducible assumption | with_reducible apply loadInstruction_sound)
    | (extract_lets +onlyGivenNames x; refine (?_ : Sound qq x → _) ?_; intro _; clear_value x; rotate_left; subst x; rotate_left)
    | (extract_lets +onlyGivenNames x; subst x)
    | split
    | dsimp -zeta only


theorem execHighz_sound {qq : List Instr} {s : State}  (h_s : Sound qq s) : SoundOut qq (execHighz s) := by
  unfold execHighz
  repeat' first
    | with_reducible assumption
    | intro _
    | with_reducible rfl
    | with_reducible apply Sound.ite
    | with_reducible apply each_sound
    | with_reducible apply SoundOut.next
    | with_reducible apply SoundOut.ite
    | with_reducible apply loadInstruction_sound
    | (with_reducible apply Sound.update; first | with_reducible assumption | with_reducible apply loadInstruction_sound)
    | (extract_lets +onlyGivenNames x; refine (?_ : Sound qq x → _) ?_; intro _; clear_value x; rotate_left; subst x; rotate_left)
    | (extract_lets +onlyGivenNames x; subst x)
    | split
    | dsimp -zeta only


theorem execBypass_sound {qq : List Instr} {s : State}  (h_s : Sound qq s) : SoundOut qq (execBypass s) := by
  unfold execBypass
  repeat' first
    | with_reducible assumption
    | intro _
    | with_reducible rfl
    | with_reducible apply Sound.ite
    | with_reducible apply each_sound
    | with_reducible apply SoundOut.next
    | with_reducible apply SoundOut.ite
    | with_reducible apply loadInstruction_sound
    | (with_reducible apply Sound.update; first | with_reducible assumption | with_reducible apply loadInstruction_sound)
    | (extract_lets +onlyGivenNames x; refine (?_ : Sound qq x → _) ?_; intro _; clear_value x; rotate_left; subst x; rotate_left)
    | (extract_lets +onlyGivenNames x; subst x)
    | split
    | dsimp -zeta only


theorem execActLedTimeout_sound {qq : List Instr} {s : State}  (h_s : Sound qq s) : SoundOut qq (execActLedTimeout s) := by
  unfold execActLedTimeout
  repeat' first
    | with_reducible assumption
    | intro _
    | with_reducible rfl
    | with_reducible apply Sound.ite
    | with_reducible apply each_sound
    | with_reducible apply SoundOut.next
    | with_reducible apply SoundOut.ite
    | with_reducible apply disarm_sound
    | (with_reducible apply Sound.update; first | with_reducible assumption | with_reducible apply disarm_sound)
    | (extract_lets +onlyGivenNames x; refine (?_ : Sound qq x → _) ?_; intro _; clear_value x; rotate_left; subst x; rotate_left)
    | (extract_lets +onlyGivenNames x; subst x)
    | split
    | dsimp -zeta only


end Sys2Proof.Machine
end

