-- ==== Sys2Proof/Laws/State.lean ====
section
/-!
SUPPORT. What the elementary updates of the state leave in its fields: timers, controllers, ports and messages.
-/

namespace Sys2Proof.Machine

/-! ### Timers: every field but the timers -/

@[simp] theorem disarm_pending (k : TimerKind) (i : Nat) (s : State) : (disarm k i s).pending = s.pending := rfl
@[simp] theorem disarm_mode (k : TimerKind) (i : Nat) (s : State) : (disarm k i s).mode = s.mode := rfl
@[simp] theorem disarm_prevMode (k : TimerKind) (i : Nat) (s : State) : (disarm k i s).prevMode = s.prevMode := rfl
@[simp] theorem disarm_mgmt (k : TimerKind) (i : Nat) (s : State) : (disarm k i s).mgmt = s.mgmt := rfl
@[simp] theorem disarm_camp (k : TimerKind) (i : Nat) (s : State) : (disarm k i s).camp = s.camp := rfl
@[simp] theorem disarm_pad (k : TimerKind) (i : Nat) (s : State) : (disarm k i s).pad = s.pad := rfl
@[simp] theorem disarm_pwr (k : TimerKind) (i : Nat) (s : State) : (disarm k i s).pwr = s.pwr := rfl
@[simp] theorem disarm_rst (k : TimerKind) (i : Nat) (s : State) : (disarm k i s).rst = s.rst := rfl
@[simp] theorem disarm_ba (k : TimerKind) (i : Nat) (s : State) : (disarm k i s).ba = s.ba := rfl
@[simp] theorem disarm_man (k : TimerKind) (i : Nat) (s : State) : (disarm k i s).man = s.man := rfl
@[simp] theorem disarm_pcie (k : TimerKind) (i : Nat) (s : State) : (disarm k i s).pcie = s.pcie := rfl
@[simp] theorem disarm_cmd (k : TimerKind) (i : Nat) (s : State) : (disarm k i s).cmd = s.cmd := rfl
@[simp] theorem disarm_map (k : TimerKind) (i : Nat) (s : State) : (disarm k i s).map = s.map := rfl
@[simp] theorem disarm_str (k : TimerKind) (i : Nat) (s : State) : (disarm k i s).str = s.str := rfl
@[simp] theorem disarm_rcl (k : TimerKind) (i : Nat) (s : State) : (disarm k i s).rcl = s.rcl := rfl
@[simp] theorem disarm_ch (k : TimerKind) (i : Nat) (s : State) : (disarm k i s).ch = s.ch := rfl
@[simp] theorem disarm_red (k : TimerKind) (i : Nat) (s : State) : (disarm k i s).red = s.red := rfl
@[simp] theorem disarm_thm (k : TimerKind) (i : Nat) (s : State) : (disarm k i s).thm = s.thm := rfl
@[simp] theorem disarm_psm (k : TimerKind) (i : Nat) (s : State) : (disarm k i s).psm = s.psm := rfl
@[simp] theorem disarm_sec (k : TimerKind) (i : Nat) (s : State) : (disarm k i s).sec = s.sec := rfl
@[simp] theorem disarm_mem (k : TimerKind) (i : Nat) (s : State) : (disarm k i s).mem = s.mem := rfl
@[simp] theorem disarm_tsl (k : TimerKind) (i : Nat) (s : State) : (disarm k i s).tsl = s.tsl := rfl
@[simp] theorem disarm_kk (k : TimerKind) (i : Nat) (s : State) : (disarm k i s).kk = s.kk := rfl
@[simp] theorem disarm_evt (k : TimerKind) (i : Nat) (s : State) : (disarm k i s).evt = s.evt := rfl
@[simp] theorem disarm_time (k : TimerKind) (i : Nat) (s : State) : (disarm k i s).time = s.time := rfl
@[simp] theorem disarm_reset_ctl (k : TimerKind) (i : Nat) (s : State) : (disarm k i s).reset_ctl = s.reset_ctl := rfl
@[simp] theorem disarm_power (k : TimerKind) (i : Nat) (s : State) : (disarm k i s).power = s.power := rfl
@[simp] theorem disarm_boot (k : TimerKind) (i : Nat) (s : State) : (disarm k i s).boot = s.boot := rfl
@[simp] theorem disarm_manifest (k : TimerKind) (i : Nat) (s : State) : (disarm k i s).manifest = s.manifest := rfl
@[simp] theorem disarm_ep (k : TimerKind) (i : Nat) (s : State) : (disarm k i s).ep = s.ep := rfl
@[simp] theorem disarm_nvme (k : TimerKind) (i : Nat) (s : State) : (disarm k i s).nvme = s.nvme := rfl
@[simp] theorem disarm_engine (k : TimerKind) (i : Nat) (s : State) : (disarm k i s).engine = s.engine := rfl
@[simp] theorem disarm_shroud (k : TimerKind) (i : Nat) (s : State) : (disarm k i s).shroud = s.shroud := rfl
@[simp] theorem disarm_reclaim (k : TimerKind) (i : Nat) (s : State) : (disarm k i s).reclaim = s.reclaim := rfl
@[simp] theorem disarm_media (k : TimerKind) (i : Nat) (s : State) : (disarm k i s).media = s.media := rfl
@[simp] theorem disarm_redun (k : TimerKind) (i : Nat) (s : State) : (disarm k i s).redun = s.redun := rfl
@[simp] theorem disarm_thermal (k : TimerKind) (i : Nat) (s : State) : (disarm k i s).thermal = s.thermal := rfl
@[simp] theorem disarm_health (k : TimerKind) (i : Nat) (s : State) : (disarm k i s).health = s.health := rfl
@[simp] theorem disarm_power_states (k : TimerKind) (i : Nat) (s : State) : (disarm k i s).power_states = s.power_states := rfl
@[simp] theorem disarm_security (k : TimerKind) (i : Nat) (s : State) : (disarm k i s).security = s.security := rfl
@[simp] theorem disarm_memory (k : TimerKind) (i : Nat) (s : State) : (disarm k i s).memory = s.memory := rfl
@[simp] theorem disarm_teasel (k : TimerKind) (i : Nat) (s : State) : (disarm k i s).teasel = s.teasel := rfl
@[simp] theorem disarm_keaka (k : TimerKind) (i : Nat) (s : State) : (disarm k i s).keaka = s.keaka := rfl
@[simp] theorem disarm_events (k : TimerKind) (i : Nat) (s : State) : (disarm k i s).events = s.events := rfl
@[simp] theorem disarm_pads (k : TimerKind) (i : Nat) (s : State) : (disarm k i s).pads = s.pads := rfl
@[simp] theorem disarm_out (k : TimerKind) (i : Nat) (s : State) : (disarm k i s).out = s.out := rfl

@[simp] theorem armAt_pending (k : TimerKind) (i d : Nat) (s : State) : (armAt k i d s).pending = s.pending := rfl
@[simp] theorem armAt_mode (k : TimerKind) (i d : Nat) (s : State) : (armAt k i d s).mode = s.mode := rfl
@[simp] theorem armAt_prevMode (k : TimerKind) (i d : Nat) (s : State) : (armAt k i d s).prevMode = s.prevMode := rfl
@[simp] theorem armAt_mgmt (k : TimerKind) (i d : Nat) (s : State) : (armAt k i d s).mgmt = s.mgmt := rfl
@[simp] theorem armAt_camp (k : TimerKind) (i d : Nat) (s : State) : (armAt k i d s).camp = s.camp := rfl
@[simp] theorem armAt_pad (k : TimerKind) (i d : Nat) (s : State) : (armAt k i d s).pad = s.pad := rfl
@[simp] theorem armAt_pwr (k : TimerKind) (i d : Nat) (s : State) : (armAt k i d s).pwr = s.pwr := rfl
@[simp] theorem armAt_rst (k : TimerKind) (i d : Nat) (s : State) : (armAt k i d s).rst = s.rst := rfl
@[simp] theorem armAt_ba (k : TimerKind) (i d : Nat) (s : State) : (armAt k i d s).ba = s.ba := rfl
@[simp] theorem armAt_man (k : TimerKind) (i d : Nat) (s : State) : (armAt k i d s).man = s.man := rfl
@[simp] theorem armAt_pcie (k : TimerKind) (i d : Nat) (s : State) : (armAt k i d s).pcie = s.pcie := rfl
@[simp] theorem armAt_cmd (k : TimerKind) (i d : Nat) (s : State) : (armAt k i d s).cmd = s.cmd := rfl
@[simp] theorem armAt_map (k : TimerKind) (i d : Nat) (s : State) : (armAt k i d s).map = s.map := rfl
@[simp] theorem armAt_str (k : TimerKind) (i d : Nat) (s : State) : (armAt k i d s).str = s.str := rfl
@[simp] theorem armAt_rcl (k : TimerKind) (i d : Nat) (s : State) : (armAt k i d s).rcl = s.rcl := rfl
@[simp] theorem armAt_ch (k : TimerKind) (i d : Nat) (s : State) : (armAt k i d s).ch = s.ch := rfl
@[simp] theorem armAt_red (k : TimerKind) (i d : Nat) (s : State) : (armAt k i d s).red = s.red := rfl
@[simp] theorem armAt_thm (k : TimerKind) (i d : Nat) (s : State) : (armAt k i d s).thm = s.thm := rfl
@[simp] theorem armAt_psm (k : TimerKind) (i d : Nat) (s : State) : (armAt k i d s).psm = s.psm := rfl
@[simp] theorem armAt_sec (k : TimerKind) (i d : Nat) (s : State) : (armAt k i d s).sec = s.sec := rfl
@[simp] theorem armAt_mem (k : TimerKind) (i d : Nat) (s : State) : (armAt k i d s).mem = s.mem := rfl
@[simp] theorem armAt_tsl (k : TimerKind) (i d : Nat) (s : State) : (armAt k i d s).tsl = s.tsl := rfl
@[simp] theorem armAt_kk (k : TimerKind) (i d : Nat) (s : State) : (armAt k i d s).kk = s.kk := rfl
@[simp] theorem armAt_evt (k : TimerKind) (i d : Nat) (s : State) : (armAt k i d s).evt = s.evt := rfl
@[simp] theorem armAt_time (k : TimerKind) (i d : Nat) (s : State) : (armAt k i d s).time = s.time := rfl
@[simp] theorem armAt_reset_ctl (k : TimerKind) (i d : Nat) (s : State) : (armAt k i d s).reset_ctl = s.reset_ctl := rfl
@[simp] theorem armAt_power (k : TimerKind) (i d : Nat) (s : State) : (armAt k i d s).power = s.power := rfl
@[simp] theorem armAt_boot (k : TimerKind) (i d : Nat) (s : State) : (armAt k i d s).boot = s.boot := rfl
@[simp] theorem armAt_manifest (k : TimerKind) (i d : Nat) (s : State) : (armAt k i d s).manifest = s.manifest := rfl
@[simp] theorem armAt_ep (k : TimerKind) (i d : Nat) (s : State) : (armAt k i d s).ep = s.ep := rfl
@[simp] theorem armAt_nvme (k : TimerKind) (i d : Nat) (s : State) : (armAt k i d s).nvme = s.nvme := rfl
@[simp] theorem armAt_engine (k : TimerKind) (i d : Nat) (s : State) : (armAt k i d s).engine = s.engine := rfl
@[simp] theorem armAt_shroud (k : TimerKind) (i d : Nat) (s : State) : (armAt k i d s).shroud = s.shroud := rfl
@[simp] theorem armAt_reclaim (k : TimerKind) (i d : Nat) (s : State) : (armAt k i d s).reclaim = s.reclaim := rfl
@[simp] theorem armAt_media (k : TimerKind) (i d : Nat) (s : State) : (armAt k i d s).media = s.media := rfl
@[simp] theorem armAt_redun (k : TimerKind) (i d : Nat) (s : State) : (armAt k i d s).redun = s.redun := rfl
@[simp] theorem armAt_thermal (k : TimerKind) (i d : Nat) (s : State) : (armAt k i d s).thermal = s.thermal := rfl
@[simp] theorem armAt_health (k : TimerKind) (i d : Nat) (s : State) : (armAt k i d s).health = s.health := rfl
@[simp] theorem armAt_power_states (k : TimerKind) (i d : Nat) (s : State) : (armAt k i d s).power_states = s.power_states := rfl
@[simp] theorem armAt_security (k : TimerKind) (i d : Nat) (s : State) : (armAt k i d s).security = s.security := rfl
@[simp] theorem armAt_memory (k : TimerKind) (i d : Nat) (s : State) : (armAt k i d s).memory = s.memory := rfl
@[simp] theorem armAt_teasel (k : TimerKind) (i d : Nat) (s : State) : (armAt k i d s).teasel = s.teasel := rfl
@[simp] theorem armAt_keaka (k : TimerKind) (i d : Nat) (s : State) : (armAt k i d s).keaka = s.keaka := rfl
@[simp] theorem armAt_events (k : TimerKind) (i d : Nat) (s : State) : (armAt k i d s).events = s.events := rfl
@[simp] theorem armAt_pads (k : TimerKind) (i d : Nat) (s : State) : (armAt k i d s).pads = s.pads := rfl
@[simp] theorem armAt_out (k : TimerKind) (i d : Nat) (s : State) : (armAt k i d s).out = s.out := rfl

@[simp] theorem arm_pending (k : TimerKind) (i n : Nat) (s : State) : (arm k i n s).pending = s.pending := rfl
@[simp] theorem arm_mode (k : TimerKind) (i n : Nat) (s : State) : (arm k i n s).mode = s.mode := rfl
@[simp] theorem arm_prevMode (k : TimerKind) (i n : Nat) (s : State) : (arm k i n s).prevMode = s.prevMode := rfl
@[simp] theorem arm_mgmt (k : TimerKind) (i n : Nat) (s : State) : (arm k i n s).mgmt = s.mgmt := rfl
@[simp] theorem arm_camp (k : TimerKind) (i n : Nat) (s : State) : (arm k i n s).camp = s.camp := rfl
@[simp] theorem arm_pad (k : TimerKind) (i n : Nat) (s : State) : (arm k i n s).pad = s.pad := rfl
@[simp] theorem arm_pwr (k : TimerKind) (i n : Nat) (s : State) : (arm k i n s).pwr = s.pwr := rfl
@[simp] theorem arm_rst (k : TimerKind) (i n : Nat) (s : State) : (arm k i n s).rst = s.rst := rfl
@[simp] theorem arm_ba (k : TimerKind) (i n : Nat) (s : State) : (arm k i n s).ba = s.ba := rfl
@[simp] theorem arm_man (k : TimerKind) (i n : Nat) (s : State) : (arm k i n s).man = s.man := rfl
@[simp] theorem arm_pcie (k : TimerKind) (i n : Nat) (s : State) : (arm k i n s).pcie = s.pcie := rfl
@[simp] theorem arm_cmd (k : TimerKind) (i n : Nat) (s : State) : (arm k i n s).cmd = s.cmd := rfl
@[simp] theorem arm_map (k : TimerKind) (i n : Nat) (s : State) : (arm k i n s).map = s.map := rfl
@[simp] theorem arm_str (k : TimerKind) (i n : Nat) (s : State) : (arm k i n s).str = s.str := rfl
@[simp] theorem arm_rcl (k : TimerKind) (i n : Nat) (s : State) : (arm k i n s).rcl = s.rcl := rfl
@[simp] theorem arm_ch (k : TimerKind) (i n : Nat) (s : State) : (arm k i n s).ch = s.ch := rfl
@[simp] theorem arm_red (k : TimerKind) (i n : Nat) (s : State) : (arm k i n s).red = s.red := rfl
@[simp] theorem arm_thm (k : TimerKind) (i n : Nat) (s : State) : (arm k i n s).thm = s.thm := rfl
@[simp] theorem arm_psm (k : TimerKind) (i n : Nat) (s : State) : (arm k i n s).psm = s.psm := rfl
@[simp] theorem arm_sec (k : TimerKind) (i n : Nat) (s : State) : (arm k i n s).sec = s.sec := rfl
@[simp] theorem arm_mem (k : TimerKind) (i n : Nat) (s : State) : (arm k i n s).mem = s.mem := rfl
@[simp] theorem arm_tsl (k : TimerKind) (i n : Nat) (s : State) : (arm k i n s).tsl = s.tsl := rfl
@[simp] theorem arm_kk (k : TimerKind) (i n : Nat) (s : State) : (arm k i n s).kk = s.kk := rfl
@[simp] theorem arm_evt (k : TimerKind) (i n : Nat) (s : State) : (arm k i n s).evt = s.evt := rfl
@[simp] theorem arm_time (k : TimerKind) (i n : Nat) (s : State) : (arm k i n s).time = s.time := rfl
@[simp] theorem arm_reset_ctl (k : TimerKind) (i n : Nat) (s : State) : (arm k i n s).reset_ctl = s.reset_ctl := rfl
@[simp] theorem arm_power (k : TimerKind) (i n : Nat) (s : State) : (arm k i n s).power = s.power := rfl
@[simp] theorem arm_boot (k : TimerKind) (i n : Nat) (s : State) : (arm k i n s).boot = s.boot := rfl
@[simp] theorem arm_manifest (k : TimerKind) (i n : Nat) (s : State) : (arm k i n s).manifest = s.manifest := rfl
@[simp] theorem arm_ep (k : TimerKind) (i n : Nat) (s : State) : (arm k i n s).ep = s.ep := rfl
@[simp] theorem arm_nvme (k : TimerKind) (i n : Nat) (s : State) : (arm k i n s).nvme = s.nvme := rfl
@[simp] theorem arm_engine (k : TimerKind) (i n : Nat) (s : State) : (arm k i n s).engine = s.engine := rfl
@[simp] theorem arm_shroud (k : TimerKind) (i n : Nat) (s : State) : (arm k i n s).shroud = s.shroud := rfl
@[simp] theorem arm_reclaim (k : TimerKind) (i n : Nat) (s : State) : (arm k i n s).reclaim = s.reclaim := rfl
@[simp] theorem arm_media (k : TimerKind) (i n : Nat) (s : State) : (arm k i n s).media = s.media := rfl
@[simp] theorem arm_redun (k : TimerKind) (i n : Nat) (s : State) : (arm k i n s).redun = s.redun := rfl
@[simp] theorem arm_thermal (k : TimerKind) (i n : Nat) (s : State) : (arm k i n s).thermal = s.thermal := rfl
@[simp] theorem arm_health (k : TimerKind) (i n : Nat) (s : State) : (arm k i n s).health = s.health := rfl
@[simp] theorem arm_power_states (k : TimerKind) (i n : Nat) (s : State) : (arm k i n s).power_states = s.power_states := rfl
@[simp] theorem arm_security (k : TimerKind) (i n : Nat) (s : State) : (arm k i n s).security = s.security := rfl
@[simp] theorem arm_memory (k : TimerKind) (i n : Nat) (s : State) : (arm k i n s).memory = s.memory := rfl
@[simp] theorem arm_teasel (k : TimerKind) (i n : Nat) (s : State) : (arm k i n s).teasel = s.teasel := rfl
@[simp] theorem arm_keaka (k : TimerKind) (i n : Nat) (s : State) : (arm k i n s).keaka = s.keaka := rfl
@[simp] theorem arm_events (k : TimerKind) (i n : Nat) (s : State) : (arm k i n s).events = s.events := rfl
@[simp] theorem arm_pads (k : TimerKind) (i n : Nat) (s : State) : (arm k i n s).pads = s.pads := rfl
@[simp] theorem arm_out (k : TimerKind) (i n : Nat) (s : State) : (arm k i n s).out = s.out := rfl

@[simp] theorem disarmAll_pending (k : TimerKind) (s : State) : (disarmAll k s).pending = s.pending := rfl
@[simp] theorem disarmAll_mode (k : TimerKind) (s : State) : (disarmAll k s).mode = s.mode := rfl
@[simp] theorem disarmAll_prevMode (k : TimerKind) (s : State) : (disarmAll k s).prevMode = s.prevMode := rfl
@[simp] theorem disarmAll_mgmt (k : TimerKind) (s : State) : (disarmAll k s).mgmt = s.mgmt := rfl
@[simp] theorem disarmAll_camp (k : TimerKind) (s : State) : (disarmAll k s).camp = s.camp := rfl
@[simp] theorem disarmAll_pad (k : TimerKind) (s : State) : (disarmAll k s).pad = s.pad := rfl
@[simp] theorem disarmAll_pwr (k : TimerKind) (s : State) : (disarmAll k s).pwr = s.pwr := rfl
@[simp] theorem disarmAll_rst (k : TimerKind) (s : State) : (disarmAll k s).rst = s.rst := rfl
@[simp] theorem disarmAll_ba (k : TimerKind) (s : State) : (disarmAll k s).ba = s.ba := rfl
@[simp] theorem disarmAll_man (k : TimerKind) (s : State) : (disarmAll k s).man = s.man := rfl
@[simp] theorem disarmAll_pcie (k : TimerKind) (s : State) : (disarmAll k s).pcie = s.pcie := rfl
@[simp] theorem disarmAll_cmd (k : TimerKind) (s : State) : (disarmAll k s).cmd = s.cmd := rfl
@[simp] theorem disarmAll_map (k : TimerKind) (s : State) : (disarmAll k s).map = s.map := rfl
@[simp] theorem disarmAll_str (k : TimerKind) (s : State) : (disarmAll k s).str = s.str := rfl
@[simp] theorem disarmAll_rcl (k : TimerKind) (s : State) : (disarmAll k s).rcl = s.rcl := rfl
@[simp] theorem disarmAll_ch (k : TimerKind) (s : State) : (disarmAll k s).ch = s.ch := rfl
@[simp] theorem disarmAll_red (k : TimerKind) (s : State) : (disarmAll k s).red = s.red := rfl
@[simp] theorem disarmAll_thm (k : TimerKind) (s : State) : (disarmAll k s).thm = s.thm := rfl
@[simp] theorem disarmAll_psm (k : TimerKind) (s : State) : (disarmAll k s).psm = s.psm := rfl
@[simp] theorem disarmAll_sec (k : TimerKind) (s : State) : (disarmAll k s).sec = s.sec := rfl
@[simp] theorem disarmAll_mem (k : TimerKind) (s : State) : (disarmAll k s).mem = s.mem := rfl
@[simp] theorem disarmAll_tsl (k : TimerKind) (s : State) : (disarmAll k s).tsl = s.tsl := rfl
@[simp] theorem disarmAll_kk (k : TimerKind) (s : State) : (disarmAll k s).kk = s.kk := rfl
@[simp] theorem disarmAll_evt (k : TimerKind) (s : State) : (disarmAll k s).evt = s.evt := rfl
@[simp] theorem disarmAll_time (k : TimerKind) (s : State) : (disarmAll k s).time = s.time := rfl
@[simp] theorem disarmAll_reset_ctl (k : TimerKind) (s : State) : (disarmAll k s).reset_ctl = s.reset_ctl := rfl
@[simp] theorem disarmAll_power (k : TimerKind) (s : State) : (disarmAll k s).power = s.power := rfl
@[simp] theorem disarmAll_boot (k : TimerKind) (s : State) : (disarmAll k s).boot = s.boot := rfl
@[simp] theorem disarmAll_manifest (k : TimerKind) (s : State) : (disarmAll k s).manifest = s.manifest := rfl
@[simp] theorem disarmAll_ep (k : TimerKind) (s : State) : (disarmAll k s).ep = s.ep := rfl
@[simp] theorem disarmAll_nvme (k : TimerKind) (s : State) : (disarmAll k s).nvme = s.nvme := rfl
@[simp] theorem disarmAll_engine (k : TimerKind) (s : State) : (disarmAll k s).engine = s.engine := rfl
@[simp] theorem disarmAll_shroud (k : TimerKind) (s : State) : (disarmAll k s).shroud = s.shroud := rfl
@[simp] theorem disarmAll_reclaim (k : TimerKind) (s : State) : (disarmAll k s).reclaim = s.reclaim := rfl
@[simp] theorem disarmAll_media (k : TimerKind) (s : State) : (disarmAll k s).media = s.media := rfl
@[simp] theorem disarmAll_redun (k : TimerKind) (s : State) : (disarmAll k s).redun = s.redun := rfl
@[simp] theorem disarmAll_thermal (k : TimerKind) (s : State) : (disarmAll k s).thermal = s.thermal := rfl
@[simp] theorem disarmAll_health (k : TimerKind) (s : State) : (disarmAll k s).health = s.health := rfl
@[simp] theorem disarmAll_power_states (k : TimerKind) (s : State) : (disarmAll k s).power_states = s.power_states := rfl
@[simp] theorem disarmAll_security (k : TimerKind) (s : State) : (disarmAll k s).security = s.security := rfl
@[simp] theorem disarmAll_memory (k : TimerKind) (s : State) : (disarmAll k s).memory = s.memory := rfl
@[simp] theorem disarmAll_teasel (k : TimerKind) (s : State) : (disarmAll k s).teasel = s.teasel := rfl
@[simp] theorem disarmAll_keaka (k : TimerKind) (s : State) : (disarmAll k s).keaka = s.keaka := rfl
@[simp] theorem disarmAll_events (k : TimerKind) (s : State) : (disarmAll k s).events = s.events := rfl
@[simp] theorem disarmAll_pads (k : TimerKind) (s : State) : (disarmAll k s).pads = s.pads := rfl
@[simp] theorem disarmAll_out (k : TimerKind) (s : State) : (disarmAll k s).out = s.out := rfl

/-! ### Messages: every field but the outbox -/

@[simp] theorem say_pending (m : HostMsg) (s : State) : (say m s).pending = s.pending := rfl
@[simp] theorem say_mode (m : HostMsg) (s : State) : (say m s).mode = s.mode := rfl
@[simp] theorem say_prevMode (m : HostMsg) (s : State) : (say m s).prevMode = s.prevMode := rfl
@[simp] theorem say_mgmt (m : HostMsg) (s : State) : (say m s).mgmt = s.mgmt := rfl
@[simp] theorem say_camp (m : HostMsg) (s : State) : (say m s).camp = s.camp := rfl
@[simp] theorem say_pad (m : HostMsg) (s : State) : (say m s).pad = s.pad := rfl
@[simp] theorem say_pwr (m : HostMsg) (s : State) : (say m s).pwr = s.pwr := rfl
@[simp] theorem say_rst (m : HostMsg) (s : State) : (say m s).rst = s.rst := rfl
@[simp] theorem say_ba (m : HostMsg) (s : State) : (say m s).ba = s.ba := rfl
@[simp] theorem say_man (m : HostMsg) (s : State) : (say m s).man = s.man := rfl
@[simp] theorem say_pcie (m : HostMsg) (s : State) : (say m s).pcie = s.pcie := rfl
@[simp] theorem say_cmd (m : HostMsg) (s : State) : (say m s).cmd = s.cmd := rfl
@[simp] theorem say_map (m : HostMsg) (s : State) : (say m s).map = s.map := rfl
@[simp] theorem say_str (m : HostMsg) (s : State) : (say m s).str = s.str := rfl
@[simp] theorem say_rcl (m : HostMsg) (s : State) : (say m s).rcl = s.rcl := rfl
@[simp] theorem say_ch (m : HostMsg) (s : State) : (say m s).ch = s.ch := rfl
@[simp] theorem say_red (m : HostMsg) (s : State) : (say m s).red = s.red := rfl
@[simp] theorem say_thm (m : HostMsg) (s : State) : (say m s).thm = s.thm := rfl
@[simp] theorem say_psm (m : HostMsg) (s : State) : (say m s).psm = s.psm := rfl
@[simp] theorem say_sec (m : HostMsg) (s : State) : (say m s).sec = s.sec := rfl
@[simp] theorem say_mem (m : HostMsg) (s : State) : (say m s).mem = s.mem := rfl
@[simp] theorem say_tsl (m : HostMsg) (s : State) : (say m s).tsl = s.tsl := rfl
@[simp] theorem say_kk (m : HostMsg) (s : State) : (say m s).kk = s.kk := rfl
@[simp] theorem say_evt (m : HostMsg) (s : State) : (say m s).evt = s.evt := rfl
@[simp] theorem say_time (m : HostMsg) (s : State) : (say m s).time = s.time := rfl
@[simp] theorem say_timers (m : HostMsg) (s : State) : (say m s).timers = s.timers := rfl
@[simp] theorem say_reset_ctl (m : HostMsg) (s : State) : (say m s).reset_ctl = s.reset_ctl := rfl
@[simp] theorem say_power (m : HostMsg) (s : State) : (say m s).power = s.power := rfl
@[simp] theorem say_boot (m : HostMsg) (s : State) : (say m s).boot = s.boot := rfl
@[simp] theorem say_manifest (m : HostMsg) (s : State) : (say m s).manifest = s.manifest := rfl
@[simp] theorem say_ep (m : HostMsg) (s : State) : (say m s).ep = s.ep := rfl
@[simp] theorem say_nvme (m : HostMsg) (s : State) : (say m s).nvme = s.nvme := rfl
@[simp] theorem say_engine (m : HostMsg) (s : State) : (say m s).engine = s.engine := rfl
@[simp] theorem say_shroud (m : HostMsg) (s : State) : (say m s).shroud = s.shroud := rfl
@[simp] theorem say_reclaim (m : HostMsg) (s : State) : (say m s).reclaim = s.reclaim := rfl
@[simp] theorem say_media (m : HostMsg) (s : State) : (say m s).media = s.media := rfl
@[simp] theorem say_redun (m : HostMsg) (s : State) : (say m s).redun = s.redun := rfl
@[simp] theorem say_thermal (m : HostMsg) (s : State) : (say m s).thermal = s.thermal := rfl
@[simp] theorem say_health (m : HostMsg) (s : State) : (say m s).health = s.health := rfl
@[simp] theorem say_power_states (m : HostMsg) (s : State) : (say m s).power_states = s.power_states := rfl
@[simp] theorem say_security (m : HostMsg) (s : State) : (say m s).security = s.security := rfl
@[simp] theorem say_memory (m : HostMsg) (s : State) : (say m s).memory = s.memory := rfl
@[simp] theorem say_teasel (m : HostMsg) (s : State) : (say m s).teasel = s.teasel := rfl
@[simp] theorem say_keaka (m : HostMsg) (s : State) : (say m s).keaka = s.keaka := rfl
@[simp] theorem say_events (m : HostMsg) (s : State) : (say m s).events = s.events := rfl
@[simp] theorem say_pads (m : HostMsg) (s : State) : (say m s).pads = s.pads := rfl

@[simp] theorem say_out (m : HostMsg) (s : State) : (say m s).out = s.out ++ [m] := rfl

/-! ### Controllers and ports -/

theorem onCtrl_self (c : Nat) (f : Controller → Controller) (s : State) : (onCtrl c f s).ctrl c = f (s.ctrl c) := by
  unfold onCtrl State.ctrl
  split <;> rfl

theorem onPort_self (n : Nat) (f : Port → Port) (s : State) : (onPort n f s).port n = f (s.port n) := by
  unfold onPort State.port
  split <;> rfl

theorem onPortStatus_self (n : Nat) (f : PciePortStatus0Reg → PciePortStatus0Reg) (s : State) :
    (onPortStatus n f s).portStatus n = f (s.portStatus n) := by
  unfold onPortStatus State.portStatus
  split <;> rfl


@[simp] theorem onCtrl_pending (c : Nat) (f : Controller → Controller) (s : State) : (onCtrl c f s).pending = s.pending := by unfold onCtrl; split <;> rfl
@[simp] theorem onCtrl_mode (c : Nat) (f : Controller → Controller) (s : State) : (onCtrl c f s).mode = s.mode := by unfold onCtrl; split <;> rfl
@[simp] theorem onCtrl_prevMode (c : Nat) (f : Controller → Controller) (s : State) : (onCtrl c f s).prevMode = s.prevMode := by unfold onCtrl; split <;> rfl
@[simp] theorem onCtrl_mgmt (c : Nat) (f : Controller → Controller) (s : State) : (onCtrl c f s).mgmt = s.mgmt := by unfold onCtrl; split <;> rfl
@[simp] theorem onCtrl_camp (c : Nat) (f : Controller → Controller) (s : State) : (onCtrl c f s).camp = s.camp := by unfold onCtrl; split <;> rfl
@[simp] theorem onCtrl_pad (c : Nat) (f : Controller → Controller) (s : State) : (onCtrl c f s).pad = s.pad := by unfold onCtrl; split <;> rfl
@[simp] theorem onCtrl_pwr (c : Nat) (f : Controller → Controller) (s : State) : (onCtrl c f s).pwr = s.pwr := by unfold onCtrl; split <;> rfl
@[simp] theorem onCtrl_rst (c : Nat) (f : Controller → Controller) (s : State) : (onCtrl c f s).rst = s.rst := by unfold onCtrl; split <;> rfl
@[simp] theorem onCtrl_ba (c : Nat) (f : Controller → Controller) (s : State) : (onCtrl c f s).ba = s.ba := by unfold onCtrl; split <;> rfl
@[simp] theorem onCtrl_man (c : Nat) (f : Controller → Controller) (s : State) : (onCtrl c f s).man = s.man := by unfold onCtrl; split <;> rfl
@[simp] theorem onCtrl_pcie (c : Nat) (f : Controller → Controller) (s : State) : (onCtrl c f s).pcie = s.pcie := by unfold onCtrl; split <;> rfl
@[simp] theorem onCtrl_cmd (c : Nat) (f : Controller → Controller) (s : State) : (onCtrl c f s).cmd = s.cmd := by unfold onCtrl; split <;> rfl
@[simp] theorem onCtrl_map (c : Nat) (f : Controller → Controller) (s : State) : (onCtrl c f s).map = s.map := by unfold onCtrl; split <;> rfl
@[simp] theorem onCtrl_str (c : Nat) (f : Controller → Controller) (s : State) : (onCtrl c f s).str = s.str := by unfold onCtrl; split <;> rfl
@[simp] theorem onCtrl_rcl (c : Nat) (f : Controller → Controller) (s : State) : (onCtrl c f s).rcl = s.rcl := by unfold onCtrl; split <;> rfl
@[simp] theorem onCtrl_ch (c : Nat) (f : Controller → Controller) (s : State) : (onCtrl c f s).ch = s.ch := by unfold onCtrl; split <;> rfl
@[simp] theorem onCtrl_red (c : Nat) (f : Controller → Controller) (s : State) : (onCtrl c f s).red = s.red := by unfold onCtrl; split <;> rfl
@[simp] theorem onCtrl_thm (c : Nat) (f : Controller → Controller) (s : State) : (onCtrl c f s).thm = s.thm := by unfold onCtrl; split <;> rfl
@[simp] theorem onCtrl_psm (c : Nat) (f : Controller → Controller) (s : State) : (onCtrl c f s).psm = s.psm := by unfold onCtrl; split <;> rfl
@[simp] theorem onCtrl_sec (c : Nat) (f : Controller → Controller) (s : State) : (onCtrl c f s).sec = s.sec := by unfold onCtrl; split <;> rfl
@[simp] theorem onCtrl_mem (c : Nat) (f : Controller → Controller) (s : State) : (onCtrl c f s).mem = s.mem := by unfold onCtrl; split <;> rfl
@[simp] theorem onCtrl_tsl (c : Nat) (f : Controller → Controller) (s : State) : (onCtrl c f s).tsl = s.tsl := by unfold onCtrl; split <;> rfl
@[simp] theorem onCtrl_kk (c : Nat) (f : Controller → Controller) (s : State) : (onCtrl c f s).kk = s.kk := by unfold onCtrl; split <;> rfl
@[simp] theorem onCtrl_evt (c : Nat) (f : Controller → Controller) (s : State) : (onCtrl c f s).evt = s.evt := by unfold onCtrl; split <;> rfl
@[simp] theorem onCtrl_time (c : Nat) (f : Controller → Controller) (s : State) : (onCtrl c f s).time = s.time := by unfold onCtrl; split <;> rfl
@[simp] theorem onCtrl_timers (c : Nat) (f : Controller → Controller) (s : State) : (onCtrl c f s).timers = s.timers := by unfold onCtrl; split <;> rfl
@[simp] theorem onCtrl_reset_ctl (c : Nat) (f : Controller → Controller) (s : State) : (onCtrl c f s).reset_ctl = s.reset_ctl := by unfold onCtrl; split <;> rfl
@[simp] theorem onCtrl_power (c : Nat) (f : Controller → Controller) (s : State) : (onCtrl c f s).power = s.power := by unfold onCtrl; split <;> rfl
@[simp] theorem onCtrl_boot (c : Nat) (f : Controller → Controller) (s : State) : (onCtrl c f s).boot = s.boot := by unfold onCtrl; split <;> rfl
@[simp] theorem onCtrl_manifest (c : Nat) (f : Controller → Controller) (s : State) : (onCtrl c f s).manifest = s.manifest := by unfold onCtrl; split <;> rfl
@[simp] theorem onCtrl_ep (c : Nat) (f : Controller → Controller) (s : State) : (onCtrl c f s).ep = s.ep := by unfold onCtrl; split <;> rfl
@[simp] theorem onCtrl_engine (c : Nat) (f : Controller → Controller) (s : State) : (onCtrl c f s).engine = s.engine := by unfold onCtrl; split <;> rfl
@[simp] theorem onCtrl_shroud (c : Nat) (f : Controller → Controller) (s : State) : (onCtrl c f s).shroud = s.shroud := by unfold onCtrl; split <;> rfl
@[simp] theorem onCtrl_reclaim (c : Nat) (f : Controller → Controller) (s : State) : (onCtrl c f s).reclaim = s.reclaim := by unfold onCtrl; split <;> rfl
@[simp] theorem onCtrl_media (c : Nat) (f : Controller → Controller) (s : State) : (onCtrl c f s).media = s.media := by unfold onCtrl; split <;> rfl
@[simp] theorem onCtrl_redun (c : Nat) (f : Controller → Controller) (s : State) : (onCtrl c f s).redun = s.redun := by unfold onCtrl; split <;> rfl
@[simp] theorem onCtrl_thermal (c : Nat) (f : Controller → Controller) (s : State) : (onCtrl c f s).thermal = s.thermal := by unfold onCtrl; split <;> rfl
@[simp] theorem onCtrl_health (c : Nat) (f : Controller → Controller) (s : State) : (onCtrl c f s).health = s.health := by unfold onCtrl; split <;> rfl
@[simp] theorem onCtrl_power_states (c : Nat) (f : Controller → Controller) (s : State) : (onCtrl c f s).power_states = s.power_states := by unfold onCtrl; split <;> rfl
@[simp] theorem onCtrl_security (c : Nat) (f : Controller → Controller) (s : State) : (onCtrl c f s).security = s.security := by unfold onCtrl; split <;> rfl
@[simp] theorem onCtrl_memory (c : Nat) (f : Controller → Controller) (s : State) : (onCtrl c f s).memory = s.memory := by unfold onCtrl; split <;> rfl
@[simp] theorem onCtrl_teasel (c : Nat) (f : Controller → Controller) (s : State) : (onCtrl c f s).teasel = s.teasel := by unfold onCtrl; split <;> rfl
@[simp] theorem onCtrl_keaka (c : Nat) (f : Controller → Controller) (s : State) : (onCtrl c f s).keaka = s.keaka := by unfold onCtrl; split <;> rfl
@[simp] theorem onCtrl_events (c : Nat) (f : Controller → Controller) (s : State) : (onCtrl c f s).events = s.events := by unfold onCtrl; split <;> rfl
@[simp] theorem onCtrl_pads (c : Nat) (f : Controller → Controller) (s : State) : (onCtrl c f s).pads = s.pads := by unfold onCtrl; split <;> rfl
@[simp] theorem onCtrl_out (c : Nat) (f : Controller → Controller) (s : State) : (onCtrl c f s).out = s.out := by unfold onCtrl; split <;> rfl

@[simp] theorem onPort_pending (n : Nat) (f : Port → Port) (s : State) : (onPort n f s).pending = s.pending := by unfold onPort; split <;> rfl
@[simp] theorem onPort_mode (n : Nat) (f : Port → Port) (s : State) : (onPort n f s).mode = s.mode := by unfold onPort; split <;> rfl
@[simp] theorem onPort_prevMode (n : Nat) (f : Port → Port) (s : State) : (onPort n f s).prevMode = s.prevMode := by unfold onPort; split <;> rfl
@[simp] theorem onPort_mgmt (n : Nat) (f : Port → Port) (s : State) : (onPort n f s).mgmt = s.mgmt := by unfold onPort; split <;> rfl
@[simp] theorem onPort_camp (n : Nat) (f : Port → Port) (s : State) : (onPort n f s).camp = s.camp := by unfold onPort; split <;> rfl
@[simp] theorem onPort_pad (n : Nat) (f : Port → Port) (s : State) : (onPort n f s).pad = s.pad := by unfold onPort; split <;> rfl
@[simp] theorem onPort_pwr (n : Nat) (f : Port → Port) (s : State) : (onPort n f s).pwr = s.pwr := by unfold onPort; split <;> rfl
@[simp] theorem onPort_rst (n : Nat) (f : Port → Port) (s : State) : (onPort n f s).rst = s.rst := by unfold onPort; split <;> rfl
@[simp] theorem onPort_ba (n : Nat) (f : Port → Port) (s : State) : (onPort n f s).ba = s.ba := by unfold onPort; split <;> rfl
@[simp] theorem onPort_man (n : Nat) (f : Port → Port) (s : State) : (onPort n f s).man = s.man := by unfold onPort; split <;> rfl
@[simp] theorem onPort_pcie (n : Nat) (f : Port → Port) (s : State) : (onPort n f s).pcie = s.pcie := by unfold onPort; split <;> rfl
@[simp] theorem onPort_cmd (n : Nat) (f : Port → Port) (s : State) : (onPort n f s).cmd = s.cmd := by unfold onPort; split <;> rfl
@[simp] theorem onPort_map (n : Nat) (f : Port → Port) (s : State) : (onPort n f s).map = s.map := by unfold onPort; split <;> rfl
@[simp] theorem onPort_str (n : Nat) (f : Port → Port) (s : State) : (onPort n f s).str = s.str := by unfold onPort; split <;> rfl
@[simp] theorem onPort_rcl (n : Nat) (f : Port → Port) (s : State) : (onPort n f s).rcl = s.rcl := by unfold onPort; split <;> rfl
@[simp] theorem onPort_ch (n : Nat) (f : Port → Port) (s : State) : (onPort n f s).ch = s.ch := by unfold onPort; split <;> rfl
@[simp] theorem onPort_red (n : Nat) (f : Port → Port) (s : State) : (onPort n f s).red = s.red := by unfold onPort; split <;> rfl
@[simp] theorem onPort_thm (n : Nat) (f : Port → Port) (s : State) : (onPort n f s).thm = s.thm := by unfold onPort; split <;> rfl
@[simp] theorem onPort_psm (n : Nat) (f : Port → Port) (s : State) : (onPort n f s).psm = s.psm := by unfold onPort; split <;> rfl
@[simp] theorem onPort_sec (n : Nat) (f : Port → Port) (s : State) : (onPort n f s).sec = s.sec := by unfold onPort; split <;> rfl
@[simp] theorem onPort_mem (n : Nat) (f : Port → Port) (s : State) : (onPort n f s).mem = s.mem := by unfold onPort; split <;> rfl
@[simp] theorem onPort_tsl (n : Nat) (f : Port → Port) (s : State) : (onPort n f s).tsl = s.tsl := by unfold onPort; split <;> rfl
@[simp] theorem onPort_kk (n : Nat) (f : Port → Port) (s : State) : (onPort n f s).kk = s.kk := by unfold onPort; split <;> rfl
@[simp] theorem onPort_evt (n : Nat) (f : Port → Port) (s : State) : (onPort n f s).evt = s.evt := by unfold onPort; split <;> rfl
@[simp] theorem onPort_time (n : Nat) (f : Port → Port) (s : State) : (onPort n f s).time = s.time := by unfold onPort; split <;> rfl
@[simp] theorem onPort_timers (n : Nat) (f : Port → Port) (s : State) : (onPort n f s).timers = s.timers := by unfold onPort; split <;> rfl
@[simp] theorem onPort_reset_ctl (n : Nat) (f : Port → Port) (s : State) : (onPort n f s).reset_ctl = s.reset_ctl := by unfold onPort; split <;> rfl
@[simp] theorem onPort_power (n : Nat) (f : Port → Port) (s : State) : (onPort n f s).power = s.power := by unfold onPort; split <;> rfl
@[simp] theorem onPort_boot (n : Nat) (f : Port → Port) (s : State) : (onPort n f s).boot = s.boot := by unfold onPort; split <;> rfl
@[simp] theorem onPort_manifest (n : Nat) (f : Port → Port) (s : State) : (onPort n f s).manifest = s.manifest := by unfold onPort; split <;> rfl
@[simp] theorem onPort_nvme (n : Nat) (f : Port → Port) (s : State) : (onPort n f s).nvme = s.nvme := by unfold onPort; split <;> rfl
@[simp] theorem onPort_engine (n : Nat) (f : Port → Port) (s : State) : (onPort n f s).engine = s.engine := by unfold onPort; split <;> rfl
@[simp] theorem onPort_shroud (n : Nat) (f : Port → Port) (s : State) : (onPort n f s).shroud = s.shroud := by unfold onPort; split <;> rfl
@[simp] theorem onPort_reclaim (n : Nat) (f : Port → Port) (s : State) : (onPort n f s).reclaim = s.reclaim := by unfold onPort; split <;> rfl
@[simp] theorem onPort_media (n : Nat) (f : Port → Port) (s : State) : (onPort n f s).media = s.media := by unfold onPort; split <;> rfl
@[simp] theorem onPort_redun (n : Nat) (f : Port → Port) (s : State) : (onPort n f s).redun = s.redun := by unfold onPort; split <;> rfl
@[simp] theorem onPort_thermal (n : Nat) (f : Port → Port) (s : State) : (onPort n f s).thermal = s.thermal := by unfold onPort; split <;> rfl
@[simp] theorem onPort_health (n : Nat) (f : Port → Port) (s : State) : (onPort n f s).health = s.health := by unfold onPort; split <;> rfl
@[simp] theorem onPort_power_states (n : Nat) (f : Port → Port) (s : State) : (onPort n f s).power_states = s.power_states := by unfold onPort; split <;> rfl
@[simp] theorem onPort_security (n : Nat) (f : Port → Port) (s : State) : (onPort n f s).security = s.security := by unfold onPort; split <;> rfl
@[simp] theorem onPort_memory (n : Nat) (f : Port → Port) (s : State) : (onPort n f s).memory = s.memory := by unfold onPort; split <;> rfl
@[simp] theorem onPort_teasel (n : Nat) (f : Port → Port) (s : State) : (onPort n f s).teasel = s.teasel := by unfold onPort; split <;> rfl
@[simp] theorem onPort_keaka (n : Nat) (f : Port → Port) (s : State) : (onPort n f s).keaka = s.keaka := by unfold onPort; split <;> rfl
@[simp] theorem onPort_events (n : Nat) (f : Port → Port) (s : State) : (onPort n f s).events = s.events := by unfold onPort; split <;> rfl
@[simp] theorem onPort_pads (n : Nat) (f : Port → Port) (s : State) : (onPort n f s).pads = s.pads := by unfold onPort; split <;> rfl
@[simp] theorem onPort_out (n : Nat) (f : Port → Port) (s : State) : (onPort n f s).out = s.out := by unfold onPort; split <;> rfl

@[simp] theorem onPortStatus_pending (n : Nat) (f : PciePortStatus0Reg → PciePortStatus0Reg) (s : State) : (onPortStatus n f s).pending = s.pending := by unfold onPortStatus; split <;> rfl
@[simp] theorem onPortStatus_mode (n : Nat) (f : PciePortStatus0Reg → PciePortStatus0Reg) (s : State) : (onPortStatus n f s).mode = s.mode := by unfold onPortStatus; split <;> rfl
@[simp] theorem onPortStatus_prevMode (n : Nat) (f : PciePortStatus0Reg → PciePortStatus0Reg) (s : State) : (onPortStatus n f s).prevMode = s.prevMode := by unfold onPortStatus; split <;> rfl
@[simp] theorem onPortStatus_mgmt (n : Nat) (f : PciePortStatus0Reg → PciePortStatus0Reg) (s : State) : (onPortStatus n f s).mgmt = s.mgmt := by unfold onPortStatus; split <;> rfl
@[simp] theorem onPortStatus_camp (n : Nat) (f : PciePortStatus0Reg → PciePortStatus0Reg) (s : State) : (onPortStatus n f s).camp = s.camp := by unfold onPortStatus; split <;> rfl
@[simp] theorem onPortStatus_pad (n : Nat) (f : PciePortStatus0Reg → PciePortStatus0Reg) (s : State) : (onPortStatus n f s).pad = s.pad := by unfold onPortStatus; split <;> rfl
@[simp] theorem onPortStatus_pwr (n : Nat) (f : PciePortStatus0Reg → PciePortStatus0Reg) (s : State) : (onPortStatus n f s).pwr = s.pwr := by unfold onPortStatus; split <;> rfl
@[simp] theorem onPortStatus_rst (n : Nat) (f : PciePortStatus0Reg → PciePortStatus0Reg) (s : State) : (onPortStatus n f s).rst = s.rst := by unfold onPortStatus; split <;> rfl
@[simp] theorem onPortStatus_ba (n : Nat) (f : PciePortStatus0Reg → PciePortStatus0Reg) (s : State) : (onPortStatus n f s).ba = s.ba := by unfold onPortStatus; split <;> rfl
@[simp] theorem onPortStatus_man (n : Nat) (f : PciePortStatus0Reg → PciePortStatus0Reg) (s : State) : (onPortStatus n f s).man = s.man := by unfold onPortStatus; split <;> rfl
@[simp] theorem onPortStatus_cmd (n : Nat) (f : PciePortStatus0Reg → PciePortStatus0Reg) (s : State) : (onPortStatus n f s).cmd = s.cmd := by unfold onPortStatus; split <;> rfl
@[simp] theorem onPortStatus_map (n : Nat) (f : PciePortStatus0Reg → PciePortStatus0Reg) (s : State) : (onPortStatus n f s).map = s.map := by unfold onPortStatus; split <;> rfl
@[simp] theorem onPortStatus_str (n : Nat) (f : PciePortStatus0Reg → PciePortStatus0Reg) (s : State) : (onPortStatus n f s).str = s.str := by unfold onPortStatus; split <;> rfl
@[simp] theorem onPortStatus_rcl (n : Nat) (f : PciePortStatus0Reg → PciePortStatus0Reg) (s : State) : (onPortStatus n f s).rcl = s.rcl := by unfold onPortStatus; split <;> rfl
@[simp] theorem onPortStatus_ch (n : Nat) (f : PciePortStatus0Reg → PciePortStatus0Reg) (s : State) : (onPortStatus n f s).ch = s.ch := by unfold onPortStatus; split <;> rfl
@[simp] theorem onPortStatus_red (n : Nat) (f : PciePortStatus0Reg → PciePortStatus0Reg) (s : State) : (onPortStatus n f s).red = s.red := by unfold onPortStatus; split <;> rfl
@[simp] theorem onPortStatus_thm (n : Nat) (f : PciePortStatus0Reg → PciePortStatus0Reg) (s : State) : (onPortStatus n f s).thm = s.thm := by unfold onPortStatus; split <;> rfl
@[simp] theorem onPortStatus_psm (n : Nat) (f : PciePortStatus0Reg → PciePortStatus0Reg) (s : State) : (onPortStatus n f s).psm = s.psm := by unfold onPortStatus; split <;> rfl
@[simp] theorem onPortStatus_sec (n : Nat) (f : PciePortStatus0Reg → PciePortStatus0Reg) (s : State) : (onPortStatus n f s).sec = s.sec := by unfold onPortStatus; split <;> rfl
@[simp] theorem onPortStatus_mem (n : Nat) (f : PciePortStatus0Reg → PciePortStatus0Reg) (s : State) : (onPortStatus n f s).mem = s.mem := by unfold onPortStatus; split <;> rfl
@[simp] theorem onPortStatus_tsl (n : Nat) (f : PciePortStatus0Reg → PciePortStatus0Reg) (s : State) : (onPortStatus n f s).tsl = s.tsl := by unfold onPortStatus; split <;> rfl
@[simp] theorem onPortStatus_kk (n : Nat) (f : PciePortStatus0Reg → PciePortStatus0Reg) (s : State) : (onPortStatus n f s).kk = s.kk := by unfold onPortStatus; split <;> rfl
@[simp] theorem onPortStatus_evt (n : Nat) (f : PciePortStatus0Reg → PciePortStatus0Reg) (s : State) : (onPortStatus n f s).evt = s.evt := by unfold onPortStatus; split <;> rfl
@[simp] theorem onPortStatus_time (n : Nat) (f : PciePortStatus0Reg → PciePortStatus0Reg) (s : State) : (onPortStatus n f s).time = s.time := by unfold onPortStatus; split <;> rfl
@[simp] theorem onPortStatus_timers (n : Nat) (f : PciePortStatus0Reg → PciePortStatus0Reg) (s : State) : (onPortStatus n f s).timers = s.timers := by unfold onPortStatus; split <;> rfl
@[simp] theorem onPortStatus_reset_ctl (n : Nat) (f : PciePortStatus0Reg → PciePortStatus0Reg) (s : State) : (onPortStatus n f s).reset_ctl = s.reset_ctl := by unfold onPortStatus; split <;> rfl
@[simp] theorem onPortStatus_power (n : Nat) (f : PciePortStatus0Reg → PciePortStatus0Reg) (s : State) : (onPortStatus n f s).power = s.power := by unfold onPortStatus; split <;> rfl
@[simp] theorem onPortStatus_boot (n : Nat) (f : PciePortStatus0Reg → PciePortStatus0Reg) (s : State) : (onPortStatus n f s).boot = s.boot := by unfold onPortStatus; split <;> rfl
@[simp] theorem onPortStatus_manifest (n : Nat) (f : PciePortStatus0Reg → PciePortStatus0Reg) (s : State) : (onPortStatus n f s).manifest = s.manifest := by unfold onPortStatus; split <;> rfl
@[simp] theorem onPortStatus_ep (n : Nat) (f : PciePortStatus0Reg → PciePortStatus0Reg) (s : State) : (onPortStatus n f s).ep = s.ep := by unfold onPortStatus; split <;> rfl
@[simp] theorem onPortStatus_nvme (n : Nat) (f : PciePortStatus0Reg → PciePortStatus0Reg) (s : State) : (onPortStatus n f s).nvme = s.nvme := by unfold onPortStatus; split <;> rfl
@[simp] theorem onPortStatus_engine (n : Nat) (f : PciePortStatus0Reg → PciePortStatus0Reg) (s : State) : (onPortStatus n f s).engine = s.engine := by unfold onPortStatus; split <;> rfl
@[simp] theorem onPortStatus_shroud (n : Nat) (f : PciePortStatus0Reg → PciePortStatus0Reg) (s : State) : (onPortStatus n f s).shroud = s.shroud := by unfold onPortStatus; split <;> rfl
@[simp] theorem onPortStatus_reclaim (n : Nat) (f : PciePortStatus0Reg → PciePortStatus0Reg) (s : State) : (onPortStatus n f s).reclaim = s.reclaim := by unfold onPortStatus; split <;> rfl
@[simp] theorem onPortStatus_media (n : Nat) (f : PciePortStatus0Reg → PciePortStatus0Reg) (s : State) : (onPortStatus n f s).media = s.media := by unfold onPortStatus; split <;> rfl
@[simp] theorem onPortStatus_redun (n : Nat) (f : PciePortStatus0Reg → PciePortStatus0Reg) (s : State) : (onPortStatus n f s).redun = s.redun := by unfold onPortStatus; split <;> rfl
@[simp] theorem onPortStatus_thermal (n : Nat) (f : PciePortStatus0Reg → PciePortStatus0Reg) (s : State) : (onPortStatus n f s).thermal = s.thermal := by unfold onPortStatus; split <;> rfl
@[simp] theorem onPortStatus_health (n : Nat) (f : PciePortStatus0Reg → PciePortStatus0Reg) (s : State) : (onPortStatus n f s).health = s.health := by unfold onPortStatus; split <;> rfl
@[simp] theorem onPortStatus_power_states (n : Nat) (f : PciePortStatus0Reg → PciePortStatus0Reg) (s : State) : (onPortStatus n f s).power_states = s.power_states := by unfold onPortStatus; split <;> rfl
@[simp] theorem onPortStatus_security (n : Nat) (f : PciePortStatus0Reg → PciePortStatus0Reg) (s : State) : (onPortStatus n f s).security = s.security := by unfold onPortStatus; split <;> rfl
@[simp] theorem onPortStatus_memory (n : Nat) (f : PciePortStatus0Reg → PciePortStatus0Reg) (s : State) : (onPortStatus n f s).memory = s.memory := by unfold onPortStatus; split <;> rfl
@[simp] theorem onPortStatus_teasel (n : Nat) (f : PciePortStatus0Reg → PciePortStatus0Reg) (s : State) : (onPortStatus n f s).teasel = s.teasel := by unfold onPortStatus; split <;> rfl
@[simp] theorem onPortStatus_keaka (n : Nat) (f : PciePortStatus0Reg → PciePortStatus0Reg) (s : State) : (onPortStatus n f s).keaka = s.keaka := by unfold onPortStatus; split <;> rfl
@[simp] theorem onPortStatus_events (n : Nat) (f : PciePortStatus0Reg → PciePortStatus0Reg) (s : State) : (onPortStatus n f s).events = s.events := by unfold onPortStatus; split <;> rfl
@[simp] theorem onPortStatus_pads (n : Nat) (f : PciePortStatus0Reg → PciePortStatus0Reg) (s : State) : (onPortStatus n f s).pads = s.pads := by unfold onPortStatus; split <;> rfl
@[simp] theorem onPortStatus_out (n : Nat) (f : PciePortStatus0Reg → PciePortStatus0Reg) (s : State) : (onPortStatus n f s).out = s.out := by unfold onPortStatus; split <;> rfl

/-! ### Timers -/

@[simp] theorem timer_disarm_self (k : TimerKind) (i : Nat) (s : State) : (disarm k i s).timer k i = none := by
  simp only [State.timer, disarm, List.find?_eq_none, List.mem_filter]
  rintro x ⟨_, h⟩ e
  rw [e] at h
  exact absurd h (by decide)

theorem timer_disarm_other {k l : TimerKind} {i j : Nat} (h : ¬(k = l ∧ i = j)) (s : State) :
    (disarm k i s).timer l j = s.timer l j := by
  simp only [State.timer, disarm, List.find?_filter]
  congr 1
  funext t
  by_cases h1 : t.kind = l
  · by_cases h2 : t.idx = j
    · subst h1 h2
      have : (t.kind == k && t.idx == i) = false := by
        simp only [Bool.and_eq_false_iff, beq_eq_false_iff_ne]
        by_cases hk : t.kind = k
        · exact .inr fun e => h ⟨hk.symm, e.symm⟩
        · exact .inl hk
      simp [this]
    · simp [h2]
  · simp [h1]

@[simp] theorem timer_armAt_self (k : TimerKind) (i d : Nat) (s : State) : (armAt k i d s).timer k i = some ⟨k, i, d⟩ := by
  simp [State.timer, armAt]

@[simp] theorem timer_arm_self (k : TimerKind) (i n : Nat) (s : State) :
    (arm k i n s).timer k i = some ⟨k, i, s.h + n⟩ := by
  simp [arm]

theorem timer_armAt_other {k l : TimerKind} {i j : Nat} (h : ¬(k = l ∧ i = j)) (d : Nat) (s : State) :
    (armAt k i d s).timer l j = s.timer l j := by
  have : (armAt k i d s).timer l j = (disarm k i s).timer l j := by
    simp only [State.timer, armAt, disarm]
    rw [List.find?_cons_of_neg]
    simp only [Bool.and_eq_true, beq_iff_eq]
    exact h
  rw [this, timer_disarm_other h]

theorem timer_arm_other {k l : TimerKind} {i j : Nat} (h : ¬(k = l ∧ i = j)) (n : Nat) (s : State) :
    (arm k i n s).timer l j = s.timer l j := timer_armAt_other h ..

end Sys2Proof.Machine
end

