-- ==== Sys2Proof/Laws/Updates.lean ====
section
/-!
SUPPORT. What the updates of one entry of a table leave in the other fields of the state: in-flight entries, operations, blocks,
dies, LUNs and channels.
-/

namespace Sys2Proof.Machine

@[simp] theorem onLun_pending (d : Nat) (f : Lun → Lun) (s : State) : (onLun d f s).pending = s.pending := rfl
@[simp] theorem onLun_mode (d : Nat) (f : Lun → Lun) (s : State) : (onLun d f s).mode = s.mode := rfl
@[simp] theorem onLun_prevMode (d : Nat) (f : Lun → Lun) (s : State) : (onLun d f s).prevMode = s.prevMode := rfl
@[simp] theorem onLun_mgmt (d : Nat) (f : Lun → Lun) (s : State) : (onLun d f s).mgmt = s.mgmt := rfl
@[simp] theorem onLun_camp (d : Nat) (f : Lun → Lun) (s : State) : (onLun d f s).camp = s.camp := rfl
@[simp] theorem onLun_pad (d : Nat) (f : Lun → Lun) (s : State) : (onLun d f s).pad = s.pad := rfl
@[simp] theorem onLun_pwr (d : Nat) (f : Lun → Lun) (s : State) : (onLun d f s).pwr = s.pwr := rfl
@[simp] theorem onLun_rst (d : Nat) (f : Lun → Lun) (s : State) : (onLun d f s).rst = s.rst := rfl
@[simp] theorem onLun_ba (d : Nat) (f : Lun → Lun) (s : State) : (onLun d f s).ba = s.ba := rfl
@[simp] theorem onLun_man (d : Nat) (f : Lun → Lun) (s : State) : (onLun d f s).man = s.man := rfl
@[simp] theorem onLun_pcie (d : Nat) (f : Lun → Lun) (s : State) : (onLun d f s).pcie = s.pcie := rfl
@[simp] theorem onLun_cmd (d : Nat) (f : Lun → Lun) (s : State) : (onLun d f s).cmd = s.cmd := rfl
@[simp] theorem onLun_map (d : Nat) (f : Lun → Lun) (s : State) : (onLun d f s).map = s.map := rfl
@[simp] theorem onLun_str (d : Nat) (f : Lun → Lun) (s : State) : (onLun d f s).str = s.str := rfl
@[simp] theorem onLun_rcl (d : Nat) (f : Lun → Lun) (s : State) : (onLun d f s).rcl = s.rcl := rfl
@[simp] theorem onLun_ch (d : Nat) (f : Lun → Lun) (s : State) : (onLun d f s).ch = s.ch := rfl
@[simp] theorem onLun_red (d : Nat) (f : Lun → Lun) (s : State) : (onLun d f s).red = s.red := rfl
@[simp] theorem onLun_thm (d : Nat) (f : Lun → Lun) (s : State) : (onLun d f s).thm = s.thm := rfl
@[simp] theorem onLun_psm (d : Nat) (f : Lun → Lun) (s : State) : (onLun d f s).psm = s.psm := rfl
@[simp] theorem onLun_sec (d : Nat) (f : Lun → Lun) (s : State) : (onLun d f s).sec = s.sec := rfl
@[simp] theorem onLun_mem (d : Nat) (f : Lun → Lun) (s : State) : (onLun d f s).mem = s.mem := rfl
@[simp] theorem onLun_tsl (d : Nat) (f : Lun → Lun) (s : State) : (onLun d f s).tsl = s.tsl := rfl
@[simp] theorem onLun_kk (d : Nat) (f : Lun → Lun) (s : State) : (onLun d f s).kk = s.kk := rfl
@[simp] theorem onLun_evt (d : Nat) (f : Lun → Lun) (s : State) : (onLun d f s).evt = s.evt := rfl
@[simp] theorem onLun_time (d : Nat) (f : Lun → Lun) (s : State) : (onLun d f s).time = s.time := rfl
@[simp] theorem onLun_timers (d : Nat) (f : Lun → Lun) (s : State) : (onLun d f s).timers = s.timers := rfl
@[simp] theorem onLun_reset_ctl (d : Nat) (f : Lun → Lun) (s : State) : (onLun d f s).reset_ctl = s.reset_ctl := rfl
@[simp] theorem onLun_power (d : Nat) (f : Lun → Lun) (s : State) : (onLun d f s).power = s.power := rfl
@[simp] theorem onLun_boot (d : Nat) (f : Lun → Lun) (s : State) : (onLun d f s).boot = s.boot := rfl
@[simp] theorem onLun_manifest (d : Nat) (f : Lun → Lun) (s : State) : (onLun d f s).manifest = s.manifest := rfl
@[simp] theorem onLun_ep (d : Nat) (f : Lun → Lun) (s : State) : (onLun d f s).ep = s.ep := rfl
@[simp] theorem onLun_nvme (d : Nat) (f : Lun → Lun) (s : State) : (onLun d f s).nvme = s.nvme := rfl
@[simp] theorem onLun_engine (d : Nat) (f : Lun → Lun) (s : State) : (onLun d f s).engine = s.engine := rfl
@[simp] theorem onLun_shroud (d : Nat) (f : Lun → Lun) (s : State) : (onLun d f s).shroud = s.shroud := rfl
@[simp] theorem onLun_reclaim (d : Nat) (f : Lun → Lun) (s : State) : (onLun d f s).reclaim = s.reclaim := rfl
@[simp] theorem onLun_redun (d : Nat) (f : Lun → Lun) (s : State) : (onLun d f s).redun = s.redun := rfl
@[simp] theorem onLun_thermal (d : Nat) (f : Lun → Lun) (s : State) : (onLun d f s).thermal = s.thermal := rfl
@[simp] theorem onLun_health (d : Nat) (f : Lun → Lun) (s : State) : (onLun d f s).health = s.health := rfl
@[simp] theorem onLun_power_states (d : Nat) (f : Lun → Lun) (s : State) : (onLun d f s).power_states = s.power_states := rfl
@[simp] theorem onLun_security (d : Nat) (f : Lun → Lun) (s : State) : (onLun d f s).security = s.security := rfl
@[simp] theorem onLun_memory (d : Nat) (f : Lun → Lun) (s : State) : (onLun d f s).memory = s.memory := rfl
@[simp] theorem onLun_teasel (d : Nat) (f : Lun → Lun) (s : State) : (onLun d f s).teasel = s.teasel := rfl
@[simp] theorem onLun_keaka (d : Nat) (f : Lun → Lun) (s : State) : (onLun d f s).keaka = s.keaka := rfl
@[simp] theorem onLun_events (d : Nat) (f : Lun → Lun) (s : State) : (onLun d f s).events = s.events := rfl
@[simp] theorem onLun_pads (d : Nat) (f : Lun → Lun) (s : State) : (onLun d f s).pads = s.pads := rfl
@[simp] theorem onLun_out (d : Nat) (f : Lun → Lun) (s : State) : (onLun d f s).out = s.out := rfl

@[simp] theorem onDie_pending (d : Nat) (f : Die → Die) (s : State) : (onDie d f s).pending = s.pending := rfl
@[simp] theorem onDie_mode (d : Nat) (f : Die → Die) (s : State) : (onDie d f s).mode = s.mode := rfl
@[simp] theorem onDie_prevMode (d : Nat) (f : Die → Die) (s : State) : (onDie d f s).prevMode = s.prevMode := rfl
@[simp] theorem onDie_mgmt (d : Nat) (f : Die → Die) (s : State) : (onDie d f s).mgmt = s.mgmt := rfl
@[simp] theorem onDie_camp (d : Nat) (f : Die → Die) (s : State) : (onDie d f s).camp = s.camp := rfl
@[simp] theorem onDie_pad (d : Nat) (f : Die → Die) (s : State) : (onDie d f s).pad = s.pad := rfl
@[simp] theorem onDie_pwr (d : Nat) (f : Die → Die) (s : State) : (onDie d f s).pwr = s.pwr := rfl
@[simp] theorem onDie_rst (d : Nat) (f : Die → Die) (s : State) : (onDie d f s).rst = s.rst := rfl
@[simp] theorem onDie_ba (d : Nat) (f : Die → Die) (s : State) : (onDie d f s).ba = s.ba := rfl
@[simp] theorem onDie_man (d : Nat) (f : Die → Die) (s : State) : (onDie d f s).man = s.man := rfl
@[simp] theorem onDie_pcie (d : Nat) (f : Die → Die) (s : State) : (onDie d f s).pcie = s.pcie := rfl
@[simp] theorem onDie_cmd (d : Nat) (f : Die → Die) (s : State) : (onDie d f s).cmd = s.cmd := rfl
@[simp] theorem onDie_map (d : Nat) (f : Die → Die) (s : State) : (onDie d f s).map = s.map := rfl
@[simp] theorem onDie_str (d : Nat) (f : Die → Die) (s : State) : (onDie d f s).str = s.str := rfl
@[simp] theorem onDie_rcl (d : Nat) (f : Die → Die) (s : State) : (onDie d f s).rcl = s.rcl := rfl
@[simp] theorem onDie_ch (d : Nat) (f : Die → Die) (s : State) : (onDie d f s).ch = s.ch := rfl
@[simp] theorem onDie_red (d : Nat) (f : Die → Die) (s : State) : (onDie d f s).red = s.red := rfl
@[simp] theorem onDie_thm (d : Nat) (f : Die → Die) (s : State) : (onDie d f s).thm = s.thm := rfl
@[simp] theorem onDie_psm (d : Nat) (f : Die → Die) (s : State) : (onDie d f s).psm = s.psm := rfl
@[simp] theorem onDie_sec (d : Nat) (f : Die → Die) (s : State) : (onDie d f s).sec = s.sec := rfl
@[simp] theorem onDie_mem (d : Nat) (f : Die → Die) (s : State) : (onDie d f s).mem = s.mem := rfl
@[simp] theorem onDie_tsl (d : Nat) (f : Die → Die) (s : State) : (onDie d f s).tsl = s.tsl := rfl
@[simp] theorem onDie_kk (d : Nat) (f : Die → Die) (s : State) : (onDie d f s).kk = s.kk := rfl
@[simp] theorem onDie_evt (d : Nat) (f : Die → Die) (s : State) : (onDie d f s).evt = s.evt := rfl
@[simp] theorem onDie_time (d : Nat) (f : Die → Die) (s : State) : (onDie d f s).time = s.time := rfl
@[simp] theorem onDie_timers (d : Nat) (f : Die → Die) (s : State) : (onDie d f s).timers = s.timers := rfl
@[simp] theorem onDie_reset_ctl (d : Nat) (f : Die → Die) (s : State) : (onDie d f s).reset_ctl = s.reset_ctl := rfl
@[simp] theorem onDie_power (d : Nat) (f : Die → Die) (s : State) : (onDie d f s).power = s.power := rfl
@[simp] theorem onDie_boot (d : Nat) (f : Die → Die) (s : State) : (onDie d f s).boot = s.boot := rfl
@[simp] theorem onDie_manifest (d : Nat) (f : Die → Die) (s : State) : (onDie d f s).manifest = s.manifest := rfl
@[simp] theorem onDie_ep (d : Nat) (f : Die → Die) (s : State) : (onDie d f s).ep = s.ep := rfl
@[simp] theorem onDie_nvme (d : Nat) (f : Die → Die) (s : State) : (onDie d f s).nvme = s.nvme := rfl
@[simp] theorem onDie_engine (d : Nat) (f : Die → Die) (s : State) : (onDie d f s).engine = s.engine := rfl
@[simp] theorem onDie_shroud (d : Nat) (f : Die → Die) (s : State) : (onDie d f s).shroud = s.shroud := rfl
@[simp] theorem onDie_reclaim (d : Nat) (f : Die → Die) (s : State) : (onDie d f s).reclaim = s.reclaim := rfl
@[simp] theorem onDie_media (d : Nat) (f : Die → Die) (s : State) : (onDie d f s).media = s.media := rfl
@[simp] theorem onDie_thermal (d : Nat) (f : Die → Die) (s : State) : (onDie d f s).thermal = s.thermal := rfl
@[simp] theorem onDie_health (d : Nat) (f : Die → Die) (s : State) : (onDie d f s).health = s.health := rfl
@[simp] theorem onDie_power_states (d : Nat) (f : Die → Die) (s : State) : (onDie d f s).power_states = s.power_states := rfl
@[simp] theorem onDie_security (d : Nat) (f : Die → Die) (s : State) : (onDie d f s).security = s.security := rfl
@[simp] theorem onDie_memory (d : Nat) (f : Die → Die) (s : State) : (onDie d f s).memory = s.memory := rfl
@[simp] theorem onDie_teasel (d : Nat) (f : Die → Die) (s : State) : (onDie d f s).teasel = s.teasel := rfl
@[simp] theorem onDie_keaka (d : Nat) (f : Die → Die) (s : State) : (onDie d f s).keaka = s.keaka := rfl
@[simp] theorem onDie_events (d : Nat) (f : Die → Die) (s : State) : (onDie d f s).events = s.events := rfl
@[simp] theorem onDie_pads (d : Nat) (f : Die → Die) (s : State) : (onDie d f s).pads = s.pads := rfl
@[simp] theorem onDie_out (d : Nat) (f : Die → Die) (s : State) : (onDie d f s).out = s.out := rfl

@[simp] theorem onBlock_pending (k : Nat) (f : Block → Block) (s : State) : (onBlock k f s).pending = s.pending := rfl
@[simp] theorem onBlock_mode (k : Nat) (f : Block → Block) (s : State) : (onBlock k f s).mode = s.mode := rfl
@[simp] theorem onBlock_prevMode (k : Nat) (f : Block → Block) (s : State) : (onBlock k f s).prevMode = s.prevMode := rfl
@[simp] theorem onBlock_mgmt (k : Nat) (f : Block → Block) (s : State) : (onBlock k f s).mgmt = s.mgmt := rfl
@[simp] theorem onBlock_camp (k : Nat) (f : Block → Block) (s : State) : (onBlock k f s).camp = s.camp := rfl
@[simp] theorem onBlock_pad (k : Nat) (f : Block → Block) (s : State) : (onBlock k f s).pad = s.pad := rfl
@[simp] theorem onBlock_pwr (k : Nat) (f : Block → Block) (s : State) : (onBlock k f s).pwr = s.pwr := rfl
@[simp] theorem onBlock_rst (k : Nat) (f : Block → Block) (s : State) : (onBlock k f s).rst = s.rst := rfl
@[simp] theorem onBlock_ba (k : Nat) (f : Block → Block) (s : State) : (onBlock k f s).ba = s.ba := rfl
@[simp] theorem onBlock_man (k : Nat) (f : Block → Block) (s : State) : (onBlock k f s).man = s.man := rfl
@[simp] theorem onBlock_pcie (k : Nat) (f : Block → Block) (s : State) : (onBlock k f s).pcie = s.pcie := rfl
@[simp] theorem onBlock_cmd (k : Nat) (f : Block → Block) (s : State) : (onBlock k f s).cmd = s.cmd := rfl
@[simp] theorem onBlock_map (k : Nat) (f : Block → Block) (s : State) : (onBlock k f s).map = s.map := rfl
@[simp] theorem onBlock_str (k : Nat) (f : Block → Block) (s : State) : (onBlock k f s).str = s.str := rfl
@[simp] theorem onBlock_rcl (k : Nat) (f : Block → Block) (s : State) : (onBlock k f s).rcl = s.rcl := rfl
@[simp] theorem onBlock_ch (k : Nat) (f : Block → Block) (s : State) : (onBlock k f s).ch = s.ch := rfl
@[simp] theorem onBlock_red (k : Nat) (f : Block → Block) (s : State) : (onBlock k f s).red = s.red := rfl
@[simp] theorem onBlock_thm (k : Nat) (f : Block → Block) (s : State) : (onBlock k f s).thm = s.thm := rfl
@[simp] theorem onBlock_psm (k : Nat) (f : Block → Block) (s : State) : (onBlock k f s).psm = s.psm := rfl
@[simp] theorem onBlock_sec (k : Nat) (f : Block → Block) (s : State) : (onBlock k f s).sec = s.sec := rfl
@[simp] theorem onBlock_mem (k : Nat) (f : Block → Block) (s : State) : (onBlock k f s).mem = s.mem := rfl
@[simp] theorem onBlock_tsl (k : Nat) (f : Block → Block) (s : State) : (onBlock k f s).tsl = s.tsl := rfl
@[simp] theorem onBlock_kk (k : Nat) (f : Block → Block) (s : State) : (onBlock k f s).kk = s.kk := rfl
@[simp] theorem onBlock_evt (k : Nat) (f : Block → Block) (s : State) : (onBlock k f s).evt = s.evt := rfl
@[simp] theorem onBlock_time (k : Nat) (f : Block → Block) (s : State) : (onBlock k f s).time = s.time := rfl
@[simp] theorem onBlock_timers (k : Nat) (f : Block → Block) (s : State) : (onBlock k f s).timers = s.timers := rfl
@[simp] theorem onBlock_reset_ctl (k : Nat) (f : Block → Block) (s : State) : (onBlock k f s).reset_ctl = s.reset_ctl := rfl
@[simp] theorem onBlock_power (k : Nat) (f : Block → Block) (s : State) : (onBlock k f s).power = s.power := rfl
@[simp] theorem onBlock_boot (k : Nat) (f : Block → Block) (s : State) : (onBlock k f s).boot = s.boot := rfl
@[simp] theorem onBlock_manifest (k : Nat) (f : Block → Block) (s : State) : (onBlock k f s).manifest = s.manifest := rfl
@[simp] theorem onBlock_ep (k : Nat) (f : Block → Block) (s : State) : (onBlock k f s).ep = s.ep := rfl
@[simp] theorem onBlock_nvme (k : Nat) (f : Block → Block) (s : State) : (onBlock k f s).nvme = s.nvme := rfl
@[simp] theorem onBlock_engine (k : Nat) (f : Block → Block) (s : State) : (onBlock k f s).engine = s.engine := rfl
@[simp] theorem onBlock_shroud (k : Nat) (f : Block → Block) (s : State) : (onBlock k f s).shroud = s.shroud := rfl
@[simp] theorem onBlock_media (k : Nat) (f : Block → Block) (s : State) : (onBlock k f s).media = s.media := rfl
@[simp] theorem onBlock_redun (k : Nat) (f : Block → Block) (s : State) : (onBlock k f s).redun = s.redun := rfl
@[simp] theorem onBlock_thermal (k : Nat) (f : Block → Block) (s : State) : (onBlock k f s).thermal = s.thermal := rfl
@[simp] theorem onBlock_health (k : Nat) (f : Block → Block) (s : State) : (onBlock k f s).health = s.health := rfl
@[simp] theorem onBlock_power_states (k : Nat) (f : Block → Block) (s : State) : (onBlock k f s).power_states = s.power_states := rfl
@[simp] theorem onBlock_security (k : Nat) (f : Block → Block) (s : State) : (onBlock k f s).security = s.security := rfl
@[simp] theorem onBlock_memory (k : Nat) (f : Block → Block) (s : State) : (onBlock k f s).memory = s.memory := rfl
@[simp] theorem onBlock_teasel (k : Nat) (f : Block → Block) (s : State) : (onBlock k f s).teasel = s.teasel := rfl
@[simp] theorem onBlock_keaka (k : Nat) (f : Block → Block) (s : State) : (onBlock k f s).keaka = s.keaka := rfl
@[simp] theorem onBlock_events (k : Nat) (f : Block → Block) (s : State) : (onBlock k f s).events = s.events := rfl
@[simp] theorem onBlock_pads (k : Nat) (f : Block → Block) (s : State) : (onBlock k f s).pads = s.pads := rfl
@[simp] theorem onBlock_out (k : Nat) (f : Block → Block) (s : State) : (onBlock k f s).out = s.out := rfl

@[simp] theorem onChannel_pending (c : Nat) (f : ChannelState → ChannelState) (s : State) : (onChannel c f s).pending = s.pending := rfl
@[simp] theorem onChannel_mode (c : Nat) (f : ChannelState → ChannelState) (s : State) : (onChannel c f s).mode = s.mode := rfl
@[simp] theorem onChannel_prevMode (c : Nat) (f : ChannelState → ChannelState) (s : State) : (onChannel c f s).prevMode = s.prevMode := rfl
@[simp] theorem onChannel_mgmt (c : Nat) (f : ChannelState → ChannelState) (s : State) : (onChannel c f s).mgmt = s.mgmt := rfl
@[simp] theorem onChannel_camp (c : Nat) (f : ChannelState → ChannelState) (s : State) : (onChannel c f s).camp = s.camp := rfl
@[simp] theorem onChannel_pad (c : Nat) (f : ChannelState → ChannelState) (s : State) : (onChannel c f s).pad = s.pad := rfl
@[simp] theorem onChannel_pwr (c : Nat) (f : ChannelState → ChannelState) (s : State) : (onChannel c f s).pwr = s.pwr := rfl
@[simp] theorem onChannel_rst (c : Nat) (f : ChannelState → ChannelState) (s : State) : (onChannel c f s).rst = s.rst := rfl
@[simp] theorem onChannel_ba (c : Nat) (f : ChannelState → ChannelState) (s : State) : (onChannel c f s).ba = s.ba := rfl
@[simp] theorem onChannel_man (c : Nat) (f : ChannelState → ChannelState) (s : State) : (onChannel c f s).man = s.man := rfl
@[simp] theorem onChannel_pcie (c : Nat) (f : ChannelState → ChannelState) (s : State) : (onChannel c f s).pcie = s.pcie := rfl
@[simp] theorem onChannel_cmd (c : Nat) (f : ChannelState → ChannelState) (s : State) : (onChannel c f s).cmd = s.cmd := rfl
@[simp] theorem onChannel_map (c : Nat) (f : ChannelState → ChannelState) (s : State) : (onChannel c f s).map = s.map := rfl
@[simp] theorem onChannel_str (c : Nat) (f : ChannelState → ChannelState) (s : State) : (onChannel c f s).str = s.str := rfl
@[simp] theorem onChannel_rcl (c : Nat) (f : ChannelState → ChannelState) (s : State) : (onChannel c f s).rcl = s.rcl := rfl
@[simp] theorem onChannel_ch (c : Nat) (f : ChannelState → ChannelState) (s : State) : (onChannel c f s).ch = s.ch := rfl
@[simp] theorem onChannel_red (c : Nat) (f : ChannelState → ChannelState) (s : State) : (onChannel c f s).red = s.red := rfl
@[simp] theorem onChannel_thm (c : Nat) (f : ChannelState → ChannelState) (s : State) : (onChannel c f s).thm = s.thm := rfl
@[simp] theorem onChannel_psm (c : Nat) (f : ChannelState → ChannelState) (s : State) : (onChannel c f s).psm = s.psm := rfl
@[simp] theorem onChannel_sec (c : Nat) (f : ChannelState → ChannelState) (s : State) : (onChannel c f s).sec = s.sec := rfl
@[simp] theorem onChannel_mem (c : Nat) (f : ChannelState → ChannelState) (s : State) : (onChannel c f s).mem = s.mem := rfl
@[simp] theorem onChannel_tsl (c : Nat) (f : ChannelState → ChannelState) (s : State) : (onChannel c f s).tsl = s.tsl := rfl
@[simp] theorem onChannel_kk (c : Nat) (f : ChannelState → ChannelState) (s : State) : (onChannel c f s).kk = s.kk := rfl
@[simp] theorem onChannel_evt (c : Nat) (f : ChannelState → ChannelState) (s : State) : (onChannel c f s).evt = s.evt := rfl
@[simp] theorem onChannel_time (c : Nat) (f : ChannelState → ChannelState) (s : State) : (onChannel c f s).time = s.time := rfl
@[simp] theorem onChannel_timers (c : Nat) (f : ChannelState → ChannelState) (s : State) : (onChannel c f s).timers = s.timers := rfl
@[simp] theorem onChannel_reset_ctl (c : Nat) (f : ChannelState → ChannelState) (s : State) : (onChannel c f s).reset_ctl = s.reset_ctl := rfl
@[simp] theorem onChannel_power (c : Nat) (f : ChannelState → ChannelState) (s : State) : (onChannel c f s).power = s.power := rfl
@[simp] theorem onChannel_boot (c : Nat) (f : ChannelState → ChannelState) (s : State) : (onChannel c f s).boot = s.boot := rfl
@[simp] theorem onChannel_manifest (c : Nat) (f : ChannelState → ChannelState) (s : State) : (onChannel c f s).manifest = s.manifest := rfl
@[simp] theorem onChannel_ep (c : Nat) (f : ChannelState → ChannelState) (s : State) : (onChannel c f s).ep = s.ep := rfl
@[simp] theorem onChannel_nvme (c : Nat) (f : ChannelState → ChannelState) (s : State) : (onChannel c f s).nvme = s.nvme := rfl
@[simp] theorem onChannel_engine (c : Nat) (f : ChannelState → ChannelState) (s : State) : (onChannel c f s).engine = s.engine := rfl
@[simp] theorem onChannel_shroud (c : Nat) (f : ChannelState → ChannelState) (s : State) : (onChannel c f s).shroud = s.shroud := rfl
@[simp] theorem onChannel_reclaim (c : Nat) (f : ChannelState → ChannelState) (s : State) : (onChannel c f s).reclaim = s.reclaim := rfl
@[simp] theorem onChannel_redun (c : Nat) (f : ChannelState → ChannelState) (s : State) : (onChannel c f s).redun = s.redun := rfl
@[simp] theorem onChannel_thermal (c : Nat) (f : ChannelState → ChannelState) (s : State) : (onChannel c f s).thermal = s.thermal := rfl
@[simp] theorem onChannel_health (c : Nat) (f : ChannelState → ChannelState) (s : State) : (onChannel c f s).health = s.health := rfl
@[simp] theorem onChannel_power_states (c : Nat) (f : ChannelState → ChannelState) (s : State) : (onChannel c f s).power_states = s.power_states := rfl
@[simp] theorem onChannel_security (c : Nat) (f : ChannelState → ChannelState) (s : State) : (onChannel c f s).security = s.security := rfl
@[simp] theorem onChannel_memory (c : Nat) (f : ChannelState → ChannelState) (s : State) : (onChannel c f s).memory = s.memory := rfl
@[simp] theorem onChannel_teasel (c : Nat) (f : ChannelState → ChannelState) (s : State) : (onChannel c f s).teasel = s.teasel := rfl
@[simp] theorem onChannel_keaka (c : Nat) (f : ChannelState → ChannelState) (s : State) : (onChannel c f s).keaka = s.keaka := rfl
@[simp] theorem onChannel_events (c : Nat) (f : ChannelState → ChannelState) (s : State) : (onChannel c f s).events = s.events := rfl
@[simp] theorem onChannel_pads (c : Nat) (f : ChannelState → ChannelState) (s : State) : (onChannel c f s).pads = s.pads := rfl
@[simp] theorem onChannel_out (c : Nat) (f : ChannelState → ChannelState) (s : State) : (onChannel c f s).out = s.out := rfl

@[simp] theorem onChannelStatus_pending (c : Nat) (f : ChnStatusReg → ChnStatusReg) (s : State) : (onChannelStatus c f s).pending = s.pending := rfl
@[simp] theorem onChannelStatus_mode (c : Nat) (f : ChnStatusReg → ChnStatusReg) (s : State) : (onChannelStatus c f s).mode = s.mode := rfl
@[simp] theorem onChannelStatus_prevMode (c : Nat) (f : ChnStatusReg → ChnStatusReg) (s : State) : (onChannelStatus c f s).prevMode = s.prevMode := rfl
@[simp] theorem onChannelStatus_mgmt (c : Nat) (f : ChnStatusReg → ChnStatusReg) (s : State) : (onChannelStatus c f s).mgmt = s.mgmt := rfl
@[simp] theorem onChannelStatus_camp (c : Nat) (f : ChnStatusReg → ChnStatusReg) (s : State) : (onChannelStatus c f s).camp = s.camp := rfl
@[simp] theorem onChannelStatus_pad (c : Nat) (f : ChnStatusReg → ChnStatusReg) (s : State) : (onChannelStatus c f s).pad = s.pad := rfl
@[simp] theorem onChannelStatus_pwr (c : Nat) (f : ChnStatusReg → ChnStatusReg) (s : State) : (onChannelStatus c f s).pwr = s.pwr := rfl
@[simp] theorem onChannelStatus_rst (c : Nat) (f : ChnStatusReg → ChnStatusReg) (s : State) : (onChannelStatus c f s).rst = s.rst := rfl
@[simp] theorem onChannelStatus_ba (c : Nat) (f : ChnStatusReg → ChnStatusReg) (s : State) : (onChannelStatus c f s).ba = s.ba := rfl
@[simp] theorem onChannelStatus_man (c : Nat) (f : ChnStatusReg → ChnStatusReg) (s : State) : (onChannelStatus c f s).man = s.man := rfl
@[simp] theorem onChannelStatus_pcie (c : Nat) (f : ChnStatusReg → ChnStatusReg) (s : State) : (onChannelStatus c f s).pcie = s.pcie := rfl
@[simp] theorem onChannelStatus_cmd (c : Nat) (f : ChnStatusReg → ChnStatusReg) (s : State) : (onChannelStatus c f s).cmd = s.cmd := rfl
@[simp] theorem onChannelStatus_map (c : Nat) (f : ChnStatusReg → ChnStatusReg) (s : State) : (onChannelStatus c f s).map = s.map := rfl
@[simp] theorem onChannelStatus_str (c : Nat) (f : ChnStatusReg → ChnStatusReg) (s : State) : (onChannelStatus c f s).str = s.str := rfl
@[simp] theorem onChannelStatus_rcl (c : Nat) (f : ChnStatusReg → ChnStatusReg) (s : State) : (onChannelStatus c f s).rcl = s.rcl := rfl
@[simp] theorem onChannelStatus_red (c : Nat) (f : ChnStatusReg → ChnStatusReg) (s : State) : (onChannelStatus c f s).red = s.red := rfl
@[simp] theorem onChannelStatus_thm (c : Nat) (f : ChnStatusReg → ChnStatusReg) (s : State) : (onChannelStatus c f s).thm = s.thm := rfl
@[simp] theorem onChannelStatus_psm (c : Nat) (f : ChnStatusReg → ChnStatusReg) (s : State) : (onChannelStatus c f s).psm = s.psm := rfl
@[simp] theorem onChannelStatus_sec (c : Nat) (f : ChnStatusReg → ChnStatusReg) (s : State) : (onChannelStatus c f s).sec = s.sec := rfl
@[simp] theorem onChannelStatus_mem (c : Nat) (f : ChnStatusReg → ChnStatusReg) (s : State) : (onChannelStatus c f s).mem = s.mem := rfl
@[simp] theorem onChannelStatus_tsl (c : Nat) (f : ChnStatusReg → ChnStatusReg) (s : State) : (onChannelStatus c f s).tsl = s.tsl := rfl
@[simp] theorem onChannelStatus_kk (c : Nat) (f : ChnStatusReg → ChnStatusReg) (s : State) : (onChannelStatus c f s).kk = s.kk := rfl
@[simp] theorem onChannelStatus_evt (c : Nat) (f : ChnStatusReg → ChnStatusReg) (s : State) : (onChannelStatus c f s).evt = s.evt := rfl
@[simp] theorem onChannelStatus_time (c : Nat) (f : ChnStatusReg → ChnStatusReg) (s : State) : (onChannelStatus c f s).time = s.time := rfl
@[simp] theorem onChannelStatus_timers (c : Nat) (f : ChnStatusReg → ChnStatusReg) (s : State) : (onChannelStatus c f s).timers = s.timers := rfl
@[simp] theorem onChannelStatus_reset_ctl (c : Nat) (f : ChnStatusReg → ChnStatusReg) (s : State) : (onChannelStatus c f s).reset_ctl = s.reset_ctl := rfl
@[simp] theorem onChannelStatus_power (c : Nat) (f : ChnStatusReg → ChnStatusReg) (s : State) : (onChannelStatus c f s).power = s.power := rfl
@[simp] theorem onChannelStatus_boot (c : Nat) (f : ChnStatusReg → ChnStatusReg) (s : State) : (onChannelStatus c f s).boot = s.boot := rfl
@[simp] theorem onChannelStatus_manifest (c : Nat) (f : ChnStatusReg → ChnStatusReg) (s : State) : (onChannelStatus c f s).manifest = s.manifest := rfl
@[simp] theorem onChannelStatus_ep (c : Nat) (f : ChnStatusReg → ChnStatusReg) (s : State) : (onChannelStatus c f s).ep = s.ep := rfl
@[simp] theorem onChannelStatus_nvme (c : Nat) (f : ChnStatusReg → ChnStatusReg) (s : State) : (onChannelStatus c f s).nvme = s.nvme := rfl
@[simp] theorem onChannelStatus_engine (c : Nat) (f : ChnStatusReg → ChnStatusReg) (s : State) : (onChannelStatus c f s).engine = s.engine := rfl
@[simp] theorem onChannelStatus_shroud (c : Nat) (f : ChnStatusReg → ChnStatusReg) (s : State) : (onChannelStatus c f s).shroud = s.shroud := rfl
@[simp] theorem onChannelStatus_reclaim (c : Nat) (f : ChnStatusReg → ChnStatusReg) (s : State) : (onChannelStatus c f s).reclaim = s.reclaim := rfl
@[simp] theorem onChannelStatus_media (c : Nat) (f : ChnStatusReg → ChnStatusReg) (s : State) : (onChannelStatus c f s).media = s.media := rfl
@[simp] theorem onChannelStatus_redun (c : Nat) (f : ChnStatusReg → ChnStatusReg) (s : State) : (onChannelStatus c f s).redun = s.redun := rfl
@[simp] theorem onChannelStatus_thermal (c : Nat) (f : ChnStatusReg → ChnStatusReg) (s : State) : (onChannelStatus c f s).thermal = s.thermal := rfl
@[simp] theorem onChannelStatus_health (c : Nat) (f : ChnStatusReg → ChnStatusReg) (s : State) : (onChannelStatus c f s).health = s.health := rfl
@[simp] theorem onChannelStatus_power_states (c : Nat) (f : ChnStatusReg → ChnStatusReg) (s : State) : (onChannelStatus c f s).power_states = s.power_states := rfl
@[simp] theorem onChannelStatus_security (c : Nat) (f : ChnStatusReg → ChnStatusReg) (s : State) : (onChannelStatus c f s).security = s.security := rfl
@[simp] theorem onChannelStatus_memory (c : Nat) (f : ChnStatusReg → ChnStatusReg) (s : State) : (onChannelStatus c f s).memory = s.memory := rfl
@[simp] theorem onChannelStatus_teasel (c : Nat) (f : ChnStatusReg → ChnStatusReg) (s : State) : (onChannelStatus c f s).teasel = s.teasel := rfl
@[simp] theorem onChannelStatus_keaka (c : Nat) (f : ChnStatusReg → ChnStatusReg) (s : State) : (onChannelStatus c f s).keaka = s.keaka := rfl
@[simp] theorem onChannelStatus_events (c : Nat) (f : ChnStatusReg → ChnStatusReg) (s : State) : (onChannelStatus c f s).events = s.events := rfl
@[simp] theorem onChannelStatus_pads (c : Nat) (f : ChnStatusReg → ChnStatusReg) (s : State) : (onChannelStatus c f s).pads = s.pads := rfl
@[simp] theorem onChannelStatus_out (c : Nat) (f : ChnStatusReg → ChnStatusReg) (s : State) : (onChannelStatus c f s).out = s.out := rfl

@[simp] theorem onEntry_pending (t : Nat) (f : Entry → Entry) (s : State) : (onEntry t f s).pending = s.pending := by unfold onEntry; split <;> rfl
@[simp] theorem onEntry_mode (t : Nat) (f : Entry → Entry) (s : State) : (onEntry t f s).mode = s.mode := by unfold onEntry; split <;> rfl
@[simp] theorem onEntry_prevMode (t : Nat) (f : Entry → Entry) (s : State) : (onEntry t f s).prevMode = s.prevMode := by unfold onEntry; split <;> rfl
@[simp] theorem onEntry_mgmt (t : Nat) (f : Entry → Entry) (s : State) : (onEntry t f s).mgmt = s.mgmt := by unfold onEntry; split <;> rfl
@[simp] theorem onEntry_camp (t : Nat) (f : Entry → Entry) (s : State) : (onEntry t f s).camp = s.camp := by unfold onEntry; split <;> rfl
@[simp] theorem onEntry_pad (t : Nat) (f : Entry → Entry) (s : State) : (onEntry t f s).pad = s.pad := by unfold onEntry; split <;> rfl
@[simp] theorem onEntry_pwr (t : Nat) (f : Entry → Entry) (s : State) : (onEntry t f s).pwr = s.pwr := by unfold onEntry; split <;> rfl
@[simp] theorem onEntry_rst (t : Nat) (f : Entry → Entry) (s : State) : (onEntry t f s).rst = s.rst := by unfold onEntry; split <;> rfl
@[simp] theorem onEntry_ba (t : Nat) (f : Entry → Entry) (s : State) : (onEntry t f s).ba = s.ba := by unfold onEntry; split <;> rfl
@[simp] theorem onEntry_man (t : Nat) (f : Entry → Entry) (s : State) : (onEntry t f s).man = s.man := by unfold onEntry; split <;> rfl
@[simp] theorem onEntry_pcie (t : Nat) (f : Entry → Entry) (s : State) : (onEntry t f s).pcie = s.pcie := by unfold onEntry; split <;> rfl
@[simp] theorem onEntry_cmd (t : Nat) (f : Entry → Entry) (s : State) : (onEntry t f s).cmd = s.cmd := by unfold onEntry; split <;> rfl
@[simp] theorem onEntry_map (t : Nat) (f : Entry → Entry) (s : State) : (onEntry t f s).map = s.map := by unfold onEntry; split <;> rfl
@[simp] theorem onEntry_str (t : Nat) (f : Entry → Entry) (s : State) : (onEntry t f s).str = s.str := by unfold onEntry; split <;> rfl
@[simp] theorem onEntry_rcl (t : Nat) (f : Entry → Entry) (s : State) : (onEntry t f s).rcl = s.rcl := by unfold onEntry; split <;> rfl
@[simp] theorem onEntry_ch (t : Nat) (f : Entry → Entry) (s : State) : (onEntry t f s).ch = s.ch := by unfold onEntry; split <;> rfl
@[simp] theorem onEntry_red (t : Nat) (f : Entry → Entry) (s : State) : (onEntry t f s).red = s.red := by unfold onEntry; split <;> rfl
@[simp] theorem onEntry_thm (t : Nat) (f : Entry → Entry) (s : State) : (onEntry t f s).thm = s.thm := by unfold onEntry; split <;> rfl
@[simp] theorem onEntry_psm (t : Nat) (f : Entry → Entry) (s : State) : (onEntry t f s).psm = s.psm := by unfold onEntry; split <;> rfl
@[simp] theorem onEntry_sec (t : Nat) (f : Entry → Entry) (s : State) : (onEntry t f s).sec = s.sec := by unfold onEntry; split <;> rfl
@[simp] theorem onEntry_mem (t : Nat) (f : Entry → Entry) (s : State) : (onEntry t f s).mem = s.mem := by unfold onEntry; split <;> rfl
@[simp] theorem onEntry_tsl (t : Nat) (f : Entry → Entry) (s : State) : (onEntry t f s).tsl = s.tsl := by unfold onEntry; split <;> rfl
@[simp] theorem onEntry_kk (t : Nat) (f : Entry → Entry) (s : State) : (onEntry t f s).kk = s.kk := by unfold onEntry; split <;> rfl
@[simp] theorem onEntry_evt (t : Nat) (f : Entry → Entry) (s : State) : (onEntry t f s).evt = s.evt := by unfold onEntry; split <;> rfl
@[simp] theorem onEntry_time (t : Nat) (f : Entry → Entry) (s : State) : (onEntry t f s).time = s.time := by unfold onEntry; split <;> rfl
@[simp] theorem onEntry_timers (t : Nat) (f : Entry → Entry) (s : State) : (onEntry t f s).timers = s.timers := by unfold onEntry; split <;> rfl
@[simp] theorem onEntry_reset_ctl (t : Nat) (f : Entry → Entry) (s : State) : (onEntry t f s).reset_ctl = s.reset_ctl := by unfold onEntry; split <;> rfl
@[simp] theorem onEntry_power (t : Nat) (f : Entry → Entry) (s : State) : (onEntry t f s).power = s.power := by unfold onEntry; split <;> rfl
@[simp] theorem onEntry_boot (t : Nat) (f : Entry → Entry) (s : State) : (onEntry t f s).boot = s.boot := by unfold onEntry; split <;> rfl
@[simp] theorem onEntry_manifest (t : Nat) (f : Entry → Entry) (s : State) : (onEntry t f s).manifest = s.manifest := by unfold onEntry; split <;> rfl
@[simp] theorem onEntry_ep (t : Nat) (f : Entry → Entry) (s : State) : (onEntry t f s).ep = s.ep := by unfold onEntry; split <;> rfl
@[simp] theorem onEntry_engine (t : Nat) (f : Entry → Entry) (s : State) : (onEntry t f s).engine = s.engine := by unfold onEntry; split <;> rfl
@[simp] theorem onEntry_shroud (t : Nat) (f : Entry → Entry) (s : State) : (onEntry t f s).shroud = s.shroud := by unfold onEntry; split <;> rfl
@[simp] theorem onEntry_reclaim (t : Nat) (f : Entry → Entry) (s : State) : (onEntry t f s).reclaim = s.reclaim := by unfold onEntry; split <;> rfl
@[simp] theorem onEntry_media (t : Nat) (f : Entry → Entry) (s : State) : (onEntry t f s).media = s.media := by unfold onEntry; split <;> rfl
@[simp] theorem onEntry_redun (t : Nat) (f : Entry → Entry) (s : State) : (onEntry t f s).redun = s.redun := by unfold onEntry; split <;> rfl
@[simp] theorem onEntry_thermal (t : Nat) (f : Entry → Entry) (s : State) : (onEntry t f s).thermal = s.thermal := by unfold onEntry; split <;> rfl
@[simp] theorem onEntry_health (t : Nat) (f : Entry → Entry) (s : State) : (onEntry t f s).health = s.health := by unfold onEntry; split <;> rfl
@[simp] theorem onEntry_power_states (t : Nat) (f : Entry → Entry) (s : State) : (onEntry t f s).power_states = s.power_states := by unfold onEntry; split <;> rfl
@[simp] theorem onEntry_security (t : Nat) (f : Entry → Entry) (s : State) : (onEntry t f s).security = s.security := by unfold onEntry; split <;> rfl
@[simp] theorem onEntry_memory (t : Nat) (f : Entry → Entry) (s : State) : (onEntry t f s).memory = s.memory := by unfold onEntry; split <;> rfl
@[simp] theorem onEntry_teasel (t : Nat) (f : Entry → Entry) (s : State) : (onEntry t f s).teasel = s.teasel := by unfold onEntry; split <;> rfl
@[simp] theorem onEntry_keaka (t : Nat) (f : Entry → Entry) (s : State) : (onEntry t f s).keaka = s.keaka := by unfold onEntry; split <;> rfl
@[simp] theorem onEntry_events (t : Nat) (f : Entry → Entry) (s : State) : (onEntry t f s).events = s.events := by unfold onEntry; split <;> rfl
@[simp] theorem onEntry_pads (t : Nat) (f : Entry → Entry) (s : State) : (onEntry t f s).pads = s.pads := by unfold onEntry; split <;> rfl
@[simp] theorem onEntry_out (t : Nat) (f : Entry → Entry) (s : State) : (onEntry t f s).out = s.out := by unfold onEntry; split <;> rfl

@[simp] theorem onOp_pending (i : Nat) (f : NandOp → NandOp) (s : State) : (onOp i f s).pending = s.pending := by unfold onOp; split <;> rfl
@[simp] theorem onOp_mode (i : Nat) (f : NandOp → NandOp) (s : State) : (onOp i f s).mode = s.mode := by unfold onOp; split <;> rfl
@[simp] theorem onOp_prevMode (i : Nat) (f : NandOp → NandOp) (s : State) : (onOp i f s).prevMode = s.prevMode := by unfold onOp; split <;> rfl
@[simp] theorem onOp_mgmt (i : Nat) (f : NandOp → NandOp) (s : State) : (onOp i f s).mgmt = s.mgmt := by unfold onOp; split <;> rfl
@[simp] theorem onOp_camp (i : Nat) (f : NandOp → NandOp) (s : State) : (onOp i f s).camp = s.camp := by unfold onOp; split <;> rfl
@[simp] theorem onOp_pad (i : Nat) (f : NandOp → NandOp) (s : State) : (onOp i f s).pad = s.pad := by unfold onOp; split <;> rfl
@[simp] theorem onOp_pwr (i : Nat) (f : NandOp → NandOp) (s : State) : (onOp i f s).pwr = s.pwr := by unfold onOp; split <;> rfl
@[simp] theorem onOp_rst (i : Nat) (f : NandOp → NandOp) (s : State) : (onOp i f s).rst = s.rst := by unfold onOp; split <;> rfl
@[simp] theorem onOp_ba (i : Nat) (f : NandOp → NandOp) (s : State) : (onOp i f s).ba = s.ba := by unfold onOp; split <;> rfl
@[simp] theorem onOp_man (i : Nat) (f : NandOp → NandOp) (s : State) : (onOp i f s).man = s.man := by unfold onOp; split <;> rfl
@[simp] theorem onOp_pcie (i : Nat) (f : NandOp → NandOp) (s : State) : (onOp i f s).pcie = s.pcie := by unfold onOp; split <;> rfl
@[simp] theorem onOp_cmd (i : Nat) (f : NandOp → NandOp) (s : State) : (onOp i f s).cmd = s.cmd := by unfold onOp; split <;> rfl
@[simp] theorem onOp_map (i : Nat) (f : NandOp → NandOp) (s : State) : (onOp i f s).map = s.map := by unfold onOp; split <;> rfl
@[simp] theorem onOp_str (i : Nat) (f : NandOp → NandOp) (s : State) : (onOp i f s).str = s.str := by unfold onOp; split <;> rfl
@[simp] theorem onOp_rcl (i : Nat) (f : NandOp → NandOp) (s : State) : (onOp i f s).rcl = s.rcl := by unfold onOp; split <;> rfl
@[simp] theorem onOp_ch (i : Nat) (f : NandOp → NandOp) (s : State) : (onOp i f s).ch = s.ch := by unfold onOp; split <;> rfl
@[simp] theorem onOp_red (i : Nat) (f : NandOp → NandOp) (s : State) : (onOp i f s).red = s.red := by unfold onOp; split <;> rfl
@[simp] theorem onOp_thm (i : Nat) (f : NandOp → NandOp) (s : State) : (onOp i f s).thm = s.thm := by unfold onOp; split <;> rfl
@[simp] theorem onOp_psm (i : Nat) (f : NandOp → NandOp) (s : State) : (onOp i f s).psm = s.psm := by unfold onOp; split <;> rfl
@[simp] theorem onOp_sec (i : Nat) (f : NandOp → NandOp) (s : State) : (onOp i f s).sec = s.sec := by unfold onOp; split <;> rfl
@[simp] theorem onOp_mem (i : Nat) (f : NandOp → NandOp) (s : State) : (onOp i f s).mem = s.mem := by unfold onOp; split <;> rfl
@[simp] theorem onOp_tsl (i : Nat) (f : NandOp → NandOp) (s : State) : (onOp i f s).tsl = s.tsl := by unfold onOp; split <;> rfl
@[simp] theorem onOp_kk (i : Nat) (f : NandOp → NandOp) (s : State) : (onOp i f s).kk = s.kk := by unfold onOp; split <;> rfl
@[simp] theorem onOp_evt (i : Nat) (f : NandOp → NandOp) (s : State) : (onOp i f s).evt = s.evt := by unfold onOp; split <;> rfl
@[simp] theorem onOp_time (i : Nat) (f : NandOp → NandOp) (s : State) : (onOp i f s).time = s.time := by unfold onOp; split <;> rfl
@[simp] theorem onOp_timers (i : Nat) (f : NandOp → NandOp) (s : State) : (onOp i f s).timers = s.timers := by unfold onOp; split <;> rfl
@[simp] theorem onOp_reset_ctl (i : Nat) (f : NandOp → NandOp) (s : State) : (onOp i f s).reset_ctl = s.reset_ctl := by unfold onOp; split <;> rfl
@[simp] theorem onOp_power (i : Nat) (f : NandOp → NandOp) (s : State) : (onOp i f s).power = s.power := by unfold onOp; split <;> rfl
@[simp] theorem onOp_boot (i : Nat) (f : NandOp → NandOp) (s : State) : (onOp i f s).boot = s.boot := by unfold onOp; split <;> rfl
@[simp] theorem onOp_manifest (i : Nat) (f : NandOp → NandOp) (s : State) : (onOp i f s).manifest = s.manifest := by unfold onOp; split <;> rfl
@[simp] theorem onOp_ep (i : Nat) (f : NandOp → NandOp) (s : State) : (onOp i f s).ep = s.ep := by unfold onOp; split <;> rfl
@[simp] theorem onOp_nvme (i : Nat) (f : NandOp → NandOp) (s : State) : (onOp i f s).nvme = s.nvme := by unfold onOp; split <;> rfl
@[simp] theorem onOp_engine (i : Nat) (f : NandOp → NandOp) (s : State) : (onOp i f s).engine = s.engine := by unfold onOp; split <;> rfl
@[simp] theorem onOp_shroud (i : Nat) (f : NandOp → NandOp) (s : State) : (onOp i f s).shroud = s.shroud := by unfold onOp; split <;> rfl
@[simp] theorem onOp_reclaim (i : Nat) (f : NandOp → NandOp) (s : State) : (onOp i f s).reclaim = s.reclaim := by unfold onOp; split <;> rfl
@[simp] theorem onOp_redun (i : Nat) (f : NandOp → NandOp) (s : State) : (onOp i f s).redun = s.redun := by unfold onOp; split <;> rfl
@[simp] theorem onOp_thermal (i : Nat) (f : NandOp → NandOp) (s : State) : (onOp i f s).thermal = s.thermal := by unfold onOp; split <;> rfl
@[simp] theorem onOp_health (i : Nat) (f : NandOp → NandOp) (s : State) : (onOp i f s).health = s.health := by unfold onOp; split <;> rfl
@[simp] theorem onOp_power_states (i : Nat) (f : NandOp → NandOp) (s : State) : (onOp i f s).power_states = s.power_states := by unfold onOp; split <;> rfl
@[simp] theorem onOp_security (i : Nat) (f : NandOp → NandOp) (s : State) : (onOp i f s).security = s.security := by unfold onOp; split <;> rfl
@[simp] theorem onOp_memory (i : Nat) (f : NandOp → NandOp) (s : State) : (onOp i f s).memory = s.memory := by unfold onOp; split <;> rfl
@[simp] theorem onOp_teasel (i : Nat) (f : NandOp → NandOp) (s : State) : (onOp i f s).teasel = s.teasel := by unfold onOp; split <;> rfl
@[simp] theorem onOp_keaka (i : Nat) (f : NandOp → NandOp) (s : State) : (onOp i f s).keaka = s.keaka := by unfold onOp; split <;> rfl
@[simp] theorem onOp_events (i : Nat) (f : NandOp → NandOp) (s : State) : (onOp i f s).events = s.events := by unfold onOp; split <;> rfl
@[simp] theorem onOp_pads (i : Nat) (f : NandOp → NandOp) (s : State) : (onOp i f s).pads = s.pads := by unfold onOp; split <;> rfl
@[simp] theorem onOp_out (i : Nat) (f : NandOp → NandOp) (s : State) : (onOp i f s).out = s.out := by unfold onOp; split <;> rfl

end Sys2Proof.Machine
end

