-- ==== Sys2Proof/Machine/Identity.lean ====
section
/-!
DEFINITION. What configuration space presents (R263 to R266, R272): identity, base address registers and the
capabilities of a function.  No command of the table reads configuration space, so these are values by name; the base
addresses written are held in Port (R266).
-/

namespace Sys2Proof.Machine

/-! ### Identity (R263) -/

/-- The identity of a function (table "Function identity"). -/
structure FunctionIdentity where
  vendor_id : BitVec 16
  device_id : BitVec 16
  revision_id : BitVec 8
  class_code : BitVec 24
  subsystem_vendor_id : BitVec 16
  subsystem_id : BitVec 16
  /-- Header type 0, single function: 0. -/
  header_type : BitVec 8
  /-- Not implemented; reads 0. -/
  expansion_rom : BitVec 32
  io_bars : Nat
  deriving DecidableEq, Repr

/-- The identity each function presents: vendor and subsystem values from fuses, the revision from PAD_IDCODE. -/
def functionIdentity (s : State) : FunctionIdentity :=
  { vendor_id := Config.vendorId, device_id := 0x4800, revision_id := s.pad.idcode.version.setWidth 8, class_code := 0x010802,
    subsystem_vendor_id := Config.subsystemVendorId, subsystem_id := Config.subsystemId, header_type := 0, expansion_rom := 0,
    io_bars := 0 }

/-! ### Base address registers (R266) -/

/-- A base address register: its number, size in bytes, and whether it is prefetchable. -/
structure BarInfo where
  bar : Nat
  size : Nat
  prefetchable : Bool
  deriving DecidableEq, Repr

/-- The BARs (table "Base address registers"): all 64-bit memory, no I/O BAR and no expansion ROM. -/
def barTable : List BarInfo := [⟨0, 2 ^ 24, false⟩, ⟨2, 2 ^ 25, true⟩, ⟨4, 2 ^ 16, false⟩]

/-- What a BAR reads: the base it holds, whose bits below its size read 0, and the type bits the standard gives a 64-bit BAR
(log entry 104). -/
def barValue (s : State) (port : Nat) (b : BarInfo) : Nat :=
  let base := match b.bar with
    | 0 => (s.port port).bar0
    | 2 => (s.port port).bar2
    | _ => (s.port port).bar4
  base.toNat / b.size * b.size + (if b.prefetchable then 8 else 0) + 4

/-! ### Capabilities (R264) -/

/-- Rate of a link, in units of 0.1 GT/s, at which a physical-layer capability holds. -/
abbrev Rate := Nat

/-- A capability with its settings (table "Capabilities advertised"). -/
inductive Capability where
  /-- D-states beside D0, whether a return from D3hot resets nothing, and whether PME can be sent. -/
  | powerManagement (d3hot noSoftReset pme : Bool)
  /-- Vectors (R295, R296). -/
  | msix (tableSize : Nat)
  /-- Payload and request sizes; FLR; tags of 8 (extended), 10 and 14 bits as requester and completer; the completion timeout
  ranges and whether the timeout can be disabled; ASPM L0s and L1; LTR. -/
  | pciExpress (maxPayload minReadRequest maxReadRequest : Nat) (flr tagExtended tag10 tag14 : Bool) (timeoutRanges : List Char)
      (timeoutDisable l0s l1 ltr : Bool)
  /-- First Error Pointer, TLPs in the header log, TLP Prefix Log, multiple header recording, ECRC. -/
  | advancedErrors (firstErrorPointer : Bool) (headerLog : Nat) (tlpPrefixes multipleHeaders ecrc : Bool)
  | deviceSerial (value : BitVec 64)
  | secondary
  | dataLinkFeature
  | physicalLayer (rate : Rate)
  | laneMargining
  | latencyTolerance
  /-- L1.1 and L1.2, under ASPM and PCI-PM control. -/
  | l1Substates (l11 l12 aspm pciPm : Bool)
  /-- Requester, responder, root; local clock granularity in nanoseconds. -/
  | timeMeasurement (requester responder root : Bool) (granularity : Nat)
  deriving DecidableEq, Repr

/-- The Table Size field of the MSI-X capability of port `n` (R295, R296). -/
def msixTableSize (s : State) (n : Nat) : Nat := if s.ep.dual then (if n = 0 then 0x400 else 0x3FF) else 0x7FF

/-- Every capability that the function on port `n` advertises (R264); any other that the standard defines is absent. -/
def capabilities (s : State) (n : Nat) : List Capability :=
  [.powerManagement true true false, .msix (msixTableSize s n),
   .pciExpress 512 128 4096 true true true true ['A', 'B', 'C', 'D'] true false true true,
   .advancedErrors true 1 true false false, .deviceSerial Config.serialNumber, .secondary, .dataLinkFeature,
   .physicalLayer 160, .physicalLayer 320, .physicalLayer 640, .laneMargining, .latencyTolerance,
   .l1Substates true true true true, .timeMeasurement true false false 3]

/-- Attributes of every request the device issues: Relaxed Ordering, ID-Based Ordering and No Snoop are never set
(R272). -/
def requestAttributes : Bool × Bool × Bool := (false, false, false)

end Sys2Proof.Machine
end

