-- ==== Sys2Proof/WellFormed.lean ====
section
/-!
DEFINITION. Well-formed commands: operands within the ranges the spec gives what they name (ports and links two, R257 and
R705; channels 48 and pairs eight, R151; dies by channel, chip enable and LUN, R365; tracker entries with the slice of a tag,
R713; GCM lanes four, digest contexts 16, R637 and R646; CMB windows 16, R286).  No meaning relies on it: a command outside
a range names nothing and has no effect.
-/

namespace Sys2Proof

open Sys2Proof.Machine

/-- A frame header: positions, sequence numbers and tag within their fields (table "Keaka frame header"). -/
def Machine.KkHeader.wf (h : KkHeader) : Bool :=
  decide (h.src < 4) && decide (h.dst < 4) && decide (h.seq < 2 ^ 16) && decide (h.ack < 2 ^ 16) && decide (h.tag < 2 ^ 23)

/-- An Ident frame: its position, count, layout and floor within their fields. -/
def Machine.KkIdent.wf (i : KkIdent) : Bool :=
  decide (i.position < 4) && decide (i.count < 4) && decide (i.layout < 4) && decide (i.topo < 2 ^ 12) && decide (i.floor < 2 ^ 64)

/-- A slice open or read request: units of one slice of 1 MiB (R325). -/
def Machine.KkSlice.wf (x : KkSlice) : Bool := decide (x.ns_index < 1024) && decide (1 ≤ x.units) && decide (x.units ≤ 256)

/-- The operands of a command lie in their ranges. -/
def Instr.wf (i : Instr) : Bool :=
  match i with
  | .coldPowerOn => true
  | .railPowerUpStep => true
  | .railPowerGoodTimeout _ => true
  | .railRetryTimer => true
  | .powerOnResetRelease _ => true
  | .strapChangeDetected _ => true
  | .vinFallDark => true
  | .vinOvervoltage => true
  | .powerLossDetected => true
  | .pwrdisAssert => true
  | .pwrdisDeassert => true
  | .spillRecordWritten _ => true
  | .flushEnd => true
  | .bankBelowVmin => true
  | .vinReturnInFlush => true
  | .vinReturnInHold => true
  | .railFault _ => true
  | .pairEnableStagger => true
  | .npgSettled pair => decide (pair < 8)
  | .npgTimeout pair => decide (pair < 8)
  | .npgLoss pair => decide (pair < 8)
  | .pairRetryTimer pair => decide (pair < 8)
  | .bankTargetReached => true
  | .bankChargeRestart => true
  | .bankOvervoltage => true
  | .bankTestInterval => true
  | .bankMeasureDone _ _ => true
  | .allowanceUpdate _ _ => true
  | .chargeTimeout => true
  | .ledgerAdmit => true
  | .starvationCeilingReached _ => true
  | .holdResetRelease => true
  | .domainRelease _ => true
  | .clockNotReady _ => true
  | .clockLoss _ => true
  | .pllLockRetry _ _ => true
  | .startStepComplete _ => true
  | .perst0Assert => true
  | .perst1Assert => true
  | .nvmSubsystemReset ctrl _ => decide (ctrl < 2)
  | .kl0RstAssert => true
  | .l4ReachAsserted => true
  | .watchdogStage1 core => decide (core < 44)
  | .watchdogStage2 core => decide (core < 44)
  | .bootArrayRequest => true
  | .bootArrayPulseDone _ => true
  | .recoveryImage _ => true
  | .ptmDialogInterval => true
  | .ptmResponse _ => true
  | .ptmResponseTimeout => true
  | .holdoverExpiry => true
  | .clampEnd => true
  | .reservationWriteDone => true
  | .campIssueRead port => decide (port < 2)
  | .campRedialog => true
  | .campEpochOffsetWrite _ => true
  | .wideRegisterLowerRead port _ => decide (port < 2)
  | .registerWrite _ _ _ _ => true
  | .actLedTimeout => true
  | .tapReset => true
  | .extest => true
  | .idcode => true
  | .samplePreload _ => true
  | .clampTap => true
  | .highz => true
  | .bypass => true
  | .basicManagementRead port => decide (port < 2)
  | .readNvmeMiDataStructure port kind => decide (port < 2) && decide (kind.id < 2 ^ 16)
  | .configurationGet port id => decide (port < 2) && decide (id < 256)
  | .configurationSet port id _ => decide (port < 2) && decide (id < 256)
  | .subsystemHealthStatusPoll port _ => decide (port < 2)
  | .controllerHealthStatusPoll port ctrl _ => decide (port < 2) && decide (ctrl < 2)
  | .tunnelledAdminCommand port _ _ => decide (port < 2)
  | .nvmeMiSubsystemReset port => decide (port < 2)
  | .nvmeMiInvalidOpcode port opcode => decide (port < 2) && decide (opcode < 256)
  | .manifestTransfer entry _ => decide (entry < 2 ^ 23)
  | .manifestInstall entry => decide (entry < 2 ^ 23)
  | .hotResetOrLinkDown port _ => decide (port < 2)
  | .busMasterEnableClear port => decide (port < 2)
  | .busMasterEnableSet port => decide (port < 2)
  | .initiateFlr port => decide (port < 2)
  | .flrComplete port => decide (port < 2)
  | .d3hotEntry port => decide (port < 2)
  | .configWrite port _ => decide (port < 2)
  | .bar0Access port _ _ _ => decide (port < 2)
  | .cmbRead port _ _ => decide (port < 2)
  | .cmbWrite port _ _ _ => decide (port < 2)
  | .msixTableAccess port _ _ _ => decide (port < 2)
  | .cmbWindowWrite slot _ => decide (slot < 16)
  | .cmbFenceEnd slot => decide (slot < 16)
  | .readCompletionReceived port tag _ _ => decide (port < 2) && decide (tag < 16384)
  | .completionTimeout port tag => decide (port < 2) && decide (tag < 16384)
  | .tagQuarantineExpiry port tag => decide (port < 2) && decide (tag < 16384)
  | .poisonedWriteReceived port bar _ => decide (port < 2) && decide (bar < 6)
  | .malformedTlpReceived port => decide (port < 2)
  | .linkCorrectableError port _ => decide (port < 2)
  | .endpointInternalError port => decide (port < 2)
  | .sqTailDoorbell ctrl sqid tail => decide (ctrl < 2) && decide (sqid < 65536) && decide (tail < 65536)
  | .cqHeadDoorbell ctrl cqid head => decide (ctrl < 2) && decide (cqid < 65536) && decide (head < 65536)
  | .controllerEnable ctrl _ => decide (ctrl < 2)
  | .controllerReset ctrl => decide (ctrl < 2)
  | .shutdownNormal ctrl => decide (ctrl < 2)
  | .shutdownAbrupt ctrl => decide (ctrl < 2)
  | .sqEntryFetch ctrl sqid _ => decide (ctrl < 2) && decide (sqid < 65536)
  | .sliceAdmit entry => decide (entry < 2 ^ 23)
  | .pieceHeld entry slice piece => decide (entry < 2 ^ 23) && decide (slice < 32) && decide (piece < 2)
  | .commandComplete entry => decide (entry < 2 ^ 23)
  | .createIoCompletionQueue entry => decide (entry < 2 ^ 23)
  | .createIoSubmissionQueue entry => decide (entry < 2 ^ 23)
  | .deleteIoSubmissionQueue entry => decide (entry < 2 ^ 23)
  | .deleteIoCompletionQueue entry => decide (entry < 2 ^ 23)
  | .getLogPage entry => decide (entry < 2 ^ 23)
  | .identify entry => decide (entry < 2 ^ 23)
  | .abortCommand entry => decide (entry < 2 ^ 23)
  | .getFeatures entry => decide (entry < 2 ^ 23)
  | .setFeaturesArbitration entry => decide (entry < 2 ^ 23)
  | .setFeaturesPowerManagement entry => decide (entry < 2 ^ 23)
  | .setFeaturesTemperatureThreshold entry => decide (entry < 2 ^ 23)
  | .setFeaturesNumberOfQueues entry => decide (entry < 2 ^ 23)
  | .setFeaturesInterruptCoalescing entry => decide (entry < 2 ^ 23)
  | .setFeaturesInterruptVectorConfig entry => decide (entry < 2 ^ 23)
  | .setFeaturesWriteAtomicity entry => decide (entry < 2 ^ 23)
  | .setFeaturesAsyncEventConfig entry => decide (entry < 2 ^ 23)
  | .setFeaturesPlmConfig entry _ => decide (entry < 2 ^ 23)
  | .setFeaturesPlmWindow entry => decide (entry < 2 ^ 23)
  | .setFeaturesHostIdentifier entry _ => decide (entry < 2 ^ 23)
  | .setFeaturesReservationNotifMask entry => decide (entry < 2 ^ 23)
  | .setFeaturesReservationPersistence entry => decide (entry < 2 ^ 23)
  | .setFeaturesUnsupported entry => decide (entry < 2 ^ 23)
  | .asynchronousEventRequest entry => decide (entry < 2 ^ 23)
  | .namespaceCreate entry _ => decide (entry < 2 ^ 23)
  | .namespaceDelete entry => decide (entry < 2 ^ 23)
  | .namespaceAttachment entry _ => decide (entry < 2 ^ 23)
  | .firmwareImageDownload entry _ => decide (entry < 2 ^ 23)
  | .firmwareCommitWrite entry => decide (entry < 2 ^ 23)
  | .firmwareCommitWriteActivate entry => decide (entry < 2 ^ 23)
  | .firmwareCommitActivate entry => decide (entry < 2 ^ 23)
  | .nvmeMiSend entry _ => decide (entry < 2 ^ 23)
  | .nvmeMiReceive entry => decide (entry < 2 ^ 23)
  | .formatNvm entry => decide (entry < 2 ^ 23)
  | .securityReceive entry => decide (entry < 2 ^ 23)
  | .opalSetLock entry range _ _ => decide (entry < 2 ^ 23) && decide (range ≤ 64)
  | .opalSetRange entry range _ => decide (entry < 2 ^ 23) && decide (range ≤ 64)
  | .opalGenkey entry range => decide (entry < 2 ^ 23) && decide (range ≤ 64)
  | .opalRevert entry => decide (entry < 2 ^ 23)
  | .opalAuthenticate entry _ _ => decide (entry < 2 ^ 23)
  | .tperReset entry => decide (entry < 2 ^ 23)
  | .resumeQueue entry => decide (entry < 2 ^ 23)
  | .invalidCommandOpcode entry => decide (entry < 2 ^ 23)
  | .ioFlush entry => decide (entry < 2 ^ 23)
  | .ioWrite entry _ => decide (entry < 2 ^ 23)
  | .ioRead entry _ => decide (entry < 2 ^ 23)
  | .ioCompare entry _ => decide (entry < 2 ^ 23)
  | .ioWriteZeroes entry => decide (entry < 2 ^ 23)
  | .datasetManagement entry _ => decide (entry < 2 ^ 23)
  | .ioVerify entry => decide (entry < 2 ^ 23)
  | .reservationRegister entry _ => decide (entry < 2 ^ 23)
  | .reservationReport entry => decide (entry < 2 ^ 23)
  | .reservationAcquire entry _ => decide (entry < 2 ^ 23)
  | .reservationRelease entry _ => decide (entry < 2 ^ 23)
  | .stripePadAge => true
  | .programComplete _ _ => true
  | .stripeApply _ => true
  | .stayPageFlushAge => true
  | .stayPageDurable => true
  | .stayRepairDone => true
  | .mapPageArrival _ => true
  | .mapPageWritebackAge _ => true
  | .checkpointInterval => true
  | .checkpointComplete => true
  | .foldAge _ => true
  | .streamEnd stream => decide (stream < 512)
  | .countsReady => true
  | .reclaimVictimSelect => true
  | .eraseIssue block => decide (block < 1536 * 4096)
  | .eraseComplete _ _ => true
  | .idleDetect => true
  | .dtwinTimeout => true
  | .channelRetrain channel => decide (channel < 48)
  | .channelTrainingDone channel _ => decide (channel < 48)
  | .discoveryComplete pair _ => decide (pair < 8)
  | .sequencerGrant channel => decide (channel < 48)
  | .readSenseComplete _ _ => true
  | .hardDecodeComplete _ _ => true
  | .softDecodeComplete _ _ => true
  | .suspendComplete die => decide (die < 1536)
  | .suspendResume die => decide (die < 1536)
  | .dieOpTimeout _ => true
  | .lunResetReady die => decide (die < 1536)
  | .lunResetTimeout die => decide (die < 1536)
  | .becalmedReadTimeout _ => true
  | .probeInterval die => decide (die < 1536)
  | .rebuildStripeVisit => true
  | .reshapeCutover => true
  | .thermalModelStep _ => true
  | .thermalCalibration _ _ => true
  | .throttleTest => true
  | .clockLevelEffective => true
  | .thermalHaltEntryComplete => true
  | .handshakeReply code _ => decide (code < 16)
  | .handshakeTimeout => true
  | .patrolReturnStep => true
  | .patrolWake => true
  | .patrolSampleEnd => true
  | .gcmMessageDone lane _ _ => decide (lane < 4)
  | .digestDone context _ _ => decide (context < 16)
  | .signatureVerifyDone _ _ => true
  | .scrubPassStart range => decide (range < 4)
  | .scrubWordRead range _ _ _ => decide (range < 4)
  | .teaselSearch _ _ => true
  | .teaselSearchInsert _ => true
  | .teaselOrderedInsert _ => true
  | .teaselFreeSlotInsert _ _ => true
  | .teaselRingInsert _ => true
  | .teaselRemoveByAddress address => decide (address < 65536)
  | .teaselRemoveByMatch _ => true
  | .teaselShiftMove => true
  | .teaselProbe _ => true
  | .keakaLinkTrainingStep link _ => decide (link < 2)
  | .frameReceiveError link _ => decide (link < 2)
  | .identFrame link frame ident => decide (link < 2) && frame.wf && ident.wf
  | .linkControl link frame _ => decide (link < 2) && frame.wf
  | .timeRequest link frame t1 => decide (link < 2) && frame.wf && decide (t1 < 18446744073709551616)
  | .timeResponse link frame _ => decide (link < 2) && frame.wf
  | .yardTimeDialogInterval => true
  | .floorReport link frame stamp => decide (link < 2) && frame.wf && decide (stamp < 18446744073709551616)
  | .floorSet link frame stamp => decide (link < 2) && frame.wf && decide (stamp < 18446744073709551616)
  | .sliceOpen link frame slice => decide (link < 2) && frame.wf && slice.wf
  | .writeData link frame _ _ => decide (link < 2) && frame.wf
  | .sliceStatus link frame _ => decide (link < 2) && frame.wf
  | .releaseFrame link frame _ => decide (link < 2) && frame.wf
  | .abortFrame link frame => decide (link < 2) && frame.wf
  | .readRequest link frame slice => decide (link < 2) && frame.wf && slice.wf
  | .readData link frame _ _ => decide (link < 2) && frame.wf
  | .readStatus link frame status => decide (link < 2) && frame.wf && decide (status < 2 ^ 15)
  | .recordFrame link frame _ => decide (link < 2) && frame.wf
  | .adminForward link frame _ => decide (link < 2) && frame.wf
  | .adminResult link frame status dw0 => decide (link < 2) && frame.wf && decide (status < 2 ^ 15) && decide (dw0 < 4294967296)
  | .powerStateRequest link frame target _ => decide (link < 2) && frame.wf && decide (target < 5)
  | .powerStateReply link frame _ => decide (link < 2) && frame.wf
  | .eventForward link frame _ => decide (link < 2) && frame.wf
  | .heartbeat link frame => decide (link < 2) && frame.wf
  | .keakaHeartbeatSend link => decide (link < 2)
  | .keakaAckTimeout link => decide (link < 2)
  | .keakaLaneLockLoss link => decide (link < 2)
  | .keakaLinkTimeout link => decide (link < 2)
  | .keakaJoinTimeout => true
  | .errorHandlingEnd => true
  | .coalescingTimer ctrl cqid => decide (ctrl < 2) && decide (cqid < 65536)
  | .pcieLinkUp port _ _ _ => decide (port < 2)
  | .securitySend entry _ => decide (entry < 2 ^ 23)

end Sys2Proof
end

