-- ==== Sys2Proof/Tests/Slice0.lean ====
section
/-!
SUPPORT. Tests: an ill-formed term that each check of well-formedness refuses, a witness for the hypotheses of each statement
(clause by clause, at the ends of ranges where clauses meet), and small runs of single commands whose results are taken from
the spec.
-/

namespace Sys2Proof.Tests

open Sys2Proof Sys2Proof.Machine

/-! ### Well-formedness -/

/-- A frame header from position `n`. -/
def frameOf (n : Nat) : KkHeader := { src := n, dst := 0, seq := 0, ack := 0 }

/-- An Ident frame of position `n`. -/
def identOf (n : Nat) : KkIdent :=
  { masthead := false, position := n, cascade_id := 1, count := 1, layout := 0, topo := 0, version := 1, start_fail := 0, floor := 0 }

/-- A slice of `n` units. -/
def sliceOf (n : Nat) : KkSlice := { ns_index := 0, first := 0, units := n, stamp := {} }

theorem test_ill_formed_refused_1 : ([
    .npgSettled 8,
    .npgTimeout 8,
    .npgLoss 8,
    .pairRetryTimer 8,
    .nvmSubsystemReset 2 0,
    .watchdogStage1 44,
    .watchdogStage2 44,
    .campIssueRead 2,
    .wideRegisterLowerRead 2 0,
    .basicManagementRead 2,
    .readNvmeMiDataStructure 2 ⟨0, 0⟩,
    .readNvmeMiDataStructure 0 ⟨0, 65536⟩,
    .configurationGet 2 0,
    .configurationGet 0 256,
    .configurationSet 2 0 0,
    .configurationSet 0 256 0,
    .subsystemHealthStatusPoll 2 false,
    .controllerHealthStatusPoll 2 0 false,
    .controllerHealthStatusPoll 0 2 false,
    .tunnelledAdminCommand 2 {} [],
    .nvmeMiSubsystemReset 2,
    .nvmeMiInvalidOpcode 2 0,
    .nvmeMiInvalidOpcode 0 256,
    .manifestTransfer 8388608 [],
    .manifestInstall 8388608,
    .hotResetOrLinkDown 2 false,
    .busMasterEnableClear 2,
    .busMasterEnableSet 2,
    .initiateFlr 2,
    .flrComplete 2,
    .d3hotEntry 2,
    .configWrite 2 .other,
    .bar0Access 2 0 0 none,
    .cmbRead 2 0 0,
    .cmbWrite 2 0 [] [],
    .msixTableAccess 2 0 0 none,
    .cmbWindowWrite 16 0,
    .cmbFenceEnd 16,
    .readCompletionReceived 2 0 .success [],
    .readCompletionReceived 0 16384 .success [],
    .completionTimeout 2 0,
    .completionTimeout 0 16384,
    .tagQuarantineExpiry 2 0,
    .tagQuarantineExpiry 0 16384,
    .poisonedWriteReceived 2 0 [],
    .poisonedWriteReceived 0 6 [],
    .malformedTlpReceived 2,
    .linkCorrectableError 2 .receiver,
    .endpointInternalError 2,
    .sqTailDoorbell 2 0 0,
    .sqTailDoorbell 0 65536 0,
    .sqTailDoorbell 0 0 65536,
    .cqHeadDoorbell 2 0 0,
    .cqHeadDoorbell 0 65536 0,
    .cqHeadDoorbell 0 0 65536,
    .controllerEnable 2 0,
    .controllerReset 2,
    .shutdownNormal 2,
    .shutdownAbrupt 2,
    .sqEntryFetch 2 0 none,
    .sqEntryFetch 0 65536 none
  ] : List Instr).all (fun i => !i.wf) = true := by decide

theorem test_ill_formed_refused_2 : ([
    .sliceAdmit 8388608,
    .pieceHeld 8388608 0 0,
    .pieceHeld 0 32 0,
    .pieceHeld 0 0 2,
    .commandComplete 8388608,
    .createIoCompletionQueue 8388608,
    .createIoSubmissionQueue 8388608,
    .deleteIoSubmissionQueue 8388608,
    .deleteIoCompletionQueue 8388608,
    .getLogPage 8388608,
    .identify 8388608,
    .abortCommand 8388608,
    .getFeatures 8388608,
    .setFeaturesArbitration 8388608,
    .setFeaturesPowerManagement 8388608,
    .setFeaturesTemperatureThreshold 8388608,
    .setFeaturesNumberOfQueues 8388608,
    .setFeaturesInterruptCoalescing 8388608,
    .setFeaturesInterruptVectorConfig 8388608,
    .setFeaturesWriteAtomicity 8388608,
    .setFeaturesAsyncEventConfig 8388608,
    .setFeaturesPlmConfig 8388608 [],
    .setFeaturesPlmWindow 8388608,
    .setFeaturesHostIdentifier 8388608 [],
    .setFeaturesReservationNotifMask 8388608,
    .setFeaturesReservationPersistence 8388608,
    .setFeaturesUnsupported 8388608,
    .asynchronousEventRequest 8388608,
    .namespaceCreate 8388608 [],
    .namespaceDelete 8388608,
    .namespaceAttachment 8388608 [],
    .firmwareImageDownload 8388608 [],
    .firmwareCommitWrite 8388608,
    .firmwareCommitWriteActivate 8388608,
    .firmwareCommitActivate 8388608,
    .nvmeMiSend 8388608 [],
    .nvmeMiReceive 8388608,
    .formatNvm 8388608,
    .securityReceive 8388608,
    .opalSetLock 8388608 0 none none,
    .opalSetLock 0 65 none none,
    .opalSetRange 8388608 0 {},
    .opalSetRange 0 65 {},
    .opalGenkey 8388608 0,
    .opalGenkey 0 65,
    .opalRevert 8388608,
    .opalAuthenticate 8388608 0 [],
    .tperReset 8388608,
    .resumeQueue 8388608,
    .invalidCommandOpcode 8388608,
    .ioFlush 8388608,
    .ioWrite 8388608 (.prp []),
    .ioRead 8388608 (.prp []),
    .ioCompare 8388608 (.prp []),
    .ioWriteZeroes 8388608,
    .datasetManagement 8388608 [],
    .ioVerify 8388608,
    .reservationRegister 8388608 [],
    .reservationReport 8388608,
    .reservationAcquire 8388608 []
  ] : List Instr).all (fun i => !i.wf) = true := by decide

theorem test_ill_formed_refused_3 : ([
    .reservationRelease 8388608 [],
    .streamEnd 512,
    .eraseIssue 6291456,
    .channelRetrain 48,
    .channelTrainingDone 48 false,
    .discoveryComplete 8 [],
    .sequencerGrant 48,
    .suspendComplete 1536,
    .suspendResume 1536,
    .lunResetReady 1536,
    .lunResetTimeout 1536,
    .probeInterval 1536,
    .handshakeReply 16 false,
    .gcmMessageDone 4 false false,
    .digestDone 16 false false,
    .scrubPassStart 4,
    .scrubWordRead 4 0 false .clean,
    .teaselRemoveByAddress 65536,
    .keakaLinkTrainingStep 2 0,
    .frameReceiveError 2 .crc,
    .identFrame 2 (frameOf 0) (identOf 0),
    .identFrame 0 (frameOf 4) (identOf 0),
    .identFrame 0 (frameOf 0) (identOf 4),
    .linkControl 2 (frameOf 0) none,
    .linkControl 0 (frameOf 4) none,
    .timeRequest 2 (frameOf 0) 0,
    .timeRequest 0 (frameOf 4) 0,
    .timeRequest 0 (frameOf 0) 18446744073709551616,
    .timeResponse 2 (frameOf 0) ⟨0, 0, 0, false, 0⟩,
    .timeResponse 0 (frameOf 4) ⟨0, 0, 0, false, 0⟩,
    .floorReport 2 (frameOf 0) 0,
    .floorReport 0 (frameOf 4) 0,
    .floorReport 0 (frameOf 0) 18446744073709551616,
    .floorSet 2 (frameOf 0) 0,
    .floorSet 0 (frameOf 4) 0,
    .floorSet 0 (frameOf 0) 18446744073709551616,
    .sliceOpen 2 (frameOf 0) (sliceOf 1),
    .sliceOpen 0 (frameOf 4) (sliceOf 1),
    .sliceOpen 0 (frameOf 0) (sliceOf 0),
    .writeData 2 (frameOf 0) 0 {},
    .writeData 0 (frameOf 4) 0 {},
    .sliceStatus 2 (frameOf 0) (.held 0),
    .sliceStatus 0 (frameOf 4) (.held 0),
    .releaseFrame 2 (frameOf 0) [],
    .releaseFrame 0 (frameOf 4) [],
    .abortFrame 2 (frameOf 0),
    .abortFrame 0 (frameOf 4),
    .readRequest 2 (frameOf 0) (sliceOf 1),
    .readRequest 0 (frameOf 4) (sliceOf 1),
    .readRequest 0 (frameOf 0) (sliceOf 0),
    .readData 2 (frameOf 0) 0 {},
    .readData 0 (frameOf 4) 0 {},
    .readStatus 2 (frameOf 0) 0,
    .readStatus 0 (frameOf 4) 0,
    .readStatus 0 (frameOf 0) 32768,
    .recordFrame 2 (frameOf 0) { kind := 0, stamp := {}, first := 0, count := 0 },
    .recordFrame 0 (frameOf 4) { kind := 0, stamp := {}, first := 0, count := 0 },
    .adminForward 2 (frameOf 0) (.namespaceDelete 1),
    .adminForward 0 (frameOf 4) (.namespaceDelete 1),
    .adminResult 2 (frameOf 0) 0 0
  ] : List Instr).all (fun i => !i.wf) = true := by decide

theorem test_ill_formed_refused_4 : ([
    .adminResult 0 (frameOf 4) 0 0,
    .adminResult 0 (frameOf 0) 32768 0,
    .adminResult 0 (frameOf 0) 0 4294967296,
    .powerStateRequest 2 (frameOf 0) 0 false,
    .powerStateRequest 0 (frameOf 4) 0 false,
    .powerStateRequest 0 (frameOf 0) 5 false,
    .powerStateReply 2 (frameOf 0) none,
    .powerStateReply 0 (frameOf 4) none,
    .eventForward 2 (frameOf 0) .started,
    .eventForward 0 (frameOf 4) .started,
    .heartbeat 2 (frameOf 0),
    .heartbeat 0 (frameOf 4),
    .keakaHeartbeatSend 2,
    .keakaAckTimeout 2,
    .keakaLaneLockLoss 2,
    .keakaLinkTimeout 2,
    .coalescingTimer 2 0,
    .coalescingTimer 0 65536,
    .pcieLinkUp 2 0 0 false,
    .securitySend 8388608 .other
  ] : List Instr).all (fun i => !i.wf) = true := by decide

theorem test_ill_formed_headers_refused :
    ([{ frameOf 0 with src := 4 }, { frameOf 0 with dst := 4 }, { frameOf 0 with seq := 65536 }, { frameOf 0 with ack := 65536 },
      { frameOf 0 with tag := 8388608 }] : List KkHeader).all (fun h => !h.wf) = true ∧
    ([{ identOf 0 with position := 4 }, { identOf 0 with count := 4 }, { identOf 0 with layout := 4 },
      { identOf 0 with topo := 4096 }, { identOf 0 with floor := 2 ^ 64 }] : List KkIdent).all (fun i => !i.wf) = true ∧
    ([{ sliceOf 1 with ns_index := 1024 }, sliceOf 0, sliceOf 257] : List KkSlice).all (fun x => !x.wf) = true ∧
    (frameOf 3).wf = true ∧ (identOf 3).wf = true ∧ (sliceOf 256).wf = true := by decide

/-! ### Small states -/

/-- A masthead in Run: power good, nothing held in reset, the floor seeded, port 0 up with its function enabled. -/
def up : State := { State.reset with
  mode := .run
  power.por := false
  power.vin := true
  power.rail_step := 7
  reset_ctl.held := 0
  reset_ctl.asserted := 0
  pad.strapStatus.mast := true
  camp.status.floor_seeded := true
  pcie.portStatus0 := { link_up := true, mse := true, bme := true, ptm_enabled := true } }

/-- The same in another mode. -/
def upIn (m : Mode) : State := { up with mode := m }

/-- A state whose one timer is due. -/
def due (k : TimerKind) (i : Nat) (s : State) : State := { s with timers := [⟨k, i, 0⟩] }

/-- A command with an opcode in a queue. -/
def entry (sqid : Nat) (op : BitVec 8) (q : Sqe := {}) : Entry :=
  { ctrl := 0, sqid := sqid, sqe := { q with opcode := op }, admitted := {} }

/-- A state whose one command in flight is `e`, under number 7. -/
def having (e : Entry) (s : State := up) : State := { s with nvme.tracker := [(7, e)] }

/-! ### Witnesses: the hypotheses of the statements can be met -/

theorem witness_StampsRiseUnderReservation : up.nextStamp + up.camp.reserveSpan.toNat < 2 ^ 64 := by decide

theorem witness_RaisedEventOnlyRecords :
    ({ up with evt.enable := [(0, 0)] } : State).sourceOn 1 = false := by decide

theorem witness_IdleCycleAdvancesTime :
    up.pending = [] ∧ up.mode ≠ .hold ∧ State.reset.pending = [] ∧ State.reset.mode = .hold ∧
    State.reset.thm.status.running = false := by decide

/-- The device of `up` as a yard. -/
def yardUp : State := { up with pad.strapStatus.mast := false, pad.strapStatus.casc_pos := 1 }

theorem witness_DialogTimersAct :
    ((due .ptmInterval 0 up).due .ptmInterval 0 = true ∧ dialogPort (due .ptmInterval 0 up) = some 0) ∧
    ((due .ptmInterval 0 State.reset).due .ptmInterval 0 = true ∧ dialogPort (due .ptmInterval 0 State.reset) = none) ∧
    (up.isHeld .mgmt = false ∧ up.yard = false ∧ dialogPort up = some 0) ∧
    (dialogPort { up with pcie.portStatus0.ptm_enabled := false } = none) ∧
    (yardUp.isHeld .mgmt = false ∧ yardUp.yard = true) ∧ State.reset.isHeld .mgmt = true ∧
    (({ due .ptmResponse 0 up with time.dialog := some 0 } : State).time.dialog = some 0 ∧
      ({ due .ptmResponse 0 up with time.dialog := some 0 } : State).due .ptmResponse 0 = true) ∧
    (({ due .holdover 0 up with camp.status.anchored := true } : State).due .holdover 0 = true ∧
      ({ due .holdover 0 up with camp.status.anchored := true } : State).camp.status.anchored = true) := by decide

/-- A dialog on port 0 with H at `h` motes, its request just sent. -/
def dialogAt (h : Nat) : State := { up with time.dialog := some 0, time.hq := h * 2 ^ 32, time.dialog_sent := h }

/-- How far the target of an answer with both timestamps 0 lies from H. -/
def offBy (h : Nat) : Nat := ((ptmTarget (dialogAt h) (masterTime (dialogAt h) 0 0) : Int) - (dialogAt h).h).natAbs

/-- One target on each side of the step threshold, and one at it; a response at the last mote allowed; another source. -/
theorem witness_GoodDialogSlewsOrSteps :
    (dialogAt 0).time.dialog = some 0 ∧ (dialogAt 0).run ≤ (dialogAt 0).time.dialog_sent + 2 ^ 22 ∧
    (dialogAt 0).time.anchor_last = none ∧ offBy 0 ≤ (dialogAt 0).camp.stepThresh.toNat ∧
    offBy 4194304 = (dialogAt 4194304).camp.stepThresh.toNat ∧
    (dialogAt 4194305).camp.stepThresh.toNat < offBy 4194305 ∧
    (({ dialogAt 4194304 with time.dialog_sent := 0 } : State).run = 0 + 2 ^ 22) ∧
    (∃ p, ({ dialogAt 0 with time.anchor_last := some 2 } : State).time.anchor_last = some p ∧ p ≠ 0 + 1) ∧
    ({ dialogAt 0 with time.anchor_last := some 1 } : State).time.anchor_last = some (0 + 1) := by
  refine ⟨rfl, by decide, rfl, by decide, by decide, by decide, by decide, ⟨2, rfl, by decide⟩, rfl⟩

theorem witness_StampCommandsComplete :
    (({ up with camp.status.clamped := true, time.hq := 2 ^ 33 } : State).camp.status.clamped = true ∧
      ({ up with camp.status.clamped := true, time.hq := 2 ^ 33 } : State).time.last < ({ up with camp.status.clamped := true, time.hq := 2 ^ 33 } : State).h) ∧
    (({ up with time.reserving := some 5, time.waiting := [.memoryUe] } : State).time.reserving = some 5) ∧
    up.time.reserving = none ∧
    (up.reachable 0 = true ∧ memoryOpen up 0 = true ∧ up.isHeld .mgmt = false ∧
      ({ up with camp.status.floor_seeded := false } : State).camp.status.floor_seeded = false) ∧
    up.camp.status.floor_seeded = true ∧
    offsetTest up 0xFFFEFFFFFFFFFFFF < 0xFFFF000000000000 ∧ 0xFFFF000000000000 ≤ offsetTest up 0xFFFF000000000000 := by decide
/-- Rails at a step of power-up. -/
def rising (n : Nat) : State := { State.reset with power.rail_step := n }

/-- Straps of a single masthead. -/
def straps : Balls := { mast := true, casc_pos := 0, test_en := false, dualport := false, present := 0 }

theorem witness_RailsAndPowerOnReset :
    ({ State.reset with power.dark := true } : State).power.dark = true ∧
    (railsRising (rising 5) = true ∧ (rising 5).power.rail_step < 6) ∧
    (railsRising (rising 1) = true ∧ 0xA ∈ stepRails ((rising 1).power.rail_step + 1)) ∧
    (({ rising 1 with power.rail_wait := true, power.rail_failures := 2 } : State).power.rail_failures < 3 ∧
      3 ≤ ({ rising 1 with power.rail_wait := true, power.rail_failures := 3 } : State).power.rail_failures) ∧
    (railsRising (rising 6) = true ∧ (rising 6).power.rail_step = 6 ∧ (rising 6).pad.strapStatus.test_en = false ∧
      (rising 6).rst.last.source.toNat ≤ 1 ∧ straps.test_en = false ∧ { straps with test_en := true }.test_en = true) ∧
    1 < ({ rising 6 with rst.last := { source := 2 } } : State).rst.last.source.toNat ∧
    (up.power.dark = false ∧ (0 : Nat) ≠ up.pad.strapStatus.mast.toNat + 2 * up.pad.strapStatus.casc_pos.toNat
      + 8 * up.pad.strapStatus.test_en.toNat + 16 * up.pad.strapStatus.dualport.toNat + 32 * up.pads.present.toNat ∧ (0 : Nat) < 128) ∧
    (up.power.dark = false ∧ up.mode ≠ .hold) := by decide

theorem witness_PowerLossEntersFlush :
    (upIn .run).power.dark = false ∧ (upIn .run).mode = .run ∧ (upIn .reduced).mode = .reduced ∧ (upIn .patrol).mode = .patrol ∧
    (upIn .readOnly).mode = .readOnly := by decide

/-- A spill of 16 units, at its units stage. -/
def spilling : Spill :=
  { cause := .flush, stage := .units, image := { set := 1, valid := true, image_stamp := {}, reserve := 0 },
    left := List.replicate 16 { unit := 0, ns_index := 0, ns_unit := 0, stamp := {}, frame := {} } }

/-- A Flush whose marker is next. -/
def flushing : State := { upIn .flush with shroud.spill := some { spilling with stage := .marker, left := [] } }

theorem witness_FlushAndReturnOfPower :
    (({ upIn .flush with shroud.spill := some spilling } : State).shroud.spill = some spilling ∧ spilling.stage = .units ∧
      spilling.bad = [] ∧ 15 < spilling.left.length) ∧
    (flushing.mode = .flush ∧ (∃ x, flushing.shroud.spill = some x ∧ x.stage = .marker ∧ x.cause = .flush ∧ x.image.valid = true) ∧
      (∃ st u, takeStamp flushing = (st, u)) ∧ flushing.power.vin_returned = false ∧
      flushing.pad.strapStatus.pwrdis_live = false ∧ flushing.pwr.status.vin_good = false) ∧
    ({ up with pwr.status.holdup_active := true } : State).pwr.status.holdup_active = true ∧
    (upIn .flush).mode = .flush ∧
    ({ State.reset with power.dram_rails := true } : State).power.dram_rails = true ∧
    (({ up with pwr.status.loss_detected := true } : State).power.dark = false ∧
      ({ up with pwr.status.loss_detected := true } : State).pwr.status.loss_detected = true ∧
      ({ up with pwr.status.loss_detected := true } : State).pwr.status.holdup_active = false) ∧
    (up.pwr.status.loss_detected = false ∧ (upIn .reduced).mode = .reduced) ∧
    (({ State.reset with pad.strapStatus.pwrdis_live := true, power.vin := true } : State).mode = .hold ∧
      ({ State.reset with pad.strapStatus.pwrdis_live := true, power.vin := true } : State).power.dark = false) ∧
    (up.power.dark = false ∧ up.mode = .run ∧ (0 : Nat) < 1 ∧ (6 : Nat) < 7 ∧ up.shroud.spill = none ∧ up.thermal.entry = none) := by
  refine ⟨by decide, ⟨by decide, ⟨_, rfl, rfl, rfl, rfl⟩, ⟨_, _, rfl⟩, by decide⟩, by decide⟩

/-- A populated pair in a phase. -/
def pairIn (ph : PairPhase) (s : State) : State :=
  { s with power.pairs := [(7, { phase := ph })], power.next_pair := some 7, pwr.pairMap := 0x80 }

theorem witness_PairsAreEnabledAndRetried :
    ((pairIn .off (due .pairStagger 0 up)).power.next_pair = some 7 ∧ (pairIn .off (due .pairStagger 0 up)).due .pairStagger 0 = true ∧
      nextPair (pairIn .off (due .pairStagger 0 up)) 7 = none) ∧
    (((pairIn .enabled up).pair 7).phase = .enabled ∧ (pairIn .enabled up).populated 7 = true ∧
      ((pairIn .enabled up).pair 7).retry = false) ∧
    (((pairIn .enabled (due .npgTimeout 7 up)).pair 7).phase = .enabled ∧
      (pairIn .enabled (due .npgTimeout 7 up)).due .npgTimeout 7 = true) ∧
    (((pairIn .settled (upIn .flush)).pair 7).phase = .settled ∧ (pairIn .settled (upIn .flush)).mode = .flush ∧
      (pairIn .settled (upIn .flush)).shroud.spill = none) ∧
    (((pairIn .lost (due .pairRetry 7 up)).pair 7).phase = .lost ∧ (pairIn .lost (due .pairRetry 7 up)).due .pairRetry 7 = true) := by
  decide

/-- A bank test whose measurement is due. -/
def measuring : State := { due .bankMeasure 0 up with pwr.status.bank_test := true }

theorem witness_BankAndAllowanceAreKept :
    (({ up with pwr.status.charging := true, power.measured := true } : State).power.measured = true) ∧
    (up.power.dark = false ∧ up.power.fault_over = false ∧ up.power.fault_measure = false ∧ up.pwr.status.bank_fault = false ∧
      chargerMay up = true) ∧
    (up.mode ≠ .hold) ∧
    ((due .bankTest 0 up).due .bankTest 0 = true ∧ (due .bankTest 0 up).pwr.status.bank_test = false ∧
      (due .bankTest 0 up).pwr.status.holdup_active = false) ∧
    (measuring.pwr.status.bank_test = true ∧ measuring.due .bankMeasure 0 = true ∧
      781250 / (5000 - 4000) ≤ 2 * measuring.pwr.bankUf.toNat ∧ measuring.power.fault_over = false) ∧
    ((rising 2).power.dark = false ∧ (rising 2).mode = .hold ∧ 2 ≤ (rising 2).power.rail_step) ∧
    (due .charge 0 up).due .charge 0 = true := by decide

/-- Start of x8+x8 operation. -/
def dualUp : State := { up with ep.dual := true, pcie.portStatus1 := { link_up := true, mse := true, bme := true } }

theorem witness_ShippedReachOfEachSource : (0 : Nat) < 3 ∧ (2 : Nat) < 3 ∧ up.yard = false ∧ yardUp.yard = true := by decide

/-- A watchdog whose first stage lies a timeout back. -/
def late : State := { up with reset_ctl.wdt_stage1 := [(43, 0)], reset_ctl.cycles := up.rst.wdtTimeout.toNat }

theorem witness_SourcesOfLevelFourBeginAssertion :
    (up.mode = .run ∧ up.reset_ctl.sequence = none ∧ up.thermal.entry = none ∧ up.shroud.spill = none) ∧
    (up.yard = false ∧ up.ep.dual = false) ∧ (yardUp.mode = .run ∧ yardUp.reset_ctl.sequence = none ∧
      yardUp.thermal.entry = none ∧ yardUp.shroud.spill = none ∧ yardUp.yard = true) ∧
    (up.reachable 0 = true ∧ memoryOpen up 0 = true) ∧ (0 : Nat) < 2 ∧ (1 : Nat) < 2 ∧
    (up.isHeld .port0 = false ∧ up.isHeld .port1 = false ∧ State.reset.isHeld .media = true) ∧
    ((Domain.media ≠ .ret ∧ Domain.media ≠ .ao ∧ Domain.media ≠ .port0 ∧ Domain.media ≠ .port1) ∧ up.isHeld .media = false) ∧
    (({ up with timers := [⟨.pllRetry, 4, 0⟩, ⟨.pllLimit, 4, 0⟩] } : State).due .pllRetry Domain.media.num = true ∧
      ({ up with timers := [⟨.pllRetry, 4, 0⟩, ⟨.pllLimit, 4, 0⟩] } : State).due .pllLimit Domain.media.num = true) ∧
    (late.reset_ctl.wdt_stage1.find 43 = some 0 ∧ late.timedOut 0 = true) := by decide

/-- An L4 of PERST0# in its assertion steps. -/
def asserting : State := { up with reset_ctl.sequence := some { code := 3, mode_at := .run } }

/-- A domain whose clock was not good at 0, `n` motes later. -/
def settling (n : Nat) : State := { up with reset_ctl.not_ready := [(4, 0)], time.hq := n * 2 ^ 32 }

theorem witness_ResetsAssertAndDomainsRelease :
    (asserting.reset_ctl.sequence = some { code := 3, mode_at := .run } ∧ asserting.boot.pulsing = false ∧ asserting.media.ops = []) ∧
    (up.mode ≠ .hold ∧ up.reset_ctl.sequence = none ∧ windowPassed .media (settling 1024) = true ∧ Domain.media ≠ .mgmt) ∧
    (windowPassed .media (settling 1023) = false ∧ State.reset.isHeld .media = true) ∧
    ((due .pllRetry 4 up).due .pllRetry Domain.media.num = true ∧ (due .pllRetry 4 up).due .pllLimit Domain.media.num = false) ∧
    (late.mode = .run ∧ (43 : Nat) < 44 ∧
      late.timedOut (late.reset_ctl.wdt_stage1.look late.reset_ctl.wdt_start 43) = true) := by decide

/-- A Start at a step. -/
def startAt (n : Nat) : State := { upIn .start with reset_ctl.start_step := n }

theorem witness_StartRunsItsSteps :
    (({ State.reset with power.por := false } : State).mode = .hold ∧ ({ State.reset with power.por := false } : State).power.dark = false ∧
      State.reset.pad.strapStatus.test_en = false ∧ State.reset.pad.strapStatus.pwrdis_live = false) ∧
    ((startAt 1).starting = true ∧ (startAt 1).reset_ctl.start_step = 1) ∧
    ((startAt 2).starting = true ∧ (startAt 2).reset_ctl.start_step = 2) ∧
    ((startAt 3).starting = true ∧ (startAt 3).yard = false ∧ (startAt 3).isHeld .port0 = false ∧ (startAt 3).isHeld .port1 = false) ∧
    (({ startAt 3 with reset_ctl.held := 64 } : State).starting = true ∧ ({ startAt 3 with reset_ctl.held := 64 } : State).isHeld .port0 = true) ∧
    ((startAt 16).starting = true ∧
      bufferFloor { startAt 16 with pwr.shroudAllow := 64 } ≤ ({ startAt 16 with pwr.shroudAllow := 64 } : State).pwr.shroudAllow.toNat ∧
      ({ startAt 16 with pwr.shroudAllow := 63 } : State).pwr.shroudAllow.toNat < bufferFloor { startAt 16 with pwr.shroudAllow := 63 } ∧
      (startAt 16).power.charge_expired = false) := by decide

/-- A request of one erase. -/
def oneErase : BaRequest := { purpose := .update 1, ops := [.erase 0], admitted := 1 }

/-- A request of two programs. -/
def twoPrograms : BaRequest := { purpose := .update 1, ops := [.program 0, .program 256], admitted := 2 }

/-- The routine pulsing for a request, after some pulses. -/
def pulsing (q : BaRequest) (n : Nat) : State := { up with boot.current := some q, boot.pulsing := true, boot.pulses := n }

theorem witness_ArrayServiceRoutinePulses :
    (arrayStopped up = false ∧ up.boot.current = none ∧ leastOn BaRequest.admitted ([twoPrograms, oneErase].filter (mayTake up)) = some oneErase ∧
      oneErase.ops ≠ []) ∧
    ((pulsing oneErase 38).boot.current = some oneErase ∧ oneErase.ops.drop (pulsing oneErase 38).boot.done = [.erase 0] ∧
      (pulsing oneErase 38).boot.pulses + 1 < 40 ∧ 40 ≤ (pulsing oneErase 39).boot.pulses + 1) ∧
    ((pulsing twoPrograms 10).boot.pulses + 1 < 12 ∧ 12 ≤ (pulsing twoPrograms 11).boot.pulses + 1 ∧
      twoPrograms.ops.drop (pulsing twoPrograms 0).boot.done = [.program 0, .program 256] ∧ twoPrograms.purpose ≠ .abandoned) ∧
    (oneErase.purpose ≠ .abandoned) ∧
    (({ upIn .start with mgmt.modeStatus := { start_fail := 1 } } : State).mgmt.modeStatus.start_fail = 1 ∧
      (upIn .start).reset_ctl.recovered = false ∧ (upIn .start).boot.update = none ∧
      ({ header := [], image := [], authentic := true } : FwImage).authentic = true) := by decide

/-- The offsets of the narrow write at both ends of the Waidar windows, and hosts and cores. -/
theorem witness_RegisterAccessesFollowTypes :
    up.isHeld .ret = false ∧ up.isHeld .media = false ∧ State.reset.isHeld .media = true ∧ up.isHeld .mgmt = false ∧
    ({ up with time.half_written := [(0x10010, 5)] } : State).time.half_written.find 0x10010 = some 5 ∧
    ((0x100000 : Nat) ≤ 0x100000 ∧ (0x100000 : Nat) < 0x1000000 ∧ (3 : Nat) < 4 ∧ (0xFFFFFF : Nat) < 0x1000000) ∧
    (up.reachable 0 = true ∧ memoryOpen up 0 = true) := by decide

theorem witness_TestPortSelectsInstructions :
    up.power.dark = false ∧ ({ up with pad.strapStatus.test_en := true } : State).pad.strapStatus.test_en = true ∧
    up.pad.strapStatus.test_en = false ∧ ({ up with power.dark := true } : State).power.dark = true ∧
    (due .actLed 0 up).due .actLed 0 = true := by decide

/-- The values of configuration 1 at both ends of its range and beyond, and the kinds around those that exist. -/
theorem witness_SidebandPortsAnswer :
    (0 : Nat) < 2 ∧ (1 : Nat) < 2 ∧ State.reset.mode = .hold ∧ up.mode ≠ .hold ∧ ((5 : Nat) < 6 ∧ (6 : Nat) ≠ 256) ∧
    ((1 : Nat) ≤ 1 ∧ (3 : Nat) ≤ 3 ∧ (3 : Nat) < 4) ∧ 0 ∈ up.ctrls ∧ 1 ∉ up.ctrls ∧ up.mode = .run ∧
    (∃ b, identifyData up 0 { opcode := 0x06, cdw10 := 1 } = (0, b)) ∧ (Sqe.opcode { opcode := 0x80 } : BitVec 8) = 0x80 := by
  refine ⟨by decide, by decide, by decide, by decide, by decide, by decide, by decide, by decide, by decide, ⟨_, rfl⟩, by decide⟩

/-- One byte short of, at and beyond the end of the staging buffer. -/
theorem witness_ManifestAndInBandManagement :
    fetchedEntry 7 true 0xC1 (having (entry 0 0xC1 { cdw10 := 0, cdw11 := 245759 })) = some (entry 0 0xC1 { cdw10 := 0, cdw11 := 245759 }) ∧
    (entry 0 0xC1 { cdw10 := 0, cdw11 := 245759 }).sqe.transferOffset + (entry 0 0xC1 { cdw10 := 0, cdw11 := 245759 }).sqe.transferBytes = 983040 ∧
    stagingBusy (having (entry 0 0xC1)) = false ∧
    fetchedEntry 7 true 0xC1 (having (entry 0 0xC1 { cdw10 := 1, cdw11 := 245759 })) = some (entry 0 0xC1 { cdw10 := 1, cdw11 := 245759 }) ∧
    983040 < (entry 0 0xC1 { cdw10 := 1, cdw11 := 245759 }).sqe.transferOffset + (entry 0 0xC1 { cdw10 := 1, cdw11 := 245759 }).sqe.transferBytes ∧
    (fetchedEntry 7 true 0xC4 (having (entry 0 0xC4)) = some (entry 0 0xC4) ∧ (having (entry 0 0xC4)).kk.status.joined = 0) ∧
    (fetchedEntry 7 true 0x1D (having (entry 0 0x1D { cdw11 := 4, cdw12 := 1, cdw13 := 3 }))
        = some (entry 0 0x1D { cdw11 := 4, cdw12 := 1, cdw13 := 3 }) ∧
      ((entry 0 0x1D { cdw11 := 4, cdw12 := 1, cdw13 := 3 }).sqe.cdw13.toNat = 3 ∧
        (entry 0 0x1D { cdw11 := 3 }).sqe.cdw11.toNat % 256 ≠ 4)) ∧
    fetchedEntry 7 true 0x1E (having (entry 0 0x1E { cdw11 := 3, cdw12 := 1 })) = some (entry 0 0x1E { cdw11 := 3, cdw12 := 1 }) ∧
    (fetchedEntry 7 true 0x1E (having (entry 0 0x1E { cdw11 := 1 })) = some (entry 0 0x1E { cdw11 := 1 }) ∧
      (entry 0 0x1E { cdw11 := 1 }).sqe.cdw13.getLsbD 31 = false) := by decide
/-- A device whose port 0 has not trained. -/
def unlinked : State := { up with pcie.portStatus0 := {} }

/-- A Function Level Reset of port 0 at a step. -/
def resettingFunction (n : Nat) : State := { up with ep.port0 := { flr := n } }

theorem witness_LinksAndConfigurationTakeEffect :
    (mayTrain unlinked 0 = true ∧ (unlinked.portStatus 0).link_up = false ∧ 16 ∈ trainedWidths unlinked ∧ 1 ∈ trainedWidths unlinked ∧
      (1 : Nat) ≤ 1 ∧ (5 : Nat) < 6) ∧
    (up.linked 0 = true ∧ up.reachable 0 = true ∧ (up.port 0).flr = 0 ∧ up.reset_ctl.sequence = none ∧ (up.portStatus 0).bme = true ∧ (up.ctrl 0).en = false ∧
      (({ up with nvme.ctrl0 := { en := true } } : State).ctrl 0).en = true) ∧
    ((resettingFunction 1).reachable 0 = true ∧ ((resettingFunction 1).port 0).flr ≠ 0) := by decide

/-- The addresses next to each end of a window, a vector at the end of the table, and a function with memory space off. -/
theorem witness_MemoryRequestsAreServed :
    (up.reachable 0 = true ∧ memoryOpen up 0 = true) ∧
    (up.ep.fences.has (0x1FFFFFF / 2 ^ 21) = false ∧ cmbResolve up 0 0x1FFFFFF false = some 0x1FFFFFF ∧ cmbBad up 0x1FFFFFF 1 = false) ∧
    (up.ep.fences.has (0x2000000 / 2 ^ 21) = false ∧ cmbResolve up 0 0x2000000 false = none) ∧
    (cmbResolve up 0 0 true = some 0 ∧ partialDw ([true, true, true, true].length / 4 + 1) [true, true, true, true] = false ∧
      partialDw ([true, true, true, false].length / 4 + 1) [true, true, true, false] = true) ∧
    (2048 : Nat) < up.vectors 0 ∧
    (({ up with pcie.portStatus0 := { link_up := true } } : State).reachable 0 = true ∧
      memoryOpen { up with pcie.portStatus0 := { link_up := true } } 0 = false ∧
      (({ up with pcie.portStatus0 := { link_up := true } } : State).port 0).flr < 2) := by decide

/-- The last byte of a window and the first beyond it, and a port that has none. -/
theorem witness_CmbAccessResolution :
    (up.pcie.cfg.cmb_enable = true ∧ 0x1FFFFFF < 2 ^ 25 ∧ (up.window (0x1FFFFFF / 2 ^ 21)).enable = true ∧
      (up.window (0x1FFFFFF / 2 ^ 21)).port = false ∧ 0x1FFFFFF % 2 ^ 21 < (up.window (0x1FFFFFF / 2 ^ 21)).len.toNat * 65536 ∧
      (up.window (0x1FFFFFF / 2 ^ 21)).host_write = true ∧ (up.window (0x1FFFFFF / 2 ^ 21)).host_read = true) ∧
    ¬(0x2000000 < 2 ^ 25) ∧ (0x0FFFFF % 2 ^ 21 < (dualUp.window 0).len.toNat * 65536 ∧ ¬(0x100000 % 2 ^ 21 < (dualUp.window 0).len.toNat * 65536)) := by
  decide

theorem witness_CmbWritesReadBack :
    [true, false].length = ([1, 2] : Bytes).length ∧ (4 ≤ 4 ∧ 4 < 4 + ([1, 2] : Bytes).length ∧ [true, false][4 - 4]? = some true) ∧
    [true, false][5 - 4]? = some false ∧ 4 + ([1, 2] : Bytes).length ≤ 6 ∧ (3 : Nat) < 4 := by decide

/-- Window values at, and one unit beyond, the end of the SRAM. -/
theorem witness_CmbWindowsChangeBehindFences :
    (15 : Nat) < 16 ∧ up.isHeld (if (up.window 15).port then .port1 else .port0) = false ∧
    windowBad up (windowFields 0x8000000201FF0000) = true ∧ windowBad up (windowFields 0x8000000101FF0000) = false ∧
    up.ep.fences.has 15 = false ∧ windowFields 0x8000000101FF0000 ≠ up.window 15 ∧
    ({ up with ep.fences := [(15, windowFields 0x8000000101FF0000)] } : State).ep.fences.find 15 = some (windowFields 0x8000000101FF0000) ∧
    up.ep.cmb_waiting.find 15 = none := by decide

/-- A read in flight of 8 bytes under tag 300. -/
def reading (s : State := up) : State := { s with ep.port0 := { tags := [(300, { purpose := .dropped, address := 0, remaining := 8 })] } }

theorem witness_DeviceReadsAndPortErrors :
    (up.reachable 0 = true ∧ (reading).reachable 0 = true ∧ (reading).linked 0 = true ∧ ((reading).port 0).tags.find 300 = some { purpose := .dropped, address := 0, remaining := 8 } ∧
      0 < ([1, 2, 3, 4] : Bytes).length ∧ ([1, 2, 3, 4] : Bytes).length < 8) ∧
    (((reading).port 0).tags.find 301 = none ∧ ((reading).port 0).quarantined.find 301 = none) ∧ ([1] : Bytes) ≠ [] ∧
    ((reading (due .tagTimeout (tagIdx 0 300) up)).due .tagTimeout (tagIdx 0 300) = true ∧
      ((reading (due .tagTimeout (tagIdx 0 300) up)).port 0).cto_disable = false) ∧
    (due .quarantine (tagIdx 0 300) up).due .quarantine (tagIdx 0 300) = true := by decide

/-- A device whose controller 0 is ready, with an I/O queue pair 1 of eight entries and one entry to fetch, and a namespace. -/
def live : State := { up with
  pwr.shroudAllow := 1024
  nvme.namespaces := [(0, { nsze := 1024, attached0 := true })]
  nvme.ctrl0 := {
    en := true, rdy := true
    sqs := [(0, { size := 8, cqid := 0 }), (1, { size := 8, cqid := 1, head := 7, tail := 0 })]
    cqs := [(0, { size := 8 }), (1, { size := 8 })] } }

/-- Doorbells at the last entry of a queue and one beyond, and queues that exist and do not. -/
theorem witness_ControllersAndDoorbells :
    (up.reachable 0 = true ∧ memoryOpen up 0 = true ∧ (up.ctrl 0).en = false ∧ (1 : BitVec 32).getLsbD 0 = true) ∧
    (live.reachable 0 = true ∧ memoryOpen live 0 = true ∧ (live.ctrl 0).en = true ∧ live.serving = true ∧ (live.ctrl 0).shst = 0) ∧
    ((live.ctrl 0).rdy = true ∧ (live.ctrl 0).sqs.find 2 = none ∧ (live.ctrl 0).cqs.find 2 = none) ∧
    ((live.ctrl 0).sqs.find 1 = some { size := 8, cqid := 1, head := 7, tail := 0 } ∧ (8 : Nat) ≤ 8 ∧ (7 : Nat) < 8 ∧ (7 : Nat) ≠ 0) ∧
    ((live.ctrl 0).cqs.find 1 = some { size := 8 }) := by decide

theorem witness_ControllersAndDoorbells_noOther : ∀ d, (live.ctrl d).shst ≠ 1 := by
  intro d; unfold State.ctrl; split <;> decide

/-- A write of units 0 to 127 of the namespace, its slice as given. -/
def writing (adm held : Bool) : Entry :=
  { entry 1 0x01 { nsid := 1, cdw12 := 127 } with
    state := .admitting, slices := [{ pieces := [{ unit := 0, units := 16, held := held }], admitted := adm }] }

/-- A slice on a yard with its units received. -/
def yardSlice : YardSlice :=
  { tag := 7, ns_index := 0, first := 0, units := 1, stamp := {}, halt := false, admitted := true, received := [(0, {})] }

theorem witness_CommandsAreFetchedAdmittedAndCompleted :
    ((live.ctrl 0).sqs.find 1 = some { size := 8, cqid := 1, head := 7, tail := 0 } ∧ mayFetch live 0 1 = true ∧ myTurn live 0 1 = true) ∧
    ((having { entry 1 0x00 with state := .done } live).nvme.tracker.find 7 = some { entry 1 0x00 with state := .done } ∧
      (postable (having { entry 1 0x00 with state := .done } live) { entry 1 0x00 with state := .done }).isSome = true) ∧
    postable (having (entry 1 0x00) live) (entry 1 0x00) = none ∧
    ((due .coalesce (coalesceIdx 0 1) live).due .coalesce (coalesceIdx 0 1) = true ∧ ((due .coalesce (coalesceIdx 0 1) live).ctrl 0).cqs.find 1 = some { size := 8 }) := by
  decide

theorem witness_CommandsAreFetchedAdmittedAndCompleted_admit :
    (having (writing false false) live).yard = false ∧ (having (writing false false) live).serving = true ∧
    (having (writing false false) live).nvme.tracker.find 7 = some (writing false false) ∧
    (commandSpace (having (writing false false) live) (writing false false)).isSome = true ∧
    (nextSlice (writing false false)).isSome = true ∧ (writing false false).waits = true ∧
    mayAdmit (having (writing false false) live) (writing false false) = true ∧
    granted (having (writing false false) live) 7 0 (fun t => match (having (writing false false) live).nvme.tracker.find t with
      | some e => mayAdmit (having (writing false false) live) e
      | none => false) = true ∧
    (writing false false).unstarted = true ∧
    writeLocked (having (writing false false) live) 0 0 128 0 = false ∧
    onLostYard (having (writing false false) live) (writing false false).sqe.ns [0] = false := by decide

theorem witness_CommandsAreFetchedAdmittedAndCompleted_held :
    (having (writing true false) live).nvme.tracker.find 7 = some (writing true false) ∧
    (writing true false).slices[0]? = some { pieces := [{ unit := 0, units := 16 }], admitted := true } ∧
    (writing true false).state ≠ .done ∧
    unitsHere (having (writing true false) live) 7 { nsze := 1024, attached0 := true } (writing true false) (0, 16) = true ∧
    blocked (having (writing true false) live) { nsze := 1024, attached0 := true } (writing true false) (0, 16) = false ∧
    haltPermits (having (writing true false) live) (writing true false) = true ∧
    lowerHeld (having (writing true false) live) (writing true false) 0 0 = true ∧ (writing true false).broken = none := by decide

theorem witness_CommandsAreFetchedAdmittedAndCompleted_yard :
    ({ yardUp with keaka.slices := [yardSlice] } : State).yard = true ∧ ({ yardUp with keaka.slices := [yardSlice] } : State).serving = true ∧
    yardSlice.admitted = true ∧ yardSlice.held.contains 0 = false ∧ yardSlice.halt = false ∧
    (((yardSlice.pieces { yardUp with keaka.slices := [yardSlice] })[0]?).map fun r =>
      ((List.range r.2).map fun k => r.1 + k).all yardSlice.received.has
        && yardLowerHeld { yardUp with keaka.slices := [yardSlice] } 7 0 yardSlice
        && !yardBlocked { yardUp with keaka.slices := [yardSlice] } 7 0 r) = some true := by decide

theorem witness_QueueCommandsComplete_create :
    fetchedEntry 7 true 0x05 (having (entry 0 0x05 { cdw10 := 0x70000 }) live) = some (entry 0 0x05 { cdw10 := 0x70000 }) ∧
    createCqStatus live (entry 0 0x05 { cdw10 := 0x70000 }) ≠ 0 ∧ createCqStatus live (entry 0 0x05 { cdw10 := 0x70800, cdw11 := 1 }) = 0 ∧
    createCqStatus live (entry 0 0x05 { cdw10 := 0x70801, cdw11 := 1 }) ≠ 0 ∧
    fetchedEntry 7 true 0x01 (having (entry 0 0x01 { cdw10 := 0x70000 }) live) = some (entry 0 0x01 { cdw10 := 0x70000 }) ∧
    createSqStatus live (entry 0 0x01 { cdw10 := 0x70000 }) ≠ 0 ∧
    createSqStatus live (entry 0 0x01 { cdw10 := 0x70002, cdw11 := 0x10001 }) = 0 := by decide

theorem witness_QueueCommandsComplete_rest :
    (fetchedEntry 7 true 0x00 (having (entry 0 0x00 { cdw10 := 1 }) live) = some (entry 0 0x00 { cdw10 := 1 }) ∧
      (live.ctrl 0).sqs.find 1 = some { size := 8, cqid := 1, head := 7, tail := 0 }) ∧
    (fetchedEntry 7 true 0x04 (having (entry 0 0x04 { cdw10 := 1 }) live) = some (entry 0 0x04 { cdw10 := 1 }) ∧
      (live.ctrl 0).cqs.has 1 = true ∧ (live.ctrl 0).sqs.vals.any (fun q => q.cqid == 1) = true ∧
      (({ live with nvme.ctrl0.sqs := [] } : State).ctrl 0).sqs.vals.any (fun q => q.cqid == 1) = false) ∧
    (fetchedEntry 7 true 0x08 (having (entry 0 0x08 { cdw10 := 1 }) live) = some (entry 0 0x08 { cdw10 := 1 }) ∧
      ((having (entry 0 0x08) live).nvme.tracker.filter fun p => p.2.ctrl == 0 && p.2.sqid == 0 && p.2.sqe.opcode == 0x08).length ≤ 8 ∧
      (({ live with nvme.tracker := [(7, entry 0 0x08 { cdw10 := 1 }), (8, entry 1 0x02)] } : State).nvme.tracker.find? (fun p =>
        p.1 != 7 && p.2.ctrl == 0 && p.2.sqid == 1 && p.2.sqe.cid.toNat == 0)).isSome = true ∧ abortable (entry 1 0x02) = true) ∧
    (fetchedEntry 7 true 0x0C (having (entry 0 0x0C) live) = some (entry 0 0x0C) ∧ (live.ctrl 0).aer_requests.length < 8 ∧
      (live.ctrl 0).aer_pending = [] ∧
      8 ≤ (({ live with nvme.ctrl0.aer_requests := [0, 1, 2, 3, 4, 5, 6, 8] } : State).ctrl 0).aer_requests.length) ∧
    (fetchedEntry 7 true 0xC0 (having (entry 0 0xC0 { cdw10 := 1 }) live) = some (entry 0 0xC0 { cdw10 := 1 }) ∧
      (({ live with nvme.ctrl0.sqs := [(1, { size := 8, cqid := 1, halted := true, halt_read := true })] } : State).ctrl 0).sqs.find 1
        = some { size := 8, cqid := 1, halted := true, halt_read := true } ∧
      (({ live with nvme.ctrl0.error_log := [{ error_count := 5, stamp := {}, draft := { source := 0, kind := 1 }, event_seq := 0 }] } : State).ctrl 0).error_log.any
        (fun x => x.error_count == 5) = true) ∧
    ((having (entry 1 0x7F) live).nvme.tracker.find 7 = some (entry 1 0x7F) ∧ (entry 1 0x7F).state = .fetched ∧
      dispatches (having (entry 1 0x7F) live) (entry 1 0x7F) = true ∧ live.serving = true ∧ live.yard = false ∧ (supportedOpcodes ((entry 1 0x7F).sqid == 0)).contains (entry 1 0x7F).sqe.opcode.toNat = false) := by
  decide

/-- A Set Features of a feature with dword 11. -/
def setting (fid : BitVec 32) (v : BitVec 32 := 0) : Entry := entry 0 0x09 { nsid := 1, cdw10 := fid, cdw11 := v }

theorem witness_FeaturesAreSetAndRead_named :
    ([0x01, 0x02, 0x04, 0x07, 0x08, 0x09, 0x0A, 0x0B, 0x0E, 0x13, 0x14, 0x81, 0x82, 0x83] : List (BitVec 32)).all (fun f =>
      fetchedEntry 7 true 0x09 (having (setting f) live) == some (setting f) && (setting f).sqe.save == false
        && (setting f).sqe.fid == f.toNat
        && fetchedEntry 7 true 0x09 (having (setting (0x80000000 + f)) live) == some (setting (0x80000000 + f))
        && (setting (0x80000000 + f)).sqe.save && (setting (0x80000000 + f)).sqe.fid == f.toNat) = true ∧
    fetchedEntry 7 true 0x09 (having (setting 0x20) live) = some (setting 0x20) ∧
    supportedFeatures.contains (setting 0x20).sqe.fid = false ∧
    fetchedEntry 7 true 0x0A (having (entry 0 0x0A { cdw10 := 1 }) live) = some (entry 0 0x0A { cdw10 := 1 }) ∧
    supportedFeatures.contains (entry 0 0x0A { cdw10 := 1 }).sqe.fid = true ∧
    getFeatureStatus live (entry 0 0x0A { cdw10 := 1 }) = 0 := by decide

/-- A Set Features Predictable Latency Config with the enable bit. -/
def enabling : Entry := entry 0 0x09 { nsid := 1, cdw10 := 0x13, cdw11 := 1, cdw12 := 1 }

/-- A Set Features Predictable Latency Window that asks for window `w`. -/
def windowing (w : BitVec 32) : Entry := entry 0 0x09 { nsid := 1, cdw10 := 0x14, cdw11 := 1, cdw12 := w }

/-- Operands at the ends of their ranges, and just beyond. -/
theorem witness_FeaturesAreSetAndRead_values :
    ((setting 4 0x80000).sqe.cdw11.toNat / 2 ^ 16 % 16 ≤ 8 ∧ (setting 4 0x80000).sqe.cdw11.toNat / 2 ^ 20 % 4 = 0 ∧
      (setting 4 0x180000).sqe.cdw11.toNat / 2 ^ 16 % 16 ≤ 8 ∧ (setting 4 0x180000).sqe.cdw11.toNat / 2 ^ 20 % 4 = 1 ∧
      8 < (setting 4 0x90000).sqe.cdw11.toNat / 2 ^ 16 % 16 ∧ 1 < (setting 4 0x200000).sqe.cdw11.toNat / 2 ^ 20 % 4) ∧
    ((setting 7 0xFFFEFFFE).sqe.cdw11.toNat % 2 ^ 16 ≠ 65535 ∧ (setting 7 0xFFFEFFFE).sqe.cdw11.toNat / 2 ^ 16 ≠ 65535 ∧
      (setting 7 0xFFFF0000).sqe.cdw11.toNat / 2 ^ 16 = 65535 ∧ (setting 7 0xFFFF).sqe.cdw11.toNat % 2 ^ 16 = 65535 ∧
      (live.ctrl 0).granted = none ∧ (({ live with nvme.ctrl0.granted := some (1, 1) } : State).ctrl 0).granted.isSome = true) ∧
    (live.vectors 0 = 2049 ∧ (setting 9 2048).sqe.cdw11.toNat % 2 ^ 16 < live.vectors 0 ∧
      live.vectors 0 ≤ (setting 9 2049).sqe.cdw11.toNat % 2 ^ 16) ∧
    ((setting 11 0x111F).sqe.cdw11.toNat &&& 0x111F = (setting 11 0x111F).sqe.cdw11.toNat ∧
      (setting 11 0x20).sqe.cdw11.toNat &&& 0x111F ≠ (setting 11 0x20).sqe.cdw11.toNat) ∧
    ((setting 0x81 1).sqe.cdw11.getLsbD 0 = true ∧ field [1] 0 16 ≠ 0 ∧ field [] 0 16 = 0 ∧
      (setting 0x81 0).sqe.cdw11.getLsbD 0 = false) ∧
    ((setting 0x82).sqe.nsid ≠ 0xFFFFFFFF ∧ nsidStatus live (setting 0x82) = 0 ∧
      nsidStatus live (entry 0 0x09 { nsid := 2, cdw10 := 0x82 }) ≠ 0 ∧
      (entry 0 0x09 { nsid := 0xFFFFFFFF, cdw10 := 0x82 }).sqe.nsid = 0xFFFFFFFF) ∧
    ((setting 0x83 1).sqe.cdw11.getLsbD 0 = true ∧ (setting 0x83).sqe.cdw11.getLsbD 0 = false) := by decide

theorem witness_FeaturesAreSetAndRead_latencyConfig :
    ((setting 0x13 1).sqe.cdw11.toNat % 2 ^ 16 = 1 ∧ (setting 0x13 1).sqe.cdw12.getLsbD 0 = false) ∧
    (enabling.sqe.cdw11.toNat % 2 ^ 16 = 1 ∧ enabling.sqe.cdw12.getLsbD 0 = true ∧ enabling.sqe.save = false ∧
      enabling.sqe.fid = 0x13 ∧ fetchedEntry 7 true 0x09 (having enabling live) = some enabling ∧
      ({ live with rcl.cfg.plm_permit := true } : State).rcl.cfg.plm_permit = true ∧
      ({ live with rcl.cfg.plm_permit := false } : State).rcl.cfg.plm_permit = false ∧
      live.rcl.status.plm_enabled = false ∧ ({ live with rcl.status.plm_enabled := true } : State).rcl.status.plm_enabled = true) ∧
    (setting 0x13 2).sqe.cdw11.toNat % 2 ^ 16 ≠ 1 := by decide

/-- A device in its non-deterministic window. -/
def inWindow : State := having (windowing 1) { live with rcl.status.plm_enabled := true, rcl.status.dtwin := false }

theorem witness_FeaturesAreSetAndRead_window :
    ((windowing 1).sqe.cdw12.toNat % 8 = 1 ∧ (windowing 2).sqe.cdw12.toNat % 8 = 2 ∧ (windowing 3).sqe.cdw12.toNat % 8 ≠ 1 ∧
      (windowing 3).sqe.cdw12.toNat % 8 ≠ 2 ∧ (windowing 1).sqe.cdw11.toNat % 2 ^ 16 = 1 ∧ (windowing 1).sqe.fid = 0x14 ∧
      (setting 0x14 2).sqe.cdw11.toNat % 2 ^ 16 ≠ 1) ∧
    (fetchedEntry 7 true 0x09 inWindow = some (windowing 1) ∧ inWindow.rcl.status.plm_enabled = true ∧
      live.rcl.status.plm_enabled = false ∧ inWindow.rcl.status.dtwin = false ∧
      ({ inWindow with rcl.status.dtwin := true } : State).rcl.status.dtwin = true) ∧
    ¬(inWindow.reclaim.window_entry + inWindow.rcl.ndwinTmin.toNat ≤ inWindow.run ∧ inWindow.rcl.bgStart.toNat ≤ freeCount inWindow) ∧
    (({ inWindow with rcl.bgStart := 0, rcl.ndwinTmin := 0 } : State).reclaim.window_entry
      + ({ inWindow with rcl.bgStart := 0, rcl.ndwinTmin := 0 } : State).rcl.ndwinTmin.toNat
        ≤ ({ inWindow with rcl.bgStart := 0, rcl.ndwinTmin := 0 } : State).run ∧
      ({ inWindow with rcl.bgStart := 0, rcl.ndwinTmin := 0 } : State).rcl.bgStart.toNat
        ≤ freeCount { inWindow with rcl.bgStart := 0, rcl.ndwinTmin := 0 }) := by decide

/-- A Set Features Power Management that asks for `v`, with what else the device does. -/
def powering (v : BitVec 32) (s : State := live) : State := having (setting 2 v) s

theorem witness_PowerManagementIsSet :
    ((4 : Nat) < (setting 2 5).sqe.cdw11.toNat % 32 ∧ (setting 2 0x24).sqe.cdw11.toNat / 32 % 8 ≠ 0 ∧
      (setting 2 4).sqe.cdw11.toNat % 32 ≤ 4 ∧ (setting 2 4).sqe.cdw11.toNat / 32 % 8 = 0 ∧ (setting 2 4).sqe.save = false ∧
      (setting 2 4).sqe.fid = 0x02 ∧ fetchedEntry 7 true 0x09 (powering 4) = some (setting 2 4)) ∧
    (({ powering 4 with power_states.handshake := some { target := 1, ctrl := 0, entry := none, waiting := [] } } : State).power_states.handshake.isSome = true ∧
      (powering 4).power_states.handshake = none ∧
      ({ powering 4 with reset_ctl.sequence := some { code := 9, stamp := {} } } : State).reset_ctl.sequence.isSome = true ∧
      (powering 4).reset_ctl.sequence = none ∧ (setting 2 0).sqe.cdw11.toNat % 32 = requested (powering 0) 0 ∧
      (4 : Nat) ≠ requested (powering 4) 0 ∧ (powering 4).power_states.returning = none ∧
      ({ powering 4 with power_states.returning := some { step := 1, target := 0, entry := none } } : State).power_states.returning.isSome = true) ∧
    (stateByRequests (setRequested 0 4 { powering 4 with psm.status.in_force := 4 }) = 4 ∧
      requested { powering 4 with psm.status.in_force := 4 } 0 ≠ 4) ∧
    (stateByRequests (setRequested 0 0 { powering 0 with psm.status.in_force := 4, psm.status.req0 := 4 }) = 0 ∧
      requested { powering 0 with psm.status.in_force := 4, psm.status.req0 := 4 } 0 ≠ 0) ∧
    (stateByRequests (setRequested 0 4 (powering 4)) ≠ (powering 4).psm.status.in_force.toNat ∧
      (powering 4).psm.status.in_force ≠ 4 ∧ stateByRequests (setRequested 0 4 (powering 4)) ≠ 0) := by decide

/-- A command of the admin queue. -/
def asking (op : BitVec 8) (q : Sqe) : Bool := fetchedEntry 7 true op.toNat (having (entry 0 op q) live) == some (entry 0 op q)

theorem witness_DataReturnsToTheHost :
    (asking 0x0A { cdw10 := 0x201 } = true ∧ (Sqe.cdw10 { cdw10 := 0x201 }).toNat / 256 % 8 < 3 ∧
      getFeatureStatus live (entry 0 0x0A { cdw10 := 0x201 }) = 0 ∧ (Sqe.cdw10 { cdw10 := 0x301 }).toNat / 256 % 8 = 3 ∧
      supportedFeatures.contains (Sqe.fid { cdw10 := 0x20 }) = false) ∧
    (asking 0x02 { cdw10 := 0x01 } = true ∧ logStatus { cdw10 := 0x01 } = 0 ∧ logStatus { cdw10 := 0x03 } ≠ 0 ∧
      supportedLogs.contains (Sqe.lid { cdw10 := 0x03 }) = false) ∧
    (asking 0x06 { cdw10 := 0x14 } = true ∧ (identifyData live 0 { cdw10 := 0x14 }).1 ≠ 0) ∧
    (asking 0x1D { cdw11 := 4 } = true ∧ asking 0x1E { cdw11 := 3 } = true) ∧
    (asking 0x82 { cdw11 := 0x1000001 } = true ∧ 2 ^ 24 < (Sqe.cdw11 { cdw11 := 0x1000001 }).toNat ∧
      (Sqe.cdw11 { cdw11 := 0x1000000 }).toNat ≤ 2 ^ 24 ∧ Sqe.secp {} = 0 ∧ Sqe.secp { cdw10 := 0x07000000 } ≠ 0 ∧
      opalAddressed live { cdw10 := 0x07000000 } = false ∧
      opalAddressed { live with sec.cfg.opal_enable := true } { cdw10 := 0x01100000 } = true) := by decide

theorem witness_DataReturnsToTheHost_identify : ∃ d, identifyData live 0 { cdw10 := 1 } = (0, d) := ⟨_, rfl⟩

/-- The last byte of the staging buffer and one beyond, slots 2 and 3, and a commit in progress. -/
theorem witness_FirmwareIsStagedAndCommitted :
    (asking 0x11 { cdw10 := 0x3FF, cdw11 := 0x3FFC00 } = true ∧ 4 * 0x3FFC00 + 4 * (0x3FF + 1) = 2 ^ 24 ∧
      4 * 0x3FFC00 % 4096 = 0 ∧ 4 * (0x3FF + 1) % 4096 = 0 ∧ 2 ^ 24 < 4 * 0x3FFC00 + 4 * (0x400 + 1)) ∧
    (asking 0x10 { cdw10 := 0x02 } = true ∧ asking 0x10 { cdw10 := 0x0A } = true ∧ asking 0x10 { cdw10 := 0x12 } = true ∧
      commitBusy live = false ∧ (Sqe.cdw10 { cdw10 := 0x02 }).toNat % 8 ≤ 2 ∧ 2 < (Sqe.cdw10 { cdw10 := 0x03 }).toNat % 8 ∧
      (Sqe.cdw10 { cdw10 := 0x12 }).toNat / 8 % 8 = 2) ∧
    commitBusy { live with keaka.admin := [{ entry := 8, body := [4], waiting := [] }] } = true := by decide

/-- An I/O command on namespace 1, of blocks from an LBA. -/
def io (op : BitVec 8) (slba count : BitVec 32) (q : Sqe := {}) : Entry := entry 1 op { q with nsid := 1, cdw10 := slba, cdw12 := count - 1 }

/-- The last LBA and one beyond. -/
theorem witness_DataCommandsBegin :
    (live.nspace 0 = some { nsze := 1024, attached0 := true } ∧ nsidStatus live (io 0x01 0 1) = 0 ∧ (io 0x01 0 1).sqe.fuse = 0 ∧
      live.security.genkey = none) ∧
    (1024 < (io 0x01 1023 2).sqe.slba + (io 0x01 1023 2).sqe.blocks ∧ (io 0x01 1023 1).sqe.slba + (io 0x01 1023 1).sqe.blocks ≤ 1024) ∧
    transferLength { nsze := 1024 } 1 ≤ 2 ^ 24 ∧
    (([0x01, 0x02, 0x0C, 0x05, 0x08, 0x00] : List (BitVec 8)).all fun op =>
      fetchedEntry 7 false op.toNat (having (io op 1023 1) live) == some (io op 1023 1)) = true ∧
    (having (io 0x01 1023 1) { live with mode := .readOnly }).serving = true ∧ live.mode ≠ .readOnly ∧ live.pwr.status.below_floor = false ∧
    conflict live { nsze := 1024, attached0 := true } 0 true = false ∧ conflict live { nsze := 1024, attached0 := true } 0 false = false ∧
    readLocked live 0 1023 1 0 = false ∧ writeLocked live 0 1023 1 0 = false ∧
    pointerStatus (.prp []) (transferLength { nsze := 1024 } 1) false = 0 ∧ pointerStatus (.prp []) (transferLength { nsze := 1024 } 1) true = 0 := by
  decide

theorem witness_DataCommandsBegin_deallocate :
    fetchedEntry 7 false 0x09 (having (entry 1 0x09 { nsid := 1, cdw11 := 4 }) live) = some (entry 1 0x09 { nsid := 1, cdw11 := 4 }) ∧
    (Sqe.cdw11 { cdw11 := 4 }).getLsbD 2 = true ∧ (Sqe.cdw11 {}).getLsbD 2 = false ∧
    dsmRanges [0, 0, 0, 0, 1, 0, 0, 0, 255, 3] (entry 1 0x09 { nsid := 1, cdw11 := 4 }) = [(1023, 1)] ∧
    rangeStatus { nsze := 1024 } [(1023, 1)] = 0 ∧ writeLocked live 0 1023 1 0 = false := by decide

/-- A namespace whose host 9 is registered with key 5, and may hold it. -/
def reserved (type : Nat) : State := { live with
  nvme.ctrl0.host_id := some 9
  nvme.namespaces := [(0, { nsze := 1024, attached0 := true, reservation :=
      { type := type, holder := if type = 0 then none else some 9, registrants := [{ host_id := 9, key := 5, ctrl := 0 }] } })] }

/-- A reservation command with dword 10. -/
def reserving (op v : BitVec 32) : Entry := entry 1 (op.setWidth 8) { nsid := 1, cdw10 := v }

theorem witness_ReservationsAreHeld :
    ((reserved 0).ctrl 0).host_id = some 9 ∧ nsidStatus (reserved 0) (io 0x0D 0 1) = 0 ∧ (reserving 0x0D 0).sqe.fuse = 0 ∧
    (([0, 1, 2, 8, 9, 10] : List (BitVec 32)).all fun v =>
      fetchedEntry 7 false 0x0D (having (reserving 0x0D v) (reserved 0)) == some (reserving 0x0D v)) = true ∧
    ((reserving 0x0D 0).sqe.cdw10.toNat < 2 ^ 30 ∧ (reserving 0x0D 9).sqe.cdw10.toNat % 8 = 1 ∧
      (reserving 0x0D 9).sqe.cdw10.toNat.testBit 3 = true ∧ (reserving 0x0D 2).sqe.cdw10.toNat.testBit 3 = false ∧
      (reserving 0x0D 10).sqe.cdw10.toNat % 8 = 2) ∧
    (({ reserved 0 with nvme.ctrl0.host_id := some 8 } : State).nspace 0).map
      (fun m => m.reservation.registrants.all fun x => x.host_id != 8) = some true ∧
    ((reserved 0).nspace 0).map (fun m => m.reservation.registrants.find? (fun x => x.host_id == 9))
      = some (some { host_id := 9, key := 5, ctrl := 0 }) ∧
    field [5] 0 8 = 5 ∧ field [0, 0, 0, 0, 0, 0, 0, 0, 5] 8 8 = 5 ∧ field [0, 0, 0, 0, 0, 0, 0, 0, 6] 8 8 ≠ 5 := by decide

theorem witness_ReservationsAreHeld_acquire :
    (([0x600, 0x100, 0x601, 0x602] : List (BitVec 32)).all fun v =>
      fetchedEntry 7 false 0x11 (having (reserving 0x11 v) (reserved 0)) == some (reserving 0x11 v)
        && (reserving 0x11 v).sqe.cdw10.toNat.testBit 3 == false) = true ∧
    (0x600 / 256 % 256 = 6 ∧ 0x100 / 256 % 256 = 1 ∧ 0x601 % 8 = 1 ∧ 0x602 % 8 = 2) ∧
    ((reserved 6).nspace 0).map (fun m => m.reservation.heldBy 9 && !m.reservation.heldBy 8 && m.reservation.type == 6) = some true ∧
    (({ reserved 1 with
        nvme.namespaces := [(0, { nsze := 1024, attached0 := true, reservation :=
          { type := 1, holder := some 8, registrants := [{ host_id := 9, key := 5, ctrl := 0 }] } })] } : State).nspace 0).map
      (fun m => m.reservation.heldBy 9) = some false := by decide

theorem witness_ReservationsAreHeld_release :
    (([0x100, 1] : List (BitVec 32)).all fun v =>
      fetchedEntry 7 false 0x15 (having (reserving 0x15 v) (reserved 1)) == some (reserving 0x15 v)) = true ∧
    (0x100 / 256 % 256 = 1 ∧ (0x100 : Nat).testBit 3 = false) ∧
    ((reserved 1).nspace 0).map (fun m => m.reservation.heldBy 9 && m.reservation.type == 1) = some true ∧
    ((reserved 0).nspace 0).map (fun m => m.reservation.heldBy 9) = some false ∧
    (fetchedEntry 7 false 0x0E (having (entry 1 0x0E { nsid := 1, cdw10 := 0x3FFFFF, cdw11 := 1 }) (reserved 1))
        = some (entry 1 0x0E { nsid := 1, cdw10 := 0x3FFFFF, cdw11 := 1 }) ∧ 4 * (0x3FFFFF + 1) ≤ 2 ^ 24) := by decide

/-- A create of one chunk, 2 ^ 18 blocks of 4,096 bytes. -/
def oneChunk : Bytes := [0, 0, 4, 0, 0, 0, 0, 0, 0, 0, 4]

/-- A namespace locked against writes. -/
def locked : State := { live with security.store.ranges := [(1, { ns := 1, length := 8, write_locked := true })] }

theorem witness_NamespacesAreManaged :
    (adminEntry 7 0x0D (having (entry 0 0x0D) live) = some (entry 0 0x0D) ∧ askingYards live 7 = false ∧
      createStatus live (entry 0 0x0D) [1] ≠ 0 ∧ createStatus live (entry 0 0x0D) oneChunk = 0 ∧ (place live (newNamespace oneChunk)).isSome = true) ∧
    (adminEntry 7 0x0D (having (entry 0 0x0D { nsid := 1, cdw10 := 1 }) live) = some (entry 0 0x0D { nsid := 1, cdw10 := 1 }) ∧
      allocatedStatus live (entry 0 0x0D { nsid := 1, cdw10 := 1 }) = 0 ∧
      ((namespacesNamed live (entry 0 0x0D { nsid := 1 })).all fun p => p.2.closing == none) = true ∧
      (namespacesNamed live (entry 0 0x0D { nsid := 1 })).any (fun p => namespaceLocked live p.1 p.2) = false ∧
      (namespacesNamed locked (entry 0 0x0D { nsid := 1 })).any (fun p => namespaceLocked locked p.1 p.2) = true) ∧
    (adminEntry 7 0x80 (having (entry 0 0x80 { nsid := 1, cdw10 := 0x402 }) live) = some (entry 0 0x80 { nsid := 1, cdw10 := 0x402 }) ∧
      formatSes (entry 0 0x80 { cdw10 := 0x402 }) = 2 ∧ formatLbaf (entry 0 0x80 { cdw10 := 0x403 }) = 3 ∧
      formatSes (entry 0 0x80 { cdw10 := 0x602 }) = 3 ∧ live.mode ≠ .readOnly ∧
      (live.nvme.namespaces.all fun p => p.2.closing == none && !namespaceLocked live p.1 p.2) = true) ∧
    (fetchedEntry 7 true 0x15 (having (entry 0 0x15 { nsid := 1 }) live) = some (entry 0 0x15 { nsid := 1 }) ∧
      fetchedEntry 7 true 0x15 (having (entry 0 0x15 { nsid := 1, cdw10 := 1 }) live) = some (entry 0 0x15 { nsid := 1, cdw10 := 1 }) ∧
      live.ctrls.contains 0 = true ∧ field [1, 0, 1, 0] 0 2 = 1 ∧ field [1, 0, 1, 0] 2 2 = 0 + 1 ∧
      Namespace.attachedTo { nsze := 1, attached0 := true } 0 = true ∧ Namespace.attachedTo { nsze := 1 } 0 = false) := by decide

/-- A device of three decimal gigabytes, whose one chunk for namespaces is taken. -/
def full : State := { live with nvme.namespaces := [], map.capacityGb := 3, engine.chunks := [(0, (5, 0))] }


theorem witness_NamespacesAreManaged_full :
    createStatus full (entry 0 0x0D) oneChunk = 0 ∧ place full (newNamespace oneChunk) = none ∧
    (place { full with engine.chunks := [] } (newNamespace oneChunk)).isSome = true := by decide

/-- Opal enabled, with a session of controller 0 to an SP by an administrator. -/
def opal (sp : Nat) (l : List Nat) : State := { live with
  sec.cfg.opal_enable := true, sec.cfg.range_max := 64, security.session := some { ctrl := 0, sp := sp, authorities := l } }

/-- A Security Send of protocol 1 or 2. -/
def sending (p : BitVec 32) : Entry := entry 0 0x81 { cdw10 := p * 2 ^ 24 + 0x100000 }

theorem witness_OpalMethodsRespond :
    (adminEntry 7 0x81 (having (sending 1) (opal 1 [4])) = some (sending 1) ∧ opalAddressed (opal 1 [4]) (sending 1).sqe = true ∧
      (sending 1).sqe.secp = 1 ∧ (sending 2).sqe.secp = 2 ∧ opalAddressed (opal 1 [4]) (sending 2).sqe = true) ∧
    sessionAdmin (opal 1 [4]) 0 1 = true ∧ sessionAdmin (opal 1 [5]) 0 1 = false ∧ sessionAdmin (opal 0 [0]) 0 0 = true ∧
    (64 : Nat) ≤ (opal 1 [4]).sec.cfg.range_max.toNat ∧
    rangeInvalid (opal 1 [4]) 64 (RangeSet.apply { ns := some 1 } ((opal 1 [4]).range 64)) = false ∧
    rangeInvalid (opal 1 [4]) 0 (RangeSet.apply { ns := some 1 } ((opal 1 [4]).range 0)) = true ∧
    (opal 1 []).security.session = some { ctrl := 0, sp := 1, authorities := [] } ∧ live.security.session = none := by decide

theorem witness_TranslationTierAdvances :
    ((due .stripePad 0 live).due .stripePad 0 = true ∧ (due .stripePad 0 live).builds = true ∧
      ({ due .stripePad 0 live with shroud.filling_host := some 3 } : State).shroud.filling_host = some 3) ∧
    live.works = true ∧ live.mediaOn = true ∧ (due .stayFlush 0 live).due .stayFlush 0 = true ∧
    ({ live with shroud.pages := [{ seqs := [1], issued := true, done0 := true, done1 := true }] } : State).shroud.pages.find?
      (fun p => p.issued && p.done0 && p.done1) = some { seqs := [1], issued := true, done0 := true, done1 := true } ∧
    ({ live with shroud.repairing := some 5 } : State).shroud.repairing = some 5 ∧
    (({ up with engine.cache := [(9, { waiting := true })] } : State).engine.cache.find 9 = some { waiting := true } ∧
      up.media.ops = [] ∧ up.redun.recons = [] ∧ up.engine.specs = [] ∧ up.nvme.tracker = []) ∧
    ((due .mapWriteback 9 up).due .mapWriteback 9 = true ∧
      ({ up with engine.cache := [(9, { dirty := true })] } : State).engine.cache.find 9 = some { dirty := true } ∧
      ({ up with engine.cache := [(9, {})] } : State).engine.cache.find 9 = some {}) ∧
    (due .checkpoint 0 live).due .checkpoint 0 = true ∧
    checkpointOpen { up with engine.current := some { begin_stamp := {}, horizon := 0, scan_from := 0 } } 0 = false ∧
    (due .stream 2 up).due .stream 2 = true := by decide

/-- A reef whose 16 entries are in flash. -/
def fineReef : State := { due .fold 0 up with
  map.cfg.fold_enable := true, engine.table := [(0, .fine 0 (List.replicate 16 (.flash 5)))] }

theorem witness_TranslationTierAdvances_fold :
    fineReef.due .fold 0 = true ∧ fineReef.mode = .run ∧ fineReef.map.cfg.fold_enable = true ∧
    fineReef.engine.table.find 0 = some (.fine 0 (List.replicate 16 (.flash 5))) ∧
    (∀ x ∈ reefEntries fineReef 0, x = .flash 5) := by decide

/-- A closed block of one stripe, queued for reclaim. -/
def queuedBlock : State := { live with
  reclaim.blocks := [(100, { state := .closed, queued := some 0 })]
  shroud.stripes := [(8, { shape := 0, copyStream := false, open_stamp := {}, members := [{ die := 0, block := 100, page := 0 }], state := .closed })] }

/-- A block released for its erase. -/
def releasedBlock : State := { live with reclaim.blocks := [(100, { state := .released })] }

/-- An operation of a kind on die 0, running. -/
def running (k : LedgerKind) : NandOp := { kind := k, owner := .erase, die := 0, block := 100, stamp := 1, state := .running }

/-- A device with one operation, number 4, running on die 0. -/
def busy (o : NandOp) : State := { live with media.ops := [(4, o)], media.luns := [(0, { running := some 4 })] }

theorem witness_ReclaimAdvances :
    (live.mode = .run ∧ live.rcl.status.counts_ready = false) ∧ (live.works = true ∧ live.reclaim.victims.length < 2) ∧
    ((releasedBlock.blockAt 100).state = .released ∧ 16 ≤ 100 % 4096 ∧ unreferenced releasedBlock 100 = true ∧
      releasedBlock.rcl.status.dtwin = false) ∧ ({ live with rcl.status.dtwin := true } : State).rcl.status.dtwin = true ∧
    ((busy (running .erase)).op 4 = some (running .erase) ∧ (running .erase).kind = .erase ∧ (running .erase).state = .running ∧
      (running .erase).overdue = false) ∧
    ((due .idle 0 live).due .idle 0 = true ∧ outstanding (due .idle 0 live) 0 = false ∧ outstanding (due .idle 0 live) 1 = false) ∧
    (due .dtwin 0 live).due .dtwin 0 = true ∧ ({ live with redun.cutover := some 1 } : State).redun.cutover = some 1 := by decide

theorem witness_ReclaimAdvances_victim : nextVictim live = none ∧ (nextVictim queuedBlock).isSome = true ∧ live.map.cfg.paged = false := by
  decide

/-- A failed die under its rebuild walk, with one stripe on it. -/
def walking (k : Nat) : State := { live with
  redun.walk := some (3, k), redun.dies := [(3, { state := 3 })], red.cfg2.rebuild_depth := 1
  shroud.stripes := [(8, { shape := 0, copyStream := false, open_stamp := {}, members := [{ die := 3, block := 100, page := 0 }], state := .closed })] }

theorem witness_ReclaimAdvances_walk :
    ((walking 7).mode = .run ∧ (walking 7).redun.walk = some (3, 7) ∧ ((walking 7).die 3).state = 3 ∧
      rebuilding (walking 7) < (walking 7).red.cfg2.rebuild_depth.toNat ∧
      (((stripesOn (walking 7) 3).find? fun p => decide (7 < p.1)).map Prod.fst) = some 8) ∧
    ((stripesOn (walking 8) 3).find? (fun p => decide (8 < p.1))).isNone = true ∧ rebuilding (walking 8) = 0 := by decide

/-- A read waiting at the ledger since stamp 1, with H beyond the ceiling. -/
def starving (o : NandOp) : State := { busy o with time.hq := 2 ^ 100 }

theorem witness_ChannelsServeOperations_ledger :
    ledgerQueue (starving { running .erase with state := .waiting }) = [4] ∧
    (starving { running .erase with state := .waiting }).op 4 = some { running .erase with state := .waiting } ∧
    starved (starving { running .erase with state := .waiting }) 1 = true ∧
    (starving { running .erase with state := .waiting }).media.ceiling = none := by decide

theorem witness_ChannelsServeOperations_writes :
    waitingSlices { having (writing false false) live with time.hq := 2 ^ 100 } = [(7, 0)] ∧
    starved { having (writing false false) live with time.hq := 2 ^ 100 } 0 = true ∧
    (having (writing false false) live).nvme.ceiling = none := by decide

/-- Die 0 with its pair discovered and an admitted erase older than the ceiling. -/
def admittedErase : State := { starving { running .erase with state := .admitted } with
  media.luns := [], power.pairs := [(0, { phase := .discovered })] }

theorem witness_ChannelsServeOperations_sequencer :
    oldestEligible admittedErase 0 = some 4 ∧ admittedErase.op 4 = some { running .erase with state := .admitted } ∧
    starved admittedErase 1 = true ∧ admittedErase.mediaOn = true := by decide

/-- Channel 0 with its pair discovered, one die, and its retraining due. -/
def retrainable : State := { due .retrain 0 live with
  power.pairs := [(0, { phase := .discovered })], media.ce_map := [1] }

theorem witness_ChannelsServeOperations_channels :
    (retrainable.mediaOn = true ∧ mediaSleeps retrainable = false ∧ transferQueued retrainable 0 = false ∧ retrainDue retrainable 0 = true) ∧
    (({ live with media.channels := [(47, { training := some true })] } : State).media.channels.look {} 47).training = some true ∧
    (nextRate live 47 2 5 = some (2, 4) ∧ nextRate live 47 1 1 = none) ∧
    (((pairIn .settled up).power.pairs.look {} 7).phase = .settled ∧ (7 : Nat) < 8 ∧
      (List.range 6).all (fun i => (((pairIn .settled up).media.channels.look {} (6 * 7 + i)).training == none)
        && declaredOn (pairIn .settled up) (6 * 7 + i) == []) = true) := by decide

/-- A read whose codewords are at the hard decoders of its channel. -/
def decoding (u : OpOwner := .probe) : NandOp :=
  { running .read with state := .decoding, pending := [0], decoder := true, owner := u }

theorem witness_ChannelsServeOperations_operations :
    ((busy (running .program)).op 4 = some (running .program) ∧ (running .program).kind = .program ∧ (running .program).overdue = false ∧
      (busy { running .program with state := .suspending, overdue := true }).op 4 = some { running .program with state := .suspending, overdue := true }) ∧
    ((busy (running .read)).op 4 = some (running .read) ∧ ((busy (running .read)).lun 0).running = some 4) ∧
    ((busy (decoding)).op 4 = some (decoding) ∧ (decoding).state = .decoding ∧ (decoding).soft = false ∧
      decoding.decoder = true ∧ (decoding).pending ≠ [] ∧
      ((decoding).pending.filter fun p => !([({ position := 0, ok := true } : Decoded)].any fun x => x.ok && x.position == p)) = [] ∧
      ((decoding).pending.filter fun p => !([({ position := 0, ok := false } : Decoded)].any fun x => x.ok && x.position == p)) ≠ []) ∧
    ((busy { decoding with soft := true }).op 4 = some { decoding with soft := true }) ∧
    ((busy { running .erase with state := .suspending }).op 4 = some { running .erase with state := .suspending }) ∧
    (({ live with media.ops := [(4, { running .erase with state := .suspended })], media.luns := [(0, { suspended := some 4 })] } : State).lun 0
        = { suspended := some 4 } ∧
      resumeDue { due .suspHold 0 live with
        media.ops := [(4, { running .erase with state := .suspended })], media.luns := [(0, { suspended := some 4 })] } 0 = true ∧
      (∀ p ∈ [(4, { running .erase with state := .suspended })], p.2.kind ≠ .read)) := by decide

/-- A device with one operation and H at `h` motes. -/
def busyAt (o : NandOp) (h : Nat) : State := { busy o with time.hq := h * 2 ^ 32 }

/-- At each bound and one mote beyond. -/
theorem witness_TimeoutsOfDiesAct :
    ((busyAt { running .erase with state := .suspending } (2 ^ 40)).op 4 = some { running .erase with state := .suspending } ∧
      ((busyAt { running .erase with state := .suspending } (2 ^ 40)).geo 0).t_susp_max < (busyAt { running .erase with state := .suspending } (2 ^ 40)).run - 0) ∧
    (2 * longest (busyAt (running .read) (2 ^ 40)) (running .read) + 2 ^ 26 < 0 + ((busyAt (running .read) (2 ^ 40)).run - 0) ∧
      ((busyAt (running .read) (2 ^ 40)).lun 0).reset = false) ∧
    ([LedgerKind.read, .program, .erase].all fun k =>
      decide (2 * longest (busyAt (running k) (2 ^ 26)) (running k) < 0 + ((busyAt (running k) (2 ^ 26)).run - 0)) &&
      decide (0 + ((busyAt (running k) (2 ^ 26)).run - 0) ≤ 2 * longest (busyAt (running k) (2 ^ 26)) (running k) + 2 ^ 26)) = true ∧
    ((running .read).resensed = false ∧ (running .program).overdue = false ∧ (running .erase).overdue = false) ∧
    (({ due .dieReset 0 live with media.luns := [(0, { reset := true })] } : State).due .dieReset 0 = true ∧
      ({ live with media.luns := [(0, { reset := true })] } : State).lun 0 = { reset := true } ∧
      ({ due .dieReset 0 live with media.luns := [(0, { reset := true, running := some 4 })] } : State).lun 0 = { reset := true, running := some 4 }) ∧
    ((5 : Nat) + live.red.readTimeout.toNat
        ≤ ({ running .read with first := some 5 } : NandOp).wait_from.getD (busyAt { running .read with first := some 5 } (5 + live.red.readTimeout.toNat)).run ∧
      ({ running .read with first := some 5 } : NandOp).wait_from.getD (busyAt { running .read with first := some 5 } (4 + live.red.readTimeout.toNat)).run
        < 5 + live.red.readTimeout.toNat ∧
      ({ running .read with first := some 5, wait_from := some 6 } : NandOp).wait_from.getD (2 ^ 60) < 5 + live.red.readTimeout.toNat) ∧
    (({ due .probe 3 live with redun.dies := [(3, { becalmed := true })] } : State).due .probe 3 = true ∧
      ({ live with redun.dies := [(3, { becalmed := true })] } : State).die 3 = { becalmed := true } ∧ live.mode ≠ .patrol) := by decide

/-- A device whose thermal model runs, with every node at `t` degrees. -/
def warm (t : Int) (s : State) : State := { s with
  thm.status.running := true
  thermal.temps := List.replicate 14 (t * 2 ^ 32)
  thermal.params := List.replicate 14 ⟨0, 0, 1⟩ }

theorem witness_ThermalLoopActs :
    ((due .thermalStep 0 (warm 40 up)).due .thermalStep 0 = true ∧ (due .thermalStep 0 (warm 40 up)).thm.status.running = true ∧
      (warm 40 up).mode ≠ .thermalHalt) ∧
    up.thm.status.running = false ∧ (due .thermalCal 0 (warm 40 up)).due .thermalCal 0 = true ∧
    ((due .throttle 0 (warm 40 (upIn .flush))).due .throttle 0 = true ∧ (warm 40 (upIn .flush)).mode = .flush ∧
      (warm 40 (upIn .flush)).thm.status.running = true ∧ (warm 40 (upIn .thermalHalt)).mode = .thermalHalt ∧
      (due .throttle 0 (warm 40 up)).due .throttle 0 = true ∧ (warm 40 up).mode ≠ .flush) ∧
    (up.power_states.handshake = none ∧
      ({ up with power_states.handshake := some { target := 3, ctrl := 0, entry := none, waiting := [0x0A] } } : State).power_states.handshake
        = some { target := 3, ctrl := 0, entry := none, waiting := [0x0A] }) := by decide

/-- At the end of entry to Thermal Halt. -/
def halting (m : Mode) : State := { upIn m with
  thermal.entry := some .record, thermal.halt := some { composite := 0, node := 0, mode := 4, power_state := 0, halt := 110 } }

/-- The device once it is in Thermal Halt, with what arrived and was deferred. -/
def halted (d : Option Arrival) : State := tellStopped (haltOff (setMode .thermalHalt { writeHealthPage (postRest
  { ({ halting .run with reset_ctl.deferred := d } : State) with health.counts.halt_entries := 1 }) with
    thermal.entry := none, thermal.halt := none }))

theorem witness_ThermalLoopActs_entry :
    ((halting .run).thermal.entry = some .record ∧ (halting .start).thermal.entry = some .record ∧
      (halting .run).thermal.halt.isSome = true ∧ recordPending [2] (halting .run) = false ∧ recordPending [2] (halting .start) = false ∧
      (halting .run).mode ≠ .start ∧ (halting .start).mode = .start) ∧
    ((halted none).reset_ctl.deferred = none ∧ (halted (some { code := 2 })).reset_ctl.deferred = some { code := 2 } ∧
      (halted (some { code := 9 })).reset_ctl.deferred = some { code := 9 } ∧
      levelOf (halted (some { code := 2 })) 2 = 5 ∧ levelOf (halted (some { code := 9 })) 9 ≠ 5) := by decide

/-- A calibration in which every diode faults, and one in which diode 5 reads. -/
def calibrated (l : List DiodeReading) : State :=
  takeReading 6 .fault (each (List.range 6) (fun k => takeReading k (l.getD k .fault))
    (arm .thermalCal 0 up.thm.calInterval.toNat (due .thermalCal 0 (warm 40 up))))

theorem witness_ThermalLoopActs_calibration :
    ((∀ i, i < 6 → (calibrated []).thermal.excluded.has i = true) ∧ (calibrated []).thm.status.model_degraded = false) ∧
    ((5 : Nat) < 6 ∧ (calibrated [.fault, .fault, .fault, .fault, .fault, .value (40 * 256)]).thermal.excluded.has 5 = false) := by
  refine ⟨⟨?_, by decide⟩, by decide⟩
  decide

/-- One degree above, at and below each threshold. -/
theorem witness_ThermalLoopActs_temperatures :
    degrees up.thm.thresh.throttle.toNat ≤ (warm (up.thm.thresh.throttle.toNat) up).m ∧
    ({ warm (up.thm.thresh.throttle.toNat - up.thm.thresh.hyst.toNat - 1) up with thm.status.throttling := true } : State).m
      < degrees up.thm.thresh.throttle.toNat - degrees up.thm.thresh.hyst.toNat ∧
    ((warm (up.thm.thresh.throttle.toNat - 1) up).m < degrees up.thm.thresh.throttle.toNat ∧
      (warm (up.thm.thresh.throttle.toNat - 1) up).thm.status.throttling = false) ∧
    (warm (up.thm.thresh.halt.toNat - 1) up).m < degrees up.thm.thresh.halt.toNat ∧ up.thermal.halt = none ∧
    degrees up.thm.thresh.halt.toNat ≤ (warm up.thm.thresh.halt.toNat up).m := by decide

/-- Throttling, with a cap. -/
def throttling (a b : Bool) (cap : Nat) : State := { up with
  thm.status.throttling := true, thm.cfg.method_a := a, thm.cfg.method_b := b, thermal.cap := cap }

theorem witness_ThrottleRaisesCapThenLevel :
    (throttling true true 100000).thm.status.throttling = true ∧
    (throttling true true 100000).thm.cfg2.toNat < (throttling true true 100000).thermal.cap ∧
    (throttling true true (up.thm.cfg2.toNat)).thermal.cap ≤ (throttling true true (up.thm.cfg2.toNat)).thm.cfg2.toNat ∧
    (throttling true true (up.thm.cfg2.toNat)).thermal.loop_level < 2 := by decide

/-- A handshake to a state that waits for one participant. -/
def shaking (target code : Nat) (s : State := live) : State := { s with
  power_states.handshake := some { target := target, ctrl := 0, entry := none, waiting := [code] } }

/-- A return from Patrol at a step. -/
def returning (n : Nat) : State := { live with power_states.returning := some { step := n, target := 0, entry := none } }

theorem witness_HandshakesAndPatrolAdvance :
    ((shaking 4 7).power_states.handshake = some { target := 4, ctrl := 0, entry := none, waiting := [7] } ∧ ([7] : List Nat).contains 7 = true ∧
      refuses (shaking 4 7) 4 7 = false ∧ delays (shaking 4 7) 4 7 = false) ∧
    (delays (shaking 4 1 (having (entry 1 0x02) live)) 4 1 = true ∧
      refuses (shaking 4 3 { live with str.status.stays_lost := true }) 4 3 = true) ∧
    ((shaking 4 1 (due .handshake 0 (having (entry 1 0x02) live))).due .handshake 0 = true ∧
      [1].filter (delays (shaking 4 1 (due .handshake 0 (having (entry 1 0x02) live))) 4) ≠ []) ∧
    ((returning 2).power_states.returning = some { step := 2, target := 0, entry := none } ∧
      (returning 1).power_states.returning = some { step := 1, target := 0, entry := none } ∧
      (returning 3).power_states.returning = some { step := 3, target := 0, entry := none } ∧
      (∃ c ∈ ({ returning 4 with media.channels := [(47, { training := some true })] } : State).media.channels, c.2.training ≠ none) ∧
      (returning 4).power_states.returning = some { step := 4, target := 0, entry := none } ∧ live.media.channels = [] ∧
      (returning 5).power_states.returning = some { step := 5, target := 0, entry := none }) ∧
    (({ due .patrolPeriod 0 live with psm.status.in_force := 4, psm.patrolCfg.patrol_enable := true } : State).due .patrolPeriod 0 = true ∧
      ({ due .patrolPeriod 0 live with psm.status.in_force := 4 } : State).psm.status.in_force = 4 ∧
      live.power_states.returning = none ∧ live.power_states.cycle = none ∧ live.serving = true) ∧
    (({ live with power_states.cycle := some 5 } : State).power_states.cycle ≠ none ∧ live.power_states.samples = [] ∧
      (due .patrolQuarter 0 live).due .patrolQuarter 0 = true) := by
  refine ⟨by decide, by decide, by decide, ⟨by decide, by decide, by decide, ⟨(47, { training := some true }), by decide⟩, by decide, by decide, by decide⟩,
    by decide, by decide⟩

/-- A scrub pass of a range at an address. -/
def scrubbing (r a : Nat) : State := { live with memory.passes := [(r, { position := a })] }

/-- A device whose lane 3 holds a message, with nonces left or none. -/
def laneBusy (b : Bool) (n : Nat) : State := { live with
  security.lanes := [(3, { purpose := .other, sealing := b })], sec.nonceNext := 0, sec.nonceLimit := BitVec.ofNat 64 n }

theorem witness_EnginesFinish :
    ((laneBusy true 1).security.lanes.find 3 = some { purpose := .other, sealing := true } ∧ nonceLeft (laneBusy true 1) = true ∧
      nonceLeft (laneBusy true 0) = false ∧ (laneBusy false 0).security.lanes.find 3 = some { purpose := .other, sealing := false }) ∧
    (({ live with security.contexts := [(15, .pinCheck)] } : State).security.contexts.find 15 = some .pinCheck ∧
      EngineUse.compares .pinCheck = true ∧ EngineUse.compares .endMarker = false) ∧
    ({ live with security.checker := [(5, .manifestSignature)] } : State).security.checker = (5, .manifestSignature) :: [] := by decide

/-- The last word of each range and the address beyond it. -/
theorem witness_EnginesFinish_scrub :
    (([0, 1, 2, 3] : List Nat).all fun r =>
      (due (scrubTimer r) r live).due (scrubTimer r) r && scrubs (due (scrubTimer r) r live) r && scrubs (scrubbing r 0) r
        && !(due (scrubTimer r) r live).memory.passes.has r && (scrubbing r 0).memory.passes.has r
        && (scrubbing r 0).memory.passes.find r == some { position := 0 }) = true ∧
    (([0, 2, 3] : List Nat).all fun r => decide (scrubBytes r - scrubWord r < scrubBytes r) && scrubBytes r % scrubWord r == 0
        && (scrubBytes r - scrubWord r) % scrubWord r == 0) = true ∧
    (live.memory.cmb_valid.contains (2 ^ 25 / 4 - 1) = false ∧
      ({ live with memory.cmb_valid := [0] } : State).memory.cmb_valid.contains (0 / 4) = true) := by decide

theorem witness_TeaselCommandsAct :
    live.teaselOn = true ∧ live.isHeld .cmd = false ∧ ({ key := 0x7FFFFFFFFFFF } : TslEntry).inSpace = true ∧
    (TslSearch.n { banks := 1, key := 0, n := 4096 }) ≤ 4096 ∧ tslFree live 32768 16384 = some 32768 ∧
    tslFree live 49152 8192 = some 49152 ∧ (32768 : Nat) ≤ 57343 ∧ (57343 : Nat) < 57344 := by decide

/-- Where `n` entries from address `a` are valid no free slot is found among them. -/
theorem tslFree_full (s : State) : ∀ n a, (∀ i, i < n → (s.tslAt (a + i)).valid = true) → tslFree s a n = none
  | 0, _, _ => rfl
  | n + 1, a, h => by
    have h0 : (s.tslAt a).valid = true := h 0 (Nat.succ_pos n)
    rw [tslFree, if_pos h0]
    refine tslFree_full s n (a + 1) fun i hi => ?_
    rw [Nat.add_assoc, Nat.add_comm 1 i]
    exact h (i + 1) (Nat.succ_lt_succ hi)

/-- A table that lists one value at `n` indexes from `a` has it at each. -/
theorem find_run (v : TslEntry) : ∀ n a i, i < n → Tab.find ((List.range' a n).map fun k => (k, v)) (a + i) = some v
  | 0, _, i, h => absurd h (Nat.not_lt_zero i)
  | n + 1, a, i, h => by
    rw [List.range'_succ, List.map_cons, Tab.find]
    split
    · rfl
    · rename_i hne
      obtain ⟨j, rfl⟩ : ∃ j, i = j + 1 := ⟨i - 1, by omega⟩
      have e : a + (j + 1) = a + 1 + j := by omega
      rw [e]
      exact find_run v n (a + 1) j (Nat.lt_of_succ_lt_succ h)

/-- A Teasel whose `n` entries from address `a` are valid. -/
def crowded (a n : Nat) : State := { live with teasel.entries := (List.range' a n).map fun k => (k, { valid := true }) }

/-- Every entry of a group is valid. -/
theorem witness_TeaselCommandsAct_full :
    tslFree (crowded 32768 16384) 32768 16384 = none ∧ tslFree (crowded 49152 8192) 49152 8192 = none := by
  constructor <;> refine tslFree_full _ _ _ fun i hi => ?_ <;> unfold State.tslAt crowded Tab.look <;> rw [find_run _ _ _ i hi] <;> rfl
/-- A device with link `n` in a state and at a training step. -/
def linked (st : BitVec 4) (step : Nat) (s : State := live) : State := { s with
  kk.linkStatus0 := { state := st, peer := 1 }, keaka.link0 := { step := step, rx_seq := 5 } }

/-- The same with the other end of link 0 a yard whose Ident frame matches. -/
def matched : State := { linked 1 5 with keaka.yards := [(1, { ident_ok := true })] }

theorem witness_KeakaLinksTrainAndFail :
    (0 : Nat) < 2 ∧ (1 : Nat) < 2 ∧
    ((linked 1 1).isHeld .keaka = false ∧ ((linked 1 1).link 0).step = 1 ∧
      ({ linked 1 1 with pads.present := 1 } : State).pads.present.getLsbD 0 = true ∧ ((linked 1 2).linkStatus 0).state = 1 ∧ ((linked 3 3).linkStatus 0).state = 3 ∧
      ((linked 1 2).link 0).step = 2 ∧ ((linked 1 3).link 0).step = 3 ∧ ((linked 1 4).link 0).step = 4 ∧ ((linked 1 5).link 0).step = 5 ∧
      (matched.keaka.yards.look {} (matched.linkStatus 0).peer.toNat).ident_ok = true) ∧
    ((linked 1 4).linkUp 0 = false ∧ (frameOf 1).src = ((linked 1 4).linkStatus 0).peer.toNat) ∧
    ((linked 2 6).linkUp 0 = true ∧ (linked 4 6).linkUp 0 = true ∧ (linked 2 6 (due .kkHeartbeat 0 live)).due .kkHeartbeat 0 = true ∧
      (linked 2 6 (due .kkAck 0 live)).due .kkAck 0 = true ∧
      (({ linked 2 6 with keaka.link0.replay := [{ type := 0x3F, src := 0, dst := 1 }] } : State).link 0).replay ≠ [] ∧
      (linked 2 6 (due .kkLink 0 live)).due .kkLink 0 = true ∧ (frameOf 1).seq ≠ ((linked 2 6).link 0).rx_seq) ∧
    ((due .kkJoin 0 live).due .kkJoin 0 = true ∧ (due .kkJoin 0 live).yard = false) ∧
    ((due .yardDialog 0 yardUp).yard = true ∧ (due .yardDialog 0 yardUp).due .yardDialog 0 = true ∧
      yardUp.camp.status.floor_seeded = true ∧ yardUp.linkUp 0 = false ∧
      (linked 2 6 (due .yardDialog 0 yardUp)).linkUp 0 = true) := by decide

/-- A frame in order for a position. -/
def inOrder (dst : Nat) : KkHeader := { src := 1, dst := dst, seq := 5, ack := 0, tag := 7 }

/-- The masthead, and a yard, once the frame has been accepted. -/
def taken (dst : Nat) (s : State) : State := acceptFrame 0 (inOrder dst) (linked 2 6 s)

theorem witness_KeakaFramesTakeEffect_masthead :
    ((linked 2 6).linkUp 0 = true ∧ (inOrder 0).seq = ((linked 2 6).link 0).rx_seq ∧ (inOrder 2).dst ≠ (linked 2 6).position ∧
      (inOrder 0).dst = (linked 2 6).position) ∧ (taken 0 live).yard = false ∧
    ((taken 0 (having (writing true false) live)).nvme.tracker.find (tagEntry (inOrder 0).tag) = some (writing true false) ∧
      (writing true false).sqe.opcode = 0x01 ∧ (writing true false).sqid ≠ 0) ∧
    ((taken 0 (having (entry 1 0x02) live)).nvme.tracker.find (tagEntry (inOrder 0).tag) = some (entry 1 0x02) ∧
      (entry 1 0x02).sqe.opcode ≠ 0x01) ∧
    ((({ taken 0 live with keaka.admin := [{ entry := 7, body := [0], asked := some 1, waiting := [] }] } : State).keaka.admin.any fun a =>
      a.entry == 7 && a.asked == some 1) = true) ∧
    (({ taken 0 live with power_states.handshake := some { target := 3, ctrl := 0, entry := none, waiting := [0x0B] } } : State).power_states.handshake
      = some { target := 3, ctrl := 0, entry := none, waiting := [0x0B] }) ∧
    ([1].filter fun p => p != (inOrder 0).src) = [] ∧ ([1, 2].filter fun p => p != (inOrder 0).src) ≠ [] := by decide

/-- The parent of a yard's read whose data comes from yard 1, and a namespace that lies there. -/
theorem witness_KeakaFramesTakeEffect_read :
    (({ entry 1 0x02 { nsid := 1 } with remote_left := [0, 1] } : Entry).remote_left.filter fun u =>
      deviceOf { taken 0 live with kk.cfg.layout := 3, nvme.namespaces := [(0, { nsze := 1024, home := 1 })] } 0 u == 1) = [0, 1] := by decide

theorem witness_KeakaFramesTakeEffect_yard :
    (linked 2 6 yardUp).linkUp 0 = true ∧ (inOrder 1).seq = ((linked 2 6 yardUp).link 0).rx_seq ∧ (inOrder 1).dst = (linked 2 6 yardUp).position ∧
    (taken 1 yardUp).yard = true ∧ sliceRefusal (taken 1 yardUp) = 0 ∧
    sliceRefusal (taken 1 { yardUp with mode := .readOnly }) ≠ 0 ∧
    (({ yardUp with keaka.request := some 9 } : State).keaka.request = some 9 ∧ (taken 1 yardUp).h ≤ 9 + 2 ^ 22) ∧
    (taken 1 yardUp).keaka.slices = [] ∧ (taken 1 yardUp).nvme.tracker.find 7 = none ∧
    (chunkRuns (linked 2 6 { yardUp with engine.chunks := [(0, (0, 0))] }) 0 (0, 1)).length ≤ recordRoom (linked 2 6 { yardUp with engine.chunks := [(0, (0, 0))] }) ∧
    chunkRuns (linked 2 6 { yardUp with engine.chunks := [(0, (0, 0))] }) 0 (0, 1) = [(0, 1)] ∧
    ((taken 1 yardUp).serving = true ∧ (taken 1 yardUp).power_states.returning = none ∧ (taken 1 yardUp).power_states.handshake = none ∧ (1 : Nat) ≠ 0) := by
  decide

theorem witness_StepRunsTheFrontCommand : up.pending = [] ∧ step { up with pending := [.tapReset] } = .next (loadInstruction 1 up) := by
  exact ⟨rfl, rfl⟩

theorem witness_EveryStepKeepsTheStateSound :
    Sound [.tapReset] { up with pending := [.tapReset] } ∧ step { up with pending := [.tapReset] } = .next (loadInstruction 1 up) := by
  exact ⟨by unfold Sound; decide, rfl⟩

theorem witness_QueueAllocationIsFixedOnce :
    fetchedEntry 7 true 0x09 (having (setting 7 0x00FF00FF) live) = some (setting 7 0x00FF00FF) ∧ (setting 7).sqe.fid = 0x07 ∧
    (setting 7).sqe.save = false ∧ (live.ctrl 0).granted = none ∧ (({ live with nvme.ctrl0.granted := some (1, 1) } : State).ctrl 0).granted ≠ none ∧
    (setting 7 0x0000FFFF).sqe.cdw11.toNat % 2 ^ 16 = 65535 ∧
    fetchedEntry 7 true 0x05 (having (entry 0 0x05 { cdw10 := 0x70800, cdw11 := 1 }) live) = some (entry 0 0x05 { cdw10 := 0x70800, cdw11 := 1 }) ∧
    createCqStatus (having (entry 0 0x05) live) (entry 0 0x05 { cdw10 := 0x70800, cdw11 := 1 }) = 0 ∧
    fetchedEntry 7 true 0x01 (having (entry 0 0x01 { cdw10 := 0x70002, cdw11 := 0x10001 }) live) = some (entry 0 0x01 { cdw10 := 0x70002, cdw11 := 0x10001 }) ∧
    createSqStatus (having (entry 0 0x01) live) (entry 0 0x01 { cdw10 := 0x70002, cdw11 := 0x10001 }) = 0 := by decide

/-- An entry already in the slot: read by the host, and not read. -/
def wrapped (host : BitVec 32) : State := { up with
  evt.ringSeq := 4096, evt.hostSeq := host
  events.ring := [(1, { seq := 1, stamp := {}, draft := { source := 0 } })] }

theorem witness_EventRingTakesEntries :
    ((4096#32).toNat + 1) % 2 ^ 32 % 4096 = 1 ∧
    ((wrapped 0).events.ring.find 1 = some { seq := 1, stamp := {}, draft := { source := 0 } } ∧ (wrapped 0).evt.hostSeq.toNat < 1) ∧
    (1 : Nat) ≤ (wrapped 1).evt.hostSeq.toNat ∧ up.events.ring.find 1 = none ∧
    ({ up with evt.enable := [(0, 0)] } : State).sourceOn 1 = false := by decide

/-- An error in handling. -/
def handled (id : Nat) : HandlerError := { id := id, kind := 1, source := 7, serials := [], stamp := {} }

theorem witness_ErrorHandlerTakesAndEndsErrors :
    live.handlerOn = true ∧ live.events.slot0 = none ∧
    (({ live with events.slot0 := some (handled 1) } : State).events.slot0 = some (handled 1) ∧ live.events.slot1 = none) ∧
    (({ live with events.slot0 := some (handled 1), events.slot1 := some (handled 2) } : State).events.slot1 = some (handled 2)) ∧
    0 ∈ live.enabledCtrls := by decide

theorem witness_ErrorLogKeepsTheNewest : ({ source := 0, kind := 1, target := 0 } : ErrorDraft).target = 0 := by decide

/-- Two entries of the overlap bank that one key meets, the second of higher prio. -/
def twoHits : State := { up with teasel.entries :=
  [(32768, { valid := true, key := 4, len := 8 }), (32770, { valid := true, prio := 3, key := 6, len := 8 })] }

theorem witness_TeaselSearchFindsTheFirst :
    Tab.ok twoHits.teasel.entries = true ∧
    (tslSearch twoHits { banks := 0x0F00, key := 7 }).hit = true ∧ (tslSearch twoHits { banks := 0x0F00, key := 7 }).address = 32770 ∧
    (tslSearch twoHits { banks := 0x0F00, key := 7 }).count = 2 ∧ (tslSearch twoHits { banks := 0x0F00, key := 4 }).address = 32768 ∧
    (tslSearch twoHits { banks := 0x0F00, key := 12 }).address = 32770 ∧ (tslSearch twoHits { banks := 0x0F00, key := 15 }).hit = false := by
  decide

theorem witness_TeaselInsertsTakeTheirAddress :
    (49152, 8192) = groupSpan .stripes ∧ (tslFreeSlot .stripes { key := 1 } up).1 = some 49152 ∧
    (tslFreeSlot .stripes { key := 1 } { up with teasel.entries := [(49152, { valid := true })] }).1 = some 49153 ∧
    up.teasel.ring < 8192 ∧ ((tslRing { key := 1 } { up with teasel.ring := 8191 }).teasel.ring = 0) ∧
    (tslRing { key := 1 } up).teasel.entries.find 57344 = some { key := 1, valid := true } := by decide

/-- A group without a free entry refuses its insert. -/
theorem freeSlot_full (g : TslGroup) (e : TslEntry) (s : State) (lo n : Nat) (hg : groupSpan g = (lo, n))
    (h : tslFree s lo n = none) : (tslFreeSlot g e s).1 = none := by
  unfold tslFreeSlot
  rw [hg]
  simp only [h]

theorem witness_TeaselInsertsTakeTheirAddress_full : ∃ s, (tslFreeSlot .stripes { key := 1 } s).1 = none :=
  ⟨crowded 49152 8192, freeSlot_full .stripes _ _ 49152 8192 rfl witness_TeaselCommandsAct_full.2⟩

theorem witness_FaultBallFollowsTheState :
    released State.reset .mgmt = true ∧ State.reset.mode = .hold ∧ (released up .mgmt = false ∧ up.mode ≠ .hold) ∧
    (up.mgmt.modeStatus.start_fail = 0 ∧ up.nvme.ctrl0.cfs = false ∧ up.nvme.ctrl1.cfs = false ∧ up.mode ≠ .start) ∧
    (faultBall (upIn .readOnly) = .low ∧ faultBall up = .highZ ∧ faultBall { up with nvme.ctrl1.cfs := true } = .low) ∧
    (({ up with nvme.act_led := true } : State).nvme.act_led = true ∧ up.nvme.act_led = false) := by decide

/-! ### Worked examples of the spec -/

/-- R60: at the nominal rate one cycle of 400 MHz adds 2^64 / (4 x 10^8) units of 2^-32 motes. -/
theorem test_rate_nominal : rateOf 0 = 46116860184 := by decide

/-- Chapter 9, the example of R367: the entry's own numbers, die 982, plane 2, block 1,234, page 640, unit 1. -/
theorem test_physical_unit_address : puaOf 982 2 1234 640 1 = 0x1EB49A4A01 := by decide

/-- The same example read backwards from the address. -/
theorem test_physical_unit_fields : puaDie 0x1EB49A4A01 = 982 ∧ puaPlane 0x1EB49A4A01 = 2 ∧ puaBlock 0x1EB49A4A01 = 1234
    ∧ puaPage 0x1EB49A4A01 = 640 ∧ puaUnit 0x1EB49A4A01 = 1 := by decide

/-- Chapter 8, the example of R330: 16 MiB from unit 384 is a slice of 128 units, fifteen of 256 and one of 128. -/
theorem test_write_slices : (cutUnits 256 18 (384, 4096)).map Prod.snd = [128] ++ List.replicate 15 256 ++ [128] := by decide

/-- Chapter 7, the example of R293: window 3 (base 96, 32 pages) serves BAR2 offset 0x0061_0000 from SRAM 0x0061_0000. -/
theorem test_window_before : cmbResolve { up with
    pcie.cfg.cmb_enable := true
    pcie.cmbWin := [(3, { base := 96, len := 32, enable := true, port := false, host_read := true, host_write := true })] }
    0 0x00610000 true = some 0x00610000 := by decide

/-- The rewritten window 3 (base 400, 16 pages) serves the same offset from SRAM 0x0191_0000, and not offset 0x0070_0000. -/
theorem test_window_after : ∀ s, s = { up with
      pcie.cfg.cmb_enable := true
      pcie.cmbWin := [(3, windowFields 0xB000001001900000)] } →
    cmbResolve s 0 0x00610000 true = some 0x01910000 ∧ cmbResolve s 0 0x00700000 false = none := by
  intro s h
  subst h
  decide

/-- Chapter 18, the example of R687: a probe of the slice entry reads the two words of the example. -/
theorem test_teasel_probe : ∀ s, s = { up with teasel.entries := [(5, { sliceEntry
        { ns_index := 2, first := 1200, units := 256, stamp := 3 * 2 ^ 32 } 0x123 with valid := true })] } →
    ∃ t, exec (.teaselProbe 5) s = .next t ∧ t.tsl.probeHi = 0x807F8040000004B0 ∧ t.tsl.probeLo = 0x0003000000000123 := by
  intro s h
  subst h
  exact ⟨_, rfl, by decide, by decide⟩

/-- Chapter 14, the example of R582: node N3 moves toward 82.50 degrees by 1/16,384 of the difference. -/
theorem test_thermal_target : nodeStep { up with
    thermal.board := degrees 42
    thermal.params := [⟨6 * 256, 0, 2 ^ 20⟩]
    thermal.temps := [degrees 75]
    thermal.corr := [3 * 2 ^ 31] } 0 (6500, 1) = degrees 75 + 15 * 2 ^ 31 / 16384 := by decide

/-- Chapter 14, the same example: the caps of the falling loop, and of the rising one. -/
theorem test_throttle_caps : ∀ c : Nat → State, (c = fun n => { up with
      thm.cfg.method_a := true
      thm.cfg2 := 8000
      thm.status.throttling := true
      thermal.cap := n }) →
    [40000, 35000, 30625, 26796].map (fun n => (throttleUp (c n)).thermal.cap) = [35000, 30625, 26796, 23446]
    ∧ [23446, 26376, 29673, 33382].map (fun n => (throttleDown (c n)).thermal.cap) = [26376, 29673, 33382, 37554] := by
  intro c h
  subst h
  decide

/-- Chapter 4, the example of R164: 6,800 uF reach 64 MiB at 19.68 V and 1,024 MiB about 31.68 V; 3,000 uF give 400 MiB at 35 V. -/
theorem test_shroud_allowance : ∀ c : Nat → State, (c = fun u => { State.reset with
      manifest.applied := true
      pwr.bankCap.cap_uf := BitVec.ofNat _ u }) →
    allowance (c 6800) 19600 < 64 ∧ 64 ≤ allowance (c 6800) 19680
    ∧ allowance (c 6800) 31670 < 1024 ∧ allowance (c 6800) 31690 = 1024 ∧ allowance (c 3000) 35000 = 400 := by
  intro c h
  subst h
  decide

/-- Chapter 16, the example of R642: the bytes of the first nonce of lane 2 on a device whose serial number ends in 0x0012_3456. -/
theorem test_first_nonce (h : Config.serialNumber.toNat % 2 ^ 26 = 0x00123456) :
    leBytes 12 (gcmNonce up 2 0x0C00000000340000) = [0x56, 0x34, 0x12, 0x20, 0, 0, 0x34, 0, 0, 0, 0, 0x0C] := by
  unfold gcmNonce
  rw [h]
  decide

/-! ### The block's interface -/

/-- No row of the table gives its command any bits, so no word spells a command. -/
theorem test_no_word_spells_a_command : decodeTableWord 8 0 = none ∧ decodeTableWord 64 1 = none := by decide

/-- The first command of the queue is taken first, and the queue keeps the rest. -/
theorem test_first_in_first_out : ∃ t, step { State.reset with pending := [.teaselShiftMove, .throttleTest] } = .next t
    ∧ t.pending = [.throttleTest] := ⟨_, rfl, by decide⟩

end Sys2Proof.Tests
end

section
/-!
PROOFS. The scope of the device: every command goes on, a step runs the front command, the state after reset, the stamp
commands and the register accesses.
-/

namespace Sys2Proof.Machine

/-! ### Every command goes on (R11) -/

theorem goesOn.next (t : State) : goesOn (.next t) := ⟨t, rfl⟩

theorem goesOn.ite {c : Prop} [Decidable c] {a b : Host.Outcome State Fault Refusal} (ha : goesOn a) (hb : goesOn b) :
    goesOn (if c then a else b) := by
  split <;> assumption

theorem runEntry_goesOn (t : Nat) (admin : Bool) (opcode : Nat) (f : Entry → State → State) (s : State) :
    goesOn (runEntry t admin opcode f s) := by
  unfold runEntry
  split <;> exact .next _

theorem runReservation_goesOn (t opcode : Nat) (f : Entry → Namespace → Nat → State → State) (s : State) :
    goesOn (runReservation t opcode f s) :=
  runEntry_goesOn ..

/-- No meaning of any command answers with a fault or a refusal (R11). -/
theorem exec_goesOn (c : Instr) (s : State) : goesOn (exec c s) := by
  cases c with
  -- The meaning, or the operation it shares with others (a frame received, a sideband request, a feature set, a method
  -- or a commit run), answers with one next state: what turns the command away stands within that state.
  | ledgerAdmit | perst0Assert | perst1Assert | nvmSubsystemReset | kl0RstAssert | reservationWriteDone
  | campIssueRead | tapReset | extest | clampTap | highz | bypass | basicManagementRead | readNvmeMiDataStructure
  | configurationGet | configurationSet | subsystemHealthStatusPoll | controllerHealthStatusPoll
  | tunnelledAdminCommand | nvmeMiInvalidOpcode | busMasterEnableClear | busMasterEnableSet | initiateFlr | d3hotEntry
  | configWrite | cmbRead | cmbWrite | cmbFenceEnd | sqTailDoorbell | cqHeadDoorbell | controllerEnable
  | controllerReset | shutdownNormal | shutdownAbrupt | sqEntryFetch | sliceAdmit | pieceHeld | commandComplete
  | setFeaturesArbitration | setFeaturesPowerManagement | setFeaturesTemperatureThreshold | setFeaturesNumberOfQueues
  | setFeaturesInterruptCoalescing | setFeaturesInterruptVectorConfig | setFeaturesWriteAtomicity
  | setFeaturesAsyncEventConfig | setFeaturesPlmConfig | setFeaturesPlmWindow | setFeaturesHostIdentifier
  | setFeaturesReservationNotifMask | setFeaturesReservationPersistence | namespaceCreate | namespaceDelete
  | firmwareCommitWrite | firmwareCommitWriteActivate | firmwareCommitActivate | formatNvm | opalSetLock
  | opalSetRange | opalGenkey | opalRevert | opalAuthenticate | tperReset | invalidCommandOpcode | sequencerGrant
  | handshakeReply | handshakeTimeout | patrolReturnStep | patrolWake | patrolSampleEnd | keakaLinkTrainingStep
  | frameReceiveError | linkControl | timeRequest | timeResponse | yardTimeDialogInterval | floorReport | floorSet
  | sliceOpen | writeData | sliceStatus | releaseFrame | abortFrame | readRequest | readData | readStatus
  | adminForward | adminResult | powerStateRequest | powerStateReply | eventForward | heartbeat | keakaHeartbeatSend
  | keakaAckTimeout | keakaLaneLockLoss | keakaLinkTimeout | keakaJoinTimeout | errorHandlingEnd =>
    exact .next _
  -- Rows that act on a command fetched for them.
  | manifestTransfer | manifestInstall | createIoCompletionQueue | createIoSubmissionQueue | deleteIoSubmissionQueue
  | deleteIoCompletionQueue | getLogPage | identify | abortCommand | getFeatures | setFeaturesUnsupported
  | asynchronousEventRequest | namespaceAttachment | firmwareImageDownload | nvmeMiSend | nvmeMiReceive
  | securityReceive | resumeQueue | ioFlush | ioWrite | ioRead | ioCompare | ioWriteZeroes | datasetManagement
  | ioVerify | reservationReport =>
    dsimp only [exec, execManifestTransfer, execManifestInstall, execCreateIoCompletionQueue,
      execCreateIoSubmissionQueue, execDeleteIoSubmissionQueue, execDeleteIoCompletionQueue, execGetLogPage,
      execIdentify, execAbortCommand, execGetFeatures, execSetFeaturesUnsupported, execAsynchronousEventRequest,
      execNamespaceAttachment, execFirmwareImageDownload, execNvmeMiSend, execNvmeMiReceive, execSecurityReceive,
      execResumeQueue, execIoFlush, execIoWrite, execIoRead, execIoCompare, execIoWriteZeroes, execDatasetManagement,
      execIoVerify, execReservationReport]
    exact runEntry_goesOn ..
  | reservationRegister | reservationAcquire | reservationRelease =>
    dsimp only [exec, execReservationRegister, execReservationAcquire, execReservationRelease]
    exact runReservation_goesOn ..
  -- Conditions turn the command away or let it act.
  | coldPowerOn | railPowerUpStep | railPowerGoodTimeout | railRetryTimer | powerOnResetRelease | strapChangeDetected
  | vinFallDark | vinOvervoltage | powerLossDetected | bankBelowVmin | vinReturnInHold | railFault | npgSettled
  | npgTimeout | pairRetryTimer | bankTargetReached | bankChargeRestart | bankOvervoltage | bankTestInterval
  | bankMeasureDone | allowanceUpdate | chargeTimeout | holdResetRelease | clockNotReady | pllLockRetry
  | startStepComplete | watchdogStage1 | recoveryImage | ptmDialogInterval | ptmResponseTimeout | holdoverExpiry
  | clampEnd | campRedialog | campEpochOffsetWrite | actLedTimeout | idcode | samplePreload | hotResetOrLinkDown
  | flrComplete | cmbWindowWrite | tagQuarantineExpiry | poisonedWriteReceived | malformedTlpReceived
  | linkCorrectableError | endpointInternalError | stripeApply | stayPageFlushAge | mapPageWritebackAge
  | checkpointInterval | foldAge | streamEnd | countsReady | eraseIssue | idleDetect | dtwinTimeout | channelRetrain
  | discoveryComplete | lunResetTimeout | probeInterval | thermalModelStep | thermalCalibration | scrubPassStart
  | teaselSearch | teaselSearchInsert | teaselOrderedInsert | teaselRingInsert | teaselRemoveByAddress
  | teaselRemoveByMatch | teaselShiftMove | teaselProbe | identFrame | recordFrame | coalescingTimer | pcieLinkUp =>
    (repeat' apply goesOn.ite) <;> exact .next _
  -- What the command acts on may not be there.
  | spillRecordWritten | flushEnd | pairEnableStagger | l4ReachAsserted | watchdogStage2 | bootArrayRequest
  | bootArrayPulseDone | ptmResponse | wideRegisterLowerRead | readCompletionReceived | completionTimeout
  | stripePadAge | programComplete | stayPageDurable | stayRepairDone | mapPageArrival | checkpointComplete
  | reclaimVictimSelect | eraseComplete | channelTrainingDone | readSenseComplete | hardDecodeComplete
  | softDecodeComplete | suspendComplete | suspendResume | dieOpTimeout | lunResetReady | becalmedReadTimeout
  | rebuildStripeVisit | reshapeCutover | clockLevelEffective | thermalHaltEntryComplete | gcmMessageDone | digestDone
  | signatureVerifyDone | scrubWordRead =>
    dsimp only [exec, execSpillRecordWritten, execFlushEnd, execPairEnableStagger, execL4ReachAsserted,
      execWatchdogStage2, execBootArrayRequest, execBootArrayPulseDone, execPtmResponse, execWideRegisterLowerRead,
      execReadCompletionReceived, execCompletionTimeout, execStripePadAge, execProgramComplete, execStayPageDurable,
      execStayRepairDone, execMapPageArrival, execCheckpointComplete, execReclaimVictimSelect, execEraseComplete,
      execChannelTrainingDone, execReadSenseComplete, execHardDecodeComplete, execSoftDecodeComplete,
      execSuspendComplete, execSuspendResume, execDieOpTimeout, execLunResetReady, execBecalmedReadTimeout,
      execRebuildStripeVisit, execReshapeCutover, execClockLevelEffective, execThermalHaltEntryComplete,
      execGcmMessageDone, execDigestDone, execSignatureVerifyDone, execScrubWordRead]
    (repeat' split) <;> exact .next _
  -- The mode decides.
  | pwrdisAssert | pwrdisDeassert | vinReturnInFlush | npgLoss | domainRelease | nvmeMiSubsystemReset | throttleTest =>
    dsimp only [exec, execPwrdisAssert, execPwrdisDeassert, execVinReturnInFlush, execNpgLoss, execDomainRelease,
      execNvmeMiSubsystemReset, execThrottleTest]
    (repeat' split) <;> exact .next _
  -- The operand says which of several effects it is.
  | starvationCeilingReached | clockLoss | registerWrite | bar0Access | msixTableAccess | teaselFreeSlotInsert
  | securitySend =>
    dsimp only [exec, execStarvationCeilingReached, execClockLoss, execRegisterWrite, execBar0Access,
      execMsixTableAccess, execTeaselFreeSlotInsert, execSecuritySend]
    (repeat' split) <;> exact .next _

/-! ### Steps -/

theorem step_of_pending (c : Instr) (l : List Instr) (s : State) :
    step { s with pending := c :: l } = exec c { s with pending := l } := rfl

theorem step_of_empty {s : State} (h : s.pending = []) : step s = .next (tick s) := by
  simp only [step, h]

/-- Settles O52: a step on a command is its meaning, and every meaning goes on. -/
theorem everyCommandGoesOn : Obligations.EveryCommandGoesOn := by
  unfold Obligations.EveryCommandGoesOn
  intro c s
  refine ⟨exec_goesOn c s, ?_⟩
  rw [step_of_pending]
  exact exec_goesOn c _

/-- Settles O49: by what a step does with a command waiting and with none. -/
theorem stepRunsTheFrontCommand : Obligations.StepRunsTheFrontCommand := by
  unfold Obligations.StepRunsTheFrontCommand
  intro s c l
  exact ⟨step_of_pending c l s, step_of_empty, fun _ h => (step_of_pending c l s).symm.trans h⟩

/-! ### The state after reset (R24, R46, R73) -/

theorem reset_isHeld (d : Domain) : State.reset.isHeld d = true := by
  cases d <;> decide

theorem reset_ctrl (c : Nat) : State.reset.ctrl c = {} := by
  unfold State.ctrl
  split <;> rfl

/-- Settles O53: field by field, the domains and the controllers each by their own lemma. -/
theorem resetLeavesTheStatedValues : Obligations.ResetLeavesTheStatedValues := by
  unfold Obligations.ResetLeavesTheStatedValues
  refine ⟨rfl, rfl, rfl, reset_isHeld, rfl, rfl, rfl, rfl, rfl, rfl, rfl, rfl, rfl, fun c => ?_⟩
  rw [reset_ctrl]
  exact ⟨rfl, rfl, rfl⟩

/-! ### Stamps and memory requests (R62 to R65, R83, R98, R271) -/

theorem settle_of_idle {s : State} (h : s.time.reserving = none) : settle s = s := by
  simp only [settle, h]

theorem settle_of_reserving {s : State} {v : Nat} (h : s.time.reserving = some v) :
    settle s = each s.time.waiting issueTo
      (each s.time.handout (fun p s => deliver p.2 ⟨BitVec.ofNat 64 p.1, true⟩ (setLast p.1 s))
        (setReservation v { s with time.reserving := none, time.handout := [], time.waiting := [] })) := by
  simp only [settle, h]

/-- Once the floor is seeded and no reservation write is open, a stamp is issued at once (R62, R65). -/
theorem takeStamp_of_idle {s : State} (hf : s.camp.status.floor_seeded = true) (hr : s.time.reserving = none) :
    takeStamp s = issueNow s := by
  simp only [takeStamp, hf, if_true, settle_of_idle hr]

theorem issueRead_of_unseeded {s : State} (h : s.camp.status.floor_seeded = false) :
    issueRead s = (0, { s with time.latched := s.time.latched.put 0x10008 0 }) := by
  simp [issueRead, h]

theorem issueRead_of_idle {s : State} (hf : s.camp.status.floor_seeded = true) (hr : s.time.reserving = none) :
    issueRead s = ((issueNow s).1.stamp.toNat % 2 ^ 32, { (issueNow s).2 with
      camp.status.issue_unanch := (issueNow s).1.unanch
      time.latched := (issueNow s).2.time.latched.put 0x10008 ((issueNow s).1.stamp.toNat / 2 ^ 32) }) := by
  simp only [issueRead, hf, if_true, takeStamp_of_idle hf hr]

theorem memoryRead_of_open {s : State} {n : Nat} (f : State → State) (hr : s.reachable n = true)
    (ho : memoryOpen s n = true) : memoryRead n f s = f s := by
  simp [memoryRead, hr, ho]

theorem memoryWrite_of_open {s : State} {n : Nat} (f : State → State) (hr : s.reachable n = true)
    (ho : memoryOpen s n = true) : memoryWrite n f s = f s := by
  simp [memoryWrite, hr, ho]

/-- A CAMP_ISSUE read that reaches the register answers with what the read issues (R98). -/
theorem exec_campIssueRead_of_open {s t : State} {p v : Nat} (hr : s.reachable p = true) (ho : memoryOpen s p = true)
    (hd : s.isHeld .mgmt = false) (hi : issueRead s = (v, t)) :
    exec (.campIssueRead p) s = .next (say (.readData p 0 (leBytes 4 v)) t) := by
  show execCampIssueRead p s = _
  simp [execCampIssueRead, memoryRead_of_open _ hr ho, hd, hi]

theorem offsetWritten_of_low {s : State} {v : Nat} (h : offsetTest s v < 0xFFFF000000000000) :
    offsetWritten v s = { s with camp.epochOffset := BitVec.ofNat 64 v, time.offset_written := true } := by
  rw [offsetWritten, if_neg (by omega)]

theorem offsetWritten_of_high {s : State} {v : Nat} (h : 0xFFFF000000000000 ≤ offsetTest s v) :
    offsetWritten v s = raise (src 1 3) 0 [] { s with camp.status.offset_rejected := true } := by
  rw [offsetWritten, if_pos h]

theorem exec_campEpochOffsetWrite_of_released {s : State} (v : BitVec 64) (h : s.isHeld .mgmt = false) :
    exec (.campEpochOffsetWrite v) s = .next (offsetWritten v.toNat s) := by
  show execCampEpochOffsetWrite v s = _
  simp [execCampEpochOffsetWrite, h]

/-- Settles O6: each command by the case of the operation under it. -/
theorem stampCommandsComplete : Obligations.StampCommandsComplete := by
  unfold Obligations.StampCommandsComplete
  refine ⟨?clamp, ?writeDone, ?idle, ?unseeded, ?seeded, ?accepted, ?rejected⟩
  case clamp =>
    intro s hc hl
    show execClampEnd s = _
    simp [execClampEnd, hc, hl]
  case writeDone =>
    intro s v h
    exact congrArg _ (settle_of_reserving h)
  case idle =>
    intro s h
    exact congrArg _ (settle_of_idle h)
  case unseeded =>
    intro s p hr ho hd hf
    have hz : leBytes 4 0 = [0, 0, 0, 0] := by decide
    rw [exec_campIssueRead_of_open hr ho hd (issueRead_of_unseeded hf), hz]
  case seeded =>
    intro s p hr ho hd hf hi
    exact exec_campIssueRead_of_open hr ho hd (issueRead_of_idle hf hi)
  case accepted =>
    intro s v hd ht
    rw [exec_campEpochOffsetWrite_of_released v hd, offsetWritten_of_low ht, BitVec.ofNat_toNat, BitVec.setWidth_eq]
  case rejected =>
    intro s v hd ht
    rw [exec_campEpochOffsetWrite_of_released v hd, offsetWritten_of_high ht]

/-! ### Registers (R22, R26 to R28, R269, R670) -/

theorem windowOf_of_mem {a : Nat} (hl : 0x100000 ≤ a) (hh : a < 0x1000000) :
    windowOf a = some ((a - 0x100000) / 0x10000, (a - 0x100000) % 0x10000) := by
  rw [windowOf, if_pos ⟨hl, hh⟩]

/-- A core's aligned write of 4 bytes writes one word (R26). -/
theorem exec_registerWrite_core_word {s : State} {a w o : Nat} (n v : Nat) (ha : windowOf a = some (w, o))
    (ho : o % 4 = 0) : exec (.registerWrite (.core n) a 4 v) s = .next (writeWord w o v s) := by
  show execRegisterWrite (.core n) a 4 v s = _
  simp [execRegisterWrite, ha, writeAligned, ho]

/-- A host's aligned write of 4 bytes, where the port takes it, writes one word (R26). -/
theorem exec_registerWrite_host_word {s : State} {a w o p : Nat} (v : Nat) (ha : windowOf a = some (w, o))
    (ho : o % 4 = 0) (hr : s.reachable p = true) (hm : memoryOpen s p = true) :
    exec (.registerWrite (.host p) a 4 v) s = .next (writeWord w o v s) := by
  show execRegisterWrite (.host p) a 4 v s = _
  simp [execRegisterWrite, ha, memoryWrite_of_open _ hr hm, writeAligned, ho]

/-- A core's aligned write of 8 bytes to a 64-bit register writes it whole (R27). -/
theorem exec_registerWrite_core_wide {s : State} {a w o b x : Nat} (n v : Nat) (ha : windowOf a = some (w, o))
    (ho : o % 8 = 0) (hreg : regAt s w o = some (b, 64, x)) :
    exec (.registerWrite (.core n) a 8 v) s = .next (writeWhole w o v s) := by
  show execRegisterWrite (.core n) a 8 v s = _
  simp [execRegisterWrite, ha, writeAligned, ho, hreg]

/-- A core's write of less than a word is refused, whatever the register (R670). -/
theorem exec_registerWrite_core_narrow {s : State} {a w o bytes : Nat} (n v : Nat) (ha : windowOf a = some (w, o))
    (hb : bytes < 4) : exec (.registerWrite (.core n) a bytes v) s = .next (refuseNarrow n s) := by
  show execRegisterWrite (.core n) a bytes v s = _
  simp only [execRegisterWrite, ha]
  rw [if_neg (by omega)]

theorem writeWhole_of_held {s : State} {w o : Nat} (v : Nat) (h : s.isHeld (regDomain s w o) = true) :
    writeWhole w o v s = s := by
  simp [writeWhole, h]

/-- A 32-bit register is written whole by one word. -/
theorem writeWord_of_narrowRegister {s : State} {w o x : Nat} (v : Nat) (hreg : regAt s w o = some (o, 32, x)) :
    writeWord w o v s = writeWhole w o (v % 2 ^ 32) s := by
  simp only [writeWord, hreg]
  split
  case isTrue h => rw [writeWhole_of_held _ h]
  case isFalse => rfl

/-- The lower word of a 64-bit register is kept until the upper one is written (R27). -/
theorem writeWord_lower {s : State} {w o x : Nat} (v : Nat) (hreg : regAt s w o = some (o, 64, x))
    (hd : s.isHeld (regDomain s w o) = false) :
    writeWord w o v s
      = { s with time.half_written := s.time.half_written.put (w * 0x10000 + o) (v % 2 ^ 32) } := by
  simp [writeWord, hreg, hd]

/-- The upper word writes a 64-bit register whole, with the lower word kept for it (R27). -/
theorem writeWord_upper {s : State} {w o b x low : Nat} (v : Nat) (hreg : regAt s w o = some (b, 64, x)) (hb : o ≠ b)
    (hd : s.isHeld (regDomain s w b) = false) (hk : s.time.half_written.find (w * 0x10000 + b) = some low) :
    writeWord w o v s = writeWhole w b (low + 2 ^ 32 * (v % 2 ^ 32))
      { s with time.half_written := s.time.half_written.drop (w * 0x10000 + b) } := by
  simp [writeWord, hreg, hd, hb, Tab.look, hk]

theorem regAt_rstCause (s : State) : regAt s 0x04 0x00 = some (0x00, 32, s.rst.cause.toNat) := rfl

theorem regAt_dieSelect (s : State) : regAt s 0x0D 0x08 = some (0x08, 32, s.red.dieSelect.toNat) := rfl

theorem regAt_campFloor (s : State) : regAt s 0x01 0x18 = some (0x18, 64, s.camp.floor.toNat) := rfl

theorem regAt_epochOffset_lower (s : State) : regAt s 0x01 0x10 = some (0x10, 64, s.camp.epochOffset.toNat) := rfl

theorem regAt_epochOffset_upper (s : State) : regAt s 0x01 0x14 = some (0x10, 64, s.camp.epochOffset.toNat) := rfl

/-- RST_CAUSE is RW1C: a write of 1 clears the bit (R22). -/
theorem writeWhole_rstCause {s : State} (v : Nat) (h : s.isHeld .ret = false) :
    writeWhole 0x04 0x00 v s = { s with rst.cause := s.rst.cause &&& ~~~BitVec.ofNat 16 v } := by
  have hd : s.isHeld (regDomain s 0x04 0x00) = false := h
  simp [writeWhole, hd, writeReg, writeRst]

/-- RED_DIE_SELECT is RW: it takes the value (R22). -/
theorem writeWhole_dieSelect {s : State} (v : Nat) (h : s.isHeld .media = false) :
    writeWhole 0x0D 0x08 v s = { s with red.dieSelect := BitVec.ofNat 11 v } := by
  have hd : s.isHeld (regDomain s 0x0D 0x08) = false := h
  simp [writeWhole, hd, writeReg, writeRed]

/-- CAMP_FLOOR is RO: no write changes anything (R22). -/
theorem writeWhole_campFloor (v : Nat) (s : State) : writeWhole 0x01 0x18 v s = s := by
  simp [writeWhole, writeReg, writeCamp]

theorem writeWhole_epochOffset {s : State} (v : Nat) (h : s.isHeld .mgmt = false) :
    writeWhole 0x01 0x10 v s = offsetWritten v s := by
  have hd : s.isHeld (regDomain s 0x01 0x10) = false := h
  simp [writeWhole, hd]

/-- An aligned read of 4 bytes is a read of one word (R26). -/
theorem readAligned_word {s : State} {w o : Nat} (ho : o % 4 = 0) :
    readAligned w o 4 s = (readWord s w o).map fun p => (leBytes 4 p.1, p.2) := by
  simp [readAligned, ho, leBytes]

/-- The lower word of a 64-bit register other than CAMP_ISSUE latches the upper one (R28). -/
theorem readWord_lower {s : State} {w o x : Nat} (hreg : regAt s w o = some (o, 64, x))
    (hd : s.isHeld (regDomain s w o) = false) (hi : ¬(w = 0x01 ∧ o = 0x08)) :
    readWord s w o
      = some (x % 2 ^ 32, { s with time.latched := s.time.latched.put (w * 0x10000 + o) (x / 2 ^ 32) }) := by
  simp [readWord, hreg, hd, hi]

/-- A lower-word read that reaches the register answers with the word read. -/
theorem exec_wideRegisterLowerRead_of_open {s t : State} {a w o p x : Nat} (ha : windowOf a = some (w, o))
    (ho : o % 4 = 0) (hr : s.reachable p = true) (hm : memoryOpen s p = true)
    (hw : readWord s w o = some (x, t)) :
    exec (.wideRegisterLowerRead p a) s = .next (say (.readData p 0 (leBytes 4 x)) t) := by
  show execWideRegisterLowerRead p a s = _
  simp [execWideRegisterLowerRead, ha, memoryRead_of_open _ hr hm, answerRead, readAligned_word ho, hw]

/-- Settles O17: the window and the register found, then the rule of its type. -/
theorem registerAccessesFollowTypes : Obligations.RegisterAccessesFollowTypes := by
  unfold Obligations.RegisterAccessesFollowTypes
  refine ⟨?rw1c, ?rw, ?ro, ?held, ?lower, ?upper, ?narrow, ?host, ?latch⟩
  case rw1c =>
    intro s n v h
    rw [exec_registerWrite_core_word n v rfl rfl, writeWord_of_narrowRegister v (regAt_rstCause s),
      writeWhole_rstCause _ h]
  case rw =>
    intro s n v h
    rw [exec_registerWrite_core_word n v rfl rfl, writeWord_of_narrowRegister v (regAt_dieSelect s),
      writeWhole_dieSelect _ h]
  case ro =>
    intro s n v
    rw [exec_registerWrite_core_wide n v rfl rfl (regAt_campFloor s), writeWhole_campFloor]
  case held =>
    intro s n v h
    have hd : s.isHeld (regDomain s 0x0D 0x08) = true := h
    rw [exec_registerWrite_core_word n v rfl rfl, writeWord_of_narrowRegister v (regAt_dieSelect s),
      writeWhole_of_held _ hd]
  case lower =>
    intro s n v h
    rw [exec_registerWrite_core_word n v rfl rfl, writeWord_lower v (regAt_epochOffset_lower s) h]
  case upper =>
    intro s n v low h hk
    rw [exec_registerWrite_core_word n v rfl rfl,
      writeWord_upper v (regAt_epochOffset_upper s) (by decide) h hk]
    exact congrArg _ (writeWhole_epochOffset _ h)
  case narrow =>
    intro s n o v bytes hl hh hb
    exact exec_registerWrite_core_narrow n v (windowOf_of_mem hl hh) hb
  case host =>
    intro s p v hr hm h
    rw [exec_registerWrite_host_word v rfl rfl hr hm, writeWord_of_narrowRegister v (regAt_dieSelect s),
      writeWhole_dieSelect _ h]
  case latch =>
    intro s p hr hm h
    rw [exec_wideRegisterLowerRead_of_open rfl rfl hr hm (readWord_lower (regAt_campFloor s) h (by decide))]

end Sys2Proof.Machine
end

section
/-!
PROOFS. The architecture: power and Flush, Start, the sideband ports, data commands, flash channels and the thermal loop.
-/

namespace Sys2Proof.Machine

/-! ### What is kept through conditionals and lists -/

/-- A field that both branches show as `x` is `x` after the conditional. -/
theorem ite_shows {α : Type} {f : State → α} {c : Prop} [Decidable c] {s t : State} {x : α} (hs : f s = x) (ht : f t = x) :
    f (if c then s else t) = x := by
  split <;> assumption

/-- A field that an operation keeps is kept by its repetition. -/
theorem each_keeps {α β : Type} {f : State → α} {g : β → State → State} (hg : ∀ b s, f (g b s) = f s) (l : List β)
    (s : State) : f (each l g s) = f s := by
  unfold each
  induction l generalizing s with
  | nil => rfl
  | cons b l ih => exact (ih (g b s)).trans (hg b s)

@[simp] theorem request_mode (u : StampUse) (s : State) : (request u s).mode = s.mode :=
  (request_delivered u s).keeps (f := State.mode) fun _ => rfl

end Sys2Proof.Machine
end

section
/-!
PROOFS. Rails and power-on reset.
-/

namespace Sys2Proof.Machine

/-! ### Rails and power-on reset (R46, R115, R116, R121, R139, R147, R148) -/

theorem exec_railPowerUpStep_of_rising {s : State} (h : railsRising s = true) (hn : s.power.rail_step < 6) :
    exec .railPowerUpStep s = .next { s with power.rail_step := s.power.rail_step + 1 } :=
  if_pos (by simp [h, hn])

/-- A rail of the step waited for that is not good takes every rail but VAO and VAUX down (R148). -/
theorem exec_railPowerGoodTimeout_of_rising {s : State} {r : Nat} (h : railsRising s = true)
    (hr : r ∈ stepRails (s.power.rail_step + 1)) :
    exec (.railPowerGoodTimeout r) s = .next { loseDram s with
      power.rail_step := min 2 s.power.rail_step
      power.rail_failures := s.power.rail_failures + 1
      power.rail_wait := true
      reset_ctl.retention.rail_fault := r } :=
  if_pos (by simp [h, hr])

/-- What the release of power-on reset samples: all straps after a cold or applied power-on, only the live levels after any
other (R115, R121). -/
def strapsShown (b : Balls) (s : State) : State :=
  if s.rst.last.source.toNat ≤ 1 then sampleStraps b s else { s with pad.strapStatus.live := b.levels }

/-- With TEST_EN sampled as 0 power-on reset is released, and RET and AO with it (R139, R190). -/
theorem exec_powerOnResetRelease_of_untested {s t : State} {b : Balls} (h : railsRising s = true)
    (h6 : s.power.rail_step = 6) (ht : s.pad.strapStatus.test_en = false) (hb : strapsShown b s = t)
    (hu : t.pad.strapStatus.test_en = false) :
    exec (.powerOnResetRelease b) s = .next (releaseDomain .ret (releaseDomain .ao
      { t with power.por := false, power.rail_step := 7, power.rail_failures := 0 })) := by
  subst hb
  show execPowerOnResetRelease b s = _
  rw [execPowerOnResetRelease, if_pos (by simp [h, h6, ht])]
  exact if_neg (Bool.eq_false_iff.mp hu)

/-- With TEST_EN sampled as 1 power-on reset stays asserted (R121). -/
theorem exec_powerOnResetRelease_of_tested {s t : State} {b : Balls} (h : railsRising s = true)
    (h6 : s.power.rail_step = 6) (ht : s.pad.strapStatus.test_en = false) (hb : strapsShown b s = t)
    (hu : t.pad.strapStatus.test_en = true) : exec (.powerOnResetRelease b) s = .next t := by
  subst hb
  show execPowerOnResetRelease b s = _
  rw [execPowerOnResetRelease, if_pos (by simp [h, h6, ht])]
  exact if_pos hu

/-- The levels of the straps and the presence balls as they were sampled, in the order of STRAP_CHANGE_DETECTED. -/
def sampledLevels (s : State) : Nat :=
  s.pad.strapStatus.mast.toNat + 2 * s.pad.strapStatus.casc_pos.toNat + 8 * s.pad.strapStatus.test_en.toNat
    + 16 * s.pad.strapStatus.dualport.toNat + 32 * s.pads.present.toNat

/-- Levels that differ from the sampled ones differ in one of their fields. -/
theorem sampledLevels_of_fields {s : State} {n : Nat} (hn : n < 128) (h0 : n % 2 = s.pad.strapStatus.mast.toNat)
    (h1 : n / 2 % 4 = s.pad.strapStatus.casc_pos.toNat) (h3 : n / 8 % 2 = s.pad.strapStatus.test_en.toNat)
    (h4 : n / 16 % 2 = s.pad.strapStatus.dualport.toNat) (h5 : n / 32 % 4 = s.pads.present.toNat) :
    n = sampledLevels s := by
  unfold sampledLevels
  omega

theorem exec_strapChangeDetected_of_changed {s : State} {n : Nat} (hd : s.power.dark = false) (hn : n < 128)
    (h : n ≠ sampledLevels s) :
    exec (.strapChangeDetected n) s = .next { s with
      pad.strapStatus.live := BitVec.ofNat 5 n
      pad.strapStatus.strap_changed := s.pad.strapStatus.strap_changed || s.pads.sampled } := by
  have differ : (n % 2 == s.pad.strapStatus.mast.toNat && n / 2 % 4 == s.pad.strapStatus.casc_pos.toNat
      && n / 8 % 2 == s.pad.strapStatus.test_en.toNat && n / 16 % 2 == s.pad.strapStatus.dualport.toNat
      && n / 32 % 4 == s.pads.present.toNat) = false := by
    rw [Bool.eq_false_iff]
    intro same
    simp only [Bool.and_eq_true, beq_iff_eq] at same
    obtain ⟨⟨⟨⟨h0, h1⟩, h3⟩, h4⟩, h5⟩ := same
    exact h (sampledLevels_of_fields hn h0 h1 h3 h4 h5)
  show execStrapChangeDetected n s = _
  simp [execStrapChangeDetected, hd, differ]

theorem awake_of_not_hold {s : State} (h : s.mode ≠ .hold) : s.awake = true := by
  unfold State.awake
  split
  · contradiction
  · rfl

/-- Settles O7: each command by its condition, and the release of power-on reset by the source before it. -/
theorem railsAndPowerOnReset : Obligations.RailsAndPowerOnReset := by
  unfold Obligations.RailsAndPowerOnReset
  refine ⟨?cold, fun s => exec_railPowerUpStep_of_rising, fun s r => exec_railPowerGoodTimeout_of_rising, ?retry, ?stay,
    ?sampled, ?test, ?shown, ?strap, ?overvoltage⟩
  case cold =>
    intro s h
    exact ⟨powerOn 0 s, if_pos h, rfl, rfl, rfl, rfl, rfl, rfl, rfl, rfl⟩
  case retry =>
    intro s hw hf
    exact if_pos (by simp [hw, hf])
  case stay =>
    intro s hw hf
    exact if_neg (by simp [hf])
  case sampled =>
    intro s b h h6 ht hs hb
    rw [exec_powerOnResetRelease_of_untested h h6 ht (if_pos hs) hb, sampleStraps, hb]
  case test =>
    intro s b h h6 ht hs hb
    rw [exec_powerOnResetRelease_of_tested h h6 ht (if_pos hs) hb, sampleStraps, hb]
  case shown =>
    intro s b h h6 ht hs
    exact exec_powerOnResetRelease_of_untested h h6 ht (if_neg (Nat.not_le.mpr hs)) ht
  case strap =>
    intro s n hd h hn
    exact exec_strapChangeDetected_of_changed hd hn h
  case overvoltage =>
    intro s hd hm
    have ha : ({ s with pwr.status.vin_ov := true } : State).awake = true := awake_of_not_hold hm
    show execVinOvervoltage s = _
    rw [execVinOvervoltage, if_neg (by simp [hd]), raiseAwake, if_pos ha]

end Sys2Proof.Machine
end

section
/-!
PROOFS. The spill, the end of Flush, and the return and fall of power.
-/

namespace Sys2Proof.Machine

/-! ### The records of a spill image (R167, R445, R446) -/

/-- A record of another stage than the marker goes into the image. -/
theorem exec_spillRecordWritten_of_units {s : State} {x : Spill} (ok : Bool) (hx : s.shroud.spill = some x)
    (hu : x.stage = .units) : exec (.spillRecordWritten ok) s = .next (spillRecord ok x s) := by
  show execSpillRecordWritten ok s = _
  simp only [execSpillRecordWritten, hx, hu]

/-- A record sealed changes the image's sequence and its digest only, and of the state the nonce only. -/
theorem sealRecord_eq (type : Nat) (b : Bytes) (x : Spill) (s : State) :
    ∃ sum sec, sealRecord type b x s = ({ x with seq := x.seq + 1, sum := sum }, { s with sec := sec }) := by
  unfold sealRecord
  dsimp only
  split <;> exact ⟨_, _, rfl⟩

/-- A record of units takes the next fifteen, into the image where a copy verifies (R446, log entry 29). -/
theorem spillRecord_of_units {s : State} {x : Spill} (ok : Bool) (hu : x.stage = .units) (hb : x.bad = [])
    (hl : 15 < x.left.length) : ∃ z, (spillRecord ok x s).shroud.spill = some z ∧ z.stage = .units ∧
      z.left = x.left.drop 15 ∧ z.image.units = (if ok then x.image.units ++ x.left.take 15 else x.image.units) ∧
      z.seq = x.seq + 1 ∧ z.cause = x.cause := by
  have more : (x.left.drop 15).isEmpty = false := by
    rw [List.isEmpty_eq_false_iff, ne_eq, List.drop_eq_nil_iff]
    omega
  unfold spillRecord
  obtain ⟨sum, sec, h⟩ := sealRecord_eq (stageRecords x s).1
    (((stageBytes x s).drop (spillPayload * x.piece)).take spillPayload) x s
  simp only [h]
  have one : (stageRecords x s).2 = 1 := by simp only [stageRecords, hu]
  rw [if_neg (by rw [one]; simp)]
  refine ⟨_, rfl, ?_⟩
  simp only [stageWritten, hu, hb, more]
  cases ok <;> simp

/-! ### The end of Flush (R52, R125, R150) -/

/-- The end marker takes its stamp, and the image is kept with it (R445). -/
theorem writeMarker_eq {s u : State} {x : Spill} {st : Stamped} (hs : takeStamp s = (st, u)) :
    ∃ y sec, writeMarker x s = keepImage y { u with sec := sec } ∧ y.image.set = x.image.set ∧
      y.image.units = x.image.units ∧ y.image.valid = x.image.valid ∧ y.image.marker.map EndMarker.stamp = some st := by
  unfold writeMarker
  simp only [hs]
  generalize EndMarker.bytes _ = b
  obtain ⟨sum, sec, h⟩ := sealRecord_eq 0x15 b x u
  simp only [h]
  exact ⟨_, sec, rfl, rfl, rfl, rfl, rfl⟩

theorem keepImage_mem {s : State} {y : Spill} (h : y.image.valid = true) : y.image ∈ (keepImage y s).shroud.images := by
  simp [keepImage, h]

/-- At its marker the image of a Flush ends it: without power the device goes dark (R150). -/
theorem exec_flushEnd_of_marker {s : State} {x : Spill} (hx : s.shroud.spill = some x) (hk : x.stage = .marker)
    (hc : x.cause = .flush) (hw : (writeMarker x s).pad.strapStatus.pwrdis_live = false)
    (hr : (writeMarker x s).power.vin_returned = false) (hg : (writeMarker x s).pwr.status.vin_good = false) :
    exec .flushEnd s = .next (goDark (writeMarker x s)) := by
  show execFlushEnd s = _
  simp [execFlushEnd, hx, hk, hc, hw, hr, hg]

/-! ### Entry to Flush (R142, R165, R166) -/

/-- What the entry to Flush leaves of the mode, the power status and the presence of VIN. -/
def State.powerSeen (s : State) : Mode × PwrStatusReg × Bool := (s.mode, s.pwr.status, s.power.vin)

theorem delivered_powerSeen {s t : State} (h : Delivered s t) : t.powerSeen = s.powerSeen :=
  h.keeps fun _ => rfl

theorem takeStamp_powerSeen (s : State) : (takeStamp s).2.powerSeen = s.powerSeen :=
  delivered_powerSeen (takeStamp_delivered s)

theorem haltMedia_powerSeen (s : State) : (haltMedia s).powerSeen = s.powerSeen := by
  have released (o : NandOp) (t : State) :
      (onBlock (blockKey o.die o.block) (fun b => { b with state := .released }) t).powerSeen = t.powerSeen := rfl
  unfold haltMedia
  exact each_keeps (f := State.powerSeen) released _ _

theorem beginSpill_powerSeen (c : SpillCause) (th : Bool) (s : State) : (beginSpill c th s).powerSeen = s.powerSeen := by
  unfold beginSpill
  split
  · rfl
  · exact takeStamp_powerSeen s

/-- The spill of a Flush: one in progress goes on for it, else one begins, unless the record of a Thermal Halt is all that is
left to write (R51). -/
def flushSpill (entry : Option HaltEntry) (s : State) : State :=
  match s.shroud.spill, entry with
  | some x, _ => { s with shroud.spill := some { x with cause := .flush } }
  | none, some .record => s
  | none, some _ => beginSpill .flush true s
  | none, none => beginSpill .flush false s

theorem flushSpill_powerSeen (entry : Option HaltEntry) (s : State) : (flushSpill entry s).powerSeen = s.powerSeen := by
  unfold flushSpill
  split
  · rfl
  · rfl
  · exact beginSpill_powerSeen ..
  · exact beginSpill_powerSeen ..

/-- An L4 that has not asserted is deferred by the entry to Flush (log entry 83). -/
def sequenceDeferred (s : State) : State :=
  match s.reset_ctl.sequence with
  | some q => deferReset q { s with reset_ctl.sequence := none }
  | none => s

theorem sequenceDeferred_powerSeen (s : State) : (sequenceDeferred s).powerSeen = s.powerSeen := by
  unfold sequenceDeferred
  split <;> rfl

/-- The mode becomes Flush and the converter carries the load (R166). -/
def flushStopped (s : State) : State :=
  abandonSeals <| haltMedia (setMode .flush { s with
    power_states.handshake := none
    power_states.returning := none
    nvme.ctrl0.fetch_stopped := true
    nvme.ctrl1.fetch_stopped := true
    nvme.act_led := false
    thermal.entry := none
    pwr.status.holdup_active := true })

theorem flushStopped_powerSeen (s : State) :
    (flushStopped s).powerSeen = (.flush, { s.pwr.status with holdup_active := true }, s.power.vin) :=
  (haltMedia_powerSeen _).trans (delivered_powerSeen (setMode_delivered .flush _))

theorem enterFlush_eq (s : State) :
    enterFlush s = flushSpill s.thermal.entry (flushStopped (sequenceDeferred s)) := rfl

/-- Entry to Flush (R165, R166): the mode is Flush, the converter carries the load, and VIN is as before. -/
theorem enterFlush_powerSeen (s : State) :
    (enterFlush s).powerSeen = (.flush, { s.pwr.status with holdup_active := true }, s.power.vin) := by
  rw [enterFlush_eq, flushSpill_powerSeen, flushStopped_powerSeen]
  have h := sequenceDeferred_powerSeen s
  simp only [State.powerSeen, Prod.mk.injEq] at h
  obtain ⟨-, hp, hv⟩ := h
  rw [hp, hv]

theorem actLoss_of_operating {s : State} (h : s.mode = .run ∨ s.mode = .reduced ∨ s.mode = .patrol ∨ s.mode = .readOnly) :
    actLoss s = enterFlush s := by
  rcases h with h | h | h | h <;> simp only [actLoss, h]

/-- Power loss is noted, and a bank measurement ends at once (R142). -/
def lossNoted (s : State) : State :=
  disarm .bankMeasure 0 { s with pwr.status.loss_detected := true, pwr.status.bank_test := false }

/-- Power loss in an operating mode (R142): what it leaves of the mode, the power status and the presence of VIN. -/
theorem powerLost_of_operating {s : State}
    (h : s.mode = .run ∨ s.mode = .reduced ∨ s.mode = .patrol ∨ s.mode = .readOnly) :
    (powerLost s).mode = .flush ∧ (powerLost s).pwr.status.vin_good = s.pwr.status.vin_good ∧
      (powerLost s).pwr.status.loss_detected = true ∧ (powerLost s).pwr.status.holdup_active = true ∧
      (powerLost s).power.vin = s.power.vin := by
  have entered : actLoss (lossNoted s) = enterFlush (lossNoted s) := actLoss_of_operating h
  have seen := enterFlush_powerSeen (lossNoted s)
  rw [← entered] at seen
  simp only [State.powerSeen, Prod.mk.injEq] at seen
  obtain ⟨hm, hp, hv⟩ := seen
  exact ⟨hm, congrArg (·.vin_good) hp, congrArg (·.loss_detected) hp, congrArg (·.holdup_active) hp, hv⟩

/-! ### The fall of VIN (R141, R150) -/

/-- VIN is no longer there. -/
def vinFallen (s : State) : State := { s with pwr.status.vin_good := false, power.vin := false }

/-- Without VIN the device stays up only while the converter holds its rails (R150). -/
def darkUnlessHeld (s : State) : State := if s.pwr.status.holdup_active then s else goDark s

/-- The fall of VIN is power loss where that is not detected yet (R141). -/
theorem exec_vinFallDark_of_lit {s : State} (hd : s.power.dark = false) :
    exec .vinFallDark s
      = .next (darkUnlessHeld (if s.pwr.status.loss_detected then vinFallen s else powerLost (vinFallen s))) := by
  show execVinFallDark s = _
  rw [execVinFallDark, if_neg (by simp [hd])]
  exact (apply_ite Host.Outcome.next _ _ _).symm

/-! ### Rail faults (R149, R170) -/

/-- A rail fault is kept for the report of the next Start (R148, R149). -/
def railNoted (r : Nat) (s : State) : State := { s with reset_ctl.retention.rail_fault := r }

/-- The faulted rail leaves a Shroud in DRAM: there is one, and the rails of the DRAM stay good (R149). -/
def railKeepsDram (r : Nat) (s : State) : Bool := keepsDram s.mode s && (decide (r < 3) || decide (6 < r))

theorem railKeepsDram_of_run {s : State} {r : Nat} (hm : s.mode = .run) (h7 : r < 7) :
    railKeepsDram r s = decide (r < 3) := by
  have n6 : ¬6 < r := by omega
  simp [railKeepsDram, keepsDram, hm, n6]

/-- A fault of a rail other than VSER in Run asserts power-on reset at once (R149). -/
theorem exec_railFault_of_run {s : State} {r : Nat} (hd : s.power.dark = false) (hm : s.mode = .run) (h0 : 0 < r)
    (h7 : r < 7) (hs : s.shroud.spill = none) (he : s.thermal.entry = none) :
    ∃ gone, exec (.railFault r) s = .next
      { assertL5 { code := 2, stamp := (takeStamp (railNoted r s)).1, mode_at := (takeStamp (railNoted r s)).2.mode }
          (railKeepsDram r (railNoted r s)) (takeStamp (railNoted r s)).2 with reset_ctl.shroud_gone := gone } := by
  have n0 : r ≠ 0 := by omega
  have n7 : r ≠ 7 := by omega
  have n11 : ¬11 < r := by omega
  refine ⟨_, (if_neg ?_).trans ((if_neg n7).trans ((if_neg ?_).trans rfl))⟩
  · simp [hd, hm, n0, n11]
  · simp [hm, hs, he]

/-- Settles O9: each command by the operation under it, and what that leaves of the state. -/
theorem flushAndReturnOfPower : Obligations.FlushAndReturnOfPower := by
  unfold Obligations.FlushAndReturnOfPower
  refine ⟨?record, ?flushEnd, ?bank, ?inFlush, ?inHold, ?dark, ?lost, ?deassert, ?rail⟩
  case record =>
    intro s x ok hx hu hb hl
    obtain ⟨z, hz⟩ := spillRecord_of_units (s := s) ok hu hb hl
    exact ⟨_, z, exec_spillRecordWritten_of_units ok hx hu, hz⟩
  case flushEnd =>
    intro s x st u hm hx hk hc hi hs hr hw hg
    obtain ⟨y, sec, hy, hset, hunits, hvalid, hmark⟩ := writeMarker_eq (x := x) hs
    have kept : Delivered s u := by
      have := takeStamp_delivered s
      rwa [hs] at this
    refine ⟨_, exec_flushEnd_of_marker hx hk hc ?_ ?_ ?_, rfl, rfl, rfl, rfl, rfl, rfl, y.image, ?_, hset, hunits, hmark⟩
    · rw [hy]
      exact (kept.keeps (f := (·.pad.strapStatus.pwrdis_live)) fun _ => rfl).trans hw
    · rw [hy]
      exact (kept.keeps (f := (·.power.vin_returned)) fun _ => rfl).trans hr
    · rw [hy]
      exact (kept.keeps (f := (·.pwr.status.vin_good)) fun _ => rfl).trans hg
    · rw [hy]
      exact keepImage_mem (hvalid.trans hi)
  case bank =>
    intro s h
    refine ⟨_, if_pos h, rfl, rfl, rfl, rfl, ?_⟩
    cases s.shroud.spill <;> rfl
  case inFlush =>
    intro s h
    show execVinReturnInFlush s = _
    simp only [execVinReturnInFlush, h]
  case inHold =>
    intro s h
    exact ⟨_, if_pos h, rfl, rfl, rfl, rfl, rfl, rfl, rfl, rfl, rfl⟩
  case dark =>
    intro s hd hl hh
    refine ⟨goDark (vinFallen s), ?_, rfl, rfl, rfl, rfl⟩
    rw [exec_vinFallDark_of_lit hd, if_pos hl]
    exact congrArg _ (if_neg (Bool.eq_false_iff.mp hh))
  case lost =>
    intro s hd hl hm
    obtain ⟨mode, good, loss, holdup, vin⟩ := powerLost_of_operating (s := vinFallen s) hm
    refine ⟨powerLost (vinFallen s), ?_, mode, good, loss, holdup, vin⟩
    rw [exec_vinFallDark_of_lit hd, if_neg (Bool.eq_false_iff.mp hl)]
    exact congrArg _ (if_pos holdup)
  case deassert =>
    intro s hm hw hv hd
    refine ⟨reapply (loseDram { s with pad.strapStatus.pwrdis_live := false }), ?_, rfl, rfl, rfl, rfl, rfl, rfl⟩
    show execPwrdisDeassert s = _
    simp [execPwrdisDeassert, hm, hw, hv, hd]
  case rail =>
    intro s r hd hm h0 h7 hs he
    obtain ⟨gone, hx⟩ := exec_railFault_of_run hd hm h0 h7 hs he
    have kept := takeStamp_delivered (railNoted r s)
    refine ⟨_, hx, rfl, rfl, kept.keeps (f := (·.reset_ctl.retention.rail_fault)) fun _ => rfl, rfl, rfl,
      railKeepsDram_of_run hm h7, ?_⟩
    exact congrArg (setBit · 2 true) (kept.keeps (f := (·.rst.cause)) fun _ => rfl)

end Sys2Proof.Machine
end

section
/-!
PROOFS. The end of Hold and the steps of Start.
-/

namespace Sys2Proof.Machine

/-! ### Bits of a register -/

theorem getLsbD_two_pow {n j : Nat} (i : Nat) (hj : j < n) : (BitVec.ofNat n (2 ^ i)).getLsbD j = decide (i = j) := by
  rw [BitVec.getLsbD_ofNat, Nat.testBit_two_pow, decide_eq_true hj, Bool.true_and]

theorem getLsbD_setBit {n j : Nat} (x : BitVec n) (i : Nat) (b : Bool) (hj : j < n) :
    (setBit x i b).getLsbD j = if i = j then b else x.getLsbD j := by
  cases b with
  | true =>
    simp only [setBit, if_true, BitVec.getLsbD_or, getLsbD_two_pow i hj]
    by_cases h : i = j <;> simp [h]
  | false =>
    simp only [setBit, Bool.false_eq_true, if_false, BitVec.getLsbD_and, BitVec.getLsbD_not, getLsbD_two_pow i hj]
    by_cases h : i = j <;> simp [h, hj]

/-- Bits cleared in turn: those of the list read 0, the others as before. -/
theorem getLsbD_foldl_clear {n j : Nat} (l : List Nat) (x : BitVec n) (hj : j < n) :
    (l.foldl (fun b c => setBit b c false) x).getLsbD j = (!l.contains j && x.getLsbD j) := by
  induction l generalizing x with
  | nil => simp
  | cons i l ih =>
    rw [List.foldl_cons, ih, getLsbD_setBit x i false hj, List.contains_cons]
    by_cases h : i = j
    · simp [h]
    · have : (j == i) = false := by simpa using fun e => h e.symm
      simp [h, this]

/-! ### The release of a domain -/

/-- A released domain is not held. -/
theorem releaseDomain_isHeld_self (d : Domain) (s : State) : (releaseDomain d s).isHeld d = false := by
  show (setBit s.reset_ctl.held d.num false).getLsbD d.num = false
  rw [getLsbD_setBit _ _ _ (by cases d <;> decide), if_pos rfl]

/-- Every source of level L4 or L5 reaches MGMT (R178, R179). -/
theorem mem_sourcesReaching_mgmt {s : State} {c : Nat} (hc : c < 16) (h : 4 ≤ levelOf s c) :
    c ∈ sourcesReaching s .mgmt := by
  have hl : levelOf s c ≤ 5 := by
    unfold levelOf
    repeat' split
    all_goals omega
  have h45 : levelOf s c = 4 ∨ levelOf s c = 5 := by omega
  rw [sourcesReaching, List.mem_filter, List.mem_range]
  refine ⟨hc, ?_⟩
  rcases h45 with h | h <;> simp [h]

/-- The release of MGMT releases every source of level L4 or L5 (R182). -/
theorem releaseDomain_mgmt_asserted {s : State} {c : Nat} (hc : c < 16) (h : 4 ≤ levelOf s c) :
    (releaseDomain .mgmt s).reset_ctl.asserted.getLsbD c = false := by
  show ((sourcesReaching s .mgmt).foldl (fun b c => setBit b c false) s.reset_ctl.asserted).getLsbD c = false
  rw [getLsbD_foldl_clear _ _ hc, List.contains_iff_mem.mpr (mem_sourcesReaching_mgmt hc h)]
  rfl

/-! ### The release that ends Hold (R46, R218 step 1, R769) -/

/-- The state without what the entry into Start changes beyond the mode: the delivery of stamps, the rate, the charger and
the timers. -/
def State.unstarted (s : State) : State :=
  { s.undelivered with
    timers := []
    thermal.comp_now := 0
    camp.rateAdj := 0
    pwr.status.charging := false }

theorem Delivered.unstarted {s t : State} (h : Delivered s t) : t.unstarted = s.unstarted := by
  unfold State.unstarted
  rw [h]

theorem refreshRate_unstarted (s : State) : (refreshRate s).unstarted = s.unstarted :=
  ite_shows (f := State.unstarted) rfl rfl

/-- The release of MGMT with H set to 0: what HOLD_RESET_RELEASE makes before the mode changes. -/
def holdReleased (s : State) : State :=
  releaseDomain .mgmt { s with
    time.hq := 0
    time.moved := s.time.moved - s.h
    reset_ctl.start_step := 1
    reset_ctl.start_time := 0
    reset_ctl.wdt_stage1 := []
    power.dram_rails := false }

/-- Requests of stamps noted before go behind those of the new mode, and the rate follows the oscillator's compensation. -/
def startRated (early : List StampUse) (s : State) : State :=
  let s := { s with time.preseed := s.time.preseed ++ early }
  refreshRate { s with thermal.comp_now := compAt s }

theorem startRated_unstarted (early : List StampUse) (s : State) : (startRated early s).unstarted = s.unstarted :=
  refreshRate_unstarted _

/-- The entry into Start up to its timers: the first stamp request of the run, and the rate (R64, R769). -/
def startEntered (s : State) : State := startRated s.time.preseed (setMode .start { s with time.preseed := [] })

theorem startEntered_unstarted (s : State) :
    (startEntered s).unstarted = ({ s with mode := .start, prevMode := s.mode } : State).unstarted := by
  rw [startEntered, startRated_unstarted, (setMode_delivered .start { s with time.preseed := [] }).unstarted]
  rfl

/-- The timers of Start's first step: the allowance, the charge, and a bank test where one is due (R158, R161, R164). -/
def startTimed (s : State) : State :=
  let t := arm .allowance 0 (2 ^ 20) (arm .charge 0 s.pwr.chargeTimeout.toNat s)
  refreshCharger (if t.power.measured then armOnce .bankTest 0 t.pwr.bankTestInterval.toNat t else t)

theorem arm_unstarted (k : TimerKind) (i n : Nat) (s : State) : (arm k i n s).unstarted = s.unstarted := rfl

theorem armOnce_unstarted (k : TimerKind) (i n : Nat) (s : State) : (armOnce k i n s).unstarted = s.unstarted := by
  unfold armOnce
  split
  · rfl
  · exact arm_unstarted ..

theorem armOnce_timer_other {k l : TimerKind} {i j : Nat} (h : ¬(k = l ∧ i = j)) (n : Nat) (s : State) :
    (armOnce k i n s).timer l j = s.timer l j := by
  unfold armOnce
  split
  · rfl
  · exact timer_arm_other h ..

theorem refreshCharger_unstarted (s : State) : (refreshCharger s).unstarted = s.unstarted := rfl

@[simp] theorem refreshCharger_timer (k : TimerKind) (i : Nat) (s : State) :
    (refreshCharger s).timer k i = s.timer k i := rfl

theorem startTimed_unstarted (s : State) : (startTimed s).unstarted = s.unstarted := by
  unfold startTimed
  extract_lets t
  have ht : t.unstarted = s.unstarted := rfl
  rw [refreshCharger_unstarted]
  split
  · rw [armOnce_unstarted, ht]
  · exact ht

theorem startTimed_allowance (s : State) : ((startTimed s).timer .allowance 0).isSome := by
  unfold startTimed
  extract_lets t
  have ht : (t.timer .allowance 0).isSome = true := by
    rw [timer_arm_self]
    rfl
  rw [refreshCharger_timer]
  split
  · rw [armOnce_timer_other (by simp), ht]
  · exact ht

/-- The release that ends Hold (R46): MGMT leaves reset, the mode becomes Start and its first timers run. -/
theorem exec_holdResetRelease_of_hold {s : State} (hm : s.mode = .hold) (hp : s.power.por = false)
    (hd : s.power.dark = false) (ht : s.pad.strapStatus.test_en = false) (hw : s.pad.strapStatus.pwrdis_live = false) :
    exec .holdResetRelease s = .next (startTimed (startEntered (holdReleased s))) :=
  if_pos (by simp [hm, hp, hd, ht, hw])

/-- A field that the entry into Start leaves to the release of MGMT. -/
theorem startTimed_startEntered_keeps {α : Type} {f : State → α} (hf : ∀ s, f s.unstarted = f s) (s : State) :
    f (startTimed (startEntered s)) = f { s with mode := .start, prevMode := s.mode } := by
  rw [← hf, startTimed_unstarted, startEntered_unstarted, hf]

/-! ### The steps of Start (R164, R218) -/

theorem exec_startStepComplete_ports {s : State} (r : StartReport) (h : s.starting = true)
    (hn : s.reset_ctl.start_step = 3) : exec (.startStepComplete r) s = .next (stepPorts s) := by
  show execStartStepComplete r s = _
  simp only [execStartStepComplete, h, hn]
  rfl

theorem exec_startStepComplete_allowance {s : State} (r : StartReport) (h : s.starting = true)
    (hn : s.reset_ctl.start_step = 16) : exec (.startStepComplete r) s = .next (stepAllowance s) := by
  show execStartStepComplete r s = _
  simp only [execStartStepComplete, h, hn]
  rfl

/-- With both ports released, step 3 begins link training in the configuration strapped (R258). -/
theorem stepPorts_of_released {s : State} (hy : s.yard = false) (h0 : s.isHeld .port0 = false)
    (h1 : s.isHeld .port1 = false) :
    stepPorts s = goStep 4 (request .firstTraining { s with ep.dual := s.pad.strapStatus.dualport }) := by
  simp [stepPorts, hy, h0, h1]

theorem stepPorts_of_held {s : State} (hy : s.yard = false) (h : s.isHeld .port0 = true ∨ s.isHeld .port1 = true) :
    stepPorts s = s := by
  simp [stepPorts, hy, h]

/-- Step 16 waits for the allowance or the end of the charge time (R164). -/
theorem stepAllowance_of_met {s : State} (h : bufferFloor s ≤ s.pwr.shroudAllow.toNat ∨ s.power.charge_expired = true) :
    stepAllowance s = goStep 17 s :=
  if_pos (by simpa using h)

theorem stepAllowance_of_unmet {s : State} (h : s.pwr.shroudAllow.toNat < bufferFloor s)
    (he : s.power.charge_expired = false) : stepAllowance s = s :=
  if_neg (by simp [h, he])

/-- Settles O15: the entry into Start by what it keeps of the release, each step by its number. -/
theorem startRunsItsSteps : Obligations.StartRunsItsSteps := by
  unfold Obligations.StartRunsItsSteps
  refine ⟨?release, ?first, ?second, ?ports, ?portsHeld, ?allowance, ?allowanceUnmet⟩
  case release =>
    intro s hm hp hd ht hw
    have keeps {α : Type} (f : State → α) (hf : ∀ s, f s.unstarted = f s) :=
      startTimed_startEntered_keeps hf (holdReleased s)
    refine ⟨_, exec_holdResetRelease_of_hold hm hp hd ht hw, keeps State.mode fun _ => rfl,
      (keeps State.prevMode fun _ => rfl).trans hm, keeps (·.time.hq) fun _ => rfl,
      keeps (·.reset_ctl.start_step) fun _ => rfl, fun c hc hl => ?_, ?_, keeps (·.power.dram_rails) fun _ => rfl,
      startTimed_allowance _, keeps (·.shroud.held) fun _ => rfl⟩
    · exact (congrArg (·.getLsbD c) (keeps (·.reset_ctl.asserted) fun _ => rfl)).trans
        (releaseDomain_mgmt_asserted hc hl)
    · exact (keeps (·.isHeld .mgmt) fun _ => rfl).trans (releaseDomain_isHeld_self .mgmt _)
  case first =>
    intro s r h hn
    show execStartStepComplete r s = _
    simp only [execStartStepComplete, h, hn]
    rfl
  case second =>
    intro s r h hn
    show execStartStepComplete r s = _
    simp only [execStartStepComplete, h, hn]
    rfl
  case ports =>
    intro s r h hn hy h0 h1
    refine ⟨_, exec_startStepComplete_ports r h hn, ?_⟩
    rw [stepPorts_of_released hy h0 h1]
    exact ⟨(request_delivered ..).keeps (f := (·.ep.dual)) fun _ => rfl, rfl, request_mode ..⟩
  case portsHeld =>
    intro s r h hn hy hh
    rw [exec_startStepComplete_ports r h hn, stepPorts_of_held hy hh]
  case allowance =>
    intro s r h hn ha
    rw [exec_startStepComplete_allowance r h hn, stepAllowance_of_met ha, goStep]
  case allowanceUnmet =>
    intro s r h hn ha he
    rw [exec_startStepComplete_allowance r h hn, stepAllowance_of_unmet ha he]

end Sys2Proof.Machine
end

section
/-!
PROOFS. The sideband ports.
-/

namespace Sys2Proof.Machine

/-! ### The sideband ports (R57, R129, R597, R598) -/

theorem sidebandOn_iff {s : State} {p : Nat} (hp : p < 2) : sidebandOn s p = true ↔ s.mode ≠ .hold := by
  cases h : s.mode <;> simp [sidebandOn, hp, h]

theorem runSideband_of_hold {s : State} {p : Nat} (hp : p < 2) (h : s.mode = .hold) (f : State → State) :
    runSideband p f s = .next s := by
  rw [runSideband, if_neg]
  simp [sidebandOn_iff hp, h]

theorem runSideband_of_not_hold {s : State} {p : Nat} (hp : p < 2) (h : s.mode ≠ .hold) (f : State → State) :
    runSideband p f s = .next (f s) := by
  rw [runSideband, if_pos ((sidebandOn_iff hp).mpr h)]

/-- The controller list from identifier 0 up is the list of every controller. -/
theorem miStructure_controllers (s : State) :
    miStructure s 2 0 = some (leBytes 2 s.ctrls.length ++ s.ctrls.flatMap fun c => leBytes 2 (cntlid c)) := by
  have every : (s.ctrls.filter fun c => decide (0 ≤ cntlid c)) = s.ctrls :=
    List.filter_eq_self.mpr fun c _ => decide_eq_true (Nat.zero_le _)
  simp only [miStructure, every]

theorem miStructure_of_unknown {s : State} {k : Nat} (i : Nat) (h5 : 5 < k) (h256 : k ≠ 256) :
    miStructure s k i = none := by
  unfold miStructure
  split
  case h_8 => rfl
  all_goals omega

theorem miRead_of_some {s : State} {k i : Nat} {b : Bytes} (h : miStructure s k i = some b) :
    miRead s k i = (0, b) := by
  simp only [miRead, h]

theorem miRead_of_none {s : State} {k i : Nat} (h : miStructure s k i = none) :
    miRead s k i = (Mi.invalidParameter, []) := by
  simp only [miRead, h]

/-- The bus frequency takes one of the three values of R129. -/
theorem miConfigSet_frequency {path v : Nat} (s : State) (h1 : 1 ≤ v) (h3 : v ≤ 3) :
    miConfigSet path 1 v s = (0, { s with pads.mi_config := s.pads.mi_config.put (256 * path + 1) v }) := by
  simp [miConfigSet, h1, h3]

theorem miConfigSet_frequency_of_bad {path v : Nat} (s : State) (h : v = 0 ∨ 3 < v) :
    miConfigSet path 1 v s = (Mi.invalidParameter, s) := by
  have : ¬(1 ≤ v ∧ v ≤ 3) := by omega
  simp [miConfigSet, this]

theorem miConfigSet_of_unknown {path i : Nat} (v : Nat) (s : State) (h : i = 0 ∨ 3 < i) :
    miConfigSet path i v s = (Mi.invalidParameter, s) := by
  unfold miConfigSet
  dsimp only
  split
  case h_4 => rfl
  all_goals omega

theorem miConfigGet_of_unknown {path i : Nat} (s : State) (h : i = 0 ∨ 3 < i) :
    miConfigGet s path i = (Mi.invalidParameter, []) := by
  unfold miConfigGet
  split
  case h_4 => rfl
  all_goals omega

theorem tunnelMode_of_run {s : State} (q : Sqe) (h : s.mode = .run) : tunnelMode s q = true := by
  simp [tunnelMode, h]

theorem tunnelled_identify {s : State} {q : Sqe} {b : Bytes} (p : Nat) (d : Bytes) (hq : q.opcode = 0x06)
    (hb : identifyData s 0 q = (0, b)) : tunnelled p q d s = say (.miResponse p 0 (leBytes 4 0 ++ b)) s := by
  simp [tunnelled, hq, hb]

/-- A tunnelled Format NVM is no command of the sideband (log entry 50). -/
theorem tunnelled_format {s : State} {q : Sqe} (p : Nat) (d : Bytes) (hq : q.opcode = 0x80) :
    tunnelled p q d s = say (.miResponse p Status.invalidOpcode (leBytes 4 0)) s := by
  simp [tunnelled, hq]

/-- In a mode that lets it run, a tunnelled command answers by its opcode. -/
theorem exec_tunnelledAdminCommand_of_run {s : State} {p : Nat} (q : Sqe) (d : Bytes) (hp : p < 2) (h : s.mode = .run) :
    exec (.tunnelledAdminCommand p q d) s = .next (tunnelled p q d s) := by
  show execTunnelledAdminCommand p q d s = _
  rw [execTunnelledAdminCommand, runSideband_of_not_hold hp (by simp [h]), if_pos (tunnelMode_of_run q h)]

/-- A poll of a controller that exists answers with its health. -/
theorem exec_controllerHealthStatusPoll_of_mem {s : State} {p c : Nat} (clear : Bool) (hp : p < 2) (h : s.mode ≠ .hold)
    (hc : c ∈ s.ctrls) : exec (.controllerHealthStatusPoll p c clear) s
      = .next (say (.miResponse p 0 (controllerHealth s c p)) (clearChanged clear c p s)) := by
  show execControllerHealthStatusPoll p c clear s = _
  rw [execControllerHealthStatusPoll, runSideband_of_not_hold hp h, if_pos (List.contains_iff_mem.mpr hc)]

theorem exec_controllerHealthStatusPoll_of_not_mem {s : State} {p c : Nat} (clear : Bool) (hp : p < 2)
    (h : s.mode ≠ .hold) (hc : c ∉ s.ctrls) :
    exec (.controllerHealthStatusPoll p c clear) s = .next (say (.miResponse p Mi.invalidParameter []) s) := by
  show execControllerHealthStatusPoll p c clear s = _
  rw [execControllerHealthStatusPoll, runSideband_of_not_hold hp h, if_neg (by simpa using hc)]

theorem exec_subsystemHealthStatusPoll_of_not_hold {s : State} {p : Nat} (clear : Bool) (hp : p < 2) (h : s.mode ≠ .hold) :
    exec (.subsystemHealthStatusPoll p clear) s
      = .next (say (.miResponse p 0 (subsystemHealth s p)) (clearComposite clear p s)) := by
  show execSubsystemHealthStatusPoll p clear s = _
  rw [execSubsystemHealthStatusPoll, runSideband_of_not_hold hp h]

theorem exec_readNvmeMiDataStructure_of_not_hold {s : State} {p : Nat} (k i : Nat) (hp : p < 2) (h : s.mode ≠ .hold) :
    exec (.readNvmeMiDataStructure p ⟨k, i⟩) s = .next (say (.miResponse p (miRead s k i).1 (miRead s k i).2) s) :=
  runSideband_of_not_hold hp h _

theorem exec_configurationSet_of_not_hold {s : State} {p : Nat} (i v : Nat) (hp : p < 2) (h : s.mode ≠ .hold) :
    exec (.configurationSet p i v) s
      = .next (say (.miResponse p (miConfigSet p i v s).1 []) (miConfigSet p i v s).2) := by
  show execConfigurationSet p i v s = _
  rw [execConfigurationSet, runSideband_of_not_hold hp h]

theorem exec_configurationGet_of_not_hold {s : State} {p : Nat} (i : Nat) (hp : p < 2) (h : s.mode ≠ .hold) :
    exec (.configurationGet p i) s
      = .next (say (.miResponse p (miConfigGet s p i).1 (miConfigGet s p i).2) s) :=
  runSideband_of_not_hold hp h _

/-- Settles O19: in Hold no request runs; in any other mode each is answered by its own operation. -/
theorem sidebandPortsAnswer : Obligations.SidebandPortsAnswer := by
  unfold Obligations.SidebandPortsAnswer
  refine fun s p hp => ⟨fun h op => ⟨runSideband_of_hold hp h _, runSideband_of_hold hp h _⟩, fun h => ?_⟩
  have run := fun f => runSideband_of_not_hold (s := s) hp h f
  have read := fun k i => exec_readNvmeMiDataStructure_of_not_hold (s := s) k i hp h
  have set := fun i v => exec_configurationSet_of_not_hold (s := s) i v hp h
  have get := fun i => exec_configurationGet_of_not_hold (s := s) i hp h
  refine ⟨run _, ?controllers, ?unknown, ?mode, ?frequency, ?badFrequency, ?badSet, get 1, ?badGet,
    exec_subsystemHealthStatusPoll_of_not_hold false hp h, exec_subsystemHealthStatusPoll_of_not_hold true hp h,
    fun c hc => exec_controllerHealthStatusPoll_of_mem false hp h hc,
    fun c hc => exec_controllerHealthStatusPoll_of_mem true hp h hc,
    fun c b hc => exec_controllerHealthStatusPoll_of_not_mem b hp h hc, fun op => run _, ?identify, ?format⟩
  case controllers => rw [read, miRead_of_some (miStructure_controllers s)]
  case unknown =>
    intro k i h5 h256
    rw [read, miRead_of_none (miStructure_of_unknown i h5 h256)]
    rfl
  case mode =>
    intro i
    rw [read, miRead_of_some rfl]
  case frequency =>
    intro v h1 h3
    rw [set, miConfigSet_frequency s h1 h3]
  case badFrequency =>
    intro v hv
    rw [set, miConfigSet_frequency_of_bad s hv]
    rfl
  case badSet =>
    intro i v hi
    rw [set, miConfigSet_of_unknown v s hi]
    rfl
  case badGet =>
    intro i hi
    rw [get, miConfigGet_of_unknown s hi]
    rfl
  case identify =>
    intro q d b hr hq hb
    rw [exec_tunnelledAdminCommand_of_run q d hp hr, tunnelled_identify p d hq hb]
  case format =>
    intro q d hr hq
    rw [exec_tunnelledAdminCommand_of_run q d hp hr, tunnelled_format p d hq]

end Sys2Proof.Machine
end

section
/-!
PROOFS. Data commands begin or end with their status.
-/

namespace Sys2Proof.Machine

/-! ### Statuses -/

@[simp] theorem firstStatus_nil : firstStatus [] = 0 := rfl

@[simp] theorem firstStatus_success (l : List Nat) : firstStatus (0 :: l) = firstStatus l := rfl

@[simp] theorem failIf_false (st : Nat) : failIf false st = 0 := rfl

@[simp] theorem failIf_true (st : Nat) : failIf true st = st := rfl

/-! ### The row of a command on LBAs -/

theorem runEntry_of_fetched {t opcode : Nat} {admin : Bool} {s : State} {e : Entry} (f : Entry → State → State)
    (h : fetchedEntry t admin opcode s = some e) : runEntry t admin opcode f s = .next (f e s) := by
  simp only [runEntry, h]

theorem keyWaits_of_idle {s : State} (h : s.security.genkey = none) (ns lbaf : Nat) (l : List (Nat × Nat)) :
    keyWaits s ns lbaf l = false := by
  simp only [keyWaits, h]

/-- One range beyond the namespace (R321). -/
theorem rangeStatus_of_beyond {m : Namespace} {a n : Nat} (h : m.nsze < a + n) :
    rangeStatus m [(a, n)] = Status.lbaRange := by
  simp [rangeStatus, h]

/-- One range within the namespace and MDTS (R321). -/
theorem rangeStatus_of_within {m : Namespace} {a n : Nat} (h : a + n ≤ m.nsze) (hl : transferLength m n ≤ 2 ^ 24) :
    rangeStatus m [(a, n)] = 0 := by
  have inside : ([(a, n)].any fun r => decide (m.nsze < r.1 + r.2)) = false := by
    simp only [List.any_cons, List.any_nil, Bool.or_false, decide_eq_false_iff_not, Nat.not_lt]
    exact h
  have short : decide (mdtsBytes < total ([(a, n)].map fun r => transferLength m r.2)) = false := by
    simp only [List.map_cons, List.map_nil, total, List.foldl_cons, List.foldl_nil, Nat.zero_add,
      decide_eq_false_iff_not, Nat.not_lt]
    exact hl
  rw [rangeStatus, inside, short]
  rfl

/-- A command on LBAs whose checks fail ends with the first status that is not success. -/
theorem beginLba_of_failed {t st : Nat} {l : Entry → List (Nat × Nat)} {checks : Namespace → Entry → State → List Nat}
    {go : Namespace → Entry → State → State} {e : Entry} {s : State} {m : Namespace} (hm : s.nspace e.sqe.ns = some m)
    (hc : firstStatus (lbaChecks s e m (l e) ++ checks m e s) = st) (hst : st ≠ 0) :
    beginLba t l checks go e s = finishEntry t st 0 s := by
  simp only [beginLba, hm, hc, if_pos hst]

/-- A command on LBAs that passes every check goes on with its ranges in its in-flight entry, while no GenKey runs. -/
theorem beginLba_of_passed {t : Nat} {l : Entry → List (Nat × Nat)} {checks : Namespace → Entry → State → List Nat}
    {go : Namespace → Entry → State → State} {e : Entry} {s : State} {m : Namespace} (hm : s.nspace e.sqe.ns = some m)
    (hg : s.security.genkey = none) (hc : firstStatus (lbaChecks s e m (l e) ++ checks m e s) = 0) :
    beginLba t l checks go e s
      = go m { e with ranges := l e } { s with nvme.tracker := s.nvme.tracker.put t { e with ranges := l e } } := by
  simp [beginLba, hm, hc, keyWaits_of_idle hg]

/-- The checks that every command on LBAs makes first pass, and its own decide. -/
theorem firstStatus_lbaChecks {s : State} {e : Entry} {m : Namespace} {r : List (Nat × Nat)} (own : List Nat)
    (hn : nsidStatus s e = 0) (hf : e.sqe.fuse = 0) (hr : rangeStatus m r = 0) :
    firstStatus (lbaChecks s e m r ++ own) = firstStatus own := by
  simp [lbaChecks, hn, hf, hr]

theorem protectedStatus_of_writable {s : State} (h : s.mode ≠ .readOnly) : protectedStatus s = 0 := by
  simp [protectedStatus, h]

theorem protectedStatus_of_readOnly {s : State} (h : s.mode = .readOnly) :
    protectedStatus s = Status.writeProtected := by
  simp [protectedStatus, h]

/-- An in-flight entry just put is changed in place. -/
theorem onEntry_put_find (n : Nat) (x : Entry) (f : Entry → Entry) (s : State) :
    (onEntry n f { s with nvme.tracker := s.nvme.tracker.put n x }).nvme.tracker.find n = some (f x) := by
  simp [onEntry, Tab.find_put]

theorem changeChecks_pass {l : Entry → List (Nat × Nat)} {m : Namespace} {e : Entry} {s : State} (hp : s.mode ≠ .readOnly)
    (hc : conflict s m e.ctrl true = false) (hw : ∀ r ∈ l e, writeLocked s e.sqe.ns r.1 r.2 m.lbaf = false) :
    firstStatus (changeChecks l m e s) = 0 := by
  have hl : (l e).any (fun r => writeLocked s e.sqe.ns r.1 r.2 m.lbaf) = false := by
    rw [List.any_eq_false]
    exact fun r hr => by simp [hw r hr]
  simp [changeChecks, protectedStatus_of_writable hp, hc, hl]

theorem readChecks_pass {m : Namespace} {e : Entry} {s : State} (hc : conflict s m e.ctrl false = false)
    (hl : readLocked s e.sqe.ns e.sqe.slba e.sqe.blocks m.lbaf = false) (own : List Nat) :
    firstStatus (readChecks m e s ++ own) = firstStatus own := by
  simp [readChecks, hc, hl]

/-- Settles O34: the checks of each row, and what it begins where they pass. -/
theorem dataCommandsBegin : Obligations.DataCommandsBegin := by
  unfold Obligations.DataCommandsBegin
  intro s t n e x m p b hm hn hf hg hx ht
  subst hx ht
  have fuse : failIf (e.sqe.fuse != 0) Status.invalidField = 0 := by simp [hf]
  refine ⟨?flush, ?beyond, fun hr hl => ?within, ?hints, ?deallocate⟩
  case flush =>
    intro h hb
    show execIoFlush n s = _
    rw [execIoFlush, runEntry_of_fetched _ h, fuse, if_neg hb, hn]
    rfl
  case beyond =>
    intro h hb
    show execIoWrite n p s = _
    rw [execIoWrite, runEntry_of_fetched _ h]
    refine congrArg _ (beginLba_of_failed hm ?_ (by decide))
    rw [lbaChecks, fuse, hn, oneRange, rangeStatus_of_beyond hb]
    rfl
  case within =>
    have checked (own : List Nat) : firstStatus (lbaChecks s e m (oneRange e) ++ own) = firstStatus own :=
      firstStatus_lbaChecks own hn hf (rangeStatus_of_within hr hl)
    refine ⟨?protect, ?write, ?read, ?verify, ?compare, ?zeroes⟩
    case protect =>
      intro h hp
      show execIoWrite n p s = _
      rw [execIoWrite, runEntry_of_fetched _ h]
      refine congrArg _ (beginLba_of_failed hm ?_ (by decide))
      rw [checked, protectedStatus_of_readOnly hp]
      rfl
    case write =>
      intro h hp hb hc hq
      show ∃ u, execIoWrite n p s = _ ∧ _
      rw [execIoWrite, runEntry_of_fetched _ h, beginLba_of_passed hm hg]
      · exact ⟨_, rfl, onEntry_shroud .., onEntry_put_find ..⟩
      · rw [checked, protectedStatus_of_writable hp, hb, hc, hq]
        rfl
    case read =>
      intro h hc hk hq
      show execIoRead n p s = _
      rw [execIoRead, runEntry_of_fetched _ h, beginLba_of_passed hm hg]
      rw [checked, readChecks_pass hc hk, hq]
      rfl
    case verify =>
      intro h hc hk
      show execIoVerify n s = _
      rw [execIoVerify, runEntry_of_fetched _ h, beginLba_of_passed hm hg]
      rw [checked, ← List.append_nil (readChecks m e s), readChecks_pass hc hk]
      rfl
    case compare =>
      intro h hc hk hq
      show execIoCompare n p s = _
      rw [execIoCompare, runEntry_of_fetched _ h, beginLba_of_passed hm hg]
      rw [checked, readChecks_pass hc hk, hq]
      rfl
    case zeroes =>
      intro h hp hc hw
      show execIoWriteZeroes n s = _
      rw [execIoWriteZeroes, runEntry_of_fetched _ h, beginLba_of_passed hm hg]
      rw [checked, changeChecks_pass hp hc]
      simpa [oneRange] using hw
  case hints =>
    intro h ha
    show execDatasetManagement n b s = _
    rw [execDatasetManagement, runEntry_of_fetched _ h, if_pos (by rw [ha]; rfl), fuse, hn]
    rfl
  case deallocate =>
    intro h ha hd hr hp hc hw
    show execDatasetManagement n b s = _
    rw [execDatasetManagement, runEntry_of_fetched _ h, if_neg (by rw [ha]; decide), if_neg (by simpa using hd),
      beginLba_of_passed hm hg]
    rw [firstStatus_lbaChecks _ hn hf hr, changeChecks_pass hp hc hw]

end Sys2Proof.Machine
end

section
/-!
PROOFS. The ledger, the sequencers, the channels and the decoders.
-/

namespace Sys2Proof.Machine

/-! ### The starvation ceilings (R38, R174, R318) -/

/-- The oldest waiting operation past the ceiling holds the ledger's ceiling (R38, R174). -/
theorem exec_starvationCeilingReached_ledger {s : State} {i : Nat} {l : List Nat} {o : NandOp}
    (hq : ledgerQueue s = i :: l) (ho : s.op i = some o) (hs : starved s o.stamp = true) (hc : s.media.ceiling = none)
    (hm : s.mediaOn = true) : exec (.starvationCeilingReached .ledger) s
      = .next (ledgerPass (ceilingGrant { s with media.ceiling := some i })) := by
  show execStarvationCeilingReached .ledger s = _
  simp only [execStarvationCeilingReached, hq, ho]
  exact if_pos ⟨congrArg some hs, by rw [hc]; rfl, hm⟩

/-- The oldest waiting slice past the ceiling holds the write buffer's ceiling (R318, R327). -/
theorem exec_starvationCeilingReached_writeBuffer {s : State} {t v : Nat} {l : List (Nat × Nat)}
    (hq : waitingSlices s = (t, v) :: l) (hs : starved s v = true) (hc : s.nvme.ceiling = none) :
    exec (.starvationCeilingReached .writeBuffer) s = .next (ceilingGrant { s with nvme.ceiling := some t }) := by
  show execStarvationCeilingReached .writeBuffer s = _
  simp only [execStarvationCeilingReached, hq]
  exact if_pos ⟨hs, by rw [hc]; rfl⟩

/-- The oldest eligible operation of a channel past the ceiling is granted (R38, R508). -/
theorem exec_starvationCeilingReached_sequencer {s : State} {c i : Nat} {o : NandOp} (hq : oldestEligible s c = some i)
    (ho : s.op i = some o) (hs : starved s o.stamp = true) (hm : s.mediaOn = true) :
    exec (.starvationCeilingReached (.sequencer c)) s = .next (grantOp i (ceilingGrant s)) := by
  show execStarvationCeilingReached (.sequencer c) s = _
  simp only [execStarvationCeilingReached, hq, ho]
  exact if_pos ⟨congrArg some hs, hm⟩

/-! ### Training and discovery (R491, R492, R497, R500) -/

/-- A training that has not ended well takes the next rate, or fails the channel when there is none (R492). -/
theorem exec_channelTrainingDone_failed {s e : State} {c : Nat} {b : Bool}
    (ht : (s.media.channels.look {} c).training = some b)
    (he : e = onChannelErr c (fun r => { r with train_fail := satAdd r.train_fail 1 }) s) :
    exec (.channelTrainingDone c false) s
      = match nextRate e c (e.ch.chnStatus.look {} c).mode.toNat (e.ch.chnStatus.look {} c).rate.toNat with
        | some (m, x) => .next (onChannelStatus c (fun r => { r with mode := BitVec.ofNat 4 m, rate := BitVec.ofNat 4 x }) e)
        | none => .next (settleMedia (failChannel c e)) := by
  subst he
  show execChannelTrainingDone c false s = _
  rw [execChannelTrainingDone, if_pos (by rw [ht]; rfl)]
  rfl

theorem exec_channelTrainingDone_ok {s : State} {c : Nat} {b : Bool}
    (ht : (s.media.channels.look {} c).training = some b) :
    exec (.channelTrainingDone c true) s = .next (settleMedia (trained c s)) := by
  show execChannelTrainingDone c true s = _
  rw [execChannelTrainingDone, if_pos (by rw [ht]; rfl)]
  rfl

/-! ### What a decode leaves of the operations (R518, R520, R521) -/

theorem op_onOp_self {s : State} {i : Nat} {o : NandOp} (f : NandOp → NandOp) (h : s.op i = some o) :
    (onOp i f s).op i = some (f o) := by
  simp [onOp, State.op, Tab.find_put, show s.media.ops.find i = some o from h]

/-- A report for refresh closes no group and leaves no window: the operations stay (R521). -/
theorem reportRefresh_ops (k : Nat) (s : State) : (reportRefresh k s).media.ops = s.media.ops :=
  ite_shows (f := (·.media.ops)) rfl (ite_shows (f := (·.media.ops)) rfl rfl)

theorem recordDecodes_ops (l : List (Nat × Nat × Nat)) (o : NandOp) (s : State) :
    (recordDecodes l o s).media.ops = s.media.ops := by
  unfold recordDecodes
  refine ite_shows (f := (·.media.ops)) (ite_shows (f := (·.media.ops)) ?_ ((reportRefresh_ops ..).trans ?_)) ?_ <;>
    exact ite_shows (f := (·.media.ops)) rfl rfl

/-- Positions left pending by the codewords that decoded: only those of the operation count. -/
theorem filter_pending_of_good (r : List Decoded) (pending : List Nat) :
    (pending.filter fun p => !(r.filter fun x => x.ok && pending.contains x.position).any fun x => x.position == p)
      = pending.filter fun p => !r.any fun x => x.ok && x.position == p := by
  refine List.filter_congr fun p hp => ?_
  rw [List.any_filter]
  congr 2
  funext x
  by_cases h : x.position = p
  · simp [h, hp]
  · have hb : (x.position == p) = false := by simpa using h
    simp [hb]

/-- Codewords of an operation that decoded: position, bits corrected and level index. -/
def decodeNotes (r : List Decoded) (o : NandOp) : List (Nat × Nat × Nat) :=
  (r.filter fun x => x.ok && o.pending.contains x.position).map fun x => (x.position, x.bits, o.senses)

/-- The level with the fewest unsatisfied checks so far, with that of a hard decode of `o`. -/
def bestLevel (r : List Decoded) (o : NandOp) : Option (Nat × Nat) :=
  let left := total ((r.filter fun x => !x.ok && o.pending.contains x.position).map Decoded.bits)
  match o.best with
  | some (l, n) => if left < n then some (o.level, left) else some (l, n)
  | none => some (o.level, left)

/-- The operation after a hard decode of `o`: what did not decode stays pending, and the decoder is free. -/
def hardDecoded (r : List Decoded) (o x : NandOp) : NandOp :=
  { x with
    pending := o.pending.filter fun p => !(r.filter fun y => y.ok && o.pending.contains y.position).any fun y => y.position == p
    best := bestLevel r o, results := x.results ++ decodeNotes r o, decoder := false }

/-- The level at which a page decoded whole is where the next read of its block begins. -/
def startLevelNoted (o : NandOp) (s : State) : State :=
  if o.level = startLevel s (blockKey o.die o.block) then s
  else { s with media.start_levels := s.media.start_levels.put (o.die * 8 + ageBin s (blockKey o.die o.block)) o.level }

theorem startLevelNoted_ops (o : NandOp) (s : State) : (startLevelNoted o s).media.ops = s.media.ops :=
  ite_shows (f := (·.media.ops)) rfl rfl

/-- A hard decode: an unconfirmed read waits, a page decoded whole is served, any other read goes to its next sense (R393,
R518, R520). -/
theorem exec_hardDecodeComplete_of_decoding {s t : State} {i : Nat} {o : NandOp} {r : List Decoded} (ho : s.op i = some o)
    (hd : o.state = .decoding) (hs : o.soft = false) (hk : o.decoder = true) (hp : o.pending ≠ [])
    (ht : t = recordDecodes (decodeNotes r o) o (onOp i (hardDecoded r o) s)) :
    exec (.hardDecodeComplete i r) s =
      if o.unconfirmed = true then .next (grantDecoders (onOp i (hardDecoded r o) s))
      else if (hardDecoded r o o).pending = [] then .next (settleMedia (readEnded i (startLevelNoted o t)))
      else .next (settleMedia (nextSense i t)) := by
  subst ht
  show execHardDecodeComplete i r s = _
  simp only [execHardDecodeComplete, ho]
  exact if_pos ⟨hd, hs, hk, hp⟩

/-- A soft decode of `o` leaves what did not decode pending. -/
def softDecoded (r : List Decoded) (o x : NandOp) : NandOp :=
  { x with
    pending := x.pending.filter fun p => !(r.filter fun y => y.ok && o.pending.contains y.position).any fun y => y.position == p }

/-- What a soft decode counts: statistics of the die, totals, and a report for refresh where any codeword decoded (R520,
R521). -/
def softNoted (r : List Decoded) (o : NandOp) (s : State) : State :=
  let good := r.filter fun x => x.ok && o.pending.contains x.position
  let t := noteDie o.die (fun d => { d with bits := d.bits + total (good.map Decoded.bits), soft := d.soft + good.length }) { s with
    ch.ldpcDecoded := s.ch.ldpcDecoded + BitVec.ofNat 64 good.length
    ch.ldpcSoft := s.ch.ldpcSoft + BitVec.ofNat 64 good.length
    health.counts.cw_soft := s.health.counts.cw_soft + good.length }
  if 0 < good.length then reportRefresh (blockKey o.die o.block) t else t

theorem softNoted_ops (r : List Decoded) (o : NandOp) (s : State) : (softNoted r o s).media.ops = s.media.ops :=
  ite_shows (f := (·.media.ops)) (reportRefresh_ops ..) rfl

/-- A soft decode is the last: what is still pending is given up (R518, R520). -/
theorem exec_softDecodeComplete_of_decoding {s : State} {i : Nat} {o : NandOp} {r : List Decoded} (ho : s.op i = some o)
    (hd : o.state = .decoding) (hs : o.soft = true) (hk : o.decoder = true) :
    exec (.softDecodeComplete i r) s
      = .next (settleMedia (giveUp i (onOp i (softDecoded r o) (softNoted r o s)))) := by
  show execSoftDecodeComplete i r s = _
  simp only [execSoftDecodeComplete, ho]
  exact if_pos ⟨hd, hs, hk⟩

/-! ### Operations at a die (R501, R508, R512) -/

theorem exec_programComplete_of_running {s : State} {i : Nat} {o : NandOp} (b : Bool) (ho : s.op i = some o)
    (hk : o.kind = .program) (hs : o.state = .running ∨ o.state = .suspending) :
    exec (.programComplete i b) s = .next (settleMedia (if o.overdue then freeLun i o.die (dropOp i s)
      else programReported o b (freeLun i o.die (dropOp i s)))) := by
  show execProgramComplete i b s = _
  simp only [execProgramComplete, ho]
  exact if_pos ⟨hk, hs⟩

theorem exec_readSenseComplete_of_running {s : State} {i : Nat} {o : NandOp} (f : List Sensed) (ho : s.op i = some o)
    (hk : o.kind = .read) (hs : o.state = .running) (hl : (s.lun o.die).running = some i) :
    exec (.readSenseComplete i f) s = .next (settleMedia
      (each (i :: (s.media.ops.filter fun p => p.2.merged == some i).map Prod.fst) (senseOp f)
        (countSense (blockKey o.die o.block) (onLun o.die (fun l => { l with running := none }) s)))) := by
  show execReadSenseComplete i f s = _
  simp only [execReadSenseComplete, ho]
  exact if_pos ⟨hs, hk, hl⟩

/-- Once its operation is suspended, reads are issued to the LUN (R512). -/
theorem exec_suspendComplete_of_suspending {s : State} {d j : Nat} {o : NandOp} (hl : (s.lun d).running = some j)
    (ho : s.op j = some o) (hs : o.state = .suspending) :
    exec (.suspendComplete d) s = .next (sequencerGrant (dieChannel d) (arm .suspHold d s.ch.suspHoldMax.toNat
      (onLun d (fun l => { l with running := none, suspended := some j, susp_reads := 0 })
        (onOp j (fun o => { o with state := .suspended }) s)))) := by
  show execSuspendComplete d s = _
  simp only [execSuspendComplete, hl, ho, onLun_ch, onOp_ch]
  exact if_pos hs

/-- A read of a LUN can be granted. -/
def readEligible (s : State) (d : Nat) : Bool :=
  s.media.ops.vals.any fun o => o.die == d && (match o.kind with | .read => true | _ => false) && eligible s o

theorem readEligible_eq_false {s : State} {d : Nat}
    (h : ∀ p ∈ s.media.ops, p.2.die = d → p.2.kind = .read → eligible s p.2 = false) : readEligible s d = false := by
  rw [readEligible, List.any_eq_false]
  intro o ho
  obtain ⟨p, hp, rfl⟩ := List.mem_map.mp ho
  rw [Bool.and_eq_true, Bool.and_eq_true, beq_iff_eq]
  rintro ⟨⟨hd, hk⟩, he⟩
  have read : p.2.kind = .read := by
    split at hk
    · assumption
    · contradiction
  rw [h p hp hd read] at he
  contradiction

/-- A suspended operation asks to go on when its hold has ended, or when no read of its LUN is eligible (R512). -/
theorem exec_suspendResume_of_due {s : State} {d j : Nat} {o : NandOp} (hl : (s.lun d).suspended = some j)
    (hr : (s.lun d).running = none) (ho : s.op j = some o) (hs : o.state = .suspended)
    (h : resumeDue s d = true ∨ readEligible s d = false) :
    exec (.suspendResume d) s = .next (disarm .suspHold d (onOp j (fun o => { o with state := .resuming }) s)) := by
  have due : (resumeDue s d || !readEligible s d) = true := by simpa using h
  have suspended : ((s.op j).map NandOp.state == some .suspended) = true := by simp [ho, hs]
  show execSuspendResume d s = _
  simp only [execSuspendResume, hl]
  refine if_pos ?_
  rw [hr, suspended]
  exact due

/-- Settles O40: the grants and the trainings by their conditions, the decodes by what they leave of their operation. -/
theorem channelsServeOperations : Obligations.ChannelsServeOperations := by
  unfold Obligations.ChannelsServeOperations
  intro s
  refine ⟨rfl, fun c => rfl, fun i l o => exec_starvationCeilingReached_ledger,
    fun t v l => exec_starvationCeilingReached_writeBuffer, fun c i o => exec_starvationCeilingReached_sequencer,
    ?retrain, ?training, ?discovery, ?program, fun i o f => exec_readSenseComplete_of_running f, ?hard, ?soft,
    fun d j o => exec_suspendComplete_of_suspending, ?resume⟩
  case retrain =>
    intro c hm hs hq hd
    exact if_pos ⟨hm, by simp [hs], by simp [hq], hd⟩
  case training =>
    intro c b e ht he
    have failed := exec_channelTrainingDone_failed ht he
    refine ⟨exec_channelTrainingDone_ok ht, fun m x hn => ?_, fun hn => ?_⟩
    · rw [failed, hn]
    · rw [failed, hn]
  case discovery =>
    intro p found mine chans dies lost hp h8 ht hm hc hd hl
    subst hm hc hd hl
    refine ⟨_, _, if_pos ⟨hp, h8, ?_⟩, rfl, rfl⟩
    simpa using ht
  case program =>
    intro i o ho hk hs b
    have done := exec_programComplete_of_running b ho hk hs
    exact ⟨fun h => by simpa [h] using done, fun h => by simpa [h] using done⟩
  case hard =>
    intro i o r rest ho hd hs hk hp hr
    rw [← filter_pending_of_good] at hr
    subst hr
    have done := exec_hardDecodeComplete_of_decoding (r := r) ho hd hs hk hp rfl
    have left := op_onOp_self (hardDecoded r o) ho
    have noted : (recordDecodes (decodeNotes r o) o (onOp i (hardDecoded r o) s)).op i = some (hardDecoded r o o) := by
      rw [State.op, recordDecodes_ops]
      exact left
    by_cases hu : o.unconfirmed = true
    · exact ⟨_, hardDecoded r o o, left, rfl, rfl, fun _ => done.trans (if_pos hu), by simp [hu], by simp [hu]⟩
    · rw [if_neg hu] at done
      by_cases he : (hardDecoded r o o).pending = []
      · refine ⟨_, hardDecoded r o o, ?_, rfl, rfl, by simp [hu], fun _ _ => done.trans (if_pos he), fun _ h => absurd he h⟩
        rw [State.op, startLevelNoted_ops]
        exact noted
      · exact ⟨_, hardDecoded r o o, noted, rfl, rfl, by simp [hu], fun _ h => absurd h he, fun _ _ => done.trans (if_neg he)⟩
  case soft =>
    intro i o r ho hd hs hk
    have noted : (softNoted r o s).op i = some o := by
      rw [State.op, softNoted_ops]
      exact ho
    refine ⟨_, _, exec_softDecodeComplete_of_decoding ho hd hs hk, op_onOp_self (softDecoded r o) noted, fun y => ?_⟩
    show y ∈ (o.pending.filter _) ↔ _
    rw [filter_pending_of_good, List.mem_filter]
    simp
  case resume =>
    intro d j o hl hr ho hs h
    exact exec_suspendResume_of_due hl hr ho hs (h.imp_right readEligible_eq_false)

end Sys2Proof.Machine
end

section
/-!
PROOFS. The steps of the thermal loop.
-/

namespace Sys2Proof.Machine

/-! ### The mode across the operations of the loop -/

theorem noteMi_mode (c flags : Nat) (s : State) : (noteMi c flags s).mode = s.mode := onCtrl_mode ..

@[simp] theorem noteMiAll_mode (flags : Nat) (s : State) : (noteMiAll flags s).mode = s.mode :=
  each_keeps (f := State.mode) (fun c t => noteMi_mode c flags t) _ _

@[simp] theorem showComposite_mode (s : State) : (showComposite s).mode = s.mode := by
  unfold showComposite
  refine ite_shows (f := State.mode) ((request_mode ..).trans ?_) ?_ <;>
    exact ite_shows (f := State.mode) (request_mode ..) rfl

/-! ### The model's step (R568, R578, R583) -/

/-- THERMAL_MODEL_STEP up to its tests: the nodes take their new temperatures and the composite is shown. -/
def modelStepped (l : List Nat) (s : State) : State :=
  showComposite (arm .thermalStep 0 s.thm.step.toNat { s with
    thermal.temps := (List.range 14).map fun i => nodeStep s i (nodePower s l i)
    thermal.pair_sum := [], thermal.pair_cycles := 0 })

/-- The step with its note of a changed composite temperature. -/
def modelNoted (l : List Nat) (s : State) : State :=
  if sensorTemp (modelStepped l s) 0 = sensorTemp s 0 then modelStepped l s
  else noteMiAll Mi.temperature (modelStepped l s)

theorem modelNoted_mode (l : List Nat) (s : State) : (modelNoted l s).mode = s.mode :=
  have h : (modelStepped l s).mode = s.mode := showComposite_mode _
  ite_shows (f := State.mode) h ((noteMiAll_mode ..).trans h)

/-- In Thermal Halt the step makes no test (R584). -/
theorem exec_thermalModelStep_of_halted {s : State} (l : List Nat) (hd : s.due .thermalStep 0 = true)
    (hr : s.thm.status.running = true) (hm : s.mode = .thermalHalt) :
    exec (.thermalModelStep l) s = .next (noteHealth (modelNoted l s)) := by
  show execThermalModelStep l s = _
  rw [execThermalModelStep, if_pos (by rw [hd, hr]; rfl)]
  refine if_pos (c := (match (modelNoted l s).mode with | .thermalHalt => true | _ => false) = true) ?_
  rw [modelNoted_mode, hm]

/-- In any other mode Warning and the halt threshold are tested (R578, R583). -/
theorem exec_thermalModelStep_of_active {s u : State} (l : List Nat) (hd : s.due .thermalStep 0 = true)
    (hr : s.thm.status.running = true) (hm : s.mode ≠ .thermalHalt) (hu : u = noteHealth (testWarning (modelNoted l s))) :
    exec (.thermalModelStep l) s
      = .next (showLevel (if degrees u.thm.thresh.halt.toNat ≤ u.m ∧ u.thermal.halt = none then thresholdReached u else u)) := by
  subst hu
  show execThermalModelStep l s = _
  rw [execThermalModelStep, if_pos (by rw [hd, hr]; rfl)]
  refine (if_neg (c := (match (modelNoted l s).mode with | .thermalHalt => true | _ => false) = true) ?_).trans ?_
  · rw [modelNoted_mode]
    revert hm
    cases s.mode <;> simp
  · simp only [Bool.and_eq_true, decide_eq_true_eq, Option.isNone_iff_eq_none]
    exact (apply_ite (fun t => Host.Outcome.next (showLevel t)) _ _ _).symm

/-! ### Calibration (R571 to R576) -/

/-- The commands of the loop do nothing while the model does not run (R573). -/
theorem exec_thermalLoop_of_stopped {s : State} (l : List Nat) (d : List DiodeReading) (x : DiodeReading)
    (h : s.thm.status.running = false) :
    exec (.thermalModelStep l) s = .next s ∧ exec (.thermalCalibration d x) s = .next s ∧
      exec .throttleTest s = .next s := by
  refine ⟨?_, ?_, ?_⟩
  · show execThermalModelStep l s = _
    simp [execThermalModelStep, h]
  · show execThermalCalibration d x s = _
    simp [execThermalCalibration, h]
  · show execThrottleTest s = _
    simp [execThrottleTest, h]

/-- Every die diode is excluded. -/
def allExcluded (s : State) : Bool := (List.range 6).all fun i => s.thermal.excluded.has i

theorem allExcluded_iff (s : State) : allExcluded s = true ↔ ∀ i, i < 6 → s.thermal.excluded.has i = true := by
  simp [allExcluded]

/-- A calibration takes the seven readings; then the model starts anew, or its corrections are made (R572, R574; log
entry 125). -/
theorem exec_thermalCalibration_of_running {s t : State} (l : List DiodeReading) (x : DiodeReading)
    (hd : s.due .thermalCal 0 = true) (hr : s.thm.status.running = true)
    (ht : t = takeReading 6 x (each (List.range 6) (fun k => takeReading k (l.getD k .fault))
      (arm .thermalCal 0 s.thm.calInterval.toNat s))) :
    exec (.thermalCalibration l x) s = .next (noteHealth (countTimes (compensate (showSources
      (if allExcluded t && !t.thm.status.model_degraded then raise (src 3 8) 0 [] (startModel l x t)
        else calibrateExt (calibrateDie t)))))) := by
  subst ht
  show execThermalCalibration l x s = _
  rw [execThermalCalibration, if_pos (by rw [hd, hr]; rfl)]
  rfl

/-! ### The throttle loop (R579 to R581) -/

/-- In Flush and Thermal Halt the throttle test is frozen (R92, R581). -/
theorem exec_throttleTest_of_frozen {s : State} (h : s.mode = .flush ∨ s.mode = .thermalHalt) :
    exec .throttleTest s = .next s := by
  show execThrottleTest s = _
  rcases h with h | h <;> simp [execThrottleTest, h]

/-- A test above the throttle threshold raises, one below it by more than the hysteresis lowers (R580). -/
theorem exec_throttleTest_of_active {s t : State} (hd : s.due .throttle 0 = true) (hr : s.thm.status.running = true)
    (hf : s.mode ≠ .flush) (hh : s.mode ≠ .thermalHalt) (ht : t = arm .throttle 0 s.thm.throttlePeriod.toNat s) :
    exec .throttleTest s =
      if degrees s.thm.thresh.throttle.toNat ≤ s.m then .next (showLevel (throttleUp t))
      else if s.thm.status.throttling = true
          ∧ s.m < degrees s.thm.thresh.throttle.toNat - degrees s.thm.thresh.hyst.toNat then
        .next (showLevel (throttleDown t))
      else .next t := by
  subst ht
  show execThrottleTest s = _
  rw [execThrottleTest, if_pos (by rw [hd, hr]; rfl)]
  split
  · contradiction
  · contradiction
  · simp only [Bool.and_eq_true, decide_eq_true_eq]
    rfl

theorem degrees_nonneg (n : Nat) : 0 ≤ degrees n := by
  unfold degrees
  omega

/-! ### The end of an entry into Thermal Halt (R49, R50) -/

/-- The counts and the health page that the end of an entry writes: in Start, no page (R219). -/
def haltCounted (s : State) : State :=
  if s.mode = .start then { s with health.counts.halt_entries := s.health.counts.halt_entries + 1 }
  else writeHealthPage (postRest { s with health.counts.halt_entries := s.health.counts.halt_entries + 1 })

/-- A reset that waited for the end of the entry is handled in the state it leaves (R50). -/
theorem exec_thermalHaltEntryComplete_of_recorded {s t : State} {r : HaltRecord} (he : s.thermal.entry = some .record)
    (hh : s.thermal.halt = some r) (hp : recordPending [2] s = false)
    (ht : t = tellStopped (haltOff (setMode .thermalHalt { haltCounted s with
      thermal.entry := none, thermal.halt := none }))) :
    exec .thermalHaltEntryComplete s = match t.reset_ctl.deferred with
      | some a => if levelOf t a.code = 5 then .next (assertL5 a false t) else .next (actL4 a t)
      | none => .next t := by
  subst ht
  show execThermalHaltEntryComplete s = _
  simp only [execThermalHaltEntryComplete, he, hh, hp, haltCounted]
  cases s.mode <;> rfl

/-- Settles O42: each command of the loop by its own equation, its tests decided by the case. -/
theorem thermalLoopActs : Obligations.ThermalLoopActs := by
  unfold Obligations.ThermalLoopActs
  intro s
  refine ⟨?step, fun l x => exec_thermalLoop_of_stopped l [] x, ?calibration, ?throttle, ?level, ?asked, ?entry⟩
  case step =>
    intro l t u v hd hr ht hu hv
    subst ht
    have hu : u = modelNoted l s := hu
    rw [hu] at hv ⊢
    refine ⟨exec_thermalModelStep_of_halted l hd hr, fun hm => ?_⟩
    rw [exec_thermalModelStep_of_active l hd hr hm hv]
    refine ⟨fun h => ?_, fun h1 h2 => ?_⟩
    · rw [if_neg]
      rintro ⟨h1, h2⟩
      rcases h with h | h
      · exact Int.not_le.mpr h h1
      · exact h h2
    · rw [if_pos ⟨h1, h2⟩]
  case calibration =>
    intro l x t hd hr ht
    rw [exec_thermalCalibration_of_running l x hd hr ht]
    refine ⟨fun h => ?_, fun h1 h2 => ?_⟩
    · rw [if_neg]
      rcases h with ⟨i, hi, h⟩ | h
      · intro ha
        rw [Bool.and_eq_true, allExcluded_iff] at ha
        exact absurd (ha.1 i hi) (by simp [h])
      · simp [h]
    · rw [if_pos (by rw [(allExcluded_iff t).mpr h1, h2]; rfl)]
  case throttle =>
    intro hd hr
    refine ⟨exec_throttleTest_of_frozen, fun t hf hh ht => ?_⟩
    rw [exec_throttleTest_of_active hd hr hf hh ht]
    have hy := degrees_nonneg s.thm.thresh.hyst.toNat
    refine ⟨fun h => if_pos h, fun h1 h2 => ?_, fun h1 h2 => ?_⟩
    · rw [if_neg (Int.not_le.mpr h1), if_neg (by simp [h2])]
    · rw [if_neg (by omega), if_pos ⟨h1, h2⟩]
  case level =>
    intro h
    show execClockLevelEffective s = _
    simp only [execClockLevelEffective, h]
  case asked =>
    intro k h
    show execClockLevelEffective s = _
    simp only [execClockLevelEffective, h]
  case entry =>
    intro r u t he hh hp hs hn ht
    have hu : u = haltCounted s := by
      unfold haltCounted
      split
      case isTrue h => exact hs h
      case isFalse h => exact hn h
    rw [hu] at ht
    rw [exec_thermalHaltEntryComplete_of_recorded he hh hp ht]
    refine ⟨fun h => by rw [h], fun a h => ⟨fun h5 => ?_, fun h5 => ?_⟩⟩
    · rw [h]
      exact if_pos h5
    · rw [h]
      exact if_neg h5

end Sys2Proof.Machine
end

section
/-!
PROOFS. Campion: stamps under their reservation, the idle cycle, the timers of dialogs, and what a good dialog does to H.
-/

namespace Sys2Proof.Machine

/-! ### Issue under the reservation (R62, R76, R83) -/

theorem issueNow_stamp (s : State) : (issueNow s).1 = s.flagged s.nextStamp := by
  unfold issueNow
  dsimp only
  split <;> rfl

theorem issueNow_last (s : State) : (issueNow s).2.time.last = s.nextStamp := rfl

/-- A stamp under the reservation leaves it; one beyond it is issued under a new one, CAMP_RESERVE_SPAN above it (R83). -/
theorem issueNow_snd_eq (s : State) :
    (issueNow s).2 = setLast s.nextStamp (if s.nextStamp ≤ s.camp.reserve.toNat then s
      else setReservation (s.nextStamp + s.camp.reserveSpan.toNat) s) := rfl

/-- The reservation in force after an issue covers the stamp, and a new one stands in all three places (R83). -/
theorem issueNow_reserved {s : State} (h : s.nextStamp + s.camp.reserveSpan.toNat < 2 ^ 64) :
    s.nextStamp ≤ (issueNow s).2.camp.reserve.toNat ∧
    ((issueNow s).2.camp.reserve = s.camp.reserve ∨
      (issueNow s).2.reset_ctl.retention.reservation = (issueNow s).2.camp.reserve.toNat ∧
      (issueNow s).2.shroud.header_reserve = (issueNow s).2.camp.reserve.toNat) := by
  rw [issueNow_snd_eq]
  split
  case isTrue covered => exact ⟨covered, .inl rfl⟩
  case isFalse =>
    have new : (BitVec.ofNat 64 (s.nextStamp + s.camp.reserveSpan.toNat)).toNat
        = s.nextStamp + s.camp.reserveSpan.toNat := Nat.mod_eq_of_lt h
    exact ⟨Nat.le_trans (Nat.le_add_right ..) (Nat.le_of_eq new.symm), .inr ⟨new.symm, new.symm⟩⟩

/-- Settles O1: the stamp is the next one, and the reservation covers it before it is issued. -/
theorem stampsRiseUnderReservation : Obligations.StampsRiseUnderReservation := by
  unfold Obligations.StampsRiseUnderReservation
  intro s h
  have value : (issueNow s).1.stamp.toNat = s.nextStamp := by
    rw [issueNow_stamp]
    exact Nat.mod_eq_of_lt (Nat.lt_of_le_of_lt (Nat.le_add_right ..) h)
  have rises : s.time.last < s.nextStamp := Nat.lt_of_succ_le (Nat.le_max_right ..)
  obtain ⟨covers, kept⟩ := issueNow_reserved h
  exact ⟨value, issueNow_last s, rises, congrArg Stamped.unanch (issueNow_stamp s), Nat.le_trans (Nat.le_of_eq value) covers, kept,
    issueNow_recorded s⟩

/-! ### The idle cycle (R59, R60, R566) -/

theorem oscillate_of_hold {s : State} (h : s.mode = .hold) : oscillate s = s := by
  simp only [oscillate, h]

theorem oscillate_of_not_hold {s : State} (h : s.mode ≠ .hold) :
    oscillate s = { s with
      time.hq := s.time.hq + rateOf s.camp.rateAdj.toInt
      reset_ctl.cycles := s.reset_ctl.cycles + 1
      health.counts.power_on_cycles := s.health.counts.power_on_cycles + 1 } := by
  unfold oscillate
  split
  · contradiction
  · rfl

/-- The charges of the pairs are noted in their sum and its count of cycles only. -/
theorem noteCharge_eq (s : State) :
    ∃ sum cycles, noteCharge s = { s with thermal.pair_sum := sum, thermal.pair_cycles := cycles } := by
  unfold noteCharge
  split <;> exact ⟨_, _, rfl⟩

theorem noteCharge_of_stopped {s : State} (h : s.thm.status.running = false) : noteCharge s = s :=
  if_neg (Bool.eq_false_iff.mp h)

/-- A step on an empty queue is one cycle: H as the mode lets it advance, and the charges noted. -/
theorem step_idle {s t : State} (hp : s.pending = []) (ho : oscillate s = t) :
    ∃ sum cycles, step s = .next { t with thermal.pair_sum := sum, thermal.pair_cycles := cycles } := by
  obtain ⟨sum, cycles, noted⟩ := noteCharge_eq t
  exact ⟨sum, cycles, by rw [step_of_empty hp, tick, ho, noted]⟩

/-- Settles O3: by the mode, what the oscillator does in it. -/
theorem idleCycleAdvancesTime : Obligations.IdleCycleAdvancesTime := by
  unfold Obligations.IdleCycleAdvancesTime
  intro s hp
  refine ⟨fun hm => ?counts, fun hm => ?stands, fun hr hm => ?stopped⟩
  case counts =>
    obtain ⟨sum, cycles, h⟩ := step_idle hp (oscillate_of_not_hold hm)
    exact ⟨_, h, rfl, rfl, rfl⟩
  case stands =>
    obtain ⟨sum, cycles, h⟩ := step_idle hp (oscillate_of_hold hm)
    exact ⟨_, h, rfl, rfl⟩
  case stopped =>
    rw [step_of_empty hp, tick, oscillate_of_hold hm, noteCharge_of_stopped hr]

/-! ### The timers of dialogs (R69, R75, R98) -/

theorem dialogPort_arm (k : TimerKind) (i n : Nat) (s : State) : dialogPort (arm k i n s) = dialogPort s := rfl

theorem startDialog_of_port {s : State} {n : Nat} (h : dialogPort s = some n) :
    startDialog s = say (.ptmRequest n) (arm .ptmResponse 0 (2 ^ 22)
      { failDialog s with time.dialog := some n, time.dialog_sent := s.run }) := by
  simp only [startDialog, h]

theorem startDialog_of_noPort {s : State} (h : dialogPort s = none) : startDialog s = s := by
  simp only [startDialog, h]

theorem failDialog_of_open {s : State} {n : Nat} (h : s.time.dialog = some n) :
    failDialog s = disarm .ptmResponse 0 (countFailed { s with time.dialog := none }) := by
  simp only [failDialog, h]

theorem exec_ptmDialogInterval_of_due {s : State} (h : s.due .ptmInterval 0 = true) :
    exec .ptmDialogInterval s = .next (startDialog (arm .ptmInterval 0 s.camp.ptmInterval.toNat s)) := if_pos h

theorem exec_campRedialog_of_held {s : State} (h : s.isHeld .mgmt = true) : exec .campRedialog s = .next s := if_pos h

theorem exec_campRedialog_of_released {s : State} (h : s.isHeld .mgmt = false) :
    exec .campRedialog s = .next (redialog s) := if_neg (Bool.eq_false_iff.mp h)

theorem redialog_of_masthead {s : State} (h : s.yard = false) :
    redialog s = startDialog (arm .ptmInterval 0 s.camp.ptmInterval.toNat s) := if_neg (Bool.eq_false_iff.mp h)

theorem redialog_of_yard {s : State} (h : s.yard = true) :
    redialog s = startYardDialog (arm .yardDialog 0 s.camp.ptmInterval.toNat s) := if_pos h

theorem exec_ptmResponseTimeout_of_due {s : State} {n : Nat} (hd : s.time.dialog = some n)
    (ht : s.due .ptmResponse 0 = true) : exec .ptmResponseTimeout s = .next (failDialog s) :=
  if_pos (by simp [hd, ht])

theorem refreshRate_of_unanchored {s : State} (h : s.camp.status.anchored = false) :
    refreshRate s = { s with camp.rateAdj := BitVec.ofInt 32 (unanchoredRate s) } := if_neg (Bool.eq_false_iff.mp h)

theorem exec_holdoverExpiry_of_due {s : State} (ht : s.due .holdover 0 = true) (ha : s.camp.status.anchored = true) :
    exec .holdoverExpiry s = .next (raise (src 1 1) 0 [] (refreshRate (disarm .holdover 0
      { s with camp.status.anchored := false, camp.status.holdover := false }))) :=
  if_pos (by rw [ht, ha]; rfl)

/-- Settles O4: each command by its condition, and a dialog begun by whether a port has one. -/
theorem dialogTimersAct : Obligations.DialogTimersAct := by
  unfold Obligations.DialogTimersAct
  refine ⟨?interval, ?intervalAlone, ?redialog, ?redialogAlone, ?yard, fun s => exec_campRedialog_of_held, ?timeout,
    ?holdover⟩
  case interval =>
    intro s n hd hp
    rw [exec_ptmDialogInterval_of_due hd, startDialog_of_port ((dialogPort_arm ..).trans hp)]
    rfl
  case intervalAlone =>
    intro s hd hp
    rw [exec_ptmDialogInterval_of_due hd, startDialog_of_noPort ((dialogPort_arm ..).trans hp)]
  case redialog =>
    intro s n hh hy hp
    rw [exec_campRedialog_of_released hh, redialog_of_masthead hy, startDialog_of_port ((dialogPort_arm ..).trans hp)]
    rfl
  case redialogAlone =>
    intro s hh hy hp
    rw [exec_campRedialog_of_released hh, redialog_of_masthead hy, startDialog_of_noPort ((dialogPort_arm ..).trans hp)]
  case yard =>
    intro s hh hy
    rw [exec_campRedialog_of_released hh, redialog_of_yard hy]
  case timeout =>
    intro s n hd ht
    rw [exec_ptmResponseTimeout_of_due hd ht, failDialog_of_open hd]
    rfl
  case holdover =>
    intro s ht ha
    rw [exec_holdoverExpiry_of_due ht ha, refreshRate_of_unanchored rfl]
    rfl

/-! ### A good dialog (R69 to R71, R75) -/

/-- What a dialog shows once it is over: its place, the last source and its standing in CAMP_STATUS, the good count, the last
offset, the mode and the queue. -/
abbrev DialogView : Type := Option Nat × Option Nat × Bool × Bool × BitVec 2 × BitVec 16 × BitVec 32 × Mode × List Instr

/-- The view of a dialog that a state gives. -/
def State.dialogSeen (s : State) : DialogView :=
  (s.time.dialog, s.time.anchor_last, s.camp.status.anchored, s.camp.status.holdover, s.camp.status.source,
    s.camp.syncStats.good_count, s.camp.lastOffset, s.mode, s.pending)

/-- H, the registers of its last step, and whether it is clamped. -/
def State.stepSeen (s : State) : Nat × CampStepLogReg × BitVec 64 × BitVec 64 × Bool :=
  (s.time.hq, s.camp.stepLog, s.camp.stepFrom, s.camp.stepTo, s.camp.status.clamped)

/-- The offset of a target from H (R71). -/
def State.offsetTo (s : State) (t : Nat) : Int := (t : Int) - (s.h : Int)

/-- A dialog of `source` with target `t` steps H: its offset is beyond CAMP_STEP_THRESH, or its source is another than the
last (R71; log entry 11). -/
def DialogSteps (t source : Nat) (s : State) : Prop :=
  s.camp.stepThresh.toNat < (s.offsetTo t).natAbs ∨ ∃ p, s.time.anchor_last = some p ∧ p ≠ source

/-- What a dialog that anchors has recorded of itself, whether H slews or steps. -/
def dialogRecord (t source : Nat) (s : State) : DialogView :=
  (none, some source, true, false, BitVec.ofNat 2 source, s.camp.syncStats.good_count + 1,
    BitVec.ofInt 32 (clampInt (-(2 ^ 31 - 1)) (2 ^ 31 - 1) (s.offsetTo t)), s.mode, s.pending)

theorem recorded_dialogSeen {s t : State} (h : Recorded s t) : t.dialogSeen = s.dialogSeen := h.keeps fun _ => rfl

theorem recorded_stepSeen {s t : State} (h : Recorded s t) : t.stepSeen = s.stepSeen := h.keeps fun _ => rfl

theorem stepTo_dialogSeen (t cause : Nat) (s : State) : (stepTo t cause s).dialogSeen = s.dialogSeen :=
  (recorded_dialogSeen (requestFirst_recorded ..)).trans rfl

/-- A step sets H to its target and notes where it came from (R71, R80, R81). -/
theorem stepTo_stepSeen (t cause : Nat) (s : State) : ∃ log : CampStepLogReg, log.backward = decide (t < s.h) ∧
    (stepTo t cause s).stepSeen
      = (t * 2 ^ 32, log, BitVec.ofNat 64 s.h, BitVec.ofNat 64 t, decide (t ≤ s.time.last)) :=
  ⟨_, rfl, recorded_stepSeen (requestFirst_recorded ..)⟩

/-- A good dialog that anchors notes itself, then steps H or slews, and the holdover runs anew; the event of a fresh anchor
is only recorded (R71, R75, R78). -/
theorem goodDialog_anchors (t source : Nat) (s : State) :
    ∃ u, u.dialogSeen = dialogRecord t source s ∧ u.stepSeen = s.stepSeen ∧ u.time.last = s.time.last ∧
      (DialogSteps t source s → ∃ cause n,
        Recorded (arm .holdover 0 n (stepTo t cause u)) (goodDialog t source true none s)) ∧
      (¬DialogSteps t source s → ∃ interval n,
        Recorded (arm .holdover 0 n (slew (s.offsetTo t) interval u)) (goodDialog t source true none s)) := by
  unfold goodDialog
  extract_lets +onlyGivenNames h was d thresh fresh moved changed steps cause interval _ _ _ _ _ noted closed moves held
  have ends : Recorded held (if fresh then raise (src 1 2) 0 [] held
      else if was && !true then raise (src 1 1) 0 [] held else held) :=
    .ite (raise_recorded ..) (.ite (raise_recorded ..) (.refl _))
  have other : changed = true ↔ ∃ p, s.time.anchor_last = some p ∧ p ≠ source := by
    unfold changed
    cases s.time.anchor_last <;> simp
  have decides : steps = true ↔ DialogSteps t source s := by
    simp only [steps, Bool.or_eq_true, decide_eq_true_eq, other]
    exact or_iff_left (by simp)
  refine ⟨closed, rfl, rfl, rfl, fun hs => ⟨cause, moves.camp.holdover.toNat, ?_⟩,
    fun hs => ⟨max 1 interval, moves.camp.holdover.toNat, ?_⟩⟩
  · have stepped : moves = stepTo t cause closed := if_pos (decides.mpr hs)
    rwa [← stepped]
  · have slewed : moves = slew d (max 1 interval) closed := if_neg (mt decides.mp hs)
    rw [show s.offsetTo t = d from rfl, ← slewed]
    exact ends

theorem goodDialog_dialogSeen (t source : Nat) (s : State) :
    (goodDialog t source true none s).dialogSeen = dialogRecord t source s := by
  obtain ⟨u, noted, -, -, steps, slews⟩ := goodDialog_anchors t source s
  by_cases h : DialogSteps t source s
  · obtain ⟨cause, n, r⟩ := steps h
    exact (recorded_dialogSeen r).trans ((stepTo_dialogSeen t cause u).trans noted)
  · obtain ⟨interval, n, r⟩ := slews h
    exact (recorded_dialogSeen r).trans noted

/-- A dialog that slews leaves H and its step registers (R71). -/
theorem goodDialog_stepSeen_of_slew {t source : Nat} {s : State} (h : ¬DialogSteps t source s) :
    (goodDialog t source true none s).stepSeen = s.stepSeen := by
  obtain ⟨u, -, stands, -, -, slews⟩ := goodDialog_anchors t source s
  obtain ⟨interval, n, r⟩ := slews h
  exact (recorded_stepSeen r).trans stands

/-- A dialog that steps sets H to the target and notes it (R71, R80, R81). -/
theorem goodDialog_stepSeen_of_steps {t source : Nat} {s : State} (h : DialogSteps t source s) :
    ∃ log : CampStepLogReg, log.backward = decide (t < s.h) ∧ (goodDialog t source true none s).stepSeen
      = (t * 2 ^ 32, log, BitVec.ofNat 64 s.h, BitVec.ofNat 64 t, decide (t ≤ s.time.last)) := by
  obtain ⟨u, -, stands, last, steps, -⟩ := goodDialog_anchors t source s
  obtain ⟨cause, n, r⟩ := steps h
  obtain ⟨log, back, moved⟩ := stepTo_stepSeen t cause u
  have same : u.h = s.h := congrArg (·.1 / 2 ^ 32) stands
  rw [same] at back moved
  rw [last] at moved
  exact ⟨log, back, (recorded_stepSeen r).trans moved⟩

/-- A response in time makes the open dialog good (R69). -/
theorem exec_ptmResponse_of_inTime {s : State} {n : Nat} (t2 t3 : Nat) (hd : s.time.dialog = some n)
    (hr : s.run ≤ s.time.dialog_sent + 2 ^ 22) :
    exec (.ptmResponse ⟨t2, t3⟩) s = .next (goodDialog (ptmTarget s (masterTime s t2 t3)) (n + 1) true none s) := by
  show execPtmResponse ⟨t2, t3⟩ s = _
  simp only [execPtmResponse, hd]
  exact if_pos (decide_eq_true hr)

/-- Settles O5: what every good dialog records, then H by whether the dialog steps it. -/
theorem goodDialogSlewsOrSteps : Obligations.GoodDialogSlewsOrSteps := by
  unfold Obligations.GoodDialogSlewsOrSteps
  intro s n t2 t3 hd hr
  generalize ht : ptmTarget s (masterTime s t2 t3) = target
  have recorded := goodDialog_dialogSeen target (n + 1) s
  simp only [State.dialogSeen, dialogRecord, Prod.mk.injEq] at recorded
  obtain ⟨closed, last, anchored, holdover, source, good, offset, mode, pending⟩ := recorded
  refine ⟨_, (exec_ptmResponse_of_inTime t2 t3 hd hr).trans (by rw [ht]), closed, last, anchored, holdover, source, good,
    offset, fun near same => ?slews, fun far => ?steps, mode, pending⟩
  case slews =>
    have stays : ¬DialogSteps target (n + 1) s := by
      rintro (far | ⟨p, hp, other⟩)
      · exact Nat.not_lt.mpr near far
      · rcases same with first | same
        · exact Option.some_ne_none p (hp.symm.trans first)
        · exact other (Option.some.inj (hp.symm.trans same))
    have seen := goodDialog_stepSeen_of_slew stays
    exact ⟨congrArg (·.1) seen, congrArg (·.2.1) seen⟩
  case steps =>
    obtain ⟨log, back, seen⟩ := goodDialog_stepSeen_of_steps (source := n + 1) far
    simp only [State.stepSeen, Prod.mk.injEq] at seen
    obtain ⟨hq, stepLog, stepFrom, stepTo, clamped⟩ := seen
    refine ⟨?_, stepFrom, stepTo, ?_, clamped⟩
    · rw [State.h, hq, Nat.mul_div_cancel _ (by decide)]
    · rw [stepLog, back]

end Sys2Proof.Machine
end

section
/-!
PROOFS. Entry to Flush: what it leaves of the state.
-/

namespace Sys2Proof.Machine

/-! ### What the entry to Flush leaves (R166, log entry 83) -/

/-- The state without what the spill, the halt of the media and a deferred L4 change: beyond the delivery of stamps, NAND
operations and their LUNs, the blocks whose erase was cut short, the spill with its digest, and the pending reset. -/
def State.unspilled (s : State) : State :=
  { s.undelivered with
    media.ops := []
    media.ceiling := none
    media.luns := []
    reclaim.blocks := []
    shroud.spill := none
    security.contexts := []
    reset_ctl.sequence := none
    reset_ctl.deferred := none
    reset_ctl.deferred_causes := 0 }

theorem Delivered.unspilled {s t : State} (h : Delivered s t) : t.unspilled = s.unspilled := by
  unfold State.unspilled
  rw [h]

theorem haltMedia_unspilled (s : State) : (haltMedia s).unspilled = s.unspilled := by
  have released (o : NandOp) (t : State) :
      (onBlock (blockKey o.die o.block) (fun b => { b with state := .released }) t).unspilled = t.unspilled := rfl
  unfold haltMedia
  exact each_keeps (f := State.unspilled) released _ _

theorem abandonSeals_unspilled (s : State) : (abandonSeals s).unspilled = s.unspilled := rfl

theorem sequenceDeferred_unspilled (s : State) : (sequenceDeferred s).unspilled = s.unspilled := by
  unfold sequenceDeferred
  split <;> rfl

theorem beginSpill_unspilled (c : SpillCause) (th : Bool) (s : State) : (beginSpill c th s).unspilled = s.unspilled := by
  unfold beginSpill
  split
  · rfl
  · exact (takeStamp_delivered s).unspilled

theorem flushSpill_unspilled (entry : Option HaltEntry) (s : State) : (flushSpill entry s).unspilled = s.unspilled := by
  unfold flushSpill
  split
  · rfl
  · rfl
  · exact beginSpill_unspilled ..
  · exact beginSpill_unspilled ..

/-- A state in which a handshake, a return and a Thermal Halt entry are abandoned, fetching is stopped and the converter
carries the load (R166). -/
def flushPrepared (s : State) : State :=
  { s with
    power_states.handshake := none
    power_states.returning := none
    nvme.ctrl0.fetch_stopped := true
    nvme.ctrl1.fetch_stopped := true
    nvme.act_led := false
    thermal.entry := none
    pwr.status.holdup_active := true }

/-- What the entry to Flush sets, all else kept. -/
def flushEntered (s : State) : State := { flushPrepared s with mode := .flush, prevMode := s.mode }

theorem flushEntered_unspilled_congr {s t : State} (h : t.unspilled = s.unspilled) :
    (flushEntered t).unspilled = (flushEntered s).unspilled := by
  have through (u : State) : (flushEntered u).unspilled = flushEntered u.unspilled := rfl
  rw [through, through, h]

theorem flushStopped_unspilled (s : State) : (flushStopped s).unspilled = (flushEntered s).unspilled := by
  have stopped : flushStopped s = abandonSeals (haltMedia (setMode .flush (flushPrepared s))) := rfl
  rw [stopped, abandonSeals_unspilled, haltMedia_unspilled, (setMode_delivered .flush (flushPrepared s)).unspilled]
  rfl

/-- Entry to Flush is what `flushEntered` sets, and beyond it only spill, media and stamps change (R165, R166). -/
theorem enterFlush_unspilled (s : State) : (enterFlush s).unspilled = (flushEntered s).unspilled := by
  rw [enterFlush_eq, flushSpill_unspilled, flushStopped_unspilled]
  exact flushEntered_unspilled_congr (sequenceDeferred_unspilled s)

/-- A field that the entry to Flush changes only as `flushEntered` says. -/
theorem enterFlush_shows {α : Type} {f : State → α} (hf : ∀ s, f s.unspilled = f s) (s : State) :
    f (enterFlush s) = f (flushEntered s) := by
  rw [← hf, enterFlush_unspilled, hf]

/-! ### Power loss in an operating mode (R142, R166) -/

/-- In Flush the charger may not run (R158). -/
theorem chargerMay_of_flush {s : State} (h : s.mode = .flush) : chargerMay s = false := by
  simp only [chargerMay, h, Bool.and_false]

/-- The mode is one in which power loss begins a Flush (R165). -/
def State.operating (s : State) : Prop := s.mode = .run ∨ s.mode = .reduced ∨ s.mode = .patrol ∨ s.mode = .readOnly

/-- The charger goes off. -/
def chargerOff (s : State) : State := { s with pwr.status.charging := false }

/-- The charger stays on only where it may run. -/
def chargerCut (s : State) : State := { s with pwr.status.charging := s.pwr.status.charging && chargerMay s }

theorem chargerCut_of_flush {s : State} (h : s.mode = .flush) : chargerCut s = chargerOff s := by
  rw [chargerCut, chargerMay_of_flush h, Bool.and_false, chargerOff]

/-- What power loss in an operating mode sets, all else kept. -/
def lossEntered (s : State) : State := chargerOff (flushEntered (lossNoted s))

/-- Power loss in an operating mode is what `lossEntered` sets, and beyond it only spill, media and stamps change. -/
theorem powerLost_unspilled {s : State} (h : s.operating) : (powerLost s).unspilled = (lossEntered s).unspilled := by
  have entered : powerLost s = chargerCut (enterFlush (lossNoted s)) := congrArg chargerCut (actLoss_of_operating h)
  have flush : (enterFlush (lossNoted s)).mode = .flush := enterFlush_shows (f := State.mode) (fun _ => rfl) _
  have through (u : State) : (chargerOff u).unspilled = chargerOff u.unspilled := rfl
  rw [entered, chargerCut_of_flush flush, lossEntered, through, through, enterFlush_unspilled]

/-- A field that power loss in an operating mode changes only as `lossEntered` says. -/
theorem powerLost_shows {α : Type} {f : State → α} (hf : ∀ s, f s.unspilled = f s) {s : State} (h : s.operating) :
    f (powerLost s) = f (lossEntered s) := by
  rw [← hf, powerLost_unspilled h, hf]

theorem exec_powerLossDetected_of_lit {s : State} (hd : s.power.dark = false) :
    exec .powerLossDetected s = .next (powerLost { s with pwr.status.vin_good := false }) :=
  if_neg (Bool.eq_false_iff.mp hd)

/-- PWRDIS is power loss for every purpose in an operating mode (R124). -/
theorem exec_pwrdisAssert_of_operating {s : State} (hd : s.power.dark = false) (h : s.operating) :
    exec .pwrdisAssert s = .next (powerLost { s with pad.strapStatus.pwrdis_live := true }) := by
  have flush : (powerLost { s with pad.strapStatus.pwrdis_live := true }).mode = .flush :=
    powerLost_shows (f := State.mode) (fun _ => rfl) h
  show execPwrdisAssert s = _
  rw [execPwrdisAssert, if_neg (by simp [hd])]
  simp only [flush]

/-- Settles O8: both commands are power loss, and what that leaves of an operating mode. What it does during the assertion
steps of an L4 is the model's choice (log entry 83). -/
theorem powerLossEntersFlush : Obligations.PowerLossEntersFlush := by
  unfold Obligations.PowerLossEntersFlush
  intro s hd hm
  refine ⟨⟨_, exec_powerLossDetected_of_lit hd, ?_⟩, ⟨_, exec_pwrdisAssert_of_operating hd hm, ?_⟩⟩
  · have shown {α : Type} (f : State → α) (hf : ∀ s, f s.unspilled = f s) :=
      powerLost_shows (s := { s with pwr.status.vin_good := false }) hf hm
    exact ⟨shown (·.mode) fun _ => rfl, shown (·.pwr.status.loss_detected) fun _ => rfl,
      shown (·.pwr.status.vin_good) fun _ => rfl, shown (·.pwr.status.charging) fun _ => rfl,
      shown (·.pwr.status.holdup_active) fun _ => rfl, shown (·.nvme.ctrl0.fetch_stopped) fun _ => rfl,
      shown (·.nvme.ctrl1.fetch_stopped) fun _ => rfl, shown (·.power_states.handshake) fun _ => rfl,
      shown (·.power_states.returning) fun _ => rfl, shown (·.nvme.act_led) fun _ => rfl,
      shown (·.thermal.entry) fun _ => rfl, shown (·.pending) fun _ => rfl⟩
  · have shown {α : Type} (f : State → α) (hf : ∀ s, f s.unspilled = f s) :=
      powerLost_shows (s := { s with pad.strapStatus.pwrdis_live := true }) hf hm
    exact ⟨shown (·.mode) fun _ => rfl, shown (·.pad.strapStatus.pwrdis_live) fun _ => rfl,
      shown (·.pwr.status.loss_detected) fun _ => rfl, shown (·.pwr.status.holdup_active) fun _ => rfl⟩

end Sys2Proof.Machine
end

section
/-!
PROOFS. The NAND power pairs: enabling, settling, failure, loss and retry.
-/

namespace Sys2Proof.Machine

/-! ### The pair enable steps (R152, R153) -/

@[simp] theorem pair_onPair_self (p : Nat) (f : Pair → Pair) (s : State) : (onPair p f s).pair p = f (s.pair p) := by
  show (s.power.pairs.put p (f (s.pair p))).look {} p = _
  rw [Tab.look_put, if_pos rfl]

@[simp] theorem pair_driveNven (q p : Nat) (on : Bool) (s : State) : (driveNven q on s).pair p = s.pair p := rfl

@[simp] theorem pair_showNpg (q p : Nat) (on : Bool) (s : State) : (showNpg q on s).pair p = s.pair p := rfl

@[simp] theorem pair_arm (k : TimerKind) (i n p : Nat) (s : State) : (arm k i n s).pair p = s.pair p := rfl

@[simp] theorem pair_enablePair_self (p : Nat) (retry : Bool) (s : State) :
    (enablePair p retry s).pair p = { s.pair p with phase := .enabled, retry := retry } := by
  simp only [enablePair, pair_arm, pair_onPair_self, pair_driveNven]

@[simp] theorem enablePair_nven (p : Nat) (retry : Bool) (s : State) :
    (enablePair p retry s).pwr.pairStatus.nven = setBit s.pwr.pairStatus.nven p true := rfl

/-- An enabled pair has the bound of R153, from now. -/
@[simp] theorem enablePair_timer_self (p : Nat) (retry : Bool) (s : State) :
    (enablePair p retry s).timer .npgTimeout p = some ⟨.npgTimeout, p, s.h + (s.pwr.npgTimeout.toNat + 2 ^ 20)⟩ :=
  timer_arm_self ..

theorem enablePair_timer_other {k : TimerKind} (h : k ≠ .npgTimeout) (p i : Nat) (retry : Bool) (s : State) :
    (enablePair p retry s).timer k i = s.timer k i :=
  timer_arm_other (fun same => h same.1.symm) ..

/-- The last pair of the stagger is enabled, and no pair is next (R152). -/
theorem startPair_of_last {s : State} {p : Nat} (h : nextPair s p = none) :
    startPair p s = { enablePair p false s with power.next_pair := none } := by
  have last : nextPair (enablePair p false s) p = none := h
  simp only [startPair, last]

theorem exec_pairEnableStagger_of_due {s : State} {p : Nat} (hp : s.power.next_pair = some p)
    (hd : s.due .pairStagger 0 = true) : exec .pairEnableStagger s = .next (startPair p (disarm .pairStagger 0 s)) := by
  show execPairEnableStagger s = _
  simp only [execPairEnableStagger, hp, hd, if_true]

/-! ### A pair that settles or fails (R111, R152, R153) -/

/-- A pair enabled for the first time settles with its discovery (R111, R152). -/
theorem exec_npgSettled_of_first {s : State} {p : Nat} (he : (s.pair p).phase = .enabled) (hp : s.populated p = true)
    (hr : (s.pair p).retry = false) :
    exec (.npgSettled p) s = .next (beginDiscovery p (disarm .npgTimeout p (showNpg p true
      (onPair p (fun x => { x with phase := .settled, retry := false }) s)))) := by
  show execNpgSettled p s = _
  rw [execNpgSettled, if_pos (by simp [he, hp])]
  simp only [hr, Bool.false_and, Bool.not_false, if_true, Bool.false_eq_true, if_false]

/-- A pair whose NPG has not risen within its bound fails (R153). -/
theorem exec_npgTimeout_of_due {s : State} {p : Nat} (he : (s.pair p).phase = .enabled) (hd : s.due .npgTimeout p = true) :
    exec (.npgTimeout p) s = .next (settleMedia (failPair p s)) :=
  if_pos (by simp [he, hd])

/-! ### A pair that is lost (R154, R170) -/

/-- In a Flush that writes no spill a pair whose NPG falls is lost, and its NVEN goes low (R170). -/
theorem exec_npgLoss_of_flush {s : State} {p : Nat} (hs : (s.pair p).phase = .settled) (hm : s.mode = .flush)
    (hn : s.shroud.spill = none) :
    exec (.npgLoss p) s = .next (driveNven p false (onPair p (fun x => { x with phase := .lost }) (showNpg p false s))) := by
  have mode : (showNpg p false s).mode = .flush := hm
  have spill : (showNpg p false s).shroud.spill = none := hn
  show execNpgLoss p s = _
  simp [execNpgLoss, hs, mode, spill]

theorem exec_pairRetryTimer_of_due {s : State} {p : Nat} (hl : (s.pair p).phase = .lost) (hd : s.due .pairRetry p = true) :
    exec (.pairRetryTimer p) s = .next (enablePair p true (disarm .pairRetry p s)) :=
  if_pos (by simp [hl, hd])

/-- Settles O10: each command of a pair by the phase it meets, and the enable steps under it. -/
theorem pairsAreEnabledAndRetried : Obligations.PairsAreEnabledAndRetried := by
  unfold Obligations.PairsAreEnabledAndRetried
  refine ⟨?stagger, fun s p => exec_npgSettled_of_first, fun s p => exec_npgTimeout_of_due, ?loss, ?retry⟩
  case stagger =>
    intro s p hp hd hn
    refine ⟨_, (exec_pairEnableStagger_of_due hp hd).trans (congrArg _ (startPair_of_last hn)), ?_,
      enablePair_nven p false _, rfl, enablePair_timer_self ..⟩
    exact congrArg Pair.phase (pair_enablePair_self ..)
  case loss =>
    intro s p hs hm hn
    refine ⟨_, exec_npgLoss_of_flush hs hm hn, ?_, rfl, rfl⟩
    rw [pair_driveNven, pair_onPair_self]
  case retry =>
    intro s p hl hd
    refine ⟨_, exec_pairRetryTimer_of_due hl hd, ?_, ?_, enablePair_nven .., ?_⟩
    · rw [pair_enablePair_self]
    · rw [pair_enablePair_self]
    · rw [enablePair_timer_other (by decide), timer_disarm_self]

end Sys2Proof.Machine
end

section
/-!
PROOFS. The package: the signalling balls and the test port.
-/

namespace Sys2Proof.Machine

/-! ### The signalling balls (R108, R109, R127, R128) -/

/-- Under a reset that reaches MGMT both balls are high-impedance (R108). -/
theorem balls_of_released {s : State} (h : released s .mgmt = true) : faultBall s = .highZ ∧ actLedBall s = .highZ :=
  ⟨if_pos h, if_pos h⟩

/-- In Hold both balls are high-impedance, whether or not a reset still reaches MGMT. -/
theorem balls_of_hold {s : State} (h : s.mode = .hold) : faultBall s = .highZ ∧ actLedBall s = .highZ := by
  simp only [faultBall, actLedBall, h, ite_self, and_self]

/-- Outside Hold too there are modes in which ACT_LED# shows no activity (R127). -/
theorem actLedBall_of_quiet {s : State} (h : s.mode = .start ∨ s.mode = .flush ∨ s.mode = .thermalHalt) :
    actLedBall s = .highZ := by
  rcases h with h | h | h <;> simp only [actLedBall, h, ite_self]

/-- In every other mode ACT_LED# is low after an I/O command, else at its fuse code (R127, log entry 109). -/
theorem actLedBall_of_serving {s : State} (hr : released s .mgmt = false) (hh : s.mode ≠ .hold) (hs : s.mode ≠ .start)
    (hf : s.mode ≠ .flush) (ht : s.mode ≠ .thermalHalt) :
    actLedBall s = if s.nvme.act_led then .low else padOfCode s.pad.resetMap.led_fault := by
  rw [actLedBall, if_neg (Bool.eq_false_iff.mp hr)]
  split
  · contradiction
  · contradiction
  · contradiction
  · contradiction
  · rfl

/-- Start or a controller has failed (R128). -/
def failureShown (s : State) : Prop :=
  s.mgmt.modeStatus.start_fail ≠ 0 ∨ s.nvme.ctrl0.cfs = true ∨ s.nvme.ctrl1.cfs = true

theorem faultBall_of_failure {s : State} (hr : released s .mgmt = false) (hh : s.mode ≠ .hold) (h : failureShown s) :
    faultBall s = .low := by
  rw [faultBall, if_neg (Bool.eq_false_iff.mp hr)]
  split
  · contradiction
  · rfl
  · rfl
  · exact if_pos h

theorem faultBall_of_readOnly_or_thermalHalt {s : State} (hr : released s .mgmt = false)
    (h : s.mode = .readOnly ∨ s.mode = .thermalHalt) : faultBall s = .low := by
  rw [faultBall, if_neg (Bool.eq_false_iff.mp hr)]
  rcases h with h | h <;> simp only [h]

/-- With nothing to report FAULT# takes the level of its fuse code (R128, log entry 109). -/
theorem faultBall_of_noFailure {s : State} (hr : released s .mgmt = false) (hh : s.mode ≠ .hold)
    (hro : s.mode ≠ .readOnly) (hth : s.mode ≠ .thermalHalt) (h : ¬failureShown s) :
    faultBall s = padOfCode s.pad.resetMap.led_fault := by
  rw [faultBall, if_neg (Bool.eq_false_iff.mp hr)]
  split
  · contradiction
  · contradiction
  · contradiction
  · exact if_neg h

/-- Settles O60: each ball by the reset, the mode and what has failed. That a ball not driven low takes the level of its fuse
code is the model's choice (log entry 109, with the domain of log entry 97). -/
theorem faultBallFollowsTheState : Obligations.FaultBallFollowsTheState := by
  unfold Obligations.FaultBallFollowsTheState
  intro s
  refine ⟨balls_of_released, balls_of_hold, actLedBall_of_quiet, fun hr hh => ⟨?low, ?fuse, ?led⟩, by decide⟩
  case low =>
    rintro (hm | hm | hf)
    · exact faultBall_of_readOnly_or_thermalHalt hr (.inl hm)
    · exact faultBall_of_readOnly_or_thermalHalt hr (.inr hm)
    · exact faultBall_of_failure hr hh hf
  case fuse =>
    intro hro hth hs h0 h1
    refine faultBall_of_noFailure hr hh hro hth ?_
    rintro (h | h | h)
    · exact h hs
    · exact Bool.false_ne_true (h0.symm.trans h)
    · exact Bool.false_ne_true (h1.symm.trans h)
  case led =>
    intro hs hf ht
    rw [actLedBall_of_serving hr hh hs hf ht]
    exact ⟨fun on => if_pos on, fun off => if_neg (Bool.eq_false_iff.mp off)⟩

/-! ### The test port (R121, R127, R133 to R135, R140) -/

/-- In a dark device the test port does nothing. -/
theorem loadInstruction_of_dark {s : State} (opcode : BitVec 8) (hd : s.power.dark = true) : loadInstruction opcode s = s :=
  if_pos hd

/-- BYPASS, CLAMP and HIGHZ select the bypass register, whose one bit captures 0 (R134). -/
def TapInstr.bypasses : TapInstr → Bool
  | .bypass => true
  | .clamp => true
  | .highz => true
  | _ => false

/-- A loaded opcode selects its instruction, and clears the scan register where that is the bypass register (R134). -/
theorem loadInstruction_of_lit {s : State} {test : Bool} {opcode : BitVec 8} {x : TapInstr} (hd : s.power.dark = false)
    (ht : s.pad.strapStatus.test_en = test) (hx : tapDecode test opcode = x) :
    loadInstruction opcode s = { s with pads.ir := opcode, pads.scan := if x.bypasses then 0 else s.pads.scan } ∧
      (loadInstruction opcode s).tap = x := by
  subst ht hx
  have loaded : loadInstruction opcode s = { s with
      pads.ir := opcode
      pads.scan := if (tapDecode s.pad.strapStatus.test_en opcode).bypasses then 0 else s.pads.scan } := by
    rw [loadInstruction, if_neg (Bool.eq_false_iff.mp hd)]
    dsimp only [State.tap]
    cases tapDecode s.pad.strapStatus.test_en opcode <;> rfl
  exact ⟨loaded, by rw [loaded]; rfl⟩

/-- Opcode 0xFF is BYPASS in and outside test mode. -/
theorem tapDecode_bypass (test : Bool) : tapDecode test 0xFF = .bypass := by cases test <;> rfl

/-- IDCODE captures the device's code and shifts it out (R140). -/
theorem exec_idcode_of_lit {s : State} (hd : s.power.dark = false) :
    exec .idcode s = .next (say (.scanOut (idcodeValue s)) { s with pads.ir := 0x01, pads.scan := idcodeValue s }) := by
  obtain ⟨loaded, -⟩ := loadInstruction_of_lit (opcode := 0x01) (x := .idcode) hd rfl rfl
  show execIdcode s = _
  rw [execIdcode, if_neg (Bool.eq_false_iff.mp hd), loaded]

/-- SAMPLE/PRELOAD captures the levels of the cells and takes the values shifted in (R133, R135). -/
theorem exec_samplePreload_of_lit {s : State} (n level drive : Nat) (hd : s.power.dark = false) :
    exec (.samplePreload ⟨n, level, drive⟩) s = .next (say (.scanOut (cellsOf n)) { s with
      pads.ir := 0x02
      pads.scan := cellsOf n
      pads.scan_level := level
      pads.scan_drive := drive }) := by
  obtain ⟨loaded, -⟩ := loadInstruction_of_lit (opcode := 0x02) (x := .samplePreload) hd rfl rfl
  show execSamplePreload ⟨n, level, drive⟩ s = _
  rw [execSamplePreload, if_neg (Bool.eq_false_iff.mp hd), loaded]

/-- Settles O18: each opcode by the instruction it decodes to in and outside test mode. -/
theorem testPortSelectsInstructions : Obligations.TestPortSelectsInstructions := by
  unfold Obligations.TestPortSelectsInstructions
  refine ⟨?reset, ?testMode, ?outside, ?bypass, fun s => exec_idcode_of_lit,
    fun s n level drive => exec_samplePreload_of_lit n level drive, ?dark, fun s due => if_pos due⟩
  case reset =>
    intro s hd
    exact ⟨_, rfl, loadInstruction_of_lit hd rfl rfl⟩
  case testMode =>
    intro s hd ht
    exact ⟨⟨_, rfl, loadInstruction_of_lit hd ht rfl⟩, ⟨_, rfl, loadInstruction_of_lit hd ht rfl⟩,
      ⟨_, rfl, loadInstruction_of_lit hd ht rfl⟩⟩
  case outside =>
    intro s hd ht
    exact ⟨⟨_, rfl, loadInstruction_of_lit hd ht rfl⟩, ⟨_, rfl, loadInstruction_of_lit hd ht rfl⟩,
      ⟨_, rfl, loadInstruction_of_lit hd ht rfl⟩⟩
  case bypass =>
    intro s hd
    exact ⟨_, rfl, loadInstruction_of_lit hd rfl (tapDecode_bypass _)⟩
  case dark =>
    intro s hd
    exact ⟨congrArg _ (loadInstruction_of_dark 0x00 hd), if_pos hd⟩

end Sys2Proof.Machine
end

section
/-!
PROOFS. The hold-up bank and the Shroud allowance: the charger, the bank fault, the measurement, the measured voltages and
the end of the charge time.
-/

namespace Sys2Proof.Machine

/-! ### The bank fault (R159) -/

theorem awake_of_hold {s : State} (h : s.mode = .hold) : s.awake = false := by
  simp only [State.awake, h]

/-- The bank fault clears with both of its conditions, and raises nothing. -/
theorem refreshBankFault_of_neither {s : State} (ho : s.power.fault_over = false) (hm : s.power.fault_measure = false) :
    refreshBankFault s = { s with pwr.status.bank_fault := false } := by
  simp [refreshBankFault, ho, hm]

/-- The bank fault sets with an overvoltage, and raises its event out of Hold. -/
theorem refreshBankFault_of_overvoltage {s : State} (ho : s.power.fault_over = true) (hb : s.pwr.status.bank_fault = false)
    (hm : s.mode ≠ .hold) :
    refreshBankFault s = raise (src 2 2) 0 [] { s with pwr.status.bank_fault := true } := by
  have awake : ({ s with pwr.status.bank_fault := true } : State).awake = true := awake_of_not_hold hm
  simp [refreshBankFault, ho, hb, raiseAwake, awake]

/-- In Hold the bank fault follows its conditions and no event is raised. -/
theorem refreshBankFault_of_hold {s : State} (hm : s.mode = .hold) :
    refreshBankFault s = { s with pwr.status.bank_fault := s.power.fault_over || s.power.fault_measure } := by
  have asleep (f : Bool) : ({ s with pwr.status.bank_fault := f } : State).awake = false := awake_of_hold hm
  simp [refreshBankFault, raiseAwake, asleep]

/-! ### The charger and an overvoltage (R158, R159) -/

/-- At its target the charger stops; a bank measured since power-on has no other measurement due (R158, R160). -/
theorem exec_bankTargetReached_of_measured {s : State} (hc : s.pwr.status.charging = true) (hm : s.power.measured = true) :
    exec .bankTargetReached s = .next { s with pwr.status.charging := false } := by
  show execBankTargetReached s = _
  rw [execBankTargetReached, if_pos hc]
  simp only [hm, if_true]

/-- The charger goes on, and starts where it may run. -/
def chargerStarted (s : State) : State := { s with pwr.status.charging := s.pwr.status.charging || chargerMay s }

/-- Where the charger restarts an overvoltage has ended (R158, R159). -/
theorem exec_bankChargeRestart_of_lit {s : State} (hd : s.power.dark = false) :
    exec .bankChargeRestart s = .next (chargerStarted (refreshBankFault { s with power.fault_over := false })) :=
  if_neg (Bool.eq_false_iff.mp hd)

theorem exec_bankOvervoltage_of_lit {s : State} (hd : s.power.dark = false) :
    exec .bankOvervoltage s =
      .next (refreshBankFault { s with power.fault_over := true, pwr.status.charging := false }) :=
  if_neg (Bool.eq_false_iff.mp hd)

/-! ### The measurement of the bank (R160) -/

theorem exec_bankTestInterval_of_due {s : State} (hd : s.due .bankTest 0 = true) (ht : s.pwr.status.bank_test = false)
    (hh : s.pwr.status.holdup_active = false) :
    exec .bankTestInterval s = .next (arm .bankMeasure 0 (2 ^ 26) (arm .bankTest 0 s.pwr.bankTestInterval.toNat { s with
      power.measured := true
      pwr.status.bank_test := true
      pwr.status.charging := false })) :=
  if_pos (by simp [hd, ht, hh])

theorem measured_of_fall {v1 v2 : Nat} (h : v2 < v1) : measured v1 v2 = 781250 / (v1 - v2) :=
  if_neg (Nat.not_le.mpr h)

/-- A measurement ends with `c` µF found and kept. -/
def measurementKept (c : Nat) (s : State) : State :=
  disarm .bankMeasure 0 { s with
    pwr.status.bank_test := false
    power.fault_measure := false
    pwr.bankCap.test_count := satAdd s.pwr.bankCap.test_count 1
    pwr.bankCap.cap_uf := sat 16 c }

/-- A measurement of at most twice the bank's rating is kept, and with no overvoltage it clears the bank fault
(R159, R160). -/
theorem exec_bankMeasureDone_of_kept {s : State} {v1 v2 : Nat} (ht : s.pwr.status.bank_test = true)
    (hd : s.due .bankMeasure 0 = true) (hc : measured v1 v2 ≤ 2 * s.pwr.bankUf.toNat) (ho : s.power.fault_over = false) :
    exec (.bankMeasureDone v1 v2) s = .next { measurementKept (measured v1 v2) s with
      pwr.status.bank_fault := false
      pwr.status.charging := chargerMay (measurementKept (measured v1 v2) s) } := by
  have good : decide (2 * s.pwr.bankUf.toNat < measured v1 v2) = false := decide_eq_false (Nat.not_lt.mpr hc)
  have sound : refreshBankFault (measurementKept (measured v1 v2) s) =
      { measurementKept (measured v1 v2) s with pwr.status.bank_fault := false } :=
    refreshBankFault_of_neither ho rfl
  show execBankMeasureDone v1 v2 s = _
  rw [execBankMeasureDone, if_pos (by simp [ht, hd])]
  simp only [good, Bool.false_eq_true, if_false]
  exact congrArg (fun u : State => Host.Outcome.next { u with pwr.status.charging := chargerMay u }) sound

/-! ### The measured voltages and the allowance (R161, R164) -/

/-- The voltages are measured: VIN against the loss threshold in force, and an overvoltage ends below the target. -/
def voltagesTaken (b v : Nat) (s : State) : State := { s with
  pwr.measure := { bank_mv := sat 16 b, vin_mv := sat 16 v }
  pwr.status.vin_good := decide (lossThreshold s ≤ v)
  power.fault_over := s.power.fault_over && decide (s.pwr.bankTargetMv.toNat ≤ b) }

/-- Neither the bank fault nor the voltages shown enter the allowance: it is that of the bank voltage measured (R161). -/
theorem allowance_voltagesTaken (b v n : Nat) (f : Bool) (s : State) :
    allowance { voltagesTaken b v s with pwr.status.bank_fault := f } n = allowance s n := rfl

/-- The charger follows the voltages shown, and the allowance of the bank voltage `b` is shown. -/
def allowanceShown (b : Nat) (s : State) : State :=
  { refreshCharger s with pwr.shroudAllow := BitVec.ofNat 11 (allowance s b) }

/-- In Hold, where H stands still, a measurement waits for no timer and arms none, and raises nothing (R161). -/
theorem exec_allowanceUpdate_of_hold {s : State} (b v : Nat) (hd : s.power.dark = false) (hm : s.mode = .hold)
    (hr : 2 ≤ s.power.rail_step) :
    exec (.allowanceUpdate b v) s = .next (allowanceShown b { voltagesTaken b v s with
      pwr.status.bank_fault := (voltagesTaken b v s).power.fault_over || s.power.fault_measure }) := by
  have asleep {u : State} (h : u.mode = .hold) : ¬u.awake = true := Bool.eq_false_iff.mp (awake_of_hold h)
  have fault : refreshBankFault (voltagesTaken b v s) = { voltagesTaken b v s with
      pwr.status.bank_fault := (voltagesTaken b v s).power.fault_over || s.power.fault_measure } :=
    refreshBankFault_of_hold hm
  show execAllowanceUpdate b v s = _
  rw [execAllowanceUpdate, if_neg (by simp [hd, asleep hm, Nat.not_lt.mpr hr]), ← fault]
  refine if_neg (asleep (u := allowanceShown b (refreshBankFault (voltagesTaken b v s))) ?_)
  rw [fault]
  exact hm

theorem exec_chargeTimeout_of_due {s : State} (h : s.due .charge 0 = true) :
    exec .chargeTimeout s = .next { disarm .charge 0 s with power.charge_expired := true } :=
  if_pos h

/-- Settles O11: each command by its condition, then the bank fault by its two conditions. That the measured capacitance is
rounded down and held at 16 bits where it is shown is the model's choice (log entry 91). -/
theorem bankAndAllowanceAreKept : Obligations.BankAndAllowanceAreKept := by
  unfold Obligations.BankAndAllowanceAreKept
  refine ⟨fun s => exec_bankTargetReached_of_measured, ?restart, ?overvoltage, fun s => exec_bankTestInterval_of_due,
    ?measurement, ?allowance, fun s => exec_chargeTimeout_of_due⟩
  case restart =>
    intro s hd ho hm hb hmay
    have cleared : refreshBankFault { s with power.fault_over := false } =
        { s with power.fault_over := false, pwr.status.bank_fault := false } :=
      refreshBankFault_of_neither rfl hm
    have same : chargerMay { s with power.fault_over := false, pwr.status.bank_fault := false } = chargerMay s := by
      simp only [chargerMay, ho]
    refine ⟨_, exec_bankChargeRestart_of_lit hd, ?_⟩
    rw [cleared]
    refine ⟨?_, rfl, rfl, rfl⟩
    rw [chargerStarted, same, hmay, Bool.or_true]
  case overvoltage =>
    intro s hd hm hb
    exact (exec_bankOvervoltage_of_lit hd).trans (congrArg _ (refreshBankFault_of_overvoltage rfl hb hm))
  case measurement =>
    intro s v1 v2 ht hd hv hc ho
    have fall := measured_of_fall hv
    refine ⟨_, exec_bankMeasureDone_of_kept ht hd (fall ▸ hc) ho, ?_, rfl, rfl, rfl, timer_disarm_self ..⟩
    exact congrArg (sat 16) fall
  case allowance =>
    intro s b v hd hm hr
    refine ⟨_, exec_allowanceUpdate_of_hold b v hd hm hr, rfl, rfl, rfl, ?_, hm⟩
    exact congrArg (BitVec.ofNat 11) (allowance_voltagesTaken ..)

end Sys2Proof.Machine
end

section
/-!
PROOFS. Resets: the levels of the sources, the beginning and the reach of an L4, domain release, clocks and watchdogs.
-/

namespace Sys2Proof.Machine

/-! ### The levels of the sources (R178, R179) -/

/-- The sources of power-on and of the rails have level L5. -/
theorem levelOf_of_power {c : Nat} (s : State) (h : c < 3) : levelOf s c = 5 := by
  obtain rfl | rfl | rfl : c = 0 ∨ c = 1 ∨ c = 2 := by omega
  · rfl
  · rfl
  · rfl

/-- The sources of the host links reach nothing on a yard. -/
theorem levelOf_of_yard_link {s : State} {c : Nat} (hy : s.yard = true) (h : 0xA ≤ c) : levelOf s c = 0 := by
  unfold levelOf
  split
  case h_11 | h_12 | h_13 | h_14 | h_15 | h_16 => exact if_pos hy
  case h_17 => rfl
  all_goals omega

/-- Settles O12: source by source, by the role and the width of the link. -/
theorem shippedReachOfEachSource : Obligations.ShippedReachOfEachSource := by
  unfold Obligations.ShippedReachOfEachSource
  intro s
  refine ⟨fun c => levelOf_of_power s, fun hy => ?masthead, fun hy => ?yard, rfl, rfl, rfl, rfl⟩
  case masthead =>
    have own {a b : Nat} : (if s.yard = true then a else b) = b := if_neg (Bool.eq_false_iff.mp hy)
    exact ⟨own, own, own, own, own, own, own, own, own⟩
  case yard => exact ⟨if_pos hy, if_pos hy, if_pos hy, fun c => levelOf_of_yard_link hy⟩

/-! ### An L4 begins (R183, R186) -/

/-- A source that asserted is recorded, and its event raised. -/
def sourceNoted (code : Nat) (s : State) : State := raise (src 0 1) 0 [] (recordSource code s)

theorem sourceNoted_delivered (code : Nat) (s : State) : Delivered (recordSource code s) (sourceNoted code s) :=
  (raise_recorded ..).delivered

/-- What a source changes as it is noted with its stamp, beyond the delivery of stamps, is its record. -/
theorem sourceNoted_takeStamp_delivered (code : Nat) (s : State) :
    Delivered (recordSource code s) (sourceNoted code (takeStamp s).2) := by
  have recorded : Delivered (recordSource code s) (recordSource code (takeStamp s).2) :=
    congrArg (recordSource code) (takeStamp_delivered s)
  exact recorded.trans (sourceNoted_delivered ..)

/-- A field that neither the delivery of stamps nor the record of a source changes. -/
theorem sourceNoted_takeStamp_keeps {α : Type} {f : State → α} (hf : ∀ s, f s.undelivered = f s) (code : Nat) (s : State) :
    f (sourceNoted code (takeStamp s).2) = f (recordSource code s) :=
  (sourceNoted_takeStamp_delivered code s).keeps hf

theorem assertSource_of_l4 {s : State} {code : Nat} (h : levelOf s code = 4) :
    assertSource code s = actL4 { code := code, stamp := (takeStamp s).1, mode_at := s.mode }
      (sourceNoted code (takeStamp s).2) := by
  have mode : (sourceNoted code (takeStamp s).2).mode = s.mode :=
    sourceNoted_takeStamp_keeps (f := State.mode) (fun _ => rfl) code s
  simp only [assertSource, h, ← mode]
  rfl

/-- A source without reach is recorded only (R184). -/
theorem assertSource_of_none {s : State} {code : Nat} (h : levelOf s code = 0) :
    assertSource code s = sourceNoted code (takeStamp s).2 := by
  simp only [assertSource, h]
  rfl

/-- Run with no L4, Thermal Halt entry or spill in progress: a source of level L4 acts at once. -/
def State.resettable (s : State) : Prop :=
  s.mode = .run ∧ s.reset_ctl.sequence = none ∧ s.thermal.entry = none ∧ s.shroud.spill = none

theorem actL4_of_resettable {s : State} (h : s.resettable) (a : Arrival) : actL4 a s = beginL4 a s := by
  obtain ⟨hm, hs, he, hp⟩ := h
  simp [actL4, resetFirst, hm, hs, he, hp]

theorem sourceNoted_takeStamp_resettable {s : State} (h : s.resettable) (code : Nat) :
    (sourceNoted code (takeStamp s).2).resettable := by
  obtain ⟨hm, hs, he, hp⟩ := h
  have kept {α : Type} {f : State → α} (hf : ∀ s, f s.undelivered = f s) := sourceNoted_takeStamp_keeps hf code s
  exact ⟨(kept (f := State.mode) fun _ => rfl).trans hm, (kept (f := (·.reset_ctl.sequence)) fun _ => rfl).trans hs,
    (kept (f := (·.thermal.entry)) fun _ => rfl).trans he, (kept (f := (·.shroud.spill)) fun _ => rfl).trans hp⟩

/-- What a source of level L4 leaves when it begins the assertion steps: NAND operations and stamps aside, a field of the
record of the source is kept by the halt of the media. -/
theorem haltMedia_sourceNoted_keeps {α : Type} {f : State → α} (hf : ∀ s, f s.unspilled = f s) (code : Nat) (s : State) :
    f (haltMedia (sourceNoted code (takeStamp s).2)) = f (recordSource code s) := by
  rw [← hf, haltMedia_unspilled, (sourceNoted_takeStamp_delivered code s).unspilled, hf]

/-- A source of level L4 that asserts in Run, with no other reset, spill or halt in progress, begins its steps (R186). -/
theorem assertSource_beginsL4 {s : State} {code : Nat} (h : s.resettable) (hl : levelOf s code = 4) :
    BeginsL4 code s (.next (assertSource code s)) := by
  rw [assertSource_of_l4 hl, actL4_of_resettable (sourceNoted_takeStamp_resettable h code)]
  have kept {α : Type} (f : State → α) (hf : ∀ s, f s.unspilled = f s) := haltMedia_sourceNoted_keeps hf code s
  have now : (haltMedia (sourceNoted code (takeStamp s).2)).h = s.h := kept State.h fun _ => rfl
  refine ⟨_, rfl, kept (·.rst.cause) fun _ => rfl, rfl, rfl, rfl, ⟨_, rfl, rfl, rfl⟩, rfl, rfl, rfl, rfl, ?_,
    kept State.mode fun _ => rfl⟩
  rw [← now]
  exact timer_arm_self ..

/-- What begins from a state begins from every state of the same causes, mode and time. -/
theorem BeginsL4.of_same {s t : State} {code : Nat} {o : Host.Outcome State Fault Refusal} (h : BeginsL4 code t o)
    (hc : t.rst.cause = s.rst.cause) (hm : t.mode = s.mode) (hh : t.h = s.h) : BeginsL4 code s o := by
  unfold BeginsL4 at h ⊢
  rwa [hc, hm, hh] at h

/-! ### The commands that assert a source (R179, R181, R192, R193, R195) -/

/-- A domain whose clock-good has dropped (R191, R192). -/
def clockDropped (d : Domain) (s : State) : State :=
  { s with reset_ctl.clock_good := setBit s.reset_ctl.clock_good d.num false }

/-- The lost clock of a domain that is neither always on nor a port's asserts source 0x9 (R192). -/
theorem exec_clockLoss_of_inner {s : State} {d : Domain} (hr : d ≠ .ret) (ha : d ≠ .ao) (h0 : d ≠ .port0)
    (h1 : d ≠ .port1) (hd : s.isHeld d = false) : exec (.clockLoss d) s = .next (assertSource 9 (clockDropped d s)) := by
  show execClockLoss d s = _
  rw [execClockLoss, if_neg (Bool.eq_false_iff.mp hd)]
  split
  · contradiction
  · contradiction
  · contradiction
  · contradiction
  · rfl

theorem exec_clockLoss_of_held {s : State} {d : Domain} (hd : s.isHeld d = true) : exec (.clockLoss d) s = .next s :=
  if_pos hd

/-- The lost clock of a port asserts source 0x9 at level L3 on that port (R192). -/
theorem exec_clockLoss_of_port {s : State} {d : Domain} {n : Nat} (hp : d = .port0 ∧ n = 0 ∨ d = .port1 ∧ n = 1)
    (hd : s.isHeld d = false) : exec (.clockLoss d) s = .next (actL3 n (sourceNoted 9 (clockDropped d s))) := by
  show execClockLoss d s = _
  rw [execClockLoss, if_neg (Bool.eq_false_iff.mp hd)]
  obtain ⟨rfl, rfl⟩ | ⟨rfl, rfl⟩ := hp
  · rfl
  · rfl

/-- A subsystem reset needs its key value and a port that takes the write (log entry 80). -/
theorem exec_nvmSubsystemReset_of_open {s : State} {c : Nat} (hr : s.reachable c = true) (ho : memoryOpen s c = true) :
    exec (.nvmSubsystemReset c 0x4E564D65) s = .next (assertSource 5 s) :=
  congrArg Host.Outcome.next (memoryWrite_of_open _ hr ho)

/-- A sideband port answers before the reset acts (log entry 79). -/
theorem exec_nvmeMiSubsystemReset_of_not_hold {s : State} {p : Nat} (h : s.mode ≠ .hold) (hp : p < 2) :
    exec (.nvmeMiSubsystemReset p) s = .next (assertSource 6 (say (.miResponse p 0 []) s)) := by
  show execNvmeMiSubsystemReset p s = _
  unfold execNvmeMiSubsystemReset
  split
  · contradiction
  · exact if_pos hp

/-- The switch to a core loop is no longer tried (R193). -/
def pllSettled (d : Domain) (s : State) : State := disarm .pllLimit d.num (disarm .pllRetry d.num s)

theorem exec_pllLockRetry_of_limit {s : State} {d : Domain} (hr : s.due .pllRetry d.num = true)
    (hl : s.due .pllLimit d.num = true) : exec (.pllLockRetry d false) s = .next (assertSource 9 (pllSettled d s)) :=
  (if_pos hr).trans ((if_neg Bool.false_ne_true).trans (if_pos hl))

theorem exec_pllLockRetry_of_unlocked {s : State} {d : Domain} (hr : s.due .pllRetry d.num = true)
    (hl : s.due .pllLimit d.num = false) :
    exec (.pllLockRetry d false) s = .next (arm .pllRetry d.num (2 ^ 20) s) :=
  (if_pos hr).trans ((if_neg Bool.false_ne_true).trans (if_neg (Bool.eq_false_iff.mp hl)))

theorem exec_pllLockRetry_of_locked {s : State} {d : Domain} (hr : s.due .pllRetry d.num = true) :
    exec (.pllLockRetry d true) s = .next { pllSettled d s with
      reset_ctl.core_loops := !(pllSettled d s).timers.any fun t => t.kind == .pllRetry } :=
  (if_pos hr).trans (if_pos rfl)

theorem watchdogs_of_run {s : State} (h : s.mode = .run) : s.watchdogs = true := by
  simp only [State.watchdogs, h]

theorem exec_watchdogStage2_of_timedOut {s : State} {c n : Nat} (hm : s.mode = .run)
    (hw : s.reset_ctl.wdt_stage1.find c = some n) (ht : s.timedOut n = true) :
    exec (.watchdogStage2 c) s = .next (assertSource 8 s) := by
  show execWatchdogStage2 c s = _
  simp only [execWatchdogStage2, hw]
  exact if_pos (by simp [watchdogs_of_run hm, ht])

/-- Settles O13: each command by the source it asserts, which has level L4 there, and PERST1# by having no reach in x16. The
key value and the conditions of an NVM Subsystem Reset and the answer before a sideband reset are the model's choice (log
entries 80 and 79). -/
theorem sourcesOfLevelFourBeginAssertion : Obligations.SourcesOfLevelFourBeginAssertion := by
  unfold Obligations.SourcesOfLevelFourBeginAssertion
  intro s hm hs he hp
  have ready : s.resettable := ⟨hm, hs, he, hp⟩
  refine ⟨?perst0, ?perst1, ?kl0, ?nvm, ?mi, ?clock, ?port, ?held, ?pll, ?watchdog⟩
  case perst0 =>
    intro hy hd
    exact assertSource_beginsL4 ready (by simp [levelOf, hy, hd])
  case perst1 =>
    intro hy hd
    have noted : exec .perst1Assert s = .next (sourceNoted 4 (takeStamp s).2) :=
      congrArg Host.Outcome.next (assertSource_of_none (by simp [levelOf, hd]))
    have kept {α : Type} (f : State → α) (hf : ∀ s, f s.undelivered = f s) := sourceNoted_takeStamp_keeps hf 4 s
    exact ⟨_, noted, kept (·.rst.cause) fun _ => rfl, (kept (·.reset_ctl.sequence) fun _ => rfl).trans hs,
      (kept State.mode fun _ => rfl).trans hm, (kept (·.ep.dual) fun _ => rfl).trans hd⟩
  case kl0 =>
    intro hy
    exact assertSource_beginsL4 ready (if_pos hy)
  case nvm =>
    intro c hr ho
    rw [exec_nvmSubsystemReset_of_open hr ho]
    exact assertSource_beginsL4 ready rfl
  case mi =>
    intro p hp
    rw [exec_nvmeMiSubsystemReset_of_not_hold (by simp [hm]) hp]
    exact (assertSource_beginsL4 (s := say (.miResponse p 0 []) s) ready rfl).of_same rfl rfl rfl
  case clock =>
    intro d hr ha h0 h1 hd
    rw [exec_clockLoss_of_inner hr ha h0 h1 hd]
    exact (assertSource_beginsL4 (s := clockDropped d s) ready rfl).of_same rfl rfl rfl
  case port => exact fun d n => exec_clockLoss_of_port
  case held => exact fun d => exec_clockLoss_of_held
  case pll =>
    intro d hr hl
    rw [exec_pllLockRetry_of_limit hr hl]
    exact (assertSource_beginsL4 (s := pllSettled d s) ready rfl).of_same rfl rfl rfl
  case watchdog =>
    intro c n hw ht
    rw [exec_watchdogStage2_of_timedOut hm hw ht]
    exact assertSource_beginsL4 ready rfl

/-! ### The reach of an L4 (R178, R186) -/

/-- With no pulse and no NAND operation in progress an L4 may assert (R186 steps 2 and 3). -/
theorem safePoint_of_idle {s : State} (hp : s.boot.pulsing = false) (hm : s.media.ops = []) : safePoint s = true := by
  simp [safePoint, hp, hm, Tab.vals]

/-- At the safe point the reach asserts; the count of clocks that were not ready stays (log entry 72). -/
theorem exec_l4ReachAsserted_of_safe {s : State} {q : Arrival} (hq : s.reset_ctl.sequence = some q)
    (hs : safePoint s = true) : exec .l4ReachAsserted s = .next { afterReset false (keepsDram q.mode_at s) s with
      rst.clkStatus.not_ready_count := s.rst.clkStatus.not_ready_count } := by
  show execL4ReachAsserted s = _
  simp only [execL4ReachAsserted, hq, hs, Bool.true_or, if_true]

/-- A reset cuts no pulse where none is in progress. -/
theorem cutPulse_of_idle {b : BootArray} (h : b.pulsing = false) : cutPulse b = b := by
  simp only [cutPulse, h]

theorem keepBoot_slot_a_of_idle {b : BootArray} (h : b.pulsing = false) : (keepBoot b).slot_a = b.slot_a := by
  rw [keepBoot, cutPulse_of_idle h]

/-- An L4 that began in an operating mode keeps the contents of DRAM (R48, R178). -/
theorem keepsDram_of_run (s : State) : keepsDram .run s = true := rfl

/-! ### The release of a domain (R182, R190) -/

/-- The number of a domain names it. -/
theorem Domain.num_injective : Function.Injective Domain.num := by
  refine Function.LeftInverse.injective (g := fun n =>
    [Domain.ret, .ao, .mgmt, .dram, .media, .cmd, .port0, .port1, .ctrl0, .ctrl1, .keaka].getD n .ret) fun d => ?_
  cases d <;> rfl

theorem releaseDomain_isHeld_other {d e : Domain} (h : e ≠ d) (s : State) :
    (releaseDomain d s).isHeld e = s.isHeld e := by
  show (setBit s.reset_ctl.held d.num false).getLsbD e.num = _
  rw [getLsbD_setBit _ _ _ (by cases e <;> decide), if_neg (Domain.num_injective.ne h.symm)]
  rfl

theorem releaseDomain_clockGood_self (d : Domain) (s : State) :
    (releaseDomain d s).reset_ctl.clock_good.getLsbD d.num = true := by
  show (setBit s.reset_ctl.clock_good d.num true).getLsbD d.num = true
  rw [getLsbD_setBit _ _ _ (by cases d <;> decide), if_pos rfl]

theorem releaseDomain_clockGood_other {d e : Domain} (h : e ≠ d) (s : State) :
    (releaseDomain d s).reset_ctl.clock_good.getLsbD e.num = s.reset_ctl.clock_good.getLsbD e.num := by
  show (setBit s.reset_ctl.clock_good d.num true).getLsbD e.num = _
  rw [getLsbD_setBit _ _ _ (by cases e <;> decide), if_neg (Domain.num_injective.ne h.symm)]

/-- The release of a port and then of its controller, and of nothing else. -/
theorem releaseDomain_port_controller {p c : Domain} (h : p ≠ c) (s : State) :
    (releaseDomain c (releaseDomain p s)).isHeld p = false ∧
      (releaseDomain c (releaseDomain p s)).reset_ctl.clock_good.getLsbD p.num = true ∧
      (releaseDomain c (releaseDomain p s)).isHeld c = false ∧
      ∀ e, e ≠ p → e ≠ c → (releaseDomain c (releaseDomain p s)).isHeld e = s.isHeld e := by
  refine ⟨?_, ?_, releaseDomain_isHeld_self .., fun e hp hc => ?_⟩
  · rw [releaseDomain_isHeld_other h, releaseDomain_isHeld_self]
  · rw [releaseDomain_clockGood_other h, releaseDomain_clockGood_self]
  · rw [releaseDomain_isHeld_other hc, releaseDomain_isHeld_other hp]

/-- What DOMAIN_RELEASE releases: the domain, and with a port its controller. -/
def withController (d : Domain) (s : State) : State :=
  match d with
  | .port0 => releaseDomain .ctrl0 (releaseDomain .port0 s)
  | .port1 => releaseDomain .ctrl1 (releaseDomain .port1 s)
  | d => releaseDomain d s

theorem withController_of_inner {d : Domain} (h0 : d ≠ .port0) (h1 : d ≠ .port1) (s : State) :
    withController d s = releaseDomain d s := by
  unfold withController
  split
  · contradiction
  · contradiction
  · rfl

theorem exec_domainRelease_of_passed {s : State} {d : Domain} (hm : s.mode ≠ .hold)
    (hs : s.reset_ctl.sequence = none) (hw : windowPassed d s = true) (hd : d ≠ .mgmt) :
    exec (.domainRelease d) s = .next (withController d s) := by
  show execDomainRelease d s = _
  unfold execDomainRelease withController
  rw [if_neg (by simp [hs, hw])]
  split
  · contradiction
  · cases d with
    | mgmt => contradiction
    | ret | ao | dram | media | cmd | port0 | port1 | ctrl0 | ctrl1 | keaka => rfl

/-- The window of a domain has not passed: it stays held. -/
theorem exec_domainRelease_of_waiting {s : State} {d : Domain} (hw : windowPassed d s = false) :
    exec (.domainRelease d) s = .next s := by
  show execDomainRelease d s = _
  unfold execDomainRelease
  split
  · rfl
  · exact if_pos (by simp [hw])

/-- The first stage of a watchdog is an error of its core (R195). -/
theorem exec_watchdogStage1_of_timedOut {s : State} {c : Nat} (hm : s.mode = .run) (hc : c < 44)
    (ht : s.timedOut (s.reset_ctl.wdt_stage1.look s.reset_ctl.wdt_start c) = true) :
    exec (.watchdogStage1 c) s = .next (takeError { source := src 0 3, kind := 7, detail := c } [] { s with
      reset_ctl.wdt_stage1 := s.reset_ctl.wdt_stage1.put c s.reset_ctl.cycles
      rst.wdtStatus := { stage1_count := satAdd s.rst.wdtStatus.stage1_count 1, stage1 := true, core := BitVec.ofNat 6 c } }) :=
  if_pos (by simp [watchdogs_of_run hm, hc, ht])

/-- Settles O14: the reach at the safe point field by field, then each command by its condition. -/
theorem resetsAssertAndDomainsRelease : Obligations.ResetsAssertAndDomainsRelease := by
  unfold Obligations.ResetsAssertAndDomainsRelease
  refine ⟨?reach, ?release, fun s d => exec_domainRelease_of_waiting, fun s d h => if_pos h,
    fun s d => exec_pllLockRetry_of_unlocked, fun s d => exec_pllLockRetry_of_locked,
    fun s c => exec_watchdogStage1_of_timedOut⟩
  case reach =>
    intro s q hq hr hp hm
    have asserted := exec_l4ReachAsserted_of_safe hq (safePoint_of_idle hp hm)
    rw [hr, keepsDram_of_run] at asserted
    exact ⟨_, asserted, rfl, rfl, rfl, rfl, rfl, rfl, rfl, rfl, rfl, rfl, rfl, rfl, rfl, rfl,
      keepBoot_slot_a_of_idle hp, rfl, rfl⟩
  case release =>
    intro s d hm hs hw hd
    have run := exec_domainRelease_of_passed hm hs hw hd
    by_cases h0 : d = .port0
    · subst h0
      obtain ⟨held, good, ctrl, others⟩ := releaseDomain_port_controller (p := .port0) (c := .ctrl0) (by decide) s
      exact ⟨_, run, held, good, fun _ => ctrl, nofun, fun e he hc _ => others e he (hc rfl), rfl⟩
    by_cases h1 : d = .port1
    · subst h1
      obtain ⟨held, good, ctrl, others⟩ := releaseDomain_port_controller (p := .port1) (c := .ctrl1) (by decide) s
      exact ⟨_, run, held, good, nofun, fun _ => ctrl, fun e he _ hc => others e he (hc rfl), rfl⟩
    · rw [withController_of_inner h0 h1] at run
      exact ⟨_, run, releaseDomain_isHeld_self d s, releaseDomain_clockGood_self d s, fun h => absurd h h0,
        fun h => absurd h h1, fun e he _ _ => releaseDomain_isHeld_other he s, rfl⟩

end Sys2Proof.Machine
end

section
/-!
PROOFS. The Array Service Routine and the recovery image.
-/

namespace Sys2Proof.Machine

/-! ### Requests (R197) -/

/-- A request whose operations are settled already is taken as it is. -/
theorem placeRequest_of_settled {q : BaRequest} (h : q.ops ≠ []) (s : State) : placeRequest q s = some (q, s) := by
  unfold placeRequest
  split
  · contradiction
  · contradiction
  · rfl

/-- The oldest request that may be taken leaves the queue, and its first pulse begins (R197). -/
theorem exec_bootArrayRequest_of_settled {s : State} {q : BaRequest} (ha : arrayStopped s = false)
    (hc : s.boot.current = none) (hq : leastOn BaRequest.admitted (s.boot.queue.filter (mayTake s)) = some q)
    (ho : q.ops ≠ []) : exec .bootArrayRequest s = .next { s with
      boot.queue := s.boot.queue.erase q
      boot.current := some q
      boot.pulsing := true
      boot.pulses := 0 } := by
  show execBootArrayRequest s = _
  rw [execBootArrayRequest, if_neg (by simp [ha, hc])]
  simp only [hq, placeRequest_of_settled ho]

/-! ### Pulses (R198, R199) -/

/-- The pulses an operation may take (R198). -/
def BaOp.pulseLimit (o : BaOp) : Nat := if o.isErase then 40 else 12

@[simp] theorem pulseGiven_pulses (o : BaOp) (s : State) : (pulseGiven o s).boot.pulses = s.boot.pulses := by
  cases o with
  | slotFlagProgram b | nonceProgram b => cases b <;> rfl
  | program | journalHeader | erase | flagProgram | flagErase | slotFlagErase => rfl

@[simp] theorem arrayStopped_pulseGiven (o : BaOp) (s : State) : arrayStopped (pulseGiven o s) = arrayStopped s := by
  cases o with
  | slotFlagProgram b | nonceProgram b => cases b <;> rfl
  | program | journalHeader | erase | flagProgram | flagErase | slotFlagErase => rfl

section
variable {s : State} {q : BaRequest} {o : BaOp} {rest : List BaOp} (hc : s.boot.current = some q)
  (hp : s.boot.pulsing = true) (ho : q.ops.drop s.boot.done = o :: rest)
include hc hp ho

/-- A pulse that does not verify is followed by another below the limit, and fails the operation at it (R198, R199). -/
theorem exec_bootArrayPulseDone_unverified : exec (.bootArrayPulseDone false) s =
    if s.boot.pulses + 1 < o.pulseLimit then .next { pulseGiven o s with
      boot.pulses := s.boot.pulses + 1
      boot.pulsing := !arrayStopped s }
    else .next (requestFailed q (opFailed o (endRequest (pulseGiven o s)))) := by
  show execBootArrayPulseDone false s = _
  simp only [execBootArrayPulseDone, hc, hp, ho, Bool.not_true, Bool.false_eq_true, if_false, pulseGiven_pulses,
    arrayStopped_pulseGiven, BaOp.pulseLimit]
  rfl

/-- A verified operation gives way to the next of its request, or ends it (R198). -/
theorem exec_bootArrayPulseDone_verified (hq : q.purpose ≠ .abandoned) : exec (.bootArrayPulseDone true) s =
    if rest.isEmpty then .next (watchNonces (requestDone q (endRequest (opVerified o (pulseGiven o s)))))
    else .next { opVerified o (pulseGiven o s) with
      boot.done := (opVerified o (pulseGiven o s)).boot.done + 1
      boot.pulses := 0
      boot.pulsing := !arrayStopped (opVerified o (pulseGiven o s)) } := by
  have wanted : (q.purpose == .abandoned && o.isErase) = false := by simp [hq]
  show execBootArrayPulseDone true s = _
  simp only [execBootArrayPulseDone, hc, hp, ho, wanted, Bool.not_true, Bool.false_eq_true, if_false, if_true]

end

/-! ### The recovery image (R217) -/

/-- A request for a digest context changes the engines' queues only (R646). -/
theorem askDigest_eq (n : Nat) (u : EngineUse) (s : State) :
    ∃ sec, askDigest n u s = { s with security := sec } := by
  unfold askDigest
  split
  · exact ⟨_, rfl⟩
  · exact ⟨_, rfl⟩
  · split <;> exact ⟨_, rfl⟩

/-- An update begins at step 0 and asks the engines for its checks: beyond the delivery of stamps no more changes (R214). -/
theorem beginUpdate_delivered (u : FwUpdate) (s : State) :
    ∃ sec, Delivered { s with boot.update := some { u with step := 0 }, security := sec } (beginUpdate u s) := by
  obtain ⟨sec, asked⟩ := askDigest_eq (pathStamp s u.path) .firmwareDigest
    { s with boot.update := some { u with step := 0 } }
  rw [beginUpdate, asked]
  exact ⟨_, request_delivered ..⟩

/-- The update that writes a recovery image to slot A (R217). -/
def recoveryUpdate (i : FwImage) : FwUpdate where
  slotB := false
  step := 0
  activate := false
  path := .own
  header := i.header
  image := (List.range i.image.length).zip i.image |>.filter fun p => p.2 != 0

/-- An authentic recovery image is accepted once, in a Start that failed with code 0x01 (R217). -/
theorem exec_recoveryImage_of_failed {s : State} {i : FwImage} (hm : s.mode = .start)
    (hf : s.mgmt.modeStatus.start_fail = 1) (hr : s.reset_ctl.recovered = false) (hu : s.boot.update = none)
    (hi : i.authentic = true) : exec (.recoveryImage i) s = .next (beginUpdate (recoveryUpdate i) s) := by
  show execRecoveryImage i s = _
  rw [execRecoveryImage, if_pos]
  · rfl
  · simp [hm, hf, hr, hu, hi]

/-- Settles O16: a request by its operations, a pulse by whether it verifies and how many were given. -/
theorem arrayServiceRoutinePulses : Obligations.ArrayServiceRoutinePulses := by
  unfold Obligations.ArrayServiceRoutinePulses
  refine ⟨fun s q => exec_bootArrayRequest_of_settled, ?again, ?failed, ?next, ?done, ?recovery⟩
  case again =>
    intro s q o rest hc hp ho hl
    rw [exec_bootArrayPulseDone_unverified hc hp ho]
    exact if_pos hl
  case failed =>
    intro s q o rest hc hp ho hl
    rw [exec_bootArrayPulseDone_unverified hc hp ho]
    exact if_neg (Nat.not_lt.mpr hl)
  case next =>
    intro s q o p rest hc hp ho hq
    rw [exec_bootArrayPulseDone_verified hc hp ho hq]
    exact if_neg (by simp)
  case done =>
    intro s q o hc hp ho hq
    rw [exec_bootArrayPulseDone_verified hc hp ho hq]
    exact if_pos rfl
  case recovery =>
    intro s i hm hf hr hu hi
    obtain ⟨sec, begun⟩ := beginUpdate_delivered (recoveryUpdate i) s
    have update := begun.keeps (f := (·.boot.update)) fun _ => rfl
    refine ⟨_, exec_recoveryImage_of_failed hm hf hr hu hi, congrArg (Option.map FwUpdate.header) update,
      congrArg (Option.map FwUpdate.slotB) update, ?_⟩
    exact (begun.keeps (f := State.mode) fun _ => rfl).trans hm

end Sys2Proof.Machine
end

section
/-!
PROOFS. Firmware Image Download and Firmware Commit.
-/

namespace Sys2Proof.Machine

/-! ### Download (R349) -/

section
variable {s : State} {n : Nat} {e : Entry} (h : fetchedEntry n true 0x11 s = some e) (b : Bytes)
include h

/-- A piece within the staging buffer, of whole 4 KiB or the last of the image, is staged (R349, log entry 51). -/
theorem exec_firmwareImageDownload_of_within (hl : e.sqe.transferOffset + e.sqe.transferBytes ≤ 2 ^ 24)
    (hw : e.sqe.transferOffset % 4096 = 0 ∧ e.sqe.transferBytes % 4096 = 0 ∨
      s.boot.fw_length ≤ e.sqe.transferOffset + e.sqe.transferBytes) :
    exec (.firmwareImageDownload n b) s = .next (finishEntry n 0 0 { s with
      boot.fw_staging := Cells.writes s.boot.fw_staging e.sqe.transferOffset (padTo e.sqe.transferBytes b)
      boot.fw_length := max s.boot.fw_length (e.sqe.transferOffset + e.sqe.transferBytes) }) := by
  show execFirmwareImageDownload n b s = _
  rw [execFirmwareImageDownload, runEntry_of_fetched _ h]
  exact congrArg _ (if_neg (by omega))

theorem exec_firmwareImageDownload_of_beyond (hl : 2 ^ 24 < e.sqe.transferOffset + e.sqe.transferBytes) :
    exec (.firmwareImageDownload n b) s = .next (finishEntry n Status.invalidField 0 s) := by
  show execFirmwareImageDownload n b s = _
  rw [execFirmwareImageDownload, runEntry_of_fetched _ h]
  exact congrArg _ (if_pos (.inl hl))

end

/-! ### Commit (R214, R350, R351) -/

/-- A commit row runs the commit of a command that names its action. -/
theorem runCommit_of_action {s : State} {n a : Nat} {e : Entry} (h : fetchedEntry n true 0x10 s = some e)
    (ha : e.sqe.cdw10.toNat / 8 % 8 = a) : runCommit n a s = .next (hostCommit n a e s) := by
  simp only [runCommit, h, ha, if_true]

theorem hostCommit_of_busy {s : State} (n a : Nat) (e : Entry) (h : commitBusy s = true) :
    hostCommit n a e s = finishEntry n Status.sequenceError 0 s :=
  if_pos h

/-- There is no slot above 2 (log entry 51). -/
theorem hostCommit_of_noSlot {s : State} (n a : Nat) {e : Entry} (h : commitBusy s = false)
    (hf : 2 < e.sqe.cdw10.toNat % 8) : hostCommit n a e s = finishEntry n Status.invalidSlot 0 s :=
  (if_neg (Bool.eq_false_iff.mp h)).trans (if_pos hf)

/-- The commit on this device of the staged image, with the yards that follow (R728). -/
def committed (n a fs : Nat) (s : State) : State :=
  commitFirmware (.host n) a fs s.boot.fw_staging (onEntry n (fun e => { e with state := .overlap })
    (involveYards n (yardsJoined s) ([4, a, fs] ++ (Cells.reads s.boot.fw_staging 0 s.boot.fw_length).map BitVec.toNat) s))

/-- An update that has begun empties the staging buffer (log entry 51). -/
def stagingTaken (t : State) : State := if t.boot.update.isSome then { t with boot.fw_staging := [], boot.fw_length := 0 } else t

theorem hostCommit_of_slot {s : State} (n a : Nat) {e : Entry} (h : commitBusy s = false)
    (hf : e.sqe.cdw10.toNat % 8 ≤ 2) : hostCommit n a e s =
      if a ≤ 1 then stagingTaken (committed n a (e.sqe.cdw10.toNat % 8) s) else committed n a (e.sqe.cdw10.toNat % 8) s := by
  rw [hostCommit, if_neg (Bool.eq_false_iff.mp h), if_neg (Nat.not_lt.mpr hf)]
  by_cases ha : a ≤ 1
  · simp only [ha, decide_true, Bool.true_and, if_true]
    rfl
  · simp only [ha, decide_false, Bool.false_and, Bool.false_eq_true, if_false]
    rfl

/-- Settles O33: the piece of a download by where it ends, a commit by what is in progress, its slot and its action. That the
piece that reaches farthest counts as the last, that an update takes the staging buffer and that a slot above 2 is invalid
are the model's choice (log entry 51). -/
theorem firmwareIsStagedAndCommitted : Obligations.FirmwareIsStagedAndCommitted := by
  unfold Obligations.FirmwareIsStagedAndCommitted
  intro s n e b
  refine ⟨?download, ?commit⟩
  case download =>
    rintro o l h rfl rfl
    exact ⟨exec_firmwareImageDownload_of_within h b, exec_firmwareImageDownload_of_beyond h b⟩
  case commit =>
    rintro a fs h rfl rfl
    have row {c : Nat} (ha : e.sqe.cdw10.toNat / 8 % 8 = c) := runCommit_of_action h ha
    refine ⟨fun busy => ?busy, fun free hf => ?noSlot, fun t free hf ht => ?slot⟩
    case busy =>
      have ends (c : Nat) (ha : e.sqe.cdw10.toNat / 8 % 8 = c) :
          runCommit n c s = .next (finishEntry n Status.sequenceError 0 s) :=
        (row ha).trans (congrArg _ (hostCommit_of_busy n c e busy))
      exact ⟨ends 0, ends 1, ends 2⟩
    case noSlot =>
      have ends (c : Nat) (ha : e.sqe.cdw10.toNat / 8 % 8 = c) :
          runCommit n c s = .next (finishEntry n Status.invalidSlot 0 s) :=
        (row ha).trans (congrArg _ (hostCommit_of_noSlot n c free hf))
      exact ⟨ends 0, ends 1, ends 2⟩
    case slot =>
      have ends {c : Nat} (ha : e.sqe.cdw10.toNat / 8 % 8 = c) :
          runCommit n c s = .next (if c ≤ 1 then stagingTaken t else t) := by
        subst ha ht
        exact (row rfl).trans (congrArg _ (hostCommit_of_slot n _ free hf))
      exact ⟨fun ha => ends ha, fun ha => ends ha, fun ha => ends ha⟩

end Sys2Proof.Machine
end

section
/-!
PROOFS. Transfer and install of a manifest, and NVMe-MI in band.
-/

namespace Sys2Proof.Machine

/-! ### Transfer (R248, R355) -/

/-- A piece within the staging buffer is staged while no install, mirror or forward is in progress (R248, R355). -/
theorem stageManifest_of_within {q : Sqe} {s : State} (d : Bytes) (h : q.transferOffset + q.transferBytes ≤ stagingBytes)
    (free : stagingBusy s = false) : stageManifest q d s = (0, 0, { s with
      manifest.staging := Cells.writes s.manifest.staging q.transferOffset (padTo q.transferBytes d)
      manifest.staged := max s.manifest.staged (q.transferOffset + q.transferBytes) }) :=
  (if_neg (Nat.not_lt.mpr h)).trans (if_neg (Bool.eq_false_iff.mp free))

theorem stageManifest_of_beyond {q : Sqe} (s : State) (d : Bytes) (h : stagingBytes < q.transferOffset + q.transferBytes) :
    stageManifest q d s = (Status.invalidField, 0, s) :=
  if_pos h

/-- A transfer row stages its piece and ends with the status of that. -/
theorem exec_manifestTransfer_of_fetched {s : State} {t : Nat} {e : Entry} (d : Bytes)
    (h : fetchedEntry t true 0xC1 s = some e) : exec (.manifestTransfer t d) s
      = .next (finishEntry t (stageManifest e.sqe d s).1 (stageManifest e.sqe d s).2.1 (stageManifest e.sqe d s).2.2) := by
  show execManifestTransfer t d s = _
  rw [execManifestTransfer, runEntry_of_fetched _ h]

/-! ### Install (R356, R729) -/

theorem yardsJoined_of_none {s : State} (h : s.kk.status.joined = 0) : yardsJoined s = [] := by
  simp [yardsJoined, h]

/-- With no yard joined an image names none (R729). -/
theorem yardNamed_of_none {s : State} (img : Bytes) (h : s.kk.status.joined = 0) : yardNamed s img = none := by
  simp [yardNamed, yardsJoined_of_none h]

/-- With no yard joined the staged image is installed on this device (R356, R729). -/
theorem installStaged_of_none {s : State} (path : AdminPath) (sideband : Bool) (key : Nat) (h : s.kk.status.joined = 0) :
    installStaged path sideband key s
      = installManifest path sideband (Cells.reads s.manifest.staging 0 s.manifest.staged) s := by
  simp only [installStaged, yardNamed_of_none _ h]

theorem exec_manifestInstall_of_fetched {s : State} {t : Nat} {e : Entry} (h : fetchedEntry t true 0xC4 s = some e) :
    exec (.manifestInstall t) s
      = .next (installStaged (.host t) false t (onEntry t (fun e => { e with state := .overlap }) s)) := by
  show execManifestInstall t s = _
  rw [execManifestInstall, runEntry_of_fetched _ h]

/-! ### NVMe-MI in band (R348) -/

section
variable {s : State} {t : Nat} {e : Entry}

/-- In band a Configuration Set acts on the path that follows those of the sideband ports. -/
theorem exec_nvmeMiSend_configurationSet (d : Bytes) (h : fetchedEntry t true 0x1D s = some e)
    (ho : e.sqe.cdw11.toNat % 256 = 4) : exec (.nvmeMiSend t d) s
      = .next (finishEntry t 0 (miConfigSet 2 (e.sqe.cdw12.toNat % 256) e.sqe.cdw13.toNat s).1
          (miConfigSet 2 (e.sqe.cdw12.toNat % 256) e.sqe.cdw13.toNat s).2) := by
  show execNvmeMiSend t d s = _
  rw [execNvmeMiSend, runEntry_of_fetched _ h, ho]
  rfl

/-- No other operation is sent in band (log entry 49). -/
theorem exec_nvmeMiSend_of_other (d : Bytes) (h : fetchedEntry t true 0x1D s = some e)
    (ho : e.sqe.cdw11.toNat % 256 ≠ 4) : exec (.nvmeMiSend t d) s = .next (finishEntry t 0 Mi.invalidOpcode s) := by
  show execNvmeMiSend t d s = _
  rw [execNvmeMiSend, runEntry_of_fetched _ h]
  split
  case h_1 is4 => exact absurd is4 ho
  case h_2 => rfl

theorem exec_nvmeMiReceive_configurationGet (h : fetchedEntry t true 0x1E s = some e) (ho : e.sqe.cdw11.toNat % 256 = 3) :
    exec (.nvmeMiReceive t) s = .next (miAnswer t e (miConfigGet s 2 (e.sqe.cdw12.toNat % 256)).1
      (miConfigGet s 2 (e.sqe.cdw12.toNat % 256)).2 s) := by
  show execNvmeMiReceive t s = _
  rw [execNvmeMiReceive, runEntry_of_fetched _ h, ho]
  rfl

theorem exec_nvmeMiReceive_subsystemHealth (h : fetchedEntry t true 0x1E s = some e) (ho : e.sqe.cdw11.toNat % 256 = 1) :
    exec (.nvmeMiReceive t) s
      = .next (miAnswer t e 0 (subsystemHealth s 2) (clearComposite (e.sqe.cdw13.getLsbD 31) 2 s)) := by
  show execNvmeMiReceive t s = _
  rw [execNvmeMiReceive, runEntry_of_fetched _ h, ho]
  rfl

end

/-- Settles O20: a transfer by where its piece ends, an install by no yard being joined, an in-band operation by its opcode. The
statuses, opcodes and configuration identifiers of NVMe-MI are presumed (log entry 49), and the order of an install's checks,
with the routing after them, is the model's choice (log entry 52). -/
theorem manifestAndInBandManagement : Obligations.ManifestAndInBandManagement := by
  unfold Obligations.ManifestAndInBandManagement
  refine ⟨?within, ?beyond, ?install, ?frequency, fun s t e d => exec_nvmeMiSend_of_other d, ?get, ?health⟩
  case within =>
    intro s t e d h hl free
    rw [exec_manifestTransfer_of_fetched d h, stageManifest_of_within d hl free]
  case beyond =>
    intro s t e d h hl
    rw [exec_manifestTransfer_of_fetched d h, stageManifest_of_beyond s d hl]
  case install =>
    intro s t e h hj
    rw [exec_manifestInstall_of_fetched h, installStaged_of_none _ _ _ (by rw [onEntry_kk, hj]), onEntry_manifest]
  case frequency =>
    intro s t e d h ho hi h1 h3
    rw [exec_nvmeMiSend_configurationSet d h ho, hi, miConfigSet_frequency s h1 h3]
  case get =>
    intro s t e h ho hi
    rw [exec_nvmeMiReceive_configurationGet h ho, hi]
    rfl
  case health =>
    intro s t e h ho keeps
    rw [exec_nvmeMiReceive_subsystemHealth h ho, keeps]
    rfl

end Sys2Proof.Machine
end

section
/-!
PROOFS. The endpoint's links and configuration, Bus Master Enable, D3hot and Function Level Reset.
-/

namespace Sys2Proof.Machine

/-! ### Links and configuration (R257 to R260, R276, R283 to R286, R299) -/

theorem exec_pcieLinkUp_of_trained {s : State} {p w v : Nat} (hm : mayTrain s p = true)
    (hl : (s.portStatus p).link_up = false) (hw : w ∈ trainedWidths s) (h1 : 1 ≤ v) (h6 : v < 6) :
    exec (.pcieLinkUp p w v false) s = .next (onPortStatus p (fun x => { x with
      link_up := true, width := BitVec.ofNat 6 w, rate := BitVec.ofNat 4 v, flit := false }) s) :=
  if_pos (by simp [hm, hl, hw, h1, Nat.le_of_lt h6, Nat.ne_of_lt h6])

theorem configured_of_idle {s : State} {p : Nat} (f : State → State) (hr : s.reachable p = true)
    (hf : (s.port p).flr = 0) : configured p f s = f s := by
  simp [configured, hr, hf]

/-- A Function Level Reset that runs answers every configuration request with Retry (R285). -/
theorem configured_of_reset {s : State} {p : Nat} (f : State → State) (hr : s.reachable p = true)
    (hf : (s.port p).flr ≠ 0) : configured p f s = say (.configRetry p) s := by
  simp [configured, hr, hf]

theorem refreshTagMode_nvme (n : Nat) (s : State) : (refreshTagMode n s).nvme = s.nvme :=
  ite_shows (f := State.nvme) (onPortStatus_nvme ..) rfl

theorem quarantine_nvme (n g : Nat) (s : State) : (quarantine n g s).nvme = s.nvme := by
  rw [quarantine, arm_nvme, onPort_nvme, dropRead, refreshTagMode_nvme, disarm_nvme]
  exact onPort_nvme ..

/-- The quarantine of every tag leaves the controllers as they are. -/
theorem quarantineAll_ctrl (n c : Nat) (s : State) : (quarantineAll n s).ctrl c = s.ctrl c := by
  have kept : (quarantineAll n s).nvme = s.nvme :=
    (onPort_nvme ..).trans (each_keeps (f := State.nvme) (quarantine_nvme n) _ s)
  simp only [State.ctrl, kept]

/-- A function whose Bus Master Enable is clear, with no read outstanding and its tags quarantined (R281, R283). -/
def requestsStopped (p : Nat) (s : State) : State :=
  quarantineAll p (onPortStatus p (fun x => { x with bme := false }) s)

theorem requestsStopped_ctrl (p c : Nat) (s : State) : (requestsStopped p s).ctrl c = s.ctrl c := by
  rw [requestsStopped, quarantineAll_ctrl, State.ctrl, onPortStatus_nvme]
  rfl

/-- A port that is reached is one of those that exist, on the device that faces the host. -/
theorem port_of_reachable {s : State} {p : Nat} (h : s.reachable p = true) :
    (p = 0 ∨ p = 1 ∧ s.ep.dual = true) ∧ s.yard = false := by
  simp only [State.reachable, Bool.and_eq_true, Bool.not_eq_true'] at h
  obtain ⟨⟨⟨mem, -⟩, yard⟩, -⟩ := h
  refine ⟨?_, yard⟩
  unfold State.ctrls at mem
  split at mem
  case isTrue dual => simpa [dual] using mem
  case isFalse => exact .inl (by simpa using mem)

/-- A Function Level Reset of a port that is reached is a source of level L2, which is recorded (R178, R183, R285). -/
theorem assertSource_of_flr {s : State} {p : Nat} (h : s.reachable p = true) :
    assertSource (0xC + p) s = sourceNoted (0xC + p) (takeStamp s).2 := by
  obtain ⟨port, yard⟩ := port_of_reachable h
  have level : levelOf s (0xC + p) = 2 := by
    obtain rfl | ⟨rfl, dual⟩ := port
    · simp [levelOf, yard]
    · simp [levelOf, yard, dual]
  simp only [assertSource, level]
  rfl

section

variable {s : State} {p : Nat} (hr : s.reachable p = true) (hf : (s.port p).flr = 0)
include hr hf

theorem exec_busMasterEnableClear_of_set (hb : (s.portStatus p).bme = true) :
    exec (.busMasterEnableClear p) s
      = .next (if (s.ctrl p).en then stopController p (requestsStopped p s) else requestsStopped p s) := by
  show execBusMasterEnableClear p s = _
  rw [execBusMasterEnableClear, configured_of_idle _ hr hf, if_pos hb, ← requestsStopped_ctrl p p s]
  rfl

theorem exec_initiateFlr_of_idle (hs : s.reset_ctl.sequence = none) :
    exec (.initiateFlr p) s = .next (afterEnded (endCommands p (quarantineAll p
      (onPort p (fun x => { x with flr := 4 }) (assertSource (0xC + p) s))))) := by
  have sequence : (assertSource (0xC + p) s).reset_ctl.sequence = none := by
    rw [assertSource_of_flr hr]
    exact (sourceNoted_takeStamp_keeps (f := (·.reset_ctl.sequence)) (fun _ => rfl) (0xC + p) s).trans hs
  show execInitiateFlr p s = _
  rw [execInitiateFlr, configured_of_idle _ hr hf]
  exact congrArg _ (if_neg (by simp [sequence]))

theorem exec_d3hotEntry_of_disabled (he : (s.ctrl p).en = false) :
    exec (.d3hotEntry p) s = .next (onPortStatus p (fun x => { x with d3hot := true }) s) := by
  show execD3hotEntry p s = _
  rw [execD3hotEntry, configured_of_idle _ hr hf]
  exact congrArg _ (if_neg (by simp [he]))

theorem exec_configWrite_of_idle (f : ConfigField) : exec (.configWrite p f) s = .next (writeConfig p f s) :=
  congrArg _ (configured_of_idle _ hr hf)

end

theorem writeConfig_mps {b : Nat} (p : Nat) (s : State) (hb : b = 128 ∨ b = 256 ∨ b = 512) :
    writeConfig p (.mps b) s = onPort p (fun x => { x with mps := b }) s :=
  if_pos (by simpa using hb)

/-- Settles O21: each command by its condition. That INITIATE_FLR takes steps 1 to 4 and FLR_COMPLETE steps 5 and 6 is the
model's choice, and the fields that a Function Level Reset clears are presumed (log entries 58 and 59). -/
theorem linksAndConfigurationTakeEffect : Obligations.LinksAndConfigurationTakeEffect := by
  unfold Obligations.LinksAndConfigurationTakeEffect
  intro s p
  refine ⟨fun w v => exec_pcieLinkUp_of_trained, ?reset, ?idle, ?retry, ?complete⟩
  case reset => exact fun h => ⟨if_pos h, if_pos h⟩
  case idle =>
    intro hr hf
    refine ⟨congrArg _ (configured_of_idle _ hr hf), ?quiet, ?busy, exec_initiateFlr_of_idle hr hf,
      exec_d3hotEntry_of_disabled hr hf, ?mps, fun b => exec_configWrite_of_idle hr hf (.memSpace b)⟩
    case quiet =>
      intro hb he
      rw [exec_busMasterEnableClear_of_set hr hf hb, if_neg (by simp [he])]
      rfl
    case busy =>
      intro hb he
      rw [exec_busMasterEnableClear_of_set hr hf hb, if_pos he]
      rfl
    case mps =>
      intro b hb
      rw [exec_configWrite_of_idle hr hf, writeConfig_mps p s hb]
  case retry =>
    intro hr hf f
    have answer (g : State → State) : (.next (configured p g s) : Host.Outcome State Fault Refusal)
        = .next (say (.configRetry p) s) :=
      congrArg _ (configured_of_reset g hr hf)
    exact ⟨answer _, answer _, answer _, answer _, answer _⟩
  case complete => exact fun hf => if_neg hf

end Sys2Proof.Machine
end

section
/-!
PROOFS. Memory requests: BAR0, the windows of the controller memory buffer, and the MSI-X table.
-/

namespace Sys2Proof.Machine

/-! ### CMB windows (R287) -/

/-- The window of the slot maps the offset for the port and the direction. -/
def cmbMapped (s : State) (p o : Nat) (w : Bool) : Bool :=
  s.pcie.cfg.cmb_enable && decide (o < 2 ^ 25) && (s.window (o / 2 ^ 21)).enable && ((s.window (o / 2 ^ 21)).port == (p == 1))
    && decide (o % 2 ^ 21 < (s.window (o / 2 ^ 21)).len.toNat * 65536)
    && (if w then (s.window (o / 2 ^ 21)).host_write else (s.window (o / 2 ^ 21)).host_read)

theorem cmbResolve_eq (s : State) (p o : Nat) (w : Bool) : cmbResolve s p o w
    = if cmbMapped s p o w then some ((s.window (o / 2 ^ 21)).base.toNat * 65536 + o % 2 ^ 21) else none := rfl

theorem cmbMapped_iff {s : State} {p o : Nat} {w : Bool} : cmbMapped s p o w = true ↔
    s.pcie.cfg.cmb_enable = true ∧ o < 2 ^ 25 ∧ (s.window (o / 2 ^ 21)).enable = true ∧
      ((s.window (o / 2 ^ 21)).port = true ↔ p = 1) ∧ o % 2 ^ 21 < (s.window (o / 2 ^ 21)).len.toNat * 65536 ∧
      (if w then (s.window (o / 2 ^ 21)).host_write = true else (s.window (o / 2 ^ 21)).host_read = true) := by
  have port : ((s.window (o / 2 ^ 21)).port == (p == 1)) = true ↔ ((s.window (o / 2 ^ 21)).port = true ↔ p = 1) := by
    rw [beq_iff_eq, Bool.eq_iff_iff, beq_iff_eq]
  have direction : (if w then (s.window (o / 2 ^ 21)).host_write else (s.window (o / 2 ^ 21)).host_read) = true ↔
      if w then (s.window (o / 2 ^ 21)).host_write = true else (s.window (o / 2 ^ 21)).host_read = true := by
    cases w <;> rfl
  simp only [cmbMapped, Bool.and_eq_true, decide_eq_true_eq, port, direction, and_assoc]

/-- Settles O23: the conditions of the table are the test that the resolution makes. -/
theorem cmbAccessResolution : Obligations.CmbAccessResolution := by
  unfold Obligations.CmbAccessResolution
  intro s p o w
  rw [cmbResolve_eq, ← cmbMapped_iff]
  exact ⟨fun h => if_pos h, fun h => if_neg h⟩

/-! ### Memory requests (R267, R271, R287, R294, R297, R672) -/

theorem memoryRead_of_closed {s : State} {n : Nat} (f : State → State) (hr : s.reachable n = true)
    (ho : memoryOpen s n = false) :
    memoryRead n f s = uncorrectable n "Unsupported Request" (say (.readData n 1 []) s) := by
  simp [memoryRead, hr, ho, refuseRead]

theorem memoryWrite_of_closed {s : State} {n : Nat} (f : State → State) (hr : s.reachable n = true)
    (ho : memoryOpen s n = false) (hf : (s.port n).flr < 2) :
    memoryWrite n f s = uncorrectable n "Unsupported Request" s := by
  rw [memoryWrite, if_neg (by rw [hr]; decide), if_neg (Bool.eq_false_iff.mp ho), if_neg (Nat.not_le.mpr hf), refuseWrite]

/-- The version register reads 2.0, little-endian (R267). -/
theorem nvmeBytes_version (s : State) (c : Nat) : nvmeBytes s c 8 4 = [0x00, 0x00, 0x02, 0x00] := by
  have version : nvmeWord s c 8 = 0x00020000 := rfl
  have bytes : leBytes 4 0x00020000 = [0x00, 0x00, 0x02, 0x00] := by decide
  simp [nvmeBytes, List.range_succ, version, bytes]

theorem cmbRequest_of_unfenced {s : State} {k : Nat} (r : CmbRequest) (h : s.ep.fences.has k = false) :
    cmbRequest k r s = serveWaiting k [r] s :=
  if_neg (Bool.eq_false_iff.mp h)

/-- The data word of a vector is written, and what it held back goes out where it may (R297). -/
theorem msixWrite_data {s : State} {n v : Nat} (d : Nat) (hv : v < s.vectors n) :
    msixWrite n (16 * v + 8) d s = sendPending n (onPort n (fun x => { x with
      msix_table := x.msix_table.put v { (s.port n).msix_table.look {} v with data := BitVec.ofNat 32 d } }) s) := by
  have index : (16 * v + 8) / 16 = v := by omega
  have word : (16 * v + 8) % 16 = 8 := by omega
  simp only [msixWrite, index, word, hv, if_true]

section

variable {s : State} {p : Nat} (hr : s.reachable p = true) (ho : memoryOpen s p = true)
include hr ho

theorem exec_bar0Access_version :
    exec (.bar0Access p 8 4 none) s = .next (say (.readData p 0 [0x00, 0x00, 0x02, 0x00]) s) := by
  show execBar0Access p 8 4 none s = _
  rw [execBar0Access, memoryRead_of_open _ hr ho, ← nvmeBytes_version s p]
  rfl

theorem exec_bar0Access_aqa (v : Nat) :
    exec (.bar0Access p 0x24 4 (some v)) s = .next (onCtrl p (fun k => { k with aqa := v % 2 ^ 32 }) s) :=
  congrArg Host.Outcome.next (memoryWrite_of_open _ hr ho)

theorem exec_cmbRead_of_unfenced {o : Nat} (n : Nat) (hf : s.ep.fences.has (o / 2 ^ 21) = false) :
    exec (.cmbRead p o n) s = .next (serveRead p o n s) := by
  show execCmbRead p o n s = _
  rw [execCmbRead, memoryRead_of_open _ hr ho, cmbRequest_of_unfenced _ hf]
  rfl

theorem exec_cmbWrite_of_unfenced {o : Nat} (b : Bytes) (l : List Bool) (hf : s.ep.fences.has (o / 2 ^ 21) = false) :
    exec (.cmbWrite p o b l) s = .next (serveWrite p o b l s) := by
  show execCmbWrite p o b l s = _
  rw [execCmbWrite, memoryWrite_of_open _ hr ho, cmbRequest_of_unfenced _ hf]
  rfl

theorem exec_msixTableAccess_data {v : Nat} (d : Nat) (hv : v < s.vectors p) :
    exec (.msixTableAccess p (16 * v + 8) 4 (some d)) s = .next (sendPending p (onPort p (fun x => { x with
      msix_table := x.msix_table.put v { (s.port p).msix_table.look {} v with data := BitVec.ofNat 32 (d % 2 ^ 32) } }) s)) := by
  show execMsixTableAccess p (16 * v + 8) 4 (some d) s = _
  rw [execMsixTableAccess, memoryWrite_of_open _ hr ho, if_pos ⟨rfl, by omega⟩, msixWrite_data _ hv]

end

theorem serveRead_of_mapped {s : State} {p o a : Nat} (n : Nat) (h : cmbResolve s p o false = some a) :
    serveRead p o n s = say (.readData p (if cmbBad s a n then 3 else 0) (Cells.reads s.ep.cmb a n)) s := by
  simp only [serveRead, h]

theorem serveRead_of_unmapped {s : State} {p o : Nat} (n : Nat) (h : cmbResolve s p o false = none) :
    serveRead p o n s = uncorrectable p "Unsupported Request" (say (.readData p 1 []) s) := by
  simp only [serveRead, h]
  rfl

theorem serveWrite_of_mapped {s : State} {p o a : Nat} (b : Bytes) (l : List Bool) (h : cmbResolve s p o true = some a) :
    serveWrite p o b l s = if partialDw (l.length / 4 + 1) l then
      uncorrectable p "Unsupported Request"
        { s with mem.narrow.cmb_partial := satAdd s.mem.narrow.cmb_partial 1 }
    else writeEnabled a b l s := by
  simp only [serveWrite, h]
  rfl

/-- Settles O22: each request by what it reaches where the function takes it, and by its direction where it does not. That a
function in D3hot or in its reset takes none is presumed (log entry 59). -/
theorem memoryRequestsAreServed : Obligations.MemoryRequestsAreServed := by
  unfold Obligations.MemoryRequestsAreServed
  intro s p hr
  refine ⟨fun ho => ?served, fun ho => ?refused⟩
  case served =>
    refine ⟨exec_bar0Access_version hr ho, exec_bar0Access_aqa hr ho, ?mapped, ?unmapped, ?whole, ?part, ?vector⟩
    case mapped =>
      intro o n a hf ha
      rw [exec_cmbRead_of_unfenced hr ho n hf, serveRead_of_mapped n ha]
    case unmapped =>
      intro o n hf ha
      rw [exec_cmbRead_of_unfenced hr ho n hf, serveRead_of_unmapped n ha]
    case whole =>
      intro o b l a hf ha hl
      rw [exec_cmbWrite_of_unfenced hr ho b l hf, serveWrite_of_mapped b l ha, if_neg (Bool.eq_false_iff.mp hl)]
    case part =>
      intro o b l a hf ha hl
      rw [exec_cmbWrite_of_unfenced hr ho b l hf, serveWrite_of_mapped b l ha, if_pos hl]
    case vector =>
      rintro v k e hv rfl
      exact exec_msixTableAccess_data hr ho k hv
  case refused =>
    have read (f : State → State) : (.next (memoryRead p f s) : Host.Outcome State Fault Refusal)
        = .next (uncorrectable p "Unsupported Request" (say (.readData p 1 []) s)) :=
      congrArg _ (memoryRead_of_closed f hr ho)
    exact ⟨fun o n => ⟨read _, read _, read _⟩, fun hf o b l => congrArg _ (memoryWrite_of_closed _ hr ho hf)⟩

end Sys2Proof.Machine
end

section
/-!
PROOFS. Completions of device reads, and the errors that a port reports.
-/

namespace Sys2Proof.Machine

/-! ### Completions of device reads (R278 to R282) -/

theorem readArrived_of_dropped_part {r : ReadRequest} {b : Bytes} (p g : Nat) (s : State) (hp : r.purpose = .dropped)
    (hb : b.length < r.remaining) :
    readArrived p g r b s = onPort p (fun x => { x with
      tags := x.tags.put g { r with position := r.position + b.length, remaining := r.remaining - b.length } }) s := by
  simp only [readArrived, hp]
  exact if_neg (Nat.ne_of_gt hb)

section

variable {s : State} {p g : Nat} (hr : s.reachable p = true)
include hr

theorem exec_readCompletionReceived_of_data {r : ReadRequest} {b : Bytes} (ht : (s.port p).tags.find g = some r)
    (h0 : 0 < b.length) (hb : b.length ≤ r.remaining) :
    exec (.readCompletionReceived p g .success b) s = .next (readArrived p g r b s) := by
  show execReadCompletionReceived p g .success b s = _
  simp only [execReadCompletionReceived, hr, ht, Bool.not_true, Bool.false_eq_true, if_false]
  exact if_neg (by omega)

theorem exec_readCompletionReceived_of_poisoned {r : ReadRequest} (b : Bytes) (ht : (s.port p).tags.find g = some r) :
    exec (.readCompletionReceived p g .poisoned b) s
      = .next (failRead r (uncorrectable p "Poisoned TLP Received" (dropRead p g s))) := by
  show execReadCompletionReceived p g .poisoned b s = _
  simp only [execReadCompletionReceived, hr, ht]
  rfl

theorem exec_readCompletionReceived_of_unexpected (o : CplOutcome) (b : Bytes) (ht : (s.port p).tags.find g = none)
    (hq : (s.port p).quarantined.find g = none) :
    exec (.readCompletionReceived p g o b) s = .next (uncorrectable p "Unexpected Completion" s) := by
  show execReadCompletionReceived p g o b s = _
  simp only [execReadCompletionReceived, hr, ht, hq]
  rfl

end

theorem exec_completionTimeout_of_due {s : State} {p g : Nat} {r : ReadRequest}
    (hd : s.due .tagTimeout (tagIdx p g) = true) (ht : (s.port p).tags.find g = some r)
    (hc : (s.port p).cto_disable = false) :
    exec (.completionTimeout p g) s
      = .next (failRead r (quarantine p g (uncorrectable p "Completion Timeout" s))) := by
  show execCompletionTimeout p g s = _
  simp only [execCompletionTimeout, hd, ht, hc]
  rfl

/-! ### Errors of a port (R53, R298) -/

theorem setCfs_ctrl (c : Nat) (s : State) : ((setCfs c s).ctrl c).cfs = true ∧ ((setCfs c s).ctrl c).fetch_stopped = true := by
  rw [setCfs, onCtrl_self]
  exact ⟨rfl, rfl⟩

theorem setCfs_pcie (c : Nat) (s : State) : (setCfs c s).pcie = s.pcie := by
  rw [setCfs, onCtrl_pcie]
  exact ite_shows (f := State.pcie) rfl (onCtrl_pcie ..)

theorem uncorrectable_count (n : Nat) (aer : String) (s : State) :
    (uncorrectable n aer s).pcie.errCount.uncorrectable = satAdd s.pcie.errCount.uncorrectable 1 :=
  (raise_recorded ..).keeps (f := (·.pcie.errCount.uncorrectable)) fun _ => rfl

/-- Settles O26: a completion by what its tag holds, each error by the state of the link, each timer by its deadline. -/
theorem deviceReadsAndPortErrors : Obligations.DeviceReadsAndPortErrors := by
  unfold Obligations.DeviceReadsAndPortErrors
  intro s p
  refine ⟨fun hr => ?received, fun hl => ?link, fun g r => exec_completionTimeout_of_due, fun g hd => if_pos hd⟩
  case received =>
    refine ⟨?part, fun g => exec_readCompletionReceived_of_unexpected hr,
      fun g r => exec_readCompletionReceived_of_poisoned hr, fun n b hn hb => if_pos ⟨hr, hn, hb⟩⟩
    intro g r b ht h0 hb hp
    rw [exec_readCompletionReceived_of_data hr ht h0 (Nat.le_of_lt hb), readArrived_of_dropped_part p g s hp hb]
  case link =>
    refine ⟨if_pos hl, fun k => if_pos hl, _, if_pos hl, ?_⟩
    obtain ⟨cfs, stopped⟩ := setCfs_ctrl p (uncorrectable p "Uncorrectable Internal Error" s)
    exact ⟨cfs, stopped, by rw [setCfs_pcie, uncorrectable_count]⟩

end Sys2Proof.Machine
end

section
/-!
PROOFS. Commands: the fetch of an entry, the admission of a slice, a piece held, completion and the coalescing timer.
-/

namespace Sys2Proof.Machine

/-! ### Fetch (R316, R319, R324) -/

theorem onSq_find_self {c i : Nat} {q : SubQueue} {s : State} (f : SubQueue → SubQueue)
    (h : (s.ctrl c).sqs.find i = some q) : ((onSq c i f s).ctrl c).sqs.find i = some (f q) := by
  simp only [onSq, onCtrl_self, h, Tab.find_put, if_true]

/-- Arbitration notes its turns, and leaves every queue as it is. -/
theorem noteTurn_sqs (c i : Nat) (s : State) : ((noteTurn c i s).ctrl c).sqs = (s.ctrl c).sqs := by
  unfold noteTurn
  split
  · rfl
  · split
    · rw [onCtrl_self]
      rfl
    · rfl

theorem noteTurn_rcl (c i : Nat) (s : State) : (noteTurn c i s).rcl = s.rcl := by
  unfold noteTurn
  split
  · rfl
  · split
    · exact onCtrl_rcl ..
    · rfl

theorem undelivered_sqs (c : Nat) (s : State) : (s.undelivered.ctrl c).sqs = (s.ctrl c).sqs := by
  unfold State.ctrl
  split <;> rfl

/-- The queue is past the entry fetched, and past a doorbell that was rung for no later one. -/
def headPassed (c i : Nat) (q : SubQueue) (s : State) : State :=
  onSq c i (fun x => { x with
    head := (q.head + 1) % q.size
    doorbells := match x.doorbells with | p :: rest => if p.1 = (q.head + 1) % q.size then rest else x.doorbells | [] => [] })
    (noteTurn c i s)

/-- A fetch takes its stamp once its queue is past the entry, and starts the idle timer (R319, R468). -/
theorem takeEntry_eq (c i : Nat) (q : SubQueue) (e : Sqe) (s : State) : ∃ n x t,
    takeEntry c i q e s = arm .idle 0 (takeStamp (headPassed c i q s)).2.rcl.idleDelay.toNat t ∧
      t.nvme = { (takeStamp (headPassed c i q s)).2.nvme with
        tracker := (takeStamp (headPassed c i q s)).2.nvme.tracker.put n x } ∧
      t.rcl.status.idle = false ∧ x.ctrl = c ∧ x.sqid = i ∧ x.sqe = e ∧ x.state = .fetched ∧ x.slices = [] :=
  ⟨_, _, _, rfl, rfl, rfl, rfl, rfl, rfl, rfl, rfl⟩

theorem takeStamp_headPassed_sqs {c i : Nat} {q : SubQueue} {s : State} (h : (s.ctrl c).sqs.find i = some q) :
    (((takeStamp (headPassed c i q s)).2.ctrl c).sqs.find i).map SubQueue.head = some ((q.head + 1) % q.size) := by
  rw [(takeStamp_delivered _).keeps (f := fun s => (s.ctrl c).sqs) (undelivered_sqs c), headPassed,
    onSq_find_self _ ((congrArg (Tab.find · i) (noteTurn_sqs c i s)).trans h)]
  rfl

theorem takeStamp_headPassed_rcl (c i : Nat) (q : SubQueue) (s : State) :
    (takeStamp (headPassed c i q s)).2.rcl = s.rcl := by
  rw [(takeStamp_delivered _).keeps (f := State.rcl) fun _ => rfl, headPassed, onSq, onCtrl_rcl, noteTurn_rcl]

section

variable {s : State} {c i : Nat} {q : SubQueue}

theorem exec_sqEntryFetch_of_failed (hq : (s.ctrl c).sqs.find i = some q) (hf : mayFetch s c i = true)
    (ht : myTurn s c i = true) : exec (.sqEntryFetch c i none) s = .next (setCfs c s) := by
  show execSqEntryFetch c i none s = _
  simp [execSqEntryFetch, hq, hf, ht]

theorem exec_sqEntryFetch_of_fetched (e : Sqe) (hq : (s.ctrl c).sqs.find i = some q) (hf : mayFetch s c i = true)
    (ht : myTurn s c i = true) : exec (.sqEntryFetch c i (some e)) s = .next (takeEntry c i q e s) := by
  show execSqEntryFetch c i (some e) s = _
  simp [execSqEntryFetch, hq, hf, ht]

end

/-! ### Admission (R326, R327) -/

/-- The command of entry `t` has a next slice that meets R326. -/
def nextMayAdmit (s : State) (t : Nat) : Bool := match s.nvme.tracker.find t with | some e => mayAdmit s e | none => false

theorem hostAdmit_of_waiting {s : State} {n i : Nat} {e : Entry} {m : Namespace} {x : Slice}
    (he : s.nvme.tracker.find n = some e) (hm : commandSpace s e = some m) (hx : nextSlice e = some (i, x)) :
    hostAdmit n s =
      if !s.serving || !e.waits || !mayAdmit s e || !granted s n e.admitted.stamp.toNat (nextMayAdmit s) then s
      else if e.unstarted && writeLocked s e.sqe.ns e.sqe.slba e.sqe.blocks m.lbaf then failEntry n Status.accessDenied 0 s
      else if onLostYard s e.sqe.ns [x.span.1] then failEntry n Status.notReady 0 s
      else if e.unstarted then enterOverlap n (admitNext n i x m e { s with nvme.ceiling := none })
      else admitNext n i x m e { s with nvme.ceiling := none } := by
  simp only [hostAdmit, he, hm, hx]
  rfl

theorem exec_sliceAdmit_of_host {s : State} (n : Nat) (hy : s.yard = false) :
    exec (.sliceAdmit n) s = .next (hostAdmit n s) :=
  congrArg Host.Outcome.next (if_neg (Bool.eq_false_iff.mp hy))

/-! ### Pieces held (R328, R722) -/

theorem exec_pieceHeld_of_host {s : State} (n i j : Nat) (hy : s.yard = false) :
    exec (.pieceHeld n i j) s = .next (hostHeld n i j s) :=
  congrArg Host.Outcome.next (if_neg (Bool.eq_false_iff.mp hy))

theorem exec_pieceHeld_of_yard {s : State} (g i j : Nat) (hy : s.yard = true) :
    exec (.pieceHeld g i j) s = .next (yardHeld g j s) :=
  congrArg Host.Outcome.next (if_pos hy)

/-- The units of a piece of a write, as they are stored. -/
def pieceFrames (s : State) (m : Namespace) (e : Entry) (p : Piece) : List (Nat × Frame) :=
  ((List.range p.units).map fun k => p.unit + k).map fun u => (u, writtenFrame s m e u)

/-- What a write with no unit it could not merge needs for a piece to become held. -/
theorem hostHeld_of_whole {s : State} {n i j : Nat} {e : Entry} {m : Namespace} {x : Slice} {p : Piece}
    (he : s.nvme.tracker.find n = some e) (hm : commandSpace s e = some m) (hx : e.slices[i]? = some x)
    (hp : x.pieces[j]? = some p) (hb : e.broken = none) :
    hostHeld n i j s =
      if !s.serving || e.state == .done || !x.admitted || x.position != s.position || p.held
          || !unitsHere s n m e (p.unit, p.units) || blocked s m e (p.unit, p.units) || !haltPermits s e
          || !lowerHeld s e i j then s
      else settleMedia (wakeAll (writeEnd n (markHeld n i j (onEntry n (fun e => { e with effect := true })
        (holdUnits e.sqe.ns x.desc e.admitted.stamp.toNat (pieceFrames s m e p) (countXts p.units s)))))) := by
  simp only [hostHeld, he, hm, hx, hp, hb, Bool.or_false]
  rfl

/-! ### Completion and coalescing (R273, R354) -/

theorem exec_commandComplete_of_postable {s : State} {n : Nat} {e : Entry} {q : SubQueue} {c : CplQueue}
    (he : s.nvme.tracker.find n = some e) (hp : postable s e = some (q, c)) :
    exec (.commandComplete n) s = .next (afterCommand (post n e q c s)) := by
  show execCommandComplete n s = _
  simp only [execCommandComplete, he, hp]

theorem exec_commandComplete_of_waiting {s : State} {n : Nat} {e : Entry} (he : s.nvme.tracker.find n = some e)
    (hp : postable s e = none) : exec (.commandComplete n) s = .next s := by
  show execCommandComplete n s = _
  simp only [execCommandComplete, he, hp]

theorem exec_coalescingTimer_of_due {s : State} {c i : Nat} {q : CplQueue} (hd : s.due .coalesce (coalesceIdx c i) = true)
    (hq : (s.ctrl c).cqs.find i = some q) :
    exec (.coalescingTimer c i) s = .next (raiseMsix c q.vector (onCq c i (fun q => { q with uncoalesced := 0 })
      (disarm .coalesce (coalesceIdx c i) s))) := by
  have kept : ((disarm .coalesce (coalesceIdx c i) s).ctrl c).cqs.find i = some q := hq
  show execCoalescingTimer c i s = _
  simp only [execCoalescingTimer, hd, if_true, kept]

/-- Settles O28: each command by what it finds of its queue or its in-flight entry, and the conditions it meets there. -/
theorem commandsAreFetchedAdmittedAndCompleted : Obligations.CommandsAreFetchedAdmittedAndCompleted := by
  unfold Obligations.CommandsAreFetchedAdmittedAndCompleted
  intro s
  refine ⟨?fetch, fun n e q c => exec_commandComplete_of_postable, fun n e => exec_commandComplete_of_waiting,
    fun c i q => exec_coalescingTimer_of_due, ?slice, ?piece, ?yard⟩
  case fetch =>
    intro c i q e hq hf ht
    obtain ⟨n, x, t, taken, nvme, idle, ctrl, sqid, sqe, state, slices⟩ := takeEntry_eq c i q e s
    have entry : t.nvme.tracker.find n = some x := by simp [nvme, Tab.find_put]
    have sqs : (t.ctrl c).sqs = ((takeStamp (headPassed c i q s)).2.ctrl c).sqs := by simp only [State.ctrl, nvme]
    refine ⟨exec_sqEntryFetch_of_failed hq hf ht, _, n, x, exec_sqEntryFetch_of_fetched e hq hf ht, ?_⟩
    rw [taken, takeStamp_headPassed_rcl]
    refine ⟨entry, ctrl, sqid, sqe, state, slices, ?_, idle, timer_arm_self ..⟩
    exact (congrArg (fun l => (Tab.find l i).map SubQueue.head) sqs).trans (takeStamp_headPassed_sqs hq)
  case slice =>
    intro n e m i x hy hs he hm hx hw ha hg hl hd
    have grant : granted s n e.admitted.stamp.toNat (nextMayAdmit s) = true := hg
    have unlocked : (e.unstarted && writeLocked s e.sqe.ns e.sqe.slba e.sqe.blocks m.lbaf) = false := by simpa using hl
    rw [exec_sliceAdmit_of_host n hy, hostAdmit_of_waiting he hm hx, if_neg (by simp [hs, hw, ha, grant]),
      if_neg (by simp [unlocked]), if_neg (by simp [hd])]
  case piece =>
    intro n e m i j x p hy hs he hm hx hp hn ha hr hf hu hb hh hl hk
    rw [exec_pieceHeld_of_host n i j hy, hostHeld_of_whole he hm hx hp hk,
      if_neg (by simp [hs, hn, ha, hr, hf, hu, hb, hh, hl])]
    rfl
  case yard =>
    intro g j y r hy hs hf hr ha hj hh hu hb hl
    refine ⟨_, ?_, rfl⟩
    rw [exec_pieceHeld_of_yard g 0 j hy]
    simp only [yardHeld, hf, hr]
    rw [if_neg (by simp only [hs, ha, hj, hh, hu, hb, hl, Bool.not_true, Bool.false_and, Bool.or_false, Bool.false_eq_true,
      not_false_eq_true])]

end Sys2Proof.Machine
end

section
/-!
PROOFS. The queues of a controller and their allocation, Abort, Asynchronous Event Request, Resume Queue and the opcodes that are
not supported.
-/

namespace Sys2Proof.Machine

/-! ### The end of a command -/

/-- The stamp that an error of a command takes changes what any delivery of stamps may (R87). -/
theorem noteDetected_delivered (t status : Nat) (s : State) : Delivered s (noteDetected t status s) := by
  unfold noteDetected
  split
  · split
    · exact (takeStamp_delivered s).trans (onEntry_recorded ..).delivered
    · exact .refl s
  · exact .refl s

theorem finishEntry_delivered (t status dw0 : Nat) (s : State) : Delivered s (finishEntry t status dw0 s) :=
  (noteDetected_delivered t status s).trans (markDone_recorded ..).delivered

theorem undelivered_granted (c : Nat) (s : State) : (s.undelivered.ctrl c).granted = (s.ctrl c).granted := by
  unfold State.ctrl
  split <;> rfl

/-- The end of a command leaves the queues granted. -/
theorem finishEntry_granted (c t status dw0 : Nat) (s : State) :
    ((finishEntry t status dw0 s).ctrl c).granted = (s.ctrl c).granted :=
  (finishEntry_delivered t status dw0 s).keeps (f := fun s => (s.ctrl c).granted) (undelivered_granted c)

theorem markDone_find_self {t : Nat} {e : Entry} {s : State} (status dw0 : Nat) (h : s.nvme.tracker.find t = some e) :
    (markDone t status dw0 s).nvme.tracker.find t = some { e with status := status, dw0 := dw0, state := .done } := by
  simp [markDone, onEntry, h, Tab.find_put]

section
variable {s : State} {n : Nat} {e : Entry}

/-! ### Creation of queues (R311 to R313) -/

theorem fixAllocation_granted (c : Nat) (s : State) : ((fixAllocation c s).ctrl c).granted = some (allocation s c) := by
  rw [fixAllocation, onCtrl_self]

theorem allocation_of_open {c : Nat} (h : (s.ctrl c).granted = none) : allocation s c = (queueLimit s, queueLimit s) := by
  rw [allocation, h, Option.getD_none]

/-- The completion queue that a create asks for (R312). -/
def createdCq (e : Entry) : CplQueue where
  size := e.sqe.cdw10.toNat / 2 ^ 16 + 1
  ien := e.sqe.cdw11.getLsbD 1
  vector := e.sqe.cdw11.toNat / 2 ^ 16
  stamped := e.sqe.cdw13.getLsbD 0
  ring := e.sqe.cdw14.toNat + 2 ^ 32 * e.sqe.cdw15.toNat

/-- The submission queue that a create asks for (R313). -/
def createdSq (e : Entry) : SubQueue where
  size := e.sqe.cdw10.toNat / 2 ^ 16 + 1
  cqid := e.sqe.cdw11.toNat / 2 ^ 16
  prio := e.sqe.cdw11.toNat / 2 % 4
  halt_attr := e.sqe.cdw13.getLsbD 0

/-- The controller has the completion queue, under an allocation that is fixed (R311). -/
def cqCreated (e : Entry) (s : State) : State :=
  onCtrl e.ctrl (fun k => { k with cqs := k.cqs.put (e.sqe.cdw10.toNat % 2 ^ 16) (createdCq e) }) (fixAllocation e.ctrl s)

/-- The controller has the submission queue, under an allocation that is fixed (R311). -/
def sqCreated (e : Entry) (s : State) : State :=
  onCtrl e.ctrl (fun k => { k with sqs := k.sqs.put (e.sqe.cdw10.toNat % 2 ^ 16) (createdSq e) }) (fixAllocation e.ctrl s)

theorem cqCreated_granted (h : (s.ctrl e.ctrl).granted = none) :
    ((cqCreated e s).ctrl e.ctrl).granted = some (queueLimit s, queueLimit s) := by
  rw [cqCreated, onCtrl_self]
  exact (fixAllocation_granted ..).trans (congrArg some (allocation_of_open h))

theorem sqCreated_granted (h : (s.ctrl e.ctrl).granted = none) :
    ((sqCreated e s).ctrl e.ctrl).granted = some (queueLimit s, queueLimit s) := by
  rw [sqCreated, onCtrl_self]
  exact (fixAllocation_granted ..).trans (congrArg some (allocation_of_open h))

theorem exec_createIoCompletionQueue_of_failed (h : fetchedEntry n true 0x05 s = some e) (hc : createCqStatus s e ≠ 0) :
    exec (.createIoCompletionQueue n) s = .next (finishEntry n (createCqStatus s e) 0 s) := by
  show execCreateIoCompletionQueue n s = _
  rw [execCreateIoCompletionQueue, runEntry_of_fetched _ h]
  exact congrArg _ (if_pos hc)

theorem exec_createIoCompletionQueue_of_passed (h : fetchedEntry n true 0x05 s = some e) (hc : createCqStatus s e = 0) :
    exec (.createIoCompletionQueue n) s = .next (finishEntry n 0 0 (cqCreated e s)) := by
  show execCreateIoCompletionQueue n s = _
  rw [execCreateIoCompletionQueue, runEntry_of_fetched _ h]
  exact congrArg _ (if_neg (not_not_intro hc))

theorem exec_createIoSubmissionQueue_of_failed (h : fetchedEntry n true 0x01 s = some e) (hc : createSqStatus s e ≠ 0) :
    exec (.createIoSubmissionQueue n) s = .next (finishEntry n (createSqStatus s e) 0 s) := by
  show execCreateIoSubmissionQueue n s = _
  rw [execCreateIoSubmissionQueue, runEntry_of_fetched _ h]
  exact congrArg _ (if_pos hc)

theorem exec_createIoSubmissionQueue_of_passed (h : fetchedEntry n true 0x01 s = some e) (hc : createSqStatus s e = 0) :
    exec (.createIoSubmissionQueue n) s = .next (finishEntry n 0 0 (sqCreated e s)) := by
  show execCreateIoSubmissionQueue n s = _
  rw [execCreateIoSubmissionQueue, runEntry_of_fetched _ h]
  exact congrArg _ (if_neg (not_not_intro hc))

/-! ### Deletion of queues (R314) -/

/-- The queue of a delete takes no more commands, and the delete waits for those it has. -/
def sqClosed (n i : Nat) (e : Entry) (s : State) : State :=
  onEntry n (fun e => { e with state := .overlap }) (onSq e.ctrl i (fun q => { q with closing := true }) s)

theorem exec_deleteIoSubmissionQueue_of_open {q : SubQueue} (h : fetchedEntry n true 0x00 s = some e)
    (h0 : e.sqe.cdw10.toNat % 2 ^ 16 ≠ 0) (hq : (s.ctrl e.ctrl).sqs.find (e.sqe.cdw10.toNat % 2 ^ 16) = some q)
    (hc : q.closing = false) : exec (.deleteIoSubmissionQueue n) s = .next (afterCommand
      (each (((sqClosed n (e.sqe.cdw10.toNat % 2 ^ 16) e s).nvme.tracker.filter fun p =>
          p.2.ctrl == e.ctrl && p.2.sqid == e.sqe.cdw10.toNat % 2 ^ 16).map Prod.fst)
        (fun t => failEntry t Status.abortedSqDeletion 0) (sqClosed n (e.sqe.cdw10.toNat % 2 ^ 16) e s))) := by
  show execDeleteIoSubmissionQueue n s = _
  rw [execDeleteIoSubmissionQueue, runEntry_of_fetched _ h]
  simp only [hq]
  exact congrArg _ (if_neg (not_or.mpr ⟨h0, Bool.eq_false_iff.mp hc⟩))

theorem exec_deleteIoCompletionQueue_of_used (h : fetchedEntry n true 0x04 s = some e) (h0 : e.sqe.cdw10.toNat % 2 ^ 16 ≠ 0)
    (hq : (s.ctrl e.ctrl).cqs.has (e.sqe.cdw10.toNat % 2 ^ 16) = true)
    (hu : (s.ctrl e.ctrl).sqs.vals.any (fun q => q.cqid == e.sqe.cdw10.toNat % 2 ^ 16) = true) :
    exec (.deleteIoCompletionQueue n) s = .next (finishEntry n Status.invalidQueueDeletion 0 s) := by
  show execDeleteIoCompletionQueue n s = _
  rw [execDeleteIoCompletionQueue, runEntry_of_fetched _ h]
  exact congrArg _ ((if_neg (not_or.mpr ⟨h0, by rw [hq]; decide⟩)).trans (if_pos hu))

theorem exec_deleteIoCompletionQueue_of_unused (h : fetchedEntry n true 0x04 s = some e) (h0 : e.sqe.cdw10.toNat % 2 ^ 16 ≠ 0)
    (hq : (s.ctrl e.ctrl).cqs.has (e.sqe.cdw10.toNat % 2 ^ 16) = true)
    (hu : (s.ctrl e.ctrl).sqs.vals.any (fun q => q.cqid == e.sqe.cdw10.toNat % 2 ^ 16) = false) :
    exec (.deleteIoCompletionQueue n) s = .next (finishEntry n 0 0
      (disarm .coalesce (coalesceIdx e.ctrl (e.sqe.cdw10.toNat % 2 ^ 16))
        (onCtrl e.ctrl (fun k => { k with cqs := k.cqs.drop (e.sqe.cdw10.toNat % 2 ^ 16) }) s))) := by
  show execDeleteIoCompletionQueue n s = _
  rw [execDeleteIoCompletionQueue, runEntry_of_fetched _ h]
  exact congrArg _ ((if_neg (not_or.mpr ⟨h0, by rw [hq]; decide⟩)).trans (if_neg (Bool.eq_false_iff.mp hu)))

/-! ### Abort (R352) -/

/-- Aborts that are outstanding on the controller of a command. -/
def abortsOf (s : State) (e : Entry) : Nat :=
  (s.nvme.tracker.filter fun p => p.2.ctrl == e.ctrl && p.2.sqid == 0 && p.2.sqe.opcode == 0x08).length

/-- An in-flight entry is the command that the Abort `n` names. -/
def namedByAbort (n : Nat) (e : Entry) (p : Nat × Entry) : Bool :=
  p.1 != n && p.2.ctrl == e.ctrl && p.2.sqid == e.sqe.cdw10.toNat % 2 ^ 16
    && p.2.sqe.cid.toNat == e.sqe.cdw10.toNat / 2 ^ 16

/-- The command that an Abort names ends, and no event is reported against it any more. -/
def aborted (n t : Nat) (e : Entry) (s : State) : State :=
  wakeAll (finishEntry n 0 0 (failEntry t Status.abortRequested 0
    (onCtrl e.ctrl (fun k => { k with aer_requests := k.aer_requests.filter fun x => x != t }) s)))

theorem exec_abortCommand_of_found {p : Nat × Entry} (h : fetchedEntry n true 0x08 s = some e) (hl : abortsOf s e ≤ 8)
    (hp : s.nvme.tracker.find? (namedByAbort n e) = some p) : exec (.abortCommand n) s =
      .next (if abortable p.2 = true then aborted n p.1 e s else finishEntry n 0 1 s) := by
  show execAbortCommand n s = _
  unfold namedByAbort at hp
  rw [execAbortCommand, runEntry_of_fetched _ h]
  refine congrArg _ ((if_neg (Nat.not_lt.mpr hl)).trans ?_)
  simp only [hp]
  rfl

theorem exec_abortCommand_of_missing (h : fetchedEntry n true 0x08 s = some e) (hl : abortsOf s e ≤ 8)
    (hp : s.nvme.tracker.find? (namedByAbort n e) = none) : exec (.abortCommand n) s = .next (finishEntry n 0 1 s) := by
  show execAbortCommand n s = _
  unfold namedByAbort at hp
  rw [execAbortCommand, runEntry_of_fetched _ h]
  refine congrArg _ ((if_neg (Nat.not_lt.mpr hl)).trans ?_)
  simp only [hp]

/-- An Abort ends with 1 in Dword 0 where no command that it names can be aborted. -/
theorem exec_abortCommand_of_unabortable (h : fetchedEntry n true 0x08 s = some e) (hl : abortsOf s e ≤ 8)
    (hp : ∀ p ∈ s.nvme.tracker, namedByAbort n e p = true → abortable p.2 = false) :
    exec (.abortCommand n) s = .next (finishEntry n 0 1 s) := by
  cases hf : s.nvme.tracker.find? (namedByAbort n e) with
  | none => exact exec_abortCommand_of_missing h hl hf
  | some p =>
    have kept := hp p (List.mem_of_find?_eq_some hf) (List.find?_some hf)
    rw [exec_abortCommand_of_found h hl hf, kept, if_neg Bool.false_ne_true]

/-! ### Asynchronous Event Request (R751, R752) -/

theorem exec_asynchronousEventRequest_of_full (h : fetchedEntry n true 0x0C s = some e)
    (hl : 8 ≤ (s.ctrl e.ctrl).aer_requests.length) :
    exec (.asynchronousEventRequest n) s = .next (finishEntry n Status.aerLimit 0 s) := by
  show execAsynchronousEventRequest n s = _
  rw [execAsynchronousEventRequest, runEntry_of_fetched _ h]
  exact congrArg _ (if_pos hl)

/-- With no event retained the request is outstanding. -/
theorem exec_asynchronousEventRequest_of_waiting (h : fetchedEntry n true 0x0C s = some e)
    (hl : (s.ctrl e.ctrl).aer_requests.length < 8) (hp : (s.ctrl e.ctrl).aer_pending = []) :
    exec (.asynchronousEventRequest n) s = .next (onEntry n (fun e => { e with state := .overlap })
      (onCtrl e.ctrl (fun k => { k with aer_requests := k.aer_requests ++ [n] }) s)) := by
  show execAsynchronousEventRequest n s = _
  rw [execAsynchronousEventRequest, runEntry_of_fetched _ h]
  refine congrArg _ ((if_neg (Nat.not_le.mpr hl)).trans ?_)
  simp only [hp, List.find?_nil]

/-! ### Resume Queue (R339 to R341) -/

section
variable {q : SubQueue} (h : fetchedEntry n true 0xC0 s = some e) (h0 : e.sqe.cdw10.toNat % 2 ^ 16 ≠ 0)
  (hq : (s.ctrl e.ctrl).sqs.find (e.sqe.cdw10.toNat % 2 ^ 16) = some q)
include h h0 hq

theorem exec_resumeQueue_of_running (hh : q.halted = false) :
    exec (.resumeQueue n) s = .next (finishEntry n Status.queueNotHalted 0 s) := by
  show execResumeQueue n s = _
  rw [execResumeQueue, runEntry_of_fetched _ h]
  simp only [hq]
  rw [if_neg h0, if_pos (by simp [hh])]

theorem exec_resumeQueue_of_read (hh : q.halted = true) (hr : q.halt_read = true) :
    exec (.resumeQueue n) s = .next (finishEntry n 0 0 (onSq e.ctrl (e.sqe.cdw10.toNat % 2 ^ 16)
      (fun q => { q with halted := false, halt_entry := none, halt_read := false }) s)) := by
  show execResumeQueue n s = _
  rw [execResumeQueue, runEntry_of_fetched _ h]
  simp only [hq]
  rw [if_neg h0, if_neg (by simp [hh]), if_neg (by simp [hr])]

/-- The halt's entry is in the error log, and the host has not read it. -/
theorem exec_resumeQueue_of_unread {k : Nat} (hh : q.halted = true) (hr : q.halt_read = false) (hk : q.halt_entry = some k)
    (hl : ((s.ctrl e.ctrl).error_log.any fun x => x.error_count == k) = true) :
    exec (.resumeQueue n) s = .next (finishEntry n Status.entryNotRead 0 s) := by
  show execResumeQueue n s = _
  rw [execResumeQueue, runEntry_of_fetched _ h]
  simp only [hq, hk]
  rw [if_neg h0, if_neg (by simp [hh]), if_pos (by simp [hr, hl])]

end

/-! ### Opcodes that are not supported (R348) -/

theorem exec_invalidCommandOpcode_of_fetched (he : s.nvme.tracker.find n = some e) (hf : e.state = .fetched)
    (hd : dispatches s e = true) (hs : s.serving = true) (hy : s.yard = false)
    (ho : (supportedOpcodes (e.sqid == 0)).contains e.sqe.opcode.toNat = false) :
    exec (.invalidCommandOpcode n) s = .next (finishEntry n Status.invalidOpcode 0 s) := by
  show execInvalidCommandOpcode n s = _
  simp only [execInvalidCommandOpcode, he]
  exact congrArg _ (if_pos (by rw [hf, hd, hs, hy, ho]; rfl))

end

/-- Settles O29: each command by its checks and by what it finds of its queue, of the command it names or of the events
retained. -/
theorem queueCommandsComplete : Obligations.QueueCommandsComplete := by
  unfold Obligations.QueueCommandsComplete
  intro s n e
  refine ⟨fun h => ⟨exec_createIoCompletionQueue_of_failed h, exec_createIoCompletionQueue_of_passed h⟩,
    fun h => ⟨exec_createIoSubmissionQueue_of_failed h, exec_createIoSubmissionQueue_of_passed h⟩,
    ?deleteSq, ?deleteCq, fun h hl => ⟨fun hp => ?unabortable, fun p hp ha => ?abort⟩,
    fun h => ⟨exec_asynchronousEventRequest_of_full h, exec_asynchronousEventRequest_of_waiting h⟩, ?resume,
    exec_invalidCommandOpcode_of_fetched⟩
  case deleteSq =>
    rintro i q h rfl h0 hq hc
    exact exec_deleteIoSubmissionQueue_of_open h h0 hq hc
  case deleteCq =>
    rintro i h rfl h0 hq
    exact ⟨exec_deleteIoCompletionQueue_of_used h h0 hq, exec_deleteIoCompletionQueue_of_unused h h0 hq⟩
  case unabortable =>
    refine exec_abortCommand_of_unabortable h hl fun p hm hn => ?_
    simp only [namedByAbort, Bool.and_eq_true, bne_iff_ne, beq_iff_eq] at hn
    obtain ⟨⟨⟨other, ctrl⟩, sqid⟩, cid⟩ := hn
    simpa [other, ctrl, sqid, cid] using hp p hm
  case abort =>
    rw [exec_abortCommand_of_found h hl hp, if_pos ha]
    rfl
  case resume =>
    rintro i q h rfl h0 hq
    exact ⟨exec_resumeQueue_of_running h h0 hq, exec_resumeQueue_of_read h h0 hq,
      fun k hh hr hk hl => exec_resumeQueue_of_unread h h0 hq hh hr hk hl⟩

end Sys2Proof.Machine
end

section
/-!
PROOFS. Features: every Set Features but Power Management, the value of Get Features, and the allocation of queues.
-/

namespace Sys2Proof.Machine

/-! ### The row of a feature (R354) -/

theorem firstStatus_single (st : Nat) : firstStatus [st] = st := by
  by_cases h : st = 0 <;> simp [firstStatus, h]

section
variable {s : State} {n fid : Nat} {e : Entry}

theorem runFeature_of_named (f : Entry → State → State) (h : fetchedEntry n true 0x09 s = some e) (hs : e.sqe.save = false)
    (hf : e.sqe.fid = fid) : runFeature n fid f s = .next (f e s) := by
  simp [runFeature, h, hs, hf]

/-- No feature is saveable. -/
theorem runFeature_of_saved {f : Entry → State → State} (h : fetchedEntry n true 0x09 s = some e) (hs : e.sqe.save = true)
    (hf : e.sqe.fid = fid) : runFeature n fid f s = .next (finishEntry n Status.notSaveable 0 s) := by
  simp [runFeature, h, hs, hf]

theorem featureDone_of_good {bad : Bool} (status dw0 : Nat) (f : State → State) (hb : bad = false) :
    featureDone n bad status dw0 f s = finishEntry n 0 dw0 (f s) :=
  if_neg (Bool.eq_false_iff.mp hb)

theorem featureDone_of_bad {bad : Bool} (status dw0 : Nat) (f : State → State) (hb : bad = true) :
    featureDone n bad status dw0 f s = finishEntry n status 0 s :=
  if_pos hb

end

/-- The queues that a command asks for, each kind at most the limit: submission and completion (R311). -/
def grantedTo (s : State) (e : Entry) : Nat × Nat :=
  (min (e.sqe.cdw11.toNat % 2 ^ 16 + 1) (queueLimit s), min (e.sqe.cdw11.toNat / 2 ^ 16 + 1) (queueLimit s))

/-- The threshold of a sensor that a command sets: over-temperature, or under-temperature (R591). -/
def thresholdSet (e : Entry) (k : Controller) : Controller :=
  if e.sqe.cdw11.toNat / 2 ^ 20 % 4 = 0 then
    { k with temp_over := k.temp_over.put (e.sqe.cdw11.toNat / 2 ^ 16 % 16) (e.sqe.cdw11.toNat % 2 ^ 16 : Nat) }
  else { k with temp_under := k.temp_under.put (e.sqe.cdw11.toNat / 2 ^ 16 % 16) (e.sqe.cdw11.toNat % 2 ^ 16 : Nat) }

theorem thresholdSet_of_over {e : Entry} (ht : e.sqe.cdw11.toNat / 2 ^ 20 % 4 = 0) : thresholdSet e = fun k => { k with
    temp_over := k.temp_over.put (e.sqe.cdw11.toNat / 2 ^ 16 % 16) (e.sqe.cdw11.toNat % 2 ^ 16 : Nat) } :=
  funext fun _ => if_pos ht

theorem thresholdSet_of_under {e : Entry} (ht : e.sqe.cdw11.toNat / 2 ^ 20 % 4 ≠ 0) : thresholdSet e = fun k => { k with
    temp_under := k.temp_under.put (e.sqe.cdw11.toNat / 2 ^ 16 % 16) (e.sqe.cdw11.toNat % 2 ^ 16 : Nat) } :=
  funext fun _ => if_neg ht

section
variable {s : State} {n : Nat} {e : Entry} (h : fetchedEntry n true 0x09 s = some e) (hs : e.sqe.save = false)
include h hs

/-! ### Number of Queues (R311) -/

section
variable (hf : e.sqe.fid = 0x07)
include hf

theorem exec_setFeaturesNumberOfQueues_of_fixed (hg : (s.ctrl e.ctrl).granted.isSome = true) :
    exec (.setFeaturesNumberOfQueues n) s = .next (finishEntry n Status.sequenceError 0 s) := by
  show execSetFeaturesNumberOfQueues n s = _
  rw [execSetFeaturesNumberOfQueues, runFeature_of_named _ h hs hf]
  exact congrArg _ (if_pos hg)

/-- 65,535 is no count that a host may ask for (log entry 81). -/
theorem exec_setFeaturesNumberOfQueues_of_excessive (hg : (s.ctrl e.ctrl).granted = none)
    (hc : e.sqe.cdw11.toNat % 2 ^ 16 = 65535 ∨ e.sqe.cdw11.toNat / 2 ^ 16 = 65535) :
    exec (.setFeaturesNumberOfQueues n) s = .next (finishEntry n Status.invalidField 0 s) := by
  show execSetFeaturesNumberOfQueues n s = _
  rw [execSetFeaturesNumberOfQueues, runFeature_of_named _ h hs hf]
  exact congrArg _ ((if_neg (by simp [hg])).trans (if_pos hc))

theorem exec_setFeaturesNumberOfQueues_of_open (hg : (s.ctrl e.ctrl).granted = none)
    (ha : e.sqe.cdw11.toNat % 2 ^ 16 ≠ 65535) (hc : e.sqe.cdw11.toNat / 2 ^ 16 ≠ 65535) :
    exec (.setFeaturesNumberOfQueues n) s = .next (finishEntry n 0 ((grantedTo s e).1 - 1 + 2 ^ 16 * ((grantedTo s e).2 - 1))
      (onCtrl e.ctrl (fun k => { k with granted := some (grantedTo s e) }) s)) := by
  show execSetFeaturesNumberOfQueues n s = _
  rw [execSetFeaturesNumberOfQueues, runFeature_of_named _ h hs hf]
  exact congrArg _ ((if_neg (by simp [hg])).trans (if_neg (not_or.mpr ⟨ha, hc⟩)))

end

/-! ### Temperature Threshold (R591) -/

section
variable (hf : e.sqe.fid = 0x04)
include hf

theorem exec_setFeaturesTemperatureThreshold_of_valid (hi : e.sqe.cdw11.toNat / 2 ^ 16 % 16 ≤ 8)
    (ht : e.sqe.cdw11.toNat / 2 ^ 20 % 4 ≤ 1) : exec (.setFeaturesTemperatureThreshold n) s
      = .next (finishEntry n 0 0 (noteHealth (onCtrl e.ctrl (thresholdSet e) s))) := by
  show execSetFeaturesTemperatureThreshold n s = _
  rw [execSetFeaturesTemperatureThreshold, runFeature_of_named _ h hs hf]
  exact congrArg _ (featureDone_of_good _ _ _ (by simp [-Nat.reducePow, hi, ht]))

theorem exec_setFeaturesTemperatureThreshold_of_invalid
    (hb : 8 < e.sqe.cdw11.toNat / 2 ^ 16 % 16 ∨ 1 < e.sqe.cdw11.toNat / 2 ^ 20 % 4) :
    exec (.setFeaturesTemperatureThreshold n) s = .next (finishEntry n Status.invalidField 0 s) := by
  show execSetFeaturesTemperatureThreshold n s = _
  rw [execSetFeaturesTemperatureThreshold, runFeature_of_named _ h hs hf]
  exact congrArg _ (featureDone_of_bad _ _ _ (by simpa using hb))

end

/-! ### Predictable Latency (R474, R476) -/

section
variable (b : Bytes) (hf : e.sqe.fid = 0x13)
include hf

/-- Disabling ends the deterministic window. -/
theorem exec_setFeaturesPlmConfig_of_disabling (hset : e.sqe.cdw11.toNat % 2 ^ 16 = 1) (hon : e.sqe.cdw12.getLsbD 0 = false) :
    exec (.setFeaturesPlmConfig n b) s = .next (finishEntry n 0 0 (disarm .dtwin 0 { s with
      rcl.status.plm_enabled := false, rcl.status.dtwin := false, reclaim.plm_enable := field b 0 2 })) := by
  show execSetFeaturesPlmConfig n b s = _
  rw [execSetFeaturesPlmConfig, runFeature_of_named _ h hs hf]
  refine congrArg _ ((featureDone_of_good _ _ _ (by rw [hset, hon]; rfl)).trans ?_)
  simp only [hon]
  rfl

/-- Enabling enters the non-deterministic window, unless it was enabled already. -/
theorem exec_setFeaturesPlmConfig_of_enabling (hset : e.sqe.cdw11.toNat % 2 ^ 16 = 1) (hon : e.sqe.cdw12.getLsbD 0 = true)
    (hp : s.rcl.cfg.plm_permit = true) : exec (.setFeaturesPlmConfig n b) s = .next (finishEntry n 0 0
      (if s.rcl.status.plm_enabled then { s with rcl.status.plm_enabled := true, reclaim.plm_enable := field b 0 2 }
        else enterWindow false { s with rcl.status.plm_enabled := true, reclaim.plm_enable := field b 0 2 })) := by
  show execSetFeaturesPlmConfig n b s = _
  rw [execSetFeaturesPlmConfig, runFeature_of_named _ h hs hf]
  refine congrArg _ ((featureDone_of_good _ _ _ (by rw [hset, hon, hp]; rfl)).trans ?_)
  simp only [hon]
  cases s.rcl.status.plm_enabled <;> rfl

theorem exec_setFeaturesPlmConfig_of_invalid
    (hb : e.sqe.cdw11.toNat % 2 ^ 16 ≠ 1 ∨ (e.sqe.cdw12.getLsbD 0 = true ∧ s.rcl.cfg.plm_permit = false)) :
    exec (.setFeaturesPlmConfig n b) s = .next (finishEntry n Status.invalidField 0 s) := by
  show execSetFeaturesPlmConfig n b s = _
  rw [execSetFeaturesPlmConfig, runFeature_of_named _ h hs hf]
  exact congrArg _ (featureDone_of_bad _ _ _ (by simpa using hb))

end

section
variable (hf : e.sqe.fid = 0x14)
include hf

theorem exec_setFeaturesPlmWindow_of_invalid
    (hb : e.sqe.cdw11.toNat % 2 ^ 16 ≠ 1 ∨ (e.sqe.cdw12.toNat % 8 ≠ 1 ∧ e.sqe.cdw12.toNat % 8 ≠ 2)) :
    exec (.setFeaturesPlmWindow n) s = .next (finishEntry n Status.invalidField 0 s) := by
  show execSetFeaturesPlmWindow n s = _
  rw [execSetFeaturesPlmWindow, runFeature_of_named _ h hs hf]
  exact congrArg _ (if_pos hb)

section
variable (hset : e.sqe.cdw11.toNat % 2 ^ 16 = 1) (hw : e.sqe.cdw12.toNat % 8 = 1 ∨ e.sqe.cdw12.toNat % 8 = 2)
include hset hw

theorem exec_setFeaturesPlmWindow_of_disabled (he : s.rcl.status.plm_enabled = false) :
    exec (.setFeaturesPlmWindow n) s = .next (finishEntry n Status.sequenceError 0 s) := by
  show execSetFeaturesPlmWindow n s = _
  rw [execSetFeaturesPlmWindow, runFeature_of_named _ h hs hf]
  exact congrArg _ ((if_neg (by omega)).trans (if_pos (by simp [he])))

/-- A window that is named while Predictable Latency is enabled: the one in force stays, the deterministic one is left at any
time, and entered once the other has lasted and enough blocks are free. -/
theorem exec_setFeaturesPlmWindow_of_enabled (he : s.rcl.status.plm_enabled = true) :
    exec (.setFeaturesPlmWindow n) s = .next (
      if (e.sqe.cdw12.toNat % 8 = 1) = s.rcl.status.dtwin then finishEntry n 0 0 s
      else if e.sqe.cdw12.toNat % 8 = 2 then finishEntry n 0 0 (enterWindow false s)
      else if s.reclaim.window_entry + s.rcl.ndwinTmin.toNat ≤ s.run ∧ s.rcl.bgStart.toNat ≤ freeCount s then
        finishEntry n 0 0 (enterWindow true s)
      else finishEntry n Status.sequenceError 0 s) := by
  show execSetFeaturesPlmWindow n s = _
  rw [execSetFeaturesPlmWindow, runFeature_of_named _ h hs hf]
  exact congrArg _ ((if_neg (by omega)).trans (if_neg (by simp [he])))

end

end

/-! ### Reservations (R304) -/

theorem exec_setFeaturesReservationNotifMask_of_named (hf : e.sqe.fid = 0x82) (hb : e.sqe.nsid ≠ 0xFFFFFFFF) :
    exec (.setFeaturesReservationNotifMask n) s = .next (featureDone n (nsidStatus s e != 0) (nsidStatus s e) 0
      (onCtrl e.ctrl fun k => { k with resv_mask := k.resv_mask.put e.sqe.ns (e.sqe.cdw11.toNat % 16) }) s) := by
  show execSetFeaturesReservationNotifMask n s = _
  rw [execSetFeaturesReservationNotifMask, runFeature_of_named _ h hs hf]
  refine congrArg _ ?_
  simp only [if_neg hb, List.foldl_cons, List.foldl_nil]

theorem exec_setFeaturesReservationNotifMask_of_broadcast (hf : e.sqe.fid = 0x82) (hb : e.sqe.nsid = 0xFFFFFFFF) :
    exec (.setFeaturesReservationNotifMask n) s = .next (finishEntry n 0 0 (onCtrl e.ctrl (fun k => { k with
      resv_mask := (s.nvme.namespaces.map Prod.fst).foldl (fun m i => m.put i (e.sqe.cdw11.toNat % 16)) k.resv_mask }) s)) := by
  show execSetFeaturesReservationNotifMask n s = _
  rw [execSetFeaturesReservationNotifMask, runFeature_of_named _ h hs hf]
  refine congrArg _ ?_
  simp only [if_pos hb]
  rfl

/-- PTPL cannot be set. -/
theorem exec_setFeaturesReservationPersistence_of_set (hf : e.sqe.fid = 0x83) (hp : e.sqe.cdw11.getLsbD 0 = true) :
    exec (.setFeaturesReservationPersistence n) s = .next (finishEntry n Status.notChangeable 0 s) := by
  show execSetFeaturesReservationPersistence n s = _
  rw [execSetFeaturesReservationPersistence, runFeature_of_named _ h hs hf]
  refine congrArg _ ?_
  simp only [hp]
  rfl

theorem exec_setFeaturesReservationPersistence_of_clear (hf : e.sqe.fid = 0x83) (hp : e.sqe.cdw11.getLsbD 0 = false) :
    exec (.setFeaturesReservationPersistence n) s
      = .next (finishEntry n (if e.sqe.nsid = 0xFFFFFFFF then 0 else nsidStatus s e) 0 s) := by
  show execSetFeaturesReservationPersistence n s = _
  rw [execSetFeaturesReservationPersistence, runFeature_of_named _ h hs hf]
  simp only [hp, failIf_false, firstStatus_success, firstStatus_single]

end

/-! ### Features that cannot be set (R353, R354) -/

theorem exec_setFeaturesUnsupported_of_timestamp {s : State} {n : Nat} {e : Entry} (h : fetchedEntry n true 0x09 s = some e)
    (hf : e.sqe.fid = 0x0E) : exec (.setFeaturesUnsupported n) s = .next (finishEntry n Status.notChangeable 0 s) := by
  show execSetFeaturesUnsupported n s = _
  rw [execSetFeaturesUnsupported, runEntry_of_fetched _ h]
  exact congrArg _ (if_pos hf)

theorem exec_setFeaturesUnsupported_of_unsupported {s : State} {n : Nat} {e : Entry} (h : fetchedEntry n true 0x09 s = some e)
    (hf : supportedFeatures.contains e.sqe.fid = false) :
    exec (.setFeaturesUnsupported n) s = .next (finishEntry n Status.invalidField 0 s) := by
  have other : e.sqe.fid ≠ 0x0E := fun h0 => by simp [h0, supportedFeatures] at hf
  show execSetFeaturesUnsupported n s = _
  rw [execSetFeaturesUnsupported, runEntry_of_fetched _ h]
  exact congrArg _ ((if_neg other).trans (if_neg (Bool.eq_false_iff.mp hf)))

/-! ### Get Features (R354) -/

section
variable {s : State} {n : Nat} {e : Entry} (h : fetchedEntry n true 0x0A s = some e)
include h

theorem exec_getFeatures_of_unsupported (hf : supportedFeatures.contains e.sqe.fid = false) :
    exec (.getFeatures n) s = .next (finishEntry n Status.invalidField 0 s) := by
  show execGetFeatures n s = _
  rw [execGetFeatures, runEntry_of_fetched _ h]
  refine congrArg _ ?_
  simp only [hf]
  rfl

section
variable (hf : supportedFeatures.contains e.sqe.fid = true) (hst : getFeatureStatus s e = 0)
include hf hst

/-- The value in force for SEL 0, the default for SEL 1 and 2 (log entry 46). -/
theorem exec_getFeatures_of_value (hk : e.sqe.cdw10.toNat / 256 % 8 < 3) : exec (.getFeatures n) s
    = .next (onEntry n (fun x => { x with dw0 := (featureValue s e (e.sqe.cdw10.toNat / 256 % 8 != 0)).1 })
        (answer n e (featureValue s e (e.sqe.cdw10.toNat / 256 % 8 != 0)).2 s)) := by
  show execGetFeatures n s = _
  rw [execGetFeatures, runEntry_of_fetched _ h]
  refine congrArg _ ((if_neg ?_).trans (if_neg (by omega)))
  rw [hf, hst, decide_eq_false (by omega)]
  decide

theorem exec_getFeatures_of_capabilities (hk : e.sqe.cdw10.toNat / 256 % 8 = 3) :
    exec (.getFeatures n) s = .next (finishEntry n 0 (featureCaps e.sqe.fid) s) := by
  show execGetFeatures n s = _
  rw [execGetFeatures, runEntry_of_fetched _ h]
  refine congrArg _ ((if_neg ?_).trans (if_pos hk))
  rw [hf, hst, decide_eq_false (by omega)]
  decide

end

end

/-- Settles O30: each command by its identifier and the checks of its value. That a request for 65,535 queues is an invalid
field is presumed (log entry 81). -/
theorem featuresAreSetAndRead : Obligations.FeaturesAreSetAndRead := by
  unfold Obligations.FeaturesAreSetAndRead
  refine ⟨?saved, ?unsupported, ?arbitration, ?temperature, ?queues, ?coalescing, ?vector, ?atomicity, ?async, ?plmConfig,
    ?plmWindow, ?hostId, ?mask, ?persistence, ?get⟩
  case saved =>
    intro s n e b h hs
    have refused {fid : Nat} {f : Entry → State → State} (hf : e.sqe.fid = fid) :
        runFeature n fid f s = .next (finishEntry n Status.notSaveable 0 s) := runFeature_of_saved h hs hf
    show (_ → execSetFeaturesArbitration n s = _) ∧ (_ → execSetFeaturesTemperatureThreshold n s = _) ∧
      (_ → execSetFeaturesNumberOfQueues n s = _) ∧ (_ → execSetFeaturesInterruptCoalescing n s = _) ∧
      (_ → execSetFeaturesInterruptVectorConfig n s = _) ∧ (_ → execSetFeaturesWriteAtomicity n s = _) ∧
      (_ → execSetFeaturesAsyncEventConfig n s = _) ∧ (_ → execSetFeaturesPlmConfig n b s = _) ∧
      (_ → execSetFeaturesPlmWindow n s = _) ∧ (_ → execSetFeaturesHostIdentifier n b s = _) ∧
      (_ → execSetFeaturesReservationNotifMask n s = _) ∧ (_ → execSetFeaturesReservationPersistence n s = _)
    exact ⟨refused, refused, refused, refused, refused, refused, refused, refused, refused, refused, refused, refused⟩
  case unsupported =>
    exact fun s n e h => ⟨exec_setFeaturesUnsupported_of_timestamp h, exec_setFeaturesUnsupported_of_unsupported h⟩
  case arbitration =>
    intro s n e h hs hf
    show execSetFeaturesArbitration n s = _
    rw [execSetFeaturesArbitration, runFeature_of_named _ h hs hf]
    rfl
  case temperature =>
    rintro s n e i h hs hf rfl
    refine ⟨fun hi ht => ?_, fun hi ht => ?_, exec_setFeaturesTemperatureThreshold_of_invalid h hs hf⟩
    · rw [exec_setFeaturesTemperatureThreshold_of_valid h hs hf hi (by omega), thresholdSet_of_over ht]
    · rw [exec_setFeaturesTemperatureThreshold_of_valid h hs hf hi (by omega), thresholdSet_of_under (by omega)]
  case queues =>
    rintro s n e a c h hs hf rfl rfl
    exact ⟨exec_setFeaturesNumberOfQueues_of_fixed h hs hf, exec_setFeaturesNumberOfQueues_of_excessive h hs hf,
      exec_setFeaturesNumberOfQueues_of_open h hs hf⟩
  case coalescing =>
    intro s n e h hs hf
    show execSetFeaturesInterruptCoalescing n s = _
    rw [execSetFeaturesInterruptCoalescing, runFeature_of_named _ h hs hf]
    rfl
  case vector =>
    rintro s n e v h hs hf rfl
    show (_ → execSetFeaturesInterruptVectorConfig n s = _) ∧ (_ → execSetFeaturesInterruptVectorConfig n s = _)
    rw [execSetFeaturesInterruptVectorConfig, runFeature_of_named _ h hs hf]
    exact ⟨fun hv => congrArg _ (featureDone_of_good _ _ _ (decide_eq_false (Nat.not_le.mpr hv))),
      fun hv => congrArg _ (featureDone_of_bad _ _ _ (decide_eq_true hv))⟩
  case atomicity =>
    intro s n e h hs hf
    show execSetFeaturesWriteAtomicity n s = _
    rw [execSetFeaturesWriteAtomicity, runFeature_of_named _ h hs hf]
    rfl
  case async =>
    intro s n e h hs hf
    show (_ → execSetFeaturesAsyncEventConfig n s = _) ∧ (_ → execSetFeaturesAsyncEventConfig n s = _)
    rw [execSetFeaturesAsyncEventConfig, runFeature_of_named _ h hs hf]
    exact ⟨fun hv => congrArg _ (featureDone_of_good _ _ _ (bne_eq_false_iff_eq.mpr hv)),
      fun hv => congrArg _ (featureDone_of_bad _ _ _ (bne_iff_ne.mpr hv))⟩
  case plmConfig =>
    intro s n e b h hs hf
    refine ⟨exec_setFeaturesPlmConfig_of_disabling h hs b hf, fun hset hon hp hw => ?_, fun hset hon hp hw => ?_,
      exec_setFeaturesPlmConfig_of_invalid h hs b hf⟩
    · rw [exec_setFeaturesPlmConfig_of_enabling h hs b hf hset hon hp, if_neg (Bool.eq_false_iff.mp hw)]
    · rw [exec_setFeaturesPlmConfig_of_enabling h hs b hf hset hon hp, if_pos hw]
  case plmWindow =>
    rintro s n e w h hs hf rfl
    refine ⟨exec_setFeaturesPlmWindow_of_invalid h hs hf, exec_setFeaturesPlmWindow_of_disabled h hs hf, fun hset he => ?_⟩
    have row hw := exec_setFeaturesPlmWindow_of_enabled h hs hf hset hw he
    refine ⟨fun hk => ?stays, fun hw hd => ?leaves, fun hw hd hk => ?enters, fun hw hd hk => ?early⟩
    case stays =>
      rw [row (by omega), if_pos]
      rcases hk with ⟨hw, hd⟩ | ⟨hw, hd⟩ <;> simp [hw, hd]
    case leaves => rw [row (.inr hw), if_neg (by simp [hw, hd]), if_pos hw]
    case enters => rw [row (.inl hw), if_neg (by simp [hw, hd]), if_neg (by omega), if_pos hk]
    case early => rw [row (.inl hw), if_neg (by simp [hw, hd]), if_neg (by omega), if_neg hk]
  case hostId =>
    intro s n e b h hs hf
    show (_ → execSetFeaturesHostIdentifier n b s = _) ∧ (_ → execSetFeaturesHostIdentifier n b s = _)
    rw [execSetFeaturesHostIdentifier, runFeature_of_named _ h hs hf]
    exact ⟨fun hx => congrArg _ (featureDone_of_good _ _ _ (by rw [hx]; rfl)),
      fun hx => congrArg _ (featureDone_of_bad _ _ _ (by rw [hx]; rfl))⟩
  case mask =>
    intro s n e h hs hf
    refine ⟨fun hb hst => ?_, fun hb hst => ?_, exec_setFeaturesReservationNotifMask_of_broadcast h hs hf⟩
    · rw [exec_setFeaturesReservationNotifMask_of_named h hs hf hb, featureDone_of_good _ _ _ (by simp [hst])]
    · rw [exec_setFeaturesReservationNotifMask_of_named h hs hf hb, featureDone_of_bad _ _ _ (by simp [hst])]
  case persistence =>
    intro s n e h hs hf
    refine ⟨exec_setFeaturesReservationPersistence_of_set h hs hf, fun hp hst => ?_, fun hp hb hst => ?_⟩
    · rw [exec_setFeaturesReservationPersistence_of_clear h hs hf hp, ite_eq_left_iff.mpr hst.resolve_left]
    · rw [exec_setFeaturesReservationPersistence_of_clear h hs hf hp, if_neg hb]
  case get =>
    intro s n e h hf hk hst
    have row := exec_getFeatures_of_value h hf hst (by omega)
    rwa [hk] at row

/-- Settles O54: the allocation is fixed by the first command that sets it or by the first queue created, and ends with a reset
of the controller. That a request for 65,535 queues is an invalid field is presumed (log entry 81). -/
theorem queueAllocationIsFixedOnce : Obligations.QueueAllocationIsFixedOnce := by
  unfold Obligations.QueueAllocationIsFixedOnce
  intro s n e a c
  refine ⟨fun k b => rfl, fun u st d x hx => ⟨rfl, markDone_find_self st d hx⟩, ?set, fun hg => ⟨?cq, ?sq⟩⟩
  case set =>
    rintro h hf hs rfl rfl
    refine ⟨exec_setFeaturesNumberOfQueues_of_excessive h hs hf, fun hg ha hc => ?first, fun hg => ?later⟩
    case first =>
      refine ⟨_, _, exec_setFeaturesNumberOfQueues_of_open h hs hf hg ha hc, ?_, rfl, rfl⟩
      rw [finishEntry_granted, onCtrl_self]
      rfl
    case later =>
      exact ⟨_, exec_setFeaturesNumberOfQueues_of_fixed h hs hf (Option.isSome_iff_ne_none.mpr hg), finishEntry_granted .., rfl⟩
  case cq =>
    exact fun h hc => ⟨_, exec_createIoCompletionQueue_of_passed h hc, (finishEntry_granted ..).trans (cqCreated_granted hg)⟩
  case sq =>
    exact fun h hc => ⟨_, exec_createIoSubmissionQueue_of_passed h hc, (finishEntry_granted ..).trans (sqCreated_granted hg)⟩

end Sys2Proof.Machine
end

section
/-!
PROOFS. Enable, reset and shutdown of a controller, and its doorbells.
-/

namespace Sys2Proof.Machine

/-! ### What the health status of NVMe-MI leaves (R598) -/

theorem noteMi_ctrl (c flags : Nat) (s : State) :
    (noteMi c flags s).ctrl c = { s.ctrl c with mi_changed := markPaths flags (s.ctrl c).mi_changed } :=
  onCtrl_self c (fun k => { k with mi_changed := markPaths flags k.mi_changed }) s

theorem onCtrl_tracker (c : Nat) (f : Controller → Controller) (s : State) :
    (onCtrl c f s).nvme.tracker = s.nvme.tracker := by
  unfold onCtrl
  split <;> rfl

/-- Whether commands are processed depends on the mode and on a Thermal Halt entry alone. -/
theorem serving_congr {s t : State} (hm : t.mode = s.mode) (ht : t.thermal = s.thermal) : t.serving = s.serving := by
  simp only [State.serving, hm, ht]

theorem onCtrl_serving (c : Nat) (f : Controller → Controller) (s : State) : (onCtrl c f s).serving = s.serving :=
  serving_congr (onCtrl_mode ..) (onCtrl_thermal ..)

theorem noteMi_serving (c flags : Nat) (s : State) : (noteMi c flags s).serving = s.serving :=
  serving_congr (noteMi_mode ..) (onCtrl_thermal ..)

/-! ### Enable (R305, R306) -/

/-- A controller that is enabled, without CSTS.CFS, becomes ready while commands are processed. -/
theorem makeReady_of_ready {c : Nat} {s : State} (h : ((s.ctrl c).en && !(s.ctrl c).cfs && s.serving) = true) :
    (makeReady c s).ctrl c = { s.ctrl c with rdy := true, mi_changed := markPaths Mi.rdy (s.ctrl c).mi_changed } := by
  have ready : (onCtrl c (fun k => { k with rdy := true }) s).ctrl c = { s.ctrl c with rdy := true } := onCtrl_self ..
  rw [makeReady, if_pos h, noteMi_ctrl]
  exact congrArg (fun k : Controller => { k with mi_changed := markPaths Mi.rdy k.mi_changed }) ready

/-- Becoming ready shows in the ready bit and in the changes that NVMe-MI reports alone. -/
theorem makeReady_keeps {α : Type} {f : Controller → α} (hf : ∀ k r m, f { k with rdy := r, mi_changed := m } = f k) (c : Nat)
    (s : State) : f ((makeReady c s).ctrl c) = f (s.ctrl c) := by
  by_cases h : ((s.ctrl c).en && !(s.ctrl c).cfs && s.serving) = true
  · rw [makeReady_of_ready h, hf]
  · rw [makeReady, if_neg h]

/-- The value of CC and the sizes of the admin queues are accepted. -/
def enableGood (c : Nat) (cc : BitVec 32) (s : State) : Bool :=
  ccGood cc && decide (2 ≤ adminSize (s.ctrl c) false) && decide (2 ≤ adminSize (s.ctrl c) true)

/-- The controller as its enable leaves it, but for its becoming ready (R305). -/
def enabled (good : Bool) (cc : BitVec 32) (k : Controller) : Controller :=
  { k with
    en := true
    cc := cc.toNat
    cfs := k.cfs || !good
    iosqes := cc.toNat / 2 ^ 16 % 16
    iocqes := cc.toNat / 2 ^ 20 % 16
    ams := cc.toNat / 2 ^ 11 % 8
    fetch_stopped := k.cfs || !good
    sqs := [(0, { size := adminSize k false, cqid := 0 })]
    cqs := [(0, { size := adminSize k true, ien := true })] }

/-- The flags of the health status that an enable changes. -/
def enableFlags (good : Bool) : Nat := Mi.ceco ||| (if good then 0 else Mi.cfs)

theorem enableController_eq (c : Nat) (cc : BitVec 32) (s : State) : enableController c cc s =
    makeReady c (noteMi c (enableFlags (enableGood c cc s)) (onCtrl c (enabled (enableGood c cc s) cc) s)) := rfl

/-- What an enable leaves of a controller shows in every field but the ready bit and the changes that NVMe-MI reports. -/
theorem enableController_keeps {α : Type} {f : Controller → α} (hf : ∀ k r m, f { k with rdy := r, mi_changed := m } = f k)
    (c : Nat) (cc : BitVec 32) (s : State) :
    f ((enableController c cc s).ctrl c) = f (enabled (enableGood c cc s) cc (s.ctrl c)) := by
  rw [enableController_eq, makeReady_keeps hf, noteMi_ctrl, onCtrl_self]
  exact hf _ _ _

/-- Without CSTS.CFS the controller is ready once it is enabled, while commands are processed (R306). -/
theorem enableController_rdy {c : Nat} {cc : BitVec 32} {s : State} (hc : ((enableController c cc s).ctrl c).cfs = false)
    (hs : s.serving = true) : ((enableController c cc s).ctrl c).rdy = true := by
  have clear := (enableController_keeps (f := Controller.cfs) (fun _ _ _ => rfl) c cc s).symm.trans hc
  rw [enableController_eq, makeReady_of_ready]
  rw [noteMi_serving, onCtrl_serving, hs, noteMi_ctrl, onCtrl_self, clear]
  rfl

section
variable {s : State} {c : Nat} (hr : s.reachable c = true) (ho : memoryOpen s c = true)
include hr ho

theorem exec_controllerEnable_of_disabled {cc : BitVec 32} (he : (s.ctrl c).en = false) (hcc : cc.getLsbD 0 = true) :
    exec (.controllerEnable c cc) s = .next (enableController c cc s) := by
  show execControllerEnable c cc s = _
  rw [execControllerEnable, memoryWrite_of_open _ hr ho]
  exact congrArg _ (if_pos (by rw [he, hcc]; rfl))

/-! ### Reset and shutdown (R308, R309) -/

theorem exec_controllerReset_of_enabled (he : (s.ctrl c).en = true) : exec (.controllerReset c) s = .next (afterEnded
    (assertSource (0xE + c) (each (s.ctrl c).cqs (fun p => disarm .coalesce (coalesceIdx c p.1)) s))) := by
  show execControllerReset c s = _
  rw [execControllerReset, memoryWrite_of_open _ hr ho]
  exact congrArg _ (if_pos he)

theorem exec_shutdownNormal_of_serving (he : (s.ctrl c).en = true) (hs : s.serving = true) (hn : (s.ctrl c).shst = 0) :
    exec (.shutdownNormal c) s = .next (driveShutdown (noteMi c Mi.shst
      { onCtrl c (fun k => { k with shst := 1, cc := noticeOf 1 k.cc, fetch_stopped := true }) s with
        nvme.shutting := some c })) := by
  show execShutdownNormal c s = _
  rw [execShutdownNormal, memoryWrite_of_open _ hr ho]
  exact congrArg _ (if_pos (by rw [he, hs, hn]; rfl))

/-- The commands of a controller have ended with no completion, and it fetches no more. -/
def commandsEnded (c : Nat) (s : State) : State := endCommands c (onCtrl c (fun k => { k with fetch_stopped := true }) s)

/-- The abrupt shutdown of a controller is complete (R308). -/
def shutAbrupt (c : Nat) (s : State) : State :=
  noteMi c Mi.shst (onCtrl c (fun k => { k with shst := 2, cc := noticeOf 2 k.cc }) (commandsEnded c s))

theorem exec_shutdownAbrupt_of_serving (he : (s.ctrl c).en = true) (hs : s.serving = true) (hn : (s.ctrl c).shst ≠ 2) :
    ∃ d k, exec (.shutdownAbrupt c) s = .next (afterEnded { shutAbrupt c s with
      nvme.shutting := d, nvme.shut_checkpoint := k }) := by
  show ∃ d k, execShutdownAbrupt c s = _
  rw [execShutdownAbrupt, memoryWrite_of_open _ hr ho]
  exact ⟨_, _, congrArg _ (if_pos (by rw [he, hs, bne_iff_ne.mpr hn]; rfl))⟩

end

theorem shutAbrupt_shst (c : Nat) (s : State) : ((shutAbrupt c s).ctrl c).shst = 2 := by
  rw [shutAbrupt, noteMi_ctrl, onCtrl_self]

theorem shutAbrupt_tracker (c : Nat) (s : State) : (shutAbrupt c s).nvme.tracker = (commandsEnded c s).nvme.tracker :=
  (onCtrl_tracker ..).trans (onCtrl_tracker ..)

theorem shutAbrupt_shroud (c : Nat) (s : State) : (shutAbrupt c s).shroud = (commandsEnded c s).shroud :=
  (onCtrl_shroud ..).trans (onCtrl_shroud ..)

/-! ### Doorbells (R306, R315, R317) -/

section
variable {s : State} {c i v : Nat}

theorem tailWritten_of_missing (v : Nat) (hq : (s.ctrl c).sqs.find i = none) :
    tailWritten c i v s = postAsync c ⟨0, 0, 1⟩ s := by
  simp only [tailWritten, hq, badDoorbell]

theorem tailWritten_of_beyond {q : SubQueue} (hq : (s.ctrl c).sqs.find i = some q) (hv : q.size ≤ v) :
    tailWritten c i v s = postAsync c ⟨0, 1, 1⟩ s := by
  simp only [tailWritten, hq, if_pos hv, badDoorbell]

/-- The tail is written, under the stamp of the doorbell. -/
def tailSet (c i v : Nat) (s : State) : State :=
  onSq c i (fun q => { q with tail := v, doorbells := q.doorbells ++ [(v, (takeStamp s).1)] }) (takeStamp s).2

theorem tailWritten_of_moved {q : SubQueue} (hq : (s.ctrl c).sqs.find i = some q) (hv : v < q.size) (ht : v ≠ q.tail) :
    tailWritten c i v s = if i = 0 ∨ v = q.head then tailSet c i v s else ioDoorbell c (tailSet c i v s) := by
  simp only [tailWritten, hq]
  rw [if_neg (Nat.not_le.mpr hv), if_neg ht.symm]
  rfl

theorem headWritten_of_missing (v : Nat) (hq : (s.ctrl c).cqs.find i = none) :
    headWritten c i v s = postAsync c ⟨0, 0, 1⟩ s := by
  simp only [headWritten, hq, badDoorbell]

theorem headWritten_of_beyond {q : CplQueue} (hq : (s.ctrl c).cqs.find i = some q) (hv : q.size ≤ v) :
    headWritten c i v s = postAsync c ⟨0, 1, 1⟩ s := by
  simp only [headWritten, hq, if_pos hv, badDoorbell]

theorem headWritten_of_within {q : CplQueue} (hq : (s.ctrl c).cqs.find i = some q) (hv : v < q.size) :
    headWritten c i v s = onCq c i (fun q => { q with head := v }) s := by
  simp only [headWritten, hq, if_neg (Nat.not_le.mpr hv)]

variable (i v) (hr : s.reachable c = true) (ho : memoryOpen s c = true) (hd : (s.ctrl c).rdy = true)
include hr ho hd

theorem exec_sqTailDoorbell_of_ready : exec (.sqTailDoorbell c i v) s = .next (tailWritten c i v s) := by
  show execSqTailDoorbell c i v s = _
  rw [execSqTailDoorbell, memoryWrite_of_open _ hr ho, if_pos hd]

theorem exec_cqHeadDoorbell_of_ready : exec (.cqHeadDoorbell c i v) s = .next (headWritten c i v s) := by
  show execCqHeadDoorbell c i v s = _
  rw [execCqHeadDoorbell, memoryWrite_of_open _ hr ho, if_pos hd]

end

/-- Settles O27: each write by what it finds of its controller, a doorbell by its queue and its value. That a CC or AQA which is
not accepted sets CSTS.CFS is presumed (log entry 43), and that CC reads back as written is deduced (log entry 60). -/
theorem controllersAndDoorbells : Obligations.ControllersAndDoorbells := by
  unfold Obligations.ControllersAndDoorbells
  intro s c hr ho
  refine ⟨fun cc he hcc => ?enable, exec_controllerReset_of_enabled hr ho, exec_shutdownNormal_of_serving hr ho,
    fun he hs hn _ => ?abrupt, fun hd => ?doorbells⟩
  case enable =>
    have shows {α : Type} (f : Controller → α) (hf : ∀ k r m, f { k with rdy := r, mi_changed := m } = f k) :=
      enableController_keeps hf c cc s
    exact ⟨_, exec_controllerEnable_of_disabled hr ho he hcc, shows Controller.en fun _ _ _ => rfl,
      shows Controller.cc fun _ _ _ => rfl, shows Controller.sqs fun _ _ _ => rfl, shows Controller.cqs fun _ _ _ => rfl,
      shows Controller.cfs fun _ _ _ => rfl, enableController_rdy⟩
  case abrupt =>
    obtain ⟨d, k, ends⟩ := exec_shutdownAbrupt_of_serving hr ho he hs hn
    exact ⟨_, _, ends, rfl, shutAbrupt_shst c s, shutAbrupt_tracker c s, shutAbrupt_shroud c s⟩
  case doorbells =>
    have tail i v := exec_sqTailDoorbell_of_ready i v hr ho hd
    have head i v := exec_cqHeadDoorbell_of_ready i v hr ho hd
    exact ⟨fun i v hq => (tail i v).trans (congrArg _ (tailWritten_of_missing v hq)),
      fun i v q hq hv => (tail i v).trans (congrArg _ (tailWritten_of_beyond hq hv)),
      fun i v q hq hv ht => (tail i v).trans (congrArg _ (tailWritten_of_moved hq hv ht)),
      fun i v hq => (head i v).trans (congrArg _ (headWritten_of_missing v hq)),
      fun i v q hq hv => (head i v).trans (congrArg _ (headWritten_of_beyond hq hv)),
      fun i v q hq hv => (head i v).trans (congrArg _ (headWritten_of_within hq hv))⟩

end Sys2Proof.Machine
end

section
/-!
PROOFS. Commands that return data: Get Log Page, Identify and Security Receive.
-/

namespace Sys2Proof.Machine

/-- The first check that fails gives the status. -/
theorem firstStatus_failed {st : Nat} (l : List Nat) (h : st ≠ 0) : firstStatus (st :: l) = st := by
  simp [firstStatus, h]

/-! ### Get Log Page (R348) -/

theorem logStatus_of_unsupported {q : Sqe} (h : supportedLogs.contains q.lid = false) : logStatus q = Status.invalidLog := by
  rw [logStatus, h]
  exact firstStatus_failed _ (by decide)

section
variable {s : State} {n : Nat} {e : Entry}

theorem exec_getLogPage_of_passed (h : fetchedEntry n true 0x02 s = some e) (hl : logStatus e.sqe = 0) :
    exec (.getLogPage n) s = .next (answer n e (readLog e.ctrl e.sqe s).1 (readLog e.ctrl e.sqe s).2) := by
  show execGetLogPage n s = _
  rw [execGetLogPage, runEntry_of_fetched _ h]
  exact congrArg _ (if_neg (not_not_intro hl))

theorem exec_getLogPage_of_failed (h : fetchedEntry n true 0x02 s = some e) (hl : logStatus e.sqe ≠ 0) :
    exec (.getLogPage n) s = .next (finishEntry n (logStatus e.sqe) 0 s) := by
  show execGetLogPage n s = _
  rw [execGetLogPage, runEntry_of_fetched _ h]
  exact congrArg _ (if_pos hl)

/-! ### Identify (R348) -/

theorem exec_identify_of_data {d : Bytes} (h : fetchedEntry n true 0x06 s = some e) (hd : identifyData s e.ctrl e.sqe = (0, d)) :
    exec (.identify n) s = .next (answer n e d s) := by
  show execIdentify n s = _
  rw [execIdentify, runEntry_of_fetched _ h, hd]
  rfl

theorem exec_identify_of_failed {st : Nat} {d : Bytes} (h : fetchedEntry n true 0x06 s = some e)
    (hd : identifyData s e.ctrl e.sqe = (st, d)) (hst : st ≠ 0) : exec (.identify n) s = .next (finishEntry n st 0 s) := by
  show execIdentify n s = _
  rw [execIdentify, runEntry_of_fetched _ h, hd]
  cases st with
  | zero => exact absurd rfl hst
  | succ st => rfl

/-! ### Security Receive (R651) -/

/-- Opal is addressed through the protocols 0x01 and 0x02 alone. -/
theorem secp_of_opalAddressed {q : Sqe} (h : opalAddressed s q = true) : q.secp ≠ 0 := by
  intro h0
  simp [opalAddressed, h0] at h

section
variable (h : fetchedEntry n true 0x82 s = some e)
include h

theorem exec_securityReceive_of_long (hl : 2 ^ 24 < e.sqe.cdw11.toNat) :
    exec (.securityReceive n) s = .next (finishEntry n Status.invalidField 0 s) := by
  show execSecurityReceive n s = _
  rw [execSecurityReceive, runEntry_of_fetched _ h]
  exact congrArg _ (if_pos hl)

variable (hl : e.sqe.cdw11.toNat ≤ 2 ^ 24)
include hl

theorem exec_securityReceive_of_discovery (hp : e.sqe.secp = 0) : exec (.securityReceive n) s
    = .next (answer n e (padTo e.sqe.cdw11.toNat ((discovery s).take e.sqe.cdw11.toNat)) s) := by
  show execSecurityReceive n s = _
  rw [execSecurityReceive, runEntry_of_fetched _ h]
  exact congrArg _ ((if_neg (Nat.not_lt.mpr hl)).trans (if_pos hp))

theorem exec_securityReceive_of_opal (ho : opalAddressed s e.sqe = true) : exec (.securityReceive n) s
    = .next (answer n e (padTo e.sqe.cdw11.toNat (s.security.response.take e.sqe.cdw11.toNat)) s) := by
  show execSecurityReceive n s = _
  rw [execSecurityReceive, runEntry_of_fetched _ h]
  exact congrArg _ ((if_neg (Nat.not_lt.mpr hl)).trans ((if_neg (secp_of_opalAddressed ho)).trans (if_pos ho)))

theorem exec_securityReceive_of_other (hp : e.sqe.secp ≠ 0) (ho : opalAddressed s e.sqe = false) :
    exec (.securityReceive n) s = .next (finishEntry n Status.invalidField 0 s) := by
  show execSecurityReceive n s = _
  rw [execSecurityReceive, runEntry_of_fetched _ h]
  exact congrArg _ ((if_neg (Nat.not_lt.mpr hl)).trans ((if_neg hp).trans (if_neg (Bool.eq_false_iff.mp ho))))

end

end

/-- Settles O32: each command by its checks and by what it asks for. That SEL 1 returns the default value is the model's choice
(log entry 46), the statuses of a log's offset and length are deduced (log entry 48), and the opcodes of NVMe-MI are presumed
(log entry 49). -/
theorem dataReturnsToTheHost : Obligations.DataReturnsToTheHost := by
  unfold Obligations.DataReturnsToTheHost
  intro s n e b
  refine ⟨fun h => ⟨?value, fun hf hk hst => exec_getFeatures_of_capabilities h hf hst hk, exec_getFeatures_of_unsupported h⟩,
    fun h => ⟨exec_getLogPage_of_passed h, exec_getLogPage_of_failed h, logStatus_of_unsupported⟩,
    fun h => ⟨fun d => exec_identify_of_data h, fun st d => exec_identify_of_failed h⟩,
    exec_nvmeMiSend_configurationSet b, exec_nvmeMiReceive_configurationGet,
    fun h => ⟨exec_securityReceive_of_long h, exec_securityReceive_of_discovery h, exec_securityReceive_of_opal h,
      exec_securityReceive_of_other h⟩⟩
  case value =>
    rintro k rfl hk hf hst
    exact exec_getFeatures_of_value h hf hst hk

end Sys2Proof.Machine
end

section
/-!
PROOFS. Reservations of a host that has an identifier.
-/

namespace Sys2Proof.Machine

section
variable {s : State} {n h opcode : Nat} {e : Entry} {m : Namespace}

/-- A reservation command on an active namespace, of a controller whose host has an identifier, runs (R304). -/
theorem runReservation_of_host (f : Entry → Namespace → Nat → State → State) (hm : s.nspace e.sqe.ns = some m)
    (hn : nsidStatus s e = 0) (hf : e.sqe.fuse = 0) (hh : (s.ctrl e.ctrl).host_id = some h)
    (he : fetchedEntry n false opcode s = some e) : runReservation n opcode f s = .next (f e m h s) := by
  rw [runReservation, runEntry_of_fetched _ he]
  simp [hm, hn, hf, hh]

/-- Registrants none of which is the host. -/
theorem find_registrant_none {l : List Registrant} (hx : ∀ x ∈ l, x.host_id ≠ h) : l.find? (fun x => x.host_id == h) = none :=
  List.find?_eq_none.mpr fun x hm => by simpa using hx x hm

theorem filter_registrant_all {l : List Registrant} (hx : ∀ x ∈ l, x.host_id ≠ h) : l.filter (fun x => x.host_id != h) = l :=
  List.filter_eq_self.mpr fun x hm => by simpa using hx x hm

end

/-- The reservation with the host registered under a key, in a new generation. -/
def Reservation.register (h key ctrl : Nat) (r : Reservation) : Reservation :=
  { r with
    generation := (r.generation + 1) % 2 ^ 32
    registrants := (r.registrants.filter fun x => x.host_id != h) ++ [{ host_id := h, key := key, ctrl := ctrl }] }

/-- The reservation with the host no longer registered, in a new generation. -/
def Reservation.unregister (h : Nat) (r : Reservation) : Reservation :=
  { r.without (fun y => y.host_id == h) with generation := (r.generation + 1) % 2 ^ 32 }

theorem Reservation.without_generation (f : Registrant → Bool) (r : Reservation) :
    (r.without f).generation = r.generation := by
  unfold Reservation.without
  exact (apply_ite Reservation.generation ..).trans (ite_self _)

section
variable {s : State} {n h : Nat} {e : Entry} {m : Namespace} (b : Bytes) (hm : s.nspace e.sqe.ns = some m)
  (hn : nsidStatus s e = 0) (hf : e.sqe.fuse = 0) (hh : (s.ctrl e.ctrl).host_id = some h)
include hm hn hf hh

/-! ### Register -/

section
variable (he : fetchedEntry n false 0x0D s = some e) (hp : e.sqe.cdw10.toNat < 2 ^ 30)
include he hp

theorem exec_reservationRegister_of_new (ha : e.sqe.cdw10.toNat % 8 = 0)
    (hx : m.reservation.registrants.find? (fun x => x.host_id == h) = none) : exec (.reservationRegister n b) s
      = .next (setReservationOf n e (m.reservation.register h (field b 8 8) e.ctrl) s) := by
  show execReservationRegister n b s = _
  rw [execReservationRegister, runReservation_of_host _ hm hn hf hh he]
  refine congrArg _ ((if_neg (by omega)).trans ?_)
  simp only [ha, hx]
  rfl

variable {x : Registrant} (hx : m.reservation.registrants.find? (fun x => x.host_id == h) = some x)
include hx

/-- A host that is registered may register again under its own key alone. -/
theorem exec_reservationRegister_of_registered (ha : e.sqe.cdw10.toNat % 8 = 0) : exec (.reservationRegister n b) s
    = .next (if x.key = field b 8 8 then finishEntry n 0 0 s else finishEntry n Status.reservationConflict 0 s) := by
  show execReservationRegister n b s = _
  rw [execReservationRegister, runReservation_of_host _ hm hn hf hh he]
  refine congrArg _ ((if_neg (by omega)).trans ?_)
  simp only [ha, hx]

variable (hk : x.key = field b 0 8 ∨ e.sqe.cdw10.toNat.testBit 3 = true)
include hk

theorem exec_reservationRegister_of_unregister (ha : e.sqe.cdw10.toNat % 8 = 1) : exec (.reservationRegister n b) s
    = .next (setReservationOf n e (m.reservation.unregister h) s) := by
  show execReservationRegister n b s = _
  rw [execReservationRegister, runReservation_of_host _ hm hn hf hh he]
  refine congrArg _ ((if_neg (by omega)).trans ?_)
  simp only [ha, hx, Reservation.without_generation]
  exact if_pos hk.symm

theorem exec_reservationRegister_of_replace (ha : e.sqe.cdw10.toNat % 8 = 2) : exec (.reservationRegister n b) s
    = .next (setReservationOf n e (m.reservation.register h (field b 8 8) e.ctrl) s) := by
  show execReservationRegister n b s = _
  rw [execReservationRegister, runReservation_of_host _ hm hn hf hh he]
  refine congrArg _ ((if_neg (by omega)).trans ?_)
  simp only [ha, hx]
  exact if_pos hk.symm

end

/-! ### Acquire and Release, by a registrant that gives its key -/

section
variable {x : Registrant} (hx : m.reservation.registrants.find? (fun x => x.host_id == h) = some x)
  (hk : x.key = field b 0 8) (hi : e.sqe.cdw10.toNat.testBit 3 = false)
include hx hk hi

section
variable (he : fetchedEntry n false 0x11 s = some e) (h1 : 1 ≤ e.sqe.cdw10.toNat / 256 % 256)
  (h6 : e.sqe.cdw10.toNat / 256 % 256 ≤ 6)
include he h1 h6

theorem exec_reservationAcquire_of_acquire (ha : e.sqe.cdw10.toNat % 8 = 0) : exec (.reservationAcquire n b) s = .next (
    if m.reservation.type = 0 then
      setReservationOf n e { m.reservation with type := e.sqe.cdw10.toNat / 256 % 256, holder := some h } s
    else if m.reservation.heldBy h ∧ m.reservation.type = e.sqe.cdw10.toNat / 256 % 256 then finishEntry n 0 0 s
    else finishEntry n Status.reservationConflict 0 s) := by
  show execReservationAcquire n b s = _
  rw [execReservationAcquire, runReservation_of_host _ hm hn hf hh he]
  refine congrArg _ ((if_neg (not_or.mpr ⟨Bool.eq_false_iff.mp hi, by omega⟩)).trans ?_)
  simp only [hx]
  refine (if_neg (not_not_intro hk)).trans ?_
  simp only [ha]

/-- A preempt ends the commands of the hosts it removes where the action says so. -/
theorem exec_reservationAcquire_of_preempt (ha : e.sqe.cdw10.toNat % 8 = 1 ∨ e.sqe.cdw10.toNat % 8 = 2) :
    exec (.reservationAcquire n b) s = .next (preempt n e m h (field b 8 8) (e.sqe.cdw10.toNat / 256 % 256)
      (e.sqe.cdw10.toNat % 8 == 2) s) := by
  show execReservationAcquire n b s = _
  rw [execReservationAcquire, runReservation_of_host _ hm hn hf hh he]
  refine congrArg _ ((if_neg (not_or.mpr ⟨Bool.eq_false_iff.mp hi, by omega⟩)).trans ?_)
  simp only [hx]
  refine (if_neg (not_not_intro hk)).trans ?_
  rcases ha with ha | ha <;> simp only [ha] <;> rfl

end

section
variable (he : fetchedEntry n false 0x15 s = some e)
include he

theorem exec_reservationRelease_of_release (ha : e.sqe.cdw10.toNat % 8 = 0) : exec (.reservationRelease n b) s = .next (
    if m.reservation.heldBy h = false then finishEntry n 0 0 s
    else if e.sqe.cdw10.toNat / 256 % 256 ≠ m.reservation.type then finishEntry n Status.invalidField 0 s
    else setReservationOf n e { m.reservation with type := 0, holder := none } s) := by
  show execReservationRelease n b s = _
  rw [execReservationRelease, runReservation_of_host _ hm hn hf hh he]
  refine congrArg _ ((if_neg (Bool.eq_false_iff.mp hi)).trans ?_)
  simp only [hx]
  refine (if_neg (not_not_intro hk)).trans ?_
  simp only [ha, Bool.not_eq_true']

theorem exec_reservationRelease_of_clear (ha : e.sqe.cdw10.toNat % 8 = 1) : exec (.reservationRelease n b) s
    = .next (setReservationOf n e { generation := (m.reservation.generation + 1) % 2 ^ 32 } s) := by
  show execReservationRelease n b s = _
  rw [execReservationRelease, runReservation_of_host _ hm hn hf hh he]
  refine congrArg _ ((if_neg (Bool.eq_false_iff.mp hi)).trans ?_)
  simp only [hx]
  refine (if_neg (not_not_intro hk)).trans ?_
  simp only [ha]

end

end

end

/-! ### Report -/

/-- The extended structure is reported, within MDTS. -/
theorem exec_reservationReport_of_extended {s : State} {n : Nat} {e : Entry} {m : Namespace} (hm : s.nspace e.sqe.ns = some m)
    (hn : nsidStatus s e = 0) (hf : e.sqe.fuse = 0) (he : fetchedEntry n false 0x0E s = some e)
    (hx : e.sqe.cdw11.getLsbD 0 = true) (hl : 4 * (e.sqe.cdw10.toNat + 1) ≤ 2 ^ 24) : exec (.reservationReport n) s
      = .next (answer n e (padTo (4 * (e.sqe.cdw10.toNat + 1))
        ((reservationStatus m.reservation).take (4 * (e.sqe.cdw10.toNat + 1)))) s) := by
  have short : decide (mdtsBytes < 4 * (e.sqe.cdw10.toNat + 1)) = false := decide_eq_false (Nat.not_lt.mpr hl)
  show execReservationReport n s = _
  rw [execReservationReport, runEntry_of_fetched _ he]
  refine congrArg _ ((if_neg (not_not_intro ?_)).trans ?_)
  · rw [hf, hn, hx, short]
    rfl
  · simp only [hm]

/-- Settles O35: each action by what the host is to the reservation. -/
theorem reservationsAreHeld : Obligations.ReservationsAreHeld := by
  unfold Obligations.ReservationsAreHeld
  rintro s n h k e m b r hm hn hf hh rfl
  refine ⟨fun he hp => ⟨fun ha hx => ?new, fun x hx => ?registered⟩,
    fun x hx hk hi hkk => ⟨fun he h1 h6 => ?acquire, fun he => ?release⟩,
    exec_reservationReport_of_extended hm hn hf⟩
  case new =>
    rw [exec_reservationRegister_of_new b hm hn hf hh he hp ha (find_registrant_none hx), Reservation.register,
      filter_registrant_all hx]
  case registered =>
    have again := exec_reservationRegister_of_registered b hm hn hf hh he hp hx
    exact ⟨fun ha hk => (again ha).trans (congrArg _ (if_pos hk)), fun ha hk => (again ha).trans (congrArg _ (if_neg hk)),
      fun ha hk => exec_reservationRegister_of_unregister b hm hn hf hh he hp hx hk ha,
      fun ha hk => exec_reservationRegister_of_replace b hm hn hf hh he hp hx hk ha⟩
  case acquire =>
    subst hkk
    have acquire := exec_reservationAcquire_of_acquire b hm hn hf hh hx hk hi he h1 h6
    have preempts := exec_reservationAcquire_of_preempt b hm hn hf hh hx hk hi he h1 h6
    refine ⟨fun ha => ⟨fun h0 => ?free, fun ht hb => ?held, fun h0 hb => ?other⟩, fun ha => ?keep, fun ha => ?abort⟩
    case free => exact (acquire ha).trans (congrArg _ (if_pos h0))
    case held => exact (acquire ha).trans (congrArg _ ((if_neg (by omega)).trans (if_pos ⟨hb, ht⟩)))
    case other => exact (acquire ha).trans (congrArg _ ((if_neg h0).trans (if_neg fun hd => by simp [hb] at hd)))
    case keep => simpa [ha] using preempts (.inl ha)
    case abort => simpa [ha] using preempts (.inr ha)
  case release =>
    subst hkk
    have release := exec_reservationRelease_of_release b hm hn hf hh hx hk hi he
    refine ⟨fun ha => ⟨fun hb ht => ?held, fun hb => (release ha).trans (congrArg _ (if_pos hb))⟩,
      exec_reservationRelease_of_clear b hm hn hf hh hx hk hi he⟩
    exact (release ha).trans (congrArg _ ((if_neg (by simp [hb])).trans (if_neg (not_not_intro ht))))

end Sys2Proof.Machine
end

section
/-!
PROOFS. Namespace Management, Namespace Attachment and Format NVM.
-/

namespace Sys2Proof.Machine

section
variable {s : State} {n : Nat} {e : Entry}

/-! ### Create (R345, R361 to R363) -/

section
variable (b : Bytes) (h : adminEntry n 0x0D s = some e) (hs : e.state = .fetched) (hy : askingYards s n = false)
  (ha : e.sqe.cdw10.toNat % 16 = 0)
include h hs hy ha

theorem exec_namespaceCreate_of_failed (hc : createStatus s e b ≠ 0) :
    exec (.namespaceCreate n b) s = .next (finishEntry n (createStatus s e b) 0 s) := by
  show execNamespaceCreate n b s = _
  simp only [execNamespaceCreate, h]
  rw [if_neg (by simp [ha, hy]), if_neg (by simp [hs]), if_pos hc]

theorem exec_namespaceCreate_of_full (hc : createStatus s e b = 0) (hp : place s (newNamespace b) = none) :
    exec (.namespaceCreate n b) s = .next (finishEntry n Status.insufficientCapacity 0 s) := by
  show execNamespaceCreate n b s = _
  simp only [execNamespaceCreate, h, hp]
  rw [if_neg (by simp [ha, hy]), if_neg (by simp [hs]), if_neg (not_not_intro hc)]

/-- A namespace that passes every check and fits takes the lowest free identifier, after the first format if the device has none
(log entry 33). -/
theorem exec_namespaceCreate_of_placed {m : Namespace} (hc : createStatus s e b = 0) (hp : place s (newNamespace b) = some m) :
    exec (.namespaceCreate n b) s = .next (createStep n ((firstFormat s).nvme.namespaces.fresh 0 1024) m { firstFormat s with
      nvme.namespaces := (firstFormat s).nvme.namespaces.put ((firstFormat s).nvme.namespaces.fresh 0 1024) m }) := by
  show execNamespaceCreate n b s = _
  simp only [execNamespaceCreate, h, hp]
  rw [if_neg (by simp [ha, hy]), if_neg (by simp [hs]), if_neg (not_not_intro hc)]

end

/-! ### Delete (R346) -/

theorem any_closing_of_open {l : List (Nat × Namespace)} (hl : ∀ p ∈ l, p.2.closing = none) :
    l.any (fun p => p.2.closing.isSome) = false :=
  List.any_eq_false.mpr fun p hp => by simp [hl p hp]

section
variable (h : adminEntry n 0x0D s = some e) (hs : e.state = .fetched) (ha : e.sqe.cdw10.toNat % 16 = 1)
  (hn : allocatedStatus s e = 0) (hl : ∀ p ∈ namespacesNamed s e, p.2.closing = none)
include h hs ha hn hl

theorem exec_namespaceDelete_of_locked (hk : (namespacesNamed s e).any (fun p => namespaceLocked s p.1 p.2) = true) :
    exec (.namespaceDelete n) s = .next (finishEntry n Status.accessDenied 0 s) := by
  show execNamespaceDelete n s = _
  simp only [execNamespaceDelete, h]
  rw [if_neg (not_not_intro ha), if_neg (by simp [hs]), hn, any_closing_of_open hl, hk]
  rfl

/-- The namespaces close to new commands, and the delete goes on once they are quiet. -/
theorem exec_namespaceDelete_of_unlocked (hk : (namespacesNamed s e).any (fun p => namespaceLocked s p.1 p.2) = false) :
    exec (.namespaceDelete n) s = .next (deleteStep n e (closeNamespaces n (namespacesNamed s e) s)) := by
  show execNamespaceDelete n s = _
  simp only [execNamespaceDelete, h]
  rw [if_neg (not_not_intro ha), if_neg (by simp [hs]), hn, any_closing_of_open hl, hk]
  rfl

end

/-! ### Format NVM (R347, R654) -/

/-- Namespaces that a Format NVM closes: the one named, or every one under a secure erase (R347). -/
def formatted (s : State) (e : Entry) : List (Nat × Namespace) :=
  if formatSes e = 0 then namespacesNamed s e else s.nvme.namespaces

theorem mem_of_formatted {p : Nat × Namespace} (h : p ∈ formatted s e) : p ∈ s.nvme.namespaces := by
  unfold formatted namespacesNamed at h
  split at h
  · split at h
    · exact h
    · exact (List.mem_filter.mp h).1
  · exact h

/-- Status of a Format NVM. -/
def formatStatus (s : State) (e : Entry) : Nat :=
  firstStatus [allocatedStatus s e, failIf (decide (2 < formatSes e)) Status.invalidField,
    failIf (decide (3 < formatLbaf e) || e.sqe.cdw10.toNat / 32 % 8 != 0) Status.invalidFormat,
    protectedStatus s, failIf ((formatted s e).any fun p => p.2.closing.isSome) Status.formatInProgress,
    failIf ((formatted s e).any fun p => namespaceLocked s p.1 p.2) Status.accessDenied]

theorem exec_formatNvm_of_fetched (h : adminEntry n 0x80 s = some e) (hs : e.state = .fetched) : exec (.formatNvm n) s = .next (
    if formatStatus s e ≠ 0 then finishEntry n (formatStatus s e) 0 s
    else formatStep n e (closeNamespaces n (formatted s e) s)) := by
  show execFormatNvm n s = _
  simp only [execFormatNvm, h]
  exact congrArg _ (if_neg (by simp [hs]))

/-- With its namespaces open and not locked, and an LBA format that is supported, the erase setting and the mode decide. -/
theorem formatStatus_of_open (hn : allocatedStatus s e = 0) (hp : e.sqe.cdw10.toNat / 32 % 8 = 0) (hb : formatLbaf e ≤ 3)
    (hl : ∀ p ∈ s.nvme.namespaces, p.2.closing = none ∧ namespaceLocked s p.1 p.2 = false) :
    formatStatus s e = firstStatus [failIf (decide (2 < formatSes e)) Status.invalidField, 0, protectedStatus s, 0, 0] := by
  have opened : (formatted s e).any (fun p => p.2.closing.isSome) = false :=
    any_closing_of_open fun p hm => (hl p (mem_of_formatted hm)).1
  have unlocked : (formatted s e).any (fun p => namespaceLocked s p.1 p.2) = false :=
    List.any_eq_false.mpr fun p hm => by simp [(hl p (mem_of_formatted hm)).2]
  rw [formatStatus, hn, hp, opened, unlocked, decide_eq_false (Nat.not_lt.mpr hb)]
  rfl

/-! ### Attachment (R346) -/

/-- The CNTLID of a controller that exists names it (R302). -/
theorem controllerNamed_cntlid {c : Nat} (h : s.ctrls.contains c = true) : controllerNamed s (c + 1) = some c := by
  cases hf : controllerNamed s (c + 1) with
  | none =>
    have missed := List.find?_eq_none.mp hf c (List.contains_iff_mem.mp h)
    exact absurd (beq_self_eq_true (cntlid c)) missed
  | some d =>
    have same : d + 1 = c + 1 := eq_of_beq (List.find?_some (p := fun c' => cntlid c' == c + 1) hf)
    rw [Nat.succ.inj same]

/-- The identifiers that the controller list of an attachment holds. -/
def listedIds (b : Bytes) : List Nat := (List.range (field b 0 2)).map fun i => field b (2 + 2 * i) 2

/-- Status of an attachment to the controllers listed, of a namespace that exists. -/
def attachmentStatus (s : State) (e : Entry) (b : Bytes) (m : Namespace) : Nat :=
  firstStatus [failIf (decide (e.sqe.nsid = 0)) Status.invalidNamespace,
    failIf (decide (1 < e.sqe.cdw10.toNat % 16)) Status.invalidField,
    failIf (decide (field b 0 2 = 0) || decide (2047 < field b 0 2) || (listedIds b).any fun i => (controllerNamed s i).isNone)
      Status.controllerListInvalid,
    failIf m.closing.isSome Status.formatInProgress,
    failIf (e.sqe.cdw10.toNat % 16 == 0 && ((listedIds b).filterMap (controllerNamed s)).any m.attachedTo) Status.alreadyAttached,
    failIf (e.sqe.cdw10.toNat % 16 == 1 && ((listedIds b).filterMap (controllerNamed s)).any fun c => !m.attachedTo c)
      Status.notAttached]

section
variable {m : Namespace} {c : Nat} (b : Bytes)

theorem exec_namespaceAttachment_of_fetched (h : fetchedEntry n true 0x15 s = some e) (hm : s.nspace e.sqe.ns = some m) :
    exec (.namespaceAttachment n b) s = .next (
      if attachmentStatus s e b m ≠ 0 then finishEntry n (attachmentStatus s e b m) 0 s
      else finishEntry n 0 0 (each ((listedIds b).filterMap (controllerNamed s)).eraseDups
        (fun c => setAttached e.sqe.ns c (e.sqe.cdw10.toNat % 16 == 0)) s)) := by
  show execNamespaceAttachment n b s = _
  rw [execNamespaceAttachment, runEntry_of_fetched _ h]
  simp only [hm]
  rfl

variable (hc : s.ctrls.contains c = true) (h1 : field b 0 2 = 1) (hi : field b 2 2 = c + 1)
include h1 hi

theorem listedIds_of_one : listedIds b = [c + 1] := by
  rw [listedIds, h1]
  exact congrArg (fun i => [i]) hi

include hc

theorem listed_of_one : (listedIds b).filterMap (controllerNamed s) = [c] := by
  rw [listedIds_of_one b h1 hi, List.filterMap_cons, controllerNamed_cntlid hc, List.filterMap_nil]

/-- With one controller listed that exists, whether it has the namespace attached decides. -/
theorem attachmentStatus_of_one (hn : e.sqe.nsid ≠ 0) (ho : m.closing = none) (ha : e.sqe.cdw10.toNat % 16 ≤ 1) :
    attachmentStatus s e b m = firstStatus [failIf (e.sqe.cdw10.toNat % 16 == 0 && m.attachedTo c) Status.alreadyAttached,
      failIf (e.sqe.cdw10.toNat % 16 == 1 && !m.attachedTo c) Status.notAttached] := by
  rw [attachmentStatus, listed_of_one b hc h1 hi, listedIds_of_one b h1 hi, h1, ho, decide_eq_false hn,
    decide_eq_false (Nat.not_lt.mpr ha)]
  simp [controllerNamed_cntlid hc]

end

end

/-- Settles O36: each command by its checks. Which format a created namespace takes first is the model's choice (log entry 33). -/
theorem namespacesAreManaged : Obligations.NamespacesAreManaged := by
  unfold Obligations.NamespacesAreManaged
  intro s n e b
  refine ⟨fun h hs hy => ⟨fun ha => ?create, fun ha hn hl => ?delete⟩, fun h hs hn hp hb hl => ?format,
    fun m c h hm hn ho hc h1 hi => ?attach⟩
  case create =>
    refine ⟨exec_namespaceCreate_of_failed b h hs hy ha, exec_namespaceCreate_of_full b h hs hy ha, ?_⟩
    rintro m k hc hp rfl
    exact exec_namespaceCreate_of_placed b h hs hy ha hc hp
  case delete =>
    exact ⟨exec_namespaceDelete_of_locked h hs ha hn hl, exec_namespaceDelete_of_unlocked h hs ha hn hl⟩
  case format =>
    rw [exec_formatNvm_of_fetched h hs, formatStatus_of_open hn hp hb hl]
    refine ⟨fun hx hm => ?begins, fun hx hm => ?readOnly, fun hx => ?setting⟩
    case begins =>
      rw [decide_eq_false (Nat.not_lt.mpr hx), protectedStatus_of_writable hm]
      rfl
    case readOnly =>
      rw [decide_eq_false (Nat.not_lt.mpr hx), protectedStatus_of_readOnly hm]
      rfl
    case setting =>
      rw [decide_eq_true hx]
      rfl
  case attach =>
    have status := attachmentStatus_of_one (e := e) (m := m) b hc h1 hi hn ho
    rw [exec_namespaceAttachment_of_fetched b h hm, listed_of_one b hc h1 hi]
    refine ⟨fun ha => ?on, fun ha => ?off⟩
    · rw [status (by omega), ha]
      exact ⟨fun hx => by rw [hx]; rfl, fun hx => by rw [hx]; rfl⟩
    · rw [status (by omega), ha]
      exact ⟨fun hx => by rw [hx]; rfl, fun hx => by rw [hx]; rfl⟩

end Sys2Proof.Machine
end

section
/-!
PROOFS. The translation tier: stripes, stay pages and stay repair, map pages, checkpoints, folds and streams.
-/

namespace Sys2Proof.Machine

/-! ### Stripes (R378 to R380, R425) -/

theorem exec_stripePadAge_of_filling {s : State} {n : Nat} (hd : s.due .stripePad 0 = true) (hb : s.builds = true)
    (hn : s.shroud.filling_host = some n) :
    exec .stripePadAge s = .next (settleMedia (padStripe n (disarm .stripePad 0 s))) := by
  show execStripePadAge s = _
  rw [execStripePadAge, if_pos ⟨hd, hb⟩, hn]

/-! ### Stay pages (R424, R432) -/

theorem exec_stayPageDurable_of_done {s : State} {g : StayPage}
    (hg : s.shroud.pages.find? (fun p => p.issued && p.done0 && p.done1) = some g) :
    exec .stayPageDurable s = .next (driveShutdown (settleMedia
      (releaseDurable { s with shroud.pages := s.shroud.pages.filter fun p => p != g }))) := by
  show execStayPageDurable s = _
  rw [execStayPageDurable, hg]

/-! ### Stay repair (R434) -/

/-- The state without the stay pages and the timers. -/
def State.unpaged (s : State) : State := { s with timers := [], shroud.pages := [] }

/-- A record that goes into a stay page changes no more than the pages and the timer of their flush. -/
theorem pageRecord_unpaged (q : Nat) (s : State) : (pageRecord q s).unpaged = s.unpaged := by
  unfold pageRecord
  split <;> rfl

/-- Stay 0 survives, so that stay 1 is the one repaired. -/
def survivesFirst (s : State) : Bool := match s.shroud.stay0 with | some x => x.good | none => false

/-- Die `d` holds every retained record of the survivor, and the pair has its next generation. -/
def pairRenewed (d : Nat) (s : State) : State :=
  let t := setStay (survivesFirst s) { die := d } s
  { t with
    shroud.repairing := none
    shroud.pages := []
    shroud.journal := t.shroud.journal.map fun r =>
      if (if survivesFirst s then r.durable0 else r.durable1) then { r with durable0 := true, durable1 := true } else r
    str.status.stay_repair := false
    shroud.pair_gen := t.shroud.pair_gen + 1
    str.stayGen := BitVec.ofNat 32 (s.shroud.pair_gen + 1) }

/-- The renewed pair, with the records that are not yet durable in a page again. -/
def stayRepaired (d : Nat) (s : State) : State :=
  each (((pairRenewed d s).shroud.journal.filter fun r => !r.durable).map StayRecord.seq) pageRecord (pairRenewed d s)

/-- What the pages do not show is that of the renewed pair. -/
theorem stayRepaired_keeps {α : Type} {f : State → α} (hf : ∀ s, f s.unpaged = f s) (d : Nat) (s : State) :
    f (stayRepaired d s) = f (pairRenewed d s) := by
  have same : (stayRepaired d s).unpaged = (pairRenewed d s).unpaged := each_keeps pageRecord_unpaged _ _
  rw [← hf, same, hf]

theorem stayRepaired_stayGen (d : Nat) (s : State) :
    (stayRepaired d s).str.stayGen = BitVec.ofNat 32 (s.shroud.pair_gen + 1) :=
  stayRepaired_keeps (f := fun t => t.str.stayGen) (fun _ => rfl) d s

theorem setStay_pair_gen (b : Bool) (x : Stay) (s : State) : (setStay b x s).shroud.pair_gen = s.shroud.pair_gen := by
  cases b <;> rfl

theorem setStay_journal (b : Bool) (x : Stay) (s : State) : (setStay b x s).shroud.journal = s.shroud.journal := by
  cases b <;> rfl

theorem stayRepaired_pair_gen (d : Nat) (s : State) : (stayRepaired d s).shroud.pair_gen = s.shroud.pair_gen + 1 :=
  (stayRepaired_keeps (f := fun t => t.shroud.pair_gen) (fun _ => rfl) d s).trans
    (congrArg (· + 1) (setStay_pair_gen _ _ s))

/-- The die is that of the stay that did not survive. -/
theorem pairRenewed_die (d : Nat) (s : State) :
    (pairRenewed d s).shroud.stay0.map Stay.die = some d ∨ (pairRenewed d s).shroud.stay1.map Stay.die = some d := by
  cases h : survivesFirst s with
  | false => exact .inl (by rw [pairRenewed, h]; rfl)
  | true => exact .inr (by rw [pairRenewed, h]; rfl)

theorem stayRepaired_die (d : Nat) (s : State) :
    (stayRepaired d s).shroud.stay0.map Stay.die = some d ∨ (stayRepaired d s).shroud.stay1.map Stay.die = some d := by
  have first := stayRepaired_keeps (f := fun t => t.shroud.stay0) (fun _ => rfl) d s
  have second := stayRepaired_keeps (f := fun t => t.shroud.stay1) (fun _ => rfl) d s
  rw [first, second]
  exact pairRenewed_die d s

/-- The repair marks records durable and neither drops nor renumbers one. -/
theorem stayRepaired_journal (d : Nat) (s : State) :
    (stayRepaired d s).shroud.journal.map StayRecord.seq = s.shroud.journal.map StayRecord.seq := by
  rw [stayRepaired_keeps (f := fun t => t.shroud.journal) (fun _ => rfl) d s, pairRenewed, List.map_map, setStay_journal]
  refine List.map_congr_left fun r _ => ?_
  exact (apply_ite StayRecord.seq _ _ _).trans (ite_self _)

theorem exec_stayRepairDone_of_repairing {s : State} {d : Nat} (h : s.shroud.repairing = some d) :
    exec .stayRepairDone s = .next (settleMedia (releaseDurable (writeRedPage (issueStayPage
      (appendBuilt 7 (stayRepaired d s).str.stayGen.toNat (stayRepaired d s)))))) := by
  show execStayRepairDone s = _
  rw [stayRepaired_stayGen, execStayRepairDone, h]
  rfl

/-! ### Map pages (R376, R377, R391, R403) -/

/-- A page that was waited for is in the cache. -/
def pageArrived (p : Nat) (c : CachedPage) (s : State) : State :=
  { s with engine.cache := s.engine.cache.put p { c with waiting := false } }

/-- Speculated units whose pages are all in the cache are settled (R391). -/
def specsSettled (s : State) : State := each (s.engine.specs.filter fun x => (missing s x.unit).isEmpty) settleSpec s

theorem exec_mapPageArrival_of_waiting {s : State} {p : Nat} {c : CachedPage} (hc : s.engine.cache.find p = some c)
    (hw : c.waiting = true) (ho : ∀ o ∈ s.media.ops, o.2.owner ≠ .mapPage p)
    (hr : ∀ r ∈ s.redun.recons, r.2.use ≠ .mapPage p) :
    exec (.mapPageArrival p) s = .next (settleMedia (each (specsSettled (pageArrived p c s)).nvme.tracker (fun x s =>
      if x.2.state = .overlap then s else readUnits x.1 (waitingUnits s x.1 x.2) s) (specsSettled (pageArrived p c s)))) := by
  have unread : (s.media.ops.vals.any fun o => o.owner == .mapPage p) = false := by
    simpa [Tab.vals] using fun i o hm => ho (i, o) hm
  have whole : (s.redun.recons.vals.any fun r => r.use == .mapPage p) = false := by
    simpa [Tab.vals] using fun i r hm => hr (i, r) hm
  show execMapPageArrival p s = _
  simp only [execMapPageArrival, hc, unread, whole]
  exact if_pos ⟨hw, rfl, rfl⟩

theorem exec_mapPageWritebackAge_of_due {s : State} {p : Nat} {c : CachedPage} (hd : s.due .mapWriteback p = true)
    (hw : s.works = true) (hc : s.engine.cache.find p = some c) :
    exec (.mapPageWritebackAge p) s = .next (
      if c.dirty then settleMedia (writeBack p (disarm .mapWriteback p s)) else disarm .mapWriteback p s) := by
  show execMapPageWritebackAge p s = _
  simp only [execMapPageWritebackAge]
  rw [if_pos ⟨hd, hw⟩, disarm_engine, Tab.look, hc, Option.getD_some, apply_ite Host.Outcome.next]

/-! ### Checkpoints (R394, R397, R433) -/

/-- The checkpoint under way becomes the newest complete one. -/
def checkpointEnded (c : Checkpoint) (s : State) : State := { s with
  engine.current := none
  engine.complete := (c :: s.engine.complete).take 2
  engine.full_scan := false
  map.status.ckpt_busy := false
  map.status.ckpt_unanch := c.begin_stamp.unanch
  map.status.horizon_unanch := c.horizon_unanch
  map.ckptStamp := c.begin_stamp.stamp
  map.ckptHorizon := BitVec.ofNat 64 c.horizon }

/-- The completion on record: a health page, a type 0x05 record, and a journal without what no scan needs (R433). -/
def checkpointNoted (c : Checkpoint) (s : State) : State :=
  pruneJournal (appendBuilt 5 (checkpointFirst s c.begin_stamp.stamp.toNat) (writeHealthPage (checkpointEnded c s)))

theorem exec_checkpointComplete_of_written {s : State} {c : Checkpoint} (hc : s.engine.current = some c)
    (hl : c.units_left = 0) (ho : checkpointOpen s c.begin_stamp.stamp.toNat = false) :
    exec .checkpointComplete s = .next (driveShutdown (settleMedia (releaseDurable
      (if (checkpointNoted c s).engine.queued then checkpointTrigger (checkpointNoted c s) else checkpointNoted c s)))) := by
  show execCheckpointComplete s = _
  simp only [execCheckpointComplete, hc]
  exact if_pos ⟨hl, by rw [ho]; rfl⟩

/-- The map engine and its registers. -/
def State.mapSeen (s : State) : MapEngine × MapRegs := (s.engine, s.map)

theorem takeStamp_mapSeen (s : State) : (takeStamp s).2.mapSeen = s.mapSeen :=
  (takeStamp_delivered s).keeps fun _ => rfl

theorem writeHealthPage_mapSeen (s : State) : (writeHealthPage s).mapSeen = s.mapSeen := takeStamp_mapSeen s

theorem setStay_mapSeen (b : Bool) (x : Stay) (s : State) : (setStay b x s).mapSeen = s.mapSeen := by
  cases b <;> rfl

theorem moveStay_mapSeen (b : Bool) (n : Nat) (x : Stay) (s : State) : (moveStay b n x s).mapSeen = s.mapSeen :=
  setStay_mapSeen ..

theorem stayRoom_mapSeen (b : Bool) (s : State) : (stayRoom b s).mapSeen = s.mapSeen := by
  unfold stayRoom
  split
  · refine ite_shows (f := State.mapSeen) rfl ?_
    split
    · exact moveStay_mapSeen ..
    · rfl
  · rfl

theorem stayProgram_mapSeen (b : Bool) (s : State) : (stayProgram b s).mapSeen = s.mapSeen := by
  unfold stayProgram
  dsimp only
  split
  · exact stayRoom_mapSeen b s
  · exact (setStay_mapSeen ..).trans (stayRoom_mapSeen b s)

theorem issueStayPage_mapSeen (s : State) : (issueStayPage s).mapSeen = s.mapSeen := by
  unfold issueStayPage
  exact ite_shows (f := State.mapSeen) rfl ((stayProgram_mapSeen ..).trans (stayProgram_mapSeen ..))

theorem pageRecord_mapSeen (q : Nat) (s : State) : (pageRecord q s).mapSeen = s.mapSeen :=
  show (pageRecord q s).unpaged.mapSeen = s.unpaged.mapSeen by rw [pageRecord_unpaged]

theorem appendStay_mapSeen (type aux serial : Nat) (st : Stamped) (l : List (Nat × Nat × Nat × Bool)) (s : State) :
    (appendStay type aux serial st l s).mapSeen = s.mapSeen := by
  have turned (p : Prop) [Decidable p] (t : State) : (if p then issueStayPage t else t).mapSeen = t.mapSeen :=
    ite_shows (issueStayPage_mapSeen t) rfl
  unfold appendStay
  exact (turned ..).trans ((pageRecord_mapSeen ..).trans (turned ..))

theorem pruneJournal_mapSeen (s : State) : (pruneJournal s).mapSeen = s.mapSeen := by
  unfold pruneJournal
  split <;> rfl

/-- Putting the completion on record changes nothing of the map engine. -/
theorem checkpointNoted_mapSeen (c : Checkpoint) (s : State) : (checkpointNoted c s).mapSeen = (checkpointEnded c s).mapSeen :=
  calc (checkpointNoted c s).mapSeen
      = (appendBuilt 5 (checkpointFirst s c.begin_stamp.stamp.toNat) (writeHealthPage (checkpointEnded c s))).mapSeen :=
        pruneJournal_mapSeen _
    _ = (takeStamp (writeHealthPage (checkpointEnded c s))).2.mapSeen := appendStay_mapSeen ..
    _ = (writeHealthPage (checkpointEnded c s)).mapSeen := takeStamp_mapSeen _
    _ = (checkpointEnded c s).mapSeen := writeHealthPage_mapSeen _

/-! ### Folds (R370) -/

theorem exec_foldAge_of_foldable {s : State} {r a : Nat} {b : List Loc} (hd : s.due .fold r = true)
    (hm : s.mode = .run ∨ s.mode = .reduced) (he : s.map.cfg.fold_enable = true)
    (ht : s.engine.table.find r = some (.fine a b)) (hl : ∀ x ∈ reefEntries s r, ∃ a, x = .flash a) :
    exec (.foldAge r) s = .next (each (List.range 16) (fun i s' => match (reefEntries s r).getD i .unmapped with
      | .flash a => readCopy s.nextStamp (16 * r + i) a s'
      | _ => s') { disarm .fold r s with engine.folding := s.engine.folding ++ [r] }) := by
  have written : ((reefEntries s r).all fun x => match x with | .flash _ => true | _ => false) = true := by
    refine List.all_eq_true.mpr fun x hx => ?_
    obtain ⟨a, rfl⟩ := hl x hx
    rfl
  show execFoldAge r s = _
  unfold execFoldAge
  extract_lets l fine all on k t
  have allows : (s.due .fold r && on && fine && all && s.map.cfg.fold_enable) = true := by
    have hon : on = true := by rcases hm with h | h <;> simp only [on, h]
    have hfine : fine = true := by simp only [fine, ht]
    have hall : all = true := written
    rw [hd, hon, hfine, hall, he]
    rfl
  exact if_pos allows

/-! ### The tier (R370 to R434) -/

/-- Settles O38: each row by what it finds; the repair by the renewed pair, the checkpoint by what its completion leaves of the
map engine. That a stay moves to its new die in one step (log entry 119) and that the redundancy page written with it is durable in
that step (log entry 31) are the model's choices. -/
theorem translationTierAdvances : Obligations.TranslationTierAdvances := by
  unfold Obligations.TranslationTierAdvances
  intro s
  refine ⟨fun n => exec_stripePadAge_of_filling, fun n hw => if_pos hw, fun hd hm => if_pos ⟨hd, hm⟩,
    fun g => exec_stayPageDurable_of_done, fun d hr => ?repair, fun p c hc hw ho hr => ?arrival,
    fun p c hd hw hc => ?writeback, fun hd hw => if_pos ⟨hd, hw⟩, fun c hc hl ho => ?checkpoint,
    fun r a b => exec_foldAge_of_foldable, fun n hd => if_pos hd⟩
  case repair =>
    exact ⟨stayRepaired d s, exec_stayRepairDone_of_repairing hr,
      stayRepaired_keeps (f := fun t => t.shroud.repairing) (fun _ => rfl) d s,
      stayRepaired_keeps (f := fun t => t.str.status.stay_repair) (fun _ => rfl) d s,
      stayRepaired_pair_gen d s, stayRepaired_stayGen d s, stayRepaired_die d s, stayRepaired_journal d s⟩
  case arrival =>
    exact ⟨pageArrived p c s, specsSettled (pageArrived p c s), rfl, rfl, exec_mapPageArrival_of_waiting hc hw ho hr⟩
  case writeback =>
    rw [exec_mapPageWritebackAge_of_due hd hw hc]
    exact ⟨fun h => congrArg _ (if_pos h), fun h => congrArg _ (if_neg (Bool.eq_false_iff.mp h))⟩
  case checkpoint =>
    obtain ⟨engine, registers⟩ := Prod.mk.inj (checkpointNoted_mapSeen c s)
    refine ⟨checkpointNoted c s, exec_checkpointComplete_of_written hc hl ho, ?_⟩
    rw [engine, registers]
    exact ⟨rfl, rfl, rfl, rfl, rfl, rfl⟩

end Sys2Proof.Machine
end

section
/-!
PROOFS. Reclaim: counts, victims, erases, idle and windows, and the walk and the cut-over of redundancy control.
-/

namespace Sys2Proof.Machine

/-! ### Counts (R456) -/

theorem exec_countsReady_of_uncounted {s : State}
    (hm : s.mode = .run ∨ s.mode = .reduced ∨ s.mode = .patrol ∨ s.mode = .readOnly)
    (hc : s.rcl.status.counts_ready = false) :
    exec .countsReady s = .next (settleMedia (sweepGroups { rebuildCounts s with rcl.status.counts_ready := true })) := by
  show execCountsReady s = _
  rcases hm with h | h | h | h <;> (simp only [execCountsReady, h, hc]; rfl)

/-! ### Victims (R464, R466) -/

/-- The blocks of a chosen group leave the queue, and those that are not retired become victims. -/
def groupTaken (g : List Nat) (s : State) : State :=
  each g (fun k s => match (s.blockAt k).state with
    | .retired => onBlock k (fun b => { b with queued := none }) s
    | _ => onBlock k (fun b => { b with state := .victim, queued := none }) s) s

/-- A group of a class is a victim from a stamp on. -/
def victimTaken (st : Stamped) (cls : Nat) (g : List Nat) (s : State) : State := { groupTaken g s with
  reclaim.victims := (groupTaken g s).reclaim.victims ++ [{ blocks := g, cls := cls, chosen := st }]
  rcl.status.last_class := BitVec.ofNat 4 cls }

/-- Units of a group that the map still holds there, with their addresses. -/
def groupUnits (s : State) (g : List Nat) : List (Nat × Nat) :=
  ((stripesOf s g).flatMap fun p => wantedUnits s p.2).filter fun p => g.contains (puaKey p.2)

/-- Map pages that the directory still holds in a group. -/
def groupPages (s : State) (g : List Nat) : List Nat :=
  (stripesOf s g).flatMap fun p => (List.range p.2.units.length).filterMap fun u => match p.2.units.getD u .empty with
    | .mapPage page _ => if s.engine.directory.find page = some (unitAddress s p.2 u) then some page else none
    | _ => none

/-- The units of a group are read to be copied, and its map pages are to be written again. -/
def groupCopied (st : Stamped) (g : List Nat) (s : State) : State :=
  each (groupPages s g) dirtyPage (each (groupUnits s g) (fun p => readCopy st.stamp.toNat p.1 p.2) s)

theorem exec_reclaimVictimSelect_of_none {s : State} (hw : s.works = true) (hl : s.reclaim.victims.length < 2)
    (hn : nextVictim s = none) : exec .reclaimVictimSelect s = .next s := by
  show execReclaimVictimSelect s = _
  rw [execReclaimVictimSelect, if_pos ⟨hw, hl⟩, hn]

theorem exec_reclaimVictimSelect_of_some {s : State} {k : Nat} {g : List Nat} (hw : s.works = true)
    (hl : s.reclaim.victims.length < 2) (hn : nextVictim s = some (k, g)) :
    exec .reclaimVictimSelect s = .next (settleMedia (sweepGroups
      (groupCopied (takeStamp s).1 g (victimTaken (takeStamp s).1 k g (takeStamp s).2)))) := by
  show execReclaimVictimSelect s = _
  rw [execReclaimVictimSelect, if_pos ⟨hw, hl⟩, hn]
  rfl

/-- The victims, the registers of reclaim and those of the map. -/
def State.victimSeen (s : State) : List Victim × RclRegs × MapRegs := (s.reclaim.victims, s.rcl, s.map)

/-- A further victim, and its class in the register of reclaim. -/
def addVictim (v : Victim) (x : List Victim × RclRegs × MapRegs) : List Victim × RclRegs × MapRegs :=
  (x.1 ++ [v], { x.2.1 with status.last_class := BitVec.ofNat 4 v.cls }, x.2.2)

theorem takeStamp_victimSeen (s : State) : (takeStamp s).2.victimSeen = s.victimSeen :=
  (takeStamp_delivered s).keeps fun _ => rfl

theorem groupTaken_victimSeen (g : List Nat) (s : State) : (groupTaken g s).victimSeen = s.victimSeen :=
  each_keeps (f := State.victimSeen) (fun k s => by split <;> rfl) g s

theorem victimTaken_victimSeen (st : Stamped) (k : Nat) (g : List Nat) (s : State) :
    (victimTaken st k g s).victimSeen = addVictim { blocks := g, cls := k, chosen := st } s.victimSeen :=
  congrArg (addVictim _) (groupTaken_victimSeen g s)

theorem readCopy_victimSeen (n g a : Nat) (s : State) : (readCopy n g a s).victimSeen = s.victimSeen := rfl

theorem readCopies_victimSeen (n : Nat) (l : List (Nat × Nat)) (s : State) :
    (each l (fun p => readCopy n p.1 p.2) s).victimSeen = s.victimSeen := by
  refine each_keeps (fun p s => ?_) l s
  exact readCopy_victimSeen n p.1 p.2 s

/-- A map that is not paged has no page to mark. -/
theorem each_dirtyPage_of_unpaged {s : State} (l : List Nat) (h : s.map.cfg.paged = false) : each l dirtyPage s = s := by
  have unmarked (p : Nat) : dirtyPage p s = s := if_neg (by rw [h]; decide)
  unfold each
  induction l with
  | nil => rfl
  | cons p l ih => rw [List.foldl_cons, unmarked, ih]

theorem groupCopied_victimSeen {s : State} (st : Stamped) (g : List Nat) (h : s.map.cfg.paged = false) :
    (groupCopied st g s).victimSeen = s.victimSeen := by
  have read := readCopies_victimSeen st.stamp.toNat (groupUnits s g) s
  have unpaged := (congrArg (fun x => x.2.2.cfg.paged) read).trans h
  rw [groupCopied, each_dirtyPage_of_unpaged _ unpaged, read]

/-- With a map that is not paged, the reading of a chosen group leaves it as the newest victim. -/
theorem victimCopied_victimSeen {s : State} (st : Stamped) (k : Nat) (g : List Nat) (h : s.map.cfg.paged = false) :
    (groupCopied st g (victimTaken st k g (takeStamp s).2)).victimSeen
      = addVictim { blocks := g, cls := k, chosen := st } s.victimSeen := by
  have taken : (victimTaken st k g (takeStamp s).2).victimSeen = addVictim { blocks := g, cls := k, chosen := st } s.victimSeen :=
    (victimTaken_victimSeen ..).trans (congrArg _ (takeStamp_victimSeen s))
  have unpaged := (congrArg (fun x => x.2.2.cfg.paged) taken).trans h
  exact (groupCopied_victimSeen st g unpaged).trans taken

/-! ### Erases (R460, R462, R475) -/

theorem exec_eraseIssue_of_released {s : State} {k : Nat} (hw : s.works = true) (hr : (s.blockAt k).state = .released)
    (hk : 16 ≤ k % 4096) (hu : unreferenced s k = true) (hd : s.rcl.status.dtwin = false) :
    exec (.eraseIssue k) s = .next (addOp
      { kind := .erase, owner := .erase, die := k / 4096, block := k % 4096, stamp := (s.blockAt k).release_stamp }
      (onBlock k (fun b => { b with state := .erasing }) s)) :=
  if_pos ⟨hw, hr, hk, hu, by rw [hd]; rfl⟩

theorem exec_eraseIssue_in_window {s : State} (k : Nat) (hd : s.rcl.status.dtwin = true) :
    exec (.eraseIssue k) s = .next s := by
  refine if_neg fun ⟨_, _, _, _, h⟩ => ?_
  rw [hd] at h
  cases h

theorem exec_eraseComplete_of_running {s : State} {i : Nat} {o : NandOp} (ok : Bool) (ho : s.op i = some o)
    (hk : o.kind = .erase) (hr : o.state = .running ∨ o.state = .suspending) (hd : o.overdue = false) :
    exec (.eraseComplete i ok) s = .next (settleMedia (peStats
      (if ok then eraseDone (blockKey o.die o.block) (freeLun i o.die (dropOp i s))
        else eraseFailed (blockKey o.die o.block) (freeLun i o.die (dropOp i s))))) := by
  show execEraseComplete i ok s = _
  rw [execEraseComplete, ho]
  simp only [if_pos (And.intro hk hr), hd]
  rfl

/-! ### Idle and windows (R468, R475) -/

theorem exec_idleDetect_of_due {s : State} (hd : s.due .idle 0 = true) (h0 : outstanding s 0 = false)
    (h1 : outstanding s 1 = false) :
    exec .idleDetect s = .next { disarm .idle 0 s with rcl.status.idle := true } :=
  if_pos ⟨hd, by rw [h0]; rfl, by rw [h1]; rfl⟩

/-! ### The walk of a rebuild (R548, R549) -/

/-- The walk of a die has come to a stripe. -/
def walkedTo (d n : Nat) (s : State) : State := { (takeStamp s).2 with
  redun.walk := some (d, n)
  red.rebuildProgress.walked := satAdd (takeStamp s).2.red.rebuildProgress.walked 1 }

/-- A visit of the walk of a die: the stripe found is rebuilt, or the walk ends once nothing is read for it. -/
def walkVisit (d : Nat) (s : State) : Option (Nat × Stripe) → State
  | none => if rebuilding s = 0 then settleMedia (endWalk d s) else s
  | some (n, x) => settleMedia (each (rebuildWanted (walkedTo d n s) x)
      (fun w => beginRecon (takeStamp s).1.stamp.toNat w.1 w.2) (walkedTo d n s))

theorem exec_rebuildStripeVisit_of_walk {s : State} {d k : Nat} (hm : s.mode = .run ∨ s.mode = .reduced)
    (hw : s.redun.walk = some (d, k)) (hd : (s.die d).state = 3)
    (hr : rebuilding s < s.red.cfg2.rebuild_depth.toNat) :
    exec .rebuildStripeVisit s = .next (walkVisit d s ((stripesOn s d).find? fun p => decide (k < p.1))) := by
  have from_k : walkNext s = some (d, k) := by rw [walkNext, hw]
  have walks : s.redun.walk.isSome = true := by rw [hw]; rfl
  show execRebuildStripeVisit s = _
  rcases hm with h | h <;>
  · simp only [execRebuildStripeVisit, h, from_k, walks, hd, Nat.not_le.mpr hr]
    cases (stripesOn s d).find? fun p => decide (k < p.1) with
    | none => exact (apply_ite Host.Outcome.next _ _ _).symm
    | some p => rfl

/-! ### The cut-over of a reshape (R559) -/

/-- What the writing of a redundancy page changes beyond the page. -/
theorem writeRedPage_delivered (s : State) : Delivered s (writeRedPage s) := by
  unfold writeRedPage
  dsimp only
  split
  · exact (takeStamp_delivered s).trans rfl
  · exact Delivered.trans rfl (request_delivered ..)

/-- Shape `i` is in force, and the relocation from the shape before it begins. -/
def shapeTaken (i : Nat) (s : State) : State := { s with
  redun.cutover := none
  str.status.shape := BitVec.ofNat 2 i
  red.status.from_shape := BitVec.ofNat 2 s.shapeNow
  red.status.reshape := 1 }

/-- The cut-over is on a redundancy page with its stamp. -/
def cutOver (i : Nat) (s : State) : State :=
  let p := writeRedPage (shapeTaken i s)
  let t := (takeStamp p).2
  { t with redun.page := t.redun.page.map fun r => { r with
      cut := (takeStamp p).1, in_force_entry := some (t.shape i), from_entry := some (s.shape s.shapeNow) } }

theorem exec_reshapeCutover_of_ready {s : State} {i : Nat} (h : s.redun.cutover = some i) :
    exec .reshapeCutover s = .next (settleMedia (recount (cutOver i s))) := by
  show execReshapeCutover s = _
  rw [execReshapeCutover, h]
  rfl

theorem cutOver_delivered (i : Nat) (s : State) : Delivered (shapeTaken i s) (cutOver i s) :=
  ((writeRedPage_delivered _).trans (takeStamp_delivered _)).trans rfl

/-! ### Reclaim and redundancy control (R456 to R475, R548, R559) -/

/-- Settles O39: each row by what it finds; a victim by what its copies leave of the victims and the registers, the
cut-over by what the writing of its redundancy page leaves. That this page is durable in that step (log entry 31) is the model's
choice. -/
theorem reclaimAdvances : Obligations.ReclaimAdvances := by
  unfold Obligations.ReclaimAdvances
  intro s
  refine ⟨exec_countsReady_of_uncounted,
    fun hw hl => ⟨exec_reclaimVictimSelect_of_none hw hl, fun k g hn => ?victim⟩,
    fun k => exec_eraseIssue_of_released, exec_eraseIssue_in_window,
    fun i o ho hk hr hd => ⟨exec_eraseComplete_of_running true ho hk hr hd, exec_eraseComplete_of_running false ho hk hr hd⟩,
    exec_idleDetect_of_due, fun hd => if_pos hd, fun d k hm hw hd hr => ⟨fun n x hx => ?visit, fun hn h0 => ?ends⟩,
    fun i hc => ?cutover⟩
  case victim =>
    refine ⟨_, exec_reclaimVictimSelect_of_some hw hl hn, fun hp => ?_⟩
    have seen := victimCopied_victimSeen (takeStamp s).1 k g hp
    exact ⟨congrArg Prod.fst seen, congrArg (fun x => x.2.1.status.last_class) seen⟩
  case visit =>
    refine ⟨walkedTo d n s, rfl, ?_⟩
    rw [exec_rebuildStripeVisit_of_walk hm hw hd hr, hx]
    rfl
  case ends =>
    rw [exec_rebuildStripeVisit_of_walk hm hw hd hr, hn]
    exact congrArg _ (if_pos h0)
  case cutover =>
    have kept := cutOver_delivered i s
    exact ⟨cutOver i s, exec_reshapeCutover_of_ready hc,
      kept.keeps (f := fun t => t.redun.cutover) fun _ => rfl,
      kept.keeps (f := fun t => t.str.status.shape) fun _ => rfl,
      kept.keeps (f := fun t => t.red.status.reshape) fun _ => rfl,
      kept.keeps (f := fun t => t.red.status.from_shape) fun _ => rfl⟩

end Sys2Proof.Machine
end

section
/-!
PROOFS. Soundness of the state: every command and the idle cycle keep it, and the state after reset has it.
-/

namespace Sys2Proof.Machine

/-! ### Every step keeps the state sound (R745, R753, R757 to R759) -/

/-- The meaning of every command keeps soundness, each by the law of its own meaning. -/
theorem exec_sound {q : List Instr} {s : State} (h : Sound q s) (c : Instr) : SoundOut q (exec c s) :=
  match c with
  | .coldPowerOn => execColdPowerOn_sound h
  | .railPowerUpStep => execRailPowerUpStep_sound h
  | .railPowerGoodTimeout _ => execRailPowerGoodTimeout_sound h
  | .railRetryTimer => execRailRetryTimer_sound h
  | .powerOnResetRelease _ => execPowerOnResetRelease_sound h
  | .strapChangeDetected _ => execStrapChangeDetected_sound h
  | .vinFallDark => execVinFallDark_sound h
  | .vinOvervoltage => execVinOvervoltage_sound h
  | .powerLossDetected => execPowerLossDetected_sound h
  | .pwrdisAssert => execPwrdisAssert_sound h
  | .pwrdisDeassert => execPwrdisDeassert_sound h
  | .spillRecordWritten _ => execSpillRecordWritten_sound h
  | .flushEnd => execFlushEnd_sound h
  | .bankBelowVmin => execBankBelowVmin_sound h
  | .vinReturnInFlush => execVinReturnInFlush_sound h
  | .vinReturnInHold => execVinReturnInHold_sound h
  | .railFault _ => execRailFault_sound h
  | .pairEnableStagger => execPairEnableStagger_sound h
  | .npgSettled _ => execNpgSettled_sound h
  | .npgTimeout _ => execNpgTimeout_sound h
  | .npgLoss _ => execNpgLoss_sound h
  | .pairRetryTimer _ => execPairRetryTimer_sound h
  | .bankTargetReached => execBankTargetReached_sound h
  | .bankChargeRestart => execBankChargeRestart_sound h
  | .bankOvervoltage => execBankOvervoltage_sound h
  | .bankTestInterval => execBankTestInterval_sound h
  | .bankMeasureDone _ _ => execBankMeasureDone_sound h
  | .allowanceUpdate _ _ => execAllowanceUpdate_sound h
  | .chargeTimeout => execChargeTimeout_sound h
  | .ledgerAdmit => execLedgerAdmit_sound h
  | .starvationCeilingReached _ => execStarvationCeilingReached_sound h
  | .holdResetRelease => execHoldResetRelease_sound h
  | .domainRelease _ => execDomainRelease_sound h
  | .clockNotReady _ => execClockNotReady_sound h
  | .clockLoss _ => execClockLoss_sound h
  | .pllLockRetry _ _ => execPllLockRetry_sound h
  | .startStepComplete _ => execStartStepComplete_sound h
  | .perst0Assert => execPerst0Assert_sound h
  | .perst1Assert => execPerst1Assert_sound h
  | .nvmSubsystemReset _ _ => execNvmSubsystemReset_sound h
  | .kl0RstAssert => execKl0RstAssert_sound h
  | .l4ReachAsserted => execL4ReachAsserted_sound h
  | .watchdogStage1 _ => execWatchdogStage1_sound h
  | .watchdogStage2 _ => execWatchdogStage2_sound h
  | .bootArrayRequest => execBootArrayRequest_sound h
  | .bootArrayPulseDone _ => execBootArrayPulseDone_sound h
  | .recoveryImage _ => execRecoveryImage_sound h
  | .ptmDialogInterval => execPtmDialogInterval_sound h
  | .ptmResponse _ => execPtmResponse_sound h
  | .ptmResponseTimeout => execPtmResponseTimeout_sound h
  | .holdoverExpiry => execHoldoverExpiry_sound h
  | .clampEnd => execClampEnd_sound h
  | .reservationWriteDone => execReservationWriteDone_sound h
  | .campIssueRead _ => execCampIssueRead_sound h
  | .campRedialog => execCampRedialog_sound h
  | .campEpochOffsetWrite _ => execCampEpochOffsetWrite_sound h
  | .wideRegisterLowerRead _ _ => execWideRegisterLowerRead_sound h
  | .registerWrite _ _ _ _ => execRegisterWrite_sound h
  | .actLedTimeout => execActLedTimeout_sound h
  | .tapReset => execTapReset_sound h
  | .extest => execExtest_sound h
  | .idcode => execIdcode_sound h
  | .samplePreload _ => execSamplePreload_sound h
  | .clampTap => execClampTap_sound h
  | .highz => execHighz_sound h
  | .bypass => execBypass_sound h
  | .basicManagementRead _ => execBasicManagementRead_sound h
  | .readNvmeMiDataStructure _ _ => execReadNvmeMiDataStructure_sound h
  | .configurationGet _ _ => execConfigurationGet_sound h
  | .configurationSet _ _ _ => execConfigurationSet_sound h
  | .subsystemHealthStatusPoll _ _ => execSubsystemHealthStatusPoll_sound h
  | .controllerHealthStatusPoll _ _ _ => execControllerHealthStatusPoll_sound h
  | .tunnelledAdminCommand _ _ _ => execTunnelledAdminCommand_sound h
  | .nvmeMiSubsystemReset _ => execNvmeMiSubsystemReset_sound h
  | .nvmeMiInvalidOpcode _ o => execNvmeMiInvalidOpcode_sound (_opcode := o) h
  | .manifestTransfer _ _ => execManifestTransfer_sound h
  | .manifestInstall _ => execManifestInstall_sound h
  | .hotResetOrLinkDown _ _ => execHotResetOrLinkDown_sound h
  | .busMasterEnableClear _ => execBusMasterEnableClear_sound h
  | .busMasterEnableSet _ => execBusMasterEnableSet_sound h
  | .initiateFlr _ => execInitiateFlr_sound h
  | .flrComplete _ => execFlrComplete_sound h
  | .d3hotEntry _ => execD3hotEntry_sound h
  | .configWrite _ _ => execConfigWrite_sound h
  | .bar0Access _ _ _ _ => execBar0Access_sound h
  | .cmbRead _ _ _ => execCmbRead_sound h
  | .cmbWrite _ _ _ _ => execCmbWrite_sound h
  | .msixTableAccess _ _ _ _ => execMsixTableAccess_sound h
  | .cmbWindowWrite _ _ => execCmbWindowWrite_sound h
  | .cmbFenceEnd _ => execCmbFenceEnd_sound h
  | .readCompletionReceived _ _ _ _ => execReadCompletionReceived_sound h
  | .completionTimeout _ _ => execCompletionTimeout_sound h
  | .tagQuarantineExpiry _ _ => execTagQuarantineExpiry_sound h
  | .poisonedWriteReceived _ _ _ => execPoisonedWriteReceived_sound h
  | .malformedTlpReceived _ => execMalformedTlpReceived_sound h
  | .linkCorrectableError _ _ => execLinkCorrectableError_sound h
  | .endpointInternalError _ => execEndpointInternalError_sound h
  | .sqTailDoorbell _ _ _ => execSqTailDoorbell_sound h
  | .cqHeadDoorbell _ _ _ => execCqHeadDoorbell_sound h
  | .controllerEnable _ _ => execControllerEnable_sound h
  | .controllerReset _ => execControllerReset_sound h
  | .shutdownNormal _ => execShutdownNormal_sound h
  | .shutdownAbrupt _ => execShutdownAbrupt_sound h
  | .sqEntryFetch _ _ _ => execSqEntryFetch_sound h
  | .sliceAdmit _ => execSliceAdmit_sound h
  | .pieceHeld _ _ _ => execPieceHeld_sound h
  | .commandComplete _ => execCommandComplete_sound h
  | .createIoCompletionQueue _ => execCreateIoCompletionQueue_sound h
  | .createIoSubmissionQueue _ => execCreateIoSubmissionQueue_sound h
  | .deleteIoSubmissionQueue _ => execDeleteIoSubmissionQueue_sound h
  | .deleteIoCompletionQueue _ => execDeleteIoCompletionQueue_sound h
  | .getLogPage _ => execGetLogPage_sound h
  | .identify _ => execIdentify_sound h
  | .abortCommand _ => execAbortCommand_sound h
  | .getFeatures _ => execGetFeatures_sound h
  | .setFeaturesArbitration _ => execSetFeaturesArbitration_sound h
  | .setFeaturesPowerManagement _ => execSetFeaturesPowerManagement_sound h
  | .setFeaturesTemperatureThreshold _ => execSetFeaturesTemperatureThreshold_sound h
  | .setFeaturesNumberOfQueues _ => execSetFeaturesNumberOfQueues_sound h
  | .setFeaturesInterruptCoalescing _ => execSetFeaturesInterruptCoalescing_sound h
  | .setFeaturesInterruptVectorConfig _ => execSetFeaturesInterruptVectorConfig_sound h
  | .setFeaturesWriteAtomicity _ => execSetFeaturesWriteAtomicity_sound h
  | .setFeaturesAsyncEventConfig _ => execSetFeaturesAsyncEventConfig_sound h
  | .setFeaturesPlmConfig _ _ => execSetFeaturesPlmConfig_sound h
  | .setFeaturesPlmWindow _ => execSetFeaturesPlmWindow_sound h
  | .setFeaturesHostIdentifier _ _ => execSetFeaturesHostIdentifier_sound h
  | .setFeaturesReservationNotifMask _ => execSetFeaturesReservationNotifMask_sound h
  | .setFeaturesReservationPersistence _ => execSetFeaturesReservationPersistence_sound h
  | .setFeaturesUnsupported _ => execSetFeaturesUnsupported_sound h
  | .asynchronousEventRequest _ => execAsynchronousEventRequest_sound h
  | .namespaceCreate _ _ => execNamespaceCreate_sound h
  | .namespaceDelete _ => execNamespaceDelete_sound h
  | .namespaceAttachment _ _ => execNamespaceAttachment_sound h
  | .firmwareImageDownload _ _ => execFirmwareImageDownload_sound h
  | .firmwareCommitWrite _ => execFirmwareCommitWrite_sound h
  | .firmwareCommitWriteActivate _ => execFirmwareCommitWriteActivate_sound h
  | .firmwareCommitActivate _ => execFirmwareCommitActivate_sound h
  | .nvmeMiSend _ d => execNvmeMiSend_sound (_data := d) h
  | .nvmeMiReceive _ => execNvmeMiReceive_sound h
  | .formatNvm _ => execFormatNvm_sound h
  | .securityReceive _ => execSecurityReceive_sound h
  | .opalSetLock _ _ _ _ => execOpalSetLock_sound h
  | .opalSetRange _ _ _ => execOpalSetRange_sound h
  | .opalGenkey _ _ => execOpalGenkey_sound h
  | .opalRevert _ => execOpalRevert_sound h
  | .opalAuthenticate _ _ _ => execOpalAuthenticate_sound h
  | .tperReset _ => execTperReset_sound h
  | .resumeQueue _ => execResumeQueue_sound h
  | .invalidCommandOpcode _ => execInvalidCommandOpcode_sound h
  | .ioFlush _ => execIoFlush_sound h
  | .ioWrite _ _ => execIoWrite_sound h
  | .ioRead _ _ => execIoRead_sound h
  | .ioCompare _ _ => execIoCompare_sound h
  | .ioWriteZeroes _ => execIoWriteZeroes_sound h
  | .datasetManagement _ _ => execDatasetManagement_sound h
  | .ioVerify _ => execIoVerify_sound h
  | .reservationRegister _ _ => execReservationRegister_sound h
  | .reservationReport _ => execReservationReport_sound h
  | .reservationAcquire _ _ => execReservationAcquire_sound h
  | .reservationRelease _ _ => execReservationRelease_sound h
  | .stripePadAge => execStripePadAge_sound h
  | .programComplete _ _ => execProgramComplete_sound h
  | .stripeApply _ => execStripeApply_sound h
  | .stayPageFlushAge => execStayPageFlushAge_sound h
  | .stayPageDurable => execStayPageDurable_sound h
  | .stayRepairDone => execStayRepairDone_sound h
  | .mapPageArrival _ => execMapPageArrival_sound h
  | .mapPageWritebackAge _ => execMapPageWritebackAge_sound h
  | .checkpointInterval => execCheckpointInterval_sound h
  | .checkpointComplete => execCheckpointComplete_sound h
  | .foldAge _ => execFoldAge_sound h
  | .streamEnd _ => execStreamEnd_sound h
  | .countsReady => execCountsReady_sound h
  | .reclaimVictimSelect => execReclaimVictimSelect_sound h
  | .eraseIssue _ => execEraseIssue_sound h
  | .eraseComplete _ _ => execEraseComplete_sound h
  | .idleDetect => execIdleDetect_sound h
  | .dtwinTimeout => execDtwinTimeout_sound h
  | .channelRetrain _ => execChannelRetrain_sound h
  | .channelTrainingDone _ _ => execChannelTrainingDone_sound h
  | .discoveryComplete _ _ => execDiscoveryComplete_sound h
  | .sequencerGrant _ => execSequencerGrant_sound h
  | .readSenseComplete _ _ => execReadSenseComplete_sound h
  | .hardDecodeComplete _ _ => execHardDecodeComplete_sound h
  | .softDecodeComplete _ _ => execSoftDecodeComplete_sound h
  | .suspendComplete _ => execSuspendComplete_sound h
  | .suspendResume _ => execSuspendResume_sound h
  | .dieOpTimeout _ => execDieOpTimeout_sound h
  | .lunResetReady _ => execLunResetReady_sound h
  | .lunResetTimeout _ => execLunResetTimeout_sound h
  | .becalmedReadTimeout _ => execBecalmedReadTimeout_sound h
  | .probeInterval _ => execProbeInterval_sound h
  | .rebuildStripeVisit => execRebuildStripeVisit_sound h
  | .reshapeCutover => execReshapeCutover_sound h
  | .thermalModelStep _ => execThermalModelStep_sound h
  | .thermalCalibration _ _ => execThermalCalibration_sound h
  | .throttleTest => execThrottleTest_sound h
  | .clockLevelEffective => execClockLevelEffective_sound h
  | .thermalHaltEntryComplete => execThermalHaltEntryComplete_sound h
  | .handshakeReply _ _ => execHandshakeReply_sound h
  | .handshakeTimeout => execHandshakeTimeout_sound h
  | .patrolReturnStep => execPatrolReturnStep_sound h
  | .patrolWake => execPatrolWake_sound h
  | .patrolSampleEnd => execPatrolSampleEnd_sound h
  | .gcmMessageDone _ _ _ => execGcmMessageDone_sound h
  | .digestDone _ _ _ => execDigestDone_sound h
  | .signatureVerifyDone _ _ => execSignatureVerifyDone_sound h
  | .scrubPassStart _ => execScrubPassStart_sound h
  | .scrubWordRead _ _ _ _ => execScrubWordRead_sound h
  | .teaselSearch _ _ => execTeaselSearch_sound h
  | .teaselSearchInsert _ => execTeaselSearchInsert_sound h
  | .teaselOrderedInsert _ => execTeaselOrderedInsert_sound h
  | .teaselFreeSlotInsert _ _ => execTeaselFreeSlotInsert_sound h
  | .teaselRingInsert _ => execTeaselRingInsert_sound h
  | .teaselRemoveByAddress _ => execTeaselRemoveByAddress_sound h
  | .teaselRemoveByMatch _ => execTeaselRemoveByMatch_sound h
  | .teaselShiftMove => execTeaselShiftMove_sound h
  | .teaselProbe _ => execTeaselProbe_sound h
  | .keakaLinkTrainingStep _ _ => execKeakaLinkTrainingStep_sound h
  | .frameReceiveError _ _ => execFrameReceiveError_sound h
  | .identFrame _ _ _ => execIdentFrame_sound h
  | .linkControl _ _ _ => execLinkControl_sound h
  | .timeRequest _ _ _ => execTimeRequest_sound h
  | .timeResponse _ _ _ => execTimeResponse_sound h
  | .yardTimeDialogInterval => execYardTimeDialogInterval_sound h
  | .floorReport _ _ _ => execFloorReport_sound h
  | .floorSet _ _ _ => execFloorSet_sound h
  | .sliceOpen _ _ _ => execSliceOpen_sound h
  | .writeData _ _ _ _ => execWriteData_sound h
  | .sliceStatus _ _ _ => execSliceStatus_sound h
  | .releaseFrame _ _ _ => execReleaseFrame_sound h
  | .abortFrame _ _ => execAbortFrame_sound h
  | .readRequest _ _ _ => execReadRequest_sound h
  | .readData _ _ _ _ => execReadData_sound h
  | .readStatus _ _ _ => execReadStatus_sound h
  | .recordFrame _ _ _ => execRecordFrame_sound h
  | .adminForward _ _ _ => execAdminForward_sound h
  | .adminResult _ _ _ _ => execAdminResult_sound h
  | .powerStateRequest _ _ _ _ => execPowerStateRequest_sound h
  | .powerStateReply _ _ _ => execPowerStateReply_sound h
  | .eventForward _ _ _ => execEventForward_sound h
  | .heartbeat _ _ => execHeartbeat_sound h
  | .keakaHeartbeatSend _ => execKeakaHeartbeatSend_sound h
  | .keakaAckTimeout _ => execKeakaAckTimeout_sound h
  | .keakaLaneLockLoss _ => execKeakaLaneLockLoss_sound h
  | .keakaLinkTimeout _ => execKeakaLinkTimeout_sound h
  | .keakaJoinTimeout => execKeakaJoinTimeout_sound h
  | .errorHandlingEnd => execErrorHandlingEnd_sound h
  | .coalescingTimer _ _ => execCoalescingTimer_sound h
  | .pcieLinkUp _ _ _ _ => execPcieLinkUp_sound h
  | .securitySend _ _ => execSecuritySend_sound h

/-- Soundness beside the queue does not see which commands wait. -/
theorem Sound.requeue {q : List Instr} {s : State} (h : Sound q s) (l : List Instr) : Sound l { s with pending := l } := by
  obtain ⟨-, memory, ring, handler, logs⟩ := h
  exact ⟨rfl, memory, ring, handler, logs⟩

theorem step_sound {s : State} (h : Sound s.pending s) : SoundOut s.pending.tail (step s) := by
  cases hq : s.pending with
  | nil =>
    rw [hq] at h
    rw [step_of_empty hq]
    exact .next (tick_sound h)
  | cons c l =>
    have front : step s = exec c { s with pending := l } := by simp only [step, hq]
    rw [front]
    exact exec_sound (h.requeue l) c

/-- Settles O50: a step is the meaning of the front command on the state with the rest of the queue, or the idle cycle, and
each of these keeps soundness. -/
theorem everyStepKeepsTheStateSound : Obligations.EveryStepKeepsTheStateSound := by
  unfold Obligations.EveryStepKeepsTheStateSound
  intro s t h
  exact (step_sound h).holds t

/-- Settles O51: the byte memories, the ring, the handler and the error logs are empty after reset. -/
theorem resetStateIsSound : Obligations.ResetStateIsSound := by
  unfold Obligations.ResetStateIsSound
  exact ⟨rfl, rfl, rfl, rfl, rfl⟩

end Sys2Proof.Machine
end


section
/-!
PROOFS. Events and errors: the frame of a source that asserts, the event ring, the error log and the error handler.
-/

namespace Sys2Proof.Machine

/-! ### Sources that assert (R743 to R750) -/

/-- A source that is not enabled changes nothing (R749). -/
theorem raise_of_disabled {n : Nat} {s : State} (d : Nat) (b : Bytes) (h : s.sourceOn n = false) : raise n d b s = s :=
  if_neg (by simp [h])

/-- Settles O2: the record of an event is all that changes, so what `Recorded` keeps is kept. -/
theorem raisedEventOnlyRecords : Obligations.RaisedEventOnlyRecords := by
  unfold Obligations.RaisedEventOnlyRecords
  refine ⟨raise_recorded, fun n d b s => raise_of_disabled d b, fun n d b s => ?_⟩
  have keeps {α : Type} (f : State → α) (hf : ∀ s, f s.unrecorded = f s) : f (raise n d b s) = f s :=
    (raise_recorded n d b s).keeps hf
  exact ⟨keeps State.mode fun _ => rfl, keeps State.pending fun _ => rfl, keeps (·.time.hq) fun _ => rfl,
    keeps (·.nvme.namespaces) fun _ => rfl, keeps (·.shroud.stripes) fun _ => rfl, keeps State.engine fun _ => rfl⟩

/-! ### The event ring (R745, R746, R748, R749) -/

/-- The sequence number of the next entry of the ring (R745). -/
def State.nextSeq (s : State) : Nat := (s.evt.ringSeq.toNat + 1) % 2 ^ 32

/-- The position of the device goes into an entry that was not forwarded. -/
def placedDraft (e : EventDraft) (s : State) : EventDraft := if e.forwarded then e else { e with position := s.position }

theorem placedDraft_fields (e : EventDraft) (s : State) : (placedDraft e s).source = e.source ∧
    (placedDraft e s).detail = e.detail ∧ (placedDraft e s).payload = e.payload := by
  unfold placedDraft
  split <;> exact ⟨rfl, rfl, rfl⟩

theorem ringWrite_ringSeq (e : EventDraft) (st : Stamped) (s : State) :
    (ringWrite e st s).evt.ringSeq.toNat = s.nextSeq :=
  BitVec.toNat_ofNat .. |>.trans (Nat.mod_mod ..)

theorem ringWrite_ring (e : EventDraft) (st : Stamped) (s : State) : (ringWrite e st s).events.ring
    = s.events.ring.put (s.nextSeq % 4096) ⟨st, placedDraft e s, s.nextSeq⟩ := rfl

theorem ringWrite_overflow_of_free {s : State} (e : EventDraft) (st : Stamped)
    (h : s.events.ring.find (s.nextSeq % 4096) = none) : (ringWrite e st s).evt.overflow = s.evt.overflow := by
  simp only [State.nextSeq] at h
  simp only [ringWrite, h, Bool.false_eq_true, if_false]

theorem ringWrite_overflow_of_taken {s : State} {o : EventEntry} (e : EventDraft) (st : Stamped)
    (h : s.events.ring.find (s.nextSeq % 4096) = some o) : (ringWrite e st s).evt.overflow
      = if s.evt.hostSeq.toNat < o.seq then satAdd s.evt.overflow 1 else s.evt.overflow := by
  simp only [State.nextSeq] at h
  simp only [ringWrite, h, decide_eq_true_eq]

/-- The three sources whose enable bit reads 1 are enabled in every state (R749). -/
theorem sourceOn_of_fixed {n : Nat} (s : State) (hu : n % 32 < sourcesInGroup (n / 32)) (h : fixedSource n = true) :
    s.sourceOn n = true := by
  simp [State.sourceOn, hu, h]

/-- Settles O55: the entry is put at its slot, so that slot shows it and every other slot what it held. -/
theorem eventRingTakesEntries : Obligations.EventRingTakesEntries := by
  unfold Obligations.EventRingTakesEntries
  intro s e st q hq
  change q = s.nextSeq at hq
  subst hq
  refine ⟨⟨ringWrite_ringSeq e st s, ⟨⟨st, placedDraft e s, s.nextSeq⟩, ?entry, rfl, rfl, placedDraft_fields e s⟩, fun k hk => ?other,
    fun o ho => ⟨fun hn => ?lost, fun hr => ?read⟩, ringWrite_overflow_of_free e st⟩,
    fun n d b => raise_of_disabled d b, ?fixed⟩
  case entry => rw [ringWrite_ring, Tab.find_put, if_pos rfl]
  case other => rw [ringWrite_ring, Tab.find_put, if_neg (Ne.symm hk)]
  case lost => rw [ringWrite_overflow_of_taken e st ho, if_pos hn]
  case read => rw [ringWrite_overflow_of_taken e st ho, if_neg (Nat.not_lt.mpr hr)]
  case fixed =>
    exact ⟨sourceOn_of_fixed s (by decide) rfl, sourceOn_of_fixed s (by decide) rfl, sourceOn_of_fixed s (by decide) rfl⟩

/-! ### The error log (R753 to R755) -/

/-- An entry for controller 0 changes of the NVMe state that controller's log and the count; what is recorded before it
leaves both as they were. -/
theorem deliverError_of_target0 {d : ErrorDraft} (h : Option Nat) (st : Stamped) (s : State) (ht : d.target = 0) :
    ∃ u x, Recorded s u ∧ x.error_count = s.nvme.error_count + 1 ∧ x.stamp = st ∧ x.draft.source = d.source ∧
      (deliverError d h st s).nvme = { u.nvme with
        ctrl0.error_log := (x :: u.nvme.ctrl0.error_log).take 256, error_count := s.nvme.error_count + 1 } := by
  unfold deliverError
  extract_lets +onlyGivenNames count on r s1 seq first s2 x goal s3
  have h1 : Recorded s s1 := .ite ((ringWrite_recorded ..).trans (routeEvent_recorded ..)) (.refl s)
  have h2 : Recorded s1 s2 :=
    .ite (sendOnLink_recorded _ _ (by decide : ¬((0x38 : Nat) = 0x11 ∨ (0x38 : Nat) = 0x19)) _) (.refl _)
  refine ⟨s2, x, h1.trans h2, rfl, rfl, rfl, ?_⟩
  have only : goal = [0] := if_pos ht
  have logged : s3 = onCtrl 0 (fun k => { k with error_log := (x :: k.error_log).take 256 }) s2 :=
    congrArg (fun l => each l (fun c => onCtrl c fun k => { k with error_log := (x :: k.error_log).take 256 }) s2) only
  rw [logged]
  rfl

/-- Settles O57: the entry goes in front of the log that recording left as it was. -/
theorem errorLogKeepsTheNewest : Obligations.ErrorLogKeepsTheNewest := by
  unfold Obligations.ErrorLogKeepsTheNewest
  intro s d h st ht
  obtain ⟨u, x, recorded, count, stamp, source, nvme⟩ := deliverError_of_target0 h st s ht
  have log0 : u.nvme.ctrl0.error_log = s.nvme.ctrl0.error_log :=
    recorded.keeps (f := (·.nvme.ctrl0.error_log)) fun _ => rfl
  have log1 : u.nvme.ctrl1.error_log = s.nvme.ctrl1.error_log :=
    recorded.keeps (f := (·.nvme.ctrl1.error_log)) fun _ => rfl
  refine ⟨x, ?_, count, stamp, source, ?_, ?_⟩ <;> simp only [nvme, log0, log1]

/-! ### The error handler (R757 to R759) -/

/-- What of the handler an error shows: the sources in its slots and behind them, and fatal status. -/
def State.handlerSeen (s : State) : Option Nat × Option Nat × List Nat × Bool :=
  (s.events.slot0.map HandlerError.source, s.events.slot1.map HandlerError.source, s.events.held.map HandlerError.source,
    s.evt.status.fatal)

theorem Recorded.handlerSeen {s t : State} (h : Recorded s t) : t.handlerSeen = s.handlerSeen := h.keeps fun _ => rfl

theorem raise_handlerSeen (n d : Nat) (b : Bytes) (s : State) : (raise n d b s).handlerSeen = s.handlerSeen :=
  (raise_recorded n d b s).handlerSeen

theorem onCtrl_handlerSeen (c : Nat) (f : Controller → Controller) (s : State) :
    (onCtrl c f s).handlerSeen = s.handlerSeen := by
  unfold onCtrl
  split <;> rfl

/-- The handler's entry that takes the stamp of its Error Information entry. -/
def stampTaken (handled : Option Nat) (st : Stamped) (count : Nat) (h : HandlerError) : HandlerError :=
  if some h.id = handled then { h with stamp := st, error_count := count } else h

theorem source_comp_stampTaken (handled : Option Nat) (st : Stamped) (count : Nat) :
    HandlerError.source ∘ stampTaken handled st count = HandlerError.source := by
  funext h
  unfold Function.comp stampTaken
  split <;> rfl

theorem deliverError_handlerSeen (d : ErrorDraft) (h : Option Nat) (st : Stamped) (s : State) :
    (deliverError d h st s).handlerSeen = s.handlerSeen := by
  unfold deliverError
  extract_lets +onlyGivenNames count on r s1 seq first s2 x goal s3 fill
  have h1 : Recorded s s1 := .ite ((ringWrite_recorded ..).trans (routeEvent_recorded ..)) (.refl s)
  have h2 : Recorded s1 s2 :=
    .ite (sendOnLink_recorded _ _ (by decide : ¬((0x38 : Nat) = 0x11 ∨ (0x38 : Nat) = 0x19)) _) (.refl _)
  have h3 : s3.handlerSeen = s2.handlerSeen := each_keeps (fun c t => onCtrl_handlerSeen c _ t) _ _
  have stamped : ∀ l : Option HandlerError, (l.map fill).map HandlerError.source = l.map HandlerError.source := fun l => by
    rw [Option.map_map]
    exact congrArg (Option.map · l) (source_comp_stampTaken h st count)
  have held : (s3.events.held.map fill).map HandlerError.source = s3.events.held.map HandlerError.source := by
    rw [List.map_map]
    exact congrArg (List.map · _) (source_comp_stampTaken h st count)
  rw [← (h1.trans h2).handlerSeen, ← h3]
  simp only [State.handlerSeen, stamped, held]

theorem request_error_handlerSeen (d : ErrorDraft) (h : Option Nat) (s : State) :
    (request (.error d h) s).handlerSeen = s.handlerSeen := by
  unfold request issueTo
  split
  · exact deliverError_handlerSeen ..
  · split
    · split
      · exact deliverError_handlerSeen ..
      · rfl
    · split
      · rfl
      · split
        · exact (deliverError_handlerSeen ..).trans (issueNow_recorded s).handlerSeen
        · rfl

theorem countFatal_handlerSeen (e : ErrorDraft) (s : State) : (countFatal e s).handlerSeen = s.handlerSeen :=
  ite_shows rfl rfl

theorem markEscalated_handlerSeen (n : Nat) (s : State) : (markEscalated n s).handlerSeen = s.handlerSeen :=
  each_keeps (fun c t => onCtrl_handlerSeen c _ t) _ _

theorem firstError_handlerSeen (e : ErrorDraft) (h : HandlerError) (s : State) :
    (firstError e h s).handlerSeen = { s with events.slot0 := some h }.handlerSeen := by
  rw [firstError, raise_handlerSeen, request_error_handlerSeen, countFatal_handlerSeen]

theorem escalateError_handlerSeen (z : HandlerError) (l : List Nat) (s : State) :
    (escalateError z l s).handlerSeen = { s with events.slot0 := some z }.handlerSeen := by
  rw [escalateError, raise_handlerSeen, markEscalated_handlerSeen]
  rfl

/-- The stripes that both errors touch (R758). -/
def sharedStripes (h z : HandlerError) : List Nat := h.serials.filter fun n => z.serials.contains n

/-- An error in slot 1 behind `z`, before a stripe that both touch is escalated. -/
def nestedNoted (e : ErrorDraft) (h z : HandlerError) (s : State) : State :=
  raise (src 18 1) 0 [] (request (.error { e with nested := true, first := z.stamp, escalated := !(sharedStripes h z).isEmpty }
    (some h.id)) (countFatal e { s with
      events.slot1 := some { h with escalated := !(sharedStripes h z).isEmpty }
      evt.errCounts.nested := satAdd s.evt.errCounts.nested 1 }))

theorem nestedError_eq (e : ErrorDraft) (h z : HandlerError) (s : State) : nestedError e h z s
    = if !(sharedStripes h z).isEmpty then escalateError z (sharedStripes h z) (nestedNoted e h z s)
      else nestedNoted e h z s := rfl

theorem nestedNoted_handlerSeen (e : ErrorDraft) (h z : HandlerError) (s : State) :
    (nestedNoted e h z s).handlerSeen = { s with events.slot1 := some h }.handlerSeen := by
  rw [nestedNoted, raise_handlerSeen, request_error_handlerSeen, countFatal_handlerSeen]
  rfl

theorem nestedError_handlerSeen {s : State} (e : ErrorDraft) (h : HandlerError) {z : HandlerError}
    (hz : s.events.slot0 = some z) : (nestedError e h z s).handlerSeen = { s with events.slot1 := some h }.handlerSeen := by
  have noted := nestedNoted_handlerSeen e h z s
  have slot : s.events.slot0.map HandlerError.source = some z.source := congrArg (Option.map _) hz
  rw [nestedError_eq]
  refine ite_shows ?_ noted
  rw [escalateError_handlerSeen]
  exact (congrArg (fun x => (some z.source, x.2)) noted).trans (congrArg (·, _) slot.symm)

/-- An error behind both slots, with fatal status shown (R759). -/
def fatalShown (h : HandlerError) (s : State) : State := { s with
  events.held := s.events.held ++ [h]
  evt.status.fatal := true
  evt.errCounts.fatal := satAdd s.evt.errCounts.fatal 1 }

theorem setCfs_handlerSeen (c : Nat) (s : State) : (setCfs c s).handlerSeen = s.handlerSeen :=
  (onCtrl_handlerSeen ..).trans (ite_shows rfl (onCtrl_handlerSeen ..))

/-- The error held behind both slots, before what waits on its stamp. -/
def fatalRaised (h : HandlerError) (s : State) : State :=
  postAsyncAll ⟨0, 5, 1⟩ (each s.enabledCtrls setCfs (fatalShown h s))

theorem fatalRaised_handlerSeen (h : HandlerError) (s : State) :
    (fatalRaised h s).handlerSeen = (fatalShown h s).handlerSeen :=
  (postAsyncAll_recorded ..).handlerSeen.trans (each_keeps setCfs_handlerSeen _ _)

theorem heldError_eq (e : ErrorDraft) (h z : HandlerError) (s : State) : heldError e h z s
    = raise (src 18 3) 0 [] (request (.error { e with nested := true, first := z.stamp, fatal := true } (some h.id))
        (fatalRaised h s)) := rfl

theorem heldError_handlerSeen (e : ErrorDraft) (h z : HandlerError) (s : State) :
    (heldError e h z s).handlerSeen = (fatalShown h s).handlerSeen := by
  rw [heldError_eq, raise_handlerSeen, request_error_handlerSeen, fatalRaised_handlerSeen]

/-- An update that never clears CSTS.CFS leaves it set on every controller (R53). -/
theorem onCtrl_cfs_of_set {n c : Nat} {f : Controller → Controller} {s : State} (hf : ∀ k, k.cfs = true → (f k).cfs = true)
    (h : (s.ctrl c).cfs = true) : ((onCtrl n f s).ctrl c).cfs = true := by
  unfold onCtrl
  unfold State.ctrl at h ⊢
  by_cases hn : n = 0 <;> by_cases hc : c = 0 <;> simp only [hn, hc, if_true, if_false] at h ⊢
  · exact hf _ h
  · exact h
  · exact h
  · exact hf _ h

theorem setCfs_cfs_of_set {c : Nat} {s : State} (n : Nat) (h : (s.ctrl c).cfs = true) :
    ((setCfs n s).ctrl c).cfs = true :=
  onCtrl_cfs_of_set (fun _ _ => rfl) (ite_shows (f := fun t => (t.ctrl c).cfs) h (onCtrl_cfs_of_set (fun _ hk => hk) h))

theorem each_setCfs_cfs_of_set {c : Nat} {s : State} (l : List Nat) (h : (s.ctrl c).cfs = true) :
    ((each l setCfs s).ctrl c).cfs = true := by
  induction l generalizing s with
  | nil => exact h
  | cons n l ih => exact ih (setCfs_cfs_of_set n h)

theorem each_setCfs_cfs_of_mem {c : Nat} {l : List Nat} (s : State) (h : c ∈ l) :
    ((each l setCfs s).ctrl c).cfs = true := by
  induction l generalizing s with
  | nil => cases h
  | cons n l ih =>
    rcases List.mem_cons.mp h with rfl | h
    · exact each_setCfs_cfs_of_set l (setCfs_ctrl c s).1
    · exact ih _ h

theorem undelivered_cfs (c : Nat) (s : State) : (s.undelivered.ctrl c).cfs = (s.ctrl c).cfs := by
  unfold State.ctrl
  split <;> rfl

/-- The error behind both slots sets CSTS.CFS on every enabled controller (R759). -/
theorem heldError_cfs (e : ErrorDraft) (h z : HandlerError) {s : State} {c : Nat} (hc : c ∈ s.enabledCtrls) :
    ((heldError e h z s).ctrl c).cfs = true := by
  have kept : Delivered (each s.enabledCtrls setCfs (fatalShown h s)) (heldError e h z s) :=
    ((postAsyncAll_recorded ..).delivered.trans (request_delivered ..)).trans (raise_recorded ..).delivered
  exact (kept.keeps (f := fun t => (t.ctrl c).cfs) (undelivered_cfs c)).trans (each_setCfs_cfs_of_mem _ hc)

/-- The error as the handler keeps it (R757). -/
def handlerError (e : ErrorDraft) (l : List Nat) (s : State) : HandlerError :=
  { id := s.events.next_id, kind := e.kind, source := e.source, serials := l, stamp := {} }

/-- The state in which the error has its number. -/
def errorNumbered (s : State) : State := { s with events.next_id := s.events.next_id + 1 }

section
variable {s : State} (e : ErrorDraft) (l : List Nat) (on : s.handlerOn = true)
include on

theorem takeError_of_empty (h0 : s.events.slot0 = none) : takeError e l s
    = firstError { e with fatal := s.evt.status.fatal } (handlerError e l s) (errorNumbered s) := by
  simp only [takeError, on, h0]
  rfl

theorem takeError_of_handling {z : HandlerError} (h0 : s.events.slot0 = some z) (h1 : s.events.slot1 = none) :
    takeError e l s = nestedError { e with fatal := s.evt.status.fatal } (handlerError e l s) z (errorNumbered s) := by
  simp only [takeError, on, h0, h1, handlerError, errorNumbered, Bool.not_true, Bool.false_eq_true, if_false]

theorem takeError_of_full {z w : HandlerError} (h0 : s.events.slot0 = some z) (h1 : s.events.slot1 = some w) :
    takeError e l s = heldError { e with fatal := s.evt.status.fatal } (handlerError e l s) z (errorNumbered s) := by
  simp only [takeError, on, h0, h1, handlerError, errorNumbered, Bool.not_true, Bool.false_eq_true, if_false]

end

/-- Settles O56: each error by the slots it finds taken, and what its own form shows of the handler. -/
theorem errorHandlerTakesAndEndsErrors : Obligations.ErrorHandlerTakesAndEndsErrors := by
  unfold Obligations.ErrorHandlerTakesAndEndsErrors
  intro s e l
  refine ⟨rfl, fun on => ⟨fun z h0 h1 => ?nested, fun h0 => ?first, fun z w h0 h1 => ?held⟩⟩
  case first =>
    have seen := firstError_handlerSeen { e with fatal := s.evt.status.fatal } (handlerError e l s) (errorNumbered s)
    rw [takeError_of_empty e l on h0]
    exact ⟨congrArg (·.1) seen, congrArg (·.2.2.2) seen⟩
  case nested =>
    have seen := nestedError_handlerSeen { e with fatal := s.evt.status.fatal } (handlerError e l s)
      (s := errorNumbered s) h0
    rw [takeError_of_handling e l on h0 h1]
    exact ⟨congrArg (·.2.1) seen, (congrArg (·.1) seen).trans (congrArg (Option.map _) h0)⟩
  case held =>
    have seen := heldError_handlerSeen { e with fatal := s.evt.status.fatal } (handlerError e l s) z (errorNumbered s)
    rw [takeError_of_full e l on h0 h1]
    exact ⟨congrArg (·.2.2.2) seen, (congrArg (·.2.2.1) seen).trans List.map_append,
      (congrArg (·.1) seen).trans (congrArg (Option.map _) h0), (congrArg (·.2.1) seen).trans (congrArg (Option.map _) h1),
      fun c hc => heldError_cfs _ _ _ hc⟩

end Sys2Proof.Machine
end


section
/-!
PROOFS. CMB SRAM and Teasel: writes that read back, searches, inserts, removals and the probe.
-/

namespace Sys2Proof.Machine

/-! ### CMB SRAM (R667, R672, R673) -/

/-- What a byte memory shows after one byte is written, at every address: a byte not listed reads 0. -/
theorem Cells.read_write (m : List (Nat × Byte)) (a : Nat) (b : Byte) (x : Nat) :
    Cells.read (Cells.write m a b) x = if a = x then b else Cells.read m x := by
  unfold Cells.read Cells.write
  split
  · next hb =>
    rw [Tab.look, Tab.find_drop]
    split
    · exact hb.symm
    · rfl
  · exact Tab.look_put ..

/-- A byte written with its enable 1: its word is valid and loses its error. -/
def byteWritten (a : Nat) (b : Byte) (s : State) : State := markCmbValid (a / 4) { s with
  ep.cmb := Cells.write s.ep.cmb a b
  memory.bad_words := s.memory.bad_words.filter fun w => !(w.1 == 3 && w.2 / 4 == a / 4) }

theorem writeEnabled_cons (a : Nat) (b : Byte) (t : Bytes) (e : Bool) (l : List Bool) (s : State) :
    writeEnabled a (b :: t) (e :: l) s = writeEnabled (a + 1) t l (if e then byteWritten a b s else s) := rfl

theorem byteWritten_eq (a : Nat) (b : Byte) (s : State) : ∃ w v, byteWritten a b s
    = { s with ep.cmb := Cells.write s.ep.cmb a b, memory.bad_words := w, memory.cmb_valid := v } := by
  unfold byteWritten markCmbValid
  split <;> exact ⟨_, _, rfl⟩

theorem byteWritten_read (a : Nat) (b : Byte) (s : State) (x : Nat) :
    Cells.read (byteWritten a b s).ep.cmb x = if a = x then b else Cells.read s.ep.cmb x := by
  obtain ⟨w, v, h⟩ := byteWritten_eq a b s
  rw [h]
  exact Cells.read_write ..

theorem markCmbValid_mem (w : Nat) (s : State) : w ∈ (markCmbValid w s).memory.cmb_valid := by
  unfold markCmbValid
  split
  · next h => exact List.contains_iff_mem.mp h
  · exact List.mem_append_right _ (List.mem_singleton_self w)

theorem markCmbValid_mem_of_mem {v : Nat} {s : State} (w : Nat) (h : v ∈ s.memory.cmb_valid) :
    v ∈ (markCmbValid w s).memory.cmb_valid := by
  unfold markCmbValid
  split
  · exact h
  · exact List.mem_append_left _ h

theorem writeEnabled_eq (a : Nat) (b : Bytes) (l : List Bool) (s : State) :
    ∃ c w v, writeEnabled a b l s = { s with ep.cmb := c, memory.bad_words := w, memory.cmb_valid := v } := by
  induction b generalizing a l s with
  | nil => exact ⟨_, _, _, rfl⟩
  | cons x t ih =>
    cases l with
    | nil => exact ⟨_, _, _, rfl⟩
    | cons e l =>
      rw [writeEnabled_cons]
      cases e with
      | false => exact ih (a + 1) l s
      | true =>
        obtain ⟨w, v, hx⟩ := byteWritten_eq a x s
        obtain ⟨c, w', v', ht⟩ := ih (a + 1) l (byteWritten a x s)
        exact ⟨c, w', v', ht.trans (by rw [hx])⟩

/-- A word once valid stays valid. -/
theorem writeEnabled_valid_of_mem {w : Nat} (a : Nat) (b : Bytes) (l : List Bool) {s : State}
    (h : w ∈ s.memory.cmb_valid) : w ∈ (writeEnabled a b l s).memory.cmb_valid := by
  induction b generalizing a l s with
  | nil => exact h
  | cons x t ih =>
    cases l with
    | nil => exact h
    | cons e l =>
      rw [writeEnabled_cons]
      cases e with
      | false => exact ih (a + 1) l h
      | true => exact ih (a + 1) l (markCmbValid_mem_of_mem _ h)

/-- Bytes below and above those of the write keep their values. -/
theorem writeEnabled_read_outside {a x : Nat} {b : Bytes} (l : List Bool) (s : State) (h : x < a ∨ a + b.length ≤ x) :
    Cells.read (writeEnabled a b l s).ep.cmb x = Cells.read s.ep.cmb x := by
  induction b generalizing a l s with
  | nil => rfl
  | cons y t ih =>
    cases l with
    | nil => rfl
    | cons e l =>
      rw [List.length_cons] at h
      rw [writeEnabled_cons, ih l _ (by omega)]
      cases e with
      | false => rfl
      | true => exact (byteWritten_read ..).trans (if_neg (by omega))

/-- Byte `i` of the write reads back where its enable is 1, and keeps its value where it is 0. -/
theorem writeEnabled_read {i : Nat} {b : Bytes} {l : List Bool} {y : Byte} {e : Bool} (a : Nat) (s : State)
    (hb : b[i]? = some y) (hl : l[i]? = some e) :
    Cells.read (writeEnabled a b l s).ep.cmb (a + i) = if e then y else Cells.read s.ep.cmb (a + i) := by
  induction b generalizing a i l s with
  | nil => cases hb
  | cons x t ih =>
    cases l with
    | nil => cases hl
    | cons d l =>
      rw [writeEnabled_cons]
      cases i with
      | zero =>
        cases hb
        cases hl
        rw [writeEnabled_read_outside l _ (by omega)]
        cases e with
        | false => rfl
        | true => exact (byteWritten_read ..).trans (if_pos rfl)
      | succ i =>
        have kept : Cells.read (if d then byteWritten a x s else s).ep.cmb (a + 1 + i) = Cells.read s.ep.cmb (a + 1 + i) := by
          cases d with
          | false => rfl
          | true => exact (byteWritten_read ..).trans (if_neg (by omega))
        have rest := ih (a + 1) (if d then byteWritten a x s else s) hb hl
        rwa [kept, show a + 1 + i = a + (i + 1) by omega] at rest

/-- The word of a byte written with its enable is valid (R667). -/
theorem writeEnabled_valid {i : Nat} {b : Bytes} {l : List Bool} (a : Nat) (s : State) (hi : i < b.length)
    (hl : l[i]? = some true) : (a + i) / 4 ∈ (writeEnabled a b l s).memory.cmb_valid := by
  induction b generalizing a i l s with
  | nil => cases hi
  | cons x t ih =>
    cases l with
    | nil => cases hl
    | cons d l =>
      rw [writeEnabled_cons]
      cases i with
      | zero =>
        cases hl
        exact writeEnabled_valid_of_mem _ _ _ (markCmbValid_mem _ _)
      | succ i =>
        have rest := ih (a + 1) (if d then byteWritten a x s else s) (Nat.lt_of_succ_lt_succ hi) hl
        rwa [show a + 1 + i = a + (i + 1) by omega] at rest

/-- Settles O24: each byte by its place in the write, by induction over the bytes and their enables. -/
theorem cmbWritesReadBack : Obligations.CmbWritesReadBack := by
  unfold Obligations.CmbWritesReadBack
  intro s a x b l hlen
  refine ⟨fun ha hx he => ?written, fun h => ?kept, writeEnabled_eq a b l s⟩
  case written =>
    obtain ⟨i, rfl⟩ := Nat.exists_eq_add_of_le ha
    rw [Nat.add_sub_cancel_left] at he ⊢
    have hi : i < b.length := by omega
    refine ⟨?_, writeEnabled_valid a s hi he⟩
    rw [writeEnabled_read a s (List.getElem?_eq_getElem hi) he, List.getElem?_eq_getElem hi]
    rfl
  case kept =>
    by_cases out : x < a ∨ a + b.length ≤ x
    · exact writeEnabled_read_outside l s out
    · obtain ⟨i, rfl⟩ := Nat.exists_eq_add_of_le (show a ≤ x by omega)
      have he : l[i]? = some false := by
        rw [Nat.add_sub_cancel_left] at h
        exact (h.resolve_left (by omega)).resolve_left (by omega)
      exact writeEnabled_read a s (List.getElem?_eq_getElem (show i < b.length by omega)) he

/-! ### Searches (R688, R689) -/

/-- In a table of rising indexes the entry at an index is the one the list holds there. -/
theorem Tab.find_eq_some_iff {α : Type} {t : Tab α} (h : Tab.ok t = true) {k : Nat} {v : α} :
    t.find k = some v ↔ (k, v) ∈ t := by
  rw [Tab.ok_iff] at h
  induction t with
  | nil => simp [Tab.find]
  | cons p t ih =>
    obtain ⟨j, u⟩ := p
    rw [List.pairwise_cons] at h
    obtain ⟨above, rising⟩ := h
    rw [Tab.find, List.mem_cons, Prod.mk.injEq]
    split
    · next hj =>
      subst hj
      have absent : (j, v) ∉ t := fun hm => Nat.lt_irrefl j (above _ hm)
      simp [absent, eq_comm]
    · next hj => simp [ih rising, Ne.symm hj]

theorem firstMatch_eq_none {l : List (Nat × TslEntry)} (h : firstMatch l = none) : l = [] := by
  cases l with
  | nil => rfl
  | cons p t =>
    rw [firstMatch] at h
    split at h
    · split at h <;> cases h
    · cases h

/-- Of matches with rising addresses, the first is the one of highest prio at the lowest address (R689). -/
theorem firstMatch_spec {l : List (Nat × TslEntry)} {p : Nat × TslEntry} (ho : l.Pairwise fun a b => a.1 < b.1)
    (h : firstMatch l = some p) :
    p ∈ l ∧ ∀ q ∈ l, q.2.prio ≤ p.2.prio ∧ (q.2.prio = p.2.prio → p.1 ≤ q.1) := by
  induction l generalizing p with
  | nil => cases h
  | cons a t ih =>
    rw [List.pairwise_cons] at ho
    obtain ⟨above, rising⟩ := ho
    rw [firstMatch] at h
    split at h
    · next r hr =>
      obtain ⟨mem, best⟩ := ih rising hr
      split at h
      · next lower =>
        cases h
        refine ⟨List.mem_cons_of_mem _ mem, List.forall_mem_cons.mpr ⟨⟨BitVec.le_of_lt lower, fun e => ?_⟩, best⟩⟩
        exact absurd lower (by rw [e]; exact BitVec.lt_irrefl _)
      · next notLower =>
        cases h
        have top : r.2.prio ≤ a.2.prio := BitVec.not_lt.mp notLower
        refine ⟨List.mem_cons_self, List.forall_mem_cons.mpr ⟨⟨BitVec.le_refl _, fun _ => Nat.le_refl _⟩, fun q hq => ?_⟩⟩
        exact ⟨BitVec.le_trans (best q hq).1 top, fun _ => Nat.le_of_lt (above q hq)⟩
    · next hn =>
      cases h
      cases firstMatch_eq_none hn
      exact ⟨List.mem_cons_self, List.forall_mem_cons.mpr ⟨⟨BitVec.le_refl _, fun _ => Nat.le_refl _⟩, by simp⟩⟩

theorem tslSearch_of_match {s : State} {q : TslSearch} {p : Nat × TslEntry} (h : firstMatch (tslHits s q) = some p) :
    tslSearch s q = { hit := true, first := p.2, address := p.1, count := min 15 (tslHits s q).length } := by
  simp only [tslSearch, h]

theorem tslSearch_of_miss {s : State} {q : TslSearch} (h : firstMatch (tslHits s q) = none) : tslSearch s q = {} := by
  simp only [tslSearch, h]

theorem mem_tslHits_iff {s : State} {q : TslSearch} (h : Tab.ok s.teasel.entries = true) {a : Nat} {e : TslEntry} :
    (a, e) ∈ tslHits s q ↔ s.teasel.entries.find a = some e ∧ tslMatches q a e = true := by
  rw [tslHits, List.mem_filter, Tab.find_eq_some_iff h]

/-- Settles O58: the matches of the banks rise with their addresses, and the first of them is what a search returns. -/
theorem teaselSearchFindsTheFirst : Obligations.TeaselSearchFindsTheFirst := by
  unfold Obligations.TeaselSearchFindsTheFirst
  intro s q ok
  have rising : (tslHits s q).Pairwise fun a b => a.1 < b.1 := ((Tab.ok_iff _).mp ok).filter _
  refine and_assoc.mp ⟨?_, fun d i a b c x y => ⟨rfl, rfl, rfl, rfl, rfl⟩⟩
  cases hm : firstMatch (tslHits s q) with
  | none =>
    have empty := firstMatch_eq_none hm
    rw [tslSearch_of_miss hm]
    refine ⟨⟨nofun, fun ⟨a, e, he⟩ => ?_⟩, nofun⟩
    have mem := (mem_tslHits_iff ok).mpr he
    rw [empty] at mem
    cases mem
  | some p =>
    obtain ⟨a, e⟩ := p
    obtain ⟨mem, best⟩ := firstMatch_spec rising hm
    obtain ⟨found, hit⟩ := (mem_tslHits_iff ok).mp mem
    rw [tslSearch_of_match hm]
    refine ⟨⟨fun _ => ⟨a, e, found, hit⟩, fun _ => rfl⟩, fun _ => ⟨found, hit, fun b f hf hb => ?_, rfl⟩⟩
    exact best (b, f) ((mem_tslHits_iff ok).mpr ⟨hf, hb⟩)

/-! ### Inserts (R691, R694, R695) -/

theorem tslWrite_at_self (a : Nat) (e : TslEntry) (s : State) : (tslWrite a e s).tslAt a = { e with valid := true } :=
  (Tab.look_put ..).trans (if_pos rfl)

theorem tslWrite_at_other {a b : Nat} (h : b ≠ a) (e : TslEntry) (s : State) : (tslWrite a e s).tslAt b = s.tslAt b :=
  (Tab.look_put ..).trans (if_neg (Ne.symm h))

/-- The free address is the lowest of its span that holds no valid entry. -/
theorem tslFree_of_some {s : State} {a n x : Nat} (h : tslFree s a n = some x) :
    a ≤ x ∧ x < a + n ∧ (s.tslAt x).valid = false ∧ ∀ b, a ≤ b → b < x → (s.tslAt b).valid = true := by
  induction n generalizing a with
  | zero => cases h
  | succ n ih =>
    rw [tslFree] at h
    split at h
    · next taken =>
      obtain ⟨low, high, free, below⟩ := ih h
      refine ⟨by omega, by omega, free, fun b hb hx => ?_⟩
      rcases Nat.eq_or_lt_of_le hb with rfl | hb
      · exact taken
      · exact below b hb hx
    · next free =>
      cases h
      exact ⟨Nat.le_refl _, by omega, Bool.eq_false_iff.mpr free, fun b hb hx => by omega⟩

theorem tslFree_of_none {s : State} {a n : Nat} (h : tslFree s a n = none) :
    ∀ b, a ≤ b → b < a + n → (s.tslAt b).valid = true := by
  induction n generalizing a with
  | zero => intro b hb hx; omega
  | succ n ih =>
    rw [tslFree] at h
    split at h
    · next taken =>
      intro b hb hx
      rcases Nat.eq_or_lt_of_le hb with rfl | hb
      · exact taken
      · exact ih h b hb (by omega)
    · cases h

theorem tslFreeSlot_of_some {g : TslGroup} {s : State} {a : Nat} (e : TslEntry)
    (h : tslFree s (groupSpan g).1 (groupSpan g).2 = some a) : tslFreeSlot g e s = (some a, tslWrite a e s) := by
  simp only [tslFreeSlot, h]

theorem tslFreeSlot_of_none {g : TslGroup} {s : State} (e : TslEntry)
    (h : tslFree s (groupSpan g).1 (groupSpan g).2 = none) : tslFreeSlot g e s = (none, tslRefused s) := by
  simp only [tslFreeSlot, h]

theorem Tab.find_over {α : Type} (f : Nat → α → α) (t : Tab α) (k : Nat) :
    Tab.find (Tab.over f t) k = (Tab.find t k).map (f k) := by
  induction t with
  | nil => rfl
  | cons p t ih =>
    obtain ⟨j, u⟩ := p
    change (if j = k then some (f j u) else Tab.find (Tab.over f t) k) = (if j = k then some u else Tab.find t k).map (f k)
    split
    · next h => rw [h]; rfl
    · exact ih

/-- A hint with the key of `e` is removed before the ring insert (R694). -/
def hintDisplaced (e : TslEntry) (a : Nat) (x : TslEntry) : TslEntry :=
  if 57344 ≤ a ∧ x.valid ∧ x.key = e.key then { x with valid := false } else x

theorem tslRing_entries (e : TslEntry) (s : State) : (tslRing e s).teasel.entries
    = (s.teasel.entries.over (hintDisplaced e)).put (57344 + s.teasel.ring) { e with valid := true } := rfl

theorem tslRing_at_pointer (e : TslEntry) (s : State) :
    (tslRing e s).tslAt (57344 + s.teasel.ring) = { e with valid := true } :=
  tslWrite_at_self ..

/-- No valid hint with the key of `e` is left by the removal. -/
theorem hintDisplaced_displaces {e x : TslEntry} {a : Nat} (ha : 57344 ≤ a) (hv : (hintDisplaced e a x).valid = true) :
    (hintDisplaced e a x).key ≠ e.key := by
  unfold hintDisplaced at hv ⊢
  split at hv
  · cases hv
  · next h =>
    rw [if_neg h]
    exact fun hk => h ⟨ha, hv, hk⟩

/-- Settles O59: a free-slot insert by the search for its address, a ring insert by the removal before its write. -/
theorem teaselInsertsTakeTheirAddress : Obligations.TeaselInsertsTakeTheirAddress := by
  unfold Obligations.TeaselInsertsTakeTheirAddress
  intro s e g lo n hg
  refine ⟨fun a ha => ?taken, fun hn => ?full, ⟨rfl, tslRing_at_pointer e s⟩, fun _ a x ha hx hv hk => ?displaced⟩
  case taken =>
    cases hf : tslFree s (groupSpan g).1 (groupSpan g).2 with
    | none =>
      rw [tslFreeSlot_of_none e hf] at ha
      cases ha
    | some b =>
      rw [tslFreeSlot_of_some e hf] at ha ⊢
      cases ha
      rw [← hg] at hf
      obtain ⟨low, high, free, below⟩ := tslFree_of_some hf
      exact ⟨low, high, free, below, tslWrite_at_self .., fun b hb => tslWrite_at_other hb ..⟩
  case full =>
    cases hf : tslFree s (groupSpan g).1 (groupSpan g).2 with
    | none => exact tslFree_of_none (by rwa [← hg] at hf)
    | some b =>
      rw [tslFreeSlot_of_some e hf] at hn
      cases hn
  case displaced =>
    by_contra hne
    rw [tslRing_entries, Tab.find_put, if_neg (Ne.symm hne), Tab.find_over] at hx
    obtain ⟨y, -, rfl⟩ := Option.map_eq_some_iff.mp hx
    exact hintDisplaced_displaces ha hv hk

/-! ### The commands of Teasel (R687 to R698, R700, R702) -/

section
variable {s : State} (on : s.teaselOn = true)
include on

theorem exec_teaselSearch_of_clean {q : TslSearch} (h1 : 1 ≤ q.n) (hn : q.n ≤ 4096) :
    exec (.teaselSearch q none) s = .next (tslCounted (tslSearch s q) s) :=
  if_pos (by simp [on, h1, hn])

/-- An uncorrectable word of a selected bank is rebuilt before the search is answered (R700). -/
theorem exec_teaselSearch_of_uncorrectable {q : TslSearch} {a : Nat} (h1 : 1 ≤ q.n) (hn : q.n ≤ 4096) (ha : a < 65536)
    (hb : q.banks.getLsbD (a / 4096) = true) :
    exec (.teaselSearch q (some a)) s = .next (tslCounted (tslSearch (tslRebuild a s) q) (tslRebuild a s)) := by
  show execTeaselSearch q (some a) s = _
  simp [execTeaselSearch, on, h1, hn, ha, hb]

theorem exec_teaselRemoveByAddress_of_within {a : Nat} (h0 : 32768 ≤ a) (h1 : a < 57344) :
    exec (.teaselRemoveByAddress a) s = .next (tslClear a s) :=
  if_pos (by simp [on, h0, h1])

variable {e : TslEntry} (space : e.inSpace = true)
include space

theorem exec_teaselSearchInsert_of_inSpace :
    exec (.teaselSearchInsert e) s = .next (tslSearchInsert e s).2 := if_pos (by simp [on, space])

theorem exec_teaselOrderedInsert_of_inSpace : exec (.teaselOrderedInsert e) s = .next (tslOrdered e s) :=
  if_pos (by simp [on, space])

theorem exec_teaselRingInsert_of_inSpace : exec (.teaselRingInsert e) s = .next (tslRing e s) :=
  if_pos (by simp [on, space])

theorem exec_teaselFreeSlotInsert_overlap :
    exec (.teaselFreeSlotInsert .overlap e) s = .next (tslFreeSlot .overlap e s).2 := if_pos (by simp [on, space])

theorem exec_teaselFreeSlotInsert_stripes :
    exec (.teaselFreeSlotInsert .stripes e) s = .next (tslFreeSlot .stripes e s).2 := if_pos (by simp [on, space])

end

theorem tslClear_at_self {s : State} {a : Nat} {x : TslEntry} (h : s.teasel.entries.find a = some x) :
    (tslClear a s).tslAt a = { x with valid := false } := by
  simp only [tslClear, h, State.tslAt, Tab.look_put, if_pos]

theorem tslClear_at_other {a b : Nat} (hb : b ≠ a) (s : State) : (tslClear a s).tslAt b = s.tslAt b := by
  unfold tslClear
  split
  · exact (Tab.look_put ..).trans (if_neg (Ne.symm hb))
  · rfl

/-- Settles O46: each command by its operation; that a rebuild is whole in the step of the search is the model's choice (log
entry 21). -/
theorem teaselCommandsAct : Obligations.TeaselCommandsAct := by
  unfold Obligations.TeaselCommandsAct
  intro s q e on
  refine ⟨exec_teaselSearch_of_clean on, fun a t h1 hn ha hb ht => ?rebuilt, fun space => ?inserts,
    fun a h0 h1 => ⟨_, exec_teaselRemoveByAddress_of_within on h0 h1, fun x => tslClear_at_self,
      fun b hb => tslClear_at_other hb s⟩, if_pos on, if_pos on, fun a hc => if_neg (by simp [hc])⟩
  case rebuilt =>
    subst ht
    exact exec_teaselSearch_of_uncorrectable on h1 hn ha hb
  case inserts =>
    have overlap := exec_teaselFreeSlotInsert_overlap on space
    have stripes := exec_teaselFreeSlotInsert_stripes on space
    refine ⟨exec_teaselSearchInsert_of_inSpace on space, exec_teaselOrderedInsert_of_inSpace on space,
      fun a ha => ?_, fun a ha => ?_, fun ha => ?_, fun ha => ?_,
      ⟨_, exec_teaselRingInsert_of_inSpace on space, tslRing_at_pointer e s, rfl⟩⟩
    · rw [overlap, tslFreeSlot_of_some e ha]
    · rw [stripes, tslFreeSlot_of_some e ha]
    · rw [overlap, tslFreeSlot_of_none e ha]; rfl
    · rw [stripes, tslFreeSlot_of_none e ha]; rfl

end Sys2Proof.Machine
end


section
/-!
PROOFS. The throttle loop and power states: Set Features Power Management, handshakes, the return from Patrol and its cycle.
-/

namespace Sys2Proof.Machine

/-! ### The throttle loop (R580) -/

/-- What a change of the loop's clock level leaves: the level, the cap, and that throttling goes on. -/
theorem setLoopLevel_shows (n : Nat) (s : State) : (setLoopLevel n s).thermal.loop_level = n ∧
    (setLoopLevel n s).thermal.cap = s.thermal.cap ∧
    (setLoopLevel n s).thm.status.throttling = s.thm.status.throttling := by
  have kept := raise_recorded (src 3 4) n (leBytes 4 s.thermal.loop_level)
    (refreshLevel { s with thermal.loop_level := n })
  exact ⟨kept.keeps (f := (·.thermal.loop_level)) fun _ => rfl, kept.keeps (f := (·.thermal.cap)) fun _ => rfl,
    kept.keeps (f := (·.thm.status.throttling)) fun _ => rfl⟩

/-- While throttling, Method A goes before Method B. -/
theorem throttleUp_of_throttling {s : State} (h : s.thm.status.throttling = true) : throttleUp s
    = if s.thm.cfg.method_a ∧ s.thm.cfg2.toNat < s.thermal.cap
      then { s with thermal.cap := max s.thm.cfg2.toNat (s.thermal.cap * 7 / 8) }
      else if s.thm.cfg.method_b ∧ s.thermal.loop_level < 2 then setLoopLevel (s.thermal.loop_level + 1) s else s := by
  unfold throttleUp
  rw [if_pos h]

/-- Settles O43: by the method that the test finds to act. -/
theorem throttleRaisesCapThenLevel : Obligations.ThrottleRaisesCapThenLevel := by
  unfold Obligations.ThrottleRaisesCapThenLevel
  intro s h
  rw [throttleUp_of_throttling h]
  refine ⟨fun ha hc => ?methodA, fun ha hb hl => ?methodB, ?throttling⟩
  case methodA =>
    rw [if_pos ⟨ha, hc⟩]
    exact ⟨rfl, rfl⟩
  case methodB =>
    have noA : ¬(s.thm.cfg.method_a = true ∧ s.thm.cfg2.toNat < s.thermal.cap) := by
      rintro ⟨on, above⟩
      rcases ha with off | least
      · exact absurd on (Bool.eq_false_iff.mp off)
      · omega
    obtain ⟨level, cap, -⟩ := setLoopLevel_shows (s.thermal.loop_level + 1) s
    rw [if_neg noA, if_pos ⟨hb, hl⟩]
    exact ⟨cap, level⟩
  case throttling =>
    obtain ⟨-, -, on⟩ := setLoopLevel_shows (s.thermal.loop_level + 1) s
    exact ite_shows (f := (·.thm.status.throttling)) h (ite_shows (f := (·.thm.status.throttling)) (on.trans h) h)

/-! ### Set Features Power Management (R602, R605, R606, R613, R615, R616) -/

/-- The command that asks for power state `p` waits in the tracker for the end of what it began (R608). -/
def powerParked (n : Nat) (s : State) : State := onEntry n (fun e => { e with state := .overlap }) s

/-- A request for state `p` in the place of the controller's last: shown done, a return, or a handshake (R606, R613). -/
def powerChanged (n p : Nat) (e : Entry) (s : State) : State :=
  let next := stateByRequests (setRequested e.ctrl p s)
  if next = s.psm.status.in_force.toNat then finishEntry n 0 0 (noteOperational e.ctrl p (setRequested e.ctrl p s))
  else if s.psm.status.in_force.toNat = 4 ∨ next = 0 then
    beginReturn next (some n) (noteOperational e.ctrl p (setRequested e.ctrl p (powerParked n s)))
  else beginHandshake next e.ctrl (some n) s

/-- A request for state `p` of a form that is valid: turned away, waiting, or carried out. -/
def powerRequested (n p : Nat) (e : Entry) (s : State) : State :=
  if s.power_states.handshake.isSome then finishEntry n Status.sequenceError 0x300 s
  else if s.reset_ctl.sequence.isSome then s
  else if p = requested s e.ctrl then finishEntry n 0 0 s
  else if s.power_states.returning.isSome then s
  else powerChanged n p e s

/-- The command, whose state or hint may not exist (R602). -/
def powerAsked (n : Nat) (e : Entry) (s : State) : State :=
  if 4 < e.sqe.cdw11.toNat % 32 ∨ e.sqe.cdw11.toNat / 32 % 8 ≠ 0 then finishEntry n Status.invalidField 0 s
  else powerRequested n (e.sqe.cdw11.toNat % 32) e s

section
variable {s : State} {n p : Nat} {e : Entry}

theorem exec_setFeaturesPowerManagement_of_named (h : fetchedEntry n true 0x09 s = some e) (hs : e.sqe.save = false)
    (hf : e.sqe.fid = 0x02) : exec (.setFeaturesPowerManagement n) s = .next (powerAsked n e s) :=
  runFeature_of_named (powerAsked n) h hs hf

theorem powerRequested_of_handshake (hh : s.power_states.handshake.isSome = true) :
    powerRequested n p e s = finishEntry n Status.sequenceError 0x300 s := if_pos hh

theorem powerRequested_of_sequence (hh : s.power_states.handshake = none) (hs : s.reset_ctl.sequence.isSome = true) :
    powerRequested n p e s = s := by
  simp [powerRequested, hh, hs]

theorem powerRequested_of_same (hh : s.power_states.handshake = none) (hs : s.reset_ctl.sequence = none)
    (hp : p = requested s e.ctrl) : powerRequested n p e s = finishEntry n 0 0 s := by
  simp [powerRequested, hh, hs, hp]

theorem powerRequested_of_returning (hh : s.power_states.handshake = none) (hs : s.reset_ctl.sequence = none)
    (hp : p ≠ requested s e.ctrl) (hr : s.power_states.returning.isSome = true) : powerRequested n p e s = s := by
  simp [powerRequested, hh, hs, hp, hr]

theorem powerRequested_of_idle (hh : s.power_states.handshake = none) (hs : s.reset_ctl.sequence = none)
    (hp : p ≠ requested s e.ctrl) (hr : s.power_states.returning = none) :
    powerRequested n p e s = powerChanged n p e s := by
  simp [powerRequested, hh, hs, hp, hr]

/-- The state in force is PS4 exactly where its number is 4. -/
theorem inForce_eq_four_iff (s : State) : s.psm.status.in_force.toNat = 4 ↔ s.psm.status.in_force = 4 :=
  ⟨fun h => BitVec.eq_of_toNat_eq h, fun h => congrArg BitVec.toNat h⟩

end

/-- Settles O31: a valid request by what it finds in progress. That it waits while a return runs is the model's choice (log
entry 76). -/
theorem powerManagementIsSet : Obligations.PowerManagementIsSet := by
  unfold Obligations.PowerManagementIsSet
  rintro s n _ e h hs hf rfl
  rw [exec_setFeaturesPowerManagement_of_named h hs hf, powerAsked]
  refine ⟨fun bad => by rw [if_pos bad], fun hp hw => ?_⟩
  have valid : ¬(4 < e.sqe.cdw11.toNat % 32 ∨ e.sqe.cdw11.toNat / 32 % 8 ≠ 0) := by omega
  rw [if_neg valid]
  refine ⟨fun hh => ?handshake, fun hh hq => ?sequence, fun hh hq same => ?same, fun hh hq other hr => ?returning,
    fun hh hq other hr => ⟨fun stays => ?stays, fun moves back => ?back, fun moves not4 not0 => ?handshakes⟩⟩
  case handshake => rw [powerRequested_of_handshake hh]
  case sequence => rw [powerRequested_of_sequence hh hq]
  case same => rw [powerRequested_of_same hh hq same]
  case returning => rw [powerRequested_of_returning hh hq other hr]
  all_goals rw [powerRequested_of_idle hh hq other hr]
  case stays => exact congrArg _ (if_pos stays)
  case back =>
    rw [← inForce_eq_four_iff] at back
    exact congrArg _ ((if_neg moves).trans (if_pos back))
  case handshakes =>
    rw [Ne, ← inForce_eq_four_iff] at not4
    exact congrArg _ ((if_neg moves).trans (if_neg (by simp [not4, not0])))

/-! ### Handshakes (R608, R609) -/

section
variable {s : State} {h : Handshake} {c : Nat} (hs : s.power_states.handshake = some h)
include hs

theorem exec_handshakeReply_of_waiting (hw : h.waiting.contains c = true) (hc : c ≠ 0x0B) (refuse : Bool) :
    exec (.handshakeReply c refuse) s = .next (if refuse then
        (if refuses s h.target c then refuseHandshake h (h.waiting.filter (refuses s h.target)) 1 s else s)
      else if refuses s h.target c || delays s h.target c then s else participantAccepts c h s) := by
  show execHandshakeReply c refuse s = _
  simp only [execHandshakeReply, hs, hw]
  rw [if_neg (by simpa using hc)]

theorem exec_handshakeTimeout_of_due (hd : s.due .handshake 0 = true) (hl : h.waiting.filter (delays s h.target) ≠ []) :
    exec .handshakeTimeout s = .next (refuseHandshake h (h.waiting.filter (delays s h.target)) 2 s) := by
  show execHandshakeTimeout s = _
  simp only [execHandshakeTimeout, hs, hd]
  rw [if_pos (by simpa using hl)]

end

/-! ### The return from Patrol (R613, R617, R618) -/

/-- The return goes to its next step. -/
def returnStepped (r : PatrolReturn) (s : State) : State :=
  { s with power_states.returning := some { r with step := r.step + 1 } }

/-- A channel trains. -/
def anyTrains (s : State) : Bool := s.media.channels.vals.any fun c => c.training.isSome

theorem anyTrains_of_none {s : State} (h : ∀ c ∈ s.media.channels, c.2.training = none) : anyTrains s = false := by
  rw [anyTrains, List.any_eq_false]
  rintro c hc
  obtain ⟨p, hp, rfl⟩ := List.mem_map.mp hc
  simp [h p hp]

theorem anyTrains_of_mem {s : State} {c : Nat × ChannelState} (hc : c ∈ s.media.channels) (h : c.2.training ≠ none) :
    anyTrains s = true :=
  List.any_eq_true.mpr ⟨c.2, List.mem_map_of_mem hc, Option.isSome_iff_ne_none.mpr h⟩

section
variable {s : State} {r : PatrolReturn} (hr : s.power_states.returning = some r)
include hr

theorem exec_patrolReturnStep_tells (h : r.step = 1) : exec .patrolReturnStep s
    = .next (each (children s) (fun p => sendFrame 0x30 p 0 [r.target, 1]) (cancelPatrol (returnStepped r s))) := by
  show execPatrolReturnStep s = _
  simp only [execPatrolReturnStep, hr, h, returnStepped]

theorem exec_patrolReturnStep_passes (h : r.step = 2) : exec .patrolReturnStep s = .next (returnStepped r s) := by
  show execPatrolReturnStep s = _
  simp only [execPatrolReturnStep, hr, h, returnStepped]

theorem exec_patrolReturnStep_retrains (h : r.step = 3) : exec .patrolReturnStep s
    = .next (each ((List.range 48).filter (retrainDue s)) beginBusTraining (returnStepped r s)) := by
  show execPatrolReturnStep s = _
  simp only [execPatrolReturnStep, hr, h, returnStepped]

theorem exec_patrolReturnStep_waits (h : r.step = 4) :
    exec .patrolReturnStep s = .next (if anyTrains s then s else returnStepped r s) := by
  show execPatrolReturnStep s = _
  simp only [execPatrolReturnStep, hr, h, returnStepped, anyTrains]

theorem exec_patrolReturnStep_ends (h : r.step = 5) : exec .patrolReturnStep s = .next (endReturn r s) := by
  show execPatrolReturnStep s = _
  simp only [execPatrolReturnStep, hr, h]

end

/-! ### The Patrol cycle (R620, R622, R625) -/

/-- The phase of Patrol and the stamp of its cycle. -/
def State.patrolSeen (s : State) : BitVec 2 × Option Nat := (s.psm.status.patrol_phase, s.power_states.cycle)

/-- The cycle has its stamp, and its quarter of the period runs. -/
def cycleBegun (st : Stamped) (s : State) : State :=
  arm .patrolQuarter 0 (s.psm.patrolPeriod.toNat / 4)
    { s with power_states.cycle := some st.stamp.toNat, power_states.samples := [], psm.status.patrol_phase := 2 }

/-- The cursor goes to the first block that is left unread, or to the first read where every block is. -/
def cursorPassed (l : List Nat) (s : State) : State :=
  match (patrolOrder s)[l.length]?, l with
  | some k, _ => setCursor k s
  | none, k :: _ => setCursor k s
  | none, [] => s

theorem cursorPassed_patrolSeen (l : List Nat) (s : State) : (cursorPassed l s).patrolSeen = s.patrolSeen := by
  unfold cursorPassed
  split <;> rfl

theorem patrolRead_patrolSeen (v k : Nat) (s : State) : (patrolRead v k s).patrolSeen = s.patrolSeen := rfl

/-- The blocks that a cycle reads (R622). -/
def cycleBlocks (s : State) : List Nat := (patrolOrder s).take s.psm.patrolCfg.patrol_reads.toNat

/-- The reads of a cycle are issued (R622, R623). -/
def cycleIssued (st : Stamped) (s : State) : State :=
  each (cycleBlocks s) (patrolRead st.stamp.toNat) (cursorPassed (cycleBlocks s) s)

theorem cycleIssued_patrolSeen (st : Stamped) (s : State) : (cycleIssued st s).patrolSeen = s.patrolSeen :=
  (each_keeps (patrolRead_patrolSeen _) _ _).trans (cursorPassed_patrolSeen ..)

/-- PATROL_WAKE takes the stamp of its cycle once the period is armed again. -/
def cycleStamp (s : State) : Stamped × State := takeStamp (arm .patrolPeriod 0 s.psm.patrolPeriod.toNat s)

theorem exec_patrolWake_of_due {s : State} (hd : s.due .patrolPeriod 0 = true) (h4 : s.psm.status.in_force = 4)
    (hr : s.power_states.returning = none) (he : s.psm.patrolCfg.patrol_enable = true)
    (hc : s.power_states.cycle = none) (hs : s.serving = true) :
    exec .patrolWake s = .next (cycleIssued (cycleStamp s).1 (cycleBegun (cycleStamp s).1 (cycleStamp s).2)) :=
  congrArg _ (if_pos (by simp [hd, h4, hr, he, hc, hs]))

/-- Settles O44: each row by what it finds in progress; the cycle's reads leave its phase and its stamp. -/
theorem handshakesAndPatrolAdvance : Obligations.HandshakesAndPatrolAdvance := by
  unfold Obligations.HandshakesAndPatrolAdvance
  intro s
  refine ⟨fun h c hs hw hc => ?reply, fun h hs => exec_handshakeTimeout_of_due hs, fun r t hr ht => ?returns,
    fun hd h4 hr he hc hs => ?wake, fun u hc hd hu => ?ends⟩
  case reply =>
    have reply := exec_handshakeReply_of_waiting hs hw hc
    refine ⟨fun hr hd => ?_, fun hb => ?_, fun hr => ?_⟩
    · rw [reply false]
      simp [hr, hd]
    · rw [reply false]
      rcases hb with hb | hb <;> simp [hb]
    · rw [reply true]
      simp [hr]
  case returns =>
    change t = returnStepped r s at ht
    subst ht
    refine ⟨exec_patrolReturnStep_tells hr, exec_patrolReturnStep_passes hr, exec_patrolReturnStep_retrains hr,
      fun h4 hn => ?_, fun c hc h4 ht => ?_, exec_patrolReturnStep_ends hr⟩
    · rw [exec_patrolReturnStep_waits hr h4, anyTrains_of_none hn]
      rfl
    · rw [exec_patrolReturnStep_waits hr h4, anyTrains_of_mem hc ht]
      rfl
  case wake =>
    have seen : (cycleIssued (cycleStamp s).1 (cycleBegun (cycleStamp s).1 (cycleStamp s).2)).patrolSeen
        = (2, some (cycleStamp s).1.stamp.toNat) := cycleIssued_patrolSeen ..
    exact ⟨_, exec_patrolWake_of_due hd h4 hr he hc hs, congrArg Prod.fst seen, congrArg Prod.snd seen⟩
  case ends =>
    subst hu
    have ended : (s.power_states.samples.all PatrolSample.done || s.due .patrolQuarter 0) = true := by
      rcases hd with all | due
      · simp [List.all_eq_true.mpr all]
      · simp [due]
    exact congrArg _ (if_pos (by simp [Option.isSome_iff_ne_none.mpr hc, ended]))

end Sys2Proof.Machine
end


section
/-!
PROOFS. Security and memory integrity: the methods of the Opal subset, the engines and the scrubber.
-/

namespace Sys2Proof.Machine

/-! ### Opal (R650 to R659) -/

theorem runMethod_of_addressed {s : State} {n p : Nat} {e : Entry} (f : Entry → State → State)
    (h : adminEntry n 0x81 s = some e) (ho : opalAddressed s e.sqe = true) (hp : e.sqe.secp = p) :
    runMethod n p f s = .next (f e s) := by
  simp [runMethod, h, ho, hp]

section
variable {s : State} {n : Nat} {e : Entry} (h : adminEntry n 0x81 s = some e) (ho : opalAddressed s e.sqe = true)
  (hp : e.sqe.secp = 1)
include h ho hp

theorem lockingMethod_of_admin (f : Entry → State → State) (ha : sessionAdmin s e.ctrl 1 = true) :
    lockingMethod n f s = .next (f e s) :=
  (runMethod_of_addressed _ h ho hp).trans (congrArg _ (if_pos ha))

/-- A method on the Locking SP by none of its administrators (R652). -/
theorem lockingMethod_of_other (f : Entry → State → State) (ha : sessionAdmin s e.ctrl 1 = false) :
    lockingMethod n f s = .next (respond n Tcg.notAuthorized s) :=
  (runMethod_of_addressed _ h ho hp).trans (congrArg _ (if_neg (Bool.eq_false_iff.mp ha)))

theorem exec_opalSetLock_of_admin {k : Nat} (r w : Option Bool) (ha : sessionAdmin s e.ctrl 1 = true)
    (hk : k ≤ s.sec.cfg.range_max.toNat) : exec (.opalSetLock n k r w) s = .next (changeStore n (OpalStore.setRange k
      fun x => { x with read_locked := r.getD x.read_locked, write_locked := w.getD x.write_locked }) s) := by
  show execOpalSetLock n k r w s = _
  rw [execOpalSetLock, rangeMethod, lockingMethod_of_admin h ho hp _ ha, if_neg (Nat.not_lt.mpr hk)]

theorem exec_opalSetRange_of_valid {k : Nat} (c : RangeSet) (ha : sessionAdmin s e.ctrl 1 = true)
    (hv : rangeInvalid s k (c.apply (s.range k)) = false) :
    exec (.opalSetRange n k c) s = .next (changeStore n (OpalStore.setRange k c.apply) s) := by
  show execOpalSetRange n k c s = _
  rw [execOpalSetRange, lockingMethod_of_admin h ho hp _ ha, if_neg (Bool.eq_false_iff.mp hv)]

theorem exec_opalSetRange_of_invalid {k : Nat} (c : RangeSet) (ha : sessionAdmin s e.ctrl 1 = true)
    (hv : rangeInvalid s k (c.apply (s.range k)) = true) :
    exec (.opalSetRange n k c) s = .next (respond n Tcg.invalidParameter s) := by
  show execOpalSetRange n k c s = _
  rw [execOpalSetRange, lockingMethod_of_admin h ho hp _ ha, if_pos hv]

theorem exec_opalGenkey_of_admin {k : Nat} (ha : sessionAdmin s e.ctrl 1 = true) (hk : k ≤ s.sec.cfg.range_max.toNat) :
    exec (.opalGenkey n k) s = .next (beginGenKey n [k] false s) := by
  show execOpalGenkey n k s = _
  rw [execOpalGenkey, lockingMethod_of_admin h ho hp _ ha, if_neg (Nat.not_lt.mpr hk)]

theorem exec_opalRevert_of_method : exec (.opalRevert n) s
    = .next (if sessionAdmin s e.ctrl 0 || sessionAdmin s e.ctrl 1 then beginGenKey n (List.range 65) true s
        else respond n Tcg.notAuthorized s) := by
  show execOpalRevert n s = _
  rw [execOpalRevert, runMethod_of_addressed _ h ho hp]

/-- By none of the administrators no method on a range is carried out. -/
theorem exec_opalRanges_of_other (k : Nat) (ha : sessionAdmin s e.ctrl 1 = false) :
    (∀ r w, exec (.opalSetLock n k r w) s = .next (respond n Tcg.notAuthorized s)) ∧
    (∀ c, exec (.opalSetRange n k c) s = .next (respond n Tcg.notAuthorized s)) ∧
    exec (.opalGenkey n k) s = .next (respond n Tcg.notAuthorized s) := by
  refine ⟨fun r w => ?_, fun c => ?_, ?_⟩
  · show execOpalSetLock n k r w s = _
    rw [execOpalSetLock, rangeMethod, lockingMethod_of_other h ho hp _ ha]
  · show execOpalSetRange n k c s = _
    rw [execOpalSetRange, lockingMethod_of_other h ho hp _ ha]
  · show execOpalGenkey n k s = _
    rw [execOpalGenkey, lockingMethod_of_other h ho hp _ ha]

/-- The first authority of a session joins it with its PIN (R659). -/
theorem exec_opalAuthenticate_of_first {x : Session} (a : Nat) (pin : Bytes) (hs : s.security.session = some x)
    (hc : x.ctrl = e.ctrl) (hn : x.authorities = []) : exec (.opalAuthenticate n a pin) s
      = .next (respond n (checkPin e.admitted.stamp.toNat a pin s).1 { (checkPin e.admitted.stamp.toNat a pin s).2 with
          security.session := some (if (checkPin e.admitted.stamp.toNat a pin s).1 = Tcg.success
            then { x with authorities := [a] } else x) }) := by
  show execOpalAuthenticate n a pin s = _
  rw [execOpalAuthenticate, runMethod_of_addressed _ h ho hp]
  simp [hs, hc, hn]

theorem exec_opalAuthenticate_of_closed (a : Nat) (pin : Bytes) (hs : s.security.session = none) :
    exec (.opalAuthenticate n a pin) s = .next (respond n Tcg.notAuthorized s) := by
  show execOpalAuthenticate n a pin s = _
  rw [execOpalAuthenticate, runMethod_of_addressed _ h ho hp]
  simp [hs]

/-- A method with no row of its own (R651). -/
theorem exec_securitySend_of_method {m : OpalMethod} (hm : m ≠ .stackReset) :
    exec (.securitySend n m) s = .next (runOther n e m s) := by
  have method : exec (.securitySend n m) s = runMethod n 1 (fun e s => runOther n e m s) s := by
    show execSecuritySend n m s = _
    cases m with
    | stackReset => exact absurd rfl hm
    | startSession | endSession | setPin | setTryLimit | setLockEnabled | setLockOnReset | activate | datastore
    | readDatastore | other => rfl
  exact method.trans (runMethod_of_addressed _ h ho hp)

end

/-- Either reset of protocol 0x02 closes the session; a stack reset drops the response too (R651, R656). -/
theorem exec_opalResets {s : State} {n : Nat} {e : Entry} (h : adminEntry n 0x81 s = some e)
    (ho : opalAddressed s e.sqe = true) (hp : e.sqe.secp = 2) :
    exec (.tperReset n) s = .next (finishEntry n 0 0 { s with security.session := none }) ∧
    exec (.securitySend n .stackReset) s
      = .next (finishEntry n 0 0 { s with security.session := none, security.response := [] }) := by
  constructor
  · show execTperReset n s = _
    rw [execTperReset, runMethod_of_addressed _ h ho hp]
  · show execSecuritySend n .stackReset s = _
    simp only [execSecuritySend]
    rw [runMethod_of_addressed _ h ho hp]

/-- Settles O37: each method by its protocol, the session it stands in, and what it is about. The numbers of authorities and the
statuses are presumed (log entry 42); the steps of GenKey are one row (log entry 74). -/
theorem opalMethodsRespond : Obligations.OpalMethodsRespond := by
  unfold Obligations.OpalMethodsRespond
  intro s n k e h ho
  refine ⟨fun hp => ⟨fun ha => ?admin, fun ha => ?other, fun x a p hs hc hn => ?first, fun a p hs => ?closed,
    fun sp a p => ?start, ?ends, fun ha => ?activate⟩,
    exec_opalResets h ho⟩
  case admin =>
    refine ⟨fun r w => exec_opalSetLock_of_admin h ho hp r w ha, fun c => exec_opalSetRange_of_valid h ho hp c ha,
      fun c => exec_opalSetRange_of_invalid h ho hp c ha, exec_opalGenkey_of_admin h ho hp ha, ?_⟩
    rw [exec_opalRevert_of_method h ho hp, if_pos (by simp [ha])]
  case other =>
    obtain ⟨locks, ranges, genkey⟩ := exec_opalRanges_of_other h ho hp k ha
    refine ⟨locks, ranges, genkey, fun h0 => ?_⟩
    rw [exec_opalRevert_of_method h ho hp, if_neg (by simp [ha, h0])]
  case first => exact exec_opalAuthenticate_of_first h ho hp a p hs hc hn
  case closed => exact exec_opalAuthenticate_of_closed h ho hp a p hs
  case start => exact exec_securitySend_of_method h ho hp (by simp)
  case ends => exact exec_securitySend_of_method h ho hp (by simp)
  case activate => exact (exec_securitySend_of_method h ho hp (by simp)).trans (congrArg _ (if_pos ha))

/-! ### Engines (R637 to R639, R645 to R649) -/

/-- A flag pair of two equal values is a failure (R639, R648). -/
theorem pairHolds_self (a : Bool) : pairHolds a a = false := by
  cases a <;> rfl

section
variable {s : State} {l : Nat} {m : GcmMessage} (hm : s.security.lanes.find l = some m)
include hm

theorem exec_gcmMessageDone_of_sealed (a b : Bool) (hs : m.sealing = true) (hn : nonceLeft s = true) :
    exec (.gcmMessageDone l a b) s = .next (messageSealed l m (freeLane l s)) := by
  show execGcmMessageDone l a b s = _
  simp [execGcmMessageDone, hm, hs, hn]

theorem exec_gcmMessageDone_of_noNonce (a b : Bool) (hs : m.sealing = true) (hn : nonceLeft s = false) :
    exec (.gcmMessageDone l a b) s = .next s := by
  show execGcmMessageDone l a b s = _
  simp [execGcmMessageDone, hm, hs, hn]

theorem exec_gcmMessageDone_of_opened (a b : Bool) (hs : m.sealing = false) :
    exec (.gcmMessageDone l a b) s = .next (messageOpened a b (freeLane l s)) := by
  show execGcmMessageDone l a b s = _
  simp [execGcmMessageDone, hm, hs]

end

section
variable {s : State} {c : Nat} {u : EngineUse} (hu : s.security.contexts.find c = some u)
include hu

theorem exec_digestDone_of_computed (a b : Bool) (hc : u.compares = false) :
    exec (.digestDone c a b) s = .next (freeDigest c s) := by
  show execDigestDone c a b s = _
  simp [execDigestDone, hu, hc]

theorem exec_digestDone_of_same (hc : u.compares = true) : exec (.digestDone c true false) s = .next (freeDigest c s) := by
  show execDigestDone c true false s = _
  simp [execDigestDone, hu, hc, pairHolds]

theorem exec_digestDone_of_different (hc : u.compares = true) :
    exec (.digestDone c false true) s = .next (checkFailed u (freeDigest c s)) := by
  show execDigestDone c false true s = _
  simp [execDigestDone, hu, hc, pairHolds]

/-- A pair that is no answer is a flag fault, and a failed check (R648). -/
theorem exec_digestDone_of_fault (a : Bool) (hc : u.compares = true) :
    exec (.digestDone c a a) s = .next (checkFailed u (flagFault
      { freeDigest c s with sec.flagFaults.digest := satAdd (freeDigest c s).sec.flagFaults.digest 1 })) := by
  show execDigestDone c a a s = _
  simp [execDigestDone, hu, hc, pairHolds_self]

end

/-- The checker goes on to the signature behind. -/
def signatureTaken (r : List (Nat × EngineUse)) (s : State) : State := { s with security.checker := r }

/-- A signature that is refused counts (R649). -/
def signatureRejected (s : State) : State := { s with sec.sigCount.rejected := satAdd s.sec.sigCount.rejected 1 }

theorem exec_signatureVerifyDone_of_valid {s : State} {u : Nat × EngineUse} {r : List (Nat × EngineUse)}
    (hu : s.security.checker = u :: r) : exec (.signatureVerifyDone true false) s = .next { signatureTaken r s with
      sec.sigCount.verified := satAdd s.sec.sigCount.verified 1 } := by
  show execSignatureVerifyDone true false s = _
  simp only [execSignatureVerifyDone, hu]
  rfl

theorem exec_signatureVerifyDone_of_invalid {s : State} {u : Nat × EngineUse} {r : List (Nat × EngineUse)}
    (hu : s.security.checker = u :: r) :
    exec (.signatureVerifyDone false true) s = .next (checkFailed u.2 (signatureRejected (signatureTaken r s))) := by
  show execSignatureVerifyDone false true s = _
  simp only [execSignatureVerifyDone, hu]
  rfl

theorem exec_signatureVerifyDone_of_fault {s : State} {u : Nat × EngineUse} {r : List (Nat × EngineUse)} (a : Bool)
    (hu : s.security.checker = u :: r) : exec (.signatureVerifyDone a a) s
      = .next (checkFailed u.2 (flagFault { signatureRejected (signatureTaken r s) with
          sec.flagFaults.sig := satAdd s.sec.flagFaults.sig 1 })) := by
  show execSignatureVerifyDone a a s = _
  simp only [execSignatureVerifyDone, hu, pairHolds_self]
  rfl

/-! ### The scrubber (R674, R675, R678 to R681) -/

/-- A pass goes on after a word, or ends behind the last (R681). -/
def passKept (r : Nat) (p : ScrubPass) (s : State) : State :=
  if scrubBytes r ≤ p.position then endPass r p s else { s with memory.passes := s.memory.passes.put r p }

/-- A pass is due while the last has not ended: the next waits for it (R679). -/
def passOverrun (r : Nat) (s : State) : State := disarm (scrubTimer r) r { s with
  mem.scrStatus.overrun := setBit s.mem.scrStatus.overrun r true
  memory.due := if s.memory.due.contains r then s.memory.due else s.memory.due ++ [r] }

theorem passOverrun_due (r : Nat) (s : State) : (passOverrun r s).memory.due.contains r = true := by
  show (if s.memory.due.contains r then s.memory.due else s.memory.due ++ [r]).contains r = true
  split
  · assumption
  · simp

section
variable {s : State} {r : Nat} (hr : r < 4) (hd : s.due (scrubTimer r) r = true) (hs : scrubs s r = true)
include hr hd hs

theorem exec_scrubPassStart_of_ended (hn : s.memory.passes.has r = false) :
    exec (.scrubPassStart r) s = .next (beginPass r s) := by
  show execScrubPassStart r s = _
  rw [execScrubPassStart, if_pos ⟨hr, hd, hs⟩, if_neg (Bool.eq_false_iff.mp hn)]

theorem exec_scrubPassStart_of_running (hh : s.memory.passes.has r = true) :
    exec (.scrubPassStart r) s = .next (passOverrun r s) := by
  show execScrubPassStart r s = _
  rw [execScrubPassStart, if_pos ⟨hr, hd, hs⟩, if_pos hh, passOverrun]

end

/-- The valid bit of a word: CMB SRAM's the state holds, the others' come with the row (log entry 65). -/
def wordValid (s : State) (r a : Nat) (v : Bool) : Bool := if r = 2 then s.memory.cmb_valid.contains (a / 4) else v

theorem wordValid_of {s : State} {r a : Nat} {v b : Bool} (hv : r ≠ 2 → v = b)
    (hc : r = 2 → s.memory.cmb_valid.contains (a / 4) = b) : wordValid s r a v = b := by
  unfold wordValid
  split
  · next h => exact hc h
  · next h => exact hv h

/-- A word within its range: one that is not valid is passed over, and the outcome of the others is counted (R674, R675). -/
def wordScrubbed (r a : Nat) (valid : Bool) (o : EccOutcome) (p : ScrubPass) (s : State) : State :=
  if !valid then passKept r p s
  else match o with
    | .clean => passKept r { p with words := p.words + 1 } s
    | .corrected => passKept r { p with words := p.words + 1, corrected := p.corrected + 1 } (wordCorrected r a s)
    | .uncorrectable x y => passKept r { p with words := p.words + 1, uncorrectable := p.uncorrectable + 1 }
        (wordUncorrectable r a x y s)

section
variable {s : State} {r a : Nat} {p : ScrubPass} (hp : s.memory.passes.find r = some p) (hs : scrubs s r = true)
  (hpos : p.position ≤ a) (ha : a % scrubWord r = 0)
include hp hs hpos ha

theorem exec_scrubWordRead_beyond (v : Bool) (o : EccOutcome) (hb : scrubBytes r ≤ a) :
    exec (.scrubWordRead r a v o) s = .next (endPass r p s) := by
  show execScrubWordRead r a v o s = _
  simp [execScrubWordRead, hp, hs, Nat.not_lt.mpr hpos, ha, hb]

variable (hb : a < scrubBytes r) {v : Bool}
include hb

theorem exec_scrubWordRead_within (o : EccOutcome) : exec (.scrubWordRead r a v o) s
    = .next (wordScrubbed r a (wordValid s r a v) o { p with position := a + scrubWord r } s) := by
  have next : ¬(!scrubs s r || decide (a < p.position) || decide (a % scrubWord r ≠ 0)) = true := by
    simp [hs, Nat.not_lt.mpr hpos, ha]
  show execScrubWordRead r a v o s = _
  simp only [execScrubWordRead, hp]
  rw [if_neg next, if_neg (Nat.not_le.mpr hb), ← wordValid]
  cases wordValid s r a v with
  | false => rfl
  | true => cases o <;> rfl

end

/-- Settles O45: each engine by what it holds and the flag pair it reports, a scrubbed word by its valid bit. That the valid bits
of the other ranges come with the row is the model's choice (log entry 65). -/
theorem enginesFinish : Obligations.EnginesFinish := by
  unfold Obligations.EnginesFinish
  intro s
  refine ⟨fun l m a b hm => ⟨exec_gcmMessageDone_of_sealed hm a b, exec_gcmMessageDone_of_noNonce hm a b,
      exec_gcmMessageDone_of_opened hm a b⟩,
    fun c u hu => ⟨fun hc a b => exec_digestDone_of_computed hu a b hc, fun hc => ⟨exec_digestDone_of_same hu hc,
      exec_digestDone_of_different hu hc, fun a t ht => ?digestFault⟩⟩,
    fun u r t hu ht => ?signature, fun r hr hd hs => ⟨exec_scrubPassStart_of_ended hr hd hs,
      fun hh => ⟨_, exec_scrubPassStart_of_running hr hd hs hh, rfl, passOverrun_due r s⟩⟩,
    fun r a p v o f hp hs hpos ha hf => ⟨exec_scrubWordRead_beyond hp hs hpos ha v o, fun hb => ?word⟩⟩
  case digestFault =>
    subst ht
    exact exec_digestDone_of_fault hu a hc
  case signature =>
    subst ht
    have fault := fun a => exec_signatureVerifyDone_of_fault a hu
    exact ⟨exec_signatureVerifyDone_of_valid hu, exec_signatureVerifyDone_of_invalid hu, fault⟩
  case word =>
    subst hf
    have scrubbed := exec_scrubWordRead_within hp hs hpos ha hb (v := v)
    refine ⟨fun hv hc => ?_, fun hv hc => ⟨?_, ?_, fun x y => ?_⟩⟩
    all_goals
      rw [scrubbed, wordValid_of hv hc]
      rfl

end Sys2Proof.Machine
end


section
/-!
PROOFS. Dies past their limits: timeouts of operations, resets of a LUN, becalmed dies and their probes.
-/

namespace Sys2Proof.Machine

/-! ### Operations past their limits (R507) -/

/-- How long an operation has been busy at its die. -/
def busyFor (s : State) (o : NandOp) : Nat := o.ran + (s.run - o.run_from)

section
variable {s : State} {i : Nat} {o : NandOp} (ho : s.op i = some o)
include ho

theorem exec_dieOpTimeout_of_suspending (hs : o.state = .suspending)
    (hl : (s.geo o.die).t_susp_max < s.run - o.run_from) : exec (.dieOpTimeout i) s
      = .next (timeoutOutcome o.die (onOp i (fun x => { x with state := .running, run_from := s.run }) s)) := by
  show execDieOpTimeout i s = _
  simp only [execDieOpTimeout, ho, hs]
  exact if_pos hl

variable (hs : o.state = .running)
include hs

/-- The last limit resets the LUN. -/
theorem exec_dieOpTimeout_of_stuck (hl : 2 * longest s o + 2 ^ 26 < busyFor s o) (hr : (s.lun o.die).reset = false) :
    exec (.dieOpTimeout i) s = .next (timeoutOutcome o.die
      (arm .dieReset o.die (2 ^ 23) (onLun o.die (fun l => { l with reset := true }) s))) := by
  show execDieOpTimeout i s = _
  simp only [execDieOpTimeout, ho, hs]
  exact if_pos ⟨hl, hr⟩

variable (hl : 2 * longest s o < busyFor s o) (hu : busyFor s o ≤ 2 * longest s o + 2 ^ 26)
include hl hu

/-- A read past its limit is sensed once more. -/
theorem exec_dieOpTimeout_of_read (hk : o.kind = .read) (hr : o.resensed = false) : exec (.dieOpTimeout i) s
    = .next (timeoutOutcome o.die (onOp i (fun x => { x with resensed := true, run_from := s.run })
        (countSense (blockKey o.die o.block) s))) := by
  show execDieOpTimeout i s = _
  unfold busyFor at hl hu
  simp only [execDieOpTimeout, ho, hs]
  rw [if_neg fun h => Nat.not_lt.mpr hu h.1, if_pos hl]
  simp only [hk, hr, Bool.false_eq_true, if_false]

/-- A program past its limit is reported as failed, once. -/
theorem exec_dieOpTimeout_of_program (hk : o.kind = .program) (hr : o.overdue = false) : exec (.dieOpTimeout i) s
    = .next (settleMedia (timeoutOutcome o.die (programReported o false (onOp i (fun x => { x with overdue := true }) s)))) := by
  show execDieOpTimeout i s = _
  unfold busyFor at hl hu
  simp only [execDieOpTimeout, ho, hs]
  rw [if_neg fun h => Nat.not_lt.mpr hu h.1, if_pos hl]
  simp only [hk, hr, Bool.false_eq_true, if_false]

/-- An erase past its limit fails, once. -/
theorem exec_dieOpTimeout_of_erase (hk : o.kind = .erase) (hr : o.overdue = false) : exec (.dieOpTimeout i) s
    = .next (settleMedia (timeoutOutcome o.die (eraseFailed (blockKey o.die o.block)
        (onOp i (fun x => { x with overdue := true }) s)))) := by
  show execDieOpTimeout i s = _
  unfold busyFor at hl hu
  simp only [execDieOpTimeout, ho, hs]
  rw [if_neg fun h => Nat.not_lt.mpr hu h.1, if_pos hl]
  simp only [hk, hr, Bool.false_eq_true, if_false]

end

/-! ### Resets of a LUN (R507, R776) -/

/-- The LUN is ready again. -/
def lunReady (d : Nat) (s : State) : State :=
  disarm .dieReset d (onLun d (fun l => { l with reset := false, running := none }) s)

/-- The LUN is given up: nothing of it is left. -/
def lunDropped (d : Nat) (s : State) : State := disarm .dieReset d (onLun d (fun _ => {}) s)

section
variable {s : State} {d : Nat} (hr : (s.lun d).reset = true)
include hr

theorem exec_lunResetReady_of_idle (hn : (s.lun d).running = none) :
    exec (.lunResetReady d) s = .next (lunReady d s) := by
  show execLunResetReady d s = _
  rw [execLunResetReady, if_pos hr, hn]
  rfl

theorem exec_lunResetReady_of_running {i : Nat} (hi : (s.lun d).running = some i) :
    exec (.lunResetReady d) s = .next (settleMedia (endAtReset i (lunReady d s))) := by
  show execLunResetReady d s = _
  rw [execLunResetReady, if_pos hr, hi]
  rfl

variable (hd : s.due .dieReset d = true)
include hd

theorem exec_lunResetTimeout_of_idle (hn : (s.lun d).running = none) :
    exec (.lunResetTimeout d) s = .next (settleMedia (failDie d 2 (lunDropped d s))) := by
  show execLunResetTimeout d s = _
  rw [execLunResetTimeout, if_pos ⟨hr, hd⟩, hn]
  rfl

theorem exec_lunResetTimeout_of_running {i : Nat} (hi : (s.lun d).running = some i) :
    exec (.lunResetTimeout d) s = .next (settleMedia (failDie d 2 (endAtReset i (lunDropped d s)))) := by
  show execLunResetTimeout d s = _
  rw [execLunResetTimeout, if_pos ⟨hr, hd⟩, hi]
  rfl

end

/-! ### Becalmed dies (R537, R541) -/

/-- A timeout of operation `i` is noted at its die `d`. -/
def timeoutNoted (i d : Nat) (s : State) : State :=
  { onDie d (fun x => { x with becalmed := x.becalmed || x.state == 0, timeouts := x.timeouts ++ [s.run], calm := 0 })
      (onOp i (fun x => { x with timed := true }) s) with
    red.becalmEvents.timeouts := satAdd s.red.becalmEvents.timeouts 1 }

/-- The die becomes becalmed: its probes begin, and its event is raised. -/
def becalmEntered (d : Nat) (s : State) : State :=
  raise (src 12 0) 0 [] (arm .probe d s.red.probeInterval.toNat { s with
    red.becalmEvents.entries := satAdd s.red.becalmEvents.entries 1
    health.counts.becalm_entries := s.health.counts.becalm_entries + 1 })

/-- A read has timed out at its die. -/
def readTimedOut (i d : Nat) (s : State) : State :=
  if (s.die d).state == 0 && !(s.die d).becalmed then becalmEntered d (timeoutNoted i d s) else timeoutNoted i d s

/-- What a timeout shows: the dies, and the count of timeouts. -/
def State.timeoutSeen (s : State) : Tab Die × BitVec 16 := (s.redun.dies, s.red.becalmEvents.timeouts)

theorem becalmEntered_timeoutSeen (d : Nat) (s : State) : (becalmEntered d s).timeoutSeen = s.timeoutSeen :=
  (raise_recorded ..).keeps (f := State.timeoutSeen) fun _ => rfl

theorem readTimedOut_timeoutSeen (i d : Nat) (s : State) :
    (readTimedOut i d s).timeoutSeen = (timeoutNoted i d s).timeoutSeen :=
  ite_shows (becalmEntered_timeoutSeen ..) rfl

theorem timeoutNoted_die (i d : Nat) (s : State) : (timeoutNoted i d s).die d = { s.die d with
    becalmed := (s.die d).becalmed || (s.die d).state == 0, timeouts := (s.die d).timeouts ++ [s.run], calm := 0 } := by
  have same : (onOp i (fun x => { x with timed := true }) s).die d = s.die d := by
    simp only [State.die, onOp_redun]
  refine (Tab.look_put ..).trans ((if_pos rfl).trans ?_)
  rw [same]

theorem readTimedOut_die (i d : Nat) (s : State) : (readTimedOut i d s).die d = (timeoutNoted i d s).die d :=
  congrArg (fun x => x.1.look {} d) (readTimedOut_timeoutSeen i d s)

/-- A die with as many timeouts in its window as fail it fails (R541). -/
def failedOfTimeouts (d : Nat) (s : State) : State :=
  if s.red.cfg.fail_count.toNat ≤ windowTimeouts s d then failDie d 3 s else s

section
variable {s : State} {i f : Nat} {o : NandOp} (ho : s.op i = some o) (hf : o.first = some f)
include ho hf

theorem exec_becalmedReadTimeout_of_early (hl : o.wait_from.getD s.run < f + s.red.readTimeout.toNat) :
    exec (.becalmedReadTimeout i) s = .next s := by
  show execBecalmedReadTimeout i s = _
  simp only [execBecalmedReadTimeout, ho, hf]
  exact if_neg fun h => Nat.not_le.mpr hl h.2.2

theorem exec_becalmedReadTimeout_of_late (hk : o.kind = .read) (ht : o.timed = false)
    (hl : f + s.red.readTimeout.toNat ≤ o.wait_from.getD s.run) :
    exec (.becalmedReadTimeout i) s
      = .next (settleMedia (failedOfTimeouts o.die (reconstructFor o (readTimedOut i o.die s)))) := by
  show execBecalmedReadTimeout i s = _
  simp only [execBecalmedReadTimeout, ho, hf]
  rw [if_pos ⟨hk, ht, hl⟩]
  have sameRed : (onOp i (fun x => { x with timed := true }) s).red = s.red := onOp_red ..
  unfold failedOfTimeouts readTimedOut timeoutNoted becalmEntered onDie
  rw [sameRed]

end

/-! ### Probes (R539) -/

/-- The block of a die that its probe reads: the first that holds valid units. -/
def probedBlock (s : State) (d : Nat) : Nat :=
  ((s.reclaim.blocks.find? fun p => p.1 / 4096 == d && decide (0 < p.2.valid)).map fun p => p.1 % 4096).getD 16

/-- The read of a probe. -/
def probeOp (s : State) (d : Nat) : NandOp :=
  { kind := .read, owner := .probe, die := d, block := probedBlock s d, pending := [0], stamp := s.nextStamp }

/-- A probe is sent to die `d`. -/
def probed (d : Nat) (s : State) : State := arm .probe d s.red.probeInterval.toNat
  (addOp (probeOp s d) (onBlock (blockKey d (probedBlock s d)) (fun b => { b with inflight := b.inflight + 1 }) s))

theorem exec_probeInterval_of_due {s : State} {d : Nat} (hd : s.due .probe d = true) (hb : (s.die d).becalmed = true)
    (h0 : (s.die d).state = 0) (hm : s.mode ≠ .patrol) : exec (.probeInterval d) s = .next (probed d s) := by
  have awake : (!match s.mode with | .patrol => true | _ => false) = true := by
    split
    · next h => exact absurd h hm
    · rfl
  exact if_pos ⟨hd, hb, h0, awake⟩

/-- Settles O41: each row by the limit or the timer that it finds passed. -/
theorem timeoutsOfDiesAct : Obligations.TimeoutsOfDiesAct := by
  unfold Obligations.TimeoutsOfDiesAct
  intro s
  refine ⟨fun i o ho => ⟨exec_dieOpTimeout_of_suspending ho, exec_dieOpTimeout_of_stuck ho, fun hs hl hu =>
      ⟨exec_dieOpTimeout_of_read ho hs hl hu, exec_dieOpTimeout_of_program ho hs hl hu,
        exec_dieOpTimeout_of_erase ho hs hl hu⟩⟩,
    fun d hr => ⟨exec_lunResetReady_of_idle hr, fun i => exec_lunResetReady_of_running hr,
      fun hd => ⟨exec_lunResetTimeout_of_idle hr hd, fun i => exec_lunResetTimeout_of_running hr hd⟩⟩,
    fun i o f ho hk ht hf => ⟨fun hl => ?late, exec_becalmedReadTimeout_of_early ho hf⟩,
    fun d hd hb h0 hm => ?probe⟩
  case late =>
    have die := (readTimedOut_die i o.die s).trans (timeoutNoted_die i o.die s)
    exact ⟨_, exec_becalmedReadTimeout_of_late ho hf hk ht hl, congrArg Die.timeouts die, congrArg Die.becalmed die,
      congrArg Prod.snd (readTimedOut_timeoutSeen i o.die s)⟩
  case probe =>
    refine ⟨probed d s, exec_probeInterval_of_due hd hb h0 hm, timer_arm_self .., rfl, ?_⟩
    exact congrArg _ ((Tab.find_put ..).trans (if_pos rfl))

end Sys2Proof.Machine
end


section
/-!
PROOFS. Keaka: training and failure of links, and the effect of each frame in order.
-/

namespace Sys2Proof.Machine

/-! ### Link training (R712, R714, R716) -/

section
variable {s : State} {n : Nat} (hn : n < 2)
include hn

section
variable (hh : s.isHeld .keaka = false) (ht : (s.linkStatus n).state = 1 ∨ (s.linkStatus n).state = 3)
include hh ht

/-- A link that is released and in training takes its next step. -/
theorem linkTrains :
    ¬(decide (2 ≤ n) || s.isHeld .keaka || !((s.linkStatus n).state == 1 || (s.linkStatus n).state == 3)) = true := by
  rcases ht with ht | ht <;> simp [ht, hh, Nat.not_le.mpr hn]

theorem exec_keakaLinkTrainingStep_detects (w : Nat) (hs : (s.link n).step = 1) (hp : s.pads.present.getLsbD n = true) :
    exec (.keakaLinkTrainingStep n w) s = .next (onLink n (fun x => { x with step := 2 }) s) := by
  show execKeakaLinkTrainingStep n w s = _
  simp only [execKeakaLinkTrainingStep, hs]
  rw [if_neg (linkTrains hn hh ht), if_pos hp]

theorem exec_keakaLinkTrainingStep_locks (w : Nat) (hs : (s.link n).step = 2) :
    exec (.keakaLinkTrainingStep n w) s = .next (onLink n (fun x => { x with step := 3 }) s) := by
  show execKeakaLinkTrainingStep n w s = _
  simp only [execKeakaLinkTrainingStep, hs]
  rw [if_neg (linkTrains hn hh ht)]

theorem exec_keakaLinkTrainingStep_widens (w : Nat) (hs : (s.link n).step = 3) :
    exec (.keakaLinkTrainingStep n w) s = .next (widthChosen n w s) := by
  show execKeakaLinkTrainingStep n w s = _
  simp only [execKeakaLinkTrainingStep, hs]
  rw [if_neg (linkTrains hn hh ht)]

theorem exec_keakaLinkTrainingStep_identifies (w : Nat) (hs : (s.link n).step = 4) : exec (.keakaLinkTrainingStep n w) s
    = .next (say (.frame n 0x01 (s.linkStatus n).peer.toNat 0 0 (identBody s)) (onLink n (fun x => { x with step := 5 }) s)) := by
  show execKeakaLinkTrainingStep n w s = _
  simp only [execKeakaLinkTrainingStep, hs]
  rw [if_neg (linkTrains hn hh ht)]

theorem exec_keakaLinkTrainingStep_raises (w : Nat) (hs : (s.link n).step = 5)
    (hi : (s.keaka.yards.look {} (s.linkStatus n).peer.toNat).ident_ok = true) :
    exec (.keakaLinkTrainingStep n w) s = .next (linkRaised n s) := by
  show execKeakaLinkTrainingStep n w s = _
  simp only [execKeakaLinkTrainingStep, hs]
  rw [if_neg (linkTrains hn hh ht), if_pos hi]

end

/-- An Ident frame of the peer is taken in training, before frames are numbered (R714). -/
theorem exec_identFrame_of_training {f : KkHeader} (i : KkIdent) (hu : s.linkUp n = false)
    (ht : (s.linkStatus n).state = 1 ∨ (s.linkStatus n).state = 3) (h4 : 4 ≤ (s.link n).step)
    (hp : f.src = (s.linkStatus n).peer.toNat) : exec (.identFrame n f i) s = .next (takeIdent n f i s) := by
  have training : (s.linkStatus n).state = 1#4 ∨ (s.linkStatus n).state = 3#4 := ht
  show execIdentFrame n f i s = _
  rw [execIdentFrame, if_pos ⟨hn, by simp [hu]⟩, if_pos (by simp [training, h4, hp])]

/-! ### Links that are up (R715 to R717) -/

section
variable (hu : s.linkUp n = true)
include hu

/-- Frames of a link that is up are taken. -/
theorem linkReceives : ¬(decide (2 ≤ n) || !s.linkUp n) = true := by
  simp [hu, Nat.not_le.mpr hn]

theorem exec_frameReceiveError_of_up (k : FrameError) : exec (.frameReceiveError n k) s = .next (sendNak n (match k with
    | .crc => { s with kk.frameErr.crc := satAdd s.kk.frameErr.crc 1 }
    | .length => { s with kk.frameErr.length := satAdd s.kk.frameErr.length 1 }
    | .sequence => s)) := by
  cases k <;> exact congrArg Host.Outcome.next (if_neg (linkReceives hn hu))

theorem receiveFrame_out_of_order {h : KkHeader} (type : Nat) (b : List Nat) (f : State → State)
    (ho : h.seq ≠ (s.link n).rx_seq) : receiveFrame n h type b f s = .next (sendNak n s) := by
  rw [receiveFrame, if_neg (linkReceives hn hu), if_pos ho]

theorem receiveFrame_in_order {h : KkHeader} (type : Nat) (b : List Nat) (f : State → State)
    (ho : h.seq = (s.link n).rx_seq) : receiveFrame n h type b f s
      = .next (if h.dst = (acceptFrame n h s).position then f (acceptFrame n h s)
          else sendOnLink (linkToward (acceptFrame n h s) 4 h.dst)
            { type := type, src := h.src, dst := h.dst, tag := h.tag, body := b } (acceptFrame n h s)) := by
  rw [receiveFrame, if_neg (linkReceives hn hu), if_neg (not_not_intro ho)]

theorem exec_keakaLaneLockLoss_of_up : exec (.keakaLaneLockLoss n) s = .next (beginRetrain n s) :=
  congrArg _ (if_pos (by simp [hn, hu]))

end

end

section
variable {s : State} {n : Nat} (hu : s.linkUp n = true)
include hu

theorem exec_keakaHeartbeatSend_of_due (hd : s.due .kkHeartbeat n = true) : exec (.keakaHeartbeatSend n) s
    = .next (sendOnLink n { type := 0x3F, src := s.position, dst := (s.linkStatus n).peer.toNat } s) :=
  congrArg _ (if_pos (by simp [hd, hu]))

theorem exec_keakaAckTimeout_of_due (hd : s.due .kkAck n = true) (hr : (s.link n).replay ≠ []) :
    exec (.keakaAckTimeout n) s = .next (beginRetrain n s) :=
  congrArg _ (if_pos (by simp [hd, hu, hr]))

theorem exec_keakaLinkTimeout_of_due (hd : s.due .kkLink n = true) :
    exec (.keakaLinkTimeout n) s = .next (linkDown n s) :=
  congrArg _ (if_pos (by simp [hd, hu]))

end

/-! ### Yards (R718, R731) -/

/-- A yard that has not joined is lost (R731). -/
def yardMissed (p : Nat) (s : State) : State :=
  if topoPresent s p && !s.kk.status.joined.getLsbD p && !s.kk.status.lost.getLsbD p then loseYard p s else s

theorem exec_keakaJoinTimeout_of_due {s : State} (hd : s.due .kkJoin 0 = true) (hy : s.yard = false) :
    exec .keakaJoinTimeout s = .next (each [1, 2, 3] yardMissed (disarm .kkJoin 0 s)) :=
  congrArg _ (if_pos (by simp [hd, hy]))

/-- The interval of a yard's dialogs runs again. -/
def dialogArmed (s : State) : State := arm .yardDialog 0 s.camp.ptmInterval.toNat s

section
variable {s : State} (hy : s.yard = true) (hd : s.due .yardDialog 0 = true) (hf : s.camp.status.floor_seeded = true)
include hy hd hf

theorem exec_yardTimeDialogInterval_of_down (hu : s.linkUp 0 = false) :
    exec .yardTimeDialogInterval s = .next (startYardDialog (dialogArmed s)) := by
  have down : (dialogArmed s).linkUp 0 = false := hu
  show execYardTimeDialogInterval s = _
  rw [execYardTimeDialogInterval, if_pos (by simp [hy, hd, hf]), ← dialogArmed, if_pos (by simp [down])]

/-- The health log goes to the masthead before the dialog (log entries 53 and 54). -/
theorem exec_yardTimeDialogInterval_of_up {st : Stamped} {u : State} (hu : s.linkUp 0 = true)
    (ht : takeStamp (dialogArmed s) = (st, u)) : exec .yardTimeDialogInterval s
      = .next (startYardDialog (sendFrame 0x38 0 0 (4 :: (healthLog u st ++ logTail u).map BitVec.toNat) u)) := by
  have up : (dialogArmed s).linkUp 0 = true := hu
  show execYardTimeDialogInterval s = _
  rw [execYardTimeDialogInterval, if_pos (by simp [hy, hd, hf]), ← dialogArmed, if_neg (by simp [up]), ht]

end

/-- Settles O47: each row by the step of the link, its timer, or the number of the frame. That a yard's health log goes with its
dialog is the model's choice (log entries 53 and 54). -/
theorem keakaLinksTrainAndFail : Obligations.KeakaLinksTrainAndFail := by
  unfold Obligations.KeakaLinksTrainAndFail
  intro s n hn
  refine ⟨fun w hh ht => ⟨exec_keakaLinkTrainingStep_detects hn hh ht w, exec_keakaLinkTrainingStep_locks hn hh ht w,
      exec_keakaLinkTrainingStep_widens hn hh ht w, exec_keakaLinkTrainingStep_identifies hn hh ht w,
      exec_keakaLinkTrainingStep_raises hn hh ht w⟩,
    fun f i => exec_identFrame_of_training hn i,
    fun hu => ⟨exec_frameReceiveError_of_up hn hu .crc, exec_frameReceiveError_of_up hn hu .length,
      exec_frameReceiveError_of_up hn hu .sequence, exec_keakaHeartbeatSend_of_due hu, exec_keakaAckTimeout_of_due hu,
      exec_keakaLaneLockLoss_of_up hn hu, exec_keakaLinkTimeout_of_due hu,
      fun f => receiveFrame_out_of_order hn hu 0x3F [] id⟩,
    exec_keakaJoinTimeout_of_due, fun t hy hd hf ht => ?dialog⟩
  case dialog =>
    subst ht
    exact ⟨exec_yardTimeDialogInterval_of_down hy hd hf, fun st u => exec_yardTimeDialogInterval_of_up hy hd hf⟩

/-! ### Frames in order (R706, R713, R715, R717) -/

theorem acked_pad (l n : Nat) (s : State) : (acked l n s).pad = s.pad := by
  have link (f : KkLink → KkLink) : (onLink l f s).pad = s.pad := by
    unfold onLink
    split <;> rfl
  have narrow (t : State) : (narrowLink l t).pad = t.pad := by
    unfold narrowLink onLinkStatus
    split <;> rfl
  unfold acked
  extract_lets left t u
  refine ite_shows (f := State.pad) rfl (ite_shows (f := State.pad) ?_ (link _))
  split
  · exact (narrow _).trans (link _)
  · exact link _

/-- The acceptance of a frame leaves the position of the device, which is strapped. -/
theorem acceptFrame_position (n : Nat) (h : KkHeader) (s : State) : (acceptFrame n h s).position = s.position := by
  have pad : (acceptFrame n h s).pad = s.pad := by
    refine (acked_pad ..).trans ?_
    show (onLink n _ s).pad = s.pad
    unfold onLink
    split <;> rfl
  simp only [State.position, pad]

/-- A frame in order arrives on a link that is up, and `t` is the state that has accepted it. -/
def Accepted (s t : State) (n : Nat) (h : KkHeader) : Prop :=
  n < 2 ∧ s.linkUp n = true ∧ h.seq = (s.link n).rx_seq ∧ t = acceptFrame n h s

section
variable {s t : State} {n : Nat} {h : KkHeader} (ha : Accepted s t n h)
include ha

/-- A frame for another position goes on its way unchanged (R706). -/
theorem receiveFrame_elsewhere (type : Nat) (b : List Nat) (f : State → State) (hd : h.dst ≠ s.position) :
    receiveFrame n h type b f s = .next (sendOnLink (linkToward t 4 h.dst)
      { type := type, src := h.src, dst := h.dst, tag := h.tag, body := b } t) := by
  obtain ⟨hn, hu, ho, rfl⟩ := ha
  rw [receiveFrame_in_order hn hu type b f ho, acceptFrame_position, if_neg hd]

variable (hd : h.dst = s.position)
include hd

/-- A frame for this position has its effect. -/
theorem receiveFrame_here (type : Nat) (b : List Nat) (f : State → State) :
    receiveFrame n h type b f s = .next (f t) := by
  obtain ⟨hn, hu, ho, rfl⟩ := ha
  rw [receiveFrame_in_order hn hu type b f ho, acceptFrame_position, if_pos hd]

theorem exec_linkControl_here (k : Option Nat) :
    exec (.linkControl n h k) s = .next (k.elim t fun k => resendFrom n k t) := by
  show execLinkControl n h k s = _
  unfold execLinkControl
  rw [receiveFrame_here ha hd]
  cases k <;> rfl

theorem exec_identFrame_here (i : KkIdent) : exec (.identFrame n h i) s = .next (takeIdent n h i t) := by
  have up : ¬(n < 2 ∧ (!s.linkUp n) = true) := fun hx => by simp [ha.2.1] at hx
  show execIdentFrame n h i s = _
  rw [execIdentFrame, if_neg up, receiveFrame_here ha hd]

/-! ### Time and floors (R718, R719, R721) -/

theorem exec_timeRequest_here (k : Nat) : exec (.timeRequest n h k) s
    = .next (sendOnLink n { type := 0x04, src := t.position, dst := h.src, tag := h.tag, body := [k, t.h, t.h,
        t.camp.status.anchored.toNat, if t.yard then t.keaka.step_count.getD 0 else t.keaka.steps] } t) := by
  show execTimeRequest n h k s = _
  rw [execTimeRequest, receiveFrame_here ha hd]

theorem exec_timeResponse_of_asked {r : KkTime} (hy : t.yard = true) (hr : t.keaka.request = some r.t1)
    (hh : t.h ≤ r.t1 + 2 ^ 22) : exec (.timeResponse n h r) s = .next (takeTime r t) := by
  show execTimeResponse n h r s = _
  rw [execTimeResponse, receiveFrame_here ha hd]
  simp only [hr, hy]
  exact congrArg _ (if_pos (by simpa using hh))

theorem exec_floorSet_of_yard (k : Nat) (hy : t.yard = true) :
    exec (.floorSet n h k) s = .next { t with keaka.floor_set := some k } := by
  show execFloorSet n h k s = _
  rw [execFloorSet, receiveFrame_here ha hd, if_pos hy]

theorem exec_floorReport_of_masthead (k : Nat) (hy : t.yard = false) : exec (.floorReport n h k) s = .next { t with
    keaka.yards := t.keaka.yards.put h.src { t.keaka.yards.look {} h.src with floor := some k } } := by
  show execFloorReport n h k s = _
  rw [execFloorReport, receiveFrame_here ha hd, if_neg (by simp [hy])]

/-! ### Slices (R722, R723, R726, R734) -/

theorem exec_sliceOpen_of_refused (x : KkSlice) (hy : t.yard = true) (hr : sliceRefusal t ≠ 0) :
    exec (.sliceOpen n h x) s = .next (sendFrame 0x12 0 h.tag [1, sliceRefusal t] t) := by
  show execSliceOpen n h x s = _
  rw [execSliceOpen, receiveFrame_here ha hd, if_neg (by simp [hy]), if_pos hr]

theorem exec_sliceOpen_of_taken (x : KkSlice) (hy : t.yard = true) (hr : sliceRefusal t = 0) :
    exec (.sliceOpen n h x) s = .next { t with keaka.slices := t.keaka.slices
      ++ [{ tag := h.tag, ns_index := x.ns_index, first := x.first, units := x.units, stamp := x.stamp, halt := x.halt }] } := by
  show execSliceOpen n h x s = _
  rw [execSliceOpen, receiveFrame_here ha hd, if_neg (by simp [hy]), if_neg (not_not_intro hr)]

theorem exec_writeData_here (u : Nat) (f : Frame) : exec (.writeData n h u f) s
    = .next (onYardSlice h.tag (fun y => { y with received := y.received.put u f }) t) := by
  show execWriteData n h u f s = _
  rw [execWriteData, receiveFrame_here ha hd]

section
variable {e : Entry} (hy : t.yard = false) (he : t.nvme.tracker.find (tagEntry h.tag) = some e)
include hy he

theorem exec_sliceStatus_of_refused (st : Nat) :
    exec (.sliceStatus n h (.refused st)) s = .next (wakeAll (failEntry (tagEntry h.tag) st 0 t)) := by
  show execSliceStatus n h (.refused st) s = _
  rw [execSliceStatus, receiveFrame_here ha hd, if_neg (by simp [hy]), he]

theorem exec_sliceStatus_of_held (j : Nat) : exec (.sliceStatus n h (.held j)) s
    = .next (if e.sqe.opcode = 0x01 ∧ e.sqid ≠ 0 then pieceHeldAway h.tag j h.src t
        else wakeAll (yardAnswered (tagEntry h.tag) h.src t)) := by
  show execSliceStatus n h (.held j) s = _
  rw [execSliceStatus, receiveFrame_here ha hd, if_neg (by simp [hy]), he]

theorem exec_readStatus_of_failed {st u : Nat} {l : List Nat} (hs : st ≠ 0)
    (hl : e.remote_left.filter (fun u => deviceOf t e.sqe.ns u == h.src) = u :: l) :
    exec (.readStatus n h st) s
      = .next (wakeAll (dataArrived (tagEntry h.tag) (unitFailed (tagEntry h.tag) u st t))) := by
  show execReadStatus n h st s = _
  rw [execReadStatus, receiveFrame_here ha hd]
  simp only [he]
  rw [if_neg (by simp [hy, hs]), hl]

end

/-- A release that names no piece releases every piece of its command (log entry 101). -/
theorem exec_releaseFrame_of_all : exec (.releaseFrame n h []) s = .next { t with
    keaka.slices := t.keaka.slices.map fun y => if tagEntry y.tag = tagEntry h.tag then { y with released := true } else y } := by
  show execReleaseFrame n h [] s = _
  rw [execReleaseFrame, receiveFrame_here ha hd]
  simp only [if_true]

theorem exec_releaseFrame_of_named {l : List Nat} (hl : l ≠ []) : exec (.releaseFrame n h l) s = .next { t with
    keaka.slices := t.keaka.slices.map fun y => if y.tag = h.tag then { y with permitted := y.permitted ++ l } else y } := by
  show execReleaseFrame n h l s = _
  rw [execReleaseFrame, receiveFrame_here ha hd]
  simp only [if_neg hl]

/-- The slices of an aborted command release what is not held (R726). -/
def slicesReleased (tag : Nat) (s : State) : State :=
  each (s.keaka.slices.filter fun y => tagEntry y.tag == tagEntry tag)
    (fun y s => if y.admitted then releaseSliceUnits y.desc (y.unheld s) s else s) s

theorem exec_abortFrame_of_yard (hy : t.yard = true) : exec (.abortFrame n h) s = .next (wakeAll { slicesReleased h.tag t with
    keaka.slices := (slicesReleased h.tag t).keaka.slices.filter fun y => !(tagEntry y.tag == tagEntry h.tag)
    nvme.tracker := (slicesReleased h.tag t).nvme.tracker.drop (tagEntry h.tag) }) := by
  show execAbortFrame n h s = _
  rw [execAbortFrame, receiveFrame_here ha hd, if_neg (by simp [hy])]
  rfl

/-! ### Reads of yards and records (R725, R727, R728) -/

theorem exec_readRequest_of_yard (x : KkSlice) (hy : t.yard = true) {e : Entry}
    (he : e = (t.nvme.tracker.find (tagEntry h.tag)).getD
      { ctrl := 0, sqid := 1, state := .overlap, admitted := x.stamp,
        sqe := { opcode := 0x02, nsid := BitVec.ofNat 32 (x.ns_index + 1) } }) :
    exec (.readRequest n h x) s = .next (pumpReads (tagEntry h.tag) { t with
      nvme.tracker := t.nvme.tracker.put (tagEntry h.tag)
        { e with unread := e.unread ++ (List.range x.units).map fun k => unitOfDevice t (x.first + k) } }) := by
  subst he
  show execReadRequest n h x s = _
  rw [execReadRequest, receiveFrame_here ha hd, if_neg (by simp [hy])]

theorem exec_readData_of_masthead (u : Nat) (f : Frame) (hy : t.yard = false) :
    exec (.readData n h u f) s = .next (wakeAll (unitReturned (tagEntry h.tag) u h.src f t)) := by
  show execReadData n h u f s = _
  rw [execReadData, receiveFrame_here ha hd, if_neg (by simp [hy])]

theorem exec_recordFrame_of_room {r : MapRecord} (hy : t.yard = true)
    (hr : (chunkRuns s r.ns_index (r.first, r.count)).length ≤ recordRoom s) : exec (.recordFrame n h r) s
      = .next (settleMedia (sendFrame 0x12 0 h.tag [0, 0] (each (chunkRuns s r.ns_index (r.first, r.count))
          (fun x => holdChange r.kind r.ns_index r.ordinal x.1 x.2 r.stamp) t))) := by
  show execRecordFrame n h r s = _
  rw [execRecordFrame, if_neg (by simp [hr]), receiveFrame_here ha hd, if_neg (by simp [hy])]

/-! ### Administration, power states and reports (R728, R729, R733, R735, R737) -/

theorem exec_adminForward_of_yard (op : KkAdmin) (hy : t.yard = true) :
    exec (.adminForward n h op) s = .next (runForwarded h.tag op t) := by
  show execAdminForward n h op s = _
  rw [execAdminForward, receiveFrame_here ha hd, if_pos hy]

theorem exec_adminResult_of_asked (st d : Nat)
    (hk : (t.keaka.admin.any fun a => a.entry == h.tag && a.asked == some h.src) = true) :
    exec (.adminResult n h st d) s = .next (forwardEnded h.tag st d t) := by
  show execAdminResult n h st d s = _
  rw [execAdminResult, receiveFrame_here ha hd, if_pos hk]

section
variable (hy : t.yard = true) (hs : t.serving = true) (hr : t.power_states.returning = none)
include hy hs hr

theorem exec_powerStateRequest_of_return {p : Nat} {b : Bool} (hb : b = true ∨ p = 0) :
    exec (.powerStateRequest n h p b) s = .next (beginReturn p none (setRequested 0 p t)) := by
  show execPowerStateRequest n h p b s = _
  rw [execPowerStateRequest, receiveFrame_here ha hd, if_neg (by simp [hy, hs, hr]), if_pos (by simpa using hb)]

theorem exec_powerStateRequest_of_entry {p : Nat} (hp : p ≠ 0) (hh : t.power_states.handshake = none) :
    exec (.powerStateRequest n h p false) s
      = .next (beginHandshake p 0 none { t with keaka.parent_request := some h.tag }) := by
  show execPowerStateRequest n h p false s = _
  rw [execPowerStateRequest, receiveFrame_here ha hd, if_neg (by simp [hy, hs, hr]), if_neg (by simp [hp]),
    if_neg (by simp [hh])]

end

section
variable {x : Handshake} (hx : t.power_states.handshake = some x) (hw : x.waiting.contains 0x0B = true)
include hx hw

theorem exec_powerStateReply_of_refused (a b : Nat) :
    exec (.powerStateReply n h (some (a, b))) s = .next (refuseHandshake x [0x0B] b t) := by
  show execPowerStateReply n h (some (a, b)) s = _
  rw [execPowerStateReply, receiveFrame_here ha hd]
  simp only [hx]
  rw [if_pos hw]

/-- A child has answered (R735). -/
def childAnswered (p : Nat) (s : State) : State :=
  { s with keaka.power_waiting := s.keaka.power_waiting.filter fun q => q != p }

theorem exec_powerStateReply_of_accepted : exec (.powerStateReply n h none) s
    = .next (if (childAnswered h.src t).keaka.power_waiting = [] then participantAccepts 0x0B x (childAnswered h.src t)
        else childAnswered h.src t) := by
  show execPowerStateReply n h none s = _
  rw [execPowerStateReply, receiveFrame_here ha hd]
  simp only [hx, hw, Bool.and_true, List.isEmpty_iff]
  rfl

end

theorem exec_eventForward_of_masthead (r : KkReport) (hy : t.yard = false) :
    exec (.eventForward n h r) s = .next (takeReport h.src r t) := by
  show execEventForward n h r s = _
  rw [execEventForward, receiveFrame_here ha hd, if_neg (by simp [hy])]

end

/-- Settles O48: a frame in order is accepted, and each kind of frame has the effect of its own lemma. What a release frame
names is the model's choice (log entry 101), as is when reports of a yard enter (log entries 53 and 102). -/
theorem keakaFramesTakeEffect : Obligations.KeakaFramesTakeEffect := by
  unfold Obligations.KeakaFramesTakeEffect
  intro s t n h hn hu ho ht
  have ha : Accepted s t n h := ⟨hn, hu, ho, ht⟩
  refine ⟨receiveFrame_elsewhere ha 0x3F [] id, fun hd => ?_⟩
  refine ⟨receiveFrame_here ha hd 0x3F [] id, exec_linkControl_here ha hd none, fun k => exec_linkControl_here ha hd (some k),
    exec_identFrame_here ha hd, fun k b hb => ?time, fun r => exec_timeResponse_of_asked ha hd,
    exec_floorSet_of_yard ha hd, exec_floorReport_of_masthead ha hd, exec_sliceOpen_of_refused ha hd,
    exec_sliceOpen_of_taken ha hd, exec_writeData_here ha hd,
    fun e st hy he => exec_sliceStatus_of_refused ha hd hy he st, fun e j hy he ho hq => ?piece,
    fun e j hy he ho => ?records, exec_releaseFrame_of_all ha hd, fun l => exec_releaseFrame_of_named ha hd,
    fun u hy hu => ?abort, fun x e hy he => exec_readRequest_of_yard ha hd x hy he, exec_readData_of_masthead ha hd,
    fun st e u l hy hs he hl => exec_readStatus_of_failed ha hd hy he hs hl,
    fun r _ hy hr => exec_recordFrame_of_room ha hd hy hr, exec_adminForward_of_yard ha hd,
    exec_adminResult_of_asked ha hd,
    fun p b hy hs hr => ⟨exec_powerStateRequest_of_return ha hd hy hs hr, exec_powerStateRequest_of_entry ha hd hy hs hr⟩,
    fun x a b hx hw => exec_powerStateReply_of_refused ha hd hx hw a b, fun x u hx hw hu => ?reply,
    exec_eventForward_of_masthead ha hd⟩
  case time =>
    rw [hb]
    exact exec_timeRequest_here ha hd k
  case piece => rw [exec_sliceStatus_of_held ha hd hy he, if_pos ⟨ho, hq⟩]
  case records =>
    rw [exec_sliceStatus_of_held ha hd hy he, if_neg]
    rintro ⟨write, io⟩
    exact ho.elim (fun h => h write) io
  case abort =>
    subst hu
    exact exec_abortFrame_of_yard ha hd hy
  case reply =>
    change u = childAnswered h.src t at hu
    subst hu
    rw [exec_powerStateReply_of_accepted ha hd hx hw]
    exact ⟨fun none => by rw [if_pos none], fun some => by rw [if_neg some]⟩

end Sys2Proof.Machine
end
